-- ==== Sys2Proof/Word.lean ====
section
/-!
DEFINITION. Words, bytes and sparse maps: the plain data that every other file is written over.
A sparse map lists only the keys whose value differs from a default, in strictly rising order of key, so that equal maps are equal lists.
Memory is such a map from addresses to bytes (Host.Cell is its entry type).
-/

namespace Sys2Proof

/-- Eight bits. -/
abbrev Byte := BitVec 8
/-- Sixteen bits. -/
abbrev Half := BitVec 16
/-- An engine word (R35). -/
abbrev Word := BitVec 32
/-- A 64-bit value. -/
abbrev DWord := BitVec 64

/-- A sparse map from natural numbers. -/
abbrev FMap (α : Type) := List (Nat × α)

/-- The value at key `k`; a key that is not listed has the default `d`. -/
def FMap.get {α : Type} (d : α) : FMap α → Nat → α
  | [], _ => d
  | (k', v) :: m, k => if k = k' then v else FMap.get d m k

/-- Write `v` at key `k`, keeping the canonical form. -/
def FMap.set {α : Type} [DecidableEq α] (d : α) : FMap α → Nat → α → FMap α
  | [], k, v => if v = d then [] else [(k, v)]
  | (k', v') :: m, k, v =>
    if k < k' then (if v = d then (k', v') :: m else (k, v) :: (k', v') :: m)
    else if k = k' then (if v = d then m else (k, v) :: m)
    else (k', v') :: FMap.set d m k v

/-- The keys that are listed, in rising order. -/
def FMap.keys {α : Type} (m : FMap α) : List Nat := m.map Prod.fst

/-- The listed keys rise strictly and every one is at least `lo`. -/
def FMap.sortedFrom {α : Type} : Nat → FMap α → Bool
  | _, [] => true
  | lo, (k, _) :: m => decide (lo ≤ k) && FMap.sortedFrom (k + 1) m

/-- The canonical form: keys rise strictly and no entry equals the default. -/
def FMap.wf {α : Type} [DecidableEq α] (d : α) (m : FMap α) : Bool :=
  FMap.sortedFrom 0 m && m.all (fun e => decide (e.2 ≠ d))

/-- Change every listed value with `f`, dropping what becomes the default. -/
def FMap.mapVals {α : Type} [DecidableEq α] (d : α) (f : Nat → α → α) (m : FMap α) : FMap α :=
  m.filterMap (fun e => if f e.1 e.2 = d then none else some (e.1, f e.1 e.2))

/-- A memory: a sparse map of bytes. -/
abbrev Mem := List (Nat × BitVec 8)

end Sys2Proof
end

