-- ==== Sys2Proof/Syntax/Types.lean ====
section
/-!
DEFINITION. The operand types of the commands: what a command of spec/opcode_table.json carries beside its name.
The table gives no operand fields, so each row's operands are read from its rule.
-/

namespace Sys2Proof

/-- One instruction issue: the physical engine (physical yard × 32 + engine, R228) and the context, whether the instruction is a
compressed one (R36), and whether the instruction bank's check fails on the fetch (R365). -/
structure Issue where
  eng : Fin 1088
  thr : Fin 8
  compressed : Bool
  fetchBad : Bool
deriving DecidableEq, Repr

/-- RV32I register and immediate operations (R35, R36). -/
inductive AluOp where
  | add | sub | sll | slt | sltu | xor | srl | sra | or | and
deriving DecidableEq, Repr

/-- The second operand of an integer operation. -/
inductive Src2 where
  | reg (r : Fin 32)
  | imm (v : BitVec 12)
deriving DecidableEq, Repr

/-- Conditional branches of RV32I. -/
inductive BrCond where
  | eq | ne | lt | ge | ltu | geu
deriving DecidableEq, Repr

/-- Multiplications of the M extension. -/
inductive MulOp where
  | mul | mulh | mulhsu | mulhu
deriving DecidableEq, Repr

/-- Divisions of the M extension. -/
inductive DivOp where
  | div | divu | rem | remu
deriving DecidableEq, Repr

/-- Load widths. -/
inductive LdW where
  | b | h | w | bu | hu
deriving DecidableEq, Repr

/-- Store widths. -/
inductive StW where
  | b | h | w
deriving DecidableEq, Repr

/-- CSR access forms: write, set bits, clear bits. -/
inductive CsrForm where
  | rw | rs | rc
deriving DecidableEq, Repr

/-- The source of a CSR instruction. -/
inductive CsrSrc where
  | reg (r : Fin 32)
  | uimm (v : BitVec 5)
deriving DecidableEq, Repr

/-- An engine's instruction as its word spells it (R35, R49). -/
inductive ErgOp where
  | integerOp (op : AluOp) (rd rs1 : Fin 32) (src : Src2)
  | lui (rd : Fin 32) (imm : BitVec 20)
  | auipc (rd : Fin 32) (imm : BitVec 20)
  | branch (c : BrCond) (rs1 rs2 : Fin 32) (off : BitVec 13)
  | jal (rd : Fin 32) (off : BitVec 21)
  | jalr (rd rs1 : Fin 32) (imm : BitVec 12)
  | mul (op : MulOp) (rd rs1 rs2 : Fin 32)
  | div (op : DivOp) (rd rs1 rs2 : Fin 32)
  | load (w : LdW) (rd rs1 : Fin 32) (imm : BitVec 12)
  | store (w : StW) (rs1 rs2 : Fin 32) (imm : BitVec 12)
  | fence
  | ecall
  | ebreak
  | csr (form : CsrForm) (csr : BitVec 12) (src : CsrSrc) (rd : Fin 32)
  | yieldt (rs1 : Fin 32)
  | fork (rd rs1 rs2 : Fin 32)
  | join (rd rs1 : Fin 32)
  | pksel (rs1 : Fin 32)
  | post (rd rs1 rs2 : Fin 32)
  | tlkp (rd rs1 rs2 : Fin 32)
  | chsend (rs1 rs2 : Fin 32)
  | chsendl (rs1 rs2 : Fin 32)
  | chrecv (rd rs1 : Fin 32)
  | chpoll (rd rs1 : Fin 32)
  | bfalloc (rd rs1 : Fin 32)
  | bfown (rd rs1 rs2 : Fin 32)
  | bffree (rd rs1 rs2 : Fin 32)
  | enq (rd rs1 rs2 : Fin 32)
  | crc32c (rd rs1 rs2 : Fin 32)
  | bswap (rd rs1 : Fin 32)
  | csum16 (rd rs1 rs2 : Fin 32)
  | saadd (rd rs1 rs2 : Fin 32)
  | saswap (rd rs1 rs2 : Fin 32)
  | sacas (rd rs1 rs2 : Fin 32)
  | samin (rd rs1 rs2 : Fin 32)
  | samax (rd rs1 rs2 : Fin 32)
  | saand (rd rs1 rs2 : Fin 32)
  | saor (rd rs1 rs2 : Fin 32)
  | saxor (rd rs1 rs2 : Fin 32)
  | sainc64 (rs1 rs2 : Fin 32)
deriving DecidableEq, Repr

/-- The header of a command block as the firmware has read it (R226), the mailbox pair it came by, and the status of the
firmware's read of the block (R229, R195; 0x00 when the read succeeded). `opcode` is the OPCODE of a block that carries another one than the row's,
which no row has (step 2 of R229). -/
structure MbHdr where
  hm : Fin 64
  length : Nat
  checkOnly : Bool
  v2 : Bool
  hostTag : DWord
  readStatus : Byte
  opcode : Option Nat := none
deriving DecidableEq, Repr

/-- The strap contacts (R431, R434, R430). -/
structure Straps where
  bootMode : BitVec 2
  compatBoot : Bool
  safeHold : Bool
  pos : Fin 8
  stackEn : Bool
deriving DecidableEq, Repr

/-- The resource block RES (R234). -/
structure Res where
  rings : Nat
  nvmeq : Nat
  ops : Nat
  vecNet : Nat
  vecSto : Nat
  regs : Nat
  ctxs : Nat
  ns : Nat
deriving DecidableEq, Repr

/-- A party that can send or read a mailbox message or hold a lock (R208): class and index of its stamp. -/
structure Source where
  cls : Fin 8
  idx : Nat
deriving DecidableEq, Repr

/-- Why a conventional reset happened (R204, R378). -/
inductive ResetCause where
  | linkDown | hotReset | perst
deriving DecidableEq, Repr

/-- The errors of the link that R194 names: the fatal ones, then the correctable ones. -/
inductive LinkError where
  | malformed | flowControl | dataLink | receiver | badTlp | badDllp | replayTimeout | replayRollover
deriving DecidableEq, Repr

/-- The requests that end Unsupported Request, and a poisoned one (R194). -/
inductive BadRequest where
  | ioRequest | atomicOp | type1Config | absentFunction | poisoned
deriving DecidableEq, Repr

/-- PCIe link power states (R207, R206). -/
inductive LState where
  | l0 | l0s | l1 | l11 | l12 | l2
deriving DecidableEq, Repr

/-- Time sources (R29, R241): the numbers of TIME_QUERY are 1 stack, 2 PTP, 3 PPS. -/
inductive TimeSource where
  | stack | ptp | pps
deriving DecidableEq, Repr

/-- How a completion for a host read ends (R195). -/
inductive CplOutcome where
  | data (bytes : List Byte)
  | urOrCa
  | poisoned
deriving DecidableEq, Repr

/-- A descriptor of a ring (R256). -/
structure Desc where
  addr : DWord
  len : Word
  flags : Word
  tag : DWord
  spec : DWord
deriving DecidableEq, Repr

/-- A staged entry of STAGE_ENTRIES (R236). KEY and KEY2 are 40 bytes each. -/
structure StagedEntry where
  op : Byte
  prio : Half
  num : Word
  key : List Byte
  key2 : List Byte
  action : Word
  data : List Word
deriving DecidableEq, Repr

/-- The attribute part of TM_ATTR (R240). -/
structure TmAttrs where
  cquantum : List Word
  strict7 : Byte
  weight : Half
  lgroup : Byte
  ledgerMode : Byte
  ledgerSlack : Word
deriving DecidableEq, Repr

/-- What the remote Identify Namespace says (R318): the format's block size, the number of blocks, and whether it has metadata or
protection information. -/
structure RemoteNs where
  block : Nat
  blocks : Nat
  metaOrPi : Bool
deriving DecidableEq, Repr

/-- A RoCEv2 packet handed to the RDMA transport (R326, R328): the buffer that holds it, the carries C0 and C28, the wire check of
R96, BTH fields, the RETH or AETH where present, and the payload. -/
structure RdmaPkt where
  handle : Word
  icrcBad : Bool
  ctxBad : Bool := false
  c0 : Word
  inst : Half
  gen : Half
  qpn : Nat
  opcode : Byte
  psn : Nat
  ackReq : Bool
  va : DWord
  rkey : Word
  dmaLen : Nat
  syndrome : Byte
  payload : List Byte
deriving DecidableEq, Repr

/-- The placement header of spray packets (R342). -/
structure SprayHdr where
  msg : Nat
  offset : Nat
  mlen : Nat
  path : Nat
  flags : Byte
  span : Nat
deriving DecidableEq, Repr

/-- An NVMe submission queue entry as fetched (R303, R305): the controller (function number), the queue, and the entry's fields.
`reserved` says that some reserved field is not 0; `prps` are the PRP list entries after PRP1; `opcode` is the opcode of an entry that carries another
one than the row's, which no row has (R303, R304). -/
structure NvCmd where
  ctl : Nat
  sqid : Nat
  cid : Half
  nsid : Word
  fuse : BitVec 2
  psdt : BitVec 2
  reserved : Bool
  prp1 : DWord
  prps : List DWord
  cdw10 : Word
  cdw11 : Word
  cdw12 : Word
  cdw13 : Word
  cdw14 : Word
  cdw15 : Word
  opcode : Option Byte := none
deriving DecidableEq, Repr

/-- A check that fails while a lookup is made (R365, R367): of a word of the table store, by macro and address, or of the line of the control region
with number `n`: what DRAM returned for it, data and code, and returned again on the repeat. -/
inductive LookupFail where
  | store (mac word : Nat)
  | line (n : Nat) (first again : List Byte × BitVec 16)
deriving DecidableEq, Repr

/-- What the check of an operation-table entry says where the completion writer reads it (R365, R372): it holds, it fails, or it fails and the owner cannot
be read. -/
inductive EntryCheck where
  | good | bad | ownerLost
deriving DecidableEq, Repr

/-- The row a patrol or retest names (R387, R388). -/
inductive PatrolRow where
  | sramRow (mac row : Nat)
  | sramCol (mac grp : Nat)
  | dramRow (channel die bank row : Nat)
deriving DecidableEq, Repr

/-- The path a monitor command came by (R487). -/
inductive MonPath where
  | serial | tap
deriving DecidableEq, Repr

/-- The three registers that a sender writes before SEND (R210). -/
structure MbRegs where
  ptrLo : Word
  ptrHi : Word
  len : Word
deriving DecidableEq, Repr

/-- One yard's measurements of a PTP second for the stress count (R389): junction temperature in millikelvin, issue cycles used
and available. -/
structure YardWear where
  yard : Fin 34
  tjMilliK : Nat
  used : Nat
  avail : Nat
deriving DecidableEq, Repr

/-- The self-check findings that make a yard failing (R394). -/
inductive YardFault where
  | dispatch | crossbar | slotTable | controlChecks
deriving DecidableEq, Repr

end Sys2Proof
end

