-- ==== Sys2Proof/Syntax.lean ====
section
/-!
DEFINITION. The commands of the block: one constructor of Instr for each row of spec/opcode_table.json, in the table's order, with
the operands that the row's rule gives it. An operand with a default stands last; the default is the case that needs no word: no check fails,
nothing is pending, the number is the first one. The words above each constructor are the row's rule and mnemonic.
-/

namespace Sys2Proof

/-- The commands that the block takes (spec/opcode_table.json). -/
inductive Instr where
  /-- VIN_RISE (R480). -/
  | vinRise (vinMv : Nat)
  /-- PWR_GOOD_ASSERT (R480). -/
  | pwrGoodAssert (straps : Straps)
  /-- SAG_BAND_ENTRY (R449). -/
  | sagBandEntry (vinMv : Nat)
  /-- FEED_INTERRUPTION (R449). -/
  | feedInterruption
  /-- FEED_RETURN (R449). -/
  | feedReturn (vinMv : Nat)
  /-- PWR_FAIL_WARN_ASSERT (R452). -/
  | pwrFailWarnAssert (holdupMv : Nat)
  /-- HOLDUP_EXHAUSTED (R454). -/
  | holdupExhausted
  /-- BANK_CHARGE_MEASURE (R450). -/
  | bankChargeMeasure (cmMicroF : Nat)
  /-- THERMAL_ALERT (R463). -/
  | thermalAlert (junction plate : Int)
  /-- THERMAL_CAP_UPDATE (R463). -/
  | thermalCapUpdate (junction : Int)
  /-- THERMAL_TRIP (R464). -/
  | thermalTrip (junction : Int)
  /-- TRIP_COOLDOWN (R464). -/
  | tripCooldown (junction : Int) (straps : Straps)
  /-- POWER_STAGE_FAULT (R399). -/
  | powerStageFault (stage : Fin 14)
  /-- RESET_IN_ASSERT (R481). -/
  | resetInAssert
  /-- RESET_IN_RELEASE (R481). -/
  | resetInRelease (straps : Straps)
  /-- CONVENTIONAL_RESET (R204). -/
  | conventionalReset (cause : ResetCause)
  /-- PERST_DEASSERT (R429). -/
  | perstDeassert
  /-- PCIE_LINK_RETRAIN (R182). -/
  | pcieLinkRetrain (rateX10 width : Nat) (flit : Bool)
  /-- MALFORMED_TLP (R194). -/
  | malformedTlp (kind : LinkError)
  /-- UNSUPPORTED_REQUEST (R194). -/
  | unsupportedRequest (fn : Nat) (kind : BadRequest) (posted : Bool)
  /-- BAR_READ (R190). -/
  | barRead (fn bar off len : Nat)
  /-- BAR_WRITE (R190). -/
  | barWrite (fn bar off : Nat) (data : List Byte)
  /-- CONFIG_WRITE (R185). -/
  | configWrite (fn off : Nat) (width : Nat) (value : Word) (bus : Byte := 0) (buses : Nat := 0)
  /-- FUNCTION_LEVEL_RESET (R201). -/
  | functionLevelReset (storage : Bool) (inst : Fin 4096)
  /-- PF_FUNCTION_LEVEL_RESET (R203). -/
  | pfFunctionLevelReset (pf : Fin 3)
  /-- FLR_COMPLETE (R202). -/
  | flrComplete (fn : Nat)
  /-- BUS_MASTER_ENABLE_CLEAR (R198). -/
  | busMasterEnableClear (fn : Nat)
  /-- BUS_MASTER_ENABLE_SET (R200). -/
  | busMasterEnableSet (fn : Nat)
  /-- D3HOT_ENTRY (R205). -/
  | d3hotEntry (pf : Fin 3)
  /-- D0_RETURN (R205). -/
  | d0Return (pf : Fin 3)
  /-- PME_SIGNAL (R206). -/
  | pmeSignal (pf : Fin 3)
  /-- PME_TURN_OFF (R206). -/
  | pmeTurnOff
  /-- ASPM_ENTRY (R207). -/
  | aspmEntry (target : LState)
  /-- LTR_IDLE_REPORT (R207). -/
  | ltrIdleReport
  /-- TICK_BOUNDARY (R18). -/
  | tickBoundary
  /-- GATE (R25). -/
  | gate (estimateMw : Nat)
  /-- TURN (R24). -/
  | turn
  /-- PERIOD_CHANGE_APPLY (R32). -/
  | periodChangeApply
  /-- SOURCE_QUALIFIED (R29). -/
  | sourceQualified (src : TimeSource)
  /-- CLOCK_LOCKED (R30). -/
  | clockLocked
  /-- SOURCE_LOST (R30). -/
  | sourceLost (src : TimeSource := .stack)
  /-- HOLDOVER_EXPIRY (R30). -/
  | holdoverExpiry
  /-- PPS_IN_EDGE (R476). -/
  | ppsInEdge (sec ns : Nat)
  /-- INTEGER_OP (R36). -/
  | integerOp (i : Issue) (op : AluOp) (rd rs1 : Fin 32) (src : Src2)
  /-- LUI (R36). -/
  | lui (i : Issue) (rd : Fin 32) (imm : BitVec 20)
  /-- AUIPC (R36). -/
  | auipc (i : Issue) (rd : Fin 32) (imm : BitVec 20)
  /-- BRANCH (R36). -/
  | branch (i : Issue) (c : BrCond) (rs1 rs2 : Fin 32) (off : BitVec 13)
  /-- JAL (R36). -/
  | jal (i : Issue) (rd : Fin 32) (off : BitVec 21)
  /-- JALR (R36). -/
  | jalr (i : Issue) (rd rs1 : Fin 32) (imm : BitVec 12)
  /-- MUL (R36). -/
  | mul (i : Issue) (op : MulOp) (rd rs1 rs2 : Fin 32)
  /-- DIV (R36). -/
  | div (i : Issue) (op : DivOp) (rd rs1 rs2 : Fin 32)
  /-- LOAD (R36). -/
  | load (i : Issue) (w : LdW) (rd rs1 : Fin 32) (imm : BitVec 12) (checkBad : Bool)
  /-- STORE (R36). -/
  | store (i : Issue) (w : StW) (rs1 rs2 : Fin 32) (imm : BitVec 12) (checkBad : Bool)
  /-- FENCE (R37). -/
  | fence (i : Issue)
  /-- ECALL (R37). -/
  | ecall (i : Issue)
  /-- EBREAK (R37). -/
  | ebreak (i : Issue)
  /-- FENCE_I (R37). -/
  | fenceI (i : Issue)
  /-- WFI (R37). -/
  | wfi (i : Issue)
  /-- ILLEGAL_ENCODING (R38). -/
  | illegalEncoding (i : Issue) (word : Word)
  /-- CSR_WRITE (R39). -/
  | csrWrite (i : Issue) (form : CsrForm) (csr : BitVec 12) (src : CsrSrc) (rd : Fin 32)
  /-- SXDWIN_WRITE (R44). -/
  | sxdwinWrite (i : Issue) (form : CsrForm) (src : CsrSrc) (rd : Fin 32)
  /-- SXSLOT_WRITE (R65). -/
  | sxslotWrite (i : Issue) (hi : Bool) (form : CsrForm) (src : CsrSrc) (rd : Fin 32)
  /-- SXSTALE_READ (R39). -/
  | sxstaleRead (i : Issue) (rd : Fin 32)
  /-- DBGEN_WRITE (R79). -/
  | dbgenWrite (i : Issue) (form : CsrForm) (src : CsrSrc) (rd : Fin 32)
  /-- DISMISS (R84). -/
  | dismiss (i : Issue) (form : CsrForm) (src : CsrSrc) (rd : Fin 32)
  /-- OVF_CLEAR (R79). -/
  | ovfClear (i : Issue) (form : CsrForm) (src : CsrSrc) (rd : Fin 32)
  /-- ENDMASK (R80). -/
  | endmask (i : Issue) (form : CsrForm) (src : CsrSrc) (rd : Fin 32)
  /-- YIELDT (R50). -/
  | yieldt (i : Issue) (rs1 : Fin 32)
  /-- FORK (R67). -/
  | fork (i : Issue) (rd rs1 rs2 : Fin 32)
  /-- JOIN (R50). -/
  | join (i : Issue) (rd rs1 : Fin 32)
  /-- JOIN_UNBLOCK (R50). -/
  | joinUnblock (eng : Fin 1088) (thr : Fin 8)
  /-- PKSEL (R50). -/
  | pksel (i : Issue) (rs1 : Fin 32)
  /-- POST (R50). -/
  | post (i : Issue) (rd rs1 rs2 : Fin 32)
  /-- TLKP (R50). -/
  | tlkp (i : Issue) (rd rs1 rs2 : Fin 32) (fail : Option LookupFail := none)
  /-- CHSEND (R72). -/
  | chsend (i : Issue) (rs1 rs2 : Fin 32)
  /-- CHSENDL (R72). -/
  | chsendl (i : Issue) (rs1 rs2 : Fin 32)
  /-- CHSEND_UNBLOCK (R50). -/
  | chsendUnblock (eng : Fin 1088) (thr : Fin 8)
  /-- CHRECV (R75). -/
  | chrecv (i : Issue) (rd rs1 : Fin 32)
  /-- CHRECV_UNBLOCK (R50). -/
  | chrecvUnblock (eng : Fin 1088) (thr : Fin 8)
  /-- CHPOLL (R75). -/
  | chpoll (i : Issue) (rd rs1 : Fin 32)
  /-- MESSAGE_DELIVERY (R73). -/
  | messageDelivery (eng : Fin 1088) (thr : Fin 8) (parityBad : Bool := false)
  /-- BFALLOC (R152). -/
  | bfalloc (i : Issue) (rd rs1 : Fin 32) (entryBad : Bool := false)
  /-- BFOWN (R148). -/
  | bfown (i : Issue) (rd rs1 rs2 : Fin 32)
  /-- BFFREE (R50). -/
  | bffree (i : Issue) (rd rs1 rs2 : Fin 32) (entryBad : Bool := false)
  /-- ENQ (R165). -/
  | enq (i : Issue) (rd rs1 rs2 : Fin 32)
  /-- CRC32C (R50). -/
  | crc32c (i : Issue) (rd rs1 rs2 : Fin 32)
  /-- BSWAP (R50). -/
  | bswap (i : Issue) (rd rs1 : Fin 32)
  /-- CSUM16 (R50). -/
  | csum16 (i : Issue) (rd rs1 rs2 : Fin 32)
  /-- SAADD (R50). -/
  | saadd (i : Issue) (rd rs1 rs2 : Fin 32) (checkBad : Bool)
  /-- SASWAP (R50). -/
  | saswap (i : Issue) (rd rs1 rs2 : Fin 32) (checkBad : Bool)
  /-- SACAS (R50). -/
  | sacas (i : Issue) (rd rs1 rs2 : Fin 32) (checkBad : Bool)
  /-- SAMIN (R50). -/
  | samin (i : Issue) (rd rs1 rs2 : Fin 32) (checkBad : Bool)
  /-- SAMAX (R50). -/
  | samax (i : Issue) (rd rs1 rs2 : Fin 32) (checkBad : Bool)
  /-- SAAND (R50). -/
  | saand (i : Issue) (rd rs1 rs2 : Fin 32) (checkBad : Bool)
  /-- SAOR (R50). -/
  | saor (i : Issue) (rd rs1 rs2 : Fin 32) (checkBad : Bool)
  /-- SAXOR (R50). -/
  | saxor (i : Issue) (rd rs1 rs2 : Fin 32) (checkBad : Bool)
  /-- SAINC64 (R50). -/
  | sainc64 (i : Issue) (rs1 rs2 : Fin 32) (checkBad : Bool)
  /-- GROOM_START (R77). -/
  | groomStart (eng : Fin 1088)
  /-- MUTUAL_WAIT_REPORT (R83). -/
  | mutualWaitReport (yard : Fin 34)
  /-- FRAME_RECEIVE (R94). -/
  | frameReceive (lane : Fin 20) (frame : List Byte) (fcsBad : Bool) (corrected sec ns frac : Nat) (uncorrected : Nat := 0) (entryBad : Bool := false)
      (fails : List (Nat × LookupFail) := [])
  /-- CLASSIFICATION_DEQUEUE (R132). -/
  | classificationDequeue (pipeB : Bool) (fails : List (Nat × LookupFail) := [])
  /-- LANE_UP (R91). -/
  | laneUp (lane : Fin 20) (peer : Option (Fin 8) := none)
  /-- LANE_DOWN (R92). -/
  | laneDown (lane : Fin 20) (cutFrame : Bool)
  /-- LACP_TIMEOUT (R99). -/
  | lacpTimeout (lane : Fin 16)
  /-- LACP_PERIODIC_TRANSMIT (R99). -/
  | lacpPeriodicTransmit (lane : Fin 16)
  /-- MEMBER_QUEUES_DRAINED (R93). -/
  | memberQueuesDrained (lane : Fin 16)
  /-- SCHEDULER_SELECT (R169). -/
  | schedulerSelect (port : Fin 20) (sec ns frac : Nat)
  /-- TRANSMIT_COMPLETE (R151). -/
  | transmitComplete (port : Fin 20) (entryBad : Bool := false)
  /-- DOORBELL (R223). -/
  | doorbell (fn : Nat) (value : Word) (stateBad : Bool := false)
  /-- COMPLETION_HEAD_DOORBELL (R252). -/
  | completionHeadDoorbell (fn : Nat) (value : Word)
  /-- ADMIN_BASE_WRITE (R252). -/
  | adminBaseWrite (fn : Nat) (value : Word)
  /-- ADMIN_CTL_ENABLE (R253). -/
  | adminCtlEnable (fn : Nat) (value : Word)
  /-- ADMIN_CTL_DISABLE (R253). -/
  | adminCtlDisable (fn : Nat) (value : Word)
  /-- TX (R257). -/
  | tx (fn q : Nat) (descs : List Desc)
  /-- RX_POST (R257). -/
  | rxPost (fn q : Nat) (descs : List Desc)
  /-- RDMA_WRITE (R257). -/
  | rdmaWrite (fn q : Nat) (descs : List Desc)
  /-- RDMA_READ (R257). -/
  | rdmaRead (fn q : Nat) (descs : List Desc)
  /-- COMPRESS_JOB (R364). -/
  | compressJob (fn q : Nat) (descs : List Desc)
  /-- DECOMPRESS_JOB (R364). -/
  | decompressJob (fn q : Nat) (descs : List Desc)
  /-- GCM_SEAL_JOB (R364). -/
  | gcmSealJob (fn q : Nat) (descs : List Desc)
  /-- GCM_OPEN_JOB (R364). -/
  | gcmOpenJob (fn q : Nat) (descs : List Desc)
  /-- CREATE_QUEUE (R264). -/
  | createQueue (fn : Nat) (d : Desc) (block : List Byte)
  /-- DESTROY_QUEUE (R266). -/
  | destroyQueue (fn : Nat) (d : Desc) (block : List Byte)
  /-- RESET_QUEUE (R266). -/
  | resetQueue (fn : Nat) (d : Desc) (block : List Byte)
  /-- ABORT (R267). -/
  | abort (fn : Nat) (d : Desc) (block : List Byte)
  /-- SET_MODERATION (R270). -/
  | setModeration (fn : Nat) (d : Desc) (block : List Byte)
  /-- QUERY_QUEUE (R263). -/
  | queryQueue (fn : Nat) (d : Desc) (block : List Byte)
  /-- MODERATION_EXPIRY (R270). -/
  | moderationExpiry (fn q : Nat)
  /-- HOST_DMA_READ (R271). -/
  | hostDmaRead
  /-- HOST_DMA_WRITE (R271). -/
  | hostDmaWrite
  /-- HOST_DMA_WRITE_RX (R271). -/
  | hostDmaWriteRx
  /-- COMPLETE (R271). -/
  | complete (check : EntryCheck := .good)
  /-- SAVE (R271). -/
  | save (check : EntryCheck := .good)
  /-- DMA_READ_COMPLETION (R195). -/
  | dmaReadCompletion (tag : Nat) (outcome : CplOutcome)
  /-- WAITING_READ_ISSUE (R192). -/
  | waitingReadIssue
  /-- COMPLETION_TIMEOUT (R197). -/
  | completionTimeout (tag : Nat)
  /-- QUARANTINE_END (R197). -/
  | quarantineEnd (tag : Nat)
  /-- LATE_COMPLETION (R197). -/
  | lateCompletion (tag : Nat)
  /-- MAILBOX_SEND (R212). -/
  | mailboxSend (mb : Nat) (src : Source) (regs : Option MbRegs)
  /-- MAILBOX_TAKE (R212). -/
  | mailboxTake (mb : Nat) (reader : Source) (width : Nat) (regBad : Bool := false)
  /-- MAILBOX_RETRACT (R212). -/
  | mailboxRetract (mb : Nat) (src : Source)
  /-- MAILBOX_STATUS_CLEAR (R211). -/
  | mailboxStatusClear (mb : Nat) (src : Source) (value : Word)
  /-- LOCK_ACQUIRE (R222). -/
  | lockAcquire (k : Fin 64) (src : Source) (regBad : Bool := false)
  /-- LOCK_RELEASE (R222). -/
  | lockRelease (k : Fin 64) (src : Source) (value : Word)
  /-- ER_HEAD_WRITE (R376). -/
  | erHeadWrite (value : Word)
  /-- ER_LOST_READ (R375). -/
  | erLostRead
  /-- ER_STATUS_CLEAR (R375). -/
  | erStatusClear (value : Word)
  /-- IDENTIFY (R233). -/
  | identify (h : MbHdr)
  /-- DEVICE_STATE (R233). -/
  | deviceState (h : MbHdr)
  /-- POOL_CARVE (R233). -/
  | poolCarve (h : MbHdr) (sizes counts : List Nat)
  /-- POOL_COUNTERS (R233). -/
  | poolCounters (h : MbHdr) (pool : Byte)
  /-- CONTROL_REGION (R233). -/
  | controlRegion (h : MbHdr) (sizeMib : Nat)
  /-- DEVICE_RESET (R233). -/
  | deviceReset (h : MbHdr) (confirm : Word)
  /-- INSTANCE_CREATE (R234). -/
  | instanceCreate (h : MbHdr) (inst : Nat) (mode flags : Byte) (tenant : Nat) (res : Res)
  /-- INSTANCE_RESIZE (R279). -/
  | instanceResize (h : MbHdr) (inst : Nat) (res : Res)
  /-- INSTANCE_RESET (R283). -/
  | instanceReset (h : MbHdr) (inst : Nat)
  /-- INSTANCE_DESTROY (R284). -/
  | instanceDestroy (h : MbHdr) (inst : Nat)
  /-- INSTANCE_FREEZE (R285). -/
  | instanceFreeze (h : MbHdr) (inst : Nat)
  /-- INSTANCE_SAVE (R288). -/
  | instanceSave (h : MbHdr) (inst : Nat) (addr : DWord) (len : Nat)
  /-- QUIESCENCE (R286). -/
  | quiescence (inst : Nat)
  /-- INSTANCE_RESTORE (R289). -/
  | instanceRestore (h : MbHdr) (inst : Nat) (addr : DWord) (len : Nat) (image : List Byte)
  /-- INSTANCE_THAW (R287). -/
  | instanceThaw (h : MbHdr) (inst : Nat)
  /-- DIRTY_HARVEST (R291). -/
  | dirtyHarvest (h : MbHdr) (inst : Nat) (clear : Byte) (addr : DWord) (len : Nat)
  /-- INSTANCE_QUERY (R234). -/
  | instanceQuery (h : MbHdr) (inst : Nat)
  /-- MAC_SET (R234). -/
  | macSet (h : MbHdr) (inst count : Nat) (macs : List Nat)
  /-- QUEUE_QUERY (R235). -/
  | queueQuery (h : MbHdr) (inst : Nat) (pf : Byte) (queue : Nat)
  /-- QUEUE_DESTROY (R235). -/
  | queueDestroy (h : MbHdr) (inst : Nat) (pf : Byte) (queue : Nat)
  /-- RING_BIND (R235). -/
  | ringBind (h : MbHdr) (inst : Nat) (pf : Byte) (queue tmq : Nat) (wake : Byte)
  /-- TABLE_CREATE (R120). -/
  | tableCreate (h : MbHdr) (table : Nat) (type keylen flags : Byte) (capacity : Nat) (tseed : Word) (nfields : Nat) (fields : List (Nat × Nat))
  /-- TABLE_DESTROY (R236). -/
  | tableDestroy (h : MbHdr) (table : Nat)
  /-- STAGE_ENTRIES (R135). -/
  | stageEntries (h : MbHdr) (batch table : Nat) (entries : List StagedEntry)
  /-- STAGE_STAGES (R236). -/
  | stageStages (h : MbHdr) (batch first : Nat) (descs : List (List Byte))
  /-- STAGE_GRAPH (R236). -/
  | stageGraph (h : MbHdr) (batch first : Nat) (start : List Nat) (nodes : List (List Byte))
  /-- STAGE_DEFAULTS (R236). -/
  | stageDefaults (h : MbHdr) (batch : Nat) (parseFail noMatch : List Word)
  /-- STAGE_SPREAD (R236). -/
  | stageSpread (h : MbHdr) (batch : Nat) (seedset : Byte) (first : Nat) (seed : Word) (profiles : List Byte) (entries : List Nat)
  /-- COMMIT (R134). -/
  | commit (h : MbHdr) (batch atTick : Nat)
  /-- COMMIT_CLEANUP_COMPLETE (R136). -/
  | commitCleanupComplete
  /-- ABANDON (R236). -/
  | abandon (h : MbHdr) (batch : Nat)
  /-- READ (R236). -/
  | read (h : MbHdr) (what : Byte) (table first count : Nat) (key : List Byte)
  /-- TABLE_COUNTERS (R236). -/
  | tableCounters (h : MbHdr) (table : Nat)
  /-- TABLE_PLAN (R130). -/
  | tablePlan (h : MbHdr) (sizes : List Nat)
  /-- PROGRAM_LOAD (R53). -/
  | programLoad (h : MbHdr) (engset : List Nat) (boundary : Byte) (image : List Byte)
  /-- BANK_SWITCH (R54). -/
  | bankSwitch (h : MbHdr) (engset : List Nat) (atTick : Nat)
  /-- PROGRAM_QUERY (R236). -/
  | programQuery (h : MbHdr) (engset : List Nat)
  /-- REG_CREATE (R238). -/
  | regCreate (h : MbHdr) (inst pd : Nat) (rights : Byte) (base length : Nat)
  /-- REG_REVOKE (R347). -/
  | regRevoke (h : MbHdr) (rkey : Word)
  /-- REVOKE_DRAIN_COMPLETE (R347). -/
  | revokeDrainComplete (index : Nat)
  /-- CTX_BACKING (R238). -/
  | ctxBacking (h : MbHdr) (addr count : Nat)
  /-- CTX_CREATE (R238). -/
  | ctxCreate (h : MbHdr) (inst pd qpn : Nat) (mode paths pmtu : Byte) (peerQpn : Nat) (peer : List Byte) (peerIsStador : Bool)
  /-- CTX_MODIFY (R335). -/
  | ctxModify (h : MbHdr) (qpn : Nat) (newState : Byte) (sqPsn rqPsn : Nat)
  /-- CTX_DESTROY (R238). -/
  | ctxDestroy (h : MbHdr) (qpn : Nat)
  /-- CTX_QUERY (R238). -/
  | ctxQuery (h : MbHdr) (qpn : Nat)
  /-- BACKEND_ADD (R317). -/
  | backendAdd (h : MbHdr) (backend : Nat) (transport : Byte) (port : Nat) (addr subnqn : List Byte)
  /-- BACKEND_REMOVE (R239). -/
  | backendRemove (h : MbHdr) (backend : Nat)
  /-- NS_CREATE (R318). -/
  | nsCreate (h : MbHdr) (ns backend remoteNsid : Nat) (remote : Option RemoteNs)
  /-- NS_ATTACH (R239). -/
  | nsAttach (h : MbHdr) (inst ns nsid : Nat)
  /-- NS_DETACH (R320). -/
  | nsDetach (h : MbHdr) (inst nsid : Nat)
  /-- NS_DESTROY (R239). -/
  | nsDestroy (h : MbHdr) (ns : Nat)
  /-- BACKEND_QUERY (R239). -/
  | backendQuery (h : MbHdr) (backend : Nat)
  /-- LANE_SET (R90). -/
  | laneSet (h : MbHdr) (lane : Nat) (mode : Byte) (maxFrame : Nat) (rxAdj txAdj : Int) (adjset : Byte)
  /-- AG_SET (R98). -/
  | agSet (h : MbHdr) (group : Nat) (mode : Byte) (members : Word)
  /-- AG_HASH (R139). -/
  | agHash (h : MbHdr) (group : Nat) (seed : Word) (profile : Byte)
  /-- TMQ_CREATE (R162). -/
  | tmqCreate (h : MbHdr) (queue dest cls tenant quantum maxBytes spill : Nat)
  /-- TMQ_DESTROY (R164). -/
  | tmqDestroy (h : MbHdr) (queue : Nat)
  /-- TM_ATTR (R163). -/
  | tmAttr (h : MbHdr) (kind : Byte) (index : Nat) (a : TmAttrs)
  /-- EDIT_LOAD (R174). -/
  | editLoad (h : MbHdr) (template : Nat) (raw : List Byte)
  /-- PORT_COUNTERS (R240). -/
  | portCounters (h : MbHdr) (scope : Byte) (index : Word)
  /-- OPTICS_QUERY (R240). -/
  | opticsQuery (h : MbHdr) (oe : Nat)
  /-- TIME_QUERY (R241). -/
  | timeQuery (h : MbHdr)
  /-- SOURCE_PRIORITY (R29). -/
  | sourcePriority (h : MbHdr) (ptpLane ptpPrio ppsPrio domain : Nat)
  /-- SOURCE_SELECT (R29). -/
  | sourceSelect (h : MbHdr) (src : Byte)
  /-- SET_GATE (R19). -/
  | setGate (h : MbHdr) (g atTick : Nat)
  /-- PERIOD_CHANGE (R32). -/
  | periodChange (h : MbHdr) (code e : Nat)
  /-- PERIOD_CANCEL (R32). -/
  | periodCancel (h : MbHdr)
  /-- HOLDOVER_SET (R30). -/
  | holdoverSet (h : MbHdr) (seconds : Nat)
  /-- SPARES_QUERY (R381). -/
  | sparesQuery (h : MbHdr)
  /-- ROTATION_SET (R390). -/
  | rotationSet (h : MbHdr) (enable : Byte) (days : Nat)
  /-- ROTATE_NOW (R390). -/
  | rotateNow (h : MbHdr) (out inn waitMs : Nat)
  /-- PATROL_SET (R387). -/
  | patrolSet (h : MbHdr) (enable : Byte) (days : Nat)
  /-- REPAIR_LOG (R411). -/
  | repairLog (h : MbHdr) (seqFrom max : Nat)
  /-- FARRIER_RELOAD (R408). -/
  | farrierReload (h : MbHdr) (which : Nat)
  /-- WEAR_QUERY (R389). -/
  | wearQuery (h : MbHdr)
  /-- IMAGE_WRITE (R243). -/
  | imageWrite (h : MbHdr) (slot offset : Nat) (data : List Byte)
  /-- IMAGE_VALIDATE (R422). -/
  | imageValidate (h : MbHdr) (slot : Nat)
  /-- IMAGE_QUERY (R243). -/
  | imageQuery (h : MbHdr)
  /-- MP_SWITCH (R406). -/
  | mpSwitch (h : MbHdr) (slot atTick : Nat)
  /-- IMAGE_CONFIRM (R424). -/
  | imageConfirm (h : MbHdr)
  /-- KEY_REVOKE (R420). -/
  | keyRevoke (h : MbHdr) (key : Nat)
  /-- KEY_QUERY (R243). -/
  | keyQuery (h : MbHdr)
  /-- LIFECYCLE_ADVANCE (R421). -/
  | lifecycleAdvance (h : MbHdr) (toState : Nat) (confirm : Word)
  /-- STACK_QUERY (R244). -/
  | stackQuery (h : MbHdr)
  /-- STACK_GROUP (R445). -/
  | stackGroup (h : MbHdr) (group : Nat) (mode : Byte) (members : List Half)
  /-- STACK_STAGE (R446). -/
  | stackStage (h : MbHdr) (program entry nextPos : Nat)
  /-- POWER_QUERY (R245). -/
  | powerQuery (h : MbHdr)
  /-- POWER_CAP (R460). -/
  | powerCap (h : MbHdr) (capMw : Nat)
  /-- URGENT_MASK (R173). -/
  | urgentMask (h : MbHdr) (program : Nat) (mask : Half)
  /-- DOMAIN_QUERY (R457). -/
  | domainQuery (h : MbHdr)
  /-- MONITOR_UNLOCK (R246). -/
  | monitorUnlock (h : MbHdr) (yards : Word) (seconds : Nat)
  /-- MONITOR_RELOCK (R247). -/
  | monitorRelock (h : MbHdr) (yards : Word)
  /-- UNLOCK_EXPIRY (R247). -/
  | unlockExpiry
  /-- DEBUG_QUERY (R246). -/
  | debugQuery (h : MbHdr)
  /-- EVENT_RING_SET (R377). -/
  | eventRingSet (h : MbHdr) (addr entries vector : Nat)
  /-- EVENT_MASK (R248). -/
  | eventMask (h : MbHdr) (mask : BitVec 256)
  /-- LOG_READ (R373). -/
  | logRead (h : MbHdr) (log : Byte) (seqFrom max : Nat)
  /-- COMMAND_TIMEOUT (R230). -/
  | commandTimeout (hm : Fin 64)
  /-- RECOVERY_LOAD (R433). -/
  | recoveryLoad (h : MbHdr) (addr : DWord) (len : Nat) (image : List Byte)
  /-- RDMA_WRITE_FIRST (R332). -/
  | rdmaWriteFirst (p : RdmaPkt)
  /-- RDMA_WRITE_MIDDLE (R332). -/
  | rdmaWriteMiddle (p : RdmaPkt)
  /-- RDMA_WRITE_LAST (R332). -/
  | rdmaWriteLast (p : RdmaPkt)
  /-- RDMA_WRITE_ONLY (R332). -/
  | rdmaWriteOnly (p : RdmaPkt)
  /-- RDMA_READ_REQUEST (R332). -/
  | rdmaReadRequest (p : RdmaPkt)
  /-- RDMA_READ_RESPONSE_FIRST (R340). -/
  | rdmaReadResponseFirst (p : RdmaPkt)
  /-- RDMA_READ_RESPONSE_MIDDLE (R340). -/
  | rdmaReadResponseMiddle (p : RdmaPkt)
  /-- RDMA_READ_RESPONSE_LAST (R340). -/
  | rdmaReadResponseLast (p : RdmaPkt)
  /-- RDMA_READ_RESPONSE_ONLY (R340). -/
  | rdmaReadResponseOnly (p : RdmaPkt)
  /-- ACKNOWLEDGE (R340). -/
  | acknowledge (p : RdmaPkt)
  /-- UNSUPPORTED_OPCODE_PACKET (R326). -/
  | unsupportedOpcodePacket (p : RdmaPkt)
  /-- SPRAY_WRITE (R344). -/
  | sprayWrite (p : RdmaPkt) (sh : SprayHdr)
  /-- SPRAY_READ_REQ (R342). -/
  | sprayReadReq (p : RdmaPkt) (sh : SprayHdr)
  /-- SPRAY_READ_RESP (R344). -/
  | sprayReadResp (p : RdmaPkt) (sh : SprayHdr)
  /-- SPRAY_ACK (R344). -/
  | sprayAck (p : RdmaPkt) (sh : SprayHdr)
  /-- SPRAY_SACK (R343). -/
  | spraySack (p : RdmaPkt) (sh : SprayHdr)
  /-- SPRAY_NAK (R350). -/
  | sprayNak (p : RdmaPkt) (sh : SprayHdr)
  /-- ACK_TIMEOUT (R340). -/
  | ackTimeout (qpn : Nat)
  /-- SPRAY_MESSAGE_TIMEOUT (R343). -/
  | sprayMessageTimeout (qpn msg : Nat)
  /-- REASSEMBLY_LIMIT (R345). -/
  | reassemblyLimit (qpn msg : Nat)
  /-- READ_RECORD_TIMEOUT (R344). -/
  | readRecordTimeout (qpn record : Nat)
  /-- CONTEXT_FILL (R338). -/
  | contextFill (qpn : Nat) (bytes : List Byte) (fail : Option LookupFail := none)
  /-- SUBMIT (R349). -/
  | submit
  /-- TUNE (R348). -/
  | tune
  /-- BACKEND_SUBMIT (R321). -/
  | backendSubmit
  /-- BACKEND_DATA (R321). -/
  | backendData
  /-- CANCEL (R321). -/
  | cancel
  /-- BACKEND_REPLY (R321). -/
  | backendReply (backend bref : Nat) (rkind : Byte) (status : Byte) (offset : Nat) (data : List Byte) (lane : Nat := 0)
  /-- BACKEND_CONNECTION_LOST (R319). -/
  | backendConnectionLost (backend : Nat)
  /-- BACKEND_RECONNECT (R319). -/
  | backendReconnect (backend : Nat) (up : Bool)
  /-- BACKEND_COMMAND_TIMEOUT (R319). -/
  | backendCommandTimeout (bref : Nat)
  /-- BACKEND_QUEUE_IDLE_CLOSE (R313). -/
  | backendQueueIdleClose (backend queue : Nat)
  /-- KEY_LOAD (R358). -/
  | keyLoad (unit1 checkBad : Bool)
  /-- KEY_CLEAR (R358). -/
  | keyClear (unit1 checkBad : Bool)
  /-- MACSEC_PROTECT (R360). -/
  | macsecProtect (unit1 checkBad : Bool)
  /-- MACSEC_VALIDATE (R360). -/
  | macsecValidate (unit1 checkBad : Bool)
  /-- ESP_ENCRYPT (R360). -/
  | espEncrypt (unit1 checkBad : Bool)
  /-- ESP_DECRYPT (R360). -/
  | espDecrypt (unit1 checkBad : Bool)
  /-- TLS_SEAL (R360). -/
  | tlsSeal (unit1 checkBad : Bool)
  /-- TLS_OPEN (R360). -/
  | tlsOpen (unit1 checkBad : Bool)
  /-- GCM_SEAL (R360). -/
  | gcmSeal (unit1 checkBad : Bool)
  /-- GCM_OPEN (R360). -/
  | gcmOpen (unit1 checkBad : Bool)
  /-- COMPRESS (R362). -/
  | compress
  /-- DECOMPRESS (R362). -/
  | decompress
  /-- ACCELERATOR_RESULT (R354). -/
  | acceleratorResult (unit : Fin 3)
  /-- DELETE_IO_SUBMISSION_QUEUE (R311). -/
  | deleteIoSubmissionQueue (c : NvCmd)
  /-- DELETE_IO_COMPLETION_QUEUE (R311). -/
  | deleteIoCompletionQueue (c : NvCmd)
  /-- CREATE_IO_SUBMISSION_QUEUE (R303). -/
  | createIoSubmissionQueue (c : NvCmd)
  /-- CREATE_IO_COMPLETION_QUEUE (R303). -/
  | createIoCompletionQueue (c : NvCmd)
  /-- GET_LOG_PAGE (R307). -/
  | getLogPage (c : NvCmd)
  /-- NVME_IDENTIFY (R301). -/
  | nvmeIdentify (c : NvCmd)
  /-- NVME_ABORT (R311). -/
  | nvmeAbort (c : NvCmd)
  /-- SET_FEATURES (R306). -/
  | setFeatures (c : NvCmd) (data : List Byte)
  /-- GET_FEATURES (R306). -/
  | getFeatures (c : NvCmd)
  /-- ASYNCHRONOUS_EVENT_REQUEST (R308). -/
  | asynchronousEventRequest (c : NvCmd)
  /-- FIRMWARE_COMMIT (R322). -/
  | firmwareCommit (c : NvCmd)
  /-- FIRMWARE_IMAGE_DOWNLOAD (R322). -/
  | firmwareImageDownload (c : NvCmd) (data : List Byte)
  /-- KEEP_ALIVE (R306). -/
  | keepAlive (c : NvCmd)
  /-- FLUSH (R304). -/
  | flush (c : NvCmd)
  /-- NVME_WRITE (R304). -/
  | nvmeWrite (c : NvCmd)
  /-- NVME_READ (R304). -/
  | nvmeRead (c : NvCmd)
  /-- KEEP_ALIVE_EXPIRY (R306). -/
  | keepAliveExpiry (ctl : Nat)
  /-- APST_TRANSITION (R314). -/
  | apstTransition (ctl : Nat)
  /-- POWER_STATE_TRANSITION_END (R314). -/
  | powerStateTransitionEnd (ctl : Nat)
  /-- PATROL_TEST (R387). -/
  | patrolTest (row : PatrolRow) (weak : Bool) (endsPass : Bool := false)
  /-- CORRECTED_BURST (R366). -/
  | correctedBurst (mac count : Nat) (row : PatrolRow) (weak : Bool)
  /-- STRESS_UPDATE (R389). -/
  | stressUpdate (ws : List YardWear)
  /-- REST_ROTATION_DUE (R390). -/
  | restRotationDue
  /-- YARD_TEST_COMPLETE (R391). -/
  | yardTestComplete (yard : Fin 34) (pass : Bool)
  /-- MIRROR_COMPLETE (R392). -/
  | mirrorComplete (yard : Fin 34)
  /-- YARD_FAULT_DETECTED (R396). -/
  | yardFaultDetected (yard : Fin 34) (kind : YardFault)
  /-- LASER_BIAS_CHECK (R397). -/
  | laserBiasCheck (lane : Fin 20) (biasUa tempX16 : Nat)
  /-- LASER_FAILURE (R397). -/
  | laserFailure (lane : Fin 20)
  /-- ELECTRICAL_LANE_REPLACEMENT (R398). -/
  | electricalLaneReplacement (lane : Fin 20)
  /-- DRAM_CHANNEL_RETIREMENT (R401). -/
  | dramChannelRetirement (channel : Fin 4)
  /-- CHANNEL_MOVE_COMPLETE (R401). -/
  | channelMoveComplete
  /-- DRAM_CHANNEL_UNRESPONSIVE (R402). -/
  | dramChannelUnresponsive (channel : Fin 4)
  /-- FREE_LIST_REBUILD_COMPLETE (R156). -/
  | freeListRebuildComplete (pool : Fin 7)
  /-- MP_HEARTBEAT_LOSS (R403). -/
  | mpHeartbeatLoss
  /-- MP_RELOAD_COMPLETE (R405). -/
  | mpReloadComplete (ok : Bool)
  /-- FARRIER_TAKEOVER (R407). -/
  | farrierTakeover (missed : Nat)
  /-- REPAIR_UNMANAGED (R409). -/
  | repairUnmanaged
  /-- JOURNAL_APPEND (R416). -/
  | journalAppend (torn : Bool)
  /-- JOURNAL_COMPACTION (R417). -/
  | journalCompaction (torn : Bool)
  /-- REPAIR_APPLIED (R386). -/
  | repairApplied (farrierB : Bool)
  /-- LAST_RESORT_REPAIR (R409). -/
  | lastResortRepair
  /-- SP_RELEASE (R427). -/
  | spRelease
  /-- RELEASE_EVENT (R427). -/
  | releaseEvent
  /-- YARD_RELEASE (R11). -/
  | yardRelease
  /-- BUILT_IN_TEST_END (R11). -/
  | builtInTestEnd (pass : Bool)
  /-- RECOVERY_WINDOW_EXPIRY (R432). -/
  | recoveryWindowExpiry
  /-- STACK_JOIN (R438). -/
  | stackJoin (pos : Fin 8) (tick : Nat)
  /-- TICK_MARKER (R440). -/
  | tickMarker (hops : Nat) (offset : Int := 0) (pend : Option (Nat × Nat) := none) (unwell : List (Fin 8) := [])
  /-- MASTER_LOSS (R441). -/
  | masterLoss
  /-- STACK_SPLIT (R439). -/
  | stackSplit (reachable : List (Fin 8))
  /-- PREPARE (R443). -/
  | prepare (src : Fin 8) (batch : Nat)
  /-- GO (R443). -/
  | go (src : Fin 8) (batch tick : Nat)
  /-- STACK_ABANDON (R443). -/
  | stackAbandon (src : Fin 8) (batch : Nat)
  /-- PREPARE_TIMEOUT (R443). -/
  | prepareTimeout (missing : Fin 8)
  /-- STACK_DECISION_DEADLINE (R444). -/
  | stackDecisionDeadline
  /-- MEMBER (R445). -/
  | member (src : Fin 8) (hops lane : Nat) (block frame : List Byte) (dst : Fin 8 := 0)
  /-- STAGE (R446). -/
  | stage (src : Fin 8) (hops : Nat) (frame hv : List Byte) (carries : List Word) (dst : Fin 8 := 0) (entry : Nat := 0)
  /-- SMBUS_READ_WORD (R478). -/
  | smbusReadWord (code : Byte)
  /-- ALERT_RESPONSE (R478). -/
  | alertResponse
  /-- SET_ENDPOINT_ID (R477). -/
  | setEndpointId (eid : Byte)
  /-- GET_ENDPOINT_ID (R477). -/
  | getEndpointId
  /-- GET_MCTP_VERSION_SUPPORT (R477). -/
  | getMctpVersionSupport
  /-- GET_MESSAGE_TYPE_SUPPORT (R477). -/
  | getMessageTypeSupport
  /-- BYPASS (R479). -/
  | bypass
  /-- IDCODE (R479). -/
  | idcode
  /-- SAMPLE_PRELOAD (R479). -/
  | samplePreload (bits : List Bool)
  /-- EXTEST (R479). -/
  | extest
  /-- CRIEK (R487). -/
  | criek
  /-- HELP (R489). -/
  | help (m : MonPath)
  /-- ID (R489). -/
  | id (m : MonPath)
  /-- STATE (R489). -/
  | state (m : MonPath)
  /-- BAUD (R484). -/
  | baud (m : MonPath) (rate : Nat)
  /-- BAUD_SWITCH (R484). -/
  | baudSwitch
  /-- QUIT (R487). -/
  | quit (m : MonPath)
  /-- SESSION_TIMEOUT (R487). -/
  | sessionTimeout
  /-- LOG (R489). -/
  | log (m : MonPath) (seqFrom count : Nat)
  /-- TIME (R489). -/
  | time (m : MonPath)
  /-- KEYPROG (R489). -/
  | keyprog (m : MonPath) (slot : Nat) (ecdsa mldsa : BitVec 384)
  /-- REVOKE (R489). -/
  | revoke (m : MonPath) (slot : Nat) (confirmed : Bool)
  /-- LCADV (R489). -/
  | lcadv (m : MonPath) (confirmed : Bool)
  /-- LOAD_BLOCK (R493). -/
  | loadBlock (data : List Byte) (check : Word)
  /-- LOAD_GAP_TIMEOUT (R493). -/
  | loadGapTimeout
  /-- RELEASE (R489). -/
  | release (m : MonPath)
  /-- DBG (R490). -/
  | dbg (m : MonPath) (eng : Fin 1088) (on : Bool)
  /-- HOLD (R490). -/
  | hold (m : MonPath) (eng : Fin 1088) (thr : Fin 8)
  /-- RESUME (R88). -/
  | resume (m : MonPath) (eng : Fin 1088) (thr : Fin 8)
  /-- STEP (R490). -/
  | step (m : MonPath) (eng : Fin 1088) (thr : Fin 8)
  /-- KILL (R490). -/
  | kill (m : MonPath) (eng : Fin 1088) (thr : Fin 8)
  /-- REGS (R490). -/
  | regs (m : MonPath) (eng : Fin 1088) (thr : Fin 8)
  /-- SETREG (R490). -/
  | setreg (m : MonPath) (eng : Fin 1088) (thr : Fin 8) (reg : Fin 33) (value : Word)
  /-- RDMEM (R490). -/
  | rdmem (m : MonPath) (eng : Fin 1088) (addr count : Nat)
  /-- WRMEM (R490). -/
  | wrmem (m : MonPath) (eng : Fin 1088) (addr : Nat) (value : Word)
  /-- SERVER_CHANGE (R486). -/
  | serverChange
  /-- MONITOR_LOAD (R493). -/
  | monitorLoad (m : MonPath) (len : Nat)
  /-- SERIAL_LOAD_LIMIT (R493). -/
  | serialLoadLimit
  /-- FULL_DEVICE_RESET (R233). -/
  | fullDeviceReset
  /-- BACKEND_CONNECTED (R239). -/
  | backendConnected (backend : Nat)
  /-- BACKEND_KEEP_ALIVE (R317). -/
  | backendKeepAlive (backend : Nat)
  /-- RDMA_COUNTERS (R351). -/
  | rdmaCounters
  /-- STRESS_SAVE (R389). -/
  | stressSave
  /-- POWER_ON_HOURS (R415). -/
  | powerOnHours
  /-- CONSUMED_RECOMPUTE (R413). -/
  | consumedRecompute
deriving DecidableEq, Repr

end Sys2Proof
end

