-- ==== Sys2Proof/Config.lean ====
section
/-!
DEFINITION. What the spec leaves open or leaves to outside standards. Every constant here is opaque: nothing in Lean can evaluate
it, so a statement that holds of the model holds for every value it may have. NOTES.md lists the log entry of each.
-/

namespace Sys2Proof

/-- A free 64-bit value, indexed by the free counter of the state (log 6). -/
opaque Config.free64 : Nat → BitVec 64
/-- A free natural number, indexed by the free counter (log 6). -/
opaque Config.freeNat : Nat → Nat
/-- A free truth value, indexed by the free counter (log 6). -/
opaque Config.freeBit : Nat → Bool
/-- Free bytes, indexed by the free counter (log 6). -/
opaque Config.freeBytes : Nat → List (BitVec 8)

/-- Which free number is taken where the spec lets any free one be taken: by kind of number, free counter and numbers in use (log 6). -/
opaque Config.pick : Nat → Nat → Nat → Nat

/-- The entry point of an arrival for which no action names one, by KIND, ACTION and the program's ENTRIES (R47, R77; log 14). -/
opaque Config.entryOf : Nat → Nat → Nat → Nat

/-- The default parse graph (R102): raw 64-byte nodes by number; the spec does not list them (log 11). -/
opaque Config.defaultGraph : List (Nat × List (BitVec 8))

/-- AES-GCM encryption (R352): key, nonce, additional data, plaintext to ciphertext and 16-byte tag (log 9). -/
opaque Config.gcmEncrypt : List (BitVec 8) → List (BitVec 8) → List (BitVec 8) → List (BitVec 8) → List (BitVec 8) × List (BitVec 8)
/-- AES-GCM decryption: key, nonce, additional data, ciphertext, tag to the plaintext, or nothing when the tag fails (log 9). -/
opaque Config.gcmDecrypt :
  List (BitVec 8) → List (BitVec 8) → List (BitVec 8) → List (BitVec 8) → List (BitVec 8) → Option (List (BitVec 8))
/-- SHA-384 (FIPS 180-4) as a number (log 9). -/
opaque Config.sha384 : List (BitVec 8) → BitVec 384
/-- ECDSA P-384 verification (FIPS 186-5): public key, message, signature (log 9). -/
opaque Config.ecdsaVerify : List (BitVec 8) → List (BitVec 8) → List (BitVec 8) → Bool
/-- ML-DSA-65 verification (FIPS 204): public key, message, signature (log 9). -/
opaque Config.mldsaVerify : List (BitVec 8) → List (BitVec 8) → List (BitVec 8) → Bool

/-- The compressed form of data, format 0 deflate or 1 Zstandard (R362, log 10). -/
opaque Config.compressBytes : Nat → List (BitVec 8) → List (BitVec 8)

/-- What decoding a compressed stream gives: the data, an unsupported frame, or an invalid stream (R362, log 10). -/
inductive Inflated where
  | ok (bytes : List Byte)
  | unsupported
  | invalid
deriving DecidableEq, Repr, Inhabited

/-- The decoding of one stream in format 0 or 1 (R362, log 10). -/
opaque Config.inflateBytes : Nat → List (BitVec 8) → Inflated

/-- The growth of a yard's STRESS count in one PTP second, in 1/16 equivalent hour with 20 fraction bits, from the junction
temperature in millikelvin and the issue cycles used and available (R389, log 21). -/
opaque Config.stressGrowth : Nat → Nat → Nat → Nat
/-- CONSUMED (R413): the highest of the rows' predictions from the spares in use and the STRESS counts (log 21). -/
opaque Config.consumed : List Nat → List Nat → Nat

/-- What an SRAM macro holds: a physical yard's memories, part of the packet buffer, or another structure. -/
inductive MacroHome where
  | yard (phys : Nat)
  | packet
  | other
deriving DecidableEq, Repr, Inhabited

/-- Where each of the 4,608 SRAM macros lies; the spec does not place them (log 38). -/
opaque Config.macroHome : Nat → MacroHome
/-- The packet-buffer bytes, from and up to, that a row (false) or column group (true) of a macro holds (log 38). -/
opaque Config.macroSpan : Nat → Bool → Nat → List (Nat × Nat)
/-- The DRAM addresses, from and up to, that a row of a channel, die and bank holds (log 38). -/
opaque Config.dramSpan : Nat → Nat → Nat → Nat → List (Nat × Nat)

/-- The bytes of the TREE area that the tree of a rule set takes (R126): KEY, KEY2 and priority of each rule; the spec does not give the
tree's layout (log 46). -/
opaque Config.treeBytes : List (List (BitVec 8) × List (BitVec 8) × Nat) → Nat
/-- The blocks of the table store that a change of an LPM result (kind 2), a RANGE entry (4), an EXACT overflow bit (6) or a stash entry
(7) touches (R134), by kind, table and a number of the change; the spec does not give these layouts (log 46). -/
opaque Config.storeBlocks : Nat → Nat → Nat → List Nat

/-- The hot-cache set of a line, of the sets that there are (R130); the spec does not say how lines spread over the sets (log 12). -/
opaque Config.cacheSet : Nat → List Nat → Nat
/-- The line that an LPM lookup of a key reads at a level of a table (R121, R130); the spec does not give the nodes' layout (log 12). -/
opaque Config.lpmLine : Nat → Nat → List (BitVec 8) → Nat

/-- Where the numbers of the stack firmware's queues begin; the spec does not give them (log 64). -/
opaque Config.stackQueueBase : Nat

/-- The RoCEv2 ICRC of a frame (R329, InfiniBand Annex A17), 4 bytes (log 9). -/
opaque Config.icrc : List (BitVec 8) → BitVec 32

/-- What the tack room's fuses hold from manufacture (R414): order code (false KA, true KD) and the module serial. -/
opaque Config.orderKD : Bool
opaque Config.serial : BitVec 64
/-- The boot vectors (R414) of the SP, MP A, MP B, Farrier A and Farrier B; 0 selects the processor's ROM entry. -/
opaque Config.bootVector : Nat → BitVec 32
/-- The fused anti-rollback floor and the hash pairs of the key slots programmed before shipment (R414). -/
opaque Config.fusedFloor : Nat
opaque Config.fusedKeys : List (Nat × (BitVec 384 × BitVec 384))
/-- The repair-map entries fused at manufacture (R383). -/
opaque Config.fusedRepairs : List (BitVec 64)
/-- Each laser's bias current at manufacture, in microamperes (R397). -/
opaque Config.laserBiasAtBuild : Nat → Nat

end Sys2Proof
end

