-- ==== Sys2Proof/Machine/State/Erg.lean ====
section
/-!
DEFINITION. State of the Erg (03, 04): thread contexts, work items, channels, instruction banks, engines and yards, and the arrivals
that wait for dispatch (R9, R22).
-/

namespace Sys2Proof.Machine

/-- One arrival as it waits for dispatch and as an item's arrival entry shows it (R9, R47, R48). `hv` is its header vector (R107). -/
structure Arrival where
  kind : Byte
  entry : Nat
  op : Option Nat
  inst : Half
  gen : Half
  arg : List Word
  stack : Bool
  handle : Word
  len : Nat
  source : Byte
  status : Byte
  action : Word
  aux : Word
  hv : Mem
deriving DecidableEq, Repr

/-- A work item (R46, R47). `serial` distinguishes items for the windows of children (R67). -/
structure Item where
  tick : Nat
  program : Half
  entry : Nat
  retry : Bool
  firstStatus : Byte
  kind : Byte
  op : Option Nat
  inst : Half
  gen : Half
  stack : Bool
  arg : List Word
  arrivals : List Arrival
  owner : Half
deriving DecidableEq, Repr

/-- The captured header vector of an enqueue (R166). -/
structure HvCap where
  sec : Nat
  ns : Nat
  frac : Nat
  hv : Mem
deriving DecidableEq, Repr

/-- A frame for a stack link (R436): the fields of its header that are settled before it is sent, and what follows the header. -/
structure StackFrame where
  kind : Nat
  src : Nat
  dst : Nat
  hops : Nat
  index : Nat
  aux : Word
  body : List Byte
deriving DecidableEq, Repr

/-- What a queued frame sends: its buffer's bytes, edited; bytes that the MP firmware built; or a stack frame. -/
inductive Built where
  | buffer
  | bytes (bs : List Byte)
  | stack (f : StackFrame)
deriving DecidableEq, Repr

/-- An enqueue as the enqueue block asks for it (R165, R166), and as a leaf holds it (R167). `len` is LENGTH; `icrc` that egress writes the
RoCEv2 ICRC (R329). A frame that the MP firmware built has no buffer here: its handle is 0. -/
structure QFrame where
  handle : Word
  len : Nat
  off : Nat
  edit : Nat
  flags : Byte
  l3at : Nat
  l4at : Nat
  tsat : Nat
  arg : Word
  cap : Option HvCap
  icrc : Bool
  built : Built
deriving DecidableEq, Repr

/-- A request posted to a unit (R50, R51): the stamp that Geleath gives it (R208), the 64-byte block and who posted it. `leng` is the logical engine
(yard × 32 + engine). -/
structure PostReq where
  stamp : Word
  unit : Nat
  block : List Byte
  leng : Nat
  inst : Half
  gen : Half
  op : Option Nat
  owner : Half
deriving DecidableEq, Repr

/-- What an item asked for that takes effect at its commit (R52), in the order its instructions executed. -/
inductive Effect where
  | post (r : PostReq)
  | enq (queue : Nat) (f : QFrame)
  | free (handle : Word) (name : Half)
deriving DecidableEq, Repr

/-- An item that ended and waits for the commit phase (R23): by YIELDT with its effects, or otherwise (`failed`) with its status alone. `took` are
the buffers that a T0 run has allocated (R78). -/
structure DoneItem where
  owner : Half
  status : Byte
  op : Option Nat
  child : Bool
  failed : Bool
  effects : List Effect
  took : List Word
deriving DecidableEq, Repr

/-- A channel message (R72, R73): the channel address of its first word, its tick stamp and its words. -/
structure Msg where
  dst : Word
  stamp : Nat
  words : List Word
deriving DecidableEq, Repr

/-- A message in a receive buffer: how many of its words have been read (R75). -/
structure RxMsg where
  msg : Msg
  read : Nat
deriving DecidableEq, Repr

/-- The states of R59. READY and WAIT are one here: a running thread is in WAIT until its `ready` cycle. -/
inductive TState where
  | free | run | send | recv | join
deriving DecidableEq, Repr

/-- What a blocked instruction waits for (R50): the word to append, the channel, or the thread mask, and its destination register. -/
inductive Blocked where
  | none
  | send (addr word : Word) (last : Bool)
  | recv (ch : Nat) (rd : Nat)
  | join (mask : Byte) (rd : Nat)
deriving DecidableEq, Repr

/-- One thread context (R39, R46, R59, R60, R69). `root` is the thread whose dispatched item this context runs in (its own number for an
item of its own), `ready` the cycle of the tick from which it may issue; until then `owed` says that a load, atomic or lookup result is
what it waits for (R36, R83). `mw` marks a thread of a mutual-wait report, `dismissed` one whose report was dismissed (R84), `took` the
buffers that a T0 run has allocated: all runs of an engine's T0 share one owner name (R78). -/
structure Thread where
  st : TState
  held : Bool
  regs : FMap Word
  pc : Word
  ready : Nat
  blk : Blocked
  item : Option Item
  root : Nat
  parent : Option Nat
  sel : Option Nat
  kept : Byte
  instret : Nat
  charged : Nat
  effects : List Effect
  took : List Word
  mw : Bool
  dismissed : Bool
  owed : Bool
  capped : Bool
  outOfGate : Bool
  stepping : Bool
  sendq : List Msg
  openMsg : Option Msg
  rx : FMap (List RxMsg)
deriving DecidableEq, Repr

/-- A free context as reset leaves it. -/
def Thread.reset : Thread :=
  { st := .free, held := false, regs := [], pc := 0, ready := 0, blk := .none, item := none, root := 0, parent := none, sel := none,
    kept := 0, instret := 0, charged := 0, effects := [], took := [], mw := false, dismissed := false, owed := false, capped := false, outOfGate := false, stepping := false,
    sendq := [], openMsg := none, rx := [] }

/-- An instruction bank: the program header's fields (R45) and the image. PROGRAM 0 is an empty bank. -/
structure Bank where
  program : Half
  version : Half
  batch : Nat
  policy : Nat
  minPeriod : Nat
  stackBase : Word
  stackSize : Nat
  entries : List Half
  image : Mem
deriving DecidableEq, Repr

/-- A bank into which nothing has been loaded. -/
def Bank.empty : Bank :=
  { program := 0, version := 0, batch := 1, policy := 0, minPeriod := 0, stackBase := 0, stackSize := 0, entries := [], image := [] }

/-- One engine (R35, R39, R53, R63, R71, R79). `cyc` is the next issue cycle counted from the start of the work phase of the tick;
the slot CSRs as written, and as in force until cycle count `slotFrom` (R65). `store` is the data store and record area by address. -/
structure Engine where
  threads : FMap Thread
  cyc : Nat
  lend : Nat
  bankA : Bank
  bankB : Bank
  activeB : Bool
  pendSwitch : Bool
  dwin : Word
  slotLo : Word
  slotHi : Word
  oldLo : Word
  oldHi : Word
  slotFrom : Nat
  dbgen : Bool
  mwauto : Bool
  ovf : Bool
  stale : Word
  store : Mem
  faultCh : List RxMsg
  retries : List Item
  t0Reason : Word
deriving DecidableEq, Repr

/-- An engine at reset (R39, R66). -/
def Engine.reset : Engine :=
  { threads := [], cyc := 0, lend := 0, bankA := Bank.empty, bankB := Bank.empty, activeB := false, pendSwitch := false, dwin := 0,
    slotLo := 0x11FAC688, slotHi := 0xFD63, oldLo := 0x11FAC688, oldHi := 0xFD63, slotFrom := 0, dbgen := false, mwauto := false,
    ovf := false, stale := 0, store := [], faultCh := [], retries := [], t0Reason := 0 }

/-- One physical yard's shared store, its partition boundary (R55) and the boundary that its next bank switch sets (R236; 0 for unchanged),
and its wait monitor's report count (R83). `reported` says that no worker
thread of the yard has changed state since the last report (R84), `cycFrom` is the module's cycle at which its engines left reset (R39, log 61). -/
structure Yard where
  shared : Mem
  boundary : Nat
  boundaryNext : Nat
  setNo : Half
  reported : Bool
  staleMsgs : Nat
  cycFrom : Nat
deriving DecidableEq, Repr

/-- A yard at reset (R55). -/
def Yard.reset : Yard := { shared := [], boundary := 0x180000, boundaryNext := 0, setNo := 0, reported := false, staleMsgs := 0, cycFrom := 0 }

/-- The Erg: engines by physical number (yard × 32 + engine), yards by physical number, the yard map (R34; none for a retired logical
yard), arrivals by logical engine in arrival order, and items that have yielded and wait for their commit (R23). -/
structure Erg where
  engines : FMap Engine
  yards : FMap Yard
  ymap : List (Option Nat)
  arrivals : FMap (List Arrival)
  done : List DoneItem
  posted : List PostReq
  urgent : FMap Half
deriving DecidableEq, Repr

/-- The Erg at reset: logical yard i on physical yard i, yards 32 and 33 resting. -/
def Erg.reset : Erg :=
  { engines := [], yards := [], ymap := (List.range 32).map some, arrivals := [], done := [], posted := [], urgent := [] }

end Sys2Proof.Machine
end

