-- ==== Sys2Proof/Machine/State/Ports.lean ====
section
/-!
DEFINITION. State of lanes, aggregation groups, classification, buffer pools and the traffic manager (05, 06, 07, 08).
-/

namespace Sys2Proof.Machine

/-- The lane states of R91, with their codes 0 to 3. -/
inductive LaneState where
  | down | noLink | up | failed
deriving DecidableEq, Repr

/-- One lane (R89 to R97). `partner` says that the LACP partner agrees (R99), `distributing` that its group's distribution uses it since
the last turn, `wants` whether it was to be used as the last gate saw it (R101), `removal` that a planned replacement has removed it
(R93). -/
structure Lane where
  mode : Nat
  st : LaneState
  maxFrame : Nat
  rxAdj : Int
  txAdj : Int
  partner : Bool
  distributing : Bool
  wants : Bool
  removal : Bool
deriving DecidableEq, Repr

/-- One aggregation group (R98 to R101, R139): its distribution table holds (member, home) pairs, and its hash profile stands with those of the ports. `members` are the lanes of this module;
`order` all members in the order of R100 and R445, where lane l of another position p is 32 × (p + 1) + l. -/
structure Group where
  isStatic : Bool
  members : List Nat
  order : List Nat
  dist : List (Nat × Nat)
  seed : Word
deriving DecidableEq, Repr

/-- Where an EXACT entry lies (R122 to R124): a line and slot, or the stash. -/
inductive Place where
  | line (n slot : Nat)
  | stash
  | none
deriving DecidableEq, Repr

/-- One table entry: key, second key (RANGE high bound, TREE ranges), number (prefix length, rule number), priority, action, data. -/
structure Entry where
  key : List Byte
  key2 : List Byte
  num : Nat
  prio : Nat
  action : Word
  data : List Word
  place : Place
deriving DecidableEq, Repr

/-- A table's type (R120). The codes are those of R117. -/
inductive TableType where
  | exact | lpm | tree | range | direct
deriving DecidableEq, Repr

/-- A classification table (R120): attributes and entries. `fields` are TREE's (offset, width) pairs (R126). -/
structure Table where
  type : TableType
  keylen : Nat
  capacity : Nat
  resident : Bool
  engine : Bool
  tseed : Word
  fields : List (Nat × Nat)
  entries : List Entry
deriving DecidableEq, Repr

/-- Everything a frame is parsed and classified under (R108, R134): one version. `profiles` are the hash profiles of ports 0 to 19 and, from 20, of
groups AG0 to AG7 (R138). -/
structure ClsConfig where
  ver : Nat
  tables : FMap (Option Table)
  stages : FMap (List Byte)
  graph : FMap (List Byte)
  spreadSeed : Word
  spread : FMap Nat
  starts : FMap Nat
  parseFail : FMap Word
  noMatch : FMap Word
  profiles : FMap Byte
deriving DecidableEq, Repr

/-- A staged change of a batch (R133, R236). -/
inductive Change where
  | entry (table : Nat) (op : Nat) (e : Entry)
  | stage (n : Nat) (desc : List Byte)
  | node (n : Nat) (raw : List Byte)
  | starts (ns : List Nat)
  | defaults (parseFail noMatch : List Word)
  | spreadSeed (w : Word)
  | profiles (ps : List Byte)
  | spreadEntry (i v : Nat)
deriving DecidableEq, Repr

/-- A batch (R133): its changes in staging order, and whether its commit has been requested. -/
structure Batch where
  num : Nat
  changes : List Change
  requested : Bool
deriving DecidableEq, Repr

/-- A parsed frame on its way through classification (R107, R112, R132, R153). -/
structure PFrame where
  lane : Nat
  hv : Mem
  bytes : List Byte
  handle : Word
  noBuf : Bool
  ver : Nat
  stack : Bool
deriving DecidableEq, Repr

/-- A frame that the punt queue or a transport unit holds (R115). -/
structure HeldFrame where
  cls : Nat
  lane : Nat
  handle : Word
  len : Nat
  inst : Half
  gen : Half
  carries : List Word
  hv : Mem
deriving DecidableEq, Repr

/-- A commit whose clean-up is to come (R135, R136): the version that it made, the tables whose entries it changed, and the shadow blocks that hold
their former values. -/
structure CleanUp where
  ver : Nat
  tables : List Nat
  blocks : Nat
deriving DecidableEq, Repr

/-- Classification: the version in force and the former ones that frames may still need, the latest first, each with the PTP time in 2^-16 ns from
which it was in force (R108, R134, R136), batches, the queues of R132, the punt
queue, the clean-ups to come, oldest first (R135), the lines that each
set of the hot cache holds, the last used first (R130), reads used of this tick's allotment (R131), and the counters of R142 by key. -/
structure Cls where
  cur : ClsConfig
  curFrom : Nat
  former : List (ClsConfig × Nat)
  batches : List Batch
  queueA : List PFrame
  queueB : List PFrame
  punt : List HeldFrame
  toTransport : List (Nat × HeldFrame)
  readsUsed : Nat
  cleaning : List CleanUp
  cache : FMap (List (List Nat))
  tablePlan : List Nat
  tablePlanNext : List Nat
  lookups : FMap Nat
  hits : FMap Nat
  dramReads : FMap Nat
  cacheHits : FMap Nat
  secondReads : FMap Nat
  stageSkips : FMap Nat
  clsDrop : FMap Nat
  clsOverload : FMap Nat
  puntDrop : FMap Nat
deriving DecidableEq, Repr

/-- A buffer's control entry (R157). -/
structure CtrlEntry where
  owners : List Half
  seq : Byte
  live : Bool
  allocTick : Half
  withdrawn : Bool
deriving DecidableEq, Repr

/-- A free buffer's control entry at reset. -/
def CtrlEntry.reset : CtrlEntry := { owners := [0, 0, 0, 0], seq := 0, live := false, allocTick := 0, withdrawn := false }

/-- One pool (R143, R144, R155, R156, R160). The free list is `returned`, head first, then the indices from `fresh` to `count - 1`. -/
structure Pool where
  size : Nat
  count : Nat
  base : Nat
  returned : List Nat
  fresh : Nat
  rebuilding : Bool
  entries : FMap CtrlEntry
  allocs : Nat
  fallback : Nat
  fail : Nat
  lowWater : Nat
  foreign : Nat
  linkFail : Nat
  withdrawn : Nat
  spilled : Nat
deriving DecidableEq, Repr

/-- The buffer pools P0 to P3 and SP1 to SP3 (positions 0 to 6), the on-die packet buffer, the carving recorded for the next reset,
this tick's spill bytes (R159), and counters. -/
structure Pools where
  pools : List Pool
  pkt : Mem
  nextSizes : List Nat
  nextCounts : List Nat
  spillWrite : Nat
  spillRead : Nat
  allocWait : FMap Nat
  ownerFull : FMap Nat
  ctrlDrop : FMap Nat
  spillSkipped : FMap Nat
  rxNoBufLane : FMap Nat
  rxNoBufInst : FMap Nat
  engNoBuf : FMap Nat
  poisoned : List Word
deriving DecidableEq, Repr

/-- A traffic-manager queue (R162). `closed` member lanes take no more enqueues (R162). -/
structure TmQueue where
  dest : Nat
  cls : Nat
  tenant : Nat
  quantum : Nat
  maxBytes : Nat
  spill : Nat
  leaves : List Nat
  closed : List Nat
deriving DecidableEq, Repr

/-- One leaf (R162, R180), keyed queue × 32 + lane. -/
structure Leaf where
  frames : List QFrame
  enqFrames : Nat
  enqBytes : Nat
  drop : Nat
deriving DecidableEq, Repr

/-- An entry of a node's active list (R169): child, deficit, visited. -/
structure Active where
  child : Nat
  deficit : Nat
  visited : Bool
deriving DecidableEq, Repr

/-- A tenant's attributes and ledger (R163, R170 to R172, R180). -/
structure Tenant where
  weight : Nat
  lgroup : Nat
  ledger : Int
  isOver : Bool
  overTicks : Nat
  skips : Nat
  startBacklog : Bool
  sentTick : Nat
deriving DecidableEq, Repr

/-- A tenant as reset leaves it. -/
def Tenant.reset : Tenant :=
  { weight := 16, lgroup := 0, ledger := 0, isOver := false, overTicks := 0, skips := 0, startBacklog := false, sentTick := 0 }

/-- A transmit timestamp record (R178). -/
structure TsReport where
  sec : Nat
  ns : Nat
  frac : Nat
  arg : Word
deriving DecidableEq, Repr

/-- A frame in transmission (R151, R176), with the timestamp record it will leave (R178). -/
structure TxFrame where
  queue : Nat
  handle : Word
  bytes : List Byte
  report : Option TsReport
deriving DecidableEq, Repr

/-- The traffic manager and egress (08). `flushed` is Q_FLUSH by queue number (R164, R180). `mpOut` are the frames that the MP firmware and
the stack have enqueued for the next commit, by queue (R168). Active lists are keyed by port, by port × 8 + class, and by (port × 8 + class) × 4096 + tenant. -/
structure Tm where
  queues : FMap (Option TmQueue)
  leaves : FMap Leaf
  flushed : FMap Nat
  portAct : FMap (List Active)
  classAct : FMap (List Active)
  tenantAct : FMap (List Active)
  sentBytes : FMap Nat
  tenants : FMap Tenant
  cquantum : FMap Nat
  strict7 : FMap Bool
  ledgerMode : Nat
  ledgerSlack : Nat
  templates : FMap (List Byte)
  sending : FMap (Option TxFrame)
  sent : FMap (List Byte)
  mpOut : List (Nat × QFrame)
  editErr : FMap Nat
  tsReports : List TsReport
  tsReportDrop : Nat
deriving DecidableEq, Repr

/-- Lanes and groups: counters of R110 keyed lane × 32 + index, parse failures keyed pipeline × 8 + status. -/
structure Ports where
  lanes : List Lane
  groups : List Group
  ctr : FMap Nat
  parseFailCtr : FMap Nat
  itemDropInst : FMap Nat
deriving DecidableEq, Repr

end Sys2Proof.Machine
end

