-- ==== Sys2Proof/Machine/State/Host.lean ====
section
/-!
DEFINITION. State of the host side: endpoint functions and requests (09), mailboxes, locks and doorbells (10), Mbadel commands (11),
work queues and operations (12), tenant instances (13).
-/

namespace Sys2Proof.Machine

/-- What a logical read of host memory is for; its data are handed there when its last request has completed. `rdma` reads the payload of
a work request from an offset, `retx` 0 for its first sending, 1 for a resending on the next path (R343), 2 for one on the same path; `responder` reads what an inbound READ asks for under a registration, `key`
its first response PSN or message. -/
inductive ReadUse where
  | unit (r : PostReq)
  | txPayload (op : Nat)
  | rdma (qpn op off retx : Nat)
  | responder (qpn reg key off retx : Nat)
deriving DecidableEq, Repr

/-- A logical read of host memory, issued as one or more requests (R191). `data` gathers bytes by offset; `dead` after a reset of its
function, which discards the data (R201). -/
structure ReadGroup where
  fn : Nat
  inst : Half
  gen : Half
  use : ReadUse
  len : Nat
  left : Nat
  status : Byte
  data : Mem
  dead : Bool
deriving DecidableEq, Repr

/-- One read request (R191, R192): its function, whose routing ID is the Requester ID, the stamp that Geleath gives it (R208), its group, its offset
in the group, its address and length. -/
structure ReadReq where
  fn : Nat
  stamp : Word
  group : Nat
  off : Nat
  addr : Nat
  len : Nat
deriving DecidableEq, Repr

/-- A tag in use: the request, the tick of issue and the timeout in ticks in force then (R196); `orphan` after an FLR (R201). -/
structure TagUse where
  req : ReadReq
  issued : Nat
  timeout : Nat
  orphan : Bool
deriving DecidableEq, Repr

/-- What follows the issue of an RDMA placement write: an acknowledgement of a packet (R341) or of a spray message (R344), or the end of a
READ work request (R340); or the reply to a POST of a host write (R271). -/
inductive AfterPlace where
  | nothing
  | hostReply (r : PostReq)
  | ack (qpn psn : Nat)
  | sprayAck (qpn msg mlen : Nat)
  | readDone (qpn op : Nat)
deriving DecidableEq, Repr

/-- A write request as it was issued (R191, R193): its Requester ID, the stamp that Geleath gives it (R208), its address, its length, and whether it
carries the Relaxed Ordering attribute. -/
structure WriteReq where
  requester : Nat
  stamp : Word
  addr : Nat
  len : Nat
  relaxed : Bool
deriving DecidableEq, Repr

/-- A request that a function with Bus Master Enable clear holds (R198). `data` marks a data write, which may carry Relaxed Ordering (R193). `place` is an RDMA placement write under a registration (R333,
R334; 0 for a READ work request's own memory). -/
inductive Held where
  | read (r : ReadReq)
  | write (addr : Nat) (bytes : List Byte) (data : Bool)
  | place (reg addr : Nat) (bytes : List Byte) (after : AfterPlace)
  | msix (vec : Nat)
deriving DecidableEq, Repr

/-- One PCI function (R183 to R190, R194, R198, R201, R205). `cfg` lists the bytes of the writable configuration registers that are not 0; what no write
changes stands in Machine/ConfigSpace.lean. Device Control resets to 0x2810, and the masks and severities of AER reset as the standard has them (R185,
log 41). `status` are the error bits of Status and `devStatus` those of Device Status; `errPtr` and `hdrLog` are the First Error Pointer and the Header
Log, whose bytes are free (log 44). `resumed` is the first tick in which work that stalled may go on (R200), and `lastDoorbell` one more than the tick
of the last doorbell or completion, 0 before the first (R207). `msix` is the vector table, in which the mask bit of each vector's control
word is kept inverted, since reset masks every vector (log 41); `pba` the pending vectors. -/
structure Fn where
  cfg : FMap Byte
  msix : Mem
  pba : List Nat
  held : List Held
  flr : Bool
  d3 : Bool
  doorbells : FMap (Option Nat)
  afterEnable : Option Nat
  badDoorbells : Nat
  adminBase : DWord
  aerUncor : Word
  aerCor : Word
  status : Half
  devStatus : Byte
  errPtr : Nat
  hdrLog : List Byte
  resumed : Nat
  lastDoorbell : Nat
deriving DecidableEq, Repr

/-- A function after reset. -/
def Fn.reset : Fn :=
  { cfg := [(0x78, 0x10), (0x79, 0x28), (0x10A, 0x40), (0x10C, 0x30), (0x10D, 0x20), (0x10E, 0x46), (0x115, 0x20)], msix := [], pba := [], held := [], flr := false, d3 := false, doorbells := [], afterEnable := none, badDoorbells := 0, adminBase := 0,
    aerUncor := 0, aerCor := 0, status := 0, devStatus := 0, errPtr := 0, hdrLog := [], resumed := 0, lastDoorbell := 0 }

/-- The PCIe link and the request machinery shared by all functions (R181, R192, R197, R199, R204, R206, R207). `bus` is the bus number that the last
configuration write gave PF0 (R183), `retraining` follows a fatal error until the link has trained again (R194), `errMsgs` are the error messages sent,
as function and 0 correctable, 1 non-fatal, 2 fatal, and `writes` the write requests issued. -/
structure Pcie where
  bus : Nat
  retraining : Bool
  rateX10 : Nat
  width : Nat
  flit : Bool
  perst : Bool
  linkUp : Bool
  lstate : LState
  ltrUs : Option Nat
  wakeN : Bool
  pmeMsgs : List Nat
  pmeToAck : Nat
  errMsgs : List (Nat × Nat)
  writes : List WriteReq
  fns : FMap Fn
  tags : FMap (Option TagUse)
  waiting : List ReadReq
  quarantine : FMap (Option (Nat × Nat × Nat))
  groups : FMap (Option ReadGroup)
  nextGroup : Nat
  lastMmio : Option (List Byte)
  lastCpl : Byte
  msixSent : List (Nat × Nat)
deriving DecidableEq, Repr

/-- A mailbox (R210, R211). -/
structure Mailbox where
  ptr : DWord
  len : Word
  stamp : Word
  full : Bool
  stale : Bool
  retracted : Bool
  overrun : Bool
  retractFail : Bool
deriving DecidableEq, Repr

/-- An empty mailbox. -/
def Mailbox.reset : Mailbox :=
  { ptr := 0, len := 0, stamp := 0, full := false, stale := false, retracted := false, overrun := false, retractFail := false }

/-- The mailbox block (R208 to R222): mailboxes by number (see Machine/Ops.lean), epochs by source code, locks, waiting yard fault
reports by logical yard (R220), discards of stale messages per receiver (R214), and the value that the last read of TAKE, of a lock or of
ER_LOST returned. -/
structure Boxes where
  lastRead : Nat
  mbs : FMap Mailbox
  epochs : FMap Nat
  locks : FMap Nat
  yardFaults : FMap (List (Nat × Word × Word))
  staleDiscards : FMap Nat
deriving DecidableEq, Repr

/-- A class T command that waits for its turn (R230 to R232). -/
structure Armed where
  opcode : Nat
  cmd : Instr
  hm : Nat
  ptr : Nat
  len : Nat
  v2 : Bool
  ready : Nat
  due : Nat
deriving DecidableEq, Repr

/-- A class W command that runs (R230, R231), its opcode, the objects it holds (kind, number), and a step count of its own. -/
structure Running where
  cmd : Instr
  hm : Nat
  ptr : Nat
  len : Nat
  v2 : Bool
  opcode : Nat
  objs : List (Nat × Nat)
  start : Nat
  stage : Nat
deriving DecidableEq, Repr

/-- The firmware's Mbadel state: messages taken whose command has not yet run, their mailboxes in the order of the takes (R231), the device state in
force at the last take from each HM mailbox (R14), ticks that no command's time counts (R230), class T and W commands, notices that wait for MHk
(R217), results written before a fail-over, the round-robin position, the last result, and the commands (mailbox, block, opcode) taken before a
reset of PF0 (R203). -/
structure Mbadel where
  taken : FMap (Option (Nat × Nat))
  order : List Nat
  takenState : FMap Nat
  idle : Nat
  armed : List Armed
  running : List Running
  notices : List (Nat × Nat × Nat)
  posted : FMap (Option (Nat × Nat))
  lastTaken : Nat
  lastResult : List Byte
  preReset : List (Nat × Nat × Nat)
deriving DecidableEq, Repr

/-- A caravan that has been fetched and whose completion is not yet written (R259, R262). `out` is its outcome, once settled: status,
BYTES and CFLAGS without PHASE. -/
structure Caravan where
  op : Nat
  first : Nat
  count : Nat
  tag : DWord
  irq : Bool
  out : Option (Byte × Nat × Nat)
deriving DecidableEq, Repr

/-- A posted receive buffer whose caravan is at `slot` (R257). -/
structure RxBuf where
  slot : Nat
  addr : Nat
  len : Nat
deriving DecidableEq, Repr

/-- A queue (R251 to R255, R262, R264, R265, R269). Type 0 is ADMIN. `cqNext` and `cqHead` count completions written and consumed since
creation, so that the index is the count modulo the ring and PHASE follows from it (R261). `aborted`
names the first slots of caravans aborted before they were fetched (R267). -/
structure Queue where
  type : Nat
  logn : Nat
  logm : Nat
  vector : Nat
  desc : Nat
  cq : Nat
  modTicks : Nat
  modCount : Nat
  bind : Nat
  tmq : Option Nat
  wake : Bool
  error : Bool
  head : Nat
  oldest : Nat
  tail : Nat
  cqNext : Nat
  cqHead : Nat
  pendCount : Nat
  pendSince : Nat
  caravans : List Caravan
  rxBufs : List RxBuf
  fetchTick : Nat
  fetchCnt : Nat
  aborted : List Nat
deriving DecidableEq, Repr

/-- An operation-table entry (R9, R47, R259, R267): its queue, whose it is, its saved argument and its buffer. `dead` after an abort:
its arrivals are discarded and it is freed when its requests have ended. -/
structure Operation where
  key : Nat
  inst : Half
  gen : Half
  arg : List Word
  kind : Nat
  dead : Bool
  handle : Word
  len : Nat
deriving DecidableEq, Repr

/-- What an admin command does in the commit that settles it (R263, R267): its completion alone, a queue query, or an abort. -/
inductive AdminDue where
  | finish (key op : Nat) (status : Byte) (bytes : Nat)
  | query (key op target addr : Nat)
  | abort (key op target : Nat) (tag : DWord)
deriving DecidableEq, Repr

/-- An admin command's change that waits for its turn (R263, R253, R270); `ctlReset` is an NVMe controller reset (R298). -/
inductive AdminChange where
  | create (key : Nat) (q : Queue)
  | finish (key adminKey op : Nat) (destroy : Bool)
  | moderate (key vector modTicks modCount : Nat)
  | ctlReset (fn : Nat)
deriving DecidableEq, Repr

/-- Caravans of a destroyed or reset queue that the following commit completes ABORTED, and the admin command to complete after them
(R266). `q` is the queue as it stood at the turn. -/
structure Ending where
  key : Nat
  q : Queue
  destroy : Bool
  aborted : List Caravan
  adminKey : Nat
  op : Nat
deriving DecidableEq, Repr

/-- The work queues (12): queues keyed function × 65536 + number, the operation table, admin commands to settle in the next commit,
changes that wait for their turn, queues ended at the last turn, the completions of this tick's commit by queue, TAG and first slot (R268), and the entries
withdrawn until reset (R365). -/
structure Queues where
  qs : FMap (Option Queue)
  ops : FMap (Option Operation)
  due : List AdminDue
  changes : List AdminChange
  endings : List Ending
  published : List (Nat × DWord × Nat)
  withdrawn : List Nat
deriving DecidableEq, Repr

/-- The states of R275. -/
inductive InstState where
  | running | frozen | resetting | destroying | saving | restoring
deriving DecidableEq, Repr

/-- The counters of R294. -/
structure InstCtr where
  staleGen : Nat
  opsWait : Nat
  frozenDrop : Nat
  rxMasterOff : Nat
  dirtyPages : Nat
  dirtyOverflows : Nat
deriving DecidableEq, Repr

/-- Zero counters. -/
def InstCtr.zero : InstCtr := { staleGen := 0, opsWait := 0, frozenDrop := 0, rxMasterOff := 0, dirtyPages := 0, dirtyOverflows := 0 }

/-- A tenant instance (R272 to R294). `back` is the state a reset, save or restore returns to. `dirty` maps a 2 MiB chunk number to its
512 page bits. `vecNet` and `vecSto` are the table sizes in force (R278). -/
structure Inst where
  st : InstState
  back : InstState
  elastic : Bool
  noNet : Bool
  noSto : Bool
  tenant : Nat
  res : Res
  macs : List Nat
  vecNet : Nat
  vecSto : Nat
  dirtyArmed : Bool
  dirtyOverflow : Bool
  dirty : FMap Nat
  ctr : InstCtr
deriving DecidableEq, Repr

/-- Tenant instances by number, every number's last generation (R280), and each instance's counters as the last turn took them (R160, R294). -/
structure Tenancy where
  insts : FMap (Option Inst)
  gens : FMap Half
  turnCtrs : FMap (List Nat)
deriving DecidableEq, Repr

end Sys2Proof.Machine
end

