-- ==== Sys2Proof/Machine/State/Units.lean ====
section
/-!
DEFINITION. State of the storage functions (14), remote memory access (15), the accelerators (16) and event logging (17).
-/

namespace Sys2Proof.Machine

/-- An NVMe submission queue (R303, R309). `aborted` names commands that were aborted before they were fetched (R311). -/
structure NvSq where
  cqid : Nat
  prio : Nat
  size : Nat
  base : Nat
  head : Nat
  tail : Nat
  error : Bool
  aborted : List Half
deriving DecidableEq, Repr

/-- An NVMe completion queue (R299, R303, R306). `next` and `head` count entries written and consumed since creation. -/
structure NvCq where
  iv : Nat
  ien : Bool
  size : Nat
  base : Nat
  next : Nat
  head : Nat
  modTicks : Nat
  modCount : Nat
  pendCount : Nat
  pendSince : Nat
deriving DecidableEq, Repr

/-- An NVMe command in flight (R299): where it came from and its operation. `parts` gathers the backend's statuses by first block (R316),
`waits` is the buffer of a command whose backend work waits for the exit from a power state (R315). -/
structure NvOut where
  sqid : Nat
  cid : Half
  op : Nat
  nsid : Word
  nvOp : Nat
  slba : Nat
  bytes : Nat
  parts : List (Nat × Nat)
  waits : Option Word
deriving DecidableEq, Repr

/-- A command whose outcome is settled and whose completion entry waits for a commit and for room (R299): status without the phase bit. -/
structure NvDone where
  cqid : Nat
  sqid : Nat
  cid : Half
  sqhd : Nat
  op : Option Nat
  status : Nat
  dw0 : Word
deriving DecidableEq, Repr

/-- Admin commands that settle in a commit after that commit's completions (R311). -/
inductive NvDue where
  | abort (cid : Half) (op sqid : Nat) (target : Half)
  | deleteSq (cid : Half) (op sqid : Nat)
deriving DecidableEq, Repr

/-- An entry of the Error Information log (R307, R325); `loc` is the parameter error location. -/
structure NvErr where
  sqid : Nat
  cid : Half
  status : Half
  lba : Nat
  nsid : Word
  loc : Half
deriving DecidableEq, Repr

/-- A transition between power states (R314, R315): from, to, and the tick at whose end it ends; `exit` is an exit from PS3. -/
structure NvTrans where
  source : Nat
  target : Nat
  endTick : Nat
  leaving : Bool
deriving DecidableEq, Repr

/-- One NVMe controller (R295 to R315, R324). Keyed by function number. Features are raw Dword 11 values; `nsq` and
`ncq` are how many I/O queues of each kind are allocated, `fwWait` a Firmware Commit that waits for its switch (R322). `visits`
hold, per priority class, the queue visited and the commands of the visit, `used` the credits used in the round by the classes high, medium and
low (R309). -/
structure NvCtl where
  enabled : Bool
  adminBase : Nat
  logn : Nat
  sqs : FMap (Option NvSq)
  cqs : FMap (Option NvCq)
  outs : List NvOut
  settled : List NvDone
  due : List NvDue
  aers : List Half
  events : List Nat
  errors : List NvErr
  errCount : Nat
  arb : Word
  ps : Nat
  lastOper : Nat
  trans : Option NvTrans
  tempOver : Word
  tempUnder : Word
  tempOver1 : Word
  tempUnder1 : Word
  nsq : Nat
  ncq : Nat
  coal : Word
  coalTicks : Nat
  aec : Word
  apste : Bool
  apst : List Byte
  kato : Word
  katoFrom : Nat
  idleSince : Nat
  everIo : Bool
  setPower : Option (Half × Nat)
  fwWait : Option (Half × Nat)
  fetched : Nat
  visits : List (Nat × Nat)
  used : List Nat
  unitsRead : Nat
  unitsWritten : Nat
  cmdsRead : Nat
  cmdsWritten : Nat
  mediaErrors : Nat
  busyNs : Nat
  critWarn : Nat
deriving DecidableEq, Repr

/-- A controller after reset: features at their defaults (R306), power state PS0. -/
def NvCtl.reset : NvCtl :=
  { enabled := false, adminBase := 0, logn := 0, sqs := [], cqs := [], outs := [], settled := [], due := [], aers := [], events := [], errors := [],
    errCount := 0, arb := 0x07030103, ps := 0, lastOper := 0, trans := none, tempOver := 373, tempUnder := 233, tempOver1 := 373,
    tempUnder1 := 233, nsq := 0, ncq := 0, coal := 0, coalTicks := 0, aec := 0, apste := true, apst := [], kato := 0, katoFrom := 0, idleSince := 0,
    everIo := false, setPower := none, fwWait := none, fetched := 0, visits := [], used := [], unitsRead := 0, unitsWritten := 0, cmdsRead := 0, cmdsWritten := 0,
    mediaErrors := 0, busyNs := 0, critWarn := 0 }

/-- A backend (R317, R319). `lostAt` is the tick at which its connection was lost and `tries` counts the tries to reconnect since then; `queues` are the
open I/O queues with the tick of last use. -/
structure Backend where
  transport : Nat
  port : Nat
  addr : List Byte
  subnqn : List Byte
  up : Bool
  lostAt : Option Nat
  tries : Nat
  queues : FMap (Option Nat)
  keepAlives : Nat
deriving DecidableEq, Repr

/-- A namespace (R318). -/
structure Namespace where
  backend : Nat
  remote : Nat
  block : Nat
  blocks : Nat
deriving DecidableEq, Repr

/-- A backend command (R319, R321): who posted it and how far it is. -/
structure BackendCmd where
  backend : Nat
  ns : Nat
  nvmeOp : Nat
  slba : Nat
  nlb : Nat
  req : PostReq
  since : Nat
  sent : Option Nat
  cancelled : Bool
deriving DecidableEq, Repr

/-- Storage (14): controllers by function, backends, namespaces, attachments keyed instance × 512 + NSID, backend commands by BREF,
and frames sent to the backends as (backend, bytes). -/
structure Storage where
  ctls : FMap NvCtl
  backends : FMap (Option Backend)
  nss : FMap (Option Namespace)
  attach : FMap (Option Nat)
  cmds : FMap (Option BackendCmd)
  nextBref : Nat
  wire : List (Nat × Nat × List Byte)
deriving DecidableEq, Repr

/-- A registration-table entry (R332), and the tick in which it was marked REVOKING (R347). -/
structure Reg where
  base : Nat
  length : Nat
  inst : Nat
  pd : Nat
  tag : Byte
  rights : Byte
  state : Nat
  inflight : Nat
  marked : Nat
deriving DecidableEq, Repr

/-- A registration-table entry at reset: FREE with tag 0. -/
def Reg.reset : Reg := { base := 0, length := 0, inst := 0, pd := 0, tag := 0, rights := 0, state := 0, inflight := 0, marked := 0 }

/-- A requester's work request on a context (R340, R343, R349). `next` is the next byte a READ expects, `acked` marks of a spray
message, `data` the payload of a WRITE as read from the host. -/
structure Wqe where
  req : PostReq
  op : Nat
  isRead : Bool
  rva : Nat
  rkey : Word
  len : Nat
  segs : List (Nat × Nat)
  psn : Nat
  msg : Nat
  next : Nat
  sent : Bool
  data : List Byte
  retries : Nat
  slot : Bool
  bitmap : List Bool
  slotTick : Nat
  rounds : Nat
  lastSent : Nat
deriving DecidableEq, Repr

/-- An inbound READ record (R337): VA, key, length, first PSN or message, bytes sent, its operation-table entry, the tick of its last
response, and the data that waits for its turn in PSN order. -/
structure ReadRec where
  va : Nat
  rkey : Word
  len : Nat
  psn : Nat
  sent : Nat
  op : Nat
  lastTick : Nat
  data : Option (List Byte)
deriving DecidableEq, Repr

/-- A responder's reassembly slot (R344, R345). -/
structure Reasm where
  msg : Nat
  mlen : Nat
  va : Nat
  rkey : Word
  bitmap : List Bool
  since : Nat
  rounds : Nat
deriving DecidableEq, Repr

/-- A connection context (R335 to R338). `filled` is its record as the last fill or write-back left it in its slot. -/
structure Ctx where
  peerQpn : Nat
  inst : Nat
  pd : Nat
  state : Nat
  spray : Bool
  paths : Nat
  pmtu : Nat
  peer : List Byte
  ackTimeout : Nat
  retry : Nat
  reasm : Nat
  maxMsgs : Nat
  errStatus : Byte
  nakSent : Bool
  writeOpen : Bool
  sqPsn : Nat
  sqUna : Nat
  rqPsn : Nat
  retriesLeft : Nat
  rwVa : Nat
  rwRkey : Word
  rwLeft : Nat
  msgNext : Nat
  msgDone : Nat
  doneMap : List Bool
  respQueue : Nat
  respEdit : Nat
  reqQueue : Nat
  reqEdit : Nat
  lastAckTick : Nat
  wqes : List Wqe
  reads : List ReadRec
  reasms : List Reasm
  slotNo : Nat
  cached : Bool
  filling : Bool
  filled : List Byte
  usedTick : Nat
deriving DecidableEq, Repr

/-- What waits for a context's fill (R339): a packet, with the BTH opcode of its row (0xFF for an opcode that is not supported), or a
request of unit 6. -/
inductive Miss where
  | packet (op : Nat) (p : RdmaPkt) (sh : SprayHdr)
  | submit (r : PostReq)
deriving DecidableEq, Repr

/-- A packet of the RDMA transport that has no buffer yet (R154): the instance and queue it is for, its edit template, and what it sends. -/
structure Unsent where
  inst : Nat
  queue : Nat
  edit : Nat
  arg : Word
  body : List Byte
deriving DecidableEq, Repr

/-- RDMA (15): registrations, contexts by QPN, backing store, the QPNs by recency of use, the miss queue, packets that the next commit
publishes, packets that wait for a buffer, oldest first (R154), counters keyed instance × 32 + index (device totals under 0xFFFF), and the values last written to the event log. -/
structure Rdma where
  regs : FMap Reg
  ctxs : FMap (Option Ctx)
  backing : Option (Nat × Nat)
  lru : List Nat
  misses : List (Nat × Miss)
  outbox : List (Nat × QFrame)
  unsent : List Unsent
  counters : FMap Nat
  logged : FMap Nat
deriving DecidableEq, Repr

/-- A key context (R357): the record and the unit state. -/
structure KeyCtx where
  key : List Byte
  salt : List Byte
  ident : Word
  next : Nat
  mode : Nat
  flags : Byte
  window : Nat
  state : Nat
  inst : Half
  highest : Nat
  bitmap : Nat
deriving DecidableEq, Repr

/-- A context that is FREE. -/
def KeyCtx.reset : KeyCtx :=
  { key := [], salt := [], ident := 0, next := 0, mode := 0, flags := 0, window := 0, state := 0, inst := 0, highest := 0, bitmap := 0 }

/-- A request in an accelerator's queue: the bytes that the unit has still to process, and whether it has processed the last of them (R352, R354). -/
structure AccelReq where
  req : PostReq
  left : Nat
  ready : Bool
deriving DecidableEq, Repr

/-- A finished accelerator request whose result is not yet recorded as an arrival (R354). -/
structure AccelDone where
  req : PostReq
  status : Byte
  handle : Word
  outLen : Nat
deriving DecidableEq, Repr

/-- The accelerators (16): request queues of units 0, 1 and compression, finished requests, and key contexts. -/
structure Accel where
  queues : List (List AccelReq)
  done : List (List AccelDone)
  keys : FMap KeyCtx
deriving DecidableEq, Repr

/-- An event (R374). -/
structure Event where
  seq : Nat
  tick : Nat
  code : Half
  severity : Nat
  stamp : Word
  object : Word
  detail : Word
deriving DecidableEq, Repr

/-- The event log and ring (R373 to R377, R379). `pendingRing` holds events that wait for their placement in a commit. `log` is newest
first. -/
structure Events where
  log : List Event
  nextSeq : Nat
  mask : BitVec 256
  ringBase : DWord
  ringSize : Nat
  ringVector : Nat
  ringTail : Nat
  ringHead : Nat
  ringPhase : Bool
  ringEnabled : Bool
  overflow : Bool
  lost : Word
  pendingRing : List Event
  faultN : Bool
deriving DecidableEq, Repr

end Sys2Proof.Machine
end

