-- ==== Sys2Proof/Machine/State/Device.lean ====
section
/-!
DEFINITION. State of time and the device (01, 02), repair and wear (18), boot, images and keys (19), stacking (20), power (21), the
connector (22) and the Criek monitor (23).
-/

namespace Sys2Proof.Machine

/-- Where in its tick the device is (R18). The work of dispatch is done as the tick begins, so the first phase kept is work. -/
inductive Phase where
  | work | commit | turn
deriving DecidableEq, Repr

/-- The clock states of R30, with the codes 0 to 3 of TIME_QUERY. -/
inductive ClockState where
  | freerun | acquiring | locked | holdover
deriving DecidableEq, Repr

/-- Time (R17 to R32): the tick, its phase, period code, G, the pending period change, the PTP time at the start of the tick, cycles
before this tick, the clock state, sources and corrections. `stateNs` is how long the clock has been in its state,
`belowNs` how long Δ has stayed below 50 ns, `offset` Δ in ns, `slew` the f still to remove, in tenths of a ns, `freq` the frequency correction last
applied (R30; its value is free, log 62), `ppsOut` PPS_OUT (R476). `tick` counts tick boundaries, which timers count, and `jumped` is how far a
stack has stepped the tick number forward (R20, R438): the tick number is their sum. -/
structure Time where
  tick : Nat
  jumped : Nat
  phase : Phase
  period : Nat
  gate : Nat
  pendPeriod : Option (Nat × Nat)
  sec : Nat
  ns : Nat
  frac : Nat
  cycBase : Nat
  clock : ClockState
  source : Nat
  qualStack : Bool
  qualPtp : Bool
  qualPps : Bool
  ptpPrio : Nat
  ppsPrio : Nat
  ptpLane : Nat
  domain : Nat
  stateNs : Nat
  belowNs : Nat
  holdoverSec : Nat
  offset : Int
  slew : Int
  freq : Int
  ppsOut : Bool
  ppsStamp : Nat × Nat
deriving DecidableEq, Repr

/-- The tick number of R20. -/
def Time.number (t : Time) : Nat := t.tick + t.jumped

/-- The causes of RECOVERING (R11). -/
inductive Recover where
  | mp | channel | yard (phys : Nat) | master
deriving DecidableEq, Repr

/-- Causes of device states (R11), the state, CAUSES and CAPACITY in force since the last turn (R24, R215), the causes that held at the last gate,
the DRAM division (R16), and when a commanded full reset comes or which notice it waits for (R233). -/
structure Device where
  state : Nat
  starting : Bool
  testing : Bool
  recovers : List Recover
  unmanaged : Bool
  recoveryWait : Bool
  controlMib : Nat
  controlMibNext : Nat
  resetAt : Option Nat
  resetFor : Option (Nat × Nat)
  causesIn : Nat
  gateCauses : Nat
  capacity : Nat
deriving DecidableEq, Repr

/-- What a physical yard is doing (R34, R381, R391). -/
inductive YardUse where
  | active | resting | retired
deriving DecidableEq, Repr

/-- The steps of a swap (R391 to R396). -/
inductive SwapStage where
  | waiting | testing | mirroring | mirrored
deriving DecidableEq, Repr

/-- A swap: outgoing and incoming physical yards, the logical yard, its step, whether a fault forces it, whether ROTATE_NOW asked for it,
once it is ready the first tick whose turn may apply it (R24), and, once step 1 of a forced swap is done, that and the spread entries to restore
(R396). -/
structure Swap where
  out : Nat
  inn : Nat
  logical : Nat
  stage : SwapStage
  forced : Bool
  asked : Bool
  due : Nat
  saved : List (Nat × Nat)
  settled : Bool
deriving DecidableEq, Repr

/-- A repair-map entry (R383, R384). -/
structure MapEntry where
  type : Nat
  unit : Nat
  source : Nat
  target : Nat
deriving DecidableEq, Repr

/-- A repair-log record (R411). -/
structure RepairRec where
  seq : Nat
  tick : Nat
  sec : Nat
  action : Nat
  type : Nat
  status : Byte
  entry : BitVec 64
deriving DecidableEq, Repr

/-- Repair, wear and processors (18). Stress counts have 20 fraction bits. `used` and `retired` count per row of R381. A laser or
electrical-lane spare in use is kept as 1 + the element that it replaces; `laneWork` is the replacement that a lane waits for, 1 of its
laser, 2 of its electrical lane. `mps` and `farriers` say which are usable, `mpFail` is a failed MP before the turn of its fail-over. `reported` are the addresses, of the packet
buffer or of DRAM, whose rows the Farrier is to test (R156, R367). -/
structure Repair where
  yardUse : List YardUse
  swap : Option Swap
  forcedWait : List Swap
  stress : FMap Nat
  checkFails : FMap Nat
  map : List MapEntry
  log : List RepairRec
  logSeq : Nat
  used : FMap Nat
  retired : FMap Nat
  sramRows : FMap Nat
  sramCols : FMap Nat
  lasers : FMap Nat
  bias : FMap Nat
  laserTemp : FMap Nat
  elanes : FMap Nat
  laneWork : FMap Nat
  ppr : FMap Nat
  dramRows : FMap Nat
  withdrawnRows : List (Nat × Nat)
  channels : List Bool
  moving : Option Nat
  moveDone : Bool
  stages : List Bool
  mps : List Bool
  mpActive : Nat
  mpReloading : Option Nat
  mpReloads : Nat
  mpFail : Option Nat
  mpSwitch : Option (Nat × Nat × Nat)
  farriers : List Bool
  farrierUp : List Bool
  farrierActive : Nat
  farrierReloads : Nat
  flash : List Bool
  rotationOn : Bool
  rotationDays : Nat
  patrolOn : Bool
  patrolDays : Nat
  appends : List (Nat × Nat)
  consumed : Nat
  corrected : FMap Nat
  reported : List (Bool × Nat)
deriving DecidableEq, Repr

/-- A journal record (R415): number, kind, value. Only records in force are kept. -/
structure JRec where
  jseq : Nat
  kind : Nat
  value : Nat
deriving DecidableEq, Repr

/-- What survives power loss (R414 to R418): key slots, revocations, lifecycle steps, the journal (records in force of the active bank,
its generation, and how many locations it has used), and the flash chips. -/
structure Nv where
  keys : FMap (Option (Nat × Nat))
  revoked : List Nat
  lifecycle : Nat
  journal : List JRec
  jseq : Nat
  bankGen : Nat
  bankUsed : Nat
  chip0 : FMap Byte
  chip1 : FMap Byte
deriving DecidableEq, Repr

/-- How far boot has come (R427, R430). -/
inductive BootStage where
  | waitRepair | repaired | selected | released | yards | stuck
deriving DecidableEq, Repr

/-- Boot (R427 to R433): straps as sampled, the stage, what runs, failed slots of this power-up, recovery window and rounds, and the image
of the standby MP (slot, SEQ, VERSION). `coldStart` says that this power-up is a power cycle not yet counted (R415), `fenced` that stage 1 has set
and locked the fences (R428), and `started` holds the processors that have been released, in order: 0 the SP, 1 and 2 MP A and B, 3 and 4 Farrier A and B
(R427, R430). -/
structure Boot where
  straps : Straps
  stage : BootStage
  runSlot : Option Nat
  runSeq : Nat
  runVersion : Nat
  fromRecovery : Bool
  mpRunning : Bool
  firstRun : Option Nat
  bootOk : Bool
  tried : List Nat
  window : Bool
  windowHeld : Bool
  /-- The window that is open stands before this round's selection (R431, BOOT_MODE 11). -/
  preSelect : Bool
  rounds : Nat
  recoveryPers : Bool
  standby : Option (Nat × Nat × Nat)
  endpointUp : Bool
  coldStart : Bool
  fenced : Bool
  started : List Nat
deriving DecidableEq, Repr

/-- A stack-wide commit that this module took (R443): the batch, the tick of its PREPARE, the members that answered READY, T once known, and
whether the master was lost during it. The armed COMMIT holds the rest. -/
structure StackCommit where
  batch : Nat
  start : Nat
  ready : List Nat
  goTick : Option Nat
  lost : Bool
deriving DecidableEq, Repr

/-- Stacking (20). `members` are the positions of the membership and `unwell` those that a position's heartbeats do not show healthy (R437), `heard` is
the last CONTROL message that reached the MP firmware, with its stamp, its code and what it is about (R436), `missed` boundaries without a marker, `markers` those counted after a
takeover (R441), `joinAt` an announced join as (position, its tick number, turn), `commit` the stack commit that this module runs or forwarded,
`prepared` batches with the tick of PREPARE and whether READY was answered, `going` batches with T, `outcomes` of the last 256 (R443),
`groups` STACK_GROUP members, `stages` STACK_STAGE bindings as (program, entry, position). -/
structure Stack where
  members : List Nat
  unwell : List Nat
  heard : Option (Word × Nat × Nat)
  master : Nat
  isolated : Bool
  missed : Nat
  markers : Nat
  takeover : Bool
  joinAt : Option (Nat × Nat × Nat)
  commit : Option StackCommit
  prepared : List (Nat × Nat × Bool)
  going : List (Nat × Nat)
  outcomes : List (Nat × Nat × Bool)
  groups : FMap (List Half)
  stages : List (Nat × Nat × Nat)
deriving DecidableEq, Repr

/-- The power states of R456. -/
inductive PowerState where
  | feed | rideThrough | warned | down | tripped
deriving DecidableEq, Repr

/-- Power, thermal and pins (21, 22). Temperatures are in 1/16 °C. -/
structure Power where
  st : PowerState
  vinMv : Nat
  holdupMv : Nat
  estimate : Nat
  cm : Nat
  inSag : Bool
  capCfg : Nat
  thermalCap : Option Nat
  level : Nat
  cappedTicks : Nat
  junction : Int
  plate : Int
  thermAlert : Bool
  warn : Bool
  pwrGood : Bool
  resetInLow : Bool
  prevUnsafe : Option Nat
  lasersOff : Bool
  smbus : Option Half
  mctpEid : Byte
  mctpReply : Option (List Byte)
  tapIr : Nat
  boundary : List Bool
  extest : Bool
deriving DecidableEq, Repr

/-- One line of monitor output: the final lines of R485, and output lines as a label with numbers. -/
inductive MonLine where
  | ok
  | err (code : Byte)
  | text (label : String) (values : List Nat)
deriving DecidableEq, Repr

/-- A LOAD in progress (R493): its length, the bytes so far, the block number expected. -/
structure MonLoad where
  len : Nat
  data : List Byte
  block : Nat
  safeHold : Bool
deriving DecidableEq, Repr

/-- The Criek monitor (23) and the unlock of group 0x0D (R246), whose expiry waits for a turn (R247). `criek` is the server: false for Criek-ROM. -/
structure Monitor where
  criek : Bool
  session : Option MonPath
  baud : Nat
  baudNext : Option Nat
  tapCriek : Bool
  out : List MonLine
  load : Option MonLoad
  unlockYards : BitVec 32
  unlockUntil : Nat
  expiring : Bool
deriving DecidableEq, Repr

end Sys2Proof.Machine
end

