-- ==== Sys2Proof/Machine/State.lean ====
section
/-!
DEFINITION. The state of the module, all of it plain data, the reasons a step can stop, and the state right after reset.
INVENTORY.md, '## State', lists every piece with its rule. Sub-structures stand in Machine/State/.
-/

namespace Sys2Proof.Machine

/-- The whole state. `pending` is the queue of commands that wait, first in, first out, and `freeCtr` the model's own counter for free
values (log 6). `dram` is the on-module DRAM by address (R16), `hostMem` host memory as Geleath reaches it (R8). -/
structure State where
  pending : List Instr
  freeCtr : Nat
  time : Time
  dev : Device
  erg : Erg
  ports : Ports
  cls : Cls
  pools : Pools
  tm : Tm
  pcie : Pcie
  boxes : Boxes
  mbadel : Mbadel
  queues : Queues
  ten : Tenancy
  sto : Storage
  rdma : Rdma
  accel : Accel
  events : Events
  repair : Repair
  nv : Nv
  boot : Boot
  stack : Stack
  power : Power
  monitor : Monitor
  dram : Mem
  hostMem : Mem
deriving DecidableEq, Repr

/-- Reasons that stop the block. The spec gives every command an effect, so there is none. -/
inductive Fault where
deriving DecidableEq, Repr

/-- Refusals. -/
inductive Refusal where
  /-- Raised by the dispatcher for a command whose meaning is not written yet; safe: no claim can rest on it. -/
  | notModelled (mnemonic : String)
deriving DecidableEq, Repr

/-- Time at reset (R17, R19, R20, R29, R30; the PTP time is DESIGN CHOICE 0, log 22). -/
def Time.reset : Time :=
  { tick := 0, jumped := 0, phase := .work, period := 1, gate := 240, pendPeriod := none, sec := 0, ns := 0, frac := 0, cycBase := 0,
    clock := .freerun, source := 0, qualStack := false, qualPtp := false, qualPps := false, ptpPrio := 2, ppsPrio := 3, ptpLane := 0,
    domain := 24, stateNs := 0, belowNs := 0, holdoverSec := 14400, offset := 0, slew := 0, freq := 0, ppsOut := true, ppsStamp := (0, 0) }

/-- The device at PWR_GOOD (R11, R16). -/
def Device.reset : Device :=
  { state := 0, starting := true, testing := false, recovers := [], unmanaged := false, recoveryWait := false, controlMib := 4096,
    controlMibNext := 4096, resetAt := none, resetFor := none, causesIn := 1, gateCauses := 1, capacity := 0 }

/-- A lane at reset (R90, R91, R94, R97): held down until the dataplane starts (R13). -/
def Lane.reset (mode : Nat) : Lane :=
  { mode := mode, st := .down, maxFrame := 9728, rxAdj := 0, txAdj := 0, partner := false, distributing := false, wants := false,
    removal := false }

/-- The lanes at reset: U and D in mode 0x1, S in mode 0x5 when STACK_EN is asserted (R90). -/
def Ports.resetLanes (stackEn : Bool) : List Lane :=
  List.replicate 16 (Lane.reset 1) ++ List.replicate 4 (Lane.reset (if stackEn then 5 else 0))

/-- The distribution table of a group as it is formed (R100): entry i names, and has as home, member i mod m. -/
def Group.table (ms : List Nat) : List (Nat × Nat) :=
  if ms.isEmpty then [] else (List.range 64).map (fun i => (ms.getD (i % ms.length) 0, ms.getD (i % ms.length) 0))

/-- A group at reset with members `ms` (R98, R99, R138, R139). -/
def Group.reset (ms : List Nat) : Group :=
  { isStatic := false, members := ms, order := ms, dist := Group.table ms, seed := 0 }

/-- Lanes and groups at reset (R98). -/
def Ports.reset (stackEn : Bool) : Ports :=
  { lanes := Ports.resetLanes stackEn,
    groups := [Group.reset [0, 1, 2, 3], Group.reset [4, 5, 6, 7]] ++ List.replicate 6 (Group.reset []),
    ctr := [], parseFailCtr := [], itemDropInst := [] }

/-- Classification at reset: no tables, every stage OFF (log 17), an empty graph until firmware loads the default one (R102). -/
def ClsConfig.reset : ClsConfig :=
  { ver := 0, tables := [], stages := [], graph := [], spreadSeed := 0, spread := [], starts := [], parseFail := [], noMatch := [],
    profiles := [] }

/-- The default table-store plan in KiB, the rows of R130. -/
def Cls.defaultPlan : List Nat := [512, 1024, 12288, 1024, 2048, 2048, 512, 1024, 20480]

/-- Classification state at reset (R109, R117, R130, R142). -/
def Cls.reset : Cls :=
  { cur := ClsConfig.reset, curFrom := 0, former := [], batches := [], queueA := [], queueB := [], punt := [], toTransport := [], readsUsed := 0,
    cleaning := [], cache := [], tablePlan := Cls.defaultPlan, tablePlanNext := Cls.defaultPlan, lookups := [], hits := [], dramReads := [],
    cacheHits := [], secondReads := [], stageSkips := [], clsDrop := [], clsOverload := [], puntDrop := [] }

/-- The default carving (R144). -/
def Pools.defaultSizes : List Nat := [256, 2304, 9728, 65536, 2304, 9728, 65536]
/-- The default counts (R144). -/
def Pools.defaultCounts : List Nat := [65536, 16384, 4096, 96, 1048576, 393216, 32768]

/-- A pool with every buffer free (R144). -/
def Pool.make (size count base : Nat) : Pool :=
  { size := size, count := count, base := base, returned := [], fresh := 0, rebuilding := false, entries := [], allocs := 0,
    fallback := 0, fail := 0, lowWater := count, foreign := 0, linkFail := 0, withdrawn := 0, spilled := 0 }

/-- Lay pools out in ascending order from `base` (R143). -/
def Pools.lay : Nat → List (Nat × Nat) → List Pool
  | _, [] => []
  | base, (size, count) :: rest => Pool.make size count base :: Pools.lay (base + size * count) rest

/-- The pools at a reset with carving `sizes`, `counts` (R143, R144): on-die pools and sub-pools each from offset 0. -/
def Pools.reset (sizes counts : List Nat) : Pools :=
  { pools := Pools.lay 0 ((sizes.zip counts).take 4) ++ Pools.lay 0 ((sizes.zip counts).drop 4), pkt := [], nextSizes := sizes,
    nextCounts := counts, spillWrite := 0, spillRead := 0, allocWait := [], ownerFull := [], ctrlDrop := [], spillSkipped := [],
    rxNoBufLane := [], rxNoBufInst := [], engNoBuf := [], poisoned := [] }

/-- The queue of a stack lane's class 7 or 0 that the stack firmware creates (R436). Its number, its tenant 0 and the attributes' defaults are the model's
(log 64). -/
def stackQueue (lane : Nat) (control : Bool) : Nat := Config.stackQueueBase % 65529 + (lane - 16) * 2 + (if control then 1 else 0)

/-- The queues of ports 16 to 19. -/
def Tm.stackQueues : FMap (Option TmQueue) :=
  let one := fun (lane : Nat) (control : Bool) => (stackQueue lane control,
    some { dest := lane, cls := if control then 7 else 0, tenant := 0, quantum := 16384, maxBytes := 1048576, spill := 0, leaves := [lane], closed := [] })
  [one 16 false, one 16 true, one 17 false, one 17 true, one 18 false, one 18 true, one 19 false, one 19 true]

/-- The traffic manager at reset (R162, R163, R170); in a stack, the stack lanes have their queues and their class 7 is strict (R436). -/
def Tm.reset (stackEn : Bool) : Tm :=
  { queues := if stackEn then Tm.stackQueues else [], leaves := [], flushed := [], portAct := [], classAct := [], tenantAct := [], sentBytes := [], tenants := [], cquantum := [],
    strict7 := if stackEn then [(16, true), (17, true), (18, true), (19, true)] else [], ledgerMode := 2, ledgerSlack := 16384, templates := [], sending := [], sent := [], mpOut := [], editErr := [], tsReports := [],
    tsReportDrop := 0 }

/-- The endpoint at reset: link down until it trains, PERST_N reads as asserted (R475). -/
def Pcie.reset : Pcie :=
  { bus := 0, retraining := false, rateX10 := 25, width := 16, flit := false, perst := true, linkUp := false, lstate := .l0, ltrUs := none, wakeN := true,
    pmeMsgs := [], pmeToAck := 0, errMsgs := [], writes := [], fns := [], tags := [], waiting := [], quarantine := [], groups := [], nextGroup := 0,
    lastMmio := none, lastCpl := 0, msixSent := [] }

/-- The mailbox block at PWR_GOOD (R209 to R211, R221). -/
def Boxes.reset : Boxes := { lastRead := 0, mbs := [], epochs := [], locks := [], yardFaults := [], staleDiscards := [] }

/-- No command taken (R217: the round robin starts after the last one taken; DESIGN CHOICE 63, log 8). -/
def Mbadel.reset : Mbadel :=
  { taken := [], order := [], takenState := [], idle := 0, armed := [], running := [], notices := [], posted := [], lastTaken := 63, lastResult := [], preReset := [] }

/-- No queue and no operation. -/
def Queues.reset : Queues := { qs := [], ops := [], due := [], changes := [], endings := [], published := [], withdrawn := [] }

/-- No instance; every last generation 0 (R280). -/
def Tenancy.reset : Tenancy := { insts := [], gens := [], turnCtrs := [] }

/-- No backend, no namespace. -/
def Storage.reset : Storage := { ctls := [], backends := [], nss := [], attach := [], cmds := [], nextBref := 1, wire := [] }

/-- No registration, no context. -/
def Rdma.reset : Rdma :=
  { regs := [], ctxs := [], backing := none, lru := [], misses := [], outbox := [], unsent := [], counters := [], logged := [] }

/-- Idle units, every key context FREE. -/
def Accel.reset : Accel := { queues := [[], [], []], done := [[], [], []], keys := [] }

/-- The event log at PWR_GOOD (R373, R375, R376): class 0x0E masked. -/
def Events.reset : Events :=
  { log := [], nextSeq := 1, mask := (1 : BitVec 256) <<< 14, ringBase := 0, ringSize := 0, ringVector := 0, ringTail := 0,
    ringHead := 0, ringPhase := true, ringEnabled := false, overflow := false, lost := 0, pendingRing := [], faultN := true }

/-- Repair state before the repair map is applied: yards 32 and 33 resting (R34, R381, R387, R390). -/
def Repair.reset : Repair :=
  { yardUse := List.replicate 32 .active ++ List.replicate 2 .resting, swap := none, forcedWait := [], stress := [], checkFails := [],
    map := [], log := [], logSeq := 1, used := [], retired := [], sramRows := [], sramCols := [], lasers := [], bias := [], laserTemp := [],
    elanes := [], laneWork := [], ppr := [], dramRows := [], withdrawnRows := [], channels := List.replicate 4 true, moving := none, moveDone := false,
    stages := List.replicate 14 true, mps := [true, true], mpActive := 0, mpReloading := none, mpReloads := 0, mpFail := none, mpSwitch := none,
    farriers := [true, true], farrierUp := [true, true], farrierActive := 0, farrierReloads := 0, flash := [true, true],
    rotationOn := true, rotationDays := 30, patrolOn := true, patrolDays := 7, appends := [], consumed := 0, corrected := [], reported := [] }

/-- The tack room and flash as shipped (R1, R414, R421): no journal record, both chips erased. -/
def Nv.reset : Nv :=
  { keys := [], revoked := [], lifecycle := if Config.orderKD then 1 else 2, journal := [], jseq := 0, bankGen := 0, bankUsed := 0,
    chip0 := [], chip1 := [] }

/-- Boot at PWR_GOOD with the straps sampled (R427, R431). -/
def Boot.reset (straps : Straps) : Boot :=
  { straps := straps, stage := .waitRepair, runSlot := none, runSeq := 0, runVersion := 0, fromRecovery := false, mpRunning := false,
    firstRun := none, bootOk := false, tried := [], window := false, windowHeld := false, preSelect := false, rounds := 0, recoveryPers := false, standby := none,
    endpointUp := false, coldStart := true, fenced := false, started := if straps.compatBoot then [] else [3, 4] }

/-- A module that is not yet in a stack with others (R437). -/
def Stack.reset (straps : Straps) : Stack :=
  { members := [straps.pos.val], unwell := [], heard := none, master := straps.pos.val, isolated := false, missed := 0, markers := 0, takeover := false,
    joinAt := none, commit := none, prepared := [], going := [], outcomes := [], groups := [], stages := [] }

/-- Power in FEED at PWR_GOOD (R456, R461; voltages, estimate and temperatures are DESIGN CHOICE values, log 8). -/
def Power.reset : Power :=
  { st := .feed, vinMv := 6000, holdupMv := 0, estimate := 0, cm := 0, inSag := false, capCfg := 0, thermalCap := none, level := 0,
    cappedTicks := 0, junction := 0, plate := 0, thermAlert := false, warn := false, pwrGood := true, resetInLow := false,
    prevUnsafe := none, lasersOff := false, smbus := none, mctpEid := 0, mctpReply := none, tapIr := 0, boundary := [],
    extest := false }

/-- The monitor at PWR_GOOD (R484, R486). -/
def Monitor.reset : Monitor :=
  { criek := false, session := none, baud := 115200, baudNext := none, tapCriek := false, out := [], load := none, unlockYards := 0,
    unlockUntil := 0, expiring := false }

/-- Every strap left open reads 0 (R475, log 16). -/
def Straps.low : Straps := { bootMode := 0, compatBoot := false, safeHold := false, pos := 0, stackEn := false }

/-- The module right after PWR_GOOD with every strap low (R480, log 16). -/
def State.reset : State :=
  { pending := [], freeCtr := 0, time := Time.reset, dev := Device.reset, erg := Erg.reset, ports := Ports.reset false,
    cls := Cls.reset, pools := Pools.reset Pools.defaultSizes Pools.defaultCounts, tm := Tm.reset false, pcie := Pcie.reset,
    boxes := Boxes.reset, mbadel := Mbadel.reset, queues := Queues.reset, ten := Tenancy.reset, sto := Storage.reset,
    rdma := Rdma.reset, accel := Accel.reset, events := Events.reset, repair := Repair.reset, nv := Nv.reset,
    boot := Boot.reset Straps.low, stack := Stack.reset Straps.low, power := Power.reset, monitor := Monitor.reset, dram := [],
    hostMem := [] }

end Sys2Proof.Machine
end

