-- ==== Sys2Proof/Machine/Ops.lean ====
section
/-!
DEFINITION. Named operations that the meanings share: bytes and memories, the CRC of R139, free values, counters, identity stamps and
epochs, the event log, device causes, mailboxes and locks, host writes, messages and holds, configuration registers.
-/

namespace Sys2Proof.Machine

/-- A meaning's answer: every command of the block gives a next state. -/
abbrev Answer := Host.Outcome State Fault Refusal

/-! ### Bytes (R4) -/

/-- `n` bytes of `v`, least significant first. -/
def leBytes : Nat → Nat → List Byte
  | 0, _ => []
  | n + 1, v => BitVec.ofNat 8 v :: leBytes n (v / 256)

/-- `n` bytes of `v`, most significant first. -/
def beBytes (n v : Nat) : List Byte := (leBytes n v).reverse

/-- The number that bytes hold, least significant first. -/
def ofLe : List Byte → Nat
  | [] => 0
  | b :: bs => b.toNat + 256 * ofLe bs

/-- The number that bytes hold in network byte order. -/
def ofBe (bs : List Byte) : Nat := ofLe bs.reverse

/-- `n` zero bytes. -/
def zeros (n : Nat) : List Byte := List.replicate n 0

/-- A list brought to length `n`, cut or filled with zero bytes. -/
def padTo (n : Nat) (bs : List Byte) : List Byte := (bs ++ zeros (n - bs.length)).take n

/-- Bytes `at` to `at + n - 1` of a list; bytes beyond it read 0. -/
def slice (bs : List Byte) (off n : Nat) : List Byte := padTo n (bs.drop off)

/-- The little-endian field of `n` bytes at `off`. -/
def fieldLe (bs : List Byte) (off n : Nat) : Nat := ofLe (slice bs off n)

/-- The big-endian field of `n` bytes at `off`. -/
def fieldBe (bs : List Byte) (off n : Nat) : Nat := ofBe (slice bs off n)

/-- A list with the bytes at `off` replaced; bytes beyond its end are dropped. -/
def patch (bs : List Byte) (off : Nat) (new : List Byte) : List Byte :=
  ((bs.take off ++ new) ++ bs.drop (off + new.length)).take bs.length

/-- Bit `n` of a number. -/
def bitOf (v n : Nat) : Bool := decide (v / 2 ^ n % 2 = 1)

/-- Bits `lo` to `lo + w - 1` of a number. -/
def bits (v lo w : Nat) : Nat := v / 2 ^ lo % 2 ^ w

/-- A truth value as a bit. -/
def b2n (b : Bool) : Nat := if b then 1 else 0

/-! ### Memories (log 7: an unlisted byte reads 0) -/

/-- The byte at `a`. -/
def Mem.rd (m : Mem) (a : Nat) : Byte := FMap.get 0 m a

/-- `n` bytes from `a`. -/
def Mem.rdN (m : Mem) : Nat → Nat → List Byte
  | _, 0 => []
  | a, n + 1 => Mem.rd m a :: Mem.rdN m (a + 1) n

/-- The little-endian number of `n` bytes at `a`. -/
def Mem.rdLe (m : Mem) (a n : Nat) : Nat := ofLe (Mem.rdN m a n)

/-- Write one byte. -/
def Mem.wr (m : Mem) (a : Nat) (b : Byte) : Mem := FMap.set 0 m a b

/-- Write bytes from `a` on. -/
def Mem.wrN : Mem → Nat → List Byte → Mem
  | m, _, [] => m
  | m, a, b :: bs => Mem.wrN (Mem.wr m a b) (a + 1) bs

/-- A memory that holds `bs` from address 0. -/
def Mem.ofBytes (bs : List Byte) : Mem := Mem.wrN [] 0 bs

/-! ### The CRC-32C of R139 -/

/-- One bit of the CRC. -/
def crcBit (c : Word) : Word := if c.getLsbD 0 then (c >>> 1) ^^^ 0x82f63b78#32 else c >>> 1

/-- One byte of the CRC: eight bits. -/
def crcByte (c : Word) (b : Byte) : Word :=
  crcBit (crcBit (crcBit (crcBit (crcBit (crcBit (crcBit (crcBit (c ^^^ b.zeroExtend 32))))))))

/-- The hash of R139 over a key from a seed: no inversion before or after. -/
def crc (seed : Word) (key : List Byte) : Word := key.foldl crcByte seed

/-- Bits [15:0] XOR bits [31:16] of a hash, as R155, R367 and R415 use it. -/
def fold16 (w : Word) : Half := w.extractLsb' 0 16 ^^^ w.extractLsb' 16 16

/-! ### Counters and sparse maps -/

/-- Add `n` to a counter. -/
def bump (m : FMap Nat) (k n : Nat) : FMap Nat := FMap.set 0 m k (FMap.get 0 m k + n)

/-- Element `i` of a list replaced by `f` of it. -/
def modifyAt {α : Type} : List α → Nat → (α → α) → List α
  | [], _, _ => []
  | x :: xs, 0, f => f x :: xs
  | x :: xs, i + 1, f => x :: modifyAt xs i f

/-! ### Free values (log 6) -/

/-- The state with the free counter advanced. -/
def State.tickFree (s : State) : State := { s with freeCtr := s.freeCtr + 1 }

/-- A fresh free number and the state after it. -/
def State.freshNat (s : State) : Nat × State := (Config.freeNat s.freeCtr, s.tickFree)

/-- A fresh free truth value and the state after it. -/
def State.freshBit (s : State) : Bool × State := (Config.freeBit s.freeCtr, s.tickFree)

/-- Time in units of 2^-16 ns. -/
def fineTime (sec ns frac : Nat) : Nat := (sec * 1000000000 + ns) * 65536 + frac

/-- An address is reported to the Farrier for its patrol test: one of the packet buffer, or of DRAM (R156, R367). -/
def State.reportRow (s : State) (dram : Bool) (addr : Nat) : State := { s with repair := { s.repair with reported := s.repair.reported ++ [(dram, addr)] } }

/-- A fresh signed value. -/
def State.freshInt (s : State) : Int × State :=
  let (v, s1) := s.freshNat
  let (b, s2) := s1.freshBit
  (if b then -(v : Int) else v, s2)

/-- Δ as the source in force shows it (R31); the frequency correction that comes of it is free (log 62). -/
def State.measure (s : State) (d : Int) : State :=
  let (v, s1) := s.freshInt
  { s1 with time := { s1.time with offset := d, slew := 0, freq := v } }

/-- The least number from `i` on, below a bound, that a list does not hold. -/
def leastNotIn (ks : List Nat) : Nat → Nat → Option Nat
  | _, 0 => none
  | i, n + 1 => if ks.contains i then leastNotIn ks (i + 1) n else some i

/-- A number from `lo` to `lo + n - 1` that a list does not hold; which one of them is free (log 6). -/
def State.pickFree (s : State) (kind : Nat) (ks : List Nat) (lo n : Nat) : Option Nat :=
  let d := if n = 0 then 0 else Config.pick kind s.freeCtr ks.length % n
  match leastNotIn ks (lo + d) (n - d) with
  | some i => some i
  | none => leastNotIn ks lo d

/-! ### Ticks and periods (R17, R18) -/

/-- The period of a code, in 2^-16 ns units divided by 65536: nanoseconds. -/
def periodNs (code : Nat) : Nat := 500 * 2 ^ code

/-- Engine cycles in a tick (R18: 1.4 GHz). -/
def tickCycles (code : Nat) : Nat := 700 * 2 ^ code

/-- Cycles of the dispatch phase. -/
def dispatchCycles (code : Nat) : Nat := tickCycles code * 3 / 100

/-- Whole issue cycles between the end of dispatch and the gate (R18). -/
def workCycles (code g : Nat) : Nat := (tickCycles code * g * 100 - tickCycles code * 3 * 256) / 25600

/-- Cycles between the end of dispatch and the start of the turn. -/
def turnCycles (code : Nat) : Nat := tickCycles code * 96 / 100

/-- A time in nanoseconds as whole ticks, rounded up. -/
def ticksOf (code ns : Nat) : Nat := (ns + periodNs code - 1) / periodNs code

/-- Ticks in one second. -/
def ticksPerSec (code : Nat) : Nat := 1000000000 / periodNs code

/-! ### Identity stamps and epochs (R208, R209) -/

/-- The number of a source: CLASS × 65536 + INDEX, which is also its lock owner number (R221). -/
def srcCode (x : Source) : Nat := x.cls.val * 65536 + x.idx

/-- The source's current epoch; 1 at PWR_GOOD. -/
def State.epoch (s : State) (code : Nat) : Nat := FMap.get 1 s.boxes.epochs code

/-- The identity stamp of a source (R208). -/
def State.stamp (s : State) (code : Nat) : Word := BitVec.ofNat 32 (code * 4096 + s.epoch code)

/-- Sources by number: PF0, the MPs, the SP, the Farriers, the monitor, and the groom of a logical engine. -/
def srcPf0 : Nat := 1
/-- The number of a PCI function: a PF, or an instance's VF of PF1 or PF2. -/
def srcFn (fn : Nat) : Nat := if fn < 3 then 1 + fn else 65536 + (fn - 0x100)
/-- The number of an MP. -/
def srcMp (n : Nat) : Nat := 2 * 65536 + n
/-- The number of the SP. -/
def srcSp : Nat := 3 * 65536
/-- The number of a Farrier. -/
def srcFarrier (n : Nat) : Nat := 4 * 65536 + n
/-- The number of an engine's groom. -/
def srcGroom (leng : Nat) : Nat := 5 * 65536 + leng
/-- The number of a stack peer. -/
def srcPeer (p : Nat) : Nat := 6 * 65536 + p
/-- The number of the monitor. -/
def srcMonitor : Nat := 7 * 65536

/-! ### The event log (R373, R374, R376, R378) -/

/-- The severity of an event code (R378): 0 INFO, 1 WARNING, 2 ERROR, 3 CRITICAL. -/
def severity (code : Nat) : Nat :=
  if code ∈ [0x0102, 0x0B02] then 3
  else if code ∈ [0x0302, 0x0407, 0x0603, 0x0605, 0x0702, 0x0703, 0x0801, 0x0802, 0x0804, 0x0902, 0x0A01, 0x0B01] then 2
  else if code ∈ [0x0101, 0x0201, 0x0202, 0x0301, 0x0502, 0x0B03, 0x0C01, 0x0E01] then 0
  else 1

/-- Log an event: the next sequence number, and the ring's queue unless its class is masked (R373, R376). -/
def State.logFrom (s : State) (stamp : Word) (code obj detail : Nat) : State :=
  let e : Event := { seq := s.events.nextSeq, tick := s.time.number, code := BitVec.ofNat 16 code, severity := severity code,
                     stamp := stamp, object := BitVec.ofNat 32 obj, detail := BitVec.ofNat 32 detail }
  let v := s.events
  { s with events := { v with
      log := (e :: v.log).take 3145728, nextSeq := v.nextSeq + 1,
      pendingRing := if v.ringEnabled && !(v.mask.getLsbD (code / 256)) then v.pendingRing ++ [e] else v.pendingRing } }

/-- Log an event that concerns no source. -/
def State.log (s : State) (code obj detail : Nat) : State := s.logFrom 0 code obj detail

/-- An uncorrectable word of a memory macro: logged (R365, R372). -/
def State.wordFailed (s : State) (mac word : Nat) : State := s.log 0x0801 mac word

/-- A structure's check fails in a macro and at a word that the spec does not place: both are free (R365, R372, log 71). -/
def State.sramFailed (s : State) : State :=
  let (m, s1) := s.freshNat
  let (w, s2) := s1.freshNat
  s2.wordFailed (m % 4608) w

/-- The 32 bytes of an event entry (R374), with PHASE in FLAGS bit 0. -/
def Event.bytes (e : Event) (phase : Bool) : List Byte :=
  leBytes 8 e.seq ++ leBytes 8 e.tick ++ leBytes 2 e.code.toNat ++ [BitVec.ofNat 8 (b2n phase + 2 * e.severity), 0] ++
    leBytes 4 e.stamp.toNat ++ leBytes 4 e.object.toNat ++ leBytes 4 e.detail.toNat

/-! ### Device causes and states (R11, R12, R379) -/

/-- Logical yards in service. -/
def State.yardsInService (s : State) : Nat := (s.erg.ymap.filter Option.isSome).length

/-- U and D lanes not FAILED. -/
def State.lanesInService (s : State) : Nat := ((s.ports.lanes.take 16).filter (fun l => decide (l.st ≠ .failed))).length

/-- DRAM channels in service. -/
def State.channelsInService (s : State) : Nat := (s.repair.channels.filter (· = true)).length

/-- Whether capacity is below full (R11, DEGRADED). -/
def State.degraded (s : State) : Bool :=
  decide (s.yardsInService < 32) || decide (s.lanesInService < 16) || decide (s.channelsInService < 4) ||
    !(s.repair.mps.all id) || !(s.repair.farriers.all id) || !(s.repair.flash.all id)

/-- Whether the cause of a device state holds; RUNNING has no cause of its own. -/
def State.cause (s : State) (code : Nat) : Bool :=
  match code with
  | 0 => s.dev.starting
  | 1 => s.dev.testing
  | 3 => s.degraded
  | 4 => !s.dev.recovers.isEmpty
  | 5 => s.dev.unmanaged
  | 6 => s.dev.recoveryWait
  | _ => false

/-- The state that R12 reports for causes, given as in CAUSES. -/
def judgeCauses (m : Nat) : Nat :=
  if bitOf m 6 then 6 else if bitOf m 0 then 0 else if bitOf m 1 then 1 else if bitOf m 4 then 4
  else if bitOf m 5 then 5 else if bitOf m 3 then 3 else 2

/-- CAUSES (R215, R233): bit c while the cause of state c holds; RUNNING has no cause of its own. -/
def State.causes (s : State) : Nat :=
  b2n (s.cause 0) + 2 * b2n (s.cause 1) + 8 * b2n (s.cause 3) + 16 * b2n (s.cause 4) +
    32 * b2n (s.cause 5) + 64 * b2n (s.cause 6)

/-- Whether FAULT_N is driven low for causes (R379). -/
def faultLow (m : Nat) : Bool := bitOf m 3 || bitOf m 5 || bitOf m 6

/-- The causes that a turn brings into force (R24): one that the turn itself has changed, from `before` to `after`, as it now is, and every other one
as it stood at the gate. -/
def causesAtTurn (gate before after : Nat) : Nat :=
  ((List.range 7).map (fun c => 2 ^ c * b2n (if bitOf after c = bitOf before c then bitOf gate c else bitOf after c))).foldl (· + ·) 0

/-- CAPACITY (R215): yards, lanes and channels in service. -/
def State.capacityWord (s : State) : Nat := s.yardsInService + 256 * s.lanesInService + 65536 * s.channelsInService

/-- State changes take effect at a turn (R24), whose work found the causes `before`: the state is judged anew, and a change of it or of FAULT_N is
logged (R379). FAULT_N stays as a reset found it until the repair map is applied. -/
def State.refreshState (s : State) (before : Nat) : State :=
  let m := causesAtTurn s.dev.gateCauses before s.causes
  let new := judgeCauses m
  let fault := if s.boot.stage = .waitRepair then s.events.faultN else !faultLow m
  let s' := if new ≠ s.dev.state ∨ fault ≠ s.events.faultN then s.log 0x0101 new s.dev.state else s
  { s' with dev := { s'.dev with state := new, causesIn := m, capacity := s'.capacityWord }, events := { s'.events with faultN := fault } }

/-- Whether the dataplane runs in the device state in force (R13). -/
def State.dataplane (s : State) : Bool := s.dev.state ∈ [2, 3, 4, 5]

/-- Whether host functions are fully served in the device state in force (R13). -/
def State.hostServed (s : State) : Bool := s.dev.state ∈ [2, 3, 4, 5]

/-! ### Configuration registers (R185 to R187) -/

/-- Function numbers: PF0 to PF2 are 0 to 2, the PF1 VF of instance n is 0x100 + n, the PF2 VF is 0x1100 + n (R183). -/
def vfNet (n : Nat) : Nat := 0x100 + n
/-- The PF2 VF of an instance. -/
def vfSto (n : Nat) : Nat := 0x1100 + n

/-- The instance a VF belongs to (R184), if the function is a VF. -/
def fnInst (fn : Nat) : Option Nat :=
  if 0x100 ≤ fn ∧ fn < 0x1100 then some (fn - 0x100) else if 0x1100 ≤ fn ∧ fn < 0x2100 then some (fn - 0x1100) else none

/-- The PF of a function. -/
def fnPf (fn : Nat) : Nat := if fn < 3 then fn else if fn < 0x1100 then 1 else 2

/-- Whether a function belongs to PF2 (storage). -/
def fnSto (fn : Nat) : Bool := decide (fnPf fn = 2)

/-- The state of a function. -/
def State.fn (s : State) (fn : Nat) : Fn := FMap.get Fn.reset s.pcie.fns fn

/-- The state with a function's state replaced. -/
def State.setFn (s : State) (fn : Nat) (f : Fn) : State :=
  { s with pcie := { s.pcie with fns := FMap.set Fn.reset s.pcie.fns fn f } }

/-- A little-endian configuration field of a function, as written; bytes not written read 0. -/
def Fn.cfgField (f : Fn) (off n : Nat) : Nat := Mem.rdLe f.cfg off n

/-- Bus Master Enable (Command bit 2). -/
def State.bme (s : State) (fn : Nat) : Bool := bitOf ((s.fn fn).cfgField 4 2) 2

/-- Memory Space Enable (Command bit 1), which VFs do not implement: a VF follows its PF. -/
def State.mse (s : State) (fn : Nat) : Bool :=
  if fn < 3 then bitOf ((s.fn fn).cfgField 4 2) 1 else bitOf ((s.fn (fnPf fn)).cfgField 0x150 2) 3

/-- VF Enable and NumVFs of a PF's SR-IOV capability at 0x148 (R184, R186). -/
def State.vfEnable (s : State) (pf : Nat) : Bool := bitOf ((s.fn pf).cfgField 0x150 2) 0
/-- NumVFs of a PF. -/
def State.numVfs (s : State) (pf : Nat) : Nat := (s.fn pf).cfgField 0x158 2

/-- Whether a function exists (R183, R184). -/
def State.fnExists (s : State) (fn : Nat) : Bool :=
  if s.boot.recoveryPers then decide (fn = 0)
  else if fn < 3 then true
  else match fnInst fn with
    | some n => s.vfEnable (fnPf fn) && decide (n < s.numVfs (fnPf fn))
    | none => false

/-- Max_Read_Request_Size of a function's Device Control (0x70 + 8), 128 × 2^code; VFs use their PF's. -/
def State.mrrs (s : State) (fn : Nat) : Nat := 128 * 2 ^ (bits ((s.fn (fnPf fn)).cfgField 0x78 2) 12 3)

/-- The completion timeout in ticks that applies to a function's requests (R196). -/
def State.cplTimeout (s : State) (fn : Nat) : Nat :=
  let v := bits ((s.fn fn).cfgField 0x98 2) 0 4
  ticksOf s.time.period (if v = 1 then 80000 else if v = 2 then 8000000 else 40000000)

/-- Tags in the pool (R192): 16,384 in flit mode with 14-bit tags, 1,024 with 10-bit tags, else 256. The 14-bit enable is bit 2 of a
Device Control 3 register that the spec does not place; the model places it at 0x278 (DESIGN CHOICE, log 23). -/
def State.tagPool (s : State) : Nat :=
  if s.pcie.flit && bitOf ((s.fn 0).cfgField 0x278 2) 2 then 16384
  else if bitOf ((s.fn 0).cfgField 0x98 2) 12 then 1024 else 256

/-- Whether a function's requests are held: Bus Master Enable is 0, or its PF is in D3hot (R198, R205). -/
def State.holds (s : State) (fn : Nat) : Bool := !s.bme fn || (s.fn (fnPf fn)).d3

/-- Whether a function may read new work: it holds nothing back, and work that stalled goes on from the tick after (R200). -/
def State.mayFetch (s : State) (fn : Nat) : Bool := !s.holds fn && decide ((s.fn fn).resumed ≤ s.time.tick)

/-- Requests held by all functions together (R199). -/
def State.heldCount (s : State) : Nat := (s.pcie.fns.map (fun e => e.2.held.length)).foldl (· + ·) 0

/-- Whether the shared hold store is full (R199). -/
def State.holdFull (s : State) : Bool := decide (131072 ≤ s.heldCount)

/-! ### AER (R194) -/

/-- Whether an uncorrectable error is masked, or fatal: the registers at 0x108 and 0x10C, which VFs share with their PF. -/
def State.aerMasked (s : State) (fn bit : Nat) : Bool := bitOf ((s.fn (fnPf fn)).cfgField 0x108 4) bit
/-- Whether its severity is fatal. -/
def State.aerFatal (s : State) (fn bit : Nat) : Bool := bitOf ((s.fn (fnPf fn)).cfgField 0x10C 4) bit

/-- An error message is sent when it is enabled: 0 correctable, 1 non-fatal, 2 fatal. SERR# Enable also sends the last two, and Status then shows it
(role-based error reporting). -/
def State.errMsg (s : State) (fn kind : Nat) : State :=
  let p := s.fn (fnPf fn)
  let serr := decide (kind ≠ 0) && bitOf (p.cfgField 4 2) 8
  let s1 := if serr then s.setFn fn { s.fn fn with status := (s.fn fn).status ||| 0x4000#16 } else s
  if s.pcie.linkUp && (serr || bitOf (p.cfgField 0x78 2) kind) then
    { s1 with pcie := { s1.pcie with errMsgs := s1.pcie.errMsgs ++ [(fn, kind)] } }
  else s1

/-- An uncorrectable error's bit is set; the first one that is not masked points and leaves its header, whose bytes are free (log 44). -/
def State.aerNote (s : State) (fn bit : Nat) (dev : Byte) : State :=
  let f := s.fn fn
  let first := !s.aerMasked fn bit && !f.aerUncor.getLsbD f.errPtr
  let stat : Half := if bit = 15 then 0x0800 else if bit = 12 then 0x8000 else 0
  (s.setFn fn { f with aerUncor := f.aerUncor ||| BitVec.ofNat 32 (2 ^ bit), status := f.status ||| stat,
                       devStatus := f.devStatus ||| dev ||| (if bit = 20 then 8#8 else 0#8), errPtr := if first then bit else f.errPtr,
                       hdrLog := if first then padTo 16 (Config.freeBytes s.freeCtr) else f.hdrLog }).tickFree

/-- An uncorrectable error, by its bit of the standard's register. -/
def State.aerUncor (s : State) (fn bit : Nat) : State :=
  let s1 := s.aerNote fn bit (if s.aerFatal fn bit then 4#8 else 2#8)
  if s.aerMasked fn bit then s1 else s1.errMsg fn (if s.aerFatal fn bit then 2 else 1)

/-- A correctable error, by its bit. -/
def State.aerCorr (s : State) (fn bit : Nat) : State :=
  let f := s.fn fn
  let s1 := s.setFn fn { f with aerCor := f.aerCor ||| BitVec.ofNat 32 (2 ^ bit), devStatus := f.devStatus ||| 1#8 }
  if bitOf ((s.fn (fnPf fn)).cfgField 0x114 4) bit then s1 else s1.errMsg fn 0

/-- An advisory non-fatal error: correctable bit 13 and the uncorrectable bit. One whose severity the host has made fatal is no advisory one. -/
def State.aerAdvisory (s : State) (fn bit : Nat) : State :=
  if s.aerFatal fn bit then s.aerUncor fn bit else (s.aerNote fn bit 0#8).aerCorr fn 13

/-! ### PME (R206) -/

/-- A PME source of a PF fires: PME_Status is set when PME_En is 1, with a message while the link is up, or WAKE_N under PERST_N. -/
def State.pme (s : State) (pf : Nat) : State :=
  let f := s.fn pf
  let pmc := f.cfgField 0x44 2
  if bitOf pmc 8 then
    let s1 := s.setFn pf { f with cfg := Mem.wrN f.cfg 0x44 (leBytes 2 (if bitOf pmc 15 then pmc else pmc + 0x8000)) }
    if s.pcie.perst then { s1 with pcie := { s1.pcie with wakeN := false } }
    else if s.pcie.linkUp then { s1 with pcie := { s1.pcie with pmeMsgs := s1.pcie.pmeMsgs ++ [pf] } } else s1
  else s

/-! ### Tenant instances (R280, R281) -/

/-- An instance. -/
def State.inst (s : State) (n : Nat) : Option Inst := FMap.get none s.ten.insts n

/-- Replace an instance. -/
def State.setInst (s : State) (n : Nat) (i : Option Inst) : State :=
  { s with ten := { s.ten with insts := FMap.set none s.ten.insts n i } }

/-- Change an instance that exists. -/
def State.modInst (s : State) (n : Nat) (f : Inst → Inst) : State :=
  match s.inst n with
  | some i => s.setInst n (some (f i))
  | none => s

/-- Change an instance's counters. -/
def State.modInstCtr (s : State) (n : Nat) (f : InstCtr → InstCtr) : State := s.modInst n (fun i => { i with ctr := f i.ctr })

/-- The last generation of an instance number. -/
def State.lastGen (s : State) (n : Nat) : Half := FMap.get 0 s.ten.gens n

/-- The current generation of an instance; none when it does not exist. -/
def State.gen (s : State) (n : Nat) : Option Half := (s.inst n).map (fun _ => s.lastGen n)

/-- Advance a generation: 0xFFFF is followed by 1 (R280). -/
def nextGen (g : Half) : Half := if g = 0xFFFF#16 then 1#16 else g + 1#16

/-- Advance the generation of an instance number. -/
def State.advanceGen (s : State) (n : Nat) : State :=
  { s with ten := { s.ten with gens := FMap.set 0 s.ten.gens n (nextGen (s.lastGen n)) } }

/-- Whether work that names an instance and generation is stale (R281); work of no instance (0xFFFF) never is. -/
def State.staleGen (s : State) (inst gen : Half) : Bool :=
  if inst = 0xFFFF#16 then false else decide (s.gen inst.toNat ≠ some gen)

/-- Whether an instance is frozen for the network and the host: frozen, saving or restoring, or in a reset that returns to FROZEN (R285, R275). -/
def State.isFrozen (s : State) (n : Nat) : Bool :=
  match s.inst n with
  | some i => decide (i.st ∈ [.frozen, .saving, .restoring]) || decide (i.st = .resetting) && decide (i.back = .frozen)
  | none => false

/-- An instance whose mark found the chunk store full (R292); an overflow counts once until a harvest clears it (R294). -/
def Inst.overflowed (i : Inst) : Inst :=
  if i.dirtyOverflow then i else { i with dirtyOverflow := true, ctr := { i.ctr with dirtyOverflows := i.ctr.dirtyOverflows + 1 } }

/-- Mark the pages of a DMA write that a VF of an instance issues (R291, R292); `used` counts the chunks of the store in use. -/
def markPages (i : Inst) (used : Nat) : Nat → Nat → Inst
  | _, 0 => i
  | page, n + 1 =>
    let chunk := page / 512
    let old := FMap.get 0 i.dirty chunk
    if old = 0 ∧ 1048576 ≤ used then markPages i.overflowed used (page + 1) n
    else
      let i' := { i with dirty := FMap.set 0 i.dirty chunk (if bitOf old (page % 512) then old else old + 2 ^ (page % 512)) }
      markPages i' (if old = 0 then used + 1 else used) (page + 1) n

/-- Dirty chunks in use over the device (R292). -/
def State.dirtyChunks (s : State) : Nat :=
  (s.ten.insts.map (fun e => match e.2 with | some i => i.dirty.length | none => 0)).foldl (· + ·) 0

/-- Dirty tracking of a DMA write issued by a function (R291). -/
def State.markDirty (s : State) (fn addr len : Nat) : State :=
  match fnInst fn with
  | none => s
  | some n =>
    match s.inst n with
    | some i =>
      if i.dirtyArmed && decide (0 < len) then
        s.setInst n (some (markPages i s.dirtyChunks (addr / 4096) ((addr + len - 1) / 4096 - addr / 4096 + 1)))
      else s
    | none => s

/-! ### Writes to the host, MSI-X and holds (R191, R193, R198, R199, R200) -/

/-- A request joins the requests that its function holds. -/
def State.hold (s : State) (fn : Nat) (h : Held) : State :=
  let f := s.fn fn
  s.setFn fn { f with held := f.held ++ [h] }

/-- The requests of one contiguous access: no longer than a limit and within 4 KiB units (R191). Offsets count in the
group. -/
def splitRead (limit : Nat) : Nat → Nat → Nat → Nat → List (Nat × Nat × Nat)
  | 0, _, _, _ => []
  | fuel + 1, addr, len, off =>
    if len = 0 then []
    else
      let n := min len (min limit (4096 - addr % 4096))
      (off, addr, n) :: splitRead limit fuel (addr + n) (len - n) (off + n)

/-- Max_Payload_Size of a function's Device Control; VFs use their PF's (R187, R191). -/
def State.mps (s : State) (fn : Nat) : Nat := 128 * 2 ^ (min 2 (bits ((s.fn (fnPf fn)).cfgField 0x78 2) 5 3))

/-- The write requests of one write (R191): address and bytes. -/
def State.writeParts (s : State) (fn addr : Nat) (bytes : List Byte) : List (Nat × List Byte) :=
  (splitRead (s.mps fn) (bytes.length + 1) addr bytes.length 0).map (fun p => (p.2.1, (bytes.drop p.1).take p.2.2))

/-- The Requester ID of a function (R183): B × 256 and its number. -/
def State.requester (s : State) (fn : Nat) : Nat := s.pcie.bus * 256 + fn

/-- Enable Relaxed Ordering of a function's Device Control; VFs use their PF's (R193). -/
def State.relaxes (s : State) (fn : Nat) : Bool := bitOf ((s.fn (fnPf fn)).cfgField 0x78 2) 4

/-- The requests of a DMA write that is issued now (R191, R193, R208). -/
def State.sentParts (s : State) (fn addr : Nat) (bytes : List Byte) (data : Bool) : List WriteReq :=
  (s.writeParts fn addr bytes).map (fun p =>
    { requester := s.requester fn, stamp := s.stamp (srcFn fn), addr := p.1, len := p.2.length, relaxed := data && s.relaxes fn })

/-- A DMA write that is issued: its requests leave, host memory holds the bytes, and dirty tracking marks their pages. -/
def State.issueWrite (s : State) (fn addr : Nat) (bytes : List Byte) (data : Bool) : State :=
  let s1 := s.markDirty fn addr bytes.length
  { s1 with hostMem := Mem.wrN s1.hostMem addr bytes, pcie := { s1.pcie with writes := s1.pcie.writes ++ s.sentParts fn addr bytes data } }

/-- A DMA write of a function: issued, or held in issue order while the function holds its requests (R198). `data` marks a data write. -/
def State.anyWrite (s : State) (fn addr : Nat) (bytes : List Byte) (data : Bool) : State :=
  if s.holds fn then (s.writeParts fn addr bytes).foldl (fun s p => s.hold fn (.write p.1 p.2 data)) s else s.issueWrite fn addr bytes data

/-- A write of completions, results, contexts or events, which keeps its place in order. -/
def State.hostWrite (s : State) (fn addr : Nat) (bytes : List Byte) : State := s.anyWrite fn addr bytes false

/-- A data write (R193). -/
def State.dataWrite (s : State) (fn addr : Nat) (bytes : List Byte) : State := s.anyWrite fn addr bytes true

/-- Whether an MSI-X vector of a function is masked: the function's Message Control (0x52, Enable bit 15, Function Mask bit 14) and the
vector's own mask bit. -/
def State.msixMasked (s : State) (fn vec : Nat) : Bool :=
  let f := s.fn fn
  let mc := f.cfgField 0x52 2
  !bitOf mc 15 || bitOf mc 14 || !bitOf (Mem.rdLe f.msix (vec * 16 + 12) 4) 0

/-- Set the pending bit of a vector. -/
def State.setPending (s : State) (fn vec : Nat) : State :=
  let f := s.fn fn
  if f.pba.contains vec then s else s.setFn fn { f with pba := f.pba ++ [vec] }

/-- Send an MSI-X message now: the vector's data is written to its address by a request of the function. -/
def State.sendMsix (s : State) (fn vec : Nat) : State :=
  let f := s.fn fn
  let a := Mem.rdLe f.msix (vec * 16) 8
  let w : WriteReq := { requester := s.requester fn, stamp := s.stamp (srcFn fn), addr := a, len := 4, relaxed := false }
  { s with hostMem := Mem.wrN s.hostMem a (leBytes 4 (Mem.rdLe f.msix (vec * 16 + 8) 4)),
           pcie := { s.pcie with writes := s.pcie.writes ++ [w], msixSent := s.pcie.msixSent ++ [(fn, vec)] } }

/-- A host queue of a function has had a doorbell or a completion: LTR then reports 40 µs without delay (R207). -/
def State.hostUse (s : State) (fn : Nat) : State :=
  let s1 := s.setFn fn { s.fn fn with lastDoorbell := s.time.tick + 1 }
  { s1 with pcie := { s1.pcie with ltrUs := some 40 } }

/-- Request an MSI-X message (R198, R218, R270): a masked vector sets its pending bit, a held one is held with its pending bit set,
and in D3hot it becomes a PME event (R205). -/
def State.msix (s : State) (fn vec : Nat) : State :=
  if s.msixMasked fn vec then s.setPending fn vec
  else if s.holds fn then
    let s1 := (s.setPending fn vec).hold fn (.msix vec)
    if (s.fn (fnPf fn)).d3 then s1.pme (fnPf fn) else s1
  else s.sendMsix fn vec

/-! ### Mailboxes (R210 to R219) -/

/-- Mailbox numbers: HMk is k, MHk is 64 + k. -/
def mhNo (k : Nat) : Nat := 64 + k
/-- The mailbox from an MP to the groom of a logical engine. -/
def mbToGroom (leng : Nat) : Nat := 200 + leng
/-- The mailbox from a groom to the MP. -/
def mbFromGroom (leng : Nat) : Nat := 1224 + leng
/-- The yard fault mailbox of a logical yard. -/
def mbYardFault (ly : Nat) : Nat := 2248 + ly

/-- A mailbox. -/
def State.mb (s : State) (n : Nat) : Mailbox := FMap.get Mailbox.reset s.boxes.mbs n

/-- Replace a mailbox. -/
def State.setMb (s : State) (n : Nat) (m : Mailbox) : State :=
  { s with boxes := { s.boxes with mbs := FMap.set Mailbox.reset s.boxes.mbs n m } }

/-- Whether source number `code` is the sender of a mailbox (R216, R219). -/
def State.isSender (s : State) (n code : Nat) : Bool :=
  if n < 64 then decide (code = srcPf0)
  else if n < 128 then decide (code = srcMp s.repair.mpActive)
  else if n < 132 then decide (code = srcMp s.repair.mpActive)
  else if n < 136 then decide (code = srcSp)
  else if n < 140 then decide (code = srcMp s.repair.mpActive)
  else if n < 144 then decide (code = srcFarrier 0)
  else if n < 148 then decide (code = srcMp s.repair.mpActive)
  else if n < 152 then decide (code = srcFarrier 1)
  else if n < 200 then false
  else if n < 1224 then decide (code = srcMp s.repair.mpActive)
  else if n < 2248 then decide (code = srcGroom (n - 1224))
  else false

/-- Whether source number `code` is the receiver of a mailbox (R216, R219). In the recovery personality and in a recovery window the SP serves HM0 (R433). -/
def State.isReceiver (s : State) (n code : Nat) : Bool :=
  if n < 64 then decide (code = (if s.boot.recoveryPers || s.boot.window then srcSp else srcMp s.repair.mpActive))
  else if n < 128 then decide (code = srcPf0)
  else if n < 132 then decide (code = srcSp)
  else if n < 136 then decide (code = srcMp s.repair.mpActive)
  else if n < 140 then decide (code = srcFarrier 0)
  else if n < 144 then decide (code = srcMp s.repair.mpActive)
  else if n < 148 then decide (code = srcFarrier 1)
  else if n < 152 then decide (code = srcMp s.repair.mpActive)
  else if n < 200 then false
  else if n < 1224 then decide (code = srcGroom (n - 200))
  else if n < 2280 then decide (code = srcMp s.repair.mpActive)
  else false

/-- A message is posted in an empty mailbox: STAMP latched, FULL set, STALE and RETRACTED cleared (R212). -/
def Mailbox.post (m : Mailbox) (ptr len : Nat) (stamp : Word) : Mailbox :=
  { m with ptr := BitVec.ofNat 64 ptr, len := BitVec.ofNat 32 len, stamp := stamp, full := true, stale := false, retracted := false }

/-- The posting of the notice that a commanded full reset waits for starts its 10 ms (R233). -/
def State.noticeReset (s : State) (k ptr : Nat) : State :=
  if s.dev.resetFor = some (k, ptr) then
    { s with dev := { s.dev with resetFor := none, resetAt := some (s.time.tick + ticksOf s.time.period 10000000) } }
  else s

/-- The active MP posts a notice in MHk (R217, R218): the vector is requested, or held while PF0 holds its requests, and PF0's PME source fires. The
notice waits while MHk is FULL. -/
def State.postNotice (s : State) (k ptr len : Nat) : State :=
  let m := s.mb (mhNo k)
  if m.full then { s with mbadel := { s.mbadel with notices := s.mbadel.notices ++ [(k, ptr, len)] } }
  else
    let code := if s.boot.mpRunning then srcMp s.repair.mpActive else srcSp
    let s1 := s.setMb (mhNo k) (m.post ptr len (s.stamp code))
    let s2 := { s1 with mbadel := { s1.mbadel with posted := FMap.set none s1.mbadel.posted k (some (ptr, len)) } }
    ((s2.noticeReset k ptr).msix 0 k).pme 0

/-- Every lock that a source owns is freed, each freeing logged (R222). -/
def freeLocks (code : Nat) : State → List (Nat × Nat) → State
  | s, [] => s
  | s, (k, owner) :: rest =>
    if owner = code then
      freeLocks code ({ s with boxes := { s.boxes with locks := FMap.set 0 s.boxes.locks k 0 } }.log 0x0504 k owner) rest
    else freeLocks code s rest

/-- A source's epoch increments (R209, R214, R222): its FULL messages of another epoch become STALE and its locks are freed. -/
def State.epochBump (s : State) (code : Nat) : State :=
  let e := s.epoch code
  let e' := if e = 0xFFF then 1 else e + 1
  let b := s.boxes
  let b' := { b with epochs := FMap.set 1 b.epochs code e',
                     mbs := FMap.mapVals Mailbox.reset (fun _ m =>
                       if m.full && decide (m.stamp.toNat / 4096 = code) && decide (m.stamp.toNat % 4096 ≠ e') then { m with stale := true } else m)
                       b.mbs }
  freeLocks code { s with boxes := b' } s.boxes.locks

end Sys2Proof.Machine
end

