-- ==== Sys2Proof/Machine/Buffers.lean ====
section
/-!
DEFINITION. Buffer pools (07): handles, owner lists, allocation and return with their link words, removal of owner names.
-/

namespace Sys2Proof.Machine

/-- A handle (R145): pool code 1 to 7, sequence number, index. -/
def mkHandle (pool : Nat) (seq : Byte) (idx : Nat) : Word := BitVec.ofNat 32 (pool * 2 ^ 29 + seq.toNat * 2 ^ 21 + idx)

/-- The pool code of a handle. -/
def hPool (h : Word) : Nat := bits h.toNat 29 3
/-- The sequence number of a handle. -/
def hSeq (h : Word) : Byte := BitVec.ofNat 8 (bits h.toNat 21 8)
/-- The buffer index of a handle. -/
def hIdx (h : Word) : Nat := bits h.toNat 0 21

/-- The unit owner names of R146. -/
def ownTm : Half := 0x4001
/-- Host queue and DMA engine. -/
def ownHost : Half := 0x4002
/-- RDMA transport. -/
def ownRdma : Half := 0x4003
/-- Storage backend transport. -/
def ownSto : Half := 0x4004
/-- MP firmware. -/
def ownMp : Half := 0x4008
/-- Receive. -/
def ownRx : Half := 0x4009
/-- The name of a unit that POST names: host DMA (0x01, 0x02, 0x08), crypto, compression, RDMA, storage. -/
def ownUnit (unit : Nat) : Half :=
  match unit with
  | 3 => 0x4005
  | 4 => 0x4006
  | 5 => 0x4007
  | 6 => 0x4003
  | 7 => 0x4004
  | _ => 0x4002

/-- Whether a name is a keep name (R146, R148). -/
def isKeep (n : Half) : Bool := decide (1 ≤ n.toNat) && decide (n.toNat ≤ 0x3FFF)

/-- The DRAM address of the data region, which the spill pool starts (R16). -/
def State.dataBase (s : State) : Nat := s.dev.controlMib * 1048576

/-- The pool of a code 1 to 7. -/
def State.pool? (s : State) (code : Nat) : Option Pool := if code = 0 then none else s.pools.pools[code - 1]?

/-- Change the pool of a code. -/
def State.modPool (s : State) (code : Nat) (f : Pool → Pool) : State :=
  if code = 0 then s else { s with pools := { s.pools with pools := modifyAt s.pools.pools (code - 1) f } }

/-- The control entry of a buffer. -/
def Pool.ent (p : Pool) (i : Nat) : CtrlEntry := FMap.get CtrlEntry.reset p.entries i

/-- The control entry that a handle names, when the handle is live (R145, R157). -/
def State.liveEnt (s : State) (h : Word) : Option CtrlEntry :=
  match s.pool? (hPool h) with
  | none => none
  | some p =>
    let e := p.ent (hIdx h)
    if e.live && !e.withdrawn && decide (e.seq = hSeq h) && decide (hIdx h < p.count) then some e else none

/-- Whether a handle is live. -/
def State.isLive (s : State) (h : Word) : Bool := (s.liveEnt h).isSome

/-- The buffer size of a handle's pool. -/
def State.bufSize (s : State) (h : Word) : Nat := match s.pool? (hPool h) with | some p => p.size | none => 0

/-- The offset of buffer `i` in its pool's memory. -/
def Pool.offset (p : Pool) (i : Nat) : Nat := p.base + i * p.size

/-- The address of buffer `i` of a pool: packet-buffer offset, or DRAM address for SP1 to SP3. -/
def State.bufAddr (s : State) (code i : Nat) : Nat :=
  match s.pool? code with
  | some p => if code ≤ 4 then p.offset i else s.dataBase + p.offset i
  | none => 0

/-- `n` bytes of the memory that holds a pool. -/
def State.poolRead (s : State) (code addr n : Nat) : List Byte := Mem.rdN (if code ≤ 4 then s.pools.pkt else s.dram) addr n

/-- Write bytes into the memory that holds a pool. -/
def State.poolWrite (s : State) (code addr : Nat) (bs : List Byte) : State :=
  if code ≤ 4 then { s with pools := { s.pools with pkt := Mem.wrN s.pools.pkt addr bs } } else { s with dram := Mem.wrN s.dram addr bs }

/-- `n` bytes of a buffer from an offset. -/
def State.bufRead (s : State) (h : Word) (off n : Nat) : List Byte := s.poolRead (hPool h) (s.bufAddr (hPool h) (hIdx h) + off) n

/-- Write bytes into a buffer from an offset. -/
def State.bufWrite (s : State) (h : Word) (off : Nat) (bs : List Byte) : State :=
  s.poolWrite (hPool h) (s.bufAddr (hPool h) (hIdx h) + off) bs

/-- The address form of a link word (R155). -/
def linkAddr (code addr : Nat) : Nat := if code ≤ 4 then addr else 2 ^ 47 + addr

/-- The 8 bytes of a link word: NEXT and CHECK over the buffer's own address and NEXT (R155). -/
def linkWord (own next : Nat) : List Byte := leBytes 6 next ++ leBytes 2 (fold16 (crc 0 (leBytes 6 own ++ leBytes 6 next))).toNat

/-- The end marker of a free list. -/
def linkEnd : Nat := 0xFFFFFFFFFFFF

/-- The head of a pool's free list. -/
def Pool.headIdx (p : Pool) : Option Nat :=
  match p.returned with
  | i :: _ => some i
  | [] => if p.fresh < p.count then some p.fresh else none

/-- The index after the head on a pool's free list. -/
def Pool.secondIdx (p : Pool) : Option Nat :=
  match p.returned with
  | _ :: i :: _ => some i
  | [_] => if p.fresh < p.count then some p.fresh else none
  | [] => if p.fresh + 1 < p.count then some (p.fresh + 1) else none

/-- Buffers on a pool's free list now: FREE_NOW (R160). -/
def Pool.freeNow (p : Pool) : Nat := p.returned.length + (p.count - p.fresh)

/-- The free list without its head. -/
def Pool.dropHead (p : Pool) : Pool :=
  match p.returned with
  | _ :: rest => { p with returned := rest }
  | [] => { p with fresh := p.fresh + 1 }

/-- NEXT of the link word that belongs at the head of a pool. -/
def State.headNext (s : State) (code : Nat) (p : Pool) : Nat :=
  match p.secondIdx with
  | some j => linkAddr code (s.bufAddr code j)
  | none => linkEnd

/-- Whether the head's link word passes its check: CHECK holds and NEXT is the end or a buffer boundary of the same pool (R156). A buffer
that has not been handed out since reset holds the link word of R144 unless its bytes were written since. -/
def State.linkOk (s : State) (code : Nat) (p : Pool) (i : Nat) : Bool :=
  let addr := s.bufAddr code i
  let raw := s.poolRead code addr 8
  if p.returned.isEmpty && decide (raw = zeros 8) then true
  else
    let next := ofLe (raw.take 6)
    let first := linkAddr code (s.bufAddr code 0)
    decide (raw = linkWord (linkAddr code addr) next) &&
      (decide (next = linkEnd) || (decide (first ≤ next) && decide ((next - first) % p.size = 0) && decide ((next - first) / p.size < p.count)))

/-- Take the head of a pool under an owner name (R145, R147, R156): the handle, or none when the pool is empty, being rebuilt, or its
head's link word fails, which marks it REBUILDING. -/
def State.takeHead (s : State) (code : Nat) (owner : Half) : Option Word × State :=
  match s.pool? code with
  | none => (none, s)
  | some p =>
    if p.rebuilding then (none, s)
    else match p.headIdx with
      | none => (none, s)
      | some i =>
        if s.linkOk code p i then
          let s0 := if p.returned.isEmpty then s.poolWrite code (s.bufAddr code i) (linkWord (linkAddr code (s.bufAddr code i)) (s.headNext code p)) else s
          let e := p.ent i
          let e' : CtrlEntry := { e with owners := [owner, 0, 0, 0], live := true, allocTick := BitVec.ofNat 16 s.time.number }
          let p1 := p.dropHead
          let p2 := { p1 with entries := FMap.set CtrlEntry.reset p1.entries i e', allocs := p1.allocs + 1,
                              lowWater := min p1.lowWater p1.freeNow }
          (some (mkHandle code e.seq i), s0.modPool code (fun _ => p2))
        else
          let s1 := (s.modPool code (fun q => { q with rebuilding := true, linkFail := q.linkFail + 1 })).log 0x0702 code i
          (none, s1.reportRow (decide (5 ≤ code)) (s.bufAddr code i))

/-- Try pools in order; each pool found empty before the one that serves counts ALLOC_FALLBACK (R152, R160). -/
def allocFrom (owner : Half) : State → List Nat → Option Word × State
  | s, [] => (none, s)
  | s, code :: rest =>
    match s.takeHead code owner with
    | (some h, s1) => (some h, s1)
    | (none, s1) =>
      match allocFrom owner s1 rest with
      | (some h, s2) => (some h, s2.modPool code (fun p => { p with fallback := p.fallback + 1 }))
      | (none, s2) => (none, s2)

/-- The pool codes that an allocation for `n` bytes tries, on-die or spill (R152). -/
def State.poolOrder (s : State) (n : Nat) (spill : Bool) : List Nat :=
  (if spill then [5, 6, 7] else [1, 2, 3, 4]).filter (fun c => match s.pool? c with | some p => decide (n ≤ p.size) | none => false)

/-- Allocate a buffer of at least `n` bytes (R152). -/
def State.alloc (s : State) (n : Nat) (spill : Bool) (owner : Half) : Option Word × State :=
  let order := s.poolOrder n spill
  match allocFrom owner s order with
  | (some h, s1) => (some h, s1)
  | (none, s1) =>
    match order with
    | c :: _ => (none, s1.modPool c (fun p => { p with fail := p.fail + 1 }))
    | [] => (none, s1)

/-- A frame that found no buffer counts for its lane and its instance (R153, R154). -/
def State.rxNoBuffer (s : State) (lane : Nat) (inst : Half) : State :=
  { s with pools := { s.pools with rxNoBufLane := bump s.pools.rxNoBufLane lane 1, rxNoBufInst := bump s.pools.rxNoBufInst inst.toNat 1 } }

/-- A retry under R154: no buffer for data fetched from host memory. -/
def State.allocWaits (s : State) (unit : Half) : State :=
  { s with pools := { s.pools with allocWait := bump s.pools.allocWait unit.toNat 1 } }

/-- Push a buffer on its free list: SEQ advances and its first 8 bytes become the link word (R145, R155). -/
def State.returnBuf (s : State) (code i : Nat) : State :=
  match s.pool? code with
  | none => s
  | some p =>
    let e := p.ent i
    let own := linkAddr code (s.bufAddr code i)
    let next := match p.headIdx with | some j => linkAddr code (s.bufAddr code j) | none => linkEnd
    let e' : CtrlEntry := { e with owners := [0, 0, 0, 0], live := false, seq := e.seq + 1 }
    let s1 := s.poolWrite code (s.bufAddr code i) (linkWord own next)
    s1.modPool code (fun q => { q with returned := i :: q.returned, entries := FMap.set CtrlEntry.reset q.entries i e' })

/-- Replace the first copy of a name on an owner list. -/
def replaceOwner : List Half → Half → Half → List Half
  | [], _, _ => []
  | o :: os, a, b => if o = a then b :: os else o :: replaceOwner os a b

/-- Change the owner list of a live buffer, returning the buffer when no name remains (R147). -/
def State.setOwners (s : State) (h : Word) (owners : List Half) : State :=
  if owners.all (· = 0) then s.returnBuf (hPool h) (hIdx h)
  else s.modPool (hPool h) (fun p =>
    { p with entries := FMap.set CtrlEntry.reset p.entries (hIdx h) { p.ent (hIdx h) with owners := owners } })

/-- Remove one copy of a name (R147, R149): refused and counted in FOREIGN_FREE when the handle is not live or the name is absent. -/
def State.removeOwner (s : State) (h : Word) (name : Half) : State :=
  match s.liveEnt h with
  | some e =>
    if e.owners.contains name && decide (name ≠ 0) then s.setOwners h (replaceOwner e.owners name 0)
    else (s.modPool (hPool h) (fun p => { p with foreign := p.foreign + 1 })).log 0x0701 h.toNat name.toNat
  | none => (s.modPool (hPool h) (fun p => { p with foreign := p.foreign + 1 })).log 0x0701 h.toNat name.toNat

/-- Replace one copy of a name on a live buffer. -/
def State.swapOwner (s : State) (h : Word) (a b : Half) : State :=
  match s.liveEnt h with
  | some e => if e.owners.contains a then s.setOwners h (replaceOwner e.owners a b) else s
  | none => s

/-- Add a name in a free slot of a live buffer, when one is free (R147). -/
def State.addOwner (s : State) (h : Word) (name : Half) : Option State :=
  match s.liveEnt h with
  | some e => if e.owners.contains 0 then some (s.setOwners h (replaceOwner e.owners 0 name)) else none
  | none => none

/-- A unit name replaces one copy of the item's name, or else takes a free slot; none when neither is there (R150 step 1). -/
def State.giveTo (s : State) (h : Word) (item unit : Half) : Option State :=
  match s.liveEnt h with
  | some e =>
    if e.owners.contains item then some (s.setOwners h (replaceOwner e.owners item unit)) else s.addOwner h unit
  | none => none

/-- Remove every copy of a name from one pool's buffers, those numbered in a list. -/
def dropNameIn (name : Half) (code : Nat) : State → List Nat → State
  | s, [] => s
  | s, i :: is =>
    match s.pool? code with
    | none => s
    | some p =>
      let e := p.ent i
      if e.live && e.owners.contains name then
        dropNameIn name code (s.setOwners (mkHandle code e.seq i) (e.owners.map (fun o => if o = name then 0 else o))) is
      else dropNameIn name code s is

/-- Remove every copy of a name from every buffer (R150 step 3, R151). -/
def State.dropName (s : State) (name : Half) : State :=
  [1, 2, 3, 4, 5, 6, 7].foldl (fun s c => match s.pool? c with
    | some p => dropNameIn name c s (FMap.keys p.entries)
    | none => s) s

/-- Remove every copy of a name from some buffers (R78, R150 step 3). -/
def State.dropNameOn (s : State) (name : Half) (hs : List Word) : State :=
  hs.foldl (fun s h => match s.liveEnt h with
    | some e => if e.owners.contains name then s.setOwners h (e.owners.map (fun o => if o = name then 0 else o)) else s
    | none => s) s

/-- Write the link words of buffers threaded in a list, the last one naming `last` (R155). -/
def threadLinks (code last : Nat) : State → List Nat → State
  | s, [] => s
  | s, [i] => s.poolWrite code (s.bufAddr code i) (linkWord (linkAddr code (s.bufAddr code i)) last)
  | s, i :: j :: rest =>
    threadLinks code last
      (s.poolWrite code (s.bufAddr code i) (linkWord (linkAddr code (s.bufAddr code i)) (linkAddr code (s.bufAddr code j)))) (j :: rest)

/-- The NEXT that names the first buffer of a pool that has never been handed out, or the end. -/
def State.freshNext (s : State) (code : Nat) (p : Pool) : Nat :=
  if p.fresh < p.count then linkAddr code (s.bufAddr code p.fresh) else linkEnd

/-- Withdraw a buffer until reset (R157): it leaves its free list, no handle to it is live, and the withdrawal is logged. -/
def State.withdraw (s : State) (code i : Nat) : State :=
  match s.pool? code with
  | none => s
  | some p =>
    let e := p.ent i
    if e.withdrawn then s
    else
      let fresh' := if p.fresh ≤ i then i + 1 else p.fresh
      let skipped := if p.fresh ≤ i then (List.range (i - p.fresh)).map (· + p.fresh) else []
      let p' := { p with entries := FMap.set CtrlEntry.reset p.entries i { e with withdrawn := true },
                         returned := (p.returned.filter (· ≠ i)) ++ skipped, fresh := fresh', withdrawn := p.withdrawn + 1 }
      let s1 := s.modPool code (fun _ => { p' with lowWater := min p.lowWater p'.freeNow })
      (threadLinks code (s1.freshNext code p') s1 p'.returned).log 0x0703 (mkHandle code e.seq i).toNat 0

/-- Rebuild a pool's free list from the control entries: every buffer that is free, in ascending index order (R156). -/
def State.rebuildPool (s : State) (code : Nat) : State :=
  match s.pool? code with
  | none => s
  | some p =>
    let free := (List.range p.count).filter (fun i => !(p.ent i).live && !(p.ent i).withdrawn)
    (threadLinks code linkEnd s free).modPool code (fun q => { q with rebuilding := false, returned := free, fresh := p.count })

/-- The buffer that a handle names suffers an uncorrectable error of its control entry (R157, R365). -/
def State.loseEntry (s : State) (h : Word) : State := s.withdraw (hPool h) (hIdx h)

/-- The control entry of the buffer that an allocation would take fails: the buffer is withdrawn, and the allocation goes on without it (R157, R365). -/
def State.loseHead (s : State) (n : Nat) (spill : Bool) : State :=
  match (s.poolOrder n spill).find? (fun c => match s.pool? c with | some p => !p.rebuilding && p.headIdx.isSome | none => false) with
  | none => s
  | some c => match (s.pool? c).bind Pool.headIdx with | some i => s.withdraw c i | none => s

/-- An allocation whose first control entry fails when `bad` (R152, R157). -/
def State.allocChecked (s : State) (bad : Bool) (n : Nat) (spill : Bool) (owner : Half) : Option Word × State :=
  (if bad then s.loseHead n spill else s).alloc n spill owner

end Sys2Proof.Machine
end

