-- ==== Sys2Proof/Machine/Integrity.lean ====
section
/-!
DEFINITION. The DRAM control region (R16, R367, R368): its lines, their check codes, reads that repeat and writes that merge, and the failure of a
control check (R365, R372).
-/

namespace Sys2Proof.Machine

/-- The check code of a line at a DRAM address: the hash of R139 over the address and the 64 data bytes, folded (R367). -/
def lineCode (addr : Nat) (data : List Byte) : Half := fold16 (crc 0 (leBytes 6 addr ++ padTo 64 data))

/-- Whether what DRAM returned for the line at `addr`, its data and its code, passes the check. -/
def lineHolds (addr : Nat) (got : List Byte × Half) : Bool := decide (got.2 = lineCode addr got.1)

/-- Bytes that the carved sub-pools take of the spill reservation. -/
def State.carved (s : State) : Nat := ((s.pools.pools.drop 4).map (fun p => p.size * p.count)).foldl (· + ·) 0

/-- The address of a line's code in the code area, directly above the carved sub-pools (R368). -/
def State.codeAddr (s : State) (addr : Nat) : Nat := s.dataBase + s.carved + addr / 64 * 2

/-- What DRAM holds of a line: its data and its code. -/
def State.lineAt (s : State) (addr : Nat) : List Byte × Half :=
  (Mem.rdN s.dram addr 64, BitVec.ofNat 16 (Mem.rdLe s.dram (s.codeAddr addr) 2))

/-- Whether a line passes its check; one that nothing has written since power-up is taken as initialised. -/
def State.lineGood (s : State) (addr : Nat) : Bool := lineHolds addr (s.lineAt addr) || decide (s.lineAt addr = (zeros 64, 0))

/-- A control line fails its check and the repeat: logged with the line and a channel, which is free as the layout over the channels is not given, and
reported to the Farrier (R367, R372, R378). -/
def State.lineFailed (s : State) (addr : Nat) : State :=
  let (c, s1) := s.freshNat
  (s1.log 0x0802 (addr / 64) (c % 4)).reportRow true addr

/-- A read of bytes within one line of the control region: none when the line fails (R367). -/
def State.ctlRead (s : State) (addr n : Nat) : Option (List Byte) × State :=
  let line := addr / 64 * 64
  if s.lineGood line then (some (Mem.rdN s.dram addr n), s) else (none, s.lineFailed line)

/-- A write of bytes within one line: the line is read and checked, the bytes are merged, and line and new code are written together (R367). A line that
fails its check is not written. -/
def State.ctlWrite (s : State) (addr : Nat) (bs : List Byte) : State :=
  let line := addr / 64 * 64
  if s.lineGood line then
    let m := Mem.wrN s.dram addr bs
    { s with dram := Mem.wrN m (s.codeAddr line) (leBytes 2 (lineCode line (Mem.rdN m line 64)).toNat) }
  else s.lineFailed line

end Sys2Proof.Machine
end

