-- ==== Sys2Proof/Machine/Parse.lean ====
section
/-!
DEFINITION. The parser (R96, R99, R102 to R107): the walk of the parse graph over a frame, the wire checks, the header vector, and the
symmetric hash (R138, R139).
-/

namespace Sys2Proof.Machine

/-- A recorded layer: offset, kind, length, role, select value, and whether it is a fragment header of a first fragment. -/
structure Layer where
  off : Nat
  kind : Nat
  len : Nat
  role : Nat
  sel : Nat
  frag : Bool
deriving DecidableEq, Repr

/-- The outcome of a walk (R104, R105): status, failing layer and node, layers, and the flags FRAG, PTP_EVENT and CONCAT. -/
structure Walk where
  status : Nat
  failLayer : Nat
  failNode : Nat
  layers : List Layer
  frag : Bool
  ptp : Bool
  concat : Bool
deriving DecidableEq, Repr

/-- One byte of a frame; 0 beyond it. -/
def byteAt (f : List Byte) (i : Nat) : Nat := (f.getD i 0).toNat
/-- Two bytes in network order. -/
def be16 (f : List Byte) (i : Nat) : Nat := byteAt f i * 256 + byteAt f (i + 1)

/-- KIND of a node. -/
def nodeKind (n : List Byte) : Nat := byteAt n 0
/-- ROLE of a node. -/
def nodeRole (n : List Byte) : Nat := byteAt n 1 % 8
/-- GEN_LEN of a node. -/
def nodeGenLen (n : List Byte) : Nat := byteAt n 2
/-- GEN_SEL of a node. -/
def nodeGenSel (n : List Byte) : Nat := byteAt n 3

/-- What measuring a header gives: a length, or the status of R104's second step. -/
inductive Measure where
  | len (n : Nat)
  | fail (status : Nat)
deriving DecidableEq, Repr

/-- GTP-U extension headers from `pos` on (R106): the end of the last one and whether every length field was at least 1; none when a field
lies beyond the frame. The spec does not say how long a header with length field 0 measures: its length field alone is counted, and the walk ends
there (DESIGN CHOICE, log 63). -/
def gtpExt (f : List Byte) : Nat → Nat → Nat → Option (Nat × Bool)
  | 0, _, pos => some (pos, true)
  | fuel + 1, type, pos =>
    if type = 0 then some (pos, true)
    else if f.length ≤ pos then none
    else
      let n := byteAt f pos * 4
      if n = 0 then some (pos + 1, false)
      else if f.length < pos + n then none
      else gtpExt f fuel (byteAt f (pos + n - 1)) (pos + n)

/-- GTP-U's measured length and whether its extension lengths pass. -/
def gtpLen (f : List Byte) (off : Nat) : Option (Nat × Bool) :=
  if f.length ≤ off then none
  else
    let fl := byteAt f off
    if fl % 8 = 0 then some (8, true)
    else if fl / 4 % 2 = 1 then
      (if f.length < off + 12 then none else (gtpExt f f.length (byteAt f (off + 11)) (off + 12)).map (fun p => (p.1 - off, p.2)))
    else some (12, true)

/-- The length rule of a kind (R104 step 2, R106), before the tests of the measured length. -/
def rawLen (n f : List Byte) (off : Nat) (prev : Option Layer) : Measure :=
  let need := fun k => decide (f.length < off + k)
  match nodeKind n with
  | 0x01 => .len 14
  | 0x02 => .len 4
  | 0x03 => .len 4
  | 0x04 => .len 4
  | 0x05 => .len 8
  | 0x06 => if need 1 then .fail 3 else .len (byteAt f off % 16 * 4)
  | 0x07 => .len 40
  | 0x08 =>
    (match prev with
     | some p =>
       if p.kind = 6 ∨ p.kind = 7 ∨ p.kind = 8 then
         (if p.sel = 44 then .len 8
          else if p.sel = 0 ∨ p.sel = 43 ∨ p.sel = 60 then (if need 2 then .fail 3 else .len ((byteAt f (off + 1) + 1) * 8))
          else .fail 6)
       else .fail 6
     | none => .fail 6)
  | 0x09 => .len 8
  | 0x0A => if need 13 then .fail 3 else .len (byteAt f (off + 12) / 16 * 4)
  | 0x0B => .len 8
  | 0x0C => if need 1 then .fail 3 else .len (8 + byteAt f off % 64 * 4)
  | 0x0D => if need 1 then .fail 3 else .len (if 128 ≤ byteAt f off then 8 else 4)
  | 0x0E => (match gtpLen f off with | some p => .len p.1 | none => .fail 3)
  | 0x0F => .len 4
  | 0x10 => .len 8
  | 0x11 => .len 34
  | 0x12 => .len 12
  | 0x13 => .len 16
  | 0x14 => .len 4
  | 0x15 => .len 16
  | _ => .len (nodeGenLen n)

/-- The measured length with R104's tests in order. -/
def measure (n f : List Byte) (off : Nat) (prev : Option Layer) : Measure :=
  match rawLen n f off prev with
  | .fail st => .fail st
  | .len k => if 255 < k then .fail 6 else if f.length < off + k then .fail 3 else if 352 < off + k then .fail 4 else .len k

/-- The ones' complement sum of 16-bit words, an odd last byte padded with 0. -/
def sum16 : List Byte → Nat
  | [] => 0
  | [a] => a.toNat * 256
  | a :: b :: rest => a.toNat * 256 + b.toNat + sum16 rest

/-- A sum folded to 16 bits. -/
def foldSum (n : Nat) : Nat :=
  let a := n % 65536 + n / 65536
  let b := a % 65536 + a / 65536
  b % 65536 + b / 65536

/-- The checks of a kind in the order of its row (R106): the status of the first that fails, else 0. -/
def kindCheck (n f : List Byte) (off len : Nat) : Nat :=
  let b := fun k => byteAt f (off + k)
  match nodeKind n with
  | 0x05 => if b 0 ≠ 0x11 ∨ b 1 ≠ 0 then 5 else if f.length < off + 6 + be16 f (off + 4) then 3 else 0
  | 0x06 =>
    if b 0 / 16 ≠ 4 ∨ b 0 % 16 < 5 ∨ be16 f (off + 2) < len then 5
    else if f.length < off + be16 f (off + 2) then 3
    else if foldSum (sum16 (slice f off len)) ≠ 65535 then 7 else 0
  | 0x07 => if b 0 / 16 ≠ 6 then 5 else if f.length < off + 40 + be16 f (off + 4) then 3 else 0
  | 0x09 => if f.length < off + be16 f (off + 4) then 3 else 0
  | 0x0A => if b 12 / 16 < 5 then 5 else 0
  | 0x0B => if b 0 / 8 % 2 = 0 then 5 else 0
  | 0x0C => if b 0 / 64 ≠ 0 then 5 else 0
  | 0x0D => if b 1 % 8 ≠ 0 then 5 else if b 0 / 16 % 4 ≠ 0 then 6 else 0
  | 0x0E => if b 0 / 16 ≠ 3 then 5 else (match gtpLen f off with | some p => if p.2 then 0 else 5 | none => 3)
  | 0x0F => if b 0 / 16 ≠ 1 then 5 else 0
  | 0x11 => if b 1 % 16 ≠ 2 then 5 else 0
  | 0x12 => if b 1 % 16 ≠ 0 then 5 else 0
  | _ => 0

/-- The select value of a header (R106); a byte beyond the frame reads 0. -/
def selectValue (n f : List Byte) (off len : Nat) : Nat :=
  let b := fun k => byteAt f (off + k)
  match nodeKind n with
  | 0x01 => if be16 f (off + 12) < 0x600 then 0 else be16 f (off + 12)
  | 0x02 => be16 f (off + 2)
  | 0x03 => be16 f (off + 2)
  | 0x04 => if b 2 % 2 = 1 then 0x10 + b 4 / 16 else 0
  | 0x05 => be16 f (off + 6)
  | 0x06 => b 9
  | 0x07 => b 6
  | 0x08 => b 0
  | 0x09 => be16 f (off + 2)
  | 0x0A => be16 f (off + 2)
  | 0x0C => be16 f (off + 2)
  | 0x0D => be16 f (off + 2)
  | 0x0E => if b 1 = 0xFF then 0x100 + byteAt f (off + len) / 16 else b 1
  | 0x0F => b 1
  | 0x12 => b 0
  | 0x16 => be16 f (off + nodeGenSel n)
  | _ => 0

/-- The fragment fields of a header: its fragment offset and whether more fragments follow (R106). With offset 0 and none to follow the packet is whole,
and no fragment (DEDUCED, log 63). -/
def fragFields (n f : List Byte) (off : Nat) (prev : Option Layer) : Nat × Bool :=
  if nodeKind n = 6 then (be16 f (off + 6) % 8192, decide (be16 f (off + 6) / 8192 % 2 = 1))
  else if nodeKind n = 8 then
    (match prev with | some p => if p.sel = 44 then (be16 f (off + 2) / 8, decide (be16 f (off + 2) % 2 = 1)) else (0, false) | none => (0, false))
  else (0, false)

/-- The next step of a node for a select value (R104 steps 7 and 8). -/
def nextStep (n : List Byte) (sel : Nat) : Nat :=
  let hit := (List.range (min 7 (byteAt n 6))).find? (fun j => decide (sel &&& fieldLe n (8 + 8 * j + 2) 2 = fieldLe n (8 + 8 * j) 2))
  match hit with
  | some j => fieldLe n (8 + 8 * j + 4) 2
  | none => fieldLe n 4 2

/-- The walk from a node, with the layers recorded so far in order (R104). -/
def walkFrom (graph : FMap (List Byte)) (f : List Byte) : Nat → Nat → Nat → Walk → Walk
  | 0, _, _, w => w
  | fuel + 1, node, off, w =>
    let n := FMap.get [] graph node
    let stop := fun st => { w with status := st, failLayer := w.layers.length, failNode := node }
    if nodeKind n = 0 then stop 1
    else
      let prev := w.layers.getLast?
      match measure n f off prev with
      | .fail st => stop st
      | .len k =>
        let chk := kindCheck n f off k
        if chk ≠ 0 then stop chk
        else if 24 ≤ w.layers.length then stop 2
        else
          let sel := selectValue n f off k
          let (fo, more) := fragFields n f off prev
          let first := decide (fo = 0) && more
          let l : Layer := { off := off, kind := nodeKind n, len := k, role := nodeRole n, sel := sel, frag := first }
          let w1 := { w with layers := w.layers ++ [l], frag := w.frag || first || decide (fo ≠ 0),
                             ptp := w.ptp || (decide (nodeKind n = 0x11) && decide (byteAt f off % 16 < 4)),
                             concat := w.concat || (decide (nodeKind n = 0x0F) && decide (byteAt f off % 2 = 1)) }
          if nodeKind n = 0x10 ∨ nodeKind n = 0x11 ∨ fo ≠ 0 then w1
          else
            let nx := nextStep n sel
            if nx = 0x8000 then w1
            else if nx = 0x8001 then { w1 with status := 1, failLayer := w1.layers.length - 1, failNode := node }
            else walkFrom graph f fuel nx (off + k) w1

/-- The parse of a frame from a start node. -/
def parseFrame (graph : FMap (List Byte)) (f : List Byte) (start : Nat) : Walk :=
  walkFrom graph f 26 start 0 { status := 0, failLayer := 0xFF, failNode := 0xFF, layers := [], frag := false, ptp := false, concat := false }

/-! ### Wire checks (R96) -/

/-- The index of the first layer with a role. -/
def roleIdx (ls : List Layer) (role : Nat) : Option Nat := ls.findIdx? (fun l => decide (l.role = role))

/-- The position of the IP header that carries layer `i`: the last one before it, whatever its role. -/
def ipBefore (ls : List Layer) (i : Nat) : Option Nat :=
  ((List.range i).filter (fun j => match ls[j]? with | some l => decide (l.kind = 6) || decide (l.kind = 7) | none => false)).getLast?

/-- Where the payload of an IP header ends in the frame. -/
def ipEnd (f : List Byte) (l : Layer) : Nat := if l.kind = 6 then l.off + be16 f (l.off + 2) else l.off + 40 + be16 f (l.off + 4)

/-- The checksum over a segment and the pseudo-header of its IP header: whether it fails. The segment runs to the end of the IP payload, or of the
UDP length. -/
def segmentBad (f : List Byte) (l3 l4 : Layer) : Bool :=
  let len := if l4.kind = 9 then be16 f (l4.off + 4) else ipEnd f l3 - l4.off
  let addrs := if l3.kind = 6 then slice f (l3.off + 12) 8 else slice f (l3.off + 8) 32
  let proto := if l4.kind = 9 then 17 else 6
  decide (foldSum (sum16 addrs + proto + len / 65536 + len % 65536 + sum16 (slice f l4.off len)) ≠ 65535)

/-- The result of the L4 checksum of layer `i`: 0 good, 1 bad, 2 not checked, 3 no checksum to check (R96, R106). -/
def l4Check (f : List Byte) (ls : List Layer) (i : Nat) : Nat :=
  match ls[i]?, ipBefore ls i with
  | some l4, some j =>
    (match ls[j]? with
     | some l3 =>
       if l4.kind ≠ 9 ∧ l4.kind ≠ 0x0A then 3
       else if ((ls.take i).drop j).any (·.frag) then 2
       else if l4.kind = 9 ∧ l3.kind = 6 ∧ be16 f (l4.off + 6) = 0 then 2
       else b2n (segmentBad f l3 l4)
     | none => 3)
  | _, _ => 3

/-- Whether some layer of a role has a result of the L4 checksum. -/
def anyCheck (f : List Byte) (ls : List Layer) (role result : Nat) : Bool :=
  (List.range ls.length).any (fun i => match ls[i]? with | some l => decide (l.role = role) && decide (l4Check f ls i = result) | none => false)

/-- The ICRC that a RoCEv2 frame should carry in the 4 bytes that end at `stop` (R96, R329, log 9). -/
def icrcOf (f : List Byte) (stop : Nat) : List Byte := leBytes 4 (Config.icrc (f.take (stop - 4))).toNat

/-- Whether a frame whose walk reached BTH carries a wrong ICRC: it ends the payload of the IP header before the BTH layer. -/
def icrcBad (f : List Byte) (ls : List Layer) : Bool :=
  match ls.findIdx? (fun l => decide (l.kind = 0x12)) with
  | none => false
  | some i =>
    let stop := match (ipBefore ls i).bind (fun j => ls[j]?) with | some l => ipEnd f l | none => f.length
    decide (slice f (stop - 4) 4 ≠ icrcOf f stop)

/-! ### The header vector (R107) -/

/-- FLAGS of the header vector: a first fragment leaves its L4 checksum unchecked, whatever the walk recorded of L4 (R106). -/
def hvFlags (f : List Byte) (w : Walk) : Nat :=
  let ls := w.layers
  b2n w.frag + 2 * b2n w.ptp + 4 * b2n w.concat + 8 * b2n (anyCheck f ls 3 1) + 16 * b2n (anyCheck f ls 7 1) +
    32 * b2n (ls.any (·.frag) || anyCheck f ls 3 2 || anyCheck f ls 7 2) + 64 * b2n (icrcBad f ls)

/-- The header vector of a frame (R107), with an empty classification area. `ts` is seconds, nanoseconds and fraction. -/
def headerVector (f : List Byte) (lane lport : Nat) (w : Walk) (ts : Nat × Nat × Nat) : List Byte :=
  let dir := w.layers.map (fun l => leBytes 4 (l.off + 65536 * l.kind + 16777216 * l.len))
  let roles := [1, 2, 3, 4, 5, 6, 7].map (fun r => BitVec.ofNat 8 ((roleIdx w.layers r).getD 0xFF))
  [BitVec.ofNat 8 lane, BitVec.ofNat 8 lport, BitVec.ofNat 8 w.layers.length, BitVec.ofNat 8 w.status] ++ leBytes 2 f.length ++
    leBytes 2 (hvFlags f w) ++ leBytes 4 ts.2.1 ++ leBytes 6 ts.1 ++ leBytes 2 ts.2.2 ++
    [BitVec.ofNat 8 w.failLayer, BitVec.ofNat 8 w.failNode] ++ roles ++ zeros 3 ++ zeros 32 ++ padTo 96 dir.flatten ++ padTo 352 f

/-! ### Fields of a header vector, as classification, enqueue and egress read them -/

/-- The directory word of the first layer with a role: (offset, kind). -/
def hvLayer (hv : Mem) (role : Nat) : Option (Nat × Nat) :=
  let i := (Mem.rd hv (0x15 + role)).toNat
  if i < 24 ∧ role ≠ 0 then
    let d := Mem.rdLe hv (0x40 + 4 * i) 4
    some (d % 65536, d / 65536 % 256)
  else none

/-- Bytes of the frame as the header vector holds them; 0 beyond. -/
def hvBytes (hv : Mem) (off n : Nat) : List Byte :=
  (List.range n).map (fun j => if 0xA0 + off + j < 512 then Mem.rd hv (0xA0 + off + j) else 0)

/-- Two byte strings in ascending order as unsigned numbers. -/
def ordered (a b : List Byte) : List Byte := if ofBe a ≤ ofBe b then a ++ b else b ++ a

/-- The last IPv6 next-header value before the L4 layer: along IPV6EXT layers that follow layer `i` (R138). -/
def lastNext (hv : Mem) : Nat → Nat → Nat → Nat
  | 0, _, v => v
  | fuel + 1, i, v =>
    let d := Mem.rdLe hv (0x40 + 4 * (i + 1)) 4
    if i + 1 < 24 ∧ d / 65536 % 256 = 8 then lastNext hv fuel (i + 1) ((hvBytes hv (d % 65536) 1).map BitVec.toNat |>.headD 0) else v

/-- The key of the symmetric hash (R138): `profile` has bit 0 for INNER and bit 1 for ports. -/
def hashKey (hv : Mem) (profile : Byte) : List Byte :=
  let inner := profile.getLsbD 0 && (hvLayer hv 6).isSome
  let r3 := if inner then 6 else 2
  let r4 := if inner then 7 else 3
  let r2 := if inner then 5 else 1
  let frag := bitOf (Mem.rdLe hv 6 2) 0
  let ports := match hvLayer hv r4 with
    | some (o, k) => if (k = 9 ∨ k = 0x0A) ∧ profile.getLsbD 1 = true ∧ frag = false then ordered (hvBytes hv o 2) (hvBytes hv (o + 2) 2) else zeros 4
    | none => zeros 4
  let macs :=
    let o := match hvLayer hv r2 with | some (o, _) => o | none => 0
    padTo 16 (ordered (hvBytes hv o 6) (hvBytes hv (o + 6) 6) ++ hvBytes hv (o + 12) 2)
  match hvLayer hv r3 with
  | some (o, k) =>
    if k = 6 then padTo 16 (ordered (hvBytes hv (o + 12) 4) (hvBytes hv (o + 16) 4) ++ ports ++ hvBytes hv (o + 9) 1)
    else if k = 7 then
      let nh := lastNext hv 24 ((Mem.rd hv (0x15 + r3)).toNat) ((hvBytes hv (o + 6) 1).map BitVec.toNat |>.headD 0)
      padTo 40 (ordered (hvBytes hv (o + 8) 16) (hvBytes hv (o + 24) 16) ++ ports ++ [BitVec.ofNat 8 nh])
    else macs
  | none => macs

/-- The symmetric hash (R139). -/
def symHash (hv : Mem) (profile : Byte) (seed : Word) : Word := crc seed (hashKey hv profile)

end Sys2Proof.Machine
end

