-- ==== Sys2Proof/Machine/Dma.lean ====
section
/-!
DEFINITION. Host reads (R191, R192, R196, R197): splitting into requests, tags, reads that wait for a tag or are held, and what a
completion gives its group. Arrivals from units and the host (R9, R48, R51).
-/

namespace Sys2Proof.Machine

/-! ### Arrivals -/

/-- Record an arrival for a logical engine (R9). -/
def State.arrive (s : State) (leng : Nat) (a : Arrival) : State :=
  { s with erg := { s.erg with arrivals := FMap.set [] s.erg.arrivals leng (FMap.get [] s.erg.arrivals leng ++ [a]) } }

/-- An arrival with no packet: replies and host arrivals. No action names its entry point; dispatch chooses it (`Bank.fitEntry`). -/
def replyArrival (kind : Nat) (op : Option Nat) (inst gen : Half) (arg : List Word) (h : Word) (len source : Nat) (status : Byte)
    (aux : Word) : Arrival :=
  { kind := BitVec.ofNat 8 kind, entry := 0, op := op, inst := inst, gen := gen, arg := arg, stack := false, handle := h, len := len,
    source := BitVec.ofNat 8 source, status := status, action := 0, aux := aux, hv := [] }

/-- The logical engine that takes an arrival which no work item asked for and no spread table places: a free value (log 14). -/
def State.freeEngine (s : State) : Nat × State := let (v, s1) := s.freshNat; (v % 1024, s1)

/-- Free words (log 6). -/
def freeWords : Nat → State → List Word × State
  | 0, s => ([], s)
  | n + 1, s =>
    let (v, s1) := s.freshNat
    let (ws, s2) := freeWords n s1
    (BitVec.ofNat 32 v :: ws, s2)

/-- TAG of a posted block (R271). -/
def PostReq.tag (r : PostReq) : Word := BitVec.ofNat 32 (fieldLe r.block 0 4)

/-- The saved argument of an operation (R47). -/
def State.opArg (s : State) (op : Option Nat) : List Word :=
  match op with
  | some n => (match FMap.get none s.queues.ops n with | some o => o.arg | none => [])
  | none => []

/-- Whether a posted request's answer is discarded: its generation is stale (R281) or its operation has been ended (R267). -/
def State.replyDead (s : State) (r : PostReq) : Bool :=
  s.staleGen r.inst r.gen || (match r.op with
    | some n => (match FMap.get none s.queues.ops n with | some o => o.dead | none => true)
    | none => false)

/-- The reply to a posted request (R51, R271): an arrival at the posting engine with the tag in AUX. A stale reply, or one of an ended
operation, is discarded and the buffer's receive name removed. -/
def State.reply (s : State) (r : PostReq) (kind : Nat) (h : Word) (len : Nat) (status : Byte) : State :=
  if s.replyDead r then (if h = 0 then s else s.removeOwner h ownRx)
  else
    s.arrive r.leng (replyArrival kind r.op r.inst r.gen (s.opArg r.op) h len r.unit status r.tag)

/-! ### Host reads -/

/-- A free tag: neither in use nor in quarantine (R192, R197). -/
def State.freeTag (s : State) : Option Nat := s.pickFree 2 (FMap.keys s.pcie.tags ++ FMap.keys s.pcie.quarantine) 0 s.tagPool

/-- Issue one read request: held, sent under a tag, or waiting for one (R192, R198). -/
def State.issueRead (s : State) (r : ReadReq) : State :=
  if s.holds r.fn then s.hold r.fn (.read r)
  else match s.freeTag with
    | some t =>
      let u : TagUse := { req := r, issued := s.time.tick, timeout := s.cplTimeout r.fn, orphan := false }
      { s with pcie := { s.pcie with tags := FMap.set none s.pcie.tags t (some u) } }
    | none => { s with pcie := { s.pcie with waiting := s.pcie.waiting ++ [r] } }

/-- The pieces of a scattered read, offsets running on over the segments (address, length). -/
def scatter (mrrs : Nat) : List (Nat × Nat) → Nat → List (Nat × Nat × Nat)
  | [], _ => []
  | (a, n) :: rest, off => splitRead mrrs (n + 1) a n off ++ scatter mrrs rest (off + n)

/-- Start a logical read of host memory over segments, as one group of requests. -/
def State.startRead (s : State) (fn : Nat) (inst gen : Half) (use : ReadUse) (segs : List (Nat × Nat)) : State :=
  let parts := scatter (s.mrrs fn) segs 0
  let g := s.pcie.nextGroup
  let total := (segs.map Prod.snd).foldl (· + ·) 0
  let rg : ReadGroup := { fn := fn, inst := inst, gen := gen, use := use, len := total, left := parts.length, status := 0, data := [], dead := false }
  let s1 := { s with pcie := { s.pcie with nextGroup := g + 1, groups := FMap.set none s.pcie.groups g (some rg) } }
  parts.foldl (fun s p => s.issueRead { fn := fn, stamp := s.stamp (srcFn fn), group := g, off := p.1, addr := p.2.1, len := p.2.2 }) s1

/-- Take a read group out of the table. -/
def State.dropGroup (s : State) (g : Nat) : State := { s with pcie := { s.pcie with groups := FMap.set none s.pcie.groups g none } }

/-- The reply status of a read that ended (R195). -/
def cplStatus (o : CplOutcome) : Byte := match o with | .data _ => 0 | .urOrCa => 8 | .poisoned => 1

/-- What one ended request leaves of its group: data placed, the first failure kept, one request fewer outstanding. -/
def groupAfter (g : ReadGroup) (r : ReadReq) (status : Byte) (bytes : List Byte) : ReadGroup :=
  { g with left := g.left - 1, status := if g.status = 0 then status else g.status,
           data := if status = 0 then Mem.wrN g.data r.off (padTo r.len bytes) else g.data }

/-- Whether a function has a request outstanding, waiting or held (R202, R286). -/
def State.fnBusy (s : State) (fn : Nat) : Bool :=
  s.pcie.tags.any (fun e => match e.2 with | some u => decide (u.req.fn = fn) | none => false) ||
    s.pcie.waiting.any (fun r => decide (r.fn = fn))

end Sys2Proof.Machine
end

