-- ==== Sys2Proof/Machine/QueueOps.lean ====
section
/-!
DEFINITION. Shared operations of the work queues (12): rings, the operation table, completions, moderation, fetching, ending work early.
-/

namespace Sys2Proof.Machine

/-! ### Functions and instances -/

/-- The INSTANCE of a function's work: the VF's instance, or 0xFFFF for a PF. -/
def fnInstHalf (fn : Nat) : Half := match fnInst fn with | some n => BitVec.ofNat 16 n | none => 0xFFFF#16

/-- Whether a VF belongs to an instance that exists and has it (R272, R273); a PF belongs to itself. -/
def State.fnOwned (s : State) (fn : Nat) : Bool :=
  match fnInst fn with
  | none => true
  | some n => (match s.inst n with | some i => !(if fnSto fn then i.noSto else i.noNet) | none => false)

/-- The GENERATION of a function's work: its instance's, or 0 for a PF and for a VF without one (R273). -/
def State.fnGen (s : State) (fn : Nat) : Half :=
  match fnInst fn with | some n => if s.fnOwned fn then (s.gen n).getD 0 else 0 | none => 0

/-- Whether a function's doorbells are sampled: it exists, the device serves the host, and no FLR runs (R13, R223). -/
def State.fnSampled (s : State) (fn : Nat) : Bool := s.hostServed && s.fnExists fn && !(s.fn fn).flr

/-- Whether a function's rings are served: its doorbells are sampled, its VF belongs to its instance, and the instance is not frozen (R13, R273, R285). -/
def State.fnServed (s : State) (fn : Nat) : Bool :=
  s.fnSampled fn && s.fnOwned fn && !(match fnInst fn with | some n => s.isFrozen n | none => false)

/-! ### Queues -/

/-- The key of a queue. -/
def qKey (fn q : Nat) : Nat := fn * 65536 + q
/-- The function of a key. -/
def keyFn (key : Nat) : Nat := key / 65536

/-- A queue by key. -/
def State.queue (s : State) (key : Nat) : Option Queue := FMap.get none s.queues.qs key

/-- Replace a queue. -/
def State.setQueue (s : State) (key : Nat) (q : Option Queue) : State :=
  { s with queues := { s.queues with qs := FMap.set none s.queues.qs key q } }

/-- Change a queue that exists. -/
def State.modQueue (s : State) (key : Nat) (f : Queue → Queue) : State :=
  match s.queue key with | some q => s.setQueue key (some (f q)) | none => s

/-- Descriptor slots. -/
def Queue.size (q : Queue) : Nat := 2 ^ q.logn
/-- Completion entries. -/
def Queue.cqSize (q : Queue) : Nat := 2 ^ q.logm
/-- Slots from `a` forward to `b` in a ring. -/
def ringDist (size a b : Nat) : Nat := (b + size - a) % size
/-- Completion entries that the host has not consumed. -/
def Queue.unread (q : Queue) : Nat := q.cqNext - q.cqHead

/-- A queue as it is created (R264, R269). -/
def Queue.make (type logn logm vector desc cq modTicks modCount bind : Nat) : Queue :=
  { type := type, logn := logn, logm := logm, vector := vector, desc := desc, cq := cq, modTicks := modTicks, modCount := modCount,
    bind := bind, tmq := none, wake := false, error := false, head := 0, oldest := 0, tail := 0, cqNext := 0, cqHead := 0, pendCount := 0,
    pendSince := 0, caravans := [], rxBufs := [], fetchTick := 0, fetchCnt := 0, aborted := [] }

/-- The operation number of a caravan that has none. -/
def noOp : Nat := 65536

/-! ### The operation table (R9, R47, R259, R276, R277) -/

/-- An operation. -/
def State.op (s : State) (n : Nat) : Option Operation := FMap.get none s.queues.ops n

/-- Replace an operation. -/
def State.setOp (s : State) (n : Nat) (o : Option Operation) : State :=
  { s with queues := { s.queues with ops := FMap.set none s.queues.ops n o } }

/-- Operations that an instance holds. -/
def State.opsOf (s : State) (inst : Half) : Nat :=
  (s.queues.ops.filter (fun e => match e.2 with | some o => decide (o.inst = inst) | none => false)).length

/-- Operations that the granted part cannot cover: those of no instance, and those of an instance beyond its OPS (R276). -/
def State.commonOps (s : State) : Nat :=
  s.opsOf 0xFFFF#16 + (s.ten.insts.map (fun e => match e.2 with | some i => s.opsOf (BitVec.ofNat 16 e.1) - i.res.ops | none => 0)).foldl (· + ·) 0

/-- Whether work of an instance may take an entry: within OPS, or from the common part of 4,096 for work of no instance. -/
def State.opRoom (s : State) (inst : Half) : Bool :=
  if inst = 0xFFFF#16 then decide (s.commonOps < 4096)
  else match s.inst inst.toNat with | some i => decide (s.opsOf inst < i.res.ops) | none => false

/-- Whether work that starts from the network for an instance may take an entry: within OPS, or from the common part (R276). -/
def State.opRoomNet (s : State) (inst : Half) : Bool := s.opRoom inst || decide (s.commonOps < 4096)

/-- A free entry of the 65,536 that is not withdrawn (R365). -/
def State.freeOp (s : State) : Option Nat := s.pickFree 1 (FMap.keys s.queues.ops ++ s.queues.withdrawn) 0 65536

/-- Whether an arrival, a waiting retry or a live item still names an operation. -/
def State.opInErg (s : State) (n : Nat) : Bool :=
  s.erg.arrivals.any (fun e => e.2.any (fun a => decide (a.op = some n))) ||
  s.erg.engines.any (fun e => e.2.retries.any (fun it => decide (it.op = some n)) ||
    e.2.threads.any (fun t => match t.2.item with | some it => decide (it.op = some n) | none => false))

/-- Whether any request of an operation is still outstanding, or an arrival or item still names it. -/
def State.opBusy (s : State) (n : Nat) : Bool :=
  s.pcie.groups.any (fun e => match e.2 with
    | some g => (match g.use with
        | .unit r => decide (r.op = some n) | .txPayload o => decide (o = n) | .rdma _ o _ _ => decide (o = n)
        | .responder _ _ _ _ _ => false)
    | none => false) ||
  s.accel.queues.any (fun q => q.any (fun r => decide (r.req.op = some n))) ||
  s.accel.done.any (fun q => q.any (fun r => decide (r.req.op = some n))) ||
  s.erg.posted.any (fun r => decide (r.op = some n)) ||
  s.rdma.ctxs.any (fun e => match e.2 with | some c => c.wqes.any (fun w => decide (w.op = n)) | none => false) ||
  s.sto.cmds.any (fun e => match e.2 with | some c => decide (c.req.op = some n) | none => false) || s.opInErg n

/-- The host unit's name leaves a buffer, when it is there. -/
def State.dropHostName (s : State) (h : Word) : State :=
  match s.liveEnt h with
  | some e => if e.owners.contains ownHost then s.removeOwner h ownHost else s
  | none => s

/-- End an operation without a completion: at once when no request is outstanding, else when the last has ended (R267). -/
def State.killOp (s : State) (n : Nat) : State :=
  match s.op n with
  | some o =>
    let s1 := if o.handle = 0 then s else s.dropHostName o.handle
    if s1.opBusy n then s1.setOp n (some { o with dead := true, handle := 0 }) else s1.setOp n none
  | none => s

/-- Free the ended operations whose requests have all ended (R267). -/
def State.sweepOps (s : State) : State :=
  s.queues.ops.foldl (fun s e => match e.2 with | some o => if o.dead && !s.opBusy e.1 then s.setOp e.1 none else s | none => s) s

/-- The oldest posted request that fits, taken from the requests that the last commit published (R51). -/
def takeFirst (f : PostReq → Bool) : List PostReq → Option (PostReq × List PostReq)
  | [] => none
  | r :: rs => if f r then some (r, rs) else (takeFirst f rs).map (fun x => (x.1, r :: x.2))

/-- A unit takes its next posted request and acts on it; with none posted nothing happens. -/
def State.serve (s : State) (f : PostReq → Bool) (act : PostReq → State → State) : State :=
  match takeFirst f s.erg.posted with
  | some (r, rest) => act r { s with erg := { s.erg with posted := rest } }
  | none => s

/-! ### Completions (R260 to R262, R266, R269, R270) -/

/-- Settle the caravan of an operation: its outcome does not change any more (R262). -/
def settleIn : List Caravan → Nat → Byte × Nat × Nat → List Caravan
  | [], _, _ => []
  | c :: cs, op, o => if c.op = op then (if c.out.isNone then { c with out := some o } else c) :: cs else c :: settleIn cs op o

/-- FIRST and LAST of a completion that belongs to no received frame (R260): on RX they mark a frame's buffers. -/
def Queue.plainFlags (q : Queue) : Nat := if q.type = 2 then 0 else 6

/-- Whether a queue's completions keep ring order (R251). -/
def Queue.inOrder (q : Queue) : Bool := q.type ∈ [1, 2, 3]

/-- The next caravan whose completion may be written, and the others (R262). -/
def nextOut : Bool → List Caravan → Option (Caravan × List Caravan)
  | _, [] => none
  | ordered, c :: cs =>
    if c.out.isSome then some (c, cs)
    else if ordered then none
    else (nextOut ordered cs).map (fun p => (p.1, c :: p.2))

/-- The oldest owned slot: the first incomplete caravan's, else the first slot not fetched (R254). -/
def Queue.ownedFrom (q : Queue) : Nat := match q.caravans with | c :: _ => c.first | [] => q.head

/-- A completion entry (R260). -/
def cqEntry (tag : DWord) (status : Byte) (cflags : Nat) (phase : Bool) (gen : Half) (bytes : Nat) : List Byte :=
  leBytes 8 tag.toNat ++ [status, BitVec.ofNat 8 (b2n phase + cflags)] ++ leBytes 2 gen.toNat ++ leBytes 4 bytes

/-- Write one completion entry at a queue's next position and count it for moderation (R261, R269). -/
def State.putCompletion (s : State) (key : Nat) (q : Queue) (c : Caravan) (o : Byte × Nat × Nat) : State × Queue :=
  let fn := keyFn key
  let idx := q.cqNext % q.cqSize
  let phase := decide (q.cqNext / q.cqSize % 2 = 0)
  let s1 := s.hostWrite fn (q.cq + idx * 16) (cqEntry c.tag o.1 o.2.2 phase (s.fnGen fn) o.2.1)
  let counts := c.irq || decide (o.1 ≠ 0)
  let s2 := { s1 with queues := { s1.queues with published := s1.queues.published ++ [(key, c.tag, c.first)] } }
  (s2.hostUse fn,
   { q with cqNext := q.cqNext + 1,
            pendCount := if counts then q.pendCount + 1 else q.pendCount,
            pendSince := if counts && decide (q.pendCount = 0) then s1.time.tick else q.pendSince })

/-- Write what may be written of a queue's settled completions, while its completion ring has room (R261, R262). -/
def drainQueue (key : Nat) : Nat → State → State
  | 0, s => s
  | n + 1, s =>
    match s.queue key with
    | none => s
    | some q =>
      if q.cqSize ≤ q.unread then s
      else match nextOut q.inOrder q.caravans with
        | none => s
        | some (c, rest) =>
          match c.out with
          | none => s
          | some o =>
            let (s1, q1) := s.putCompletion key q c o
            let q2 := { q1 with caravans := rest }
            let s2 := s1.setQueue key (some { q2 with oldest := q2.ownedFrom })
            drainQueue key n (match s2.op c.op with | some p => if p.key = key ∧ q.type ≠ 2 then s2.killOp c.op else s2 | none => s2)

/-- Whether a queue was reset at the last turn and the completions of its older caravans are still to come (R262, R266). -/
def State.ending (s : State) (key : Nat) : Bool := s.queues.endings.any (fun e => decide (e.key = key))

/-- Write a queue's settled completions, behind those of the caravans that a reset ended. -/
def State.drain (s : State) (key : Nat) : State :=
  match s.queue key with | some q => if s.ending key then s else drainQueue key (q.caravans.length + 1) s | none => s

/-- An operation that carries STALE_GENERATION ends without a completion (R261, R281): its slots return. -/
def State.dropOp (s : State) (n : Nat) : State :=
  match s.op n with
  | some o => ((s.modQueue o.key (fun q => { q with caravans := q.caravans.filter (fun (c : Caravan) => decide (c.op ≠ n)) })).killOp n).drain o.key
  | none => s

/-- Settle an operation of a work queue with a status and BYTES, and write what may be written (R261, R262). -/
def State.finishOp (s : State) (n : Nat) (status : Byte) (bytes : Nat) : State :=
  match s.op n with
  | none => s
  | some o =>
    if o.dead then s
    else
      (s.modQueue o.key (fun q => { q with caravans := settleIn q.caravans n (status, if status = 1 ∨ status = 0x0A then 0 else bytes, 6) })).drain
        o.key

/-- Request the messages that are due in this commit: count reached, or MOD_TICKS 0 (R270). -/
def State.moderate (s : State) : State :=
  s.queues.qs.foldl (fun s e => match s.queue e.1 with
    | some q =>
      if 0 < q.pendCount ∧ (q.modCount ≤ q.pendCount ∨ q.modTicks = 0) then
        (s.setQueue e.1 (some { q with pendCount := 0 })).msix (keyFn e.1) q.vector
      else s
    | none => s) s

/-! ### Ending work early (R201, R266, R267, R336) -/

/-- An RDMA context. -/
def State.ctx (s : State) (qpn : Nat) : Option Ctx := FMap.get none s.rdma.ctxs qpn

/-- Replace an RDMA context. -/
def State.setCtx (s : State) (qpn : Nat) (c : Option Ctx) : State := { s with rdma := { s.rdma with ctxs := FMap.set none s.rdma.ctxs qpn c } }

/-- An operation of an inbound READ ends. -/
def State.endRead (s : State) (r : ReadRec) : State := s.setOp r.op none

/-- A context enters ERROR (R336): its work requests end ABORTED in order, its reassembly slots and inbound READ records are freed. -/
def State.errorCtx (s : State) (qpn : Nat) (status : Byte) : State :=
  match s.ctx qpn with
  | some c =>
    let c' := { c with state := 4, errStatus := if c.state = 4 then c.errStatus else status, wqes := [], reads := [], reasms := [], writeOpen := false }
    let s1 := s.setCtx qpn (some c')
    let s2 := c.wqes.foldl (fun s w => s.reply w.req 5 0 0 1) s1
    c.reads.foldl (fun s r => s.endRead r) s2
  | none => s

/-- Work of a caravan is ended: its operation, and the context of an RDMA_SQ queue (R267). -/
def State.endCaravan (s : State) (q : Queue) (c : Caravan) : State :=
  let s1 := if q.type = 2 then s else s.killOp c.op
  if q.type = 3 then s1.errorCtx q.bind 1 else s1

/-- Forget the rings of a function (R201): queues cease, their operations end, nothing is written. -/
def State.forgetQueue (s : State) (key : Nat) : State :=
  match s.queue key with
  | some q => (q.caravans.foldl (fun s c => s.endCaravan q c) s).setQueue key none
  | none => s

/-- Forget every ring of a function, with its admin commands that wait. -/
def State.forgetRings (s : State) (fn : Nat) : State :=
  let s1 := (s.queues.qs.filter (fun e => decide (keyFn e.1 = fn))).foldl (fun s e => s.forgetQueue e.1) s
  let keep := fun (k : Nat) => decide (keyFn k ≠ fn)
  let q := s1.queues
  { s1 with queues := { q with
      due := q.due.filter (fun d => match d with | .finish k _ _ _ => keep k | .query k _ _ _ => keep k | .abort k _ _ _ => keep k),
      changes := q.changes.filter (fun d => match d with | .create k _ => keep k | .finish k _ _ _ => keep k | .moderate k _ _ _ => keep k | .ctlReset f => decide (f ≠ fn)),
      endings := q.endings.filter (fun d => keep d.key) } }

/-! ### Descriptors (R256 to R258) -/

/-- F, L, IRQ and KIND of a descriptor. -/
def descIsF (d : Desc) : Bool := d.flags.getLsbD 0
/-- L. -/
def descIsL (d : Desc) : Bool := d.flags.getLsbD 1
/-- IRQ. -/
def descIrq (d : Desc) : Bool := d.flags.getLsbD 2
/-- KIND. -/
def descKind (d : Desc) : Nat := bits d.flags.toNat 8 8
/-- Whether the reserved bits of FLAGS are 0. -/
def descFlagsOk (d : Desc) : Bool := decide (bits d.flags.toNat 3 5 = 0) && decide (bits d.flags.toNat 16 16 = 0)

/-- The 32 bytes of a descriptor. -/
def descBytes (d : Desc) : List Byte :=
  leBytes 8 d.addr.toNat ++ leBytes 4 d.len.toNat ++ leBytes 4 d.flags.toNat ++ leBytes 8 d.tag.toNat ++ leBytes 8 d.spec.toNat

/-- A descriptor from its 32 bytes. -/
def descOfBytes (b : List Byte) : Desc :=
  { addr := BitVec.ofNat 64 (fieldLe b 0 8), len := BitVec.ofNat 32 (fieldLe b 8 4), flags := BitVec.ofNat 32 (fieldLe b 12 4),
    tag := BitVec.ofNat 64 (fieldLe b 16 8), spec := BitVec.ofNat 64 (fieldLe b 24 8) }

/-- The descriptor at a slot of a queue's ring, as host memory holds it. -/
def State.descAt (s : State) (q : Queue) (slot : Nat) : Desc := descOfBytes (Mem.rdN s.hostMem (q.desc + slot * 32) 32)

/-- What an open caravan still takes of the entries that follow its F entry, at most `n`, and the rest: it ends with L, before the next F, or with its
64th entry (R258). None when it is not complete. -/
def openRest : Nat → List Desc → Option (List Desc × List Desc)
  | 0, ds => some ([], ds)
  | _ + 1, [] => none
  | n + 1, d :: ds =>
    if descIsF d then some ([], d :: ds)
    else if descIsL d then some ([d], ds)
    else (openRest n ds).map (fun p => (d :: p.1, p.2))

/-- The first caravan of some entries, and the entries after it; an entry without F forms a caravan of its own (R258). -/
def cutOne : List Desc → Option (List Desc × List Desc)
  | [] => none
  | d :: ds => if !descIsF d || descIsL d then some ([d], ds) else (openRest 63 ds).map (fun p => (d :: p.1, p.2))

/-- The complete caravans of some entries; every caravan has an entry, so `n` entries hold at most `n`. -/
def cutAll : Nat → List Desc → List (List Desc)
  | 0, _ => []
  | n + 1, ds => match cutOne ds with | some (p, rest) => p :: cutAll n rest | none => []

/-- The last descriptor of a caravan. -/
def lastDesc (ds : List Desc) : Desc := ds.getLastD { addr := 0, len := 0, flags := 0, tag := 0, spec := 0 }

/-- Caravans as they lie in a ring from a slot on; none has an operation. -/
def ringCaravans (size : Nat) : Nat → List (List Desc) → List Caravan
  | _, [] => []
  | slot, p :: ps =>
    { op := noOp, first := slot, count := p.length, tag := (lastDesc p).tag, irq := descIrq (lastDesc p), out := none } ::
      ringCaravans size ((slot + p.length) % size) ps

/-- The outstanding caravans of a queue at a turn that have not been fetched: they end before the tail (R266). -/
def State.unfetched (s : State) (q : Queue) : List Caravan :=
  let n := ringDist q.size q.head q.tail
  ringCaravans q.size q.head (cutAll n ((List.range n).map (fun i => s.descAt q ((q.head + i) % q.size))))

end Sys2Proof.Machine
end

