-- ==== Sys2Proof/Machine/Accel.lean ====
section
/-!
DEFINITION. The accelerators (16): key contexts, the crypto operations (R357 to R361), compression (R362), statuses (R363) and results (R354 to
R356). AES-GCM and the two compressed formats are uninterpreted (log 9, 10).
-/

namespace Sys2Proof.Machine

/-! ### Requests -/

/-- OP of a request block. -/
def aOp (r : PostReq) : Nat := fieldLe r.block 4 1
/-- CTX. -/
def aCtx (r : PostReq) : Nat := fieldLe r.block 8 2
/-- AAD_LEN. -/
def aAad (r : PostReq) : Nat := fieldLe r.block 0xA 2
/-- HANDLE. -/
def aHandle (r : PostReq) : Word := BitVec.ofNat 32 (fieldLe r.block 0xC 4)
/-- OFFSET. -/
def aOff (r : PostReq) : Nat := fieldLe r.block 0x10 4
/-- LEN. -/
def aLen (r : PostReq) : Nat := fieldLe r.block 0x14 4
/-- OUT_MAX. -/
def aMax (r : PostReq) : Nat := fieldLe r.block 0x18 4
/-- IV. -/
def aIv (r : PostReq) : List Byte := slice r.block 0x20 12

/-- Whether bytes of a block are 0. -/
def zeroAt (b : List Byte) (off n : Nat) : Bool := (slice b off n).all (fun x => decide (x = 0))

/-- Whether the reserved fields of a crypto block are 0 (R359). -/
def cryptoReserved (b : List Byte) : Bool := zeroAt b 7 1 && zeroAt b 0x18 8 && zeroAt b 0x2C 20
/-- Whether the reserved fields of a compression block are 0 (R362). -/
def compressReserved (b : List Byte) : Bool := zeroAt b 7 5 && zeroAt b 0x1C 36

/-- Whether a request's input lies in a live on-die buffer (R355). -/
def State.aInput (s : State) (r : PostReq) : Bool :=
  let h := aHandle r
  s.isLive h && decide (hPool h ≤ 4) && decide (1 ≤ aLen r) && decide (aLen r ≤ 65504) && decide (aOff r + aLen r ≤ s.bufSize h)

/-- The input bytes. -/
def State.aBytes (s : State) (r : PostReq) : List Byte := s.bufRead (aHandle r) (aOff r) (aLen r)

/-! ### Budgets (R352, R354) -/

/-- Bytes that a unit processes in a tick of a period. The compression unit counts in half bytes of compression: it decompresses at twice the rate. -/
def unitBudget (unit code : Nat) : Nat := (if unit = 2 then 50 else 100) * periodNs code

/-- The bytes of a request that count against its unit's budget: read by the crypto units and by compression, written by decompression. -/
def State.aCost (s : State) (unit : Nat) (r : PostReq) : Nat :=
  if unit ≠ 2 then aLen r
  else if aOp r = 0x20 then 2 * aLen r
  else match Config.inflateBytes (fieldLe r.block 5 1) (s.aBytes r) with
    | .ok out => min out.length (aMax r)
    | _ => 0

/-- A unit's queue takes a request (R353). -/
def State.acceptAccel (s : State) (unit : Nat) (r : PostReq) : State :=
  { s with accel := { s.accel with queues := modifyAt s.accel.queues unit (fun l => l ++ [{ req := r, left := s.aCost unit r, ready := false }]) } }

/-- A budget is spent on a queue in its order. -/
def spendOn : Nat → List AccelReq → List AccelReq
  | _, [] => []
  | b, r :: rs => if r.left ≤ b then { r with left := 0, ready := true } :: spendOn (b - r.left) rs else { r with left := r.left - b } :: rs

/-- A tick begins: each unit has its budget for the requests accepted before it. -/
def State.spendAccel (s : State) : State :=
  let spend := fun (unit : Nat) (qs : List (List AccelReq)) => modifyAt qs unit (spendOn (unitBudget unit s.time.period))
  { s with accel := { s.accel with queues := spend 2 (spend 1 (spend 0 s.accel.queues)) } }

/-! ### Key contexts (R357, R358) -/

/-- A key context. -/
def State.keyCtx (s : State) (n : Nat) : KeyCtx := FMap.get KeyCtx.reset s.accel.keys n
/-- Replace a key context. -/
def State.setKey (s : State) (n : Nat) (c : KeyCtx) : State := { s with accel := { s.accel with keys := FMap.set KeyCtx.reset s.accel.keys n c } }

/-- A context from its record; STATE and INSTANCE are the unit's. -/
def keyOfRecord (b : List Byte) (inst : Half) : KeyCtx :=
  { key := slice b 0 32, salt := slice b 0x20 12, ident := BitVec.ofNat 32 (fieldLe b 0x2C 4), next := fieldLe b 0x30 8, mode := fieldLe b 0x38 1,
    flags := BitVec.ofNat 8 (fieldLe b 0x39 1), window := fieldLe b 0x3A 1, state := 1, inst := inst, highest := 0, bitmap := 0 }

/-- The bytes of SALT that a mode uses, and whether it uses IDENT (R357). -/
def saltUse (mode : Nat) (xpn : Bool) : Nat × Bool :=
  match mode with
  | 1 => (if xpn then 12 else 0, xpn)
  | 2 => (if xpn then 12 else 0, xpn)
  | 3 => (4, true)
  | 4 => (4, true)
  | 5 => (12, false)
  | 6 => (12, false)
  | _ => (0, false)

/-- Whether a record is well formed: the fields in range, and 0 where R357 has 0. -/
def recordOk (b : List Byte) : Bool :=
  let (n, ident) := saltUse (fieldLe b 0x38 1) (bitOf (fieldLe b 0x39 1) 1)
  decide (1 ≤ fieldLe b 0x38 1) && decide (fieldLe b 0x38 1 ≤ 7) && decide (fieldLe b 0x39 1 < 32) && decide (fieldLe b 0x3A 1 ≤ 64) && zeroAt b 0x3E 2 &&
    (bitOf (fieldLe b 0x39 1) 0 || zeroAt b 16 16) && zeroAt b (0x20 + n) (12 - n) && (ident || zeroAt b 0x2C 4)

/-- Whether an item may use a context (R358). -/
def mayUse (inst : Half) (c : KeyCtx) (free : Bool) : Bool := decide (inst = 0xFFFF#16) || (free && decide (c.state = 0)) || decide (c.inst = inst)

/-- The AES key of a context. -/
def KeyCtx.aes (c : KeyCtx) : List Byte := if c.flags.getLsbD 0 then c.key else c.key.take 16
/-- Whether a context numbers with 64 bits: XPN or ESN; TLS always does. -/
def KeyCtx.wide (c : KeyCtx) : Bool := c.flags.getLsbD 1 || decide (5 ≤ c.mode)
/-- The last usable number (R361). -/
def KeyCtx.last (c : KeyCtx) : Nat := if c.wide then 2 ^ 64 - 1 else 2 ^ 32 - 1

/-- Bytes XOR bytes. -/
def xorBytes (a b : List Byte) : List Byte := List.zipWith (fun x y => x ^^^ y) a b

/-- Seal: the ciphertext, as long as the plaintext, then the tag of 16 bytes. -/
def gcmSeal (key nonce aad pt : List Byte) : List Byte :=
  let (ct, tag) := Config.gcmEncrypt key nonce aad pt
  padTo pt.length ct ++ padTo 16 tag

/-- Open: the plaintext, as long as the ciphertext, when the tag verifies. -/
def gcmOpen (key nonce aad ct tag : List Byte) : Option (List Byte) := (Config.gcmDecrypt key nonce aad ct tag).map (padTo ct.length)

/-! ### Inbound numbers (R361) -/

/-- The base from which the high half of a number is recovered: the highest accepted number, or NEXT. -/
def KeyCtx.base (c : KeyCtx) : Nat := if c.bitmap = 0 then c.next else c.highest

/-- The number of an ESP packet from its low half (RFC 4303, Appendix A). -/
def espNumber (c : KeyCtx) (low : Nat) : Nat :=
  if !c.wide then low
  else
    let t := c.base
    let w := max 1 c.window
    let tl := t % 2 ^ 32
    let th := t / 2 ^ 32
    let h := if w - 1 ≤ tl then (if tl + 1 - w ≤ low then th else th + 1) else (if tl + 2 ^ 32 + 1 - w ≤ low then th - 1 else th)
    h * 2 ^ 32 + low

/-- The number of a MACsec frame from its low half (IEEE 802.1AEbw): the high half of the lowest number still acceptable, or one more when the
low half has wrapped past it. -/
def macsecNumber (c : KeyCtx) (low : Nat) : Nat :=
  if !c.wide then low
  else
    let b := c.base + 1 - max 1 c.window
    let bl := b % 2 ^ 32
    let h := b / 2 ^ 32 + (if 2 ^ 31 ≤ bl ∧ low < 2 ^ 31 then 1 else 0)
    h * 2 ^ 32 + low

/-- Whether the replay window accepts a number. -/
def KeyCtx.accepts (c : KeyCtx) (n : Nat) : Bool :=
  decide (c.next ≤ n) && (decide (c.bitmap = 0) || decide (c.highest < n) || (decide (c.highest - n < c.window) && !bitOf c.bitmap (c.highest - n)))

/-- The window after a number has been accepted. -/
def KeyCtx.accept (c : KeyCtx) (n : Nat) : KeyCtx :=
  let w := max 1 c.window
  if c.bitmap = 0 then { c with highest := n, bitmap := 1 }
  else if c.highest < n then { c with highest := n, bitmap := (if w ≤ n - c.highest then 1 else c.bitmap * 2 ^ (n - c.highest) % 2 ^ w + 1) }
  else { c with bitmap := if bitOf c.bitmap (c.highest - n) then c.bitmap else c.bitmap + 2 ^ (c.highest - n) }

/-! ### Operations (R360) -/

/-- How a crypto operation ends: the context after it, and a status or the output, NEXT_HDR and SEQ. -/
structure CryptoEnd where
  ctx : KeyCtx
  status : Byte
  out : List Byte
  hdr : Byte
  seq : Nat
deriving DecidableEq, Repr

/-- An operation fails. -/
def cFail (c : KeyCtx) (st : Byte) : CryptoEnd := { ctx := c, status := st, out := [], hdr := 0, seq := 0 }
/-- An operation succeeds. -/
def cOk (c : KeyCtx) (out : List Byte) (hdr : Byte) (seq : Nat) : CryptoEnd := { ctx := c, status := 0, out := out, hdr := hdr, seq := seq }

/-- An outbound operation takes NEXT (R361): beyond the last number it ends REVOKED and the context is EXHAUSTED. -/
def withNumber (c : KeyCtx) (f : Nat → List Byte) : CryptoEnd :=
  if c.last < c.next then cFail { c with state := 2 } 0x0D else cOk { c with next := c.next + 1 } (f c.next) 0 c.next

/-- The nonce of a MACsec frame (IEEE 802.1AE): SCI and PN, or for XPN SSCI and PN under the salt. -/
def macsecNonce (c : KeyCtx) (sci : List Byte) (pn : Nat) : List Byte :=
  if c.flags.getLsbD 1 then xorBytes c.salt (beBytes 4 c.ident.toNat ++ beBytes 8 pn) else padTo 8 sci ++ beBytes 4 pn

/-- MACSEC_PROTECT. Without SC the SCI that only the nonce uses is taken from the same field (log 53). -/
def macsecProtect (c : KeyCtx) (iv b : List Byte) : CryptoEnd :=
  if b.length < 14 then cFail c 0x0A
  else withNumber c (fun pn =>
    let sci := iv.take 8
    let sc := c.flags.getLsbD 2
    let data := b.drop 12
    let tci := 32 * b2n sc + 12 + bits c.flags.toNat 3 2
    let tag := [0x88, 0xE5, BitVec.ofNat 8 tci, BitVec.ofNat 8 (if data.length < 48 then data.length else 0)] ++ beBytes 4 pn ++ (if sc then sci else [])
    let aad := b.take 12 ++ tag
    aad ++ gcmSeal c.aes (macsecNonce c sci pn) aad data)

/-- MACSEC_VALIDATE. -/
def macsecValidate (c : KeyCtx) (iv b : List Byte) : CryptoEnd :=
  let tci := byteAt b 14
  let sc := bitOf tci 5
  let hlen := 20 + 8 * b2n sc
  let sl := byteAt b 15
  let n := if sl = 0 then b.length - hlen - 16 else sl
  if b.length < hlen + 16 ∨ fieldBe b 12 2 ≠ 0x88E5 ∨ bits tci 7 1 ≠ 0 ∨ bits tci 2 2 ≠ 3 ∨ bits tci 0 2 ≠ bits c.flags.toNat 3 2 ∨ 48 ≤ sl ∨
      b.length < hlen + n + 16 then cFail c 0x0A
  else
    let sci := if sc then slice b 20 8 else iv.take 8
    let pn := macsecNumber c (fieldBe b 16 4)
    match gcmOpen c.aes (macsecNonce c sci pn) (b.take hlen) (slice b hlen n) (slice b (hlen + n) 16) with
    | some pt => if c.accepts pn then cOk (c.accept pn) (b.take 12 ++ pt) 0 pn else cFail c 0x0F
    | none => cFail c 0x08

/-- The additional data of an ESP packet (RFC 4106). -/
def espAad (c : KeyCtx) (spi : List Byte) (n : Nat) : List Byte := spi ++ (if c.flags.getLsbD 1 then beBytes 8 n else beBytes 4 (n % 2 ^ 32))

/-- ESP_ENCRYPT (RFC 4106, RFC 4303): the padding is 1, 2, 3. -/
def espEncrypt (c : KeyCtx) (hdr : Byte) (b : List Byte) : CryptoEnd :=
  withNumber c (fun n =>
    let pad := (4 - (b.length + 2) % 4) % 4
    let spi := beBytes 4 c.ident.toNat
    let iv := beBytes 8 n
    spi ++ beBytes 4 (n % 2 ^ 32) ++ iv ++
      gcmSeal c.aes (c.salt.take 4 ++ iv) (espAad c spi n) (b ++ (List.range pad).map (fun i => BitVec.ofNat 8 (i + 1)) ++ [BitVec.ofNat 8 pad, hdr]))

/-- ESP_DECRYPT. -/
def espDecrypt (c : KeyCtx) (b : List Byte) : CryptoEnd :=
  if b.length < 34 then cFail c 0x0A
  else
    let n := espNumber c (fieldBe b 4 4)
    let m := b.length - 32
    match gcmOpen c.aes (c.salt.take 4 ++ slice b 8 8) (espAad c (b.take 4) n) (slice b 16 m) (slice b (16 + m) 16) with
    | some pt =>
      let pad := byteAt pt (m - 2)
      if !c.accepts n then cFail c 0x0F
      else if m < pad + 2 then cFail (c.accept n) 0x0A else cOk (c.accept n) (pt.take (m - 2 - pad)) (BitVec.ofNat 8 (byteAt pt (m - 1))) n
    | none => cFail c 0x08

/-- The nonce of a TLS 1.3 record (RFC 8446). -/
def tlsNonce (c : KeyCtx) (n : Nat) : List Byte := xorBytes c.salt (zeros 4 ++ beBytes 8 n)

/-- TLS_SEAL. -/
def tlsSeal (c : KeyCtx) (type : Byte) (b : List Byte) : CryptoEnd :=
  if 16384 < b.length then cFail c 0x0A
  else withNumber c (fun n =>
    let hd := [0x17, 0x03, 0x03] ++ beBytes 2 (b.length + 17)
    hd ++ gcmSeal c.aes (tlsNonce c n) hd (b ++ [type]))

/-- TLS_OPEN: NEXT is the record's number; a failed tag sets the context FAILED. -/
def tlsOpen (c : KeyCtx) (b : List Byte) : CryptoEnd :=
  if b.length < 22 ∨ byteAt b 0 ≠ 0x17 ∨ fieldBe b 3 2 ≠ b.length - 5 then cFail c 0x0A
  else
    let m := b.length - 21
    match gcmOpen c.aes (tlsNonce c c.next) (b.take 5) (slice b 5 m) (slice b (5 + m) 16) with
    | none => cFail { c with state := 3 } 0x08
    | some pt =>
      let c1 := { c with next := c.next + 1 }
      (match pt.reverse.dropWhile (fun x => decide (x = 0)) with
       | type :: rest => cOk c1 rest.reverse type c.next
       | [] => cFail c1 0x0A)

/-- GCM_SEAL. -/
def gcmSealOp (c : KeyCtx) (iv : List Byte) (aad : Nat) (b : List Byte) : CryptoEnd :=
  if b.length < aad then cFail c 0x0A else cOk c (gcmSeal c.aes iv (b.take aad) (b.drop aad)) 0 0

/-- GCM_OPEN. -/
def gcmOpenOp (c : KeyCtx) (iv : List Byte) (aad : Nat) (b : List Byte) : CryptoEnd :=
  if b.length < aad + 16 then cFail c 0x0A
  else
    let n := b.length - aad - 16
    match gcmOpen c.aes iv (b.take aad) (slice b aad n) (slice b (aad + n) 16) with
    | some pt => cOk c pt 0 0
    | none => cFail c 0x08

/-- The MODE that an operation needs. -/
def opMode (op : Nat) : Nat :=
  match op with
  | 0x10 => 1 | 0x11 => 2 | 0x12 => 3 | 0x13 => 4 | 0x14 => 5 | 0x15 => 6 | _ => 7

/-- The largest output of an operation on `n` bytes. -/
def opMost (op n : Nat) (c : KeyCtx) : Nat :=
  match op with
  | 0x10 => n + 24 + 8 * b2n (c.flags.getLsbD 2)
  | 0x12 => n + 37
  | 0x14 => n + 22
  | 0x16 => n + 16
  | _ => n

/-- A data operation on a context that passes the checks. -/
def cryptoRun (op : Nat) (r : PostReq) (c : KeyCtx) (b : List Byte) : CryptoEnd :=
  match op with
  | 0x10 => macsecProtect c (aIv r) b
  | 0x11 => macsecValidate c (aIv r) b
  | 0x12 => espEncrypt c (BitVec.ofNat 8 (fieldLe r.block 5 1)) b
  | 0x13 => espDecrypt c b
  | 0x14 => tlsSeal c (BitVec.ofNat 8 (fieldLe r.block 5 1)) b
  | 0x15 => tlsOpen c b
  | 0x16 => gcmSealOp c (aIv r) (aAad r) b
  | _ => gcmOpenOp c (aIv r) (aAad r) b

/-- A data operation (R363): the first applicable status, or the operation's end. MODE is not judged on a FREE context (log 53). -/
def State.cryptoOp (s : State) (unit op : Nat) (r : PostReq) : CryptoEnd :=
  let c := s.keyCtx (aCtx r)
  if !cryptoReserved r.block || decide (aCtx r / 32768 ≠ unit) || !s.aInput r || decide (65504 < opMost op (aLen r) c) ||
      (decide (c.state ≠ 0) && decide (c.mode ≠ opMode op)) then cFail c 0x0A
  else if c.state = 0 ∨ c.state = 2 then cFail c 0x0D
  else if !mayUse r.inst c false then cFail c 0x08
  else if c.state = 3 then cFail c 0x0F
  else cryptoRun op r c (s.aBytes r)

/-! ### Carrying a request through -/

/-- The unit removes its name from the input (R355). -/
def State.dropInput (s : State) (unit : Nat) (r : PostReq) : State :=
  let h := aHandle r
  if h = 0 then s
  else match s.liveEnt h with
    | some e => if e.owners.contains (ownUnit (3 + unit)) then s.removeOwner h (ownUnit (3 + unit)) else s
    | none => s

/-- A finished request waits for its arrival to be recorded. -/
def State.accelDone (s : State) (unit : Nat) (r : PostReq) (status : Byte) (h : Word) (n : Nat) : State :=
  let d : AccelDone := { req := r, status := status, handle := h, outLen := n }
  { s with accel := { s.accel with done := modifyAt s.accel.done unit (fun l => l ++ [d]) } }

/-- The 16-byte result record (R356). -/
def resultRecord (n : Nat) (hdr : Byte) (ctx seq : Nat) : List Byte := leBytes 4 n ++ [hdr, 0] ++ leBytes 2 ctx ++ leBytes 8 seq

/-- A request fails. -/
def State.accelFail (s : State) (unit : Nat) (r : PostReq) (status : Byte) : State := (s.dropInput unit r).accelDone unit r status 0 0

/-- The line of a key context fails its check (R363, R372). Where in the reserve the key contexts lie is open, and the line is free (log 70). -/
def State.keyLineFailed (s : State) : State :=
  let (n, s1) := s.freshNat
  s1.lineFailed (3264 * 1048576 + 64 * (n % 13631488))

/-- A request that succeeded takes its output buffer and fills it, and goes on; it ends NO_RESOURCE when none is free (R355, R363), and CONTROL_CHECK
when the check of its context fails, with nothing taken. -/
def State.accelOut (s : State) (unit : Nat) (r : PostReq) (checkBad : Bool) (most : Nat) (out : List Byte) (hdr : Byte) (ctx seq : Nat)
    (go : State → State) : State :=
  match s.alloc (16 + most) false (ownUnit (3 + unit)) with
  | (none, s1) => s1.accelFail unit r 9
  | (some h, s1) =>
    if checkBad then s.keyLineFailed.accelFail unit r 0x0E
    else go ((s1.bufWrite h 0 (resultRecord out.length hdr ctx seq ++ out)).accelDone unit r 0 h out.length)

/-- The unit takes the request at the head of its queue, when it has this OP and its bytes have been processed. -/
def State.serveAccel (s : State) (unit op : Nat) (act : PostReq → State → State) : State :=
  match s.accel.queues.getD unit [] with
  | r :: rest =>
    if r.ready && decide (aOp r.req = op) then act r.req { s with accel := { s.accel with queues := modifyAt s.accel.queues unit (fun _ => rest) } } else s
  | [] => s

/-- A data operation is carried out: context, output, status. A control check that fails on the context comes last (R363). -/
def State.cryptoReq (s : State) (unit op : Nat) (checkBad : Bool) (r : PostReq) : State :=
  let e := s.cryptoOp unit op r
  if e.status ≠ 0 then (s.setKey (aCtx r) e.ctx).accelFail unit r e.status
  else s.accelOut unit r checkBad (opMost op (aLen r) e.ctx) e.out e.hdr (aCtx r) e.seq (fun s =>
    let s1 := (s.setKey (aCtx r) e.ctx).dropInput unit r
    let outbound := op = 0x10 ∨ op = 0x12 ∨ op = 0x14
    if outbound ∧ e.ctx.last + 1 - e.ctx.next = 2 ^ 20 then s1.log 0x0A04 (aCtx r) 0 else s1)

/-- KEY_LOAD (R358): the record is taken and zeroed in its buffer. -/
def State.keyLoadReq (s : State) (unit : Nat) (checkBad : Bool) (r : PostReq) : State :=
  let c := s.keyCtx (aCtx r)
  let b := s.aBytes r
  if !cryptoReserved r.block || decide (aCtx r / 32768 ≠ unit) || !s.aInput r || decide (aLen r ≠ 64) || !recordOk b then s.accelFail unit r 0x0A
  else if !mayUse r.inst c true then s.accelFail unit r 0x08
  else s.accelOut unit r checkBad 0 [] 0 (aCtx r) 0 (fun s =>
    ((s.setKey (aCtx r) (keyOfRecord b r.inst)).bufWrite (aHandle r) (aOff r) (zeros 64)).dropInput unit r)

/-- KEY_CLEAR (R358). -/
def State.keyClearReq (s : State) (unit : Nat) (checkBad : Bool) (r : PostReq) : State :=
  let c := s.keyCtx (aCtx r)
  if !cryptoReserved r.block || decide (aCtx r / 32768 ≠ unit) || decide (aHandle r ≠ 0) then s.accelFail unit r 0x0A
  else if !mayUse r.inst c true then s.accelFail unit r 0x08
  else s.accelOut unit r checkBad 0 [] 0 (aCtx r) 0 (fun s => s.setKey (aCtx r) KeyCtx.reset)

/-- COMPRESS (R362): the output is at most 48 bytes longer than the data (log 10). -/
def State.compressReq (s : State) (r : PostReq) : State :=
  let f := fieldLe r.block 5 1
  if !compressReserved r.block || decide (1 < f) || !s.aInput r || decide (65456 < aLen r) then s.accelFail 2 r 0x0A
  else s.accelOut 2 r false (aLen r + 48) ((Config.compressBytes f (s.aBytes r)).take (aLen r + 48)) 0 0 0 (fun s => s.dropInput 2 r)

/-- DECOMPRESS (R362). -/
def State.decompressReq (s : State) (r : PostReq) : State :=
  let f := fieldLe r.block 5 1
  if !compressReserved r.block || decide (1 < f) || decide (aMax r = 0) || decide (65504 < aMax r) || !s.aInput r then s.accelFail 2 r 0x0A
  else match Config.inflateBytes f (s.aBytes r) with
    | .invalid => s.accelFail 2 r 0x0A
    | .unsupported => s.accelFail 2 r 0x0B
    | .ok out =>
      if aMax r < out.length then s.accelFail 2 r 9
      else s.accelOut 2 r false (aMax r) out 0 0 0 (fun s => s.dropInput 2 r)

/-! ### Meanings -/

/-- The number of a crypto unit. -/
def unitNo (unit1 : Bool) : Nat := b2n unit1

/-- KEY_LOAD (R358). -/
def execKeyLoad (unit1 checkBad : Bool) (s : State) : Answer :=
  .next (s.serveAccel (unitNo unit1) 1 (fun r s => s.keyLoadReq (unitNo unit1) checkBad r))
/-- KEY_CLEAR (R358). -/
def execKeyClear (unit1 checkBad : Bool) (s : State) : Answer :=
  .next (s.serveAccel (unitNo unit1) 2 (fun r s => s.keyClearReq (unitNo unit1) checkBad r))

/-- A data operation of a crypto unit. -/
def State.cryptoRow (s : State) (unit1 checkBad : Bool) (op : Nat) : State :=
  s.serveAccel (unitNo unit1) op (fun r s => s.cryptoReq (unitNo unit1) op checkBad r)

/-- MACSEC_PROTECT (R360). -/
def execMacsecProtect (unit1 checkBad : Bool) (s : State) : Answer := .next (s.cryptoRow unit1 checkBad 0x10)
/-- MACSEC_VALIDATE (R360). -/
def execMacsecValidate (unit1 checkBad : Bool) (s : State) : Answer := .next (s.cryptoRow unit1 checkBad 0x11)
/-- ESP_ENCRYPT (R360). -/
def execEspEncrypt (unit1 checkBad : Bool) (s : State) : Answer := .next (s.cryptoRow unit1 checkBad 0x12)
/-- ESP_DECRYPT (R360). -/
def execEspDecrypt (unit1 checkBad : Bool) (s : State) : Answer := .next (s.cryptoRow unit1 checkBad 0x13)
/-- TLS_SEAL (R360). -/
def execTlsSeal (unit1 checkBad : Bool) (s : State) : Answer := .next (s.cryptoRow unit1 checkBad 0x14)
/-- TLS_OPEN (R360). -/
def execTlsOpen (unit1 checkBad : Bool) (s : State) : Answer := .next (s.cryptoRow unit1 checkBad 0x15)
/-- GCM_SEAL (R360). -/
def execGcmSeal (unit1 checkBad : Bool) (s : State) : Answer := .next (s.cryptoRow unit1 checkBad 0x16)
/-- GCM_OPEN (R360). -/
def execGcmOpen (unit1 checkBad : Bool) (s : State) : Answer := .next (s.cryptoRow unit1 checkBad 0x17)
/-- COMPRESS (R362). -/
def execCompress (s : State) : Answer := .next (s.serveAccel 2 0x20 (fun r s => s.compressReq r))
/-- DECOMPRESS (R362). -/
def execDecompress (s : State) : Answer := .next (s.serveAccel 2 0x21 (fun r s => s.decompressReq r))

/-- Whether a unit has an operation code (R360, R362). -/
def opKnown (unit op : Nat) : Bool :=
  if unit = 2 then decide (op = 0x20) || decide (op = 0x21)
  else decide (op = 1) || decide (op = 2) || (decide (0x10 ≤ op) && decide (op ≤ 0x17))

/-- A request with an OP that its unit does not have ends BAD_DESCRIPTOR (R363); no row but the result's names it. -/
def State.failUnknown (s : State) (unit : Nat) : State :=
  match s.accel.queues.getD unit [] with
  | r :: rest =>
    if opKnown unit (aOp r.req) || !r.ready then s
    else ({ s with accel := { s.accel with queues := modifyAt s.accel.queues unit (fun _ => rest) } }).accelFail unit r.req 0x0A
  | [] => s

/-- Record the result of the unit's oldest finished request (R354, R355): the arrival goes to the engine that posted it, and 0x4009 replaces the
unit's name on the output. -/
def State.recordResult (s : State) (unit : Nat) : State :=
  match s.accel.done.getD unit [] with
  | d :: rest =>
    let s1 := { s with accel := { s.accel with done := modifyAt s.accel.done unit (fun _ => rest) } }
    if d.handle = 0 then s1.reply d.req 4 0 0 d.status
    else (s1.swapOwner d.handle (ownUnit (3 + unit)) ownRx).reply d.req 4 d.handle (16 + d.outLen) d.status
  | [] => s

/-- The unit carries out a request, whatever its OP. -/
def State.runAccel (s : State) (unit : Nat) (r : PostReq) : State :=
  if opKnown unit (aOp r) = false then s.accelFail unit r 0x0A
  else if unit = 2 then (if aOp r = 0x20 then s.compressReq r else s.decompressReq r)
  else match aOp r with
    | 1 => s.keyLoadReq unit false r
    | 2 => s.keyClearReq unit false r
    | op => s.cryptoReq unit op false r

/-- Up to `n` results of a unit, finished or of requests whose bytes have been processed, are recorded in order. -/
def finishUnit (unit : Nat) : Nat → State → State
  | 0, s => s
  | n + 1, s =>
    match s.accel.done.getD unit [], s.accel.queues.getD unit [] with
    | _ :: _, _ => finishUnit unit n (s.recordResult unit)
    | [], r :: rest =>
      if r.ready then
        finishUnit unit n ((({ s with accel := { s.accel with queues := modifyAt s.accel.queues unit (fun _ => rest) } }).runAccel unit r.req).recordResult unit)
      else s
    | [], [] => s

/-- A tick ends: what the units have processed in it is recorded in it (R354). -/
def State.finishAccel (s : State) : State :=
  [0, 1, 2].foldl (fun (s : State) u => finishUnit u ((s.accel.done.getD u []).length + (s.accel.queues.getD u []).length) s) s

/-- ACCELERATOR_RESULT (R354). -/
def execAcceleratorResult (unit : Fin 3) (s : State) : Answer :=
  .next (let s1 := if (s.accel.done.getD unit.val []).isEmpty then s.failUnknown unit.val else s
         s1.recordResult unit.val)

end Sys2Proof.Machine
end

