-- ==== Sys2Proof/Machine/ErgOps.lean ====
section
/-!
DEFINITION. The Erg's shared operations (03, 04): engines and threads, the issue rule, memory accesses, faults and fault records, the
endings of items, channels.
-/

namespace Sys2Proof.Machine

/-! ### Access -/

/-- A physical engine. -/
def State.eng (s : State) (pe : Nat) : Engine := FMap.get Engine.reset s.erg.engines pe

/-- Replace a physical engine. -/
def State.setEng (s : State) (pe : Nat) (e : Engine) : State :=
  { s with erg := { s.erg with engines := FMap.set Engine.reset s.erg.engines pe e } }

/-- A context of an engine. -/
def Engine.thr (e : Engine) (k : Nat) : Thread := FMap.get Thread.reset e.threads k

/-- Replace a context of an engine. -/
def Engine.setThr (e : Engine) (k : Nat) (t : Thread) : Engine := { e with threads := FMap.set Thread.reset e.threads k t }

/-- Change a context. -/
def State.modThr (s : State) (pe k : Nat) (f : Thread → Thread) : State :=
  let e := s.eng pe
  s.setEng pe (e.setThr k (f (e.thr k)))

/-- A context of a physical engine. -/
def State.thr (s : State) (pe k : Nat) : Thread := (s.eng pe).thr k

/-- A physical yard. -/
def State.yard (s : State) (y : Nat) : Yard := FMap.get Yard.reset s.erg.yards y

/-- Replace a physical yard. -/
def State.setYard (s : State) (y : Nat) (v : Yard) : State :=
  { s with erg := { s.erg with yards := FMap.set Yard.reset s.erg.yards y v } }

/-- A worker of an engine has changed state: the yard's wait monitor may report again (R84). The monitor considers workers alone, so T0's runs
do not count (DEDUCED, log 59). -/
def State.moved (s : State) (pe k : Nat) : State :=
  if k = 0 then s else s.setYard (pe / 32) { s.yard (pe / 32) with reported := false }

/-- The position of a value in a list. -/
def indexOf? {α : Type} [DecidableEq α] : List α → α → Option Nat
  | [], _ => none
  | x :: xs, a => if x = a then some 0 else (indexOf? xs a).map (· + 1)

/-- The logical yard bound to a physical yard (R34). -/
def State.logicalYard (s : State) (y : Nat) : Option Nat := indexOf? s.erg.ymap (some y)

/-- The logical engine number (yard × 32 + engine) of a physical engine. -/
def State.leng (s : State) (pe : Nat) : Nat := ((s.logicalYard (pe / 32)).getD 0) * 32 + pe % 32

/-- The physical engine of a logical engine, when its yard is in service. -/
def State.peng (s : State) (le : Nat) : Option Nat := (s.erg.ymap.getD (le / 32) none).map (fun y => y * 32 + le % 32)

/-- Whether a physical engine's yard is active. -/
def State.engActive (s : State) (pe : Nat) : Bool := (s.logicalYard (pe / 32)).isSome

/-- The active bank (R53). -/
def Engine.bank (e : Engine) : Bank := if e.activeB then e.bankB else e.bankA

/-- The item that a context runs: its own, or that of the context it was forked from (R67). -/
def Engine.itemOf (e : Engine) (k : Nat) : Option Item :=
  match (e.thr k).item with
  | some i => some i
  | none => (e.thr (e.thr k).root).item

/-- A register; x0 reads 0. -/
def Thread.reg (t : Thread) (r : Nat) : Word := if r = 0 then 0 else FMap.get 0 t.regs r

/-- Write a register; writes to x0 are discarded. -/
def Thread.setReg (t : Thread) (r : Nat) (v : Word) : Thread := if r = 0 then t else { t with regs := FMap.set 0 t.regs r v }

/-- Whether the engine is marked held: some context is HELD (R87). -/
def Engine.holdEng (e : Engine) : Bool := e.threads.any (fun x => x.2.held)

/-- The owner name of an item (R146). -/
def ownerName (le k : Nat) : Half := BitVec.ofNat 16 (0x8000 + (le / 32) * 256 + (le % 32) * 8 + k)

/-- The address of a context's record area (R42). -/
def recordAddr (k : Nat) : Nat := 0x17000 + k * 0x200

/-- Whether DEVELOPMENT rules or a monitor unlock let a debugger act on a physical yard (R79, R86, R246). -/
def State.debugAllowed (s : State) (y : Nat) : Bool :=
  if s.nv.lifecycle = 2 then
    match s.logicalYard y with
    | some l => s.monitor.unlockYards.getLsbD l && decide (s.time.sec < s.monitor.unlockUntil)
    | none => false
  else true

/-! ### The issue rule (R63 to R65) -/

/-- The slot CSRs in force in an absolute cycle (R65). -/
def Engine.slots (e : Engine) (c : Nat) : Nat × Nat :=
  if c < e.slotFrom then (e.oldLo.toNat, e.oldHi.toNat) else (e.slotLo.toNat, e.slotHi.toNat)

/-- The thread that slot `n` names. -/
def slotThread (lohi : Nat × Nat) (n : Nat) : Nat :=
  if n = 0 then 0 else if n < 10 then bits lohi.1 (3 * n) 3 else bits lohi.2 (3 * (n - 10)) 3

/-- Whether a context is READY in a cycle of the tick. -/
def Thread.readyAt (t : Thread) (c : Nat) : Bool := decide (t.st = .run) && !t.held && decide (t.ready ≤ c)

/-- The first READY, uncapped thread after the lending pointer (R63). -/
def lendTo (e : Engine) (c : Nat) : Nat → Nat → Option Nat
  | _, 0 => none
  | u, n + 1 => if (e.thr (u % 8)).readyAt c && !(e.thr (u % 8)).capped then some (u % 8) else lendTo e c (u + 1) n

/-- The thread that R63 has issue in a cycle, and the lending pointer after it. `base` is the cycle count at the start of work. -/
def issuer (e : Engine) (base c lend : Nat) : Option Nat × Nat :=
  let owner := slotThread (e.slots (base + c)) ((base + c) % 16)
  if (e.thr owner).readyAt c then (some owner, lend)
  else match lendTo e c (lend + 1) 8 with
    | some u => (some u, u)
    | none => (none, lend)

/-- The next issue of an engine from cycle `c` on, within a bound: the thread that R63 names, its cycle, and the lending pointer after it. -/
def nextIssue (e : Engine) (base : Nat) : Nat → Nat → Nat → Option (Nat × Nat × Nat)
  | 0, _, _ => none
  | n + 1, c, lend =>
    match issuer e base c lend with
    | (some t, lend') => some (t, c, lend')
    | (none, _) => nextIssue e base n (c + 1) lend

/-- The first cycle, not before the engine's next one, in which some context is READY. -/
def Engine.firstReady (e : Engine) : Nat :=
  match e.threads.filterMap (fun x => if x.2.st = .run ∧ x.2.held = false then some x.2.ready else none) with
  | [] => e.cyc
  | r :: rs => max e.cyc (rs.foldl min r)

/-- The module's cycle count at the start of the work phase of this tick. -/
def State.workBase (s : State) : Nat := s.time.cycBase + dispatchCycles s.time.period

/-- The cycle count of an engine at the start of the work phase: cycles since its yard left reset (R39). -/
def State.engBase (s : State) (pe : Nat) : Nat := s.workBase - (s.yard (pe / 32)).cycFrom

/-- The last cycle bound for a context in this tick: the gate for workers whose item is in gate accounting, else the turn. -/
def State.issueBound (s : State) (pe k : Nat) : Nat :=
  if k = 0 ∨ (s.thr pe k).outOfGate then turnCycles s.time.period else workCycles s.time.period s.time.gate

/-- Whether a context may issue in the present phase. -/
def State.phaseAllows (s : State) (pe k : Nat) : Bool :=
  match s.time.phase with
  | .work => true
  | .commit => decide (k = 0) || (s.thr pe k).outOfGate
  | .turn => false

/-! ### Fault records and groom faults (R78, R81, R82, R220) -/

/-- OPERATION in the form of R47. -/
def opWord (op : Option Nat) : Word := match op with | some n => BitVec.ofNat 32 (0x80000000 + n) | none => 0

/-- Words 1 to 7 of a FAULT or HELD record after word 0 (R82). -/
def recordTail (t : Thread) (it : Item) (pc addr : Word) : List Word :=
  [BitVec.ofNat 32 it.tick, pc, addr, opWord it.op, BitVec.ofNat 32 (it.inst.toNat + 65536 * it.gen.toNat),
   BitVec.ofNat 32 (it.program.toNat + 65536 * (it.entry % 256) + 16777216 * (it.arrivals.length % 256)),
   BitVec.ofNat 32 (min t.charged 65535)]

/-- Word 0 of a record (R82). -/
def recordHead (kind cause : Nat) (status : Byte) (k : Nat) : Word :=
  BitVec.ofNat 32 (kind + 256 * cause + 65536 * status.toNat + 16777216 * k)

/-- One record to the fault channel of an engine's groom; a full channel loses it and sets OVF (R81). -/
def State.faultRecord (s : State) (pe : Nat) (words : List Word) : State :=
  let e := s.eng pe
  if 8 ≤ e.faultCh.length then s.setEng pe { e with ovf := true }
  else s.setEng pe { e with faultCh := e.faultCh ++ [{ msg := { dst := 0, stamp := s.time.number, words := words }, read := 0 }] }

/-- A groom fault is posted to the yard fault mailbox with the groom's stamp, or waits, at most one per engine (R78, R220). -/
def State.groomFault (s : State) (pe : Nat) (w0 pc : Word) : State :=
  let le := s.leng pe
  let n := mbYardFault (le / 32)
  let m := s.mb n
  let waits := FMap.get [] s.boxes.yardFaults (le / 32)
  let s1 := s.logFrom (s.stamp (srcGroom le)) 0x0902 pe w0.toNat
  if !m.full then s1.setMb n { (m.post 0 0 (s.stamp (srcGroom le))) with ptr := BitVec.ofNat 64 (w0.toNat + 2 ^ 32 * pc.toNat) }
  else if waits.any (fun w => decide (w.1 = le)) then s1.setMb n { m with overrun := true }
  else { s1 with boxes := { s1.boxes with yardFaults := FMap.set [] s1.boxes.yardFaults (le / 32) (waits ++ [(le, w0, pc)]) } }

/-! ### Endings of items (R25, R26, R60, R62, R67, R68, R74, R80, R88, R151) -/

/-- A context freed with a kept status (R69): committed messages stay in its send buffer (R74). -/
def Thread.freed (t : Thread) (status : Byte) : Thread :=
  { Thread.reset with kept := status, instret := t.instret, sendq := t.sendq, rx := t.rx }

/-- Whether context `d` descends from `k` by forks, followed up to `n` steps. -/
def descends (e : Engine) (k : Nat) : Nat → Nat → Bool
  | 0, _ => false
  | n + 1, d => match (e.thr d).parent with | some p => decide (p = k) || descends e k n p | none => false

/-- The live descendants of a context (R68). -/
def Engine.kids (e : Engine) (k : Nat) : List Nat := [1, 2, 3, 4, 5, 6, 7].filter (fun d => decide ((e.thr d).st ≠ .free) && descends e k 8 d)

/-- The live descendants of `k` end with a status; one that is HELD stays as an item of its own that publishes nothing (R68). -/
def Engine.endKids (e : Engine) (k : Nat) (status : Byte) : Engine :=
  (e.kids k).foldl (fun e' d =>
    let t := e.thr d
    if t.held then e'.setThr d { t with item := e.itemOf d, root := d, parent := none, outOfGate := true }
    else e'.setThr d (t.freed status)) e

/-- A dispatched item's packets without an operation are dropped and counted (R26, R62). -/
def State.dropPackets (s : State) (it : Item) : State :=
  if it.kind = 1#8 then
    let p := s.ports
    let n := it.arrivals.length
    let ctr := it.arrivals.foldl (fun c a => bump c (a.source.toNat * 32 + 0x11) 1) p.ctr
    let inst := if it.inst = 0xFFFF#16 then p.itemDropInst else bump p.itemDropInst it.inst.toNat n
    { s with ports := { p with ctr := ctr, itemDropInst := inst } }
  else s

/-- The fail policy (R26): the owning operation completes with the status in the commit, or the packets are dropped. -/
def State.failItem (s : State) (it : Item) (status : Byte) : State :=
  match it.op with
  | some _ =>
    { s with erg := { s.erg with done := s.erg.done ++
        [{ owner := it.owner, status := status, op := it.op, child := false, failed := true, effects := [], took := [] }] } }
  | none => s.dropPackets it

/-- Whether a status is one that the overrun policy covers: TIMEOUT, DEADLOCK, LATE (R26). -/
def overruns (status : Byte) : Bool := decide (status = 3#8) || decide (status = 4#8) || decide (status = 5#8)

/-- Re-dispatch once (R26, R151): the record waits as a retry and its arrival buffers pass to 0x4009. -/
def State.retryItem (s : State) (pe : Nat) (it : Item) (status : Byte) : State :=
  let s1 := it.arrivals.foldl (fun s a => if a.handle = 0 then s else s.swapOwner a.handle it.owner ownRx) s
  let s2 := s1.dropName it.owner
  let e := s2.eng pe
  s2.setEng pe { e with retries := e.retries ++ [{ it with retry := true, firstStatus := status }] }

/-- What is left of an ended item's owner name goes (R151): from every buffer, or, for a T0 run, from those that this run has allocated, since an
earlier run that has yielded still holds its own under the same name (R78, R150). -/
def State.dropOwn (s : State) (k : Nat) (name : Half) (took : List Word) : State :=
  if k = 0 then s.dropNameOn name took else s.dropName name

/-- Items of a physical yard that ended CONTROL_CHECK in this PTP second (R394). -/
def State.countCheck (s : State) (y n : Nat) (status : Byte) : State :=
  if status = 0x0E then { s with repair := { s.repair with checkFails := bump s.repair.checkFails y n } } else s

/-- A context ends other than by YIELDT with a status. `atGate` says that the gate ends it, where children end by their own rows (R68).
A dispatched item follows its policy; a child leaves only its status; a held item that had left gate accounting only frees. -/
def State.endOther (s : State) (pe k : Nat) (status : Byte) (atGate : Bool) : State :=
  let e := s.eng pe
  let t := e.thr k
  let e1 := if atGate then e else e.endKids k status
  let n := if atGate then 1 else 1 + ((e.kids k).filter (fun d => !(e.thr d).held)).length
  let s1 := (s.setEng pe (e1.setThr k (t.freed status))).countCheck (pe / 32) n status
  let s2 := s1.moved pe k
  match t.item with
  | none => s2
  | some it =>
    if t.outOfGate ∨ k = 0 then s2.dropOwn k it.owner t.took
    else if overruns status && decide (e.bank.policy = 1) && !it.retry then s2.retryItem pe it status
    else (s2.dropName it.owner).failItem it status

/-- The status of an item that a fault ends (R62). -/
def causeStatus (cause : Nat) : Byte := if cause = 7 then 0x0E else if cause = 10 then 5 else 1

/-- A fault of R38 ends the context's item: a worker's groom receives a record, a groom's run is reported as a groom fault (R78, R81). -/
def State.faultAt (s : State) (pe k cause : Nat) (pc addr : Word) : State :=
  let e := s.eng pe
  let t := e.thr k
  match e.itemOf k with
  | none => s
  | some it =>
    let w0 := recordHead 1 cause (causeStatus cause) k
    let s1 := if k = 0 then s.groomFault pe w0 pc else s.faultRecord pe (w0 :: recordTail t it pc addr)
    s1.endOther pe k (causeStatus cause) false

/-- A fault at the context's pc. -/
def State.fault (s : State) (pe k cause : Nat) (addr : Word) : State := s.faultAt pe k cause (s.thr pe k).pc addr

/-- A fault of a cause for which the spec names no address: word 3 of the record is a free value (R82, log 25). -/
def State.faultFree (s : State) (pe k cause : Nat) : State :=
  let (v, s1) := s.freshNat
  s1.fault pe k cause (BitVec.ofNat 32 v)

/-- A control check fails on an access (R38, R365, R372): cause 0x07, logged with the word's address; the macro number is free. -/
def State.checkFault (s : State) (pe k : Nat) (addr : Word) : State :=
  let (m, s1) := s.freshNat
  (s1.log 0x0801 m addr.toNat).fault pe k 7 addr

/-- The status of a YIELDT's byte: a code of R6. A byte that is none leaves which code stands for it open (R7, R50, log 61). -/
def State.yieldStatus (s : State) (b : Byte) : Byte × State :=
  if b.toNat < 0x12 then (b, s) else (BitVec.ofNat 8 (Config.freeNat s.freeCtr % 0x12), s.tickFree)

/-- A YIELDT with the byte of rs1 (R50, R68, R88): children end ABORTED, the effects wait for the commit; a run that left gate accounting
publishes nothing and its owner name is removed. -/
def State.yieldItem (s0 : State) (pe k : Nat) (byte : Byte) : State :=
  let (status, s) := s0.yieldStatus byte
  let e := s.eng pe
  let t := e.thr k
  let s1 := s.setEng pe ((e.endKids k 1).setThr k (t.freed status))
  let s2 := s1.moved pe k
  match e.itemOf k with
  | none => s2
  | some it =>
    if t.outOfGate then (if t.item.isSome then s2.dropName it.owner else s2)
    else { s2 with erg := { s2.erg with done := s2.erg.done ++
             [{ owner := it.owner, status := status, op := it.op, child := t.item.isNone, failed := false, effects := t.effects, took := t.took }] } }

/-! ### Holding (R60, R86, R87) -/

/-- A worker becomes HELD: a blocked one will run its blocking instruction again, and one that EBREAK holds goes on at its EBREAK (log 61); the
groom receives a HELD record, whose address word is free (R82, log 25). -/
def State.holdThread (s : State) (pe k cause : Nat) : State :=
  let e := s.eng pe
  let t := e.thr k
  match e.itemOf k with
  | none => s
  | some it =>
    let (v, s0) := s.freshNat
    let s1 := s0.modThr pe k (fun t => { t with held := true, stepping := false, st := .run, blk := .none })
    let s2 := s1.moved pe k
    s2.faultRecord pe (recordHead 3 cause 0x0C k :: recordTail t it t.pc (BitVec.ofNat 32 v))

/-! ### Issuing an instruction -/

/-- The issue cycle `c` is taken: it is charged to the context, whose owed result, if any, has come (R26, R36, R63). -/
def State.takeCycle (s : State) (pe k c lend : Nat) : State :=
  let e := s.eng pe
  let t := e.thr k
  s.setEng pe ({ e with cyc := c + 1, lend := lend }.setThr k { t with charged := t.charged + 1, ready := c + 1, owed := false })

/-- The fetch (R36, R42, R365, R495): it must lie in the instruction window and pass its check. -/
def State.fetched (s : State) (i : Issue) (pe k c : Nat) (body : State → Nat → Nat → Nat → State) : State :=
  let at_ := (s.thr pe k).pc
  let pc := at_.toNat
  if pc % 2 = 1 then s.faultAt pe k 2 at_ at_
  else if 0x4000 ≤ pc then s.faultAt pe k 3 at_ at_
  else if !i.compressed && decide (pc = 0x3FFE) then s.faultAt pe k 3 at_ 0x4000
  else if i.fetchBad then s.checkFault pe k at_
  else body s pe k c

/-- The cycle in which a context can issue now, and the lending pointer after it: its yard is active, the phase allows it, and R63 gives it the
engine's next issue, before its bound (R63, R64; log 5). -/
def State.issueAt (s : State) (pe k : Nat) : Option (Nat × Nat) :=
  let e := s.eng pe
  if !(s.engActive pe) || !(s.phaseAllows pe k) then none
  else match nextIssue e (s.engBase pe) (turnCycles s.time.period) e.firstReady e.lend with
    | some (t, c, lend) => if t = k ∧ c < s.issueBound pe k then some (c, lend) else none
    | none => none

/-- The frame of every instruction. `body` runs at the issue cycle, given the engine, the context and the cycle. A command that names a context
which cannot issue changes nothing (log 2). A stepping context is held again after its one instruction (R490). -/
def State.issue (s : State) (i : Issue) (body : State → Nat → Nat → Nat → State) : State :=
  let pe := i.eng.val
  let k := i.thr.val
  match s.issueAt pe k with
  | none => s
  | some (c, lend) =>
    let s2 := (s.takeCycle pe k c lend).fetched i pe k c body
    if (s.thr pe k).stepping then
      (if (s2.thr pe k).st = .run ∧ (s2.thr pe k).held = false then s2.holdThread pe k 0 else s2)
    else s2

/-- The instruction completes: it is retired, the pc moves on and the context is READY again `lat` cycles after its issue. -/
def State.retire (s : State) (i : Issue) (c lat : Nat) (pc : Word) (f : Thread → Thread) : State :=
  s.modThr i.eng.val i.thr.val (fun t => { f t with instret := t.instret + 1, pc := pc, ready := c + lat })

/-- The pc after the instruction in sequence. -/
def State.nextPc (s : State) (i : Issue) : Word := (s.thr i.eng.val i.thr.val).pc + (if i.compressed then 2 else 4)

/-- A load, atomic or lookup that writes `v` to `rd`: its result is owed until the context is READY again (R36, R83). -/
def State.writeOwed (s : State) (i : Issue) (c lat rd : Nat) (v : Word) : State :=
  s.retire i c lat (s.nextPc i) (fun t => { t.setReg rd v with owed := true })

/-- An instruction that writes `v` to `rd` and goes on in sequence. -/
def State.writeBack (s : State) (i : Issue) (c lat rd : Nat) (v : Word) : State :=
  s.retire i c lat (s.nextPc i) (fun t => t.setReg rd v)

/-! ### Memory accesses (R42 to R44, R55, R495) -/

/-- Where an access of an engine lies. -/
inductive Place8 where
  | store (a : Nat)
  | shared (a : Nat)
  | hv (off : Nat)
  | buf (h : Word) (off : Nat)
  | dram (a : Nat)
  | bad (cause : Nat)
deriving DecidableEq, Repr

/-- Bytes of the program-window part (R16, R44). -/
def State.windowSize (s : State) : Nat :=
  (if s.channelsInService = 4 then 64 else 48) * 2 ^ 30 - s.dataBase - 8 * 2 ^ 30

/-- The arrival that a context has selected (R43, R67). -/
def Engine.chosen (e : Engine) (k : Nat) : Option Arrival :=
  match (e.thr k).sel, e.itemOf k with
  | some i, some it => it.arrivals[i]?
  | _, _ => none

/-- Whether a context has freed a buffer under its item's own name, which closes its windows onto it (R52). -/
def Engine.freedOwn (e : Engine) (k : Nat) (h : Word) : Bool :=
  match e.itemOf k with
  | some it => (e.thr k).effects.any (fun x => match x with | .free h' n => decide (h' = h) && decide (n = it.owner) | _ => false)
  | none => false

/-- The arrival that a context's windows show: none when nothing is selected or its buffer has been freed. -/
def Engine.selected (e : Engine) (k : Nat) : Option Arrival :=
  match e.chosen k with
  | some a => if e.freedOwn k a.handle then none else some a
  | none => none

/-- Where `n` bytes at `addr` lie for a context; the causes are those of R38, MISALIGNED first (R495). -/
def State.locate (s : State) (pe k addr n : Nat) : Place8 :=
  let e := s.eng pe
  if addr % n ≠ 0 then .bad 2
  else if 0x10000 ≤ addr ∧ addr < 0x18000 then .store addr
  else if 0x100000 ≤ addr ∧ addr < 0x300000 then .shared addr
  else if 0x400000 ≤ addr ∧ addr < 0x400200 then
    (match e.selected k with | some a => if s.isLive a.handle then .hv (addr - 0x400000) else .bad 6 | none => .bad 6)
  else if 0x410000 ≤ addr ∧ addr < 0x420000 then
    (match e.selected k with
     | some a =>
       if s.isLive a.handle then (if addr - 0x410000 + n ≤ s.bufSize a.handle then .buf a.handle (addr - 0x410000) else .bad 3) else .bad 6
     | none => .bad 6)
  else if 0x80000000 ≤ addr then
    let w := e.dwin.toNat * 1048576 + (addr - 0x80000000)
    if w + n ≤ s.windowSize then .dram (s.dataBase + 8 * 2 ^ 30 + w) else .bad 3
  else .bad 3

/-- The DRAM latency of R36: from 134 cycles up; the value is free (log 5). -/
def State.dramLat (s : State) : Nat × State := let (v, s1) := s.freshNat; (134 + v, s1)

/-- Whether a place is checked: the record area, or the control partition of the shared store (R55, R365). -/
def State.checked (s : State) (pe : Nat) (p : Place8) : Bool :=
  match p with
  | .store a => decide (0x17000 ≤ a)
  | .shared a => decide (a < (s.yard (pe / 32)).boundary)
  | _ => false

/-- The header vector of the arrival that a context's windows show. -/
def Engine.hv (e : Engine) (k : Nat) : Mem := match e.selected k with | some a => a.hv | none => []

/-- Read `n` bytes of a place. -/
def State.readPlace (s : State) (pe k : Nat) (p : Place8) (n : Nat) : List Byte :=
  match p with
  | .store a => Mem.rdN (s.eng pe).store a n
  | .shared a => Mem.rdN (s.yard (pe / 32)).shared a n
  | .hv off => Mem.rdN ((s.eng pe).hv k) off n
  | .buf h off => s.bufRead h off n
  | .dram a => Mem.rdN s.dram a n
  | .bad _ => []

/-- Change the arrival that a context's windows show, in the item that holds it. -/
def Engine.modSelected (e : Engine) (k : Nat) (f : Arrival → Arrival) : Engine :=
  let t := e.thr k
  let holder := if t.item.isSome then k else t.root
  match t.sel, (e.thr holder).item with
  | some i, some it => e.setThr holder { e.thr holder with item := some { it with arrivals := modifyAt it.arrivals i f } }
  | _, _ => e

/-- Write bytes to a place. -/
def State.writePlace (s : State) (pe k : Nat) (p : Place8) (bs : List Byte) : State :=
  match p with
  | .store a => let e := s.eng pe; s.setEng pe { e with store := Mem.wrN e.store a bs }
  | .shared a => let y := s.yard (pe / 32); s.setYard (pe / 32) { y with shared := Mem.wrN y.shared a bs }
  | .hv off => s.setEng pe ((s.eng pe).modSelected k (fun a => { a with hv := Mem.wrN a.hv off bs }))
  | .buf h off => s.bufWrite h off bs
  | .dram a => { s with dram := Mem.wrN s.dram a bs }
  | .bad _ => s

/-- The load latency of a place (R36). -/
def State.loadLat (s : State) (p : Place8) : Nat × State :=
  match p with
  | .store _ => (2, s)
  | .shared _ => (12, s)
  | .hv _ => (4, s)
  | .buf h _ => if hPool h ≤ 4 then (10, s) else s.dramLat
  | .dram _ => s.dramLat
  | .bad _ => (1, s)

/-- The store latency of a place (R36). -/
def storeLat (p : Place8) : Nat :=
  match p with
  | .store _ => 2
  | .shared _ => 1
  | .hv _ => 2
  | .buf h _ => if hPool h ≤ 4 then 10 else 1
  | .dram _ => 1
  | .bad _ => 1

/-! ### Channels (R70 to R76) -/

/-- Words in a send buffer. -/
def Thread.sendWords (t : Thread) : Nat :=
  (t.sendq.map (fun m => m.words.length)).foldl (· + ·) 0 + (match t.openMsg with | some m => m.words.length | none => 0)

/-- Append a word to the open message towards an address, committing it on the last word or the sixteenth (R72). -/
def Thread.pushWord (t : Thread) (tick : Nat) (addr w : Word) (last : Bool) : Thread :=
  let m : Msg := match t.openMsg with | some m => { m with words := m.words ++ [w] } | none => { dst := addr, stamp := tick, words := [w] }
  if last || decide (16 ≤ m.words.length) then { t with openMsg := none, sendq := t.sendq ++ [m] } else { t with openMsg := some m }

/-- The messages of a receiving channel. -/
def Thread.chan (t : Thread) (ch : Nat) : List RxMsg := FMap.get [] t.rx ch

/-- Free credit of a receiving channel (R71, R75): 32 words less those of messages not yet read to their end. -/
def Thread.credit (t : Thread) (ch : Nat) : Nat := 32 - ((t.chan ch).map (fun m => m.msg.words.length)).foldl (· + ·) 0

/-- The stale messages at the head of a channel, for a receiver whose item runs in tick `now` (R76): those left, and how many go. -/
def dropStale (now : Nat) : List RxMsg → List RxMsg × Nat
  | [] => ([], 0)
  | m :: ms => if m.msg.stamp < now then let (r, n) := dropStale now ms; (r, n + 1) else (m :: ms, 0)

/-- Add to sxstale, saturating (R39). -/
def Engine.addStale (e : Engine) (n : Nat) : Engine := { e with stale := BitVec.ofNat 32 (min (e.stale.toNat + n) 0xFFFFFFFF) }

/-- Stale discard on one channel of a context before CHRECV or CHPOLL looks at it (R76). -/
def State.staleDiscard (s : State) (pe k ch : Nat) : State :=
  let e := s.eng pe
  match e.itemOf k with
  | none => s
  | some it =>
    let t := e.thr k
    let (ms, n) := dropStale it.tick (t.chan ch)
    s.setEng pe ((e.setThr k { t with rx := FMap.set [] t.rx ch ms }).addStale n)

/-- Take the next word of the current message of a list (R75). -/
def takeWord : List RxMsg → Option (Word × List RxMsg)
  | [] => none
  | m :: ms =>
    match m.msg.words[m.read]? with
    | some w => some (w, if m.read + 1 = m.msg.words.length then ms else { m with read := m.read + 1 } :: ms)
    | none => none

end Sys2Proof.Machine
end

