-- ==== Sys2Proof/Machine/Operands.lean ====
section
/-!
DEFINITION. Operand forms of the engines: register and immediate operands, the arithmetic of RV32IM (R35, R36), branch conditions,
the word operations of SPX (R50), and the instruction words that an ILLEGAL record carries (R49, R82).
-/

namespace Sys2Proof.Machine

/-- The second operand of an integer operation. -/
def src2Value (t : Thread) (src : Src2) : Word :=
  match src with
  | .reg r => t.reg r.val
  | .imm v => v.signExtend 32

/-- The integer operations of RV32I; shifts use the low five bits of the second operand. -/
def aluValue (op : AluOp) (a b : Word) : Word :=
  match op with
  | .add => a + b
  | .sub => a - b
  | .sll => a <<< (b.toNat % 32)
  | .slt => if a.slt b then 1 else 0
  | .sltu => if a.ult b then 1 else 0
  | .xor => a ^^^ b
  | .srl => a >>> (b.toNat % 32)
  | .sra => a.sshiftRight (b.toNat % 32)
  | .or => a ||| b
  | .and => a &&& b

/-- Bits 63 to 32 of a product. -/
def highWord (p : Int) : Word := BitVec.ofInt 32 (p / 4294967296)

/-- The multiplications of the M extension. -/
def mulValue (op : MulOp) (a b : Word) : Word :=
  match op with
  | .mul => a * b
  | .mulh => highWord (a.toInt * b.toInt)
  | .mulhsu => highWord (a.toInt * b.toNat)
  | .mulhu => highWord (a.toNat * b.toNat)

/-- The divisions of the M extension, which give division by zero and signed overflow a result. -/
def divValue (op : DivOp) (a b : Word) : Word :=
  match op with
  | .div => if b = 0 then 0xFFFFFFFF else a.sdiv b
  | .divu => if b = 0 then 0xFFFFFFFF else a / b
  | .rem => if b = 0 then a else a.srem b
  | .remu => if b = 0 then a else a % b

/-- The branch conditions of RV32I. -/
def brHolds (c : BrCond) (a b : Word) : Bool :=
  match c with
  | .eq => decide (a = b)
  | .ne => decide (a ≠ b)
  | .lt => a.slt b
  | .ge => !a.slt b
  | .ltu => a.ult b
  | .geu => !a.ult b

/-- The four bytes of a word, least significant first. -/
def wordBytes (w : Word) : List Byte := leBytes 4 w.toNat

/-- BSWAP (R50). -/
def bswapWord (w : Word) : Word := BitVec.ofNat 32 (ofBe (wordBytes w))

/-- CSUM16 (R50): the ones' complement sum of four halves with the end-around carry folded. -/
def csum16Word (a b : Word) : Word :=
  let s := bits a.toNat 0 16 + bits b.toNat 0 16 + bits a.toNat 16 16 + bits b.toNat 16 16
  let s1 := s % 65536 + s / 65536
  BitVec.ofNat 32 (s1 % 65536 + s1 / 65536)

/-- The bytes of a load, extended to a word. -/
def ldExtend (w : LdW) (bs : List Byte) : Word :=
  match w with
  | .b => (BitVec.ofNat 8 (ofLe bs)).signExtend 32
  | .h => (BitVec.ofNat 16 (ofLe bs)).signExtend 32
  | .w => BitVec.ofNat 32 (ofLe bs)
  | .bu => BitVec.ofNat 32 (ofLe bs)
  | .hu => BitVec.ofNat 32 (ofLe bs)

/-- Bytes of a load. -/
def ldSize (w : LdW) : Nat := match w with | .b => 1 | .bu => 1 | .h => 2 | .hu => 2 | .w => 4
/-- Bytes of a store. -/
def stSize (w : StW) : Nat := match w with | .b => 1 | .h => 2 | .w => 4

/-! ### Instruction words (R49, and RISC-V for SYSTEM and MISC-MEM) -/

/-- An R-type word. -/
def rType (opcode f3 f7 rd rs1 rs2 : Nat) : Word :=
  BitVec.ofNat 32 (opcode + rd * 2 ^ 7 + f3 * 2 ^ 12 + rs1 * 2 ^ 15 + rs2 * 2 ^ 20 + f7 * 2 ^ 25)

/-- custom-0 of SPX. -/
def custom0 : Nat := 0x0B

/-- The word of a CSR instruction. -/
def csrWord (form : CsrForm) (csr : Nat) (src : CsrSrc) (rd : Nat) : Word :=
  let f := match form with | .rw => 1 | .rs => 2 | .rc => 3
  match src with
  | .reg r => BitVec.ofNat 32 (0x73 + rd * 2 ^ 7 + f * 2 ^ 12 + r.val * 2 ^ 15 + csr * 2 ^ 20)
  | .uimm v => BitVec.ofNat 32 (0x73 + rd * 2 ^ 7 + (f + 4) * 2 ^ 12 + v.toNat * 2 ^ 15 + csr * 2 ^ 20)

/-- FENCE.I. -/
def fenceIWord : Word := 0x0000100F
/-- WFI. -/
def wfiWord : Word := 0x10500073

/-- The value of a CSR instruction's source. -/
def csrSrcValue (t : Thread) (src : CsrSrc) : Word :=
  match src with
  | .reg r => t.reg r.val
  | .uimm v => v.zeroExtend 32

/-- Whether a CSR instruction writes: CSRRW always, the others unless their source is x0 or the immediate 0. -/
def csrWrites (form : CsrForm) (src : CsrSrc) : Bool :=
  match form, src with
  | .rw, _ => true
  | _, .reg r => decide (r ≠ 0)
  | _, .uimm v => decide (v ≠ 0)

/-- The value that a CSR instruction writes. -/
def csrNew (form : CsrForm) (old v : Word) : Word :=
  match form with
  | .rw => v
  | .rs => old ||| v
  | .rc => old &&& ~~~v

end Sys2Proof.Machine
end

