-- ==== Sys2Proof/Machine/Access.lean ====
section
/-!
DEFINITION. Meanings of loads, stores and atomics (R36, R42 to R44, R50, R55, R56, R365, R495).
-/

namespace Sys2Proof.Machine

/-- A load (R36, R42). -/
def State.loadOp (s : State) (i : Issue) (w : LdW) (rd rs1 : Fin 32) (imm : BitVec 12) (checkBad : Bool) : State :=
  s.issue i (fun s pe k c =>
    let a := (s.thr pe k).reg rs1.val + imm.signExtend 32
    match s.locate pe k a.toNat (ldSize w) with
    | .bad cause => s.fault pe k cause a
    | p =>
      if checkBad && s.checked pe p then s.checkFault pe k a
      else
        let v := ldExtend w (s.readPlace pe k p (ldSize w))
        let (lat, s1) := s.loadLat p
        s1.writeOwed i c lat rd.val v)

/-- LOAD (R36). -/
def execLoad (i : Issue) (w : LdW) (rd rs1 : Fin 32) (imm : BitVec 12) (checkBad : Bool) (s : State) : Answer :=
  .next (s.loadOp i w rd rs1 imm checkBad)

/-- A store (R36, R42). -/
def State.storeOp (s : State) (i : Issue) (w : StW) (rs1 rs2 : Fin 32) (imm : BitVec 12) (checkBad : Bool) : State :=
  s.issue i (fun s pe k c =>
    let t := s.thr pe k
    let a := t.reg rs1.val + imm.signExtend 32
    match s.locate pe k a.toNat (stSize w) with
    | .bad cause => s.fault pe k cause a
    | p =>
      if checkBad && s.checked pe p then s.checkFault pe k a
      else (s.writePlace pe k p (leBytes (stSize w) (t.reg rs2.val).toNat)).retire i c (storeLat p) (s.nextPc i) id)

/-- STORE (R36). -/
def execStore (i : Issue) (w : StW) (rs1 rs2 : Fin 32) (imm : BitVec 12) (checkBad : Bool) (s : State) : Answer :=
  .next (s.storeOp i w rs1 rs2 imm checkBad)

/-- An atomic address: `n` bytes of the shared store, or the cause of R38 (MISALIGNED first, R495). -/
def atomicCause (a n : Nat) : Option Nat :=
  if a % n ≠ 0 then some 2 else if 0x100000 ≤ a ∧ a < 0x300000 then none else some 3

/-- A word atomic of SPX (R50): rd receives the old word, which becomes `f old rs2 rd`. A failed check leaves the word (R55). -/
def State.atomicOp (s : State) (i : Issue) (rd rs1 rs2 : Fin 32) (checkBad : Bool) (f : Word → Word → Word → Word) : State :=
  s.issue i (fun s pe k c =>
    let t := s.thr pe k
    let a := t.reg rs1.val
    match atomicCause a.toNat 4 with
    | some cause => s.fault pe k cause a
    | none =>
      if checkBad && s.checked pe (.shared a.toNat) then s.checkFault pe k a
      else
        let old := BitVec.ofNat 32 (ofLe (s.readPlace pe k (.shared a.toNat) 4))
        (s.writePlace pe k (.shared a.toNat) (leBytes 4 (f old (t.reg rs2.val) (t.reg rd.val)).toNat)).writeOwed i c 14 rd.val old)

/-- SAADD (R50). -/
def execSaadd (i : Issue) (rd rs1 rs2 : Fin 32) (checkBad : Bool) (s : State) : Answer :=
  .next (s.atomicOp i rd rs1 rs2 checkBad (fun old v _ => old + v))

/-- SASWAP (R50). -/
def execSaswap (i : Issue) (rd rs1 rs2 : Fin 32) (checkBad : Bool) (s : State) : Answer :=
  .next (s.atomicOp i rd rs1 rs2 checkBad (fun _ v _ => v))

/-- SACAS (R50): the word becomes rs2 when it equals rd. -/
def execSacas (i : Issue) (rd rs1 rs2 : Fin 32) (checkBad : Bool) (s : State) : Answer :=
  .next (s.atomicOp i rd rs1 rs2 checkBad (fun old v e => if old = e then v else old))

/-- SAMIN (R50), signed. -/
def execSamin (i : Issue) (rd rs1 rs2 : Fin 32) (checkBad : Bool) (s : State) : Answer :=
  .next (s.atomicOp i rd rs1 rs2 checkBad (fun old v _ => if v.slt old then v else old))

/-- SAMAX (R50), signed. -/
def execSamax (i : Issue) (rd rs1 rs2 : Fin 32) (checkBad : Bool) (s : State) : Answer :=
  .next (s.atomicOp i rd rs1 rs2 checkBad (fun old v _ => if old.slt v then v else old))

/-- SAAND (R50). -/
def execSaand (i : Issue) (rd rs1 rs2 : Fin 32) (checkBad : Bool) (s : State) : Answer :=
  .next (s.atomicOp i rd rs1 rs2 checkBad (fun old v _ => old &&& v))

/-- SAOR (R50). -/
def execSaor (i : Issue) (rd rs1 rs2 : Fin 32) (checkBad : Bool) (s : State) : Answer :=
  .next (s.atomicOp i rd rs1 rs2 checkBad (fun old v _ => old ||| v))

/-- SAXOR (R50). -/
def execSaxor (i : Issue) (rd rs1 rs2 : Fin 32) (checkBad : Bool) (s : State) : Answer :=
  .next (s.atomicOp i rd rs1 rs2 checkBad (fun old v _ => old ^^^ v))

/-- SAINC64 (R50): adds rs2 to the 64-bit word at rs1; posted. -/
def execSainc64 (i : Issue) (rs1 rs2 : Fin 32) (checkBad : Bool) (s : State) : Answer :=
  .next (s.issue i (fun s pe k c =>
    let t := s.thr pe k
    let a := t.reg rs1.val
    match atomicCause a.toNat 8 with
    | some cause => s.fault pe k cause a
    | none =>
      if checkBad && s.checked pe (.shared a.toNat) then s.checkFault pe k a
      else
        let old := ofLe (s.readPlace pe k (.shared a.toNat) 8)
        (s.writePlace pe k (.shared a.toNat) (leBytes 8 (old + (t.reg rs2.val).toNat))).retire i c 1 (s.nextPc i) id))

end Sys2Proof.Machine
end

