-- ==== Sys2Proof/Machine/HostOps.lean ====
section
/-!
DEFINITION. Shared operations of the endpoint (09): who decodes memory requests, doorbell writes and their sampling on PF1 and its VFs
(R223, R224, R252 to R255), completion-head doorbells (R261), ADMIN_CTL (R253).
-/

namespace Sys2Proof.Machine

/-- An Unsupported Request (R194): reported in the function addressed, or in PF0 when it does not exist; advisory when posted. -/
def State.unsupported (s : State) (fn : Nat) (posted : Bool) : State :=
  let f := if s.fnExists fn then fn else 0
  if posted then s.aerAdvisory f 20 else s.aerUncor f 20

/-- Whether a function decodes memory requests (R184, R194, R202, R205). -/
def State.decodes (s : State) (fn : Nat) : Bool :=
  s.fnExists fn && s.mse fn && !(s.fn (fnPf fn)).d3 && !(s.fn fn).flr && s.pcie.linkUp && !s.pcie.perst

/-- Whether ADMIN_CTL with ENABLE waits for the next sample. -/
def Fn.enabling (f : Fn) : Bool := match FMap.get none f.doorbells 0xFFF4 with | some low => bitOf low 15 | none => false

/-- A write to a function's DOORBELL register (R223, R252): the value is kept by queue field until the next sample. An admin tail of a controller that
follows its ENABLE is kept past the enabling turn (R297). PF0 has none (R189). -/
def State.doorbellWrite (s : State) (fn : Nat) (value : Word) : State :=
  if !s.decodes fn then s.unsupported fn true
  else if fn = 0 then s.log 0x0403 fn 0
  else
    let s1 := s.hostUse fn
    let f := s1.fn fn
    let field := bits value.toNat 16 16
    let low := bits value.toNat 0 16
    if fnSto fn && decide (field = 0) && f.enabling then s1.setFn fn { f with afterEnable := some low }
    else s1.setFn fn { f with doorbells := FMap.set none f.doorbells field (some low) }

/-- A doorbell for a queue that does not exist (R224): discarded, counted, logged. -/
def State.badDoorbell (s : State) (fn field low : Nat) : State :=
  let f := s.fn fn
  (s.setFn fn { f with badDoorbells := f.badDoorbells + 1 }).log 0x0601 fn (field * 65536 + low)

/-- A new tail for a descriptor ring (R254, R255): an invalid one puts the queue in ERROR. -/
def State.tailWrite (s : State) (fn field low : Nat) : State :=
  match s.queue (qKey fn field) with
  | none => s.badDoorbell fn field low
  | some q =>
    if q.error then s
    else
      let room := ringDist q.size q.tail ((q.oldest + q.size - 1) % q.size)
      let adv := ringDist q.size q.tail low
      if q.size ≤ low ∨ adv = 0 ∨ room < adv then (s.setQueue (qKey fn field) (some { q with error := true })).log 0x0603 fn field
      else s.setQueue (qKey fn field) (some { q with tail := low })

/-- A new head for a completion ring (R252, R261): one that names an entry not yet written is discarded and logged. -/
def State.headWrite (s : State) (fn field low : Nat) : State :=
  let key := qKey fn (field - 0x8000)
  match s.queue key with
  | none => s.badDoorbell fn field low
  | some q =>
    let adv := ringDist q.cqSize (q.cqHead % q.cqSize) low
    if q.cqSize ≤ low ∨ q.unread < adv then s.log 0x0604 fn (field - 0x8000)
    else (s.setQueue key (some { q with cqHead := q.cqHead + adv })).drain key

/-- A word of ADMIN_BASE (R252). -/
def State.adminBaseWord (s : State) (fn k low : Nat) : State :=
  let f := s.fn fn
  s.setFn fn { f with adminBase := BitVec.ofNat 64 (ofLe (patch (leBytes 8 f.adminBase.toNat) (2 * k) (leBytes 2 low))) }

/-- ADMIN_CTL (R253): a write whose base or LOGN does not suit is ignored and logged; ENABLE takes the admin region for the next turn; ENABLE clear forgets queue 0, with what its
commands were still to complete. A VF whose instance does not own it
has its write ignored and logged (R273). -/
def State.adminCtl (s : State) (fn low : Nat) : State :=
  let base := (s.fn fn).adminBase.toNat
  let logn := low % 16
  if !s.fnOwned fn then s.log 0x0602 fn (0xFFF40000 + low)
  else if base % 4096 ≠ 0 ∨ 8 < logn then s.log 0x0602 fn (0xFFF40000 + low)
  else if bitOf low 15 then
    let waiting := s.queues.changes.any (fun c => match c with | .create k _ => decide (k = qKey fn 0) | _ => false)
    if (s.queue (qKey fn 0)).isSome = true ∨ waiting = true then s.log 0x0602 fn (0xFFF40000 + low)
    else
      let q := Queue.make 0 (logn + 4) (logn + 4) 0 base (base + 32 * 2 ^ (logn + 4)) 0 1 0
      { s with queues := { s.queues with changes := s.queues.changes ++ [.create (qKey fn 0) q] } }
  else
    let s1 := s.forgetQueue (qKey fn 0)
    { s1 with queues := { s1.queues with
        changes := s1.queues.changes.filter (fun c => match c with | .create k _ => decide (k ≠ qKey fn 0) | _ => true),
        endings := s1.queues.endings.map (fun (e : Ending) => if e.adminKey = qKey fn 0 then { e with op := noOp } else e),
        due := s1.queues.due.filter (fun d => match d with
          | .finish k _ _ _ => decide (k ≠ qKey fn 0) | .query k _ _ _ => decide (k ≠ qKey fn 0) | .abort k _ _ _ => decide (k ≠ qKey fn 0)) } }

/-- One kept doorbell value of a PF1 function, applied at a sample (R252). -/
def State.applyDoorbell (s : State) (fn field low : Nat) : State :=
  if field < 0x1000 then s.tailWrite fn field low
  else if 0x8000 ≤ field ∧ field < 0x9000 then s.headWrite fn field low
  else if 0xFFF0 ≤ field ∧ field < 0xFFF4 then s.adminBaseWord fn (field - 0xFFF0) low
  else if field = 0xFFF4 then s.adminCtl fn low
  else s.badDoorbell fn field low

end Sys2Proof.Machine
end

