-- ==== Sys2Proof/Machine/NvmeOps.lean ====
section
/-!
DEFINITION. Shared operations of the storage functions (14): controllers and their queues, doorbells, completions, statuses, asynchronous
events, power states, fetching and checking commands, data at PRPs.
-/

namespace Sys2Proof.Machine

/-! ### Controllers -/

/-- A controller. -/
def State.ctl (s : State) (fn : Nat) : NvCtl := FMap.get NvCtl.reset s.sto.ctls fn

/-- Replace a controller. -/
def State.setCtl (s : State) (fn : Nat) (c : NvCtl) : State := { s with sto := { s.sto with ctls := FMap.set NvCtl.reset s.sto.ctls fn c } }

/-- Change a controller. -/
def State.modCtl (s : State) (fn : Nat) (f : NvCtl → NvCtl) : State := s.setCtl fn (f (s.ctl fn))

/-- I/O queue pairs that NVMEQ grants a controller: none on PF2 (R306). -/
def State.nvmeqOf (s : State) (fn : Nat) : Nat :=
  match fnInst fn with | some n => (match s.inst n with | some i => i.res.nvmeq | none => 0) | none => 0

/-- A submission queue of a controller. -/
def NvCtl.sq (c : NvCtl) (q : Nat) : Option NvSq := FMap.get none c.sqs q
/-- A completion queue of a controller. -/
def NvCtl.cq (c : NvCtl) (q : Nat) : Option NvCq := FMap.get none c.cqs q

/-- Whether a controller has any command outstanding other than Asynchronous Event Requests. -/
def NvCtl.busy (c : NvCtl) : Bool :=
  !c.outs.isEmpty || !c.settled.isEmpty || !c.due.isEmpty || c.setPower.isSome || c.fwWait.isSome

/-- A status: Status Code Type, Status Code, DNR. -/
def nvSt (sct sc : Nat) (dnr : Bool) : Nat := sc + 256 * sct + 16384 * b2n dnr

/-- The status that a code of R6 gives (R325). A code that no row of R325 names gives Internal Error (DESIGN CHOICE, log 40). -/
def nvStatusOf (status : Byte) : Nat :=
  match status.toNat with
  | 0 => 0
  | 1 => nvSt 0 0x07 false
  | 3 => nvSt 0 0x22 false
  | 8 => nvSt 0 0x04 false
  | 9 => nvSt 0 0x22 false
  | 0x10 => nvSt 0 0x22 false
  | 4 => nvSt 0 0x06 false
  | 5 => nvSt 0 0x06 false
  | 0x0C => nvSt 0 0x06 false
  | 0x0E => nvSt 0 0x06 false
  | 0x0A => nvSt 0 0x02 true
  | 0x0B => nvSt 0 0x01 true
  | 0x0F => nvSt 0 0x0C true
  | 0x11 => nvSt 0 0x0B true
  | 0x0D => nvSt 0 0x0B true
  | _ => nvSt 0 0x06 false

/-- A backend completion's status as it is passed through (R325): Status Code Type 3h becomes Transient Transport Error. -/
def nvPass (st : Nat) : Nat := if bits st 8 3 = 3 then nvSt 0 0x22 false else st

/-! ### Settling and completing (R299, R325) -/

/-- An Error Information entry for a failing completion; 64 entries are kept, newest first. -/
def NvCtl.logErr (c : NvCtl) (sqid : Nat) (cid : Half) (status lba : Nat) (nsid : Word) (loc : Nat) : NvCtl :=
  let e : NvErr := { sqid := sqid, cid := cid, status := BitVec.ofNat 16 (2 * status), lba := lba, nsid := nsid, loc := BitVec.ofNat 16 loc }
  { c with errors := (e :: c.errors).take 64, errCount := c.errCount + 1 }

/-- A command's outcome is settled: its completion entry waits for the commit. The parameter error location is a free value: R325 does not
say which field a failing check names (log 40). -/
def State.nvSettle (s0 : State) (fn sqid : Nat) (cid : Half) (op : Option Nat) (status : Nat) (dw0 : Word) (lba : Nat) (nsid : Word) : State :=
  let loc := Config.freeNat s0.freeCtr
  let s := s0.tickFree
  s.modCtl fn (fun c =>
    match c.sq sqid with
    | none => c
    | some q =>
      let d : NvDone := { cqid := q.cqid, sqid := sqid, cid := cid, sqhd := q.head, op := op, status := status, dw0 := dw0 }
      let c1 := { c with settled := c.settled ++ [d] }
      if status = 0 then c1 else c1.logErr sqid cid status lba nsid loc)

/-- A command in flight settles. -/
def State.nvFinishOut (s : State) (fn : Nat) (o : NvOut) (status : Nat) : State :=
  let blocks := o.bytes / 512
  let s1 := s.modCtl fn (fun c => { c with outs := c.outs.filter (fun (x : NvOut) => decide (x.op ≠ o.op)),
                                           unitsRead := if o.nvOp = 2 ∧ status = 0 then c.unitsRead + blocks else c.unitsRead,
                                           unitsWritten := if o.nvOp = 1 ∧ status = 0 then c.unitsWritten + blocks else c.unitsWritten,
                                           cmdsRead := if o.nvOp = 2 then c.cmdsRead + 1 else c.cmdsRead,
                                           cmdsWritten := if o.nvOp = 1 then c.cmdsWritten + 1 else c.cmdsWritten })
  s1.nvSettle fn o.sqid o.cid (some o.op) status 0 o.slba o.nsid

/-- A command of an operation. -/
def NvCtl.out? (c : NvCtl) (op : Nat) : Option NvOut := c.outs.find? (fun o => decide (o.op = op))

/-- Backend requests of an ended command are cancelled (R311); one not yet sent is dropped. -/
def State.cancelFor (s : State) (op : Nat) : State :=
  { s with sto := { s.sto with cmds := FMap.mapVals none (fun _ b => b.bind (fun (x : BackendCmd) => if x.req.op ≠ some op then some x else if x.sent.isNone then none else some { x with cancelled := true })) s.sto.cmds } }

/-- A command in flight is ended early with a status (R311): its backend requests are cancelled and its later arrivals discarded. -/
def State.nvEndOut (s : State) (fn : Nat) (o : NvOut) (status : Nat) : State :=
  let s1 := match o.waits with | some h => (s.cancelFor o.op).removeOwner h ownHost | none => s.cancelFor o.op
  let s2 := s1.nvFinishOut fn o status
  match s2.op o.op with | some p => s2.setOp o.op (some { p with dead := true }) | none => s2

/-- A command whose operation carries STALE_GENERATION ends without a completion (R281, R299). -/
def State.nvDropOut (s : State) (fn : Nat) (o : NvOut) : State :=
  let s1 := match o.waits with | some h => (s.cancelFor o.op).removeOwner h ownHost | none => s.cancelFor o.op
  (s1.modCtl fn (fun c => { c with outs := c.outs.filter (fun (x : NvOut) => decide (x.op ≠ o.op)) })).killOp o.op

/-- COMPLETE for a command in flight (R316, R325): a program's OK passes on the backend's first failing status in LBA order. -/
def nvOutStatus (o : NvOut) (status : Byte) : Nat :=
  if status ≠ 0 then nvStatusOf status
  else
    let fails := o.parts.filter (fun p => decide (p.2 ≠ 0))
    match fails with
    | [] => 0
    | p :: ps => (ps.foldl (fun (a b : Nat × Nat) => if b.1 < a.1 then b else a) p).2

/-- A COMPLETE names an operation of a controller. -/
def State.nvComplete (s : State) (n : Nat) (status : Byte) : State :=
  match s.op n with
  | none => s
  | some o =>
    if o.dead then s
    else match (s.ctl (keyFn o.key)).out? n with
      | some x => s.nvFinishOut (keyFn o.key) x (nvOutStatus x status)
      | none => s

/-- The 16 bytes of a completion entry (R299). -/
def nvEntry (d : NvDone) (phase : Bool) : List Byte :=
  leBytes 4 d.dw0.toNat ++ zeros 4 ++ leBytes 2 d.sqhd ++ leBytes 2 d.sqid ++ leBytes 2 d.cid.toNat ++ leBytes 2 (b2n phase + 2 * d.status)

/-- An operation of a completed command is freed, or when its last request has ended. -/
def State.nvFreeOp (s : State) (op : Option Nat) : State := match op with | some n => s.killOp n | none => s

/-- Write one settled completion when its queue has room; else it waits. -/
def State.nvWrite (s : State) (fn : Nat) (d : NvDone) : State :=
  let c := s.ctl fn
  match c.cq d.cqid with
  | none => s.nvFreeOp d.op
  | some q =>
    if q.size ≤ q.next - q.head then s.setCtl fn { c with settled := c.settled ++ [d] }
    else
      let phase := decide (q.next / q.size % 2 = 0)
      let q1 := { q with next := q.next + 1, pendCount := q.pendCount + b2n q.ien, pendSince := if q.pendCount = 0 then s.time.tick else q.pendSince }
      let s1 := s.setCtl fn { c with cqs := FMap.set none c.cqs d.cqid (some q1) }
      ((s1.hostWrite fn (q.base + q.next % q.size * 16) (nvEntry d phase)).hostUse fn).nvFreeOp d.op

/-- Write a controller's settled completions in the order in which they settled, as far as there is room. -/
def State.nvDrain (s : State) (fn : Nat) : State :=
  let c := s.ctl fn
  let s1 := c.settled.foldl (fun s d => s.nvWrite fn d) (s.setCtl fn { c with settled := [] })
  let c1 := s1.ctl fn
  if c.busy && !c1.busy then s1.setCtl fn { c1 with idleSince := s1.time.tick + 1 } else s1

/-- Request the messages that are due (R270, R306). -/
def State.nvModerate (s : State) (fn : Nat) : State :=
  (s.ctl fn).cqs.foldl (fun s e => match (s.ctl fn).cq e.1 with
    | some q =>
      if 0 < q.pendCount ∧ (q.modCount ≤ q.pendCount ∨ q.modTicks = 0 ∨ q.pendSince + q.modTicks ≤ s.time.tick) then
        (s.modCtl fn (fun c => { c with cqs := FMap.set none c.cqs e.1 (some { q with pendCount := 0 }) })).msix fn q.iv
      else s
    | none => s) s

/-! ### Asynchronous events (R300, R308) -/

/-- Whether an instance is quiescent (R286): it is frozen, holds no operation and has no completion to write, and its VFs have no request outstanding
and none held. -/
def State.quiescent (s : State) (n : Nat) : Bool :=
  s.isFrozen n && decide (s.opsOf (BitVec.ofNat 16 n) = 0) && (s.ctl (vfSto n)).settled.isEmpty &&
    [vfNet n, vfSto n].all (fun fn => !s.fnBusy fn && (s.fn fn).held.isEmpty)

/-- Whether a controller's instance is quiescent, so that nothing is written on its behalf. -/
def State.quietCtl (s : State) (fn : Nat) : Bool := match fnInst fn with | some n => s.quiescent n | none => false

/-- Post an event: the oldest request completes with it and PF2's PME source fires; with none outstanding it is kept, when `keep` says so. One that meets
a request of a quiescent controller is kept until the thaw (R286). -/
def State.nvEvent (s : State) (fn : Nat) (dw0 : Nat) (keep : Bool) : State :=
  let c := s.ctl fn
  match c.aers with
  | cid :: rest =>
    if s.quietCtl fn then s.setCtl fn { c with events := c.events ++ [dw0] }
    else ((s.setCtl fn { c with aers := rest }).nvSettle fn 0 cid none 0 (BitVec.ofNat 32 dw0) 0 0).pme 2
  | [] => if keep then s.setCtl fn { c with events := c.events ++ [dw0] } else s

/-- After a thaw, kept events complete the requests that are outstanding. -/
def State.nvFlush (s : State) (fn : Nat) : State :=
  let c := s.ctl fn
  let n := min c.events.length c.aers.length
  (c.events.take n).foldl (fun (s : State) e => s.nvEvent fn e true) (s.setCtl fn { c with events := c.events.drop n })

/-- Invalid Doorbell Register, and Invalid Doorbell Write Value: Error events, log page 01h. -/
def evtBadRegister : Nat := 65536
/-- Invalid Doorbell Write Value. -/
def evtBadValue : Nat := 256 + 65536
/-- Firmware Activation Starting: a Notice, log page 03h. -/
def evtActivation : Nat := 2 + 256 + 65536 * 3

/-! ### Power states (R312 to R315) -/

/-- ENLAT of a power state in microseconds. -/
def psEnlat (p : Nat) : Nat := match p with | 0 => 0 | 1 => 10 | 2 => 50 | _ => 1000
/-- EXLAT of a power state in microseconds. -/
def psExlat (p : Nat) : Nat := match p with | 0 => 0 | 1 => 10 | 2 => 100 | _ => 5000
/-- Commands fetched per tick. -/
def psFetch (p : Nat) : Nat := match p with | 0 => 64 | 1 => 16 | 2 => 4 | _ => 0
/-- Backend queues used per backend. -/
def psQueues (p : Nat) : Nat := match p with | 0 => 4 | 1 => 2 | 2 => 1 | _ => 0
/-- Commands outstanding per backend. -/
def psOutstanding (p : Nat) : Nat := match p with | 0 => 128 | 1 => 32 | 2 => 8 | _ => 0

/-- Whole ticks of a latency in microseconds. -/
def State.usTicks (s : State) (us : Nat) : Nat := ticksOf s.time.period (us * 1000)

/-- The default APST table (R314): entry k holds ITPT in [31:8] and ITPS in [7:3]. -/
def defaultApst : List Byte := leBytes 8 (50 * 256 + 8) ++ leBytes 8 (500 * 256 + 16) ++ leBytes 8 (5000 * 256 + 24) ++ zeros 232

/-- A controller's APST table. -/
def NvCtl.apstTable (c : NvCtl) : List Byte := if c.apst = [] then defaultApst else c.apst

/-- The pending Set Features Power Management completes. -/
def State.nvPowerSet (s : State) (fn : Nat) : State :=
  match (s.ctl fn).setPower with
  | some (cid, op) => (s.modCtl fn (fun c => { c with setPower := none })).nvSettle fn 0 cid (some op) 0 0 0 0
  | none => s

/-- A command has been submitted to a controller in PS3: an exit to the most recent operational state starts. -/
def State.nvWake (s : State) (fn : Nat) : State :=
  let c := s.ctl fn
  if c.enabled && decide (c.ps = 3) && c.trans.isNone then
    s.setCtl fn { c with trans := some { source := 3, target := c.lastOper, endTick := s.time.tick + s.usTicks (psExlat 3) - 1, leaving := true } }
  else s

/-- Whether an entry to a lower state is cancelled by a command (R315: RUNNING, DEGRADED, REPAIR_UNMANAGED). -/
def State.cancelsEntry (s : State) : Bool := s.dev.state ∈ [2, 3, 5]

/-- A command is fetched while its controller enters a lower state: the entry is cancelled, or goes on (R315). -/
def State.nvMeetEntry (s : State) (fn : Nat) : State :=
  match (s.ctl fn).trans with
  | some t => if !t.leaving && s.cancelsEntry then (s.modCtl fn (fun c => { c with trans := none, idleSince := s.time.tick })).nvPowerSet fn else s
  | none => s

/-! ### Doorbells (R297, R298, R300) -/

/-- A new submission tail. -/
def State.nvTail (s : State) (fn field low : Nat) : State :=
  let c := s.ctl fn
  match c.sq field with
  | none => (s.badDoorbell fn field low).nvEvent fn evtBadRegister false
  | some q =>
    if q.error then s
    else
      let adv := ringDist q.size q.tail low
      if q.size ≤ low ∨ adv = 0 ∨ ringDist q.size q.tail ((q.head + q.size - 1) % q.size) < adv then
        ((s.setCtl fn { c with sqs := FMap.set none c.sqs field (some { q with error := true }) }).log 0x0603 fn field).nvEvent fn evtBadValue false
      else (s.setCtl fn { c with sqs := FMap.set none c.sqs field (some { q with tail := low }) }).nvWake fn

/-- A new completion head. -/
def State.nvHead (s : State) (fn field low : Nat) : State :=
  let c := s.ctl fn
  match c.cq (field - 0x8000) with
  | none => (s.badDoorbell fn field low).nvEvent fn evtBadRegister false
  | some q =>
    if q.size ≤ low then (s.log 0x0604 fn (field - 0x8000)).nvEvent fn evtBadRegister false
    else
      let adv := ringDist q.size (q.head % q.size) low
      if q.next - q.head < adv then (s.log 0x0604 fn (field - 0x8000)).nvEvent fn evtBadValue false
      else s.setCtl fn { c with cqs := FMap.set none c.cqs (field - 0x8000) (some { q with head := q.head + adv }) }

/-- ADMIN_CTL of a controller: enabling waits for the turn, and so does a controller reset. -/
def State.nvAdminCtl (s : State) (fn low : Nat) : State :=
  let base := (s.fn fn).adminBase.toNat
  let waiting := s.queues.changes.any (fun c => match c with | .create k _ => decide (k = qKey fn 0) | _ => false)
  if !s.fnOwned fn then s.log 0x0602 fn (0xFFF40000 + low)
  else if base % 4096 ≠ 0 ∨ 8 < low % 16 then s.log 0x0602 fn (0xFFF40000 + low)
  else if bitOf low 15 then
    if (s.ctl fn).enabled = true ∨ waiting = true then s.log 0x0602 fn (0xFFF40000 + low)
    else
      let n := low % 16 + 4
      { s with queues := { s.queues with changes := s.queues.changes ++ [.create (qKey fn 0) (Queue.make 0 n n 0 base (base + 64 * 2 ^ n) 0 1 0)] } }
  else { s with queues := { s.queues with changes := s.queues.changes ++ [.ctlReset fn] } }

/-- One kept doorbell value of a PF2 function, applied at a sample. -/
def State.applyNvDoorbell (s : State) (fn field low : Nat) : State :=
  if field < 0x1000 then s.nvTail fn field low
  else if 0x8000 ≤ field ∧ field < 0x9000 then s.nvHead fn field low
  else if 0xFFF0 ≤ field ∧ field < 0xFFF4 then s.adminBaseWord fn (field - 0xFFF0) low
  else if field = 0xFFF4 then s.nvAdminCtl fn low
  else (s.badDoorbell fn field low).nvEvent fn evtBadRegister false

/-- A controller is enabled at the turn: its admin queues stand in the admin region. -/
def State.nvEnable (s : State) (fn : Nat) (q : Queue) : State :=
  let sq : NvSq := { cqid := 0, prio := 0, size := q.size, base := q.desc, head := 0, tail := 0, error := false, aborted := [] }
  let cq : NvCq := { iv := 0, ien := true, size := q.size, base := q.cq, next := 0, head := 0, modTicks := 0, modCount := 1, pendCount := 0, pendSince := 0 }
  s.modCtl fn (fun c => { c with enabled := true, adminBase := q.desc, logn := q.logn - 4, sqs := FMap.set none c.sqs 0 (some sq),
                                 cqs := FMap.set none c.cqs 0 (some cq), idleSince := s.time.tick + 1, everIo := false })

/-- A controller reset, also by an FLR (R298, R201): its queues and outstanding commands are forgotten and nothing is written; features and
power state return to their defaults, and the queue allocation to NVMEQ. -/
def State.nvReset (s : State) (fn : Nat) : State :=
  let c := s.ctl fn
  let s1 := c.outs.foldl (fun s o =>
    let s' := match o.waits with | some h => (s.cancelFor o.op).removeOwner h ownHost | none => s.cancelFor o.op
    s'.killOp o.op) s
  let s2 := c.settled.foldl (fun s d => s.nvFreeOp d.op) s1
  let s2a := match c.setPower with | some p => s2.killOp p.2 | none => s2
  let s2b := match c.fwWait with | some p => s2a.killOp p.2 | none => s2a
  let s3 := c.due.foldl (fun s d => match d with | .abort _ op _ _ => s.killOp op | .deleteSq _ op _ => s.killOp op) s2b
  s3.setCtl fn { NvCtl.reset with nsq := s3.nvmeqOf fn, ncq := s3.nvmeqOf fn, unitsRead := c.unitsRead, unitsWritten := c.unitsWritten, cmdsRead := c.cmdsRead,
                                  cmdsWritten := c.cmdsWritten, mediaErrors := c.mediaErrors, busyNs := c.busyNs, errors := c.errors,
                                  errCount := c.errCount }

/-! ### Fetching a command (R299, R305, R309, R313) -/

/-- A list of numbers made `n` long with zeros. -/
def padNat (n : Nat) (l : List Nat) : List Nat := (List.range n).map (fun i => l.getD i 0)
/-- A list of visits made `n` long with empty ones. -/
def padVisits (n : Nat) (l : List (Nat × Nat)) : List (Nat × Nat) := (List.range n).map (fun i => l.getD i (0, 0))

/-- The I/O submission queues of a priority class (0 urgent, 1 high, 2 medium, 3 low) in which a command waits, ascending (R309). -/
def NvCtl.waiting (c : NvCtl) (p : Nat) : List Nat :=
  c.sqs.filterMap (fun e => match e.2 with
    | some q => if e.1 ≠ 0 ∧ q.prio = p ∧ q.error = false ∧ q.head ≠ q.tail then some e.1 else none
    | none => none)

/-- Credits of a class per round: HPW + 1, MPW + 1 or LPW + 1 commands (R309). -/
def NvCtl.weight (c : NvCtl) (p : Nat) : Nat := bits c.arb.toNat (8 * (4 - p)) 8 + 1

/-- Whether a class has credits left in this round. -/
def NvCtl.credit (c : NvCtl) (p : Nat) : Bool := decide (c.used.getD (p - 1) 0 < c.weight p)

/-- Whether the arbitration serves a class now (R309): the urgent one first; of the others one with credits left, or, when none with a
command waiting has any, whichever opens the next round. -/
def NvCtl.classTurn (c : NvCtl) (p : Nat) : Bool :=
  decide (p = 0) || ((c.waiting 0).isEmpty && (c.credit p || [1, 2, 3].all (fun k => (c.waiting k).isEmpty || !c.credit k)))

/-- Whether a class's present visit to a queue goes on: fewer than 2^AB commands, without limit when AB is 7. -/
def NvCtl.visiting (c : NvCtl) (p sqid : Nat) : Bool :=
  let v := c.visits.getD p (0, 0)
  let ab := bits c.arb.toNat 0 3
  decide (v.1 = sqid) && (decide (ab = 7) || decide (v.2 < 2 ^ ab))

/-- The queue of a class that is served next: the one being visited while its visit goes on, else the next one in ascending order (R309,
log 37). -/
def NvCtl.queueTurn (c : NvCtl) (p : Nat) : Option Nat :=
  let w := c.waiting p
  match w.find? (c.visiting p) with
  | some q => some q
  | none => (match w.find? (fun q => decide ((c.visits.getD p (0, 0)).1 < q)) with | some q => some q | none => w.head?)

/-- Positions and credits after a command of an I/O queue has been fetched (R309). -/
def NvCtl.arbitrated (c : NvCtl) (p sqid : Nat) : NvCtl :=
  let v := if c.visiting p sqid then (sqid, (c.visits.getD p (0, 0)).2 + 1) else (sqid, 1)
  let u := if c.credit p then (padNat 3 c.used) else [0, 0, 0]
  { c with visits := (padVisits 4 c.visits).set p v, used := if p = 0 then c.used else u.set (p - 1) (u.getD (p - 1) 0 + 1) }

/-- A queue from which a command of a controller can be fetched now (R309, R313). -/
def State.nvFetchable (s : State) (fn sqid : Nat) : Option NvSq :=
  let c := s.ctl fn
  match c.sq sqid with
  | some q =>
    if c.enabled && fnSto fn && s.fnServed fn && s.mayFetch fn && !q.error && decide (q.head ≠ q.tail) &&
       (decide (sqid = 0) || (decide (c.fetched < psFetch c.ps) && c.classTurn q.prio && decide (c.queueTurn q.prio = some sqid))) then some q
    else none
  | none => none

/-- Whether a CID is outstanding on a submission queue (R305 step 1). -/
def NvCtl.cidUsed (c : NvCtl) (sqid : Nat) (cid : Half) : Bool :=
  c.outs.any (fun o => decide (o.sqid = sqid) && decide (o.cid = cid)) || c.settled.any (fun d => decide (d.sqid = sqid) && decide (d.cid = cid)) ||
    (decide (sqid = 0) && (c.aers.contains cid || (match c.setPower with | some p => decide (p.1 = cid) | none => false) ||
      c.due.any (fun d => match d with | .abort x _ _ _ => decide (x = cid) | .deleteSq x _ _ => decide (x = cid))))

/-- Steps 1 and 2 of R305: the status of a command that fails them; and of one with an opcode that no row has (R303, R304). -/
def nvBasic (c : NvCtl) (k : NvCmd) : Option Nat :=
  if c.cidUsed k.sqid k.cid then some (nvSt 0 0x03 true)
  else if k.fuse ≠ 0 ∨ k.psdt ≠ 0 ∨ k.reserved = true then some (nvSt 0 0x02 true)
  else if k.opcode.isSome then some (nvSt 0 0x01 true) else none

/-- An offer deferred because the operation table, or the instance's share of it, is full (R10, R277). -/
def State.deferNv (s : State) (fn : Nat) : State :=
  match fnInst fn with
  | some n => s.modInstCtr n (fun c => { c with opsWait := c.opsWait + 1 })
  | none => s

/-- A command is fetched: the queue's head moves on. A command that was aborted before is passed over (R311). `run` is given the operation
that the command takes, none for one that takes none. A command for which no operation is free stays in its ring (R10, R277). -/
def State.nvFetch (s : State) (k : NvCmd) (takesOp : Bool) (run : State → Option Nat → State) : State :=
  match s.nvFetchable k.ctl k.sqid with
  | none => s
  | some q =>
    let step := fun (s : State) (q : NvSq) => (s.nvMeetEntry k.ctl).modCtl k.ctl (fun c =>
      let d := if k.sqid = 0 then c else { c.arbitrated q.prio k.sqid with fetched := c.fetched + 1 }
      { d with sqs := FMap.set none c.sqs k.sqid (some q) })
    let q1 := { q with head := (q.head + 1) % q.size }
    if q.aborted.contains k.cid then step s { q1 with aborted := q.aborted.erase k.cid }
    else if !takesOp then
      (match nvBasic (s.ctl k.ctl) k with
       | some st => (step s q1).nvSettle k.ctl k.sqid k.cid none st 0 0 k.nsid
       | none => run (step s q1) none)
    else if !s.opRoom (fnInstHalf k.ctl) then s.deferNv k.ctl
    else match s.freeOp with
      | none => s.deferNv k.ctl
      | some op =>
        let o : Operation := { key := qKey k.ctl k.sqid, inst := fnInstHalf k.ctl, gen := s.fnGen k.ctl, arg := [], kind := 0, dead := false, handle := 0, len := 0 }
        let s1 := (step s q1).setOp op (some o)
        match nvBasic (s.ctl k.ctl) k with
        | some st => s1.nvSettle k.ctl k.sqid k.cid (some op) st 0 0 k.nsid
        | none => run s1 (some op)

/-! ### Data at PRPs (R305) -/

/-- Bytes written at a list of pages, each from its offset to the end of its 4 KiB page. -/
def prpWrite (fn : Nat) : State → List Nat → List Byte → State
  | s, [], _ => s
  | s, a :: rest, bs =>
    if bs.isEmpty then s
    else
      let n := min bs.length (4096 - a % 4096)
      prpWrite fn (s.dataWrite fn a (bs.take n)) rest (bs.drop n)

/-- Data that a command returns, written at its PRPs. -/
def State.nvData (s : State) (k : NvCmd) (bs : List Byte) : State := prpWrite k.ctl s (k.prp1.toNat :: k.prps.map BitVec.toNat) bs

/-- Whether some PRP entry other than PRP1 has an offset (R305 step 6). -/
def prpBad (k : NvCmd) : Bool := k.prps.any (fun p => decide (p.toNat % 4096 ≠ 0))

end Sys2Proof.Machine
end

