-- ==== Sys2Proof/Machine/Tables.lean ====
section
/-!
DEFINITION. Table lookups (06 R120 to R129): what a lookup of a key finds, how many DRAM accesses it needs, and its counters.
-/

namespace Sys2Proof.Machine

/-- KIND of an action word (R114). -/
def actKind (a : Word) : Nat := bits a.toNat 0 4
/-- FINAL of an action word. -/
def actFinal (a : Word) : Bool := bitOf a.toNat 4
/-- NDATA of an action word. -/
def actNdata (a : Word) : Nat := bits a.toNat 5 3
/-- CDST of an action word. -/
def actCdst (a : Word) : Nat := bits a.toNat 8 5
/-- ENTRY of an action word. -/
def actEntry (a : Word) : Nat := bits a.toNat 13 4
/-- PARAM of an action word. -/
def actParam (a : Word) : Nat := bits a.toNat 17 10

/-- The number of lines of an EXACT table as a power of two: n of R123. -/
def lineBits (capacity : Nat) : Nat := Nat.log2 capacity

/-- H1 of R123: the hash of the key padded to 16 or 40 bytes, with TSEED as the seed. -/
def exactHash (t : Table) (key : List Byte) : Nat :=
  (crc t.tseed (padTo (if t.keylen ≤ 16 then 16 else 40) (padTo t.keylen key))).toNat

/-- The primary line of a key (R123). -/
def primaryLine (t : Table) (key : List Byte) : Nat := exactHash t key % 2 ^ lineBits t.capacity

/-- The secondary line of a key (R123). -/
def secondaryLine (t : Table) (key : List Byte) : Nat :=
  (primaryLine t key ^^^ (exactHash t key / 65536 ||| 1)) % 2 ^ lineBits t.capacity

/-- Whether an entry lies in its secondary line. -/
def inSecondary (t : Table) (e : Entry) : Bool :=
  match e.place with
  | .line n _ => decide (n ≠ primaryLine t e.key)
  | _ => false

/-- The overflow bit of a line (R123): some key whose primary line it is lies in its secondary line. -/
def overflowBit (t : Table) (p : Nat) : Bool := t.entries.any (fun e => decide (primaryLine t e.key = p) && inSecondary t e)

/-- Whether the first `n` bits of two keys agree. -/
def sameBits : List Byte → List Byte → Nat → Bool
  | a :: as, b :: bs, n =>
    if n = 0 then true
    else if 8 ≤ n then decide (a = b) && sameBits as bs (n - 8)
    else decide (a >>> (8 - n) = b >>> (8 - n))
  | _, _, _ => true

/-- Whether a bit pattern of `w` bits is ones followed by zeros. -/
def isPrefixMask (w m : Nat) : Bool := (List.range (w + 1)).any (fun k => decide (m = 2 ^ w - 2 ^ (w - k)))

/-- Whether a TREE rule's field matches a key's field (R126, R236). A field wider than 4 bytes is a prefix. A field of 4 bytes or fewer
is a prefix when KEY2 is a prefix mask that covers the value, and a range with high bound KEY2 otherwise (DESIGN CHOICE, log 24). -/
def treeField (w v k2 x : Nat) : Bool :=
  if isPrefixMask (8 * w) k2 && decide (v &&& k2 = v) then decide (x &&& k2 = v)
  else if w ≤ 4 then decide (v ≤ x) && decide (x ≤ k2)
  else decide (x &&& k2 = v &&& k2)

/-- Whether a TREE rule matches a key (R126). -/
def treeMatch (fields : List (Nat × Nat)) (e : Entry) (key : List Byte) : Bool :=
  fields.all (fun f => decide (f.2 = 0) || treeField f.2 (fieldBe e.key f.1 f.2) (fieldBe e.key2 f.1 f.2) (fieldBe key f.1 f.2))

/-- The better of two TREE rules: the lower priority value, then the lower rule number (R126). -/
def treeBetter (a b : Entry) : Entry := if a.prio < b.prio ∨ (a.prio = b.prio ∧ a.num ≤ b.num) then a else b

/-- The best of the rules in a list. -/
def treeBest : List Entry → Option Entry
  | [] => none
  | e :: es => match treeBest es with | none => some e | some b => some (treeBetter e b)

/-- The longer of the prefixes in a list. -/
def lpmBest : List Entry → Option Entry
  | [] => none
  | e :: es => match lpmBest es with | none => some e | some b => some (if b.num ≤ e.num then e else b)

/-- The position of a range among the ranges of its table in ascending order of low bound (R129). -/
def rangePos (t : Table) (lo : Nat) : Nat := (t.entries.filter (fun e => decide (fieldBe e.key 0 4 < lo))).length

/-- What a lookup finds: the entry and MATCH of R129. -/
def tableFind (t : Table) (key : List Byte) : Option (Entry × Nat) :=
  match t.type with
  | .exact => (t.entries.find? (fun e => decide (slice e.key 0 t.keylen = slice key 0 t.keylen))).map (fun e => (e, 0))
  | .lpm => (lpmBest (t.entries.filter (fun e => sameBits (slice e.key 0 t.keylen) (slice key 0 t.keylen) e.num))).map (fun e => (e, e.num))
  | .tree => (treeBest (t.entries.filter (fun e => treeMatch t.fields e key))).map (fun e => (e, e.num))
  | .range =>
    let x := fieldBe key 0 4
    (t.entries.find? (fun e => decide (fieldBe e.key 0 4 ≤ x) && decide (x ≤ fieldBe e.key2 0 4))).map
      (fun e => (e, rangePos t (fieldBe e.key 0 4)))
  | .direct =>
    let i := fieldBe key 0 t.keylen
    if i < t.capacity then
      (t.entries.find? (fun e => decide (fieldBe e.key 0 t.keylen = i) && decide (actKind e.action ≠ 0))).map (fun e => (e, 0))
    else none

/-- Whether an EXACT lookup reads the secondary line: the key is neither in its primary line nor in the stash, and the overflow bit is 1
(R123). -/
def readsSecond (t : Table) (key : List Byte) : Bool :=
  decide (t.type = .exact) &&
    (match tableFind t key with
     | some (e, _) => inSecondary t e
     | none => overflowBit t (primaryLine t key))

/-- The DRAM-resident lines that a lookup reads, in order (R121, R123, R128): those of EXACT and DIRECT tables in DRAM, and the nodes below
the first level of every LPM table; each as table, kind and number; a key found in the stash costs
none. -/
def tableLines (tab : Nat) (t : Table) (key : List Byte) : List (List Nat) :=
  match t.type with
    | .exact =>
      if t.resident then [] else
      let p := [tab, 0, primaryLine t key]
      let q := [tab, 0, secondaryLine t key]
      (match tableFind t key with
       | some (e, _) => if e.place = .stash then [] else if inSecondary t e then [p, q] else [p]
       | none => if overflowBit t (primaryLine t key) then [p, q] else [p])
    | .lpm =>
      (match tableFind t key with
       | some (e, _) =>
         let n := if t.keylen = 4 then b2n (decide (16 < e.num)) + b2n (decide (24 < e.num)) else min 4 ((e.num - 1) / 16)
         (List.range n).map (fun i => [tab, 1, Config.lpmLine tab i key])
       | none => [])
    | .direct => if !t.resident && decide (fieldBe key 0 t.keylen < t.capacity) then [[tab, 2, fieldBe key 0 t.keylen / 2]] else []
    | _ => []

/-- The lines of the hot cache that resident EXACT tables take, in whole sets of 16 (R130). -/
def ClsConfig.residentLines (c : ClsConfig) : Nat :=
  ((c.tables.map (fun e => match e.2 with
    | some t => if t.resident && decide (t.type = .exact) then (t.capacity + 15) / 16 * 16 else 0
    | none => 0)).foldl (· + ·) 0)

/-- The sets that are left to the hot cache, of 16 lines of 64 bytes each. -/
def State.cacheSets (s : State) : Nat := (s.cls.tablePlan.getD 8 0 * 16 - s.cls.cur.residentLines) / 16

/-- One line is read: whether the hot cache held it. It becomes the last used of its set, and the least recently used of 17 goes (R130). -/
def State.touchLine (s : State) (line : List Nat) : Bool × State :=
  if s.cacheSets = 0 then (false, s)
  else
    let k := Config.cacheSet s.cacheSets line % s.cacheSets
    let ls := FMap.get [] s.cls.cache k
    let new := (line :: ls.filter (fun l => decide (l ≠ line))).take 16
    (ls.contains line, { s with cls := { s.cls with cache := FMap.set [] s.cls.cache k new } })

/-- Read lines, each from the hot cache or by a DRAM read (R130). Gives the DRAM reads. -/
def serveLines (tab : Nat) : List (List Nat) → State → Nat × State
  | [], s => (0, s)
  | l :: ls, s =>
    let (hit, s1) := s.touchLine l
    let c := s1.cls
    if hit then serveLines tab ls { s1 with cls := { c with cacheHits := bump c.cacheHits tab 1 } }
    else
      let (r, s2) := serveLines tab ls { s1 with cls := { c with dramReads := bump c.dramReads tab 1 } }
      (r + 1, s2)

/-- One lookup with its counters (R142): what it finds and the DRAM reads it made. -/
def State.lookup (s : State) (tab : Nat) (t : Table) (key : List Byte) : Option (Entry × Nat) × Nat × State :=
  let found := tableFind t key
  let (reads, s1) := serveLines tab (tableLines tab t key) s
  let c := s1.cls
  (found, reads,
    { s1 with cls := { c with lookups := bump c.lookups tab 1, hits := bump c.hits tab (b2n found.isSome),
                              secondReads := bump c.secondReads tab (b2n (readsSecond t key)),
                              readsUsed := c.readsUsed + reads } })

/-- What a failed check makes of a lookup (R365, R367, R372): whether the access fails, whether it finds nothing, the further DRAM reads, and the state. A
line matters only to a lookup that reads DRAM; its first read may fail and the repeat pass. -/
def State.lookupCheck (s : State) (tab : Nat) (reads : Nat) (x : Option LookupFail) : Bool × Bool × Nat × State :=
  match x with
  | none => (false, false, 0, s)
  | some (.store m w) => (false, true, 0, s.wordFailed m w)
  | some (.line n first again) =>
    if reads = 0 ∨ lineHolds (64 * n) first = true then (false, false, 0, s)
    else
      let s1 := { s with cls := { s.cls with dramReads := bump s.cls.dramReads tab 1, readsUsed := s.cls.readsUsed + 1 } }
      if lineHolds (64 * n) again then (false, false, 1, s1) else (true, true, 1, s1.lineFailed (64 * n))

/-- A lookup whose words and lines are checked: whether the access failed, what it finds, the DRAM reads, the state. -/
def State.lookupChecked (s : State) (tab : Nat) (t : Table) (key : List Byte) (x : Option LookupFail) : Bool × Option (Entry × Nat) × Nat × State :=
  let (found, reads, s1) := s.lookup tab t key
  let (failed, miss, more, s2) := s1.lookupCheck tab reads x
  if miss then
    (failed, none, reads + more, { s2 with cls := { s2.cls with hits := FMap.set 0 s2.cls.hits tab (FMap.get 0 s2.cls.hits tab - b2n found.isSome) } })
  else (failed, found, reads + more, s2)

/-- The table of a number in a version. -/
def ClsConfig.table (c : ClsConfig) (n : Nat) : Option Table := FMap.get none c.tables n

/-- DRAM reads allotted to one tick (R131): 3.0 × 10^9 per second with four channels, 2.25 × 10^9 with three. -/
def State.readAllotment (s : State) : Nat :=
  (if s.channelsInService = 4 ∧ s.repair.moving = none then 3000 else 2250) * periodNs s.time.period / 1000

end Sys2Proof.Machine
end

