-- ==== Sys2Proof/Machine/Packet.lean ====
section
/-!
DEFINITION. Meanings of the engines' packet instructions (R50 to R52): PKSEL, BFALLOC, BFOWN, BFFREE, ENQ (R165, R166), POST (R51, R271)
and TLKP (R129).
-/

namespace Sys2Proof.Machine

/-- PKSEL (R50, R67): the arrival must exist and have a buffer. -/
def execPksel (i : Issue) (rs1 : Fin 32) (s : State) : Answer :=
  .next (s.issue i (fun s pe k c =>
    let n := ((s.thr pe k).reg rs1.val).toNat
    match (s.eng pe).itemOf k with
    | none => s
    | some it =>
      match it.arrivals[n]? with
      | some a =>
        if a.handle = 0 then s.faultFree pe k 6 else s.retire i c 2 (s.nextPc i) (fun t => { t with sel := some n })
      | none => s.faultFree pe k 6))

/-! ### Buffers -/

/-- BFALLOC (R50, R152, R154): bit 31 of rs1 asks for the spill pool. -/
def execBfalloc (i : Issue) (rd rs1 : Fin 32) (s : State) (entryBad : Bool := false) : Answer :=
  .next (s.issue i (fun s pe k c =>
    let v := ((s.thr pe k).reg rs1.val).toNat
    match (s.eng pe).itemOf k with
    | none => s
    | some it =>
      match s.allocChecked entryBad (v % 2 ^ 31) (bitOf v 31) it.owner with
      | (some h, s1) => (if k = 0 then s1.modThr pe 0 (fun t => { t with took := h :: t.took }) else s1).writeBack i c 8 rd.val h
      | (none, s1) =>
        { s1 with pools := { s1.pools with engNoBuf := bump s1.pools.engNoBuf it.inst.toNat 1 } }.writeBack i c 8 rd.val 0))

/-- BFOWN (R50, R148): only a keep name, on a live handle. -/
def execBfown (i : Issue) (rd rs1 rs2 : Fin 32) (s : State) : Answer :=
  .next (s.issue i (fun s pe k c =>
    let t := s.thr pe k
    let h := t.reg rs1.val
    let v := (t.reg rs2.val).toNat
    if !s.isLive h || decide (65536 ≤ v) || !isKeep (BitVec.ofNat 16 v) then s.faultFree pe k 6
    else match s.addOwner h (BitVec.ofNat 16 v) with
      | some s1 => s1.writeBack i c 8 rd.val 0
      | none => s.writeBack i c 8 rd.val 9))

/-- Whether a name is on the owner list of a live handle. -/
def State.ownedBy (s : State) (h : Word) (name : Half) : Bool :=
  match s.liveEnt h with | some e => e.owners.contains name && decide (name ≠ 0) | none => false

/-- BFFREE (R50, R52, R149): the name must be on the list now; the removal happens at commit. A refusal counts and is logged. A control entry that
cannot be read withdraws its buffer, and the item ends CONTROL_CHECK (R157, R365, R372). -/
def execBffree (i : Issue) (rd rs1 rs2 : Fin 32) (s : State) (entryBad : Bool := false) : Answer :=
  .next (s.issue i (fun s pe k c =>
    let t := s.thr pe k
    let h := t.reg rs1.val
    let v := (t.reg rs2.val).toNat
    if entryBad && s.isLive h then (s.loseEntry h).checkFault pe k h
    else if 65536 ≤ v ∨ s.ownedBy h (BitVec.ofNat 16 v) = false then
      ((s.modPool (hPool h) (fun p => { p with foreign := p.foreign + 1 })).log 0x0701 h.toNat (v % 65536)).faultFree pe k 6
    else
      (s.modThr pe k (fun t => { t with effects := t.effects ++ [.free h (BitVec.ofNat 16 v)] })).writeBack i c 8 rd.val 0))

/-! ### Blocks in the data store -/

/-- The cause of R38 for a block of `n` bytes that must lie in the 32 KiB data store at an `n`-byte boundary. -/
def blockCause (a n : Nat) : Option Nat :=
  if a % n ≠ 0 then some 2 else if 0x10000 ≤ a ∧ a < 0x18000 then none else some 3

/-- `n` bytes of an engine's data store. -/
def State.storeBytes (s : State) (pe a n : Nat) : List Byte := Mem.rdN (s.eng pe).store a n

/-! ### ENQ (R165, R166) -/

/-- The enqueue block's fields as a queued frame. -/
def enqFrame (h : Word) (b : List Byte) : QFrame :=
  { handle := h, len := fieldLe b 2 2, off := fieldLe b 4 2, edit := fieldLe b 6 2, flags := BitVec.ofNat 8 (fieldLe b 8 1),
    l3at := fieldLe b 9 1, l4at := fieldLe b 10 1, tsat := fieldLe b 11 1, arg := BitVec.ofNat 32 (fieldLe b 12 4), cap := none,
    icrc := false, built := .buffer }

/-- What ENQ captures of the selected arrival's header vector: TS_SEC, TS_NS, TS_FRAC and the whole vector (R107, R166). -/
def capture (a : Arrival) : HvCap :=
  { sec := Mem.rdLe a.hv 0x0C 4 + 2 ^ 32 * Mem.rdLe a.hv 0x10 2, ns := Mem.rdLe a.hv 0x08 4, frac := Mem.rdLe a.hv 0x12 2, hv := a.hv }

/-- Whether a queue's destination is an aggregation group (R162). -/
def TmQueue.isGroup (q : TmQueue) : Bool := decide (0x20 ≤ q.dest)

/-- Whether an enqueue uses the header vector (R166). -/
def needsHv (q : TmQueue) (f : QFrame) : Bool :=
  f.flags.getLsbD 6 || f.flags.getLsbD 3 || (q.isGroup && !f.flags.getLsbD 5)

/-- The frame as it will be enqueued, or none for BAD_DESCRIPTOR (R166). -/
def State.judgeEnq (s : State) (pe k : Nat) (queue : Nat) (f : QFrame) : Option QFrame :=
  match FMap.get none s.tm.queues queue with
  | none => none
  | some q =>
    if decide (4096 ≤ f.edit) || f.flags.getLsbD 7 || decide (f.len < 14) || decide (s.bufSize f.handle < f.off + f.len) ||
       (decide (f.edit ≠ 0) && decide (FMap.get [] s.tm.templates f.edit = [])) || (f.flags.getLsbD 2 && f.flags.getLsbD 3) then none
    else if needsHv q f then
      (match (s.eng pe).chosen k with
       | some a => if a.handle = f.handle then some { f with cap := some (capture a) } else none
       | none => none)
    else some f

/-- ENQ (R50, R165, R166). -/
def execEnq (i : Issue) (rd rs1 rs2 : Fin 32) (s : State) : Answer :=
  .next (s.issue i (fun s pe k c =>
    let t := s.thr pe k
    let h := t.reg rs1.val
    let a := t.reg rs2.val
    match blockCause a.toNat 16 with
    | some cause => s.fault pe k cause a
    | none =>
      if !s.isLive h then s.faultFree pe k 6
      else
        let b := s.storeBytes pe a.toNat 16
        match s.judgeEnq pe k (fieldLe b 0 2) (enqFrame h b) with
        | none => s.writeBack i c 4 rd.val 0x0A
        | some f => (s.modThr pe k (fun t => { t with effects := t.effects ++ [.enq (fieldLe b 0 2) f] })).writeBack i c 4 rd.val 0))

/-! ### POST (R51, R271, R321, R348, R353) -/

/-- The fields (offset, width) that a unit's block lists for an OP beside TAG and FLAGS; all other bytes are 0. Accelerator blocks are judged by
their units (R363). -/
def postFields (unit op : Nat) : List (Nat × Nat) :=
  match unit with
  | 1 => [(0x04, 1), (0x08, 8), (0x10, 4), (0x14, 4), (0x18, 4)]
  | 2 => [(0x04, 1), (0x05, 1), (0x08, 8), (0x10, 4), (0x14, 4), (0x18, 4), (0x1C, 2), (0x1E, 1)]
  | 6 => [(0x04, 1), (0x0C, 3), (0x10, 2), (0x12, 2), (0x14, 1)] ++
         (if op = 1 then [(0x08, 4), (0x15, 1), (0x18, 8), (0x20, 4), (0x24, 4), (0x28, 4), (0x2C, 4)] else [])
  | 7 => [(0x04, 1), (0x08, 4), (0x0C, 1), (0x10, 8), (0x18, 4), (0x1C, 4), (0x20, 4), (0x24, 4), (0x28, 4)]
  | 8 => [(0x04, 1), (0x05, 1), (0x08, 4), (0x0C, 4), (0x20, 32)]
  | _ => []

/-- Whether every byte of a block outside some fields, TAG and FLAGS is 0. -/
def onlyFields (b : List Byte) (fs : List (Nat × Nat)) : Bool :=
  (List.range 64).all (fun j =>
    decide (j < 4) || decide (j = 6) || fs.any (fun f => decide (f.1 ≤ j) && decide (j < f.1 + f.2)) || decide (fieldLe b j 1 = 0))

/-- Whether a work-queue completion may carry a status: a code of R6 (R7), and neither STALE_GENERATION nor MASTER_OFF (R261). -/
def completes (status : Nat) : Bool := decide (status < 0x12) && decide (status ≠ 6) && decide (status ≠ 7)

/-- Whether a block keeps the rules that POST itself judges (R271, R321, R348); FLAGS holds REPLY alone. A COMPLETE whose
STATUS no completion may carry is malformed too (log 45). -/
def postBlockOk (unit : Nat) (b : List Byte) : Bool :=
  let op := fieldLe b 4 1
  let len := fieldLe b 0x10 4
  if unit = 3 ∨ unit = 4 ∨ unit = 5 then true
  else
    onlyFields b (postFields unit op) && decide (fieldLe b 6 1 < 2) &&
    (match unit with
     | 1 => decide (op = 1) && decide (1 ≤ len) && decide (len ≤ 65536)
     | 2 => decide (op = 1) && decide (fieldLe b 5 1 ≤ 1) && decide (1 ≤ len) && decide (len ≤ 65536) &&
            (decide (fieldLe b 5 1 = 0) || decide (fieldLe b 8 8 = 0)) && decide (fieldLe b 0x1E 1 < 4)
     | 6 => decide (op = 1) || decide (op = 2)
     | 7 => decide (1 ≤ op) && decide (op ≤ 3) && (decide (op ≠ 1) || decide (fieldLe b 0x0C 1 ≤ 2))
     | 8 => (decide (op = 1) && completes (fieldLe b 5 1) || decide (op = 2)) && decide (fieldLe b 8 4 % 2 ^ 31 < 65536)
     | _ => false)

/-- Posts to a unit that some effects hold. -/
def postsIn (unit : Nat) (es : List Effect) : Nat :=
  (es.filter (fun x => match x with | .post r => decide (r.unit = unit) | _ => false)).length

/-- Posts to a unit made in this tick and not yet accepted (R353). -/
def State.postsPending (s : State) (unit : Nat) : Nat :=
  (s.erg.engines.map (fun x => (x.2.threads.map (fun y => postsIn unit y.2.effects)).foldl (· + ·) 0)).foldl (· + ·) 0 +
    (s.erg.done.map (fun d => postsIn unit d.effects)).foldl (· + ·) 0

/-- Whether an accelerator's request queue is full, counting the posts of this tick (R353). -/
def State.unitFull (s : State) (unit : Nat) : Bool :=
  (decide (unit = 3) || decide (unit = 4) || decide (unit = 5)) &&
    decide (4096 ≤ (s.accel.queues.getD (unit - 3) []).length + (s.accel.done.getD (unit - 3) []).length + s.postsPending unit)

/-- The PCI function that an item's host requests use: the PF1 VF of its instance, or PF1 for work of no instance (R271, R348). -/
def itemFn (inst : Half) : Nat := if inst = 0xFFFF#16 then 1 else vfNet inst.toNat

/-- Whether the hold store refuses a host DMA post (R199). -/
def State.holdRefuses (s : State) (unit : Nat) (inst : Half) : Bool :=
  (decide (unit = 1) || decide (unit = 2)) && !s.bme (itemFn inst) && s.holdFull

/-- The source of an item's requests (R208): the PF1 VF of its instance, or the groom of its engine for work of no instance (log 68). -/
def itemSrc (inst : Half) (leng : Nat) : Nat := if inst = 0xFFFF#16 then srcGroom leng else srcFn (vfNet inst.toNat)

/-- POST (R50, R51). -/
def execPost (i : Issue) (rd rs1 rs2 : Fin 32) (s : State) : Answer :=
  .next (s.issue i (fun s pe k c =>
    let t := s.thr pe k
    let unit := (t.reg rs1.val).toNat
    let a := t.reg rs2.val
    match blockCause a.toNat 64, (s.eng pe).itemOf k with
    | some cause, _ => s.fault pe k cause a
    | none, none => s
    | none, some it =>
      let b := s.storeBytes pe a.toNat 64
      if unit = 0 ∨ 8 < unit ∨ postBlockOk unit b = false then s.writeBack i c 4 rd.val 0x0A
      else if s.unitFull unit || s.holdRefuses unit it.inst then s.writeBack i c 4 rd.val 9
      else
        let r : PostReq := { stamp := s.stamp (itemSrc it.inst (s.leng pe)), unit := unit, block := b, leng := s.leng pe, inst := it.inst, gen := it.gen,
                             op := it.op, owner := it.owner }
        (s.modThr pe k (fun t => { t with effects := t.effects ++ [.post r] })).writeBack i c 4 rd.val 0))

/-! ### TLKP (R50, R129) -/

/-- The block that a hit leaves (R129). -/
def lookupBlock (e : Entry) (m : Nat) : List Byte :=
  leBytes 4 e.action.toNat ++ ((List.range 5).map (fun j => leBytes 4 (e.data.getD j 0).toNat)).flatten ++ leBytes 4 m ++ zeros 36

/-- The DRAM latencies of `n` reads made one after another (R36, R50). -/
def dramReadsLat : Nat → State → Nat × State
  | 0, s => (0, s)
  | n + 1, s =>
    let (l, s1) := s.dramLat
    let (r, s2) := dramReadsLat n s1
    (l + r, s2)

/-- TLKP (R50, R129). An access to the control region that fails ends the item CONTROL_CHECK (R372). -/
def execTlkp (i : Issue) (rd rs1 rs2 : Fin 32) (s : State) (fail : Option LookupFail := none) : Answer :=
  .next (s.issue i (fun s pe k c =>
    let t := s.thr pe k
    let n := (t.reg rs1.val).toNat
    let a := t.reg rs2.val
    match blockCause a.toNat 64 with
    | some cause => s.fault pe k cause a
    | none =>
      match (if n ≤ 63 then s.cls.cur.table n else none) with
      | none => s.writeOwed i c 20 rd.val 8
      | some tab =>
        if !tab.engine then s.writeOwed i c 20 rd.val 8
        else
          let (failed, found, reads, s1) := s.lookupChecked n tab (s.storeBytes pe a.toNat 40) fail
          let (lat, s2) := dramReadsLat reads s1
          if failed then s2.fault pe k 7 a
          else match found with
          | some (e, m) =>
            (s2.writePlace pe k (.store a.toNat) (lookupBlock e m)).writeOwed i c (20 + lat) rd.val 0
          | none => s2.writeOwed i c (20 + lat) rd.val 0x11))

end Sys2Proof.Machine
end

