-- ==== Sys2Proof/Machine/QueueCmds.lean ====
section
/-!
DEFINITION. Meanings of the doorbell writes (R223, R252, R253), of fetched caravans (R256 to R259, R364), of the admin commands (R263 to
R267, R269) and of MODERATION_EXPIRY (R270).
-/

namespace Sys2Proof.Machine

/-! ### Doorbell writes -/

/-- The state of a work queue fails its check: the queue enters ERROR (R255, R365). -/
def State.queueFailed (s : State) (fn q : Nat) : State :=
  match s.queue (qKey fn q) with
  | some v => ((s.setQueue (qKey fn q) (some { v with error := true })).log 0x0603 fn q).sramFailed
  | none => s

/-- DOORBELL (R223). The state of the queue that it names may fail its check (R365). -/
def execDoorbell (fn : Nat) (value : Word) (s : State) (stateBad : Bool := false) : Answer :=
  .next ((if stateBad && s.decodes fn then s.queueFailed fn (bits value.toNat 16 16) else s).doorbellWrite fn value)
/-- COMPLETION_HEAD_DOORBELL (R252). -/
def execCompletionHeadDoorbell (fn : Nat) (value : Word) (s : State) : Answer := .next (s.doorbellWrite fn value)
/-- ADMIN_BASE_WRITE (R252). -/
def execAdminBaseWrite (fn : Nat) (value : Word) (s : State) : Answer := .next (s.doorbellWrite fn value)
/-- ADMIN_CTL_ENABLE (R253). -/
def execAdminCtlEnable (fn : Nat) (value : Word) (s : State) : Answer := .next (s.doorbellWrite fn value)
/-- ADMIN_CTL_DISABLE (R253). -/
def execAdminCtlDisable (fn : Nat) (value : Word) (s : State) : Answer := .next (s.doorbellWrite fn value)

/-! ### Fetching a caravan (R258, R259) -/

/-- Descriptor entries of a queue that may still be fetched in this tick (R259). -/
def State.fetchLeft (s : State) (q : Queue) : Nat := if q.fetchTick = s.time.tick then 64 - q.fetchCnt else 64

/-- A queue from which a caravan of `n` entries can be fetched now: served, not in ERROR, the entries before the tail and within the
tick's 64, not aborted (R267), and no request of the function held (R198, R255, R258, R259, R285). -/
def State.fetchable (s : State) (fn q n : Nat) : Option Queue :=
  match s.queue (qKey fn q) with
  | some v =>
    if s.fnServed fn && s.mayFetch fn && !v.error && decide (1 ≤ n) && decide (n ≤ ringDist v.size v.head v.tail) && decide (n ≤ s.fetchLeft v) &&
        !v.aborted.contains v.head
    then some v else none
  | none => none

/-- The queue after `n` of its entries have been fetched as one caravan. -/
def Queue.fetched (q : Queue) (tick n : Nat) (c : Caravan) : Queue :=
  { q with head := (q.head + n) % q.size, caravans := q.caravans ++ [c],
           fetchCnt := (if q.fetchTick = tick then q.fetchCnt else 0) + n, fetchTick := tick }

/-- Bytes of a caravan's DATA entries. -/
def dataBytes (ds : List Desc) : Nat := ((ds.drop 1).map (fun d => d.len.toNat)).foldl (· + ·) 0

/-- Whether F and L stand where a caravan has them, KIND and reserved bits suit each position, and every DATA entry is 1 byte or more
(R257, R258). -/
def caravanForm (kind : Nat) (ds : List Desc) : Bool :=
  match ds with
  | [] => false
  | f :: rest =>
    descIsF f && descIsL (lastDesc ds) && decide (descKind f = kind) && descFlagsOk f && decide (ds.length ≤ 64) &&
      rest.all (fun d => !descIsF d && decide (descKind d = 5) && descFlagsOk d && decide (d.spec = 0) && decide (1 ≤ d.len.toNat)) &&
      (ds.dropLast).all (fun d => !descIsL d)

/-- The lanes that a traffic-manager queue reaches (R162). -/
def State.destLanes (s : State) (dest : Nat) : List Nat :=
  if dest < 0x20 then [dest] else match s.ports.groups[dest - 0x20]? with | some g => g.members | none => []

/-- MAX_FRAME of the lane that a TX queue's bound queue reaches; for a group, the least of its members'. -/
def State.txMax (s : State) (tmq : Nat) : Nat :=
  match FMap.get none s.tm.queues tmq with
  | some q => (s.destLanes q.dest).foldl (fun m l => min m ((s.ports.lanes[l]?.map (·.maxFrame)).getD 0)) 65536
  | none => 0

/-- The status of a caravan that has no effect: none when it may run (R258, R265, R364). -/
def State.caravanFault (s : State) (q : Queue) (kind : Nat) (ds : List Desc) : Option Byte :=
  let f := ds.headD { addr := 0, len := 0, flags := 0, tag := 0, spec := 0 }
  let spec := f.spec.toNat
  let suits := if q.type = 1 then kind = 1 else if q.type = 3 then kind = 3 ∨ kind = 4 else if q.type = 4 then 0x10 ≤ kind ∧ kind ≤ 0x13 else False
  if ¬ suits ∨ caravanForm kind ds = false then some 0x0A
  else if kind = 1 then
    let total := f.len.toNat + dataBytes ds
    if 16 < ds.length ∨ f.len = 0 ∨ 2 ^ 32 ≤ spec then some 0x0A
    else match q.tmq with
      | none => if total < 14 then some 0x0A else some 0x0F
      | some t => if total < 14 ∨ s.txMax t < total + 4 then some 0x0A else none
  else if kind = 3 ∨ kind = 4 then
    if ds.length < 2 ∨ dataBytes ds ≠ f.len.toNat ∨ 2 ^ 32 ≤ spec then some 0x0A else none
  else
    let src := dataBytes ds
    let bound := if kind = 0x10 then 65456 else 65504
    if f.len.toNat = 0 ∨ 65504 < f.len.toNat ∨ src = 0 ∨ bound < src ∨ (if kind < 0x12 then 2 ≤ spec else 2 ^ 32 ≤ spec) then some 0x0A else none

/-- The operation of a caravan or admin command, as its fetch makes it. -/
def State.opFor (s : State) (key kind : Nat) : Operation :=
  { key := key, inst := fnInstHalf (keyFn key), gen := s.fnGen (keyFn key), arg := [], kind := kind, dead := false, handle := 0, len := 0 }

/-- A caravan that takes an operation and ends at once with a status; it keeps the entry while its completion waits (R9, R261). -/
def State.badCaravan (s : State) (key : Nat) (q : Queue) (ds : List Desc) (op : Nat) (status : Byte) : State :=
  let c : Caravan := { op := op, first := q.head, count := ds.length, tag := (lastDesc ds).tag, irq := descIrq (lastDesc ds),
                       out := some (status, 0, q.plainFlags) }
  ((s.setOp op (some (s.opFor key (descKind (ds.headD (lastDesc ds)))))).setQueue key (some (q.fetched s.time.tick ds.length c))).drain key

/-- An offer deferred because the operation table, or the instance's share of it, is full (R10, R277). -/
def State.deferOffer (s : State) (fn : Nat) : State :=
  match fnInst fn with
  | some n => s.modInstCtr n (fun c => { c with opsWait := c.opsWait + 1 })
  | none => s

/-- A caravan with an operation is fetched (R257 to R259). A TX caravan's fragments are read into one buffer; the caravan of another kind
is put, as fetched, into a buffer of its own, and its arrival names it. -/
def State.fetchOne (s : State) (fn q kind : Nat) (ds : List Desc) : State :=
  match s.fetchable fn q ds.length with
  | none => s
  | some v =>
    let key := qKey fn q
    let inst := fnInstHalf fn
    let gen := s.fnGen fn
    if !s.opRoom inst then s.deferOffer fn
    else match s.freeOp with
      | none => s.deferOffer fn
      | some op =>
        match s.caravanFault v kind ds with
        | some status => s.badCaravan key v ds op status
        | none =>
          let f := ds.headD (lastDesc ds)
          let size := if kind = 1 then f.len.toNat + dataBytes ds else 32 * ds.length
          match s.alloc size false ownHost with
          | (none, s1) => s1.allocWaits ownHost
          | (some h, s1) =>
            let (rest, s2) := freeWords 7 s1
            let arg := (BitVec.ofNat 32 (f.spec.toNat % 2 ^ 32)) :: rest
            let o : Operation := { key := key, inst := inst, gen := gen, arg := arg, kind := kind, dead := false, handle := h, len := size }
            let c : Caravan := { op := op, first := v.head, count := ds.length, tag := (lastDesc ds).tag, irq := descIrq (lastDesc ds), out := none }
            let s3 := (s2.setOp op (some o)).setQueue key (some (v.fetched s2.time.tick ds.length c))
            if kind = 1 then s3.startRead fn inst gen (.txPayload op) (ds.map (fun d => (d.addr.toNat, d.len.toNat)))
            else
              let s4 := (s3.bufWrite h 0 ((ds.map descBytes).flatten)).swapOwner h ownHost ownRx
              let (le, s5) := s4.freeEngine
              (s5.setOp op (some { o with handle := 0 })).arrive le (replyArrival 2 (some op) inst gen arg h size 1 0 0)

/-- Caravans are fetched in turn until one cannot be fetched now; those after the first are each of the kind of their F entry. -/
def fetchEach (fn q : Nat) : Nat → List (List Desc) → State → State
  | _, [], s => s
  | kind, p :: ps, s =>
    let s1 := s.fetchOne fn q kind p
    if (s1.queue (qKey fn q)).map (·.head) = (s.queue (qKey fn q)).map (·.head) then s1
    else fetchEach fn q (descKind ((ps.headD []).headD (lastDesc []))) ps s1

/-- A fetch brings entries of a ring, the first of them of a caravan of some kind: they are cut into caravans, and entries of one that is not
complete stay in the ring (R258). -/
def State.fetchCaravan (s : State) (fn q kind : Nat) (ds : List Desc) : State := fetchEach fn q kind (cutAll ds.length ds) s

/-- TX (R257). -/
def execTx (fn q : Nat) (descs : List Desc) (s : State) : Answer := .next (s.fetchCaravan fn q 1 descs)
/-- RDMA_WRITE (R257). -/
def execRdmaWrite (fn q : Nat) (descs : List Desc) (s : State) : Answer := .next (s.fetchCaravan fn q 3 descs)
/-- RDMA_READ (R257). -/
def execRdmaRead (fn q : Nat) (descs : List Desc) (s : State) : Answer := .next (s.fetchCaravan fn q 4 descs)
/-- COMPRESS_JOB (R364). -/
def execCompressJob (fn q : Nat) (descs : List Desc) (s : State) : Answer := .next (s.fetchCaravan fn q 0x10 descs)
/-- DECOMPRESS_JOB (R364). -/
def execDecompressJob (fn q : Nat) (descs : List Desc) (s : State) : Answer := .next (s.fetchCaravan fn q 0x11 descs)
/-- GCM_SEAL_JOB (R364). -/
def execGcmSealJob (fn q : Nat) (descs : List Desc) (s : State) : Answer := .next (s.fetchCaravan fn q 0x12 descs)
/-- GCM_OPEN_JOB (R364). -/
def execGcmOpenJob (fn q : Nat) (descs : List Desc) (s : State) : Answer := .next (s.fetchCaravan fn q 0x13 descs)

/-- Whether a posted buffer is as R257 has it: F and L both set, its kind, aligned, 256 to 65,536 bytes. -/
def rxPostOk (d : Desc) : Bool :=
  descIsF d && descIsL d && decide (descKind d = 2) && descFlagsOk d && decide (d.spec = 0) && decide (d.addr.toNat % 64 = 0) &&
    decide (256 ≤ d.len.toNat) && decide (d.len.toNat ≤ 65536)

/-- One posted receive buffer (R257): owned until its completion; a caravan that breaks the rules completes BAD_DESCRIPTOR in ring order. -/
def State.postRx (fn q : Nat) (s : State) (ds : List Desc) : State :=
  let d := lastDesc ds
  match s.fetchable fn q ds.length with
  | none => s
  | some v =>
    let ok := rxPostOk d && decide (ds.length = 1) && decide (v.type = 2)
    let c : Caravan := { op := noOp, first := v.head, count := ds.length, tag := d.tag, irq := descIrq d,
                         out := if ok then none else some (0x0A, 0, v.plainFlags) }
    let v1 := v.fetched s.time.tick ds.length c
    let v2 := if ok then { v1 with rxBufs := v1.rxBufs ++ [{ slot := v.head, addr := d.addr.toNat, len := d.len.toNat }] } else v1
    (s.setQueue (qKey fn q) (some v2)).drain (qKey fn q)

/-- RX_POST (R257). -/
def execRxPost (fn q : Nat) (descs : List Desc) (s : State) : Answer := .next ((cutAll descs.length descs).foldl (State.postRx fn q) s)

/-! ### Admin commands (R263 to R267) -/

/-- Whether a descriptor is an admin command's: alone, its code, a 64-byte block at a 64-byte boundary (R257). -/
def adminDescOk (kind : Nat) (d : Desc) : Bool :=
  descIsF d && descIsL d && decide (descKind d = kind) && descFlagsOk d && decide (d.addr.toNat % 64 = 0) && decide (d.len = 64) &&
    decide (d.spec = 0)

/-- Ask for an admin command's settling in the next commit. -/
def State.adminDue (s : State) (d : AdminDue) : State := { s with queues := { s.queues with due := s.queues.due ++ [d] } }

/-- Ask for an admin command's change at the turn. -/
def State.adminChange (s : State) (c : AdminChange) : State := { s with queues := { s.queues with changes := s.queues.changes ++ [c] } }

/-- An admin command is fetched from queue 0 and runs as an operation (R259, R263); `run` is given its queue key and operation. A command
whose descriptor is malformed completes BAD_DESCRIPTOR. -/
def State.adminOp (s : State) (fn kind : Nat) (d : Desc) (run : State → Nat → Nat → State) : State :=
  match s.fetchable fn 0 1 with
  | none => s
  | some v =>
    if !s.opRoom (fnInstHalf fn) then s.deferOffer fn
    else match s.freeOp with
      | none => s.deferOffer fn
      | some op =>
        let key := qKey fn 0
        if !adminDescOk kind d then s.badCaravan key v [d] op 0x0A
        else
          let c : Caravan := { op := op, first := v.head, count := 1, tag := d.tag, irq := descIrq d, out := none }
          run ((s.setOp op (some (s.opFor key kind))).setQueue key (some (v.fetched s.time.tick 1 c))) key op

/-- MSI-X vectors that a function's queues may name (R269, R278). -/
def State.vectorsOf (s : State) (fn : Nat) : Nat :=
  match fnInst fn with
  | none => 2048
  | some n => (match s.inst n with | some i => if fnSto fn then i.vecSto else i.vecNet | none => 0)

/-- I/O queues of a network function. -/
def State.ioQueues (s : State) (fn : Nat) : Nat :=
  (s.queues.qs.filter (fun e => decide (keyFn e.1 = fn) && decide (e.1 % 65536 ≠ 0))).length

/-- I/O queues over PF1 and all its VFs (R251). -/
def State.allIoQueues (s : State) : Nat := (s.queues.qs.filter (fun e => decide (e.1 % 65536 ≠ 0))).length

/-- Queues of a function whose creation waits for the turn. -/
def State.creating (s : State) (fn : Nat) : List Nat :=
  s.queues.changes.filterMap (fun c => match c with | .create k _ => if keyFn k = fn ∧ k % 65536 ≠ 0 then some k else none | _ => none)

/-- I/O queues of all functions whose creation waits for the turn. -/
def State.allCreating (s : State) : Nat :=
  (s.queues.changes.filter (fun c => match c with | .create k _ => decide (k % 65536 ≠ 0) | _ => false)).length

/-- Whether a new queue would exceed a limit of R251 or the instance's RINGS (R277). -/
def State.queueLimit (s : State) (fn : Nat) : Bool :=
  decide (32768 ≤ s.allIoQueues + s.allCreating) ||
    (match fnInst fn with
     | some n => (match s.inst n with | some i => decide (i.res.rings ≤ s.ioQueues fn + (s.creating fn).length) | none => true)
     | none => false)

/-- Whether moderation fields are in range (R269). -/
def modOk (ticks count : Nat) : Bool := decide (ticks ≤ 1024) && decide (1 ≤ count) && decide (count ≤ 4096)

/-- Whether a context of an instance holds a QPN. -/
def State.ctxOf (s : State) (qpn : Nat) (inst : Half) : Bool :=
  match FMap.get none s.rdma.ctxs qpn with | some c => decide (c.inst = inst.toNat) | none => false

/-- The status of CREATE_QUEUE for its block: 0 when it may be made (R264). -/
def State.judgeCreate (s : State) (fn : Nat) (b : List Byte) : Byte :=
  let q := fieldLe b 0 2
  let type := fieldLe b 2 1
  let n := fieldLe b 3 1
  let m := fieldLe b 4 1
  let bind := fieldLe b 28 4
  if q = 0 ∨ 0x1000 ≤ q ∨ type = 0 ∨ 4 < type ∨ n < 4 ∨ 15 < n ∨ m < n ∨ 15 < m ∨ s.vectorsOf fn ≤ fieldLe b 6 2 ∨
     fieldLe b 8 8 % 4096 ≠ 0 ∨ fieldLe b 16 8 % 4096 ≠ 0 ∨ modOk (fieldLe b 24 2) (fieldLe b 26 2) = false ∨
     (type ≠ 3 ∧ bind ≠ 0) ∨ 2 ^ 24 ≤ bind then 0x0A
  else if (s.queue (qKey fn q)).isSome ∨ qKey fn q ∈ s.creating fn then 0x0F
  else if decide (type = 3) && !s.ctxOf bind (fnInstHalf fn) then 0x11
  else if s.queueLimit fn then 0x09 else 0

/-- CREATE_QUEUE (R264): settled in the commit of its tick, ACTIVE from the next dispatch. -/
def execCreateQueue (fn : Nat) (d : Desc) (block : List Byte) (s : State) : Answer :=
  .next (s.adminOp fn 0x40 d (fun s key op =>
    let st := s.judgeCreate fn block
    let s1 := s.adminDue (.finish key op st 0)
    if st = 0 then
      let f := fun o n => fieldLe block o n
      s1.adminChange (.create (qKey fn (f 0 2))
        (Queue.make (f 2 1) (f 3 1) (f 4 1) (f 6 2) (f 8 8) (f 16 8) (f 24 2) (f 26 2) (f 28 4)))
    else s1))

/-- DESTROY_QUEUE and RESET_QUEUE (R263, R266): judged now, ended at the turn, completed in the following commit. -/
def State.endQueueOp (s : State) (fn kind : Nat) (d : Desc) (block : List Byte) (destroy : Bool) : State :=
  s.adminOp fn kind d (fun s key op =>
    let q := fieldLe block 0 2
    if q = 0 then s.adminDue (.finish key op 0x0F 0)
    else if (s.queue (qKey fn q)).isNone then s.adminDue (.finish key op 0x11 0)
    else s.adminChange (.finish (qKey fn q) key op destroy))

/-- DESTROY_QUEUE (R266). -/
def execDestroyQueue (fn : Nat) (d : Desc) (block : List Byte) (s : State) : Answer := .next (s.endQueueOp fn 0x41 d block true)
/-- RESET_QUEUE (R266). -/
def execResetQueue (fn : Nat) (d : Desc) (block : List Byte) (s : State) : Answer := .next (s.endQueueOp fn 0x42 d block false)

/-- ABORT (R267): settled in the commit, after that commit's completions. -/
def execAbort (fn : Nat) (d : Desc) (block : List Byte) (s : State) : Answer :=
  .next (s.adminOp fn 0x43 d (fun s key op =>
    let q := qKey fn (fieldLe block 0 2)
    if (s.queue q).isNone then s.adminDue (.finish key op 0x11 0)
    else s.adminDue (.abort key op q (BitVec.ofNat 64 (fieldLe block 8 8)))))

/-- SET_MODERATION (R263, R269, R270): applies at the turn. Queue 0 keeps vector 0 with MOD_TICKS 0. -/
def execSetModeration (fn : Nat) (d : Desc) (block : List Byte) (s : State) : Answer :=
  .next (s.adminOp fn 0x44 d (fun s key op =>
    let q := fieldLe block 0 2
    if (s.queue (qKey fn q)).isNone then s.adminDue (.finish key op 0x11 0)
    else if s.vectorsOf fn ≤ fieldLe block 2 2 ∨ modOk (fieldLe block 4 2) (fieldLe block 6 2) = false ∨
        (q = 0 ∧ (fieldLe block 2 2 ≠ 0 ∨ fieldLe block 4 2 ≠ 0)) then s.adminDue (.finish key op 0x0A 0)
    else (s.adminDue (.finish key op 0 0)).adminChange (.moderate (qKey fn q) (fieldLe block 2 2) (fieldLe block 4 2) (fieldLe block 6 2))))

/-- QUERY_QUEUE (R263): its result is written into the block, before the completion, in the commit. -/
def execQueryQueue (fn : Nat) (d : Desc) (block : List Byte) (s : State) : Answer :=
  .next (s.adminOp fn 0x45 d (fun s key op =>
    let q := qKey fn (fieldLe block 0 2)
    if (s.queue q).isNone then s.adminDue (.finish key op 0x11 0)
    else s.adminDue (.query key op q d.addr.toNat)))

/-- MODERATION_EXPIRY (R270): in a commit, when MOD_TICKS have passed since the oldest pending completion. -/
def execModerationExpiry (fn q : Nat) (s : State) : Answer :=
  .next (match s.queue (qKey fn q) with
    | some v =>
      if s.time.phase = .commit ∧ 0 < v.pendCount ∧ v.pendSince + v.modTicks ≤ s.time.tick then
        (s.setQueue (qKey fn q) (some { v with pendCount := 0 })).msix fn v.vector
      else s
    | none => s)

end Sys2Proof.Machine
end

