-- ==== Sys2Proof/Machine/Backends.lean ====
section
/-!
DEFINITION. Meanings of the storage backend rows (14): requests of unit 7, replies of a backend, connections, timeouts, idle queues and
keep-alives.
-/

namespace Sys2Proof.Machine

/-- A backend. -/
def State.backend (s : State) (b : Nat) : Option Backend := FMap.get none s.sto.backends b
/-- Replace a backend. -/
def State.setBackend (s : State) (b : Nat) (v : Option Backend) : State := { s with sto := { s.sto with backends := FMap.set none s.sto.backends b v } }
/-- A namespace of the device. -/
def State.ns (s : State) (n : Nat) : Option Namespace := FMap.get none s.sto.nss n
/-- A backend command by its reference. -/
def State.bcmd (s : State) (r : Nat) : Option BackendCmd := FMap.get none s.sto.cmds r
/-- Replace a backend command. -/
def State.setBcmd (s : State) (r : Nat) (v : Option BackendCmd) : State := { s with sto := { s.sto with cmds := FMap.set none s.sto.cmds r v } }

/-- A frame to a backend on one of its queues; queue 0 is its admin queue. -/
def State.toBackend (s : State) (b q : Nat) (bytes : List Byte) : State := { s with sto := { s.sto with wire := s.sto.wire ++ [(b, q, bytes)] } }

/-- The controller that a request comes from: the PF2 VF of its instance, or PF2. -/
def reqCtl (r : PostReq) : Nat := if r.inst = 0xFFFF#16 then 2 else vfSto r.inst.toNat

/-- Ticks of a time in milliseconds. -/
def State.msTicks (s : State) (ms : Nat) : Nat := ticksOf s.time.period (ms * 1000000)

/-- Commands of a controller outstanding at a backend. -/
def State.sentBy (s : State) (ctl b : Nat) : Nat :=
  (s.sto.cmds.filter (fun e => match e.2 with | some c => c.sent.isSome && decide (c.backend = b) && decide (reqCtl c.req = ctl) | none => false)).length

/-- Whether some U or D lane, through which a backend is reached, remains (R321; which lanes lead to it is the templates' matter). -/
def State.laneRemains (s : State) : Bool := (s.ports.lanes.take 16).any (fun l => decide (l.st ≠ .failed))

/-- The submission capsule of a backend command: a 64-byte entry. -/
def capsule (ref : Nat) (c : BackendCmd) (remote : Nat) : List Byte :=
  padTo 64 ([BitVec.ofNat 8 c.nvmeOp, 0] ++ leBytes 2 (ref % 65536) ++ leBytes 4 remote ++ zeros 32 ++ leBytes 8 c.slba ++ leBytes 4 (c.nlb - 1))

/-- The characters of a string. -/
def asciiOf (t : String) : List Byte := t.toList.map (fun c => BitVec.ofNat 8 c.toNat)
/-- A lower-case hexadecimal digit (R317 does not give the case; log 50). -/
def lowHex (n : Nat) : Byte := BitVec.ofNat 8 (if n < 10 then 48 + n else 87 + n)
/-- The host NQN (R317). -/
def hostNqn : List Byte :=
  asciiOf "nqn.2019-03.com.wenvon:sg1024:" ++ ((List.range 16).map (fun i => lowHex (Config.serial.toNat / 16 ^ (15 - i) % 16)))

/-- The Connect that opens a queue of a backend (R317): 128 entries for an I/O queue, KATO 10 s on the admin queue, the subsystem's and the host's NQN.
Its layout and the admin queue's 32 entries are the NVMe over Fabrics standard's (log 50). -/
def connectCapsule (q : Nat) (subnqn : List Byte) : List Byte :=
  padTo 64 ([0x7F, 0, 0, 0, 0x01] ++ zeros 37 ++ leBytes 2 q ++ leBytes 2 (if q = 0 then 31 else 127) ++ [0, 0] ++ leBytes 4 (if q = 0 then 10000 else 0)) ++
    zeros 16 ++ [0xFF, 0xFF] ++ zeros 238 ++ padTo 256 subnqn ++ padTo 256 hostNqn ++ zeros 256

/-- A queue of a backend is opened when it is not open (R313, R317), and counts as used now. -/
def State.useQueue (s : State) (n : Nat) (b : Backend) (q : Nat) : State :=
  let s1 := if (FMap.get none b.queues q).isSome then s else s.toBackend n q (connectCapsule q b.subnqn)
  s1.setBackend n (some { b with queues := FMap.set none b.queues q (some s.time.tick) })

/-- Send a waiting command when its backend is up and its controller's limit there has room (R313, R319): one of the backend's queues that
the power state uses carries it, and is open from then on. -/
def State.trySend (s : State) (ref : Nat) : State :=
  match s.bcmd ref with
  | none => s
  | some c =>
    match s.backend c.backend, s.ns c.ns with
    | some b, some n =>
      let ctl := reqCtl c.req
      let ps := (s.ctl ctl).ps
      if c.sent.isSome || c.cancelled || !b.up || decide (psOutstanding ps ≤ s.sentBy ctl c.backend) then s
      else
        let q := 1 + ref % (psQueues ps)
        let s1 := s.setBcmd ref (some { c with sent := some s.time.tick })
        (s1.useQueue c.backend b q).toBackend c.backend q (capsule ref c n.remote)
    | _, _ => s

/-- Send what may now be sent, oldest first. -/
def State.pumpBackends (s : State) : State := s.sto.cmds.foldl (fun s e => s.trySend e.1) s

/-- A reply of the backend transport (R321): a buffer with RKIND, BREF, OFFSET, LEN and data, handed to the engine; and whether one was free. -/
def State.backendAnswer (s : State) (r : PostReq) (rkind ref offset : Nat) (data : List Byte) (status : Byte) : Bool × State :=
  match s.alloc (16 + data.length) false ownRx with
  | (none, s1) => (false, s1)
  | (some h, s1) =>
    let b := [BitVec.ofNat 8 rkind] ++ zeros 3 ++ leBytes 4 ref ++ leBytes 4 offset ++ leBytes 4 data.length ++ data
    (true, (s1.bufWrite h 0 b).reply r 6 h b.length status)

/-- A backend command ends with a status; the next one that waits may leave. -/
def State.endBcmd (s : State) (ref : Nat) (c : BackendCmd) (status : Byte) : State :=
  let s1 := (s.setBcmd ref none).pumpBackends
  let (sent, s2) := s1.backendAnswer c.req 3 ref 0 [] status
  if sent then s2 else s2.reply c.req 6 0 0 status

/-- A SUBMIT of unit 7. -/
def State.backendSubmitReq (s : State) (r : PostReq) : State :=
  let nsNo := fieldLe r.block 8 4
  match s.ns nsNo with
  | none => s.reply r 6 0 0 0x11
  | some n =>
    let nlb := fieldLe r.block 0x18 4
    if (s.backend n.backend).isNone then s.reply r 6 0 0 0x11
    else
      if fieldLe r.block 0x0C 1 ≠ 0 ∧ (nlb = 0 ∨ 1048576 < nlb * n.block) then s.reply r 6 0 0 0x0A
      else if !s.laneRemains then s.reply r 6 0 0 0x10
      else
        let ref := s.sto.nextBref
        let c : BackendCmd := { backend := n.backend, ns := nsNo, nvmeOp := fieldLe r.block 0x0C 1, slba := fieldLe r.block 0x10 8, nlb := nlb, req := r,
                                since := s.time.tick, sent := none, cancelled := false }
        let s1 := s.setBcmd ref (some c)
        ({ s1 with sto := { s1.sto with nextBref := ref % 0xFFFFFFFF + 1 } }).trySend ref

/-- Whether a posted request is unit 7's with an OP. -/
def isBackendPost (op : Nat) (r : PostReq) : Bool := decide (r.unit = 7) && decide (fieldLe r.block 4 1 = op)

/-- BACKEND_SUBMIT (R321). -/
def execBackendSubmit (s : State) : Answer := .next (s.serve (isBackendPost 1) (fun r s => s.backendSubmitReq r))

/-- A reply that a DATA or CANCEL asked for with REPLY (R271). -/
def State.backendAck (s : State) (r : PostReq) (status : Byte) : State := if bitOf (fieldLe r.block 6 1) 0 then s.reply r 6 0 0 status else s

/-- DATA of unit 7: the buffer's bytes go to the backend, and the unit lets go of the buffer. -/
def State.backendDataReq (s : State) (r : PostReq) : State :=
  let h := BitVec.ofNat 32 (fieldLe r.block 0x20 4)
  let s1 := match s.liveEnt h with | some e => if e.owners.contains ownSto then s.removeOwner h ownSto else s | none => s
  match s.bcmd (fieldLe r.block 0x1C 4) with
  | some c =>
    if c.cancelled || c.sent.isNone then s1.backendAck r 0x0F
    else
      let bs := leBytes 4 (fieldLe r.block 0x1C 4) ++ leBytes 4 (fieldLe r.block 0x24 4) ++ s.bufRead h 0 (fieldLe r.block 0x28 4)
      (s1.toBackend c.backend (1 + fieldLe r.block 0x1C 4 % (psQueues (s.ctl (reqCtl c.req)).ps)) bs).backendAck r 0
  | none => s1.backendAck r 0x11

/-- BACKEND_DATA (R321). -/
def execBackendData (s : State) : Answer := .next (s.serve (isBackendPost 2) (fun r s => s.backendDataReq r))

/-- CANCEL of unit 7: the command ends ABORTED; a Write already sent may still be carried out at the target (R311). -/
def State.backendCancelReq (s : State) (r : PostReq) : State :=
  let ref := fieldLe r.block 0x1C 4
  match s.bcmd ref with
  | some c => (s.endBcmd ref c 1).backendAck r 0
  | none => s.backendAck r 0x11

/-- CANCEL (R321). -/
def execCancel (s : State) : Answer := .next (s.serve (isBackendPost 3) (fun r s => s.backendCancelReq r))

/-- A backend's response is noted with the command that it serves (R316, R325), and counted when it is a media error (R307). -/
def State.noteResponse (s : State) (c : BackendCmd) (data : List Byte) : State :=
  let st := fieldLe data 14 2 / 2
  let ctl := reqCtl c.req
  s.modCtl ctl (fun v =>
    { v with mediaErrors := if bits st 8 3 = 2 then v.mediaErrors + 1 else v.mediaErrors,
             outs := v.outs.map (fun (o : NvOut) => if c.req.op = some o.op then { o with parts := o.parts ++ [(c.slba, nvPass st)] } else o) })

/-- A reply of a backend (R321, R369). A reply to a command that is no longer known is discarded; one that finds no buffer is dropped
and counted, with its command left open (R153, R154); a bad header digest is a lost connection, which has a row of its own. -/
def State.backendReplyIn (s : State) (ref lane : Nat) (rkind status : Byte) (offset : Nat) (data : List Byte) : State :=
  match s.bcmd ref with
  | none => s
  | some c =>
    if c.sent.isNone then s
    else if c.cancelled then (if rkind = 3 then (s.setBcmd ref none).pumpBackends else s)
    else
      let (sent, s1) := s.backendAnswer c.req rkind.toNat ref offset (if rkind = 3 then padTo 16 data else data) status
      if !sent then s1.rxNoBuffer lane c.req.inst
      else if rkind = 3 then ((s1.noteResponse c (padTo 16 data)).setBcmd ref none).pumpBackends
      else s1

/-- BACKEND_CONNECTION_LOST (R319). -/
def execBackendConnectionLost (backend : Nat) (s : State) : Answer :=
  .next (match s.backend backend with
    | some b => if b.up then (s.setBackend backend (some { b with up := false, lostAt := some s.time.tick, tries := 0, queues := [] })).log 0x0A02 backend 0 else s
    | none => s)

/-- Whether the next try to reconnect to a backend is due: 500 ms after the loss, and 500 ms after each try. -/
def State.tryDue (s : State) (b : Backend) : Bool :=
  match b.lostAt with | some l => !b.up && decide (l + (b.tries + 1) * s.msTicks 500 ≤ s.time.tick) | none => false

/-- BACKEND_RECONNECT (R319): a try every 500 ms; a connection that comes up serves the commands that wait. -/
def execBackendReconnect (backend : Nat) (up : Bool) (s : State) : Answer :=
  .next (match s.backend backend with
    | some b =>
      if !s.tryDue b then s
      else
        let s1 := s.toBackend backend 0 (connectCapsule 0 b.subnqn)
        if up then ((s1.setBackend backend (some { b with up := true, lostAt := none, tries := 0 })).log 0x0A02 backend 1).pumpBackends
        else s1.setBackend backend (some { b with tries := b.tries + 1 })
    | none => s)

/-- Whether a backend command has timed out (R319): 2 s after it was sent, 2 s after the connection was lost, or after waiting 2 s for a
backend that is DOWN. -/
def State.bcmdExpired (s : State) (c : BackendCmd) : Bool :=
  let limit := s.msTicks 2000
  match c.sent with
  | some t => decide (t + limit ≤ s.time.tick) || (match s.backend c.backend with
      | some b => (match b.lostAt with | some l => decide (t ≤ l) && decide (l + limit ≤ s.time.tick) | none => false)
      | none => true)
  | none => (match s.backend c.backend with | some b => !b.up && decide (c.since + limit ≤ s.time.tick) | none => true)

/-- BACKEND_COMMAND_TIMEOUT (R319). -/
def execBackendCommandTimeout (bref : Nat) (s : State) : Answer :=
  .next (match s.bcmd bref with
    | some c => if s.bcmdExpired c then (if c.cancelled then (s.setBcmd bref none).pumpBackends else s.endBcmd bref c 3) else s
    | none => s)

/-- BACKEND_QUEUE_IDLE_CLOSE (R313): a queue unused for 10 s is closed. -/
def execBackendQueueIdleClose (backend queue : Nat) (s : State) : Answer :=
  .next (match s.backend backend with
    | some b =>
      (match FMap.get none b.queues queue with
       | some t => if t + s.msTicks 10000 ≤ s.time.tick then s.setBackend backend (some { b with queues := FMap.set none b.queues queue none }) else s
       | none => s)
    | none => s)

/-- BACKEND_KEEP_ALIVE (R317): a Keep Alive to the target. -/
def execBackendKeepAlive (backend : Nat) (s : State) : Answer :=
  .next (match s.backend backend with
    | some b =>
      if b.up then (s.setBackend backend (some { b with keepAlives := b.keepAlives + 1 })).toBackend backend 0 (padTo 64 [0x18]) else s
    | none => s)

end Sys2Proof.Machine
end

