-- ==== Sys2Proof/Machine/ConfigSpace.lean ====
section
/-!
DEFINITION. What configuration space reads (R183 to R188, R194, R205): the fields that no write changes, over the writable registers of a function.
Values that R185 leaves to the standard, and the capability versions and bit places that the spec does not give, are the standard's (log 44).
-/

namespace Sys2Proof.Machine

/-- A register field of configuration space: its offset, its width in bytes and its value. -/
abbrev CfgField := Nat × Nat × Nat

/-- Vectors in a function's MSI-X table (R188, R278): that many registers exist. -/
def State.tableVectors (s : State) (fn : Nat) : Nat :=
  if fn = 0 then 1024 else if fn < 3 then 2048
  else match fnInst fn with
    | some n => (match s.inst n with | some i => if fnSto fn then i.vecSto else i.vecNet | none => 0)
    | none => 0

/-- The Device ID and class code of a PF (R183). -/
def pfIdent (fn : Nat) (recovery : Bool) : Nat × Nat :=
  match fn with
  | 0 => (if recovery then 0x5A1F else 0x5A10, 0x088000)
  | 1 => (0x5A11, 0x020000)
  | _ => (0x5A12, 0x010802)

/-- The subsystem ID by order code (R183). -/
def subsystemId : Nat := if Config.orderKD then 0x0002 else 0x0001

/-- The type 0 header (R183, R185). Interrupt Disable, bit 10 of a PF's Command, is hardwired to 1. -/
def State.headerFields (s : State) (fn : Nat) : List CfgField :=
  let pf := decide (fn < 3)
  let (dev, cls) := pfIdent (fnPf fn) s.boot.recoveryPers
  [(0x00, 2, if pf then 0x1F3C else 0xFFFF), (0x02, 2, if pf then dev else 0xFFFF), (0x04, 2, if pf then 0x0400 else 0),
   (0x06, 2, 0x0010 + (s.fn fn).status.toNat), (0x08, 1, 0x01), (0x09, 3, cls), (0x0E, 1, if fn = 0 ∧ !s.boot.recoveryPers then 0x80 else 0),
   (0x10, 4, if pf then 4 else 0), (0x18, 4, if pf && decide (fn ≠ 0) then 4 else 0), (0x2C, 2, 0x1F3C), (0x2E, 2, subsystemId),
   (0x34, 1, if pf then 0x40 else 0x50)]

/-- Power Management at 0x40 (R186, R205): Version 3, PME from D0, D3hot and D3cold, Aux_Current 0, No_Soft_Reset 1. -/
def pmFields (fn : Nat) : List CfgField := if fn < 3 then [(0x40, 1, 0x01), (0x41, 1, 0x50), (0x42, 2, 0xC803), (0x44, 1, 0x08)] else []

/-- MSI-X at 0x50 (R186, R188): the table size, and where table and pending bits lie (offset and BAR). -/
def State.msixFields (s : State) (fn : Nat) : List CfgField :=
  let pba := if fn = 0 then 0xC000 else if fn < 3 then 0x8000 else 0x800
  [(0x50, 1, 0x11), (0x51, 1, 0x70), (0x52, 2, s.tableVectors fn - 1), (0x54, 4, if fn = 0 then 0x8000 else 2), (0x58, 4, pba + (if fn = 0 then 0 else 2))]

/-- The code of a link rate. -/
def rateCode (x10 : Nat) : Nat := match x10 with | 25 => 1 | 50 => 2 | 80 => 3 | 160 => 4 | 320 => 5 | _ => 6

/-- PCI Express at 0x70 (R186, R187), and Device Capabilities 3, which the model puts at 0x274 (log 23). Link Status shows the link as it is. -/
def State.expressFields (s : State) (fn : Nat) : List CfgField :=
  let ltr := if fn = 0 then 0x800 else 0
  [(0x70, 2, 0x0010), (0x72, 2, 0x0002), (0x74, 4, 0x10008702), (0x7A, 2, (s.fn fn).devStatus.toNat), (0x7C, 4, 0x413D06),
   (0x82, 2, rateCode s.pcie.rateX10 + 16 * s.pcie.width), (0x94, 4, 0x30001 + ltr), (0x9C, 4, 0x4000007E)] ++
    (if fn = 0 then [(0x274, 4, 0x6)] else [])

/-- An extended capability's header: its ID, version and the next one's offset. -/
def extHeader (off cap ver next : Nat) : CfgField := (off, 4, cap + 2 ^ 16 * ver + 2 ^ 20 * next)

/-- AER at 0x100 (R186, R194). -/
def State.aerFields (s : State) (fn : Nat) : List CfgField :=
  let f := s.fn fn
  [extHeader 0x100 0x0001 2 (if fn = 0 then 0x188 else 0x148), (0x104, 4, f.aerUncor.toNat), (0x110, 4, f.aerCor.toNat), (0x118, 1, f.errPtr % 32),
   (0x11C, 16, ofLe f.hdrLog)]

/-- SR-IOV at 0x148 of PF1 and PF2 (R184, R186): InitialVFs, TotalVFs, the dependency link, First VF Offset, VF Stride, VF Device ID, page sizes, and
the VF BARs' types. -/
def sriovFields (fn : Nat) : List CfgField :=
  if fn = 1 ∨ fn = 2 then
    [extHeader 0x148 0x0010 1 0x188, (0x154, 2, 4096), (0x156, 2, 4096), (0x15A, 1, fn), (0x15C, 2, if fn = 1 then 0x00FF else 0x10FE), (0x15E, 2, 1),
     (0x162, 2, if fn = 1 then 0x5A19 else 0x5A1A), (0x164, 4, 1), (0x168, 4, 1), (0x16C, 4, 4), (0x174, 4, 4)]
  else []

/-- ARI, the Device Serial Number and the link-wide capabilities of PF0 (R186). -/
def extFields (fn : Nat) : List CfgField :=
  if fn < 3 then
    [extHeader 0x188 0x000E 1 0x190, (0x18D, 1, if fn = 0 then 1 else if fn = 1 then 2 else 0), extHeader 0x190 0x0003 1 (if fn = 0 then 0x1A0 else 0),
     (0x194, 8, Config.serial.toNat)] ++
    (if fn = 0 then
      [extHeader 0x1A0 0x0025 1 0x1B0, extHeader 0x1B0 0x0026 1 0x1E0, extHeader 0x1E0 0x002A 1 0x210, extHeader 0x210 0x0031 1 0x230,
       extHeader 0x230 0x0032 1 0x250, extHeader 0x250 0x001E 1 0x268, extHeader 0x268 0x0018 1 0]
     else [])
  else [extHeader 0x148 0x000E 1 0]

/-- Every field of a function's configuration space that a configuration write does not change. -/
def State.cfgFixed (s : State) (fn : Nat) : List CfgField :=
  s.headerFields fn ++ pmFields fn ++ s.msixFields fn ++ s.expressFields fn ++ s.aerFields fn ++ sriovFields fn ++ extFields fn

/-- The byte that a field gives at an offset. -/
def CfgField.byteAt (f : CfgField) (off : Nat) : Byte :=
  if f.1 ≤ off ∧ off < f.1 + f.2.1 then BitVec.ofNat 8 (f.2.2 / 256 ^ (off - f.1)) else 0

/-- The writable bits of the configuration byte at an offset, as a mask: the fields that the spec names (log 44). -/
def cfgMask (fn off : Nat) : Nat :=
  if fn < 3 then
    match off with
    | 0x04 => 0x46 | 0x05 => 0x01
    | 0x12 => 0xFF | 0x13 => 0xFF | 0x14 => 0xFF | 0x15 => 0xFF | 0x16 => 0xFF | 0x17 => 0xFF
    | 0x3C => 0xFF
    | 0x45 => 0x01
    | 0x53 => 0xC0
    | 0x78 => 0xFF | 0x79 => 0x7F
    | 0x80 => if fn = 0 then 0xFB else 0
    | 0x98 => 0x0F | 0x99 => if fn = 0 then 0x14 else 0x10
    | 0x114 => 0xC1 | 0x115 => 0x31
    | _ =>
      if 0x108 ≤ off ∧ off < 0x110 then 0xFF
      else if fn ≠ 0 ∧ off = 0x11 then 0xE0
      else if fn ≠ 0 ∧ 0x1A ≤ off ∧ off < 0x20 then 0xFF
      else if fn ≠ 0 ∧ off = 0x150 then 0x19
      else if fn ≠ 0 ∧ (off = 0x158 ∨ off = 0x159) then 0xFF
      else if fn ≠ 0 ∧ (off = 0x16D ∨ off = 0x175) then 0xF0
      else if fn ≠ 0 ∧ (0x16E ≤ off ∧ off < 0x174 ∨ 0x176 ≤ off ∧ off < 0x17C) then 0xFF
      else if fn = 0 ∧ (off = 0x278 ∨ 0x258 ≤ off ∧ off < 0x260 ∨ 0x26C ≤ off ∧ off < 0x270) then 0xFF
      else 0
  else
    match off with
    | 0x04 => 0x04
    | 0x53 => 0xC0
    | 0x98 => 0x0F
    | _ => 0

/-- A byte of a function's configuration space as it reads: of what was written, a VF shows only what it implements. -/
def State.cfgByte (s : State) (fn off : Nat) : Byte :=
  let w := Mem.rd (s.fn fn).cfg off
  (s.cfgFixed fn).foldl (fun b f => b ||| f.byteAt off) (if fn < 3 then w else w &&& BitVec.ofNat 8 (cfgMask fn off))

/-- `n` bytes of configuration space. -/
def State.cfgRead (s : State) (fn off n : Nat) : List Byte := (List.range n).map (fun i => s.cfgByte fn (off + i))

/-- Write configuration bytes under their masks. -/
def cfgWrite (fn : Nat) : FMap Byte → Nat → List Byte → FMap Byte
  | c, _, [] => c
  | c, off, b :: bs =>
    let m := cfgMask fn off
    cfgWrite fn (Mem.wr c off (BitVec.ofNat 8 ((Mem.rd c off).toNat &&& (255 - m) ||| b.toNat &&& m))) (off + 1) bs

end Sys2Proof.Machine
end

