-- ==== Sys2Proof/Machine/BootOps.lean ====
section
/-!
DEFINITION. Shared operations of boot, images and keys (19): the journal, key slots, the flash chips, image headers and their verification,
markers, the floor and selection.
-/

namespace Sys2Proof.Machine

/-! ### The journal (R415 to R417) -/

/-- Append a record: it is in force from here on. -/
def State.jAppend (s : State) (kind value : Nat) : State :=
  let n := s.nv
  { s with nv := { n with journal := n.journal ++ [{ jseq := n.jseq + 1, kind := kind, value := value }], jseq := n.jseq + 1, bankUsed := n.bankUsed + 1 } }

/-- Ask the SP for an append (R385, R416): while no MP is active at most 64 wait. -/
def State.requestAppend (s : State) (kind value : Nat) : State :=
  if !s.boot.mpRunning && decide (64 ≤ s.repair.appends.length) then s
  else { s with repair := { s.repair with appends := s.repair.appends ++ [(kind, value)] } }

/-- The latest value of a kind of record that holds one number. -/
def State.jLast (s : State) (kind : Nat) : Nat := s.nv.journal.foldl (fun v r => if r.kind = kind then r.value else v) 0

/-- The object of a record, on which a later record of its kind replaces it (R385, R415). -/
def jObject (r : JRec) : Nat :=
  match r.kind with
  | 1 => if bits r.value 60 4 ∈ [1, 2, 6] then r.value / 2 ^ 24 else r.value / 2 ^ 40
  | 3 => r.jseq
  | 4 => r.value % 2 ^ 40
  | 5 => bits r.value 32 6
  | _ => 0

/-- Whether a record is still in force, given the records after it: FLOOR by highest value, BOOT_TRY until a BOOT_OK for its image. -/
def jInForce (r : JRec) (later all : List JRec) : Bool :=
  if r.kind = 2 then !(all.any (fun x => decide (x.kind = 2) && decide (r.value < x.value))) && !(later.any (fun x => decide (x.kind = 2) && decide (x.value = r.value)))
  else if r.kind = 3 then !(later.any (fun x => decide (x.kind = 4) && decide (x.value % 2 ^ 40 = r.value % 2 ^ 40)))
  else !(later.any (fun x => decide (x.kind = r.kind) && decide (jObject x = jObject r)))

/-- The records in force, in order. -/
def inForce (all : List JRec) : List JRec → List JRec
  | [] => []
  | r :: rest => if jInForce r rest all then r :: inForce all rest else inForce all rest

/-! ### Keys and lifecycle (R414, R420, R421) -/

/-- The hashes of a key slot, programmed in service or before shipment. -/
def State.keyHashes (s : State) (k : Nat) : Option (Nat × Nat) :=
  match FMap.get none s.nv.keys k with
  | some h => some h
  | none => (Config.fusedKeys.find? (fun e => decide (e.1 = k))).map (fun e => (e.2.1.toNat, e.2.2.toNat))

/-- Whether a key slot is programmed. -/
def State.keyProgrammed (s : State) (k : Nat) : Bool := decide (k < 4) && (s.keyHashes k).isSome
/-- Whether a key slot is live. -/
def State.keyLive (s : State) (k : Nat) : Bool := s.keyProgrammed k && !s.nv.revoked.contains k

/-! ### Flash (R418) -/

/-- A flash chip. -/
def State.chip (s : State) (n : Nat) : FMap Byte := if n = 0 then s.nv.chip0 else s.nv.chip1

/-- Replace a flash chip. -/
def State.setChip (s : State) (n : Nat) (c : FMap Byte) : State := { s with nv := if n = 0 then { s.nv with chip0 := c } else { s.nv with chip1 := c } }

/-- `n` bytes of a chip from an address; an erased byte reads 0xFF. -/
def chipRd (c : FMap Byte) : Nat → Nat → List Byte
  | _, 0 => []
  | a, n + 1 => FMap.get 0xFF c a :: chipRd c (a + 1) n

/-- Program bytes of a chip. -/
def chipWr : FMap Byte → Nat → List Byte → FMap Byte
  | c, _, [] => c
  | c, a, b :: bs => chipWr (FMap.set 0xFF c a b) (a + 1) bs

/-- Erase a range of a chip. -/
def chipErase (c : FMap Byte) (lo hi : Nat) : FMap Byte := c.filter (fun e => decide (e.1 < lo) || decide (hi ≤ e.1))

/-- Start of the valid-marker sector, and its end. -/
def markerAt : Nat := 0x3000000
/-- End of the image area that IMAGE_WRITE addresses. -/
def imageEnd : Nat := 0x3000000

/-- Whether a chip is usable. -/
def State.chipUsable (s : State) (n : Nat) : Bool := s.repair.flash.getD n false

/-! ### Image headers (R419, R420) -/

/-- Ranges that lie within the body and do not overlap. -/
def partsOk (ps : List (Nat × Nat)) (body : Nat) : Bool :=
  ps.all (fun p => decide (p.1 + p.2 ≤ body)) &&
    (ps.zipIdx.all (fun a => ps.zipIdx.all (fun b => decide (a.2 = b.2) || decide (a.1.1 + a.1.2 ≤ b.1.1) || decide (b.1.1 + b.1.2 ≤ a.1.1))))

/-- A header's parts: stage 1, MP firmware, Farrier firmware, as (offset, length). -/
def hdrParts (h : List Byte) : List (Nat × Nat) := [0x10, 0x18, 0x20].map (fun o => (fieldLe h o 4, fieldLe h (o + 4) 4))

/-- Whether a header is well formed over a body of `body` bytes. -/
def hdrForm (h : List Byte) (body : Nat) : Bool :=
  decide (fieldLe h 0 4 = 0x57534731) && decide (fieldLe h 4 2 = 1) && decide (fieldLe h 7 1 < 2) && decide (fieldLe h 6 1 < 4) &&
    decide (slice h 0x28 8 = zeros 8) && decide (slice h 0xC0 64 = zeros 64) && decide (1 ≤ fieldLe h 8 4) && decide (fieldLe h 0x14 4 ≤ 262144) &&
    decide (fieldLe h 0x1C 4 ≤ 33554432) && decide (fieldLe h 0x24 4 ≤ 131072) && partsOk (hdrParts h) body && (slice h 0x164D (0x2000 - 0x164D)).all (· = 0)

/-- SEQ of a header. -/
def hdrSeq (h : List Byte) : Nat := fieldLe h 8 4
/-- KEY of a header. -/
def hdrKey (h : List Byte) : Nat := fieldLe h 6 1

/-- SHA-384 as 48 bytes. -/
def shaBytes (b : List Byte) : List Byte := beBytes 48 (Config.sha384 b).toNat

/-- Whether both signatures of a header verify over its signed message with the keys of its slot. -/
def State.hdrSigned (s : State) (h : List Byte) : Bool :=
  match s.keyHashes (hdrKey h) with
  | none => false
  | some k =>
    decide ((Config.sha384 (slice h 0x100 96)).toNat = k.1) && decide ((Config.sha384 (slice h 0x1C0 1952)).toNat = k.2) &&
      Config.ecdsaVerify (slice h 0x100 96) (slice h 0 256) (slice h 0x160 96) && Config.mldsaVerify (slice h 0x1C0 1952) (slice h 0 256) (slice h 0x960 3309)

/-- Whether part `i` of an image matches its digest; `body` reads the body. -/
def partOk (h : List Byte) (body : Nat → Nat → List Byte) (i : Nat) : Bool :=
  match (hdrParts h)[i]? with
  | some p => decide (shaBytes (body p.1 p.2) = slice h (0x30 + 48 * i) 48)
  | none => false

/-- The check of R433's table, without the floor: BAD_DESCRIPTOR, REVOKED, ACCESS_DENIED or OK. -/
def State.hdrStatus (s : State) (h : List Byte) (body : Nat) : Byte :=
  if !hdrForm h body then 0x0A else if !s.keyLive (hdrKey h) then 0x0D else if s.hdrSigned h then 0 else 0x08

/-- Whether a header verifies (R420). -/
def State.hdrVerifies (s : State) (h : List Byte) (body : Nat) : Bool := decide (s.hdrStatus h body = 0)

/-! ### Slots, markers, selection (R422 to R424) -/

/-- The header in a slot. -/
def State.slotHdr (s : State) (slot : Nat) : List Byte := chipRd (s.chip slot) 0 0x2000
/-- Bytes of a slot's body. -/
def State.slotBody (s : State) (slot off n : Nat) : List Byte := chipRd (s.chip slot) (0x2000 + off) n
/-- Bytes of a slot's body area. -/
def slotBodySize : Nat := 0x3000000 - 0x2000

/-- A valid marker for a header. -/
def markerFor (h : List Byte) : List Byte :=
  let b := leBytes 4 0x564D4B31 ++ leBytes 4 (hdrSeq h) ++ shaBytes h
  b ++ leBytes 4 (crc 0 b).toNat

/-- Whether a slot's marker holds and matches its header. -/
def State.marked (s : State) (slot : Nat) : Bool := decide (chipRd (s.chip slot) markerAt 60 = markerFor (s.slotHdr slot))

/-- The floor: the highest of the fused floor and every FLOOR record. -/
def State.floor (s : State) : Nat := s.nv.journal.foldl (fun f r => if r.kind = 2 then max f (r.value % 2 ^ 32) else f) Config.fusedFloor

/-- BOOT_TRY records of an image and slot after the last BOOT_OK for it. -/
def bootTries (seq slot : Nat) (js : List JRec) : Nat :=
  js.foldl (fun n r => if r.value % 2 ^ 40 = seq % 2 ^ 32 + slot * 2 ^ 32 then (if r.kind = 3 then n + 1 else if r.kind = 4 then 0 else n) else n) 0

/-- Whether a slot is a candidate (R423, R430, R431), apart from those that failed in this power-up. -/
def State.candidate (s : State) (slot : Nat) : Bool :=
  let h := s.slotHdr slot
  let seq := hdrSeq h
  s.chipUsable slot && s.marked slot && decide (s.floor ≤ seq) && !(decide (s.floor < seq) && decide (3 ≤ bootTries seq slot s.nv.journal)) &&
    (!s.boot.straps.compatBoot || bitOf (fieldLe h 7 1) 0) &&
    (decide (s.boot.straps.bootMode ≠ 1) || decide (slot = 0)) && (decide (s.boot.straps.bootMode ≠ 2) || decide (slot = 1))

/-- The slots in the order in which they are tried: SEQ descending, SLOT_A first on ties. -/
def State.slotOrder (s : State) : List Nat := if hdrSeq (s.slotHdr 0) < hdrSeq (s.slotHdr 1) then [1, 0] else [0, 1]

/-- Whether a slot's header verifies and its stage 1 matches its digest. -/
def State.slotPasses (s : State) (slot : Nat) : Bool :=
  let h := s.slotHdr slot
  s.hdrVerifies h slotBodySize && partOk h (s.slotBody slot) 0

/-- The first candidate that passes, among those that have not failed in this power-up. -/
def State.selectSlot (s : State) : Option Nat := s.slotOrder.find? (fun n => s.candidate n && !s.boot.tried.contains n && s.slotPasses n)

/-- The slot that the next device reset would select (R322). -/
def State.nextSlot (s : State) : Option Nat := s.slotOrder.find? (fun n => s.candidate n && s.slotPasses n)

/-- The status of validating a slot (IMAGE_VALIDATE, R422): header, digests, then the floor. -/
def State.validateStatus (s : State) (slot : Nat) : Byte :=
  let h := s.slotHdr slot
  let st := s.hdrStatus h slotBodySize
  if st ≠ 0 then (if st = 0x0A then 0x08 else st)
  else if !((List.range 3).all (partOk h (s.slotBody slot))) then 0x08
  else if hdrSeq h ≤ s.floor then 0x0F else 0

/-- Program a slot's valid marker. -/
def State.writeMarker (s : State) (slot : Nat) : State := s.setChip slot (chipWr (s.chip slot) markerAt (markerFor (s.slotHdr slot)))

/-- Erase a slot's marker sector. -/
def State.clearMarker (s : State) (slot : Nat) : State := s.setChip slot (chipErase (s.chip slot) markerAt (markerAt + 0x1000))

/-- Write bytes into a slot's image area, clearing its marker (R422, R243). -/
def State.slotWrite (s : State) (slot off : Nat) (bs : List Byte) : State :=
  let s1 := s.clearMarker slot
  s1.setChip slot (chipWr (s1.chip slot) off bs)

/-- Whether the new image of a switch verifies (R406): its marker holds and it passes. -/
def State.slotValid (s : State) (slot : Nat) : Bool := s.chipUsable slot && s.marked slot && decide (s.floor ≤ hdrSeq (s.slotHdr slot)) && s.slotPasses slot

end Sys2Proof.Machine
end

