-- ==== Sys2Proof/Machine/Classify.lean ====
section
/-!
DEFINITION. Classification (R109, R111 to R119, R131, R132, R138 to R140): stages, keys, the verdict and its effect, and the spread table.
-/

namespace Sys2Proof.Machine

/-! ### The configuration of one version -/

/-- The configuration that a frame of a version is classified under (R136). -/
def State.clsOf (s : State) (ver : Nat) : ClsConfig :=
  if s.cls.cur.ver = ver then s.cls.cur else ((s.cls.former.find? (fun v => decide (v.1.ver = ver))).map Prod.fst).getD s.cls.cur

/-- The hash profile of a logical ingress port: a lane's, or for 0x20 + g group g's (R138, log 63). -/
def ClsConfig.profile (c : ClsConfig) (lport : Nat) : Byte := FMap.get 2 c.profiles (if 32 ≤ lport then lport - 12 else lport)

/-- Entry `i` of the spread table; at reset logical yard i mod 32 and engine (i >> 5) mod 32 (R140). -/
def spreadEntry (c : ClsConfig) (i : Nat) : Nat :=
  let v := FMap.get 0xFFFF c.spread i
  if v = 0xFFFF then (i / 32) % 32 + 32 * (i % 32) else v

/-- The logical engine (yard × 32 + engine) that a spread hash selects. -/
def spreadEngine (c : ClsConfig) (hash : Nat) : Nat :=
  let v := spreadEntry c (hash % 4096)
  (v / 32 % 32) * 32 + v % 32

/-! ### Stages (R117 to R119) -/

/-- What the stages have given a frame so far (R112, R113, R116). `verdict` is the action and the stage that gave it. -/
structure Run where
  carries : List Word
  verdict : Option (Word × Nat)
  hits : Nat
  reads : Nat
  stop : Bool
deriving DecidableEq, Repr

/-- Carry register `n`. -/
def Run.c (r : Run) (n : Nat) : Nat := (r.carries.getD n 0).toNat

/-- The bytes of a key segment; a byte beyond the header vector, or of an absent layer, reads 0 (R119). -/
def segBytes (hv : Mem) (r : Run) (seg : Nat) : List Byte :=
  let off := bits seg 5 9
  let len := bits seg 14 4 + 1
  let rd := fun (a : Nat) => (List.range len).map (fun j => if a + j < 512 then Mem.rd hv (a + j) else 0)
  let raw := match bits seg 0 2 with
    | 1 => rd off
    | 2 => (match hvLayer hv (bits seg 2 3) with | some (o, _) => rd (0xA0 + o + off) | none => zeros len)
    | _ => (leBytes 4 (r.c (off % 32))).take len
  raw.take (len - 1) ++ (raw.drop (len - 1)).map (fun b => b &&& BitVec.ofNat 8 (bits seg 18 8))

/-- The segments of a descriptor in index order, up to the first unused one (R118). -/
def descSegs (d : List Byte) : List Nat := ((List.range 10).map (fun i => fieldLe d (0x18 + 4 * i) 4)).takeWhile (fun g => decide (bits g 0 2 ≠ 0))

/-- The key that a stage builds. -/
def stageKey (hv : Mem) (r : Run) (d : List Byte) : List Byte := ((descSegs d).map (segBytes hv r)).flatten

/-- Whether some segment names an absent layer. -/
def lacksLayer (hv : Mem) (d : List Byte) : Bool :=
  (descSegs d).any (fun g => decide (bits g 0 2 = 2) && (hvLayer hv (bits g 2 3)).isNone)

/-- Whether a stage is skipped (R117, R118). -/
def stageSkipped (hv : Mem) (r : Run) (d : List Byte) : Bool :=
  decide (fieldLe d 0 1 = 0) || (bitOf (fieldLe d 1 1) 0 && lacksLayer hv d) ||
    (bitOf (fieldLe d 1 1) 1 && decide (r.c (fieldLe d 8 1 % 32) &&& fieldLe d 0x0C 4 ≠ fieldLe d 0x10 4))

/-- The table that a stage looks up. -/
def stageTable (r : Run) (d : List Byte) : Nat := fieldLe d (4 + r.c (fieldLe d 2 1 % 32) / 2 ^ fieldLe d 3 1 % 4) 1

/-- Apply an action of stage `n` with its data words (R113, R114). -/
def applyAction (r : Run) (n : Nat) (a : Word) (data : List Word) : Run :=
  let words := (List.range (actNdata a)).map (fun i => data.getD i 0)
  let cs := (r.carries.take (actCdst a) ++ words ++ r.carries.drop (actCdst a + words.length)).take 32
  let kind := actKind a
  { r with carries := cs, verdict := if kind = 0 ∨ kind = 1 then r.verdict else some (a, n), stop := actFinal a }

/-- One stage (R118). `fails` are the checks that fail in this frame's lookups, by stage. A lookup whose access fails is a miss, as one of a failed
table-store word is (R365; for a control line DESIGN CHOICE, log 65). -/
def runStage (c : ClsConfig) (hv : Mem) (fails : List (Nat × LookupFail)) (p : Run × State) (n : Nat) : Run × State :=
  let r := p.1
  let s := p.2
  if r.stop then p
  else
    let d := FMap.get [] c.stages n
    if stageSkipped hv r d then (r, { s with cls := { s.cls with stageSkips := bump s.cls.stageSkips n 1 } })
    else
      let tab := stageTable r d
      match c.table tab with
      | none => (r, s)
      | some t =>
        let fail := (fails.find? (fun x => decide (x.1 = n))).map Prod.snd
        let (_, found, reads, s1) := s.lookupChecked tab t (slice (stageKey hv r d) 0 t.keylen) fail
        let r1 := { r with reads := r.reads + reads }
        match found with
        | some (e, _) => (applyAction { r1 with hits := r1.hits + 2 ^ n } n e.action e.data, s1)
        | none =>
          let miss := BitVec.ofNat 32 (fieldLe d 0x14 4)
          if miss = 0 then (r1, s1) else (applyAction r1 n miss [], s1)

/-- The carry registers before S0 (R112). -/
def firstCarries (lane lport pstatus hash : Nat) : List Word :=
  List.replicate 28 0 ++ [0x0000FFFF#32, 0, BitVec.ofNat 32 hash, BitVec.ofNat 32 (lane + 256 * lport + 65536 * pstatus)]

/-- Stages S0 to S11 from given carries. -/
def runStages (c : ClsConfig) (hv : Mem) (fails : List (Nat × LookupFail)) (s : State) (carries : List Word) : Run × State :=
  (List.range 12).foldl (runStage c hv fails) ({ carries := carries, verdict := none, hits := 0, reads := 0, stop := false }, s)

/-! ### The verdict (R114 to R116) -/

/-- Write the classification area of a header vector (R116). -/
def writeArea (hv : Mem) (verdict : Word) (hash vstage : Nat) (r : Run) : Mem :=
  Mem.wrN hv 0x20 (leBytes 4 (bits verdict.toNat 0 30) ++ leBytes 4 hash ++ leBytes 2 r.hits ++ [BitVec.ofNat 8 vstage, BitVec.ofNat 8 r.reads] ++
    leBytes 4 (r.c 28) ++ ([24, 25, 26, 27].map (fun n => leBytes 4 (r.c n))).flatten)

/-- A frame that classification is done with: what the verdict's effect needs. -/
structure Verdict where
  frame : PFrame
  action : Word
  hash : Nat
  run : Run
  hv : Mem
deriving DecidableEq, Repr

/-- The INSTANCE of a classified frame. -/
def Verdict.inst (v : Verdict) : Half := BitVec.ofNat 16 (v.run.c 28)

/-- The GENERATION recorded for a classified frame: the instance's own when the carry leaves it 0 (R282). -/
def State.verdictGen (s : State) (v : Verdict) : Half :=
  let g := BitVec.ofNat 16 (v.run.c 28 / 65536)
  if g = 0 ∧ v.inst ≠ 0xFFFF#16 then (s.gen v.inst.toNat).getD 0 else g

/-- A frame as the punt queue or a transport unit holds it. -/
def State.heldFrame (s : State) (v : Verdict) (cls : Nat) : HeldFrame :=
  { cls := cls, lane := v.frame.lane, handle := v.frame.handle, len := v.frame.bytes.length, inst := v.inst, gen := s.verdictGen v,
    carries := v.run.carries, hv := v.hv }

/-- The program that an engine's active bank holds. -/
def State.programOf (s : State) (leng : Nat) : Nat := match s.peng leng with | some pe => (s.eng pe).bank.program.toNat | none => 0

/-- The position that an arrival of an engine and entry is forwarded to (R446). -/
def State.stageTo (s : State) (leng entry : Nat) : Option Nat :=
  (s.stack.stages.find? (fun b => decide (b.1 = s.programOf leng) && decide (b.2.1 = entry))).map (fun b => b.2.2)

/-- This module's position in its stack (R434). -/
def State.position (s : State) : Nat := s.boot.straps.pos.val

/-- Hops eastward from this module to a position: members of the ring from the next one up to it (R434). -/
def State.hopsEast (s : State) (dst : Nat) : Nat :=
  let me := s.position
  (s.stack.members.filter (fun p => if me < dst then decide (me < p) && decide (p ≤ dst) else decide (me < p) || decide (p ≤ dst))).length

/-- Whether a frame to a position leaves eastward (R435): fewer hops, east on a tie, and the other way when a direction's lanes are down. S0 and
S1 lead east, S2 and S3 west. -/
def State.goesEast (s : State) (dst : Nat) : Bool :=
  let isUp := fun (n : Nat) => match s.ports.lanes[n]? with | some l => decide (l.st = .up) | none => false
  let e := isUp 16 || isUp 17
  let w := isUp 18 || isUp 19
  let east := decide (2 * s.hopsEast dst ≤ s.stack.members.length)
  if east then e || !w else e && !w

/-- The lane of a direction that a stack frame leaves on: the one that is UP; either when both are, or none is, which is open (log 64). -/
def State.stackLane (s : State) (east : Bool) : Nat × State :=
  let isUp := fun (n : Nat) => match s.ports.lanes[n]? with | some l => decide (l.st = .up) | none => false
  let a := if east then 16 else 18
  if isUp a && !isUp (a + 1) then (a, s) else if isUp (a + 1) && !isUp a then (a + 1, s)
  else
    let (b, s1) := s.freshBit
    (if b then a else a + 1, s1)

/-- A stack frame, with the buffer that it holds until it is sent, as a queued frame. -/
def stackQFrame (h : Word) (f : StackFrame) : QFrame :=
  { handle := h, len := 16 + f.body.length, off := 0, edit := 0, flags := 0, l3at := 0, l4at := 0, tsat := 0, arg := 0, cap := none, icrc := false,
    built := .stack f }

/-- A stack frame is enqueued for the next commit in one direction: CONTROL in class 7, the others in class 0 (R436). -/
def State.stackOut (s : State) (east : Bool) (h : Word) (f : StackFrame) : State :=
  let (lane, s1) := s.stackLane east
  { s1 with tm := { s1.tm with mpOut := s1.tm.mpOut ++ [(stackQueue lane (decide (f.kind = 1)), stackQFrame h f)] } }

/-- A frame to one position leaves in its direction, and one to every position in both (R435, R436). -/
def State.stackRoute (s : State) (h : Word) (f : StackFrame) : State :=
  if f.dst = 0xFF then (s.stackOut true h f).stackOut false h f else s.stackOut (s.goesEast f.dst) h f

/-- Send a frame of this module on the stack (R436); it holds buffer `h`, or none. -/
def State.stackSend (s : State) (kind dst index : Nat) (aux : Word) (h : Word) (body : List Byte) : State :=
  s.stackRoute h { kind := kind, src := s.position, dst := dst, hops := 0, index := index, aux := aux, body := body }

/-- Whether this module takes part in a stack (R434). -/
def State.stacked (s : State) : Bool := s.boot.straps.stackEn

/-- Whether this module is its stack's master (R437). -/
def State.isMaster (s : State) : Bool := decide (s.stack.master = s.position)

/-- The other members of the stack. -/
def State.peers (s : State) : List Nat := s.stack.members.filter (fun p => decide (p ≠ s.position))

/-- Message codes of CONTROL frames; the spec gives no numbers (log 52). -/
def ctlPrepare : Nat := 1
/-- READY. -/
def ctlReady : Nat := 2
/-- NOT_READY. -/
def ctlNotReady : Nat := 3
/-- GO. -/
def ctlGo : Nat := 4
/-- ABANDON. -/
def ctlAbandon : Nat := 5
/-- A COMMIT forwarded to the master. -/
def ctlCommit : Nat := 6
/-- A new master asks for decisions. -/
def ctlDecision : Nat := 7
/-- A STACK_GROUP for every member. -/
def ctlGroup : Nat := 8
/-- An announced admission. -/
def ctlAdmit : Nat := 9
/-- The heartbeat of every tick (R437). -/
def ctlBeat : Nat := 10

/-- The pending period change, or 0xFF for none (R32). -/
def ctlPeriod : Nat := 11

/-- Send a CONTROL frame to a position. -/
def State.control (s : State) (dst code aux : Nat) (body : List Byte) : State := s.stackSend 1 dst code (BitVec.ofNat 32 aux) 0 body

/-- Send a CONTROL frame to every other member. -/
def State.controlAll (s : State) (code aux : Nat) (body : List Byte) : State := s.peers.foldl (fun (s : State) p => s.control p code aux body) s

/-- Record the packet arrival of a dispatch verdict (R48, R115), or send it on as a STAGE frame (R446). -/
def State.dispatchTo (s : State) (v : Verdict) (leng entry : Nat) : State :=
  match s.stageTo leng entry with
  | some pos =>
    let body := leBytes 2 v.frame.bytes.length ++ v.frame.bytes ++ Mem.rdN v.hv 0 512 ++ (v.run.carries.map (fun w => leBytes 4 w.toNat)).flatten
    (s.swapOwner v.frame.handle ownRx ownTm).stackSend 3 pos entry 0 v.frame.handle body
  | none =>
    s.arrive leng
      { kind := 1, entry := entry, op := none, inst := v.inst, gen := s.verdictGen v, arg := v.run.carries.take 8, stack := v.frame.stack,
        handle := v.frame.handle, len := v.frame.bytes.length, source := BitVec.ofNat 8 v.frame.lane, status := 0,
        action := BitVec.ofNat 32 (bits v.action.toNat 0 30), aux := BitVec.ofNat 32 (Mem.rdLe v.hv 8 4), hv := v.hv }

/-- DISPATCH through the spread table. -/
def State.dispatchSpread (s : State) (v : Verdict) : State :=
  s.dispatchTo v (spreadEngine (s.clsOf v.frame.ver) v.hash) (actEntry v.action)

/-- The effect of a verdict on a frame that has its buffer (R115). -/
def State.verdictEffect (s : State) (v : Verdict) : State :=
  let p := actParam v.action
  match actKind v.action with
  | 3 => s.dispatchSpread v
  | 4 =>
    let leng := (p / 32) * 32 + p % 32
    if (s.peng leng).isSome then s.dispatchTo v leng (actEntry v.action) else s.dispatchSpread v
  | 5 =>
    if s.cls.punt.length < 4096 then
      let s1 := s.swapOwner v.frame.handle ownRx ownMp
      { s1 with cls := { s1.cls with punt := s1.cls.punt ++ [s1.heldFrame v (p % 256)] } }
    else
      let s1 := s.removeOwner v.frame.handle ownRx
      { s1 with cls := { s1.cls with puntDrop := bump s1.cls.puntDrop (p % 256) 1 } }
  | 6 =>
    let unit := if p % 2 = 0 then 6 else 7
    let s1 := s.swapOwner v.frame.handle ownRx (ownUnit unit)
    { s1 with cls := { s1.cls with toTransport := s1.cls.toTransport ++ [(unit, s1.heldFrame v 0)] } }
  | _ =>
    let s1 := s.removeOwner v.frame.handle ownRx
    { s1 with cls := { s1.cls with clsDrop := bump s1.cls.clsDrop (v.frame.lane * 256 + p % 256) 1 } }

/-- A frame without a buffer is dropped after classification (R153). -/
def State.dropNoBuffer (s : State) (v : Verdict) : State := s.rxNoBuffer v.frame.lane v.inst

/-- Count in a lane's counters (R110). -/
def State.laneCtr (s : State) (lane idx n : Nat) : State := { s with ports := { s.ports with ctr := bump s.ports.ctr (lane * 32 + idx) n } }

/-- Settle a frame's verdict from a run of the stages (R109, R113, R116). `vstage0` is the parse failure's code when the stages were
skipped. -/
def State.settle (s : State) (f : PFrame) (c : ClsConfig) (hash : Nat) (failed : Bool) (r : Run) : State :=
  let dflt : Word × Nat := if failed then (FMap.get 2 c.parseFail f.lane, 0x0D) else (FMap.get 2 c.noMatch f.lane, 0x0C)
  let (act, vst) := r.verdict.getD dflt
  let s1 := if !failed && r.verdict.isNone then s.laneCtr f.lane 0x08 1 else s
  let v : Verdict := { frame := f, action := act, hash := hash, run := r, hv := writeArea f.hv act hash vst r }
  if f.noBuf then s1.dropNoBuffer v else s1.verdictEffect v

/-- Classify a frame from given carries, or from those of R112 (R111 to R116), with the checks that fail on the way. -/
def State.classifyWith (s : State) (f : PFrame) (carries : Option (List Word)) (fails : List (Nat × LookupFail)) : State :=
  let c := s.clsOf f.ver
  let pst := (Mem.rd f.hv 3).toNat
  let lport := (Mem.rd f.hv 1).toNat
  let hash := (symHash f.hv (c.profile lport) c.spreadSeed).toNat
  let cs := carries.getD (firstCarries f.lane lport pst hash)
  if pst ≠ 0 then s.settle f c hash true { carries := cs, verdict := none, hits := 0, reads := 0, stop := true }
  else
    let (r, s1) := runStages c f.hv fails s cs
    s1.settle f c hash false r

/-- Classify a frame. -/
def State.classify (s : State) (f : PFrame) (fails : List (Nat × LookupFail)) : State := s.classifyWith f none fails

/-- Whether a lane feeds pipeline B (R89). -/
def lanePipeB (lane : Nat) : Bool := decide (8 ≤ lane ∧ lane < 16) || decide (18 ≤ lane)

end Sys2Proof.Machine
end

