-- ==== Sys2Proof/Machine/Frames.lean ====
section
/-!
DEFINITION. Meanings of the lane and receive commands (05, 06): FRAME_RECEIVE, CLASSIFICATION_DEQUEUE, LANE_UP, LANE_DOWN, LACP_TIMEOUT,
LACP_PERIODIC_TRANSMIT, and the distribution of aggregation groups (R98 to R101).
-/

namespace Sys2Proof.Machine

/-! ### Lanes and groups -/

/-- A lane. -/
def State.lane? (s : State) (n : Nat) : Option Lane := s.ports.lanes[n]?

/-- Change a lane. -/
def State.modLane (s : State) (n : Nat) (f : Lane → Lane) : State := { s with ports := { s.ports with lanes := modifyAt s.ports.lanes n f } }

/-- Whether a lane is UP. -/
def State.laneIsUp (s : State) (n : Nat) : Bool := match s.lane? n with | some l => decide (l.st = .up) | none => false

/-- The group that a lane is a member of. -/
def State.groupOf (s : State) (lane : Nat) : Option Nat := s.ports.groups.findIdx? (fun g => g.members.contains lane)

/-- A group. -/
def State.group? (s : State) (g : Nat) : Option Group := s.ports.groups[g]?

/-- Whether a member collects: its lane is UP and, in LACP mode, the partner agrees (R99). -/
def State.collects (s : State) (lane : Nat) : Bool :=
  match s.groupOf lane, s.lane? lane with
  | some g, some l => decide (l.st = .up) && (((s.group? g).map (·.isStatic)).getD false || l.partner)
  | _, _ => false

/-- The logical ingress port of a lane (R99). -/
def State.lportOf (s : State) (lane : Nat) : Nat :=
  match s.groupOf lane with | some g => if s.collects lane then 0x20 + g else lane | none => lane

/-- Whether a member may distribute: it collects and no planned replacement has removed it (R93, R99). -/
def State.mayDistribute (s : State) (lane : Nat) : Bool :=
  s.collects lane && !(((s.lane? lane).map (·.removal)).getD false)

/-- Reassign the entries whose home does not distribute and whose present member does not either, round robin from the lowest lane
(R101). `next` counts the entries reassigned so far. -/
def reassign (up : List Nat) : Nat → List (Nat × Nat) → List (Nat × Nat)
  | _, [] => []
  | next, (m, home) :: rest =>
    if up.contains home then (home, home) :: reassign up next rest
    else if up.contains m then (m, home) :: reassign up next rest
    else if up.isEmpty then (m, home) :: reassign up next rest
    else (up.getD (next % up.length) home, home) :: reassign up (next + 1) rest

/-- The members of a group that distribute, in its order; members on other modules are taken to (R445). -/
def State.distributors (s : State) (g : Group) : List Nat :=
  g.order.filter (fun l => decide (32 ≤ l) || (((s.lane? l).map (·.distributing)).getD false))

/-- What the gate sees of the members, for the turn's rewrite (R101). -/
def State.noteWants (s : State) : State :=
  { s with ports := { s.ports with lanes := (List.range 20).zipWith (fun (n : Nat) (l : Lane) => { l with wants := s.mayDistribute n }) s.ports.lanes } }

/-- The turn's rewrite of the distribution tables (R101). -/
def State.redistribute (s : State) : State :=
  let s1 := { s with ports := { s.ports with lanes := s.ports.lanes.map (fun (l : Lane) => { l with distributing := l.wants }) } }
  { s1 with ports := { s1.ports with groups := s1.ports.groups.map (fun (g : Group) => { g with dist := reassign (s1.distributors g) 0 g.dist }) } }

/-- A lane changes state: logged (R91), counted when it leaves UP, with the frame that this cuts off (R92, R110); the partner's agreement is lost
with UP. -/
def State.setLaneCut (s : State) (n : Nat) (st : LaneState) (cut : Bool) : State :=
  match s.lane? n with
  | none => s
  | some l =>
    if l.st = st then s
    else
      let code := match st with | .down => 0 | .noLink => 1 | .up => 2 | .failed => 3
      let s1 := s.modLane n (fun l => { l with st := st, partner := if st = .up then l.partner else false })
      (if l.st = .up then (s1.laneCtr n 0x10 1).laneCtr n 0x06 (b2n cut) else s1).log 0x0301 n code

/-- A lane changes state by a command or a repair; whether a frame was being received is free (log 60). -/
def State.setLane (s : State) (n : Nat) (st : LaneState) : State :=
  let (cut, s1) := s.freshBit
  s1.setLaneCut n st cut

/-- A lane that was being changed to a mode, and has no alignment yet, reports NO_LINK from the tick after (R91, log 60). -/
def State.lanesTrain (s : State) : State :=
  if !s.dataplane then s
  else (List.range 20).foldl (fun (s : State) n => match s.lane? n with
    | some l => if l.mode ≠ 0 ∧ l.st = .down then s.setLane n .noLink else s
    | none => s) s

/-- Whether a lane looks for alignment: it reports NO_LINK, or is still being changed to a mode (R91), and the dataplane is on (R13). -/
def State.laneTrains (s : State) (l : Lane) : Bool :=
  s.dataplane && decide (l.mode ≠ 0) && (decide (l.st = .noLink) || decide (l.st = .down))

/-- Whether a stack link is held down (R435): its neighbour reports STACK_EN low, or this module's own position. -/
def State.linkHeld (s : State) (lane : Nat) (peer : Option (Fin 8)) : Bool :=
  decide (16 ≤ lane) && (match peer with | some p => decide (p.val = s.position) | none => true)

/-- LANE_UP (R91): alignment has been held for 10 ms on a lane that looks for it; a lane that was replaced is reinstated (R93). On a stack lane the
start-up exchange brings the neighbour's position, `none` with STACK_EN low (R435). -/
def execLaneUp (lane : Fin 20) (s : State) (peer : Option (Fin 8) := none) : Answer :=
  .next (match s.lane? lane.val with
    | some l => if s.laneTrains l && !s.linkHeld lane.val peer then (s.setLane lane.val .up).modLane lane.val (fun l => { l with removal := false }) else s
    | none => s)

/-- LANE_DOWN (R91, R92): alignment has been lost for 1 ms. The frames queued on the lane are freed in the commit. -/
def execLaneDown (lane : Fin 20) (cutFrame : Bool) (s : State) : Answer :=
  .next (match s.lane? lane.val with
    | some l => if l.st = .up then s.setLaneCut lane.val .noLink cutFrame else s
    | none => s)

/-- Whether a lane is a member of a group in LACP mode. -/
def State.lacpMember (s : State) (lane : Nat) : Bool :=
  match s.groupOf lane with | some g => !(((s.group? g).map (·.isStatic)).getD true) | none => false

/-- LACP_TIMEOUT (R99): 3 s without an LACPDU; the partner no longer agrees. -/
def execLacpTimeout (lane : Fin 16) (s : State) : Answer :=
  .next (if s.lacpMember lane.val then s.modLane lane.val (fun l => { l with partner := false }) else s)

/-- The queue of the MP firmware on a lane: beyond the numbers that a command can name (log 64). -/
def mpQueue (lane : Nat) : Nat := 65536 + lane

/-- The MP firmware enqueues a frame that it has built for a lane, in the next commit after every item (R168). -/
def State.mpSend (s : State) (lane : Nat) (bs : List Byte) : State :=
  let f : QFrame := { handle := 0, len := bs.length, off := 0, edit := 0, flags := 0, l3at := 0, l4at := 0, tsat := 0, arg := 0, cap := none, icrc := false,
                      built := .bytes bs }
  { s with tm := { s.tm with mpOut := s.tm.mpOut ++ [(mpQueue lane, f)] } }

/-- Whether LACP of a lane's group runs on another module: a group that spans modules runs it on the master (R445). -/
def State.lacpElsewhere (s : State) (lane : Nat) : Bool :=
  match s.groupOf lane with | some g => decide (FMap.get [] s.stack.groups g ≠ []) && !s.isMaster | none => false

/-- LACP_PERIODIC_TRANSMIT (R99): one LACPDU of 124 bytes without FCS, of free content (log 19), is sent on a member that is UP. -/
def execLacpPeriodicTransmit (lane : Fin 16) (s : State) : Answer :=
  .next (if s.lacpMember lane.val && s.laneIsUp lane.val && !s.lacpElsewhere lane.val then s.tickFree.mpSend lane.val (padTo 124 (Config.freeBytes s.freeCtr)) else s)

/-! ### Receiving a frame -/

/-- Seconds, nanoseconds and fraction of a fine time. -/
def ofFine (t : Nat) : Nat × Nat × Nat := (t / 65536 / 1000000000, t / 65536 % 1000000000, t % 65536)

/-- A fine time with a correction in units of 1/16 ns (R97). -/
def adjustTime (t : Nat) (adj : Int) : Nat := ((t : Int) + adj * 4096).toNat

/-- D of a mode in ns (R494). -/
def parserDelay (mode : Nat) : Nat := match mode with | 2 => 180 | 3 => 60 | 4 => 110 | _ => 140

/-- The version that a frame is parsed and classified under: the one in force when its first byte enters the parser (R108, R134). -/
def State.frameVersion (s : State) (entered : Nat) : Nat :=
  match ((s.cls.cur, s.cls.curFrom) :: s.cls.former).find? (fun v => decide (v.2 ≤ entered)) with
  | some v => v.1.ver
  | none => ((s.cls.former.getLast?.map Prod.fst).getD s.cls.cur).ver

/-- The queue ahead of a pipeline (R132). -/
def State.clsQueue (s : State) (pipeB : Bool) : List PFrame := if pipeB then s.cls.queueB else s.cls.queueA

/-- Replace the queue ahead of a pipeline. -/
def State.setClsQueue (s : State) (pipeB : Bool) (q : List PFrame) : State :=
  { s with cls := if pipeB then { s.cls with queueB := q } else { s.cls with queueA := q } }

/-- Whether frames of a pipeline wait: some already do, or this tick's DRAM reads are used up (R131, R132). -/
def State.clsWaits (s : State) (pipeB : Bool) : Bool := !(s.clsQueue pipeB).isEmpty || decide (s.readAllotment ≤ s.cls.readsUsed)

/-- The counters that a parsed frame moves (R110). -/
def State.parseCounters (s : State) (lane : Nat) (hv : List Byte) : State :=
  let flags := fieldLe hv 6 2
  let st := fieldLe hv 3 1
  let s1 := if st ≠ 0 then
      let t := s.laneCtr lane 0x07 1
      { t with ports := { t.ports with parseFailCtr := bump t.ports.parseFailCtr (b2n (lanePipeB lane) * 8 + st) 1 } }
    else s
  let s2 := if bitOf flags 3 || bitOf flags 4 then s1.laneCtr lane 0x09 1 else s1
  if bitOf flags 6 then s2.laneCtr lane 0x0A 1 else s2

/-- The partner's synchronisation as an LACPDU on a member of an LACP group states it (R99, log 19). -/
def State.seeLacp (s : State) (lane : Nat) (f : List Byte) : State :=
  if s.lacpMember lane && decide (be16 f 12 = 0x8809) && decide (byteAt f 14 = 1) then
    s.modLane lane (fun l => { l with partner := bitOf (byteAt f 32) 3 })
  else s

/-- A frame that the MAC has accepted goes to its parser (R102 to R108, R153) and is classified at once or waits (R132). -/
def State.parseIn (s : State) (lane : Nat) (l : Lane) (f : List Byte) (stamp : Nat) (entryBad : Bool) (fails : List (Nat × LookupFail)) : State :=
  let pb := lanePipeB lane
  if s.clsWaits pb && decide (16384 ≤ (s.clsQueue pb).length) then
    { s with cls := { s.cls with clsOverload := bump s.cls.clsOverload lane 1 } }
  else
    let ver := s.frameVersion (stamp + parserDelay l.mode * 65536)
    let c := s.clsOf ver
    let w := parseFrame c.graph f (FMap.get 0 c.starts lane)
    let hv := headerVector f lane (s.lportOf lane) w (ofFine (adjustTime stamp l.rxAdj))
    let s1 := (s.parseCounters lane hv).seeLacp lane f
    let (h, s2) := s1.allocChecked entryBad f.length false ownRx
    let s3 := match h with | some h => s2.bufWrite h 0 f | none => s2
    let pf : PFrame := { lane := lane, hv := Mem.ofBytes hv, bytes := f, handle := h.getD 0, noBuf := h.isNone, ver := ver, stack := false }
    if s3.clsWaits pb then s3.setClsQueue pb (s3.clsQueue pb ++ [pf]) else s3.classify pf fails

/-- The counter of the MAC under which a received frame is dropped, the first that applies (R94). -/
def macDrop (l : Lane) (f : List Byte) (fcsBad : Bool) : Option Nat :=
  if fcsBad then some 0x02
  else if f.length + 4 < 64 then some 0x03
  else if l.maxFrame < f.length + 4 then some 0x04
  else if be16 f 12 = 0x8808 then some 0x05
  else none

/-- Codewords that the lane's FEC has corrected, and that it could not, since the frame before (R90, R110). -/
def State.fecCount (s : State) (lane : Nat) (l : Lane) (corrected uncorrected : Nat) : State :=
  if l.mode = 0 ∨ l.mode = 3 then s else (s.laneCtr lane 0x0B corrected).laneCtr lane 0x0C uncorrected

/-- A PTP event message of the domain on the lane that disciplines the clock gives an offset; its value is free (R29, R31, log 62). -/
def State.seePtp (s : State) (lane : Nat) (f : List Byte) : State :=
  if s.time.source = 2 ∧ lane = s.time.ptpLane ∧ be16 f 12 = 0x88F7 ∧ byteAt f 14 % 16 < 4 ∧ byteAt f 18 = s.time.domain then
    let (d, s1) := s.freshInt
    s1.measure d
  else s

/-- What the MAC does with a frame on a lane that is UP: it is dropped and counted, or counted and, on a U or D lane, parsed (R90, R94, R110). -/
def State.macIn (s : State) (lane : Nat) (l : Lane) (f : List Byte) (fcsBad : Bool) (stamp : Nat) (entryBad : Bool) (fails : List (Nat × LookupFail)) : State :=
  match macDrop l f fcsBad with
  | some idx => s.laneCtr lane idx 1
  | none =>
    let s1 := (s.laneCtr lane 0x00 1).laneCtr lane 0x01 (f.length + 4)
    if 16 ≤ lane then s1 else (s1.seePtp lane f).parseIn lane l f stamp entryBad fails

/-- FRAME_RECEIVE (R94): `frame` is the frame without its FCS. A lane that is not UP receives nothing; S lanes carry no port traffic
(R90), and what stack links bring are the rows MEMBER, STAGE and TICK_MARKER. `entryBad` says that the first control entry tried fails, `fails` which
checks of its lookups do (R365, R367). -/
def execFrameReceive (lane : Fin 20) (frame : List Byte) (fcsBad : Bool) (corrected sec ns frac : Nat) (s : State)
    (uncorrected : Nat := 0) (entryBad : Bool := false) (fails : List (Nat × LookupFail) := []) : Answer :=
  .next (match s.lane? lane.val with
    | none => s
    | some l =>
      if l.st ≠ .up ∨ s.dataplane = false then s
      else (s.fecCount lane.val l corrected uncorrected).macIn lane.val l frame fcsBad (fineTime sec ns frac) entryBad fails)

/-- CLASSIFICATION_DEQUEUE (R132): the oldest frame that waits ahead of a pipeline, while the tick's DRAM reads last. -/
def execClassificationDequeue (pipeB : Bool) (s : State) (fails : List (Nat × LookupFail) := []) : Answer :=
  .next (if s.cls.readsUsed < s.readAllotment then
      (match s.clsQueue pipeB with
       | [] => s
       | f :: rest => (s.setClsQueue pipeB rest).classify f fails)
    else s)

end Sys2Proof.Machine
end

