-- ==== Sys2Proof/Machine/Egress.lean ====
section
/-!
DEFINITION. The traffic manager and egress (R92, R158, R159, R161 to R179): leaves and active lists, publishing an enqueue, DWRR, egress
edits, and the meanings of SCHEDULER_SELECT and TRANSMIT_COMPLETE.
-/

namespace Sys2Proof.Machine

/-! ### Queues and leaves -/

/-- A traffic-manager queue. -/
def State.tmq (s : State) (q : Nat) : Option TmQueue := FMap.get none s.tm.queues q

/-- Replace a traffic-manager queue. -/
def State.setTmq (s : State) (q : Nat) (v : Option TmQueue) : State := { s with tm := { s.tm with queues := FMap.set none s.tm.queues q v } }

/-- An empty leaf. -/
def Leaf.zero : Leaf := { frames := [], enqFrames := 0, enqBytes := 0, drop := 0 }

/-- The key of a leaf. -/
def leafKey (q lane : Nat) : Nat := q * 32 + lane

/-- A leaf. -/
def State.leaf (s : State) (key : Nat) : Leaf := FMap.get Leaf.zero s.tm.leaves key

/-- Replace a leaf. -/
def State.setLeaf (s : State) (key : Nat) (l : Leaf) : State := { s with tm := { s.tm with leaves := FMap.set Leaf.zero s.tm.leaves key l } }

/-- Bytes held by a leaf: HELD_BYTES. -/
def Leaf.held (l : Leaf) : Nat := (l.frames.map (·.len)).foldl (· + ·) 0

/-- Whether a queued frame lies in the spill pool, spilled there or enqueued from it (R158). -/
def QFrame.spilled (f : QFrame) : Bool := decide (5 ≤ hPool f.handle)

/-- On-die bytes held by a queue over its leaves (R158). -/
def State.onDieBytes (s : State) (q : Nat) (lanes : List Nat) : Nat :=
  (lanes.map (fun l => (((s.leaf (leafKey q l)).frames.filter (fun f => !f.spilled)).map (·.len)).foldl (· + ·) 0)).foldl (· + ·) 0

/-- A tenant's attributes and ledger. -/
def State.tenant (s : State) (n : Nat) : Tenant := FMap.get Tenant.reset s.tm.tenants n

/-- Replace a tenant. -/
def State.setTenant (s : State) (n : Nat) (t : Tenant) : State := { s with tm := { s.tm with tenants := FMap.set Tenant.reset s.tm.tenants n t } }

/-- CQUANTUM of a class of a port. -/
def State.classQuantum (s : State) (port cls : Nat) : Nat := FMap.get 16384 s.tm.cquantum (port * 8 + cls)

/-- STRICT7 of a port. -/
def State.strict7 (s : State) (port : Nat) : Bool := FMap.get false s.tm.strict7 port

/-- The key of a tenant node. -/
def nodeKey (port cls tenant : Nat) : Nat := (port * 8 + cls) * 4096 + tenant

/-- A child enters an active list at the tail with a deficit of 0, unless it is there (R169). -/
def enterList (l : List Active) (c : Nat) : List Active :=
  if l.any (fun a => decide (a.child = c)) then l else l ++ [{ child := c, deficit := 0, visited := false }]

/-- A child leaves an active list. -/
def leaveList (l : List Active) (c : Nat) : List Active := l.filter (fun a => decide (a.child ≠ c))

/-- A leaf becomes backlogged: it and its ancestors enter their active lists (R169). -/
def State.activate (s : State) (port cls tenant key : Nat) : State :=
  let t := s.tm
  let nk := nodeKey port cls tenant
  { s with tm := { t with
      tenantAct := FMap.set [] t.tenantAct nk (enterList (FMap.get [] t.tenantAct nk) key),
      classAct := FMap.set [] t.classAct (port * 8 + cls) (enterList (FMap.get [] t.classAct (port * 8 + cls)) tenant),
      portAct := FMap.set [] t.portAct port (enterList (FMap.get [] t.portAct port) cls) } }

/-- A leaf has emptied: it, and the nodes that empty with it, leave their lists (R169). -/
def State.deactivate (s : State) (port cls tenant key : Nat) : State :=
  let t := s.tm
  let nk := nodeKey port cls tenant
  let ck := port * 8 + cls
  let ta := leaveList (FMap.get [] t.tenantAct nk) key
  let ca := if ta.isEmpty then leaveList (FMap.get [] t.classAct ck) tenant else FMap.get [] t.classAct ck
  let pa := if ca.isEmpty then leaveList (FMap.get [] t.portAct port) cls else FMap.get [] t.portAct port
  { s with tm := { t with tenantAct := FMap.set [] t.tenantAct nk ta, classAct := FMap.set [] t.classAct ck ca,
                          portAct := FMap.set [] t.portAct port pa } }

/-- Take a leaf's frames away as a list and leave it empty. -/
def State.clearLeaf (s : State) (q lane : Nat) : List QFrame × State :=
  match s.tmq q with
  | none => ([], s)
  | some v =>
    let k := leafKey q lane
    let l := s.leaf k
    if l.frames.isEmpty then ([], s) else (l.frames, (s.setLeaf k { l with frames := [] }).deactivate lane v.cls v.tenant k)

/-- The traffic manager's name leaves the buffer of a frame that it drops, frees or has sent (R151); a frame that firmware built has none. -/
def State.releaseTm (s : State) (f : QFrame) : State := if f.handle = 0 then s else s.removeOwner f.handle ownTm

/-- Whether the buffer of a queued frame has been withdrawn (R157). -/
def State.frameGone (s : State) (f : QFrame) : Bool := decide (f.handle ≠ 0) && !s.isLive f.handle

/-- Frames in withdrawn buffers are counted in CTRL_DROP of their port (R157). -/
def State.countGone (s : State) (port : Nat) (fs : List QFrame) : State :=
  { s with pools := { s.pools with ctrlDrop := bump s.pools.ctrlDrop port (fs.filter s.frameGone).length } }

/-- Queued frames of a port are freed: how many there were beside those in withdrawn buffers. -/
def State.freeQueued (s : State) (port : Nat) (fs : List QFrame) : Nat × State :=
  let here := fs.filter (fun f => !s.frameGone f)
  (here.length, here.foldl State.releaseTm (s.countGone port fs))

/-- A removed member's leaf goes once its frames have (R162). -/
def State.pruneLeaves (s : State) (q : Nat) : State :=
  match s.tmq q with
  | some v =>
    let gone := fun (l : Nat) => v.closed.contains l && (s.leaf (leafKey q l)).frames.isEmpty
    if v.leaves.any gone then s.setTmq q (some { v with leaves := v.leaves.filter (fun l => !gone l), closed := v.closed.filter (fun l => !gone l) })
    else s
  | none => s

/-- The frames queued on lanes that are not UP are freed in a commit (R92). -/
def State.flushDown (s : State) : State :=
  s.tm.queues.foldl (fun s e => match e.2 with
    | some v => v.leaves.foldl (fun s lane =>
        if s.laneIsUp lane then s
        else
          let (fs, s1) := s.clearLeaf e.1 lane
          let (n, s2) := s1.freeQueued lane fs
          (s2.laneCtr lane 0x0F n).pruneLeaves e.1) s
    | none => s) s

/-- The frames of one leaf whose buffers have been withdrawn are dropped (R157). -/
def State.purgeLeaf (s : State) (q port : Nat) (v : TmQueue) : State :=
  let k := leafKey q port
  let l := s.leaf k
  let keep := l.frames.filter (fun f => !s.frameGone f)
  if keep.length = l.frames.length then s
  else
    let s1 := (s.countGone port l.frames).setLeaf k { l with frames := keep }
    (if keep.isEmpty then s1.deactivate port v.cls v.tenant k else s1).pruneLeaves q

/-- Those of every leaf of a port. -/
def State.purgePort (s : State) (port : Nat) : State :=
  s.tm.queues.foldl (fun (s : State) e => match e.2 with | some v => if v.leaves.contains port then s.purgeLeaf e.1 port v else s | none => s) s

/-! ### Publishing an enqueue (R158, R159, R167) -/

/-- Wire bytes of a tick's budget for spill, each way: P × 100 Gb/s (R159). -/
def State.spillBudget (s : State) : Nat := periodNs s.time.period * 25 / 2

/-- Spill the last frame of a leaf when R158 lets it. -/
def State.spill (s : State) (q lane : Nat) (v : TmQueue) (f : QFrame) : State :=
  if v.spill = 0 ∨ s.onDieBytes q v.leaves ≤ v.spill ∨ f.spilled = true then s
  else if (s.liveEnt f.handle).map (·.owners.filter (· ≠ 0)) ≠ some [ownTm] then s
  else
    let n := f.off + f.len
    let skip := { s with pools := { s.pools with spillSkipped := bump s.pools.spillSkipped lane 1 } }
    if s.spillBudget < s.pools.spillWrite + f.len then skip
    else match allocFrom ownTm s (s.poolOrder n true) with
      | (none, s1) => { s1 with pools := { s1.pools with spillSkipped := bump s1.pools.spillSkipped lane 1 } }
      | (some h, s1) =>
        let s2 := s1.bufWrite h 0 (s1.bufRead f.handle 0 n)
        let s3 := (s2.removeOwner f.handle ownTm).modPool (hPool h) (fun p => { p with spilled := p.spilled + 1 })
        let s4 := { s3 with pools := { s3.pools with spillWrite := s3.pools.spillWrite + f.len } }
        let k := leafKey q lane
        let l := s4.leaf k
        s4.setLeaf k { l with frames := l.frames.dropLast ++ [{ f with handle := h }] }

/-- Append a frame to a leaf, or drop it (R92, R167). The buffer already bears the traffic manager's name. -/
def State.appendLeaf (s : State) (q lane : Nat) (v : TmQueue) (f : QFrame) : State :=
  let k := leafKey q lane
  let l := s.leaf k
  if !s.laneIsUp lane || v.closed.contains lane || !v.leaves.contains lane then (s.releaseTm f).laneCtr lane 0x0F 1
  else if v.maxBytes < l.held + f.len then
    (s.releaseTm f).setLeaf k { l with drop := l.drop + 1 }
  else
    let s1 := s.setLeaf k { l with frames := l.frames ++ [f], enqFrames := l.enqFrames + 1, enqBytes := l.enqBytes + f.len }
    (if l.frames.isEmpty then s1.activate lane v.cls v.tenant k else s1).spill q lane v f

/-- The group member that a frame's hash, or its ARG, selects (R100, R139, R167). -/
def State.memberOf (s : State) (g : Nat) (f : QFrame) : Option Nat :=
  match s.group? g with
  | none => none
  | some v =>
    let hash := match f.cap with | some c => (symHash c.hv (s.cls.cur.profile (32 + g)) v.seed).toNat | none => 0
    let i := (if f.flags.getLsbD 5 then f.arg.toNat else hash) % 64
    if (s.distributors v).isEmpty then none else (v.dist[i]?).map (·.1)

/-- The 16-byte enqueue block of a queued frame (R165), as a MEMBER frame carries it (R445). -/
def enqBlock (q : Nat) (f : QFrame) : List Byte :=
  leBytes 2 q ++ leBytes 2 f.len ++ leBytes 2 f.off ++ leBytes 2 f.edit ++
    [f.flags, BitVec.ofNat 8 f.l3at, BitVec.ofNat 8 f.l4at, BitVec.ofNat 8 f.tsat] ++ leBytes 4 f.arg.toNat

/-- A frame whose chosen member lies on another module is sent there (R445). -/
def State.sendMember (s : State) (q code : Nat) (f : QFrame) : State :=
  s.stackSend 2 (code / 32 - 1) (code % 32) 0 f.handle (enqBlock q f ++ s.bufRead f.handle 0 (f.off + f.len))

/-- Publish one enqueue (R167): `first` says that no copy of the header has been made for this buffer in this item. A frame for a group without
members is counted against lane 0, as the spec names no lane for it (DESIGN CHOICE, log 63). -/
def State.publishEnq (s : State) (q : Nat) (f : QFrame) (first : Bool) : State :=
  match s.tmq q with
  | none => s.removeOwner f.handle ownTm
  | some v =>
    let s1 := match f.cap with
      | some c =>
        if f.flags.getLsbD 6 && first then
          s.bufWrite f.handle 0 (Mem.rdN c.hv 0xA0 (min 352 (Mem.rdLe c.hv 4 2)))
        else s
      | none => s
    if v.isGroup then
      match s1.memberOf (v.dest - 0x20) f with
      | none => (s1.removeOwner f.handle ownTm).laneCtr (((s1.group? (v.dest - 0x20)).map (fun (x : Group) => x.order.headD 0)).getD 0) 0x0F 1
      | some m => if 32 ≤ m then s1.sendMember q m f else s1.appendLeaf q m v f
    else s1.appendLeaf q v.dest v f

/-- The MP firmware's own queue on a lane, in class 7 under tenant 0 (log 64). -/
def mpQueueOf (q : Nat) : TmQueue :=
  { dest := q - 65536, cls := 7, tenant := 0, quantum := 16384, maxBytes := 1048576, spill := 0, leaves := [q - 65536], closed := [] }

/-- Publish what the MP firmware and the stack have enqueued, after every item (R168). -/
def State.publishMp (s : State) : State :=
  s.tm.mpOut.foldl (fun (s : State) p =>
    let s1 := if 65536 ≤ p.1 ∧ s.tmq p.1 = none then s.setTmq p.1 (some (mpQueueOf p.1)) else s
    match s1.tmq p.1 with
    | some v => s1.appendLeaf p.1 v.dest v p.2
    | none => s1.releaseTm p.2) { s with tm := { s.tm with mpOut := [] } }

/-! ### Arbitration (R169 to R172) -/

/-- Wire bytes of a frame: the edited length padded to 60, plus 24 (R169); on a stack lane a stack header comes before what a program enqueues. -/
def State.wireBytes (s : State) (f : QFrame) : Nat :=
  let ins := if f.edit = 0 then 0 else fieldLe (FMap.get [] s.tm.templates f.edit) 0 1
  max 60 (f.len + ins) + 24

/-- Wire bytes of a leaf's head. -/
def State.headWire (s : State) (key : Nat) : Nat := match (s.leaf key).frames with | f :: _ => s.wireBytes f | [] => 0

/-- The loop of R169's pick at one node: `wire c` is what pick(c) would return; answers the chosen child and the list after it. -/
def dwrr (quantum wire : Nat → Nat) (eligible : Nat → Bool) : Nat → List Active → Option (Nat × List Active)
  | 0, _ => none
  | _, [] => none
  | n + 1, a :: rest =>
    let d := if a.visited then a.deficit else a.deficit + quantum a.child
    let f := wire a.child
    if f ≤ d ∧ eligible a.child then some (a.child, { child := a.child, deficit := d - f, visited := true } :: rest)
    else dwrr quantum wire eligible n (rest ++ [{ child := a.child, deficit := d, visited := false }])

/-- Rounds that any choice ends within: a quantum is at least 256 bytes and a frame at most 65,656. -/
def dwrrFuel (l : List Active) : Nat := 260 * (l.length + 1)

/-- The queue of a leaf. -/
def State.leafQuantum (s : State) (key : Nat) : Nat := match s.tmq (key / 32) with | some q => q.quantum | none => 0

/-- pick at a tenant node: the leaf and the node's list after it. -/
def State.pickLeaf (s : State) (port cls tenant : Nat) : Option (Nat × List Active) :=
  let l := FMap.get [] s.tm.tenantAct (nodeKey port cls tenant)
  dwrr s.leafQuantum s.headWire (fun _ => true) (dwrrFuel l) l

/-- Wire bytes that a tenant node would send. -/
def State.tenantWire (s : State) (port cls tenant : Nat) : Nat := match s.pickLeaf port cls tenant with | some p => s.headWire p.1 | none => 0

/-- Whether a class of a port is ledgered (R170). -/
def State.ledgered (s : State) (port cls : Nat) : Bool := decide (cls ≠ 7) || !s.strict7 port

/-- Whether a tenant node may be chosen (R172). -/
def State.eligible (s : State) (port cls tenant : Nat) : Bool :=
  if s.tm.ledgerMode ≠ 2 ∨ s.ledgered port cls = false ∨ (s.tenant tenant).isOver = false then true
  else !(FMap.get [] s.tm.classAct (port * 8 + cls)).any (fun a =>
    decide (a.child ≠ tenant) && decide ((s.tenant a.child).lgroup = (s.tenant tenant).lgroup) && !(s.tenant a.child).isOver)

/-- pick at a class node. -/
def State.pickTenant (s : State) (port cls : Nat) : Option (Nat × List Active) :=
  let l := FMap.get [] s.tm.classAct (port * 8 + cls)
  dwrr (fun t => (s.tenant t).weight * 1024) (s.tenantWire port cls) (s.eligible port cls) (dwrrFuel l) l

/-- Wire bytes that a class node would send. -/
def State.classWire (s : State) (port cls : Nat) : Nat := match s.pickTenant port cls with | some p => s.tenantWire port cls p.1 | none => 0

/-- pick at a port: strict class 7 first, then DWRR among the classes. -/
def State.pickClass (s : State) (port : Nat) : Option (Nat × List Active) :=
  let l := FMap.get [] s.tm.portAct port
  if s.strict7 port && l.any (fun a => decide (a.child = 7)) then some (7, l)
  else dwrr (s.classQuantum port) (s.classWire port) (fun _ => true) (dwrrFuel l) l

/-- A port's choice. -/
structure Choice where
  cls : Nat
  tenant : Nat
  key : Nat
  portList : List Active
  classList : List Active
  tenantList : List Active
deriving DecidableEq, Repr

/-- The frame that a port would send, with the lists after it. -/
def State.choose (s : State) (port : Nat) : Option Choice :=
  match s.pickClass port with
  | none => none
  | some (c, pl) =>
    match s.pickTenant port c with
    | none => none
    | some (t, cl) =>
      match s.pickLeaf port c t with
      | none => none
      | some (k, tl) => some { cls := c, tenant := t, key := k, portList := pl, classList := cl, tenantList := tl }

/-! ### Egress editing (R174 to R179) -/

/-- One patch applied to the frame with the inserted bytes at `at0` (R175). -/
def applyPatch (at0 : Nat) (q : QFrame) (f : List Byte) (p : Nat) : List Byte :=
  let pos := at0 + bits p 0 8
  let base := at0 + bits p 16 8
  match bits p 8 4 with
  | 1 => patch f pos (beBytes 4 q.arg.toNat)
  | 2 => patch f pos (beBytes 2 (q.arg.toNat % 65536))
  | 3 => patch f pos (beBytes 2 ((f.length + 65536 - base % 65536 + 65536 - bits p 24 8) % 65536))
  | 4 =>
    let g := patch f pos [0, 0]
    let sum := foldSum (sum16 (slice g base (byteAt g base % 16 * 4)))
    patch f pos (beBytes 2 (65535 - sum))
  | 5 =>
    let h := match q.cap with | some c => Mem.rdLe c.hv 0x24 4 | none => q.arg.toNat
    patch f pos (beBytes 2 (0xC000 + ((h % 65536 ^^^ h / 65536) % 0x4000)))
  | _ => f

/-- Insert a template and apply its patches (R176 steps 2 and 3). -/
def applyTemplate (t : List Byte) (q : QFrame) (f : List Byte) : List Byte :=
  if q.edit = 0 then f
  else
    let n := fieldLe t 0 1
    let at0 := fieldLe t 1 1
    let g := f.take at0 ++ slice t 0x20 n ++ f.drop at0
    (List.range (fieldLe t 2 1)).foldl (fun g i => applyPatch at0 q g (fieldLe t (4 + 4 * i) 4)) g

/-- Write the timestamp (R178); `ts` is the transmit timestamp in units of 2^-16 ns. None when the field lies beyond the frame. -/
def writeStamp (q : QFrame) (ts : Nat) (f : List Byte) : Option (List Byte) :=
  let at0 := q.tsat * 2
  if q.flags.getLsbD 2 then
    if f.length < at0 + 10 then none
    else some (patch f at0 (beBytes 6 (ofFine ts).1 ++ beBytes 4 (ofFine ts).2.1))
  else if q.flags.getLsbD 3 then
    if f.length < at0 + 8 then none
    else
      let rx := match q.cap with | some c => fineTime c.sec c.ns c.frac | none => 0
      let old := fieldBe f at0 8
      some (patch f at0 (beBytes 8 (((old : Int) + ts - rx) % (2 ^ 64 : Int)).toNat))
  else some f

/-- L3CSUM (R177, R179). -/
def l3Csum (q : QFrame) (f : List Byte) : Option (List Byte) :=
  let o := q.l3at * 2
  if !q.flags.getLsbD 0 then some f
  else if f.length ≤ o then none
  else
    let v := byteAt f o / 16
    let n := byteAt f o % 16 * 4
    if v = 6 then some f
    else if v ≠ 4 ∨ n < 20 ∨ f.length < o + n then none
    else
      let g := patch f (o + 10) [0, 0]
      some (patch g (o + 10) (beBytes 2 (65535 - foldSum (sum16 (slice g o n)))))

/-- L4CSUM (R177, R179). -/
def l4Csum (q : QFrame) (f : List Byte) : Option (List Byte) :=
  let o := q.l3at * 2
  let a := q.l4at * 2
  if !q.flags.getLsbD 1 then some f
  else if f.length ≤ o then none
  else
    let v := byteAt f o / 16
    let n := if v = 4 then byteAt f o % 16 * 4 else 40
    if (v ≠ 4 ∧ v ≠ 6) ∨ f.length < o + n then none
    else
      let proto := if v = 4 then byteAt f (o + 9) else byteAt f (o + 6)
      let addrs := if v = 4 then slice f (o + 12) 8 else slice f (o + 8) 32
      let field := if proto = 17 then a + 6 else a + 16
      if (proto ≠ 6 ∧ proto ≠ 17) ∨ f.length < field + 2 then none
      else
        let g := patch f field [0, 0]
        let len := g.length - a
        let sum := foldSum (sum16 addrs + proto + len / 65536 + len % 65536 + sum16 (g.drop a))
        let c := 65535 - sum
        some (patch g field (beBytes 2 (if proto = 17 ∧ c = 0 then 65535 else c)))

/-- The edited frame (R176, R329), or none when an edit cannot be made (R179). -/
def State.editFrame (s : State) (port : Nat) (q : QFrame) (ts : Nat) : Option (List Byte) :=
  let f := applyTemplate (FMap.get [] s.tm.templates q.edit) q (s.bufRead q.handle q.off q.len)
  match ((writeStamp q ts f).bind (l3Csum q)).bind (l4Csum q) with
  | none => none
  | some g =>
    let g := if q.icrc then patch g (g.length - 4) (icrcOf g g.length) else g
    let g := padTo (max 60 g.length) g
    if ((s.lane? port).map (·.maxFrame)).getD 0 < g.length + 4 then none else some g

/-! ### Selecting and sending -/

/-- The next position of the ring in a direction (R434). -/
def State.neighbour (s : State) (east : Bool) : Nat :=
  let me := s.position
  let up := s.stack.members.filter (fun p => decide (me < p))
  let down := s.stack.members.filter (fun p => decide (p < me))
  if east then (up ++ down).headD me else (down.reverse ++ up.reverse).headD me

/-- A stack frame's bytes as it leaves in this tick (R436). -/
def State.stackBytes (s : State) (f : StackFrame) : List Byte :=
  [BitVec.ofNat 8 f.kind, BitVec.ofNat 8 f.src, BitVec.ofNat 8 f.dst, BitVec.ofNat 8 f.hops] ++ leBytes 4 s.time.number ++ leBytes 2 f.body.length ++
    leBytes 2 f.index ++ leBytes 4 f.aux.toNat ++ f.body

/-- The bytes that a selected frame leaves as, or none when an edit cannot be made (R176, R179). What a program enqueues for a stack lane goes to the next
module as a STAGE frame of the edited bytes alone (R446, log 64). -/
def State.frameBytes (s : State) (port : Nat) (q : QFrame) (ts : Nat) : Option (List Byte) :=
  match q.built with
  | .bytes b => some (padTo (max 60 b.length) b)
  | .stack f => some (s.stackBytes f)
  | .buffer =>
    if port < 16 then s.editFrame port q ts
    else (s.editFrame port q ts).map (fun g =>
      s.stackBytes { kind := 3, src := s.position, dst := s.neighbour (decide (port < 18)), hops := 0, index := 0, aux := 0, body := g })

/-- The transmission of a frame starts: its wire bytes count for its tenant node and, in a ledgered class, in its tenant's ledger (R170, R180). -/
def State.countSent (s : State) (port : Nat) (c : Choice) (wire : Nat) : State :=
  let s1 := { s with tm := { s.tm with sentBytes := bump s.tm.sentBytes (nodeKey port c.cls c.tenant) wire } }
  if s1.ledgered port c.cls then s1.setTenant c.tenant { s1.tenant c.tenant with sentTick := (s1.tenant c.tenant).sentTick + wire } else s1

/-- The head leaves its leaf with its wire bytes charged to the lists (R169). -/
def State.takeHeadFrame (s : State) (port : Nat) (c : Choice) : State :=
  let t := s.tm
  let nk := nodeKey port c.cls c.tenant
  let ck := port * 8 + c.cls
  let skips := fun (s : State) => (FMap.get [] t.classAct ck).foldl (fun s a =>
    if s.eligible port c.cls a.child then s
    else s.setTenant a.child { s.tenant a.child with skips := (s.tenant a.child).skips + 1 }) s
  let s0 := skips s
  let s1 := { s0 with tm := { s0.tm with
    tenantAct := FMap.set [] t.tenantAct nk c.tenantList, classAct := FMap.set [] t.classAct ck c.classList,
    portAct := FMap.set [] t.portAct port c.portList } }
  let l : Leaf := s1.leaf c.key
  let s3 := s1.setLeaf c.key { l with frames := l.frames.drop 1 }
  let s4 := if l.frames.length ≤ 1 then s3.deactivate port c.cls c.tenant c.key else s3
  s4.pruneLeaves (c.key / 32)

/-- Whether a frame must wait for the read budget (R159): a spilled one that the budget has no room for, unless it is the first of its tick, whose excess
then counts in the ticks that follow (log 66). -/
def State.readWaits (s : State) (q : QFrame) : Bool :=
  q.spilled && decide (0 < s.pools.spillRead) && decide (s.spillBudget < s.pools.spillRead + q.len)

/-- A chosen frame leaves its leaf, is edited and begins to be sent, or is dropped when an edit cannot be made, its scheduler bytes charged (R176, R179). -/
def State.startFrame (s : State) (port : Nat) (c : Choice) (q : QFrame) (ts : Nat) : State :=
  let wire := s.wireBytes q
  let s0 := if q.spilled then { s with pools := { s.pools with spillRead := s.pools.spillRead + q.len } } else s
  let s1 := s0.takeHeadFrame port c
  match s1.frameBytes port q ts with
  | none => ({ s1 with tm := { s1.tm with editErr := bump s1.tm.editErr port 1 } }).releaseTm q
  | some f =>
    let rep : Option TsReport :=
      if q.flags.getLsbD 4 then some { sec := (ofFine ts).1, ns := (ofFine ts).2.1, frac := (ofFine ts).2.2, arg := q.arg } else none
    let tx : TxFrame := { queue := c.key / 32, handle := q.handle, bytes := f, report := rep }
    let s2 := s1.countSent port c wire
    { s2 with tm := { s2.tm with sending := FMap.set none s2.tm.sending port (some tx) } }

/-- A port that is UP and sends nothing selects a frame (R169), once those in withdrawn buffers are gone (R157). `sec`, `ns` and `frac`
are its message timestamp point (R97). -/
def State.select (s : State) (port : Nat) (sec ns frac : Nat) : State :=
  if !s.laneIsUp port || (FMap.get none s.tm.sending port).isSome then s
  else
    let s0 := s.purgePort port
    match s0.choose port with
    | none => s0
    | some c =>
      match (s0.leaf c.key).frames with
      | [] => s0
      | q :: _ =>
        if s0.readWaits q then s0
        else s0.startFrame port c q (adjustTime (fineTime sec ns frac) (((s0.lane? port).map (·.txAdj)).getD 0))

/-- SCHEDULER_SELECT (R169). -/
def execSchedulerSelect (port : Fin 20) (sec ns frac : Nat) (s : State) : Answer := .next (s.select port.val sec ns frac)

/-- The traffic manager is done with the buffer of a frame that has been sent (R151): its name is removed, unless the control entry cannot be read, or
could not be, which leaves the buffer withdrawn (R157). -/
def State.doneWith (s : State) (h : Word) (entryBad : Bool) : State :=
  if h = 0 ∨ s.isLive h = false then s else if entryBad then s.loseEntry h else s.removeOwner h ownTm

/-- TRANSMIT_COMPLETE (R151, R178): the last bit of the FCS has left the MAC. -/
def execTransmitComplete (port : Fin 20) (s : State) (entryBad : Bool := false) : Answer :=
  .next (match FMap.get none s.tm.sending port.val with
    | none => s
    | some f =>
      let s1 := ((s.laneCtr port.val 0x0D 1).laneCtr port.val 0x0E (f.bytes.length + 4)).doneWith f.handle entryBad
      let t := s1.tm
      let t1 := { t with sending := FMap.set none t.sending port.val none, sent := FMap.set [] t.sent port.val f.bytes }
      match f.report with
      | none => { s1 with tm := t1 }
      | some r =>
        if t1.tsReports.length < 4096 then { s1 with tm := { t1 with tsReports := t1.tsReports ++ [r] } }
        else { s1 with tm := { t1 with tsReportDrop := t1.tsReportDrop + 1 } })

end Sys2Proof.Machine
end

