-- ==== Sys2Proof/Machine/Channels.lean ====
section
/-!
DEFINITION. Meanings of FORK, JOIN and the channel instructions, and of the events that unblock them (R50, R60, R67 to R78).
-/

namespace Sys2Proof.Machine

/-- Registers of a started context that the spec gives no value: free values (log 6). -/
def freeRegs : List Nat → State → FMap Word → FMap Word × State
  | [], s, m => (m, s)
  | r :: rs, s, m =>
    let (v, s1) := s.freshNat
    freeRegs rs s1 (FMap.set 0 m r (BitVec.ofNat 32 v))

/-- The registers other than x0, sp, a0 and a1. -/
def otherRegs : List Nat := (List.range 32).filter (fun r => !(r ∈ [0, 2, 10, 11]))

/-- sp of a context at its start (R46). -/
def Engine.stackTop (e : Engine) (k : Nat) : Word :=
  e.bank.stackBase + BitVec.ofNat 32 ((k + 1) * e.bank.stackSize)

/-! ### FORK and JOIN -/

/-- The lowest FREE context among T1 to T7 (R67). -/
def Engine.freeCtx (e : Engine) : Option Nat := [1, 2, 3, 4, 5, 6, 7].find? (fun d => decide ((e.thr d).st = .free))

/-- A child context (R67): it shares the item of `k`, with windows of its own. -/
def childOf (e : Engine) (k d : Nat) (c : Nat) (pc : Word) (regs : FMap Word) : Thread :=
  let t := e.thr k
  let old := e.thr d
  { Thread.reset with st := .run, regs := regs, pc := pc, ready := c + 1, root := if t.item.isSome then k else t.root, parent := some k,
                      capped := t.capped, outOfGate := t.outOfGate, instret := old.instret, sendq := old.sendq, rx := old.rx }

/-- FORK (R50, R67, R78). -/
def execFork (i : Issue) (rd rs1 rs2 : Fin 32) (s : State) : Answer :=
  .next (s.issue i (fun s pe k c =>
    let t := s.thr pe k
    let pc := t.reg rs1.val
    if k = 0 then s.fault pe k 1 (rType custom0 0 1 rd.val rs1.val rs2.val)
    else if pc.toNat % 2 = 1 then s.fault pe k 2 pc
    else if 0x4000 ≤ pc.toNat then s.fault pe k 3 pc
    else match (s.eng pe).freeCtx with
      | none => s.writeBack i c 2 rd.val 0
      | some d =>
        let (m, s1) := freeRegs otherRegs s []
        let e := s1.eng pe
        let regs := FMap.set 0 (FMap.set 0 (FMap.set 0 m 10 (t.reg rs2.val)) 11 (BitVec.ofNat 32 k)) 2 (e.stackTop d)
        let s2 := (s1.setEng pe (e.setThr d (childOf e k d c pc regs))).moved pe k
        s2.writeBack i c 2 rd.val (BitVec.ofNat 32 d)))

/-- The threads that a JOIN of context `k` names, its own bit ignored (R69). -/
def joinNamed (k mask : Nat) : List Nat := [1, 2, 3, 4, 5, 6, 7].filter (fun d => bitOf mask d && decide (d ≠ k))

/-- The status that JOIN returns once every named thread has ended: none while one has not (R50, R69). -/
def Engine.joinStatus (e : Engine) (k mask : Nat) : Option Byte :=
  let ds := joinNamed k mask
  if ds.all (fun d => decide ((e.thr d).st = .free)) then
    some (match ds.find? (fun d => decide ((e.thr d).kept ≠ 0)) with | some d => (e.thr d).kept | none => 0)
  else none

/-- JOIN (R50, R69, R78). -/
def execJoin (i : Issue) (rd rs1 : Fin 32) (s : State) : Answer :=
  .next (s.issue i (fun s pe k c =>
    let v := ((s.thr pe k).reg rs1.val).toNat
    if k = 0 then s.fault pe k 1 (rType custom0 0 2 rd.val rs1.val 0)
    else if v % 2 = 1 ∨ 256 ≤ v then s.faultFree pe k 5
    else match (s.eng pe).joinStatus k v with
      | some st => s.writeBack i c 1 rd.val (BitVec.ofNat 32 st.toNat)
      | none =>
        (s.modThr pe k (fun t => { t with st := .join, blk := .join (BitVec.ofNat 8 v) rd.val })).moved pe k))

/-- A blocked instruction completes: retired, in sequence, READY after `lat` cycles from the cycle in which its wait ended (R50). That
cycle is not before the engine's next one; which it is depends on what else goes on, and is free (log 5). -/
def State.unblock (s0 : State) (pe k lat : Nat) (f : Thread → Thread) : State :=
  let (w, s) := s0.freshNat
  let c := (s.eng pe).cyc + w
  (s.modThr pe k (fun t =>
    { f t with st := .run, blk := .none, mw := false, dismissed := false, pc := t.pc + 4, instret := t.instret + 1, ready := c + lat })).moved pe k

/-- JOIN_UNBLOCK (R50): nothing happens unless the thread is in JOIN and every named thread has ended (log 2). -/
def execJoinUnblock (eng : Fin 1088) (thr : Fin 8) (s : State) : Answer :=
  .next (
    let pe := eng.val
    let k := thr.val
    match (s.thr pe k).st, (s.thr pe k).blk with
    | .join, .join mask rd =>
      (match (s.eng pe).joinStatus k mask.toNat with
       | some st => s.unblock pe k 1 (fun t => t.setReg rd (BitVec.ofNat 32 st.toNat))
       | none => s)
    | _, _ => s)

/-! ### Sending -/

/-- A channel address that names no channel: bits above 14, or thread field 0 (R38, R70). -/
def badChannel (a : Word) : Bool := decide (32768 ≤ a.toNat) || decide (bits a.toNat 2 3 = 0)

/-- CHSEND and CHSENDL (R50, R70, R72, R78). -/
def State.sendOp (s : State) (i : Issue) (rs1 rs2 : Fin 32) (last : Bool) : State :=
  s.issue i (fun s pe k c =>
    let t := s.thr pe k
    let a := t.reg rs1.val
    let w := t.reg rs2.val
    match (s.eng pe).itemOf k with
    | none => s
    | some it =>
      if k = 0 then s.fault pe k 1 (rType custom0 1 (b2n last) 0 rs1.val rs2.val)
      else if t.openMsg.isNone && badChannel a then s.faultFree pe k 5
      else if 32 ≤ t.sendWords then (s.modThr pe k (fun t => { t with st := .send, blk := .send a w last })).moved pe k
      else s.retire i c 1 (s.nextPc i) (fun t => t.pushWord it.tick a w last))

/-- CHSEND (R72). -/
def execChsend (i : Issue) (rs1 rs2 : Fin 32) (s : State) : Answer := .next (s.sendOp i rs1 rs2 false)

/-- CHSENDL (R72). -/
def execChsendl (i : Issue) (rs1 rs2 : Fin 32) (s : State) : Answer := .next (s.sendOp i rs1 rs2 true)

/-- CHSEND_UNBLOCK (R50): the word is appended once the send buffer has room. -/
def execChsendUnblock (eng : Fin 1088) (thr : Fin 8) (s : State) : Answer :=
  .next (
    let pe := eng.val
    let k := thr.val
    let t := s.thr pe k
    match t.st, t.blk, (s.eng pe).itemOf k with
    | .send, .send a w last, some it =>
      if t.sendWords < 32 then s.unblock pe k 1 (fun t => t.pushWord it.tick a w last) else s
    | _, _, _ => s)

/-- MESSAGE_DELIVERY (R57, R73): the head message of a thread's send buffer moves to its receiving channel when that channel has credit
for its whole length. One whose address or tick stamp fails its parity is discarded and counted in sxstale (R365). -/
def execMessageDelivery (eng : Fin 1088) (thr : Fin 8) (s : State) (parityBad : Bool := false) : Answer :=
  .next (
    let pe := eng.val
    let k := thr.val
    match (s.thr pe k).sendq with
    | [] => s
    | m :: rest =>
      let a := m.dst.toNat
      match s.peng (bits a 5 10) with
      | none => s
      | some dpe =>
        let dk := bits a 2 3
        let ch := bits a 0 2
        if m.words.length ≤ (s.thr dpe dk).credit ch then
          let s1 := s.modThr pe k (fun t => { t with sendq := rest })
          if parityBad then (s1.setEng dpe ((s1.eng dpe).addStale 1)).sramFailed
          else s1.modThr dpe dk (fun t => { t with rx := FMap.set [] t.rx ch (t.chan ch ++ [{ msg := m, read := 0 }]) })
        else s)

/-! ### Receiving -/

/-- The messages that a context's channel shows: T0's channel 3 is the fault channel (R78). -/
def State.chanOf (s : State) (pe k ch : Nat) : List RxMsg :=
  if k = 0 then (s.eng pe).faultCh else (s.thr pe k).chan ch

/-- Replace the messages of a context's channel. -/
def State.setChan (s : State) (pe k ch : Nat) (ms : List RxMsg) : State :=
  if k = 0 then s.setEng pe { s.eng pe with faultCh := ms } else s.modThr pe k (fun t => { t with rx := FMap.set [] t.rx ch ms })

/-- Stale messages at the head of a worker's channel go first; stale discard does not apply to the fault channel (R76). -/
def State.staleFirst (s : State) (pe k ch : Nat) : State := if k = 0 then s else s.staleDiscard pe k ch

/-- CHRECV (R50, R75, R76, R78). -/
def execChrecv (i : Issue) (rd rs1 : Fin 32) (s : State) : Answer :=
  .next (s.issue i (fun s pe k c =>
    let ch := bits ((s.thr pe k).reg rs1.val).toNat 0 2
    if k = 0 ∧ ch ≠ 3 then s.faultFree pe k 5
    else
      let s1 := s.staleFirst pe k ch
      match takeWord (s1.chanOf pe k ch) with
      | some (w, ms) => (s1.setChan pe k ch ms).writeBack i c 2 rd.val w
      | none => (s1.modThr pe k (fun t => { t with st := .recv, blk := .recv ch rd.val })).moved pe k))

/-- CHRECV_UNBLOCK (R50, R60): the thread takes its word once one is visible; the result latency of 2 runs from then. Where what has come is
stale, it is discarded and the thread is READY again at its CHRECV (log 61). -/
def execChrecvUnblock (eng : Fin 1088) (thr : Fin 8) (s : State) : Answer :=
  .next (
    let pe := eng.val
    let k := thr.val
    match (s.thr pe k).st, (s.thr pe k).blk with
    | .recv, .recv ch rd =>
      let s1 := s.staleFirst pe k ch
      (match takeWord (s1.chanOf pe k ch) with
       | some (w, ms) => (s1.setChan pe k ch ms).unblock pe k 2 (fun t => t.setReg rd w)
       | none =>
         if (s.chanOf pe k ch).isEmpty then s1
         else (s1.modThr pe k (fun t => { t with st := .run, blk := .none, mw := false, dismissed := false, ready := (s1.eng pe).cyc })).moved pe k)
    | _, _ => s)

/-- What CHPOLL returns: the unread words of the current message, the length of the next one, or 0 (R75). -/
def pollWords (ms : List RxMsg) : Nat := match ms with | m :: _ => m.msg.words.length - m.read | [] => 0

/-- CHPOLL (R50, R75, R76). -/
def execChpoll (i : Issue) (rd rs1 : Fin 32) (s : State) : Answer :=
  .next (s.issue i (fun s pe k c =>
    let ch := bits ((s.thr pe k).reg rs1.val).toNat 0 2
    if k = 0 ∧ ch ≠ 3 then s.faultFree pe k 5
    else
      let s1 := s.staleFirst pe k ch
      s1.writeBack i c 2 rd.val (BitVec.ofNat 32 (pollWords (s1.chanOf pe k ch)))))

end Sys2Proof.Machine
end

