-- ==== Sys2Proof/Machine/Groom.lean ====
section
/-!
DEFINITION. Meanings of GROOM_START (R77) and MUTUAL_WAIT_REPORT (R83 to R85).
-/

namespace Sys2Proof.Machine

/-- Words visible in the fault channel. -/
def Engine.faultWords (e : Engine) : Nat := (e.faultCh.map (fun m => m.msg.words.length - m.read)).foldl (· + ·) 0

/-- Whether T0's start condition holds (R77). -/
def State.groomDue (s : State) (pe : Nat) : Bool :=
  !(s.eng pe).faultCh.isEmpty || (s.mb (mbToGroom (s.leng pe))).full

/-- The start of T0 (R77): its record area, registers and run. Registers that the spec gives no value are free. -/
def State.startGroom (s : State) (pe : Nat) : State :=
  let (m, s1) := freeRegs otherRegs s []
  let e := s1.eng pe
  let le := s1.leng pe
  let reason := b2n (!e.faultCh.isEmpty) + 2 * b2n (s1.mb (mbToGroom le)).full
  let regs := FMap.set 0 (FMap.set 0 (FMap.set 0 m 10 0x17000) 11 (BitVec.ofNat 32 e.faultWords)) 2 (e.stackTop 0)
  let it : Item := { tick := s1.time.number, program := e.bank.program, entry := 0, retry := false, firstStatus := 0, kind := 0, op := none,
                     inst := 0xFFFF, gen := 0, stack := false, arg := [], arrivals := [], owner := ownerName le 0 }
  let old := e.thr 0
  let t : Thread := { Thread.reset with st := .run, regs := regs, pc := (e.bank.entries.getD 0 0).zeroExtend 32, ready := e.cyc,
                                        item := some it, instret := old.instret }
  let e1 := { e with store := Mem.wrN e.store 0x17000 (leBytes 8 s1.time.number ++ leBytes 4 reason) }
  s1.setEng pe (e1.setThr 0 t)

/-- T0 of an engine starts when it is FREE, its condition holds, a program is loaded and the tick is outside its turn. -/
def State.groomStart (s : State) (pe : Nat) : State :=
  let e := s.eng pe
  if s.engActive pe && decide ((e.thr 0).st = .free) && decide (s.time.phase ≠ .turn) && s.groomDue pe && decide (e.bank.program ≠ 0) then
    s.startGroom pe
  else s

/-- GROOM_START (R77). -/
def execGroomStart (eng : Fin 1088) (s : State) : Answer := .next (s.groomStart eng.val)

/-! ### Mutual waits -/

/-- The live worker threads of an engine (R83). -/
def Engine.live (e : Engine) : List Nat := [1, 2, 3, 4, 5, 6, 7].filter (fun k => decide ((e.thr k).st ≠ .free))

/-- The physical engines of a physical yard. -/
def yardEngines (y : Nat) : List Nat := (List.range 32).map (fun j => y * 32 + j)

/-- The live workers of a yard as (physical engine, thread). -/
def State.liveSet (s : State) (y : Nat) : List (Nat × Nat) :=
  ((yardEngines y).map (fun pe => (s.eng pe).live.map (fun k => (pe, k)))).flatten

/-- Whether a worker is blocked in RECV or JOIN: not held, no word visible on its channel, or a thread that it names still live. A thread whose
event has come is READY (R60). -/
def Engine.blocked (e : Engine) (k : Nat) : Bool :=
  let t := e.thr k
  !t.held && (match t.st, t.blk with
    | .recv, .recv ch _ => (t.chan ch).isEmpty
    | .join, .join mask _ => (e.joinStatus k mask.toNat).isNone
    | _, _ => false)

/-- Whether a committed message towards a logical yard is still in some send buffer. -/
def State.inFlightTo (s : State) (ly : Nat) : Bool :=
  s.erg.engines.any (fun x => x.2.threads.any (fun y => y.2.sendq.any (fun m => decide (bits m.dst.toNat 10 5 = ly))))

/-- Whether the wait monitor of a yard reports (R83, R84). -/
def State.mutualWait (s : State) (y : Nat) : Bool :=
  match s.logicalYard y with
  | none => false
  | some ly =>
    let live := s.liveSet y
    decide (s.time.phase = .work) && !live.isEmpty && live.all (fun p => (s.eng p.1).blocked p.2) && !s.inFlightTo ly && !(s.yard y).reported

/-- The entry of a MUTUAL_WAIT record for one thread (R82). -/
def waitEntry (k : Nat) (t : Thread) : Nat :=
  0x8000 + 4096 * k + (match t.blk with | .recv ch _ => 1024 * ch | .join _ _ => 512 | _ => 0)

/-- A MUTUAL_WAIT record for the groom of an engine (R82). -/
def waitRecord (e : Engine) (tick engines setNo size : Nat) : List Word :=
  let es := e.live.map (fun k => waitEntry k (e.thr k))
  let at2 := fun j => BitVec.ofNat 32 (es.getD (2 * j) 0 + 65536 * es.getD (2 * j + 1) 0)
  [BitVec.ofNat 32 (2 + 65536 * (if e.mwauto then 4 else 0)), BitVec.ofNat 32 tick, BitVec.ofNat 32 engines,
   BitVec.ofNat 32 (setNo + 65536 * size), at2 0, at2 1, at2 2, at2 3]

/-- The report to one engine's groom: the record, the threads marked, and with MWAUTO their ending as DEADLOCK (R85). -/
def State.reportWait (engines setNo size : Nat) (s : State) (pe : Nat) : State :=
  let e := s.eng pe
  let ks := e.live
  let s1 := s.faultRecord pe (waitRecord e s.time.number engines setNo size)
  let e1 := s1.eng pe
  let s2 := s1.setEng pe (ks.foldl (fun e k => e.setThr k { e.thr k with mw := true, dismissed := false }) e1)
  if e.mwauto then ks.foldl (fun s k => if (s.thr pe k).st = .free then s else s.endOther pe k 4 false) s2 else s2

/-- MUTUAL_WAIT_REPORT (R83 to R85): nothing happens where the condition of R83 does not hold (log 2). -/
def execMutualWaitReport (yard : Fin 34) (s : State) : Answer :=
  .next (
    let y := yard.val
    if s.mutualWait y then
      let pes := (yardEngines y).filter (fun pe => !(s.eng pe).live.isEmpty)
      let engines := (pes.map (fun pe => 2 ^ (pe % 32))).foldl (· + ·) 0
      let v := s.yard y
      let s1 := s.setYard y { v with setNo := v.setNo + 1, reported := true }
      pes.foldl (State.reportWait engines (v.setNo + 1).toNat (s.liveSet y).length) s1
    else s)

end Sys2Proof.Machine
end

