-- ==== Sys2Proof/Machine/Flags.lean ====
section
/-!
DEFINITION. Status words: the engines' status registers (R39 to R41, R66, R79), the device's status registers (R215) and a mailbox's
STATUS (R211).
-/

namespace Sys2Proof.Machine

/-- sxeid (R40). -/
def State.sxeid (s : State) (pe k : Nat) : Nat :=
  k + 8 * (pe % 32) + 256 * ((s.logicalYard (pe / 32)).getD 0) + 65536 * (pe / 32)

/-- mhartid (R39). -/
def State.mhartid (s : State) (pe k : Nat) : Nat := ((s.logicalYard (pe / 32)).getD 0) * 256 + (pe % 32) * 8 + k

/-- sxbank (R41). -/
def Engine.sxbank (e : Engine) : Nat := b2n e.activeB + 2 * b2n e.pendSwitch + 65536 * e.bank.program.toNat

/-- sxperiod and TICKCFG (R41, R215). NEXT reads 0 while PEND is 0. -/
def State.sxperiod (s : State) : Nat :=
  s.time.period + 256 * s.time.gate + (match s.time.pendPeriod with | some (c, _) => 65536 * c + 2 ^ 20 | none => 0)

/-- The HELD bits of sxgctl, bit 0 for T1. -/
def Engine.heldMask (e : Engine) : Nat := ((List.range 7).map (fun j => if (e.thr (j + 1)).held then 2 ^ j else 0)).foldl (· + ·) 0

/-- sxgctl as read (R79): the fields marked WO read 0. -/
def Engine.sxgctl (e : Engine) : Nat :=
  b2n e.dbgen + 2 * b2n e.mwauto + 8 * b2n e.ovf + 2 ^ 24 * e.heldMask + 2 ^ 31 * b2n e.holdEng

/-- sxgate: cycles left before the gate, seen in cycle `c` of the work phase (R39). -/
def State.sxgate (s : State) (c : Nat) : Nat :=
  if s.time.phase = .work then workCycles s.time.period s.time.gate - c else 0

/-- DEVSTATE (R215). -/
def State.devstate (s : State) : Nat :=
  s.dev.state + 16 * s.nv.lifecycle + 256 * s.boot.straps.pos.val + 2 ^ 11 * b2n s.boot.straps.stackEn +
    2 ^ 12 * b2n s.boot.straps.compatBoot + 2 ^ 13 * b2n s.boot.recoveryPers

/-- A mailbox's STATUS (R211). -/
def Mailbox.status (m : Mailbox) : Nat :=
  b2n m.full + 2 * b2n m.stale + 4 * b2n m.retracted + 8 * b2n m.overrun + 16 * b2n m.retractFail

end Sys2Proof.Machine
end

