-- ==== Sys2Proof/Machine/Mailboxes.lean ====
section
/-!
DEFINITION. Meanings of the mailbox, lock and event-ring register commands (R210 to R222, R375 to R377).
-/

namespace Sys2Proof.Machine

/-! ### Mailboxes -/

/-- An access by a source that may not make it is ignored, and logged with the register's offset (R210, R219). -/
def State.misuse (s : State) (n off : Nat) : State := s.log 0x0501 n off

/-- The value that a register read returned. -/
def State.answer (s : State) (v : Nat) : State := { s with boxes := { s.boxes with lastRead := v } }

/-- A write of PTR_LO, PTR_HI or LEN by the sender (R212). -/
def State.mbWrite (s : State) (n code off : Nat) (v : Word) : State :=
  if !s.isSender n code then s.misuse n off
  else
    let m := s.mb n
    if m.full then s
    else
      let p := m.ptr.toNat
      s.setMb n (if off = 0 then { m with ptr := BitVec.ofNat 64 (p / 2 ^ 32 * 2 ^ 32 + v.toNat) }
        else if off = 4 then { m with ptr := BitVec.ofNat 64 (p % 2 ^ 32 + v.toNat * 2 ^ 32) }
        else { m with len := BitVec.ofNat 32 (v.toNat % 2 ^ 20) })

/-- SEND (R212): STAMP is latched by Geleath with the sender's current epoch (R208). -/
def State.mbSend (s : State) (n code : Nat) : State :=
  if !s.isSender n code then s.misuse n 0x18
  else
    let m := s.mb n
    if m.full then s.setMb n { m with overrun := true }
    else s.setMb n { m with stamp := s.stamp code, full := true, stale := false, retracted := false }

/-- RETRACT (R212): by any other source than the message's it fails, and the receiver's write is logged (R210). -/
def State.mbRetract (s : State) (n code : Nat) : State :=
  if !s.isSender n code then
    (if s.isReceiver n code then s.setMb n { s.mb n with retractFail := true } else s).misuse n 0x14
  else
    let m := s.mb n
    if m.full && decide (m.stamp = s.stamp code) then s.setMb n { m with full := false, retracted := true }
    else s.setMb n { m with retractFail := true }

/-- A write of STATUS: OVERRUN and RETRACT_FAIL are cleared by writing 1 (R211). -/
def State.mbStatus (s : State) (n code : Nat) (v : Word) : State :=
  if !s.isSender n code then s.misuse n 0x10
  else
    let m := s.mb n
    s.setMb n { m with overrun := m.overrun && !v.getLsbD 3, retractFail := m.retractFail && !v.getLsbD 4 }

/-- Whether the active MP serves Mbadel in the device state in force (R13); in a recovery window the SP serves HM0 alone (R433). -/
def State.servesMbadel (s : State) (k : Nat) : Bool :=
  if s.boot.recoveryPers || s.boot.window then decide (k = 0) && s.boot.window
  else s.boot.mpRunning && decide (s.dev.state ≠ 0) && decide (s.dev.state ≠ 6)

/-- Whether HMk can be taken now: FULL, and its MHk empty with no notice of it waiting (R217). -/
def State.takeable (s : State) (k : Nat) : Bool :=
  (s.mb k).full && !(s.mb (mhNo k)).full && !s.mbadel.notices.any (fun n => decide (n.1 = k)) && (FMap.get none s.mbadel.taken k).isNone

/-- The next HM mailbox in round-robin order after the last one taken (R217). -/
def State.nextHm (s : State) : Option Nat :=
  ((List.range 64).map (fun i => (s.mbadel.lastTaken + 1 + i) % 64)).find? (fun k => s.takeable k)

/-- The next waiting notice of MHk is posted when the mailbox is empty (R217). -/
def State.nextNotice (s : State) (k : Nat) : State :=
  match s.mbadel.notices.find? (fun n => decide (n.1 = k)) with
  | some n => ({ s with mbadel := { s.mbadel with notices := s.mbadel.notices.erase n } }).postNotice k n.2.1 n.2.2
  | none => s

/-- The notices whose mailboxes have become empty are posted (R217). -/
def State.releaseNotices (s : State) : State := (s.mbadel.notices.map (·.1)).foldl State.nextNotice s

/-- The next report that waits for a yard fault mailbox is posted (R220). -/
def State.nextFault (s : State) (n : Nat) : State :=
  let ly := n - 2248
  match FMap.get [] s.boxes.yardFaults ly with
  | (le, w0, pc) :: rest =>
    let s1 := { s with boxes := { s.boxes with yardFaults := FMap.set [] s.boxes.yardFaults ly rest } }
    let m := (s1.mb n).post 0 0 (s.stamp (srcGroom le))
    s1.setMb n { m with ptr := BitVec.ofNat 64 (w0.toNat + 2 ^ 32 * pc.toNat) }
  | [] => s

/-- The tick whose gate comes next. -/
def State.gateTick (s : State) : Nat := s.time.tick + (if s.time.phase = .work then 0 else 1)

/-- What follows when a receiver has emptied a mailbox: a waiting notice or report is posted, and a host message is in the firmware's
hands, to be judged by the device state of this moment (R14) and started after those taken before it (R231). -/
def State.afterTake (s : State) (n : Nat) (m : Mailbox) (stale : Bool) : State :=
  if n < 64 then
    { s with mbadel := { s.mbadel with
        lastTaken := n, taken := if stale then s.mbadel.taken else FMap.set none s.mbadel.taken n (some (m.ptr.toNat, m.len.toNat)),
        order := if stale then s.mbadel.order else s.mbadel.order ++ [n],
        takenState := FMap.set 0 s.mbadel.takenState n s.dev.state } }
  else if n < 128 then
    let s1 := { s with mbadel := { s.mbadel with posted := FMap.set none s.mbadel.posted (n - 64) none } }
    s1.nextNotice (n - 64)
  else if 2248 ≤ n then s.nextFault n
  else s

/-- A read of TAKE (R210, R212, R214). -/
def State.mbTake (s : State) (n code width : Nat) : State :=
  if !s.isReceiver n code then (if s.isSender n code then s.answer 0 else (s.misuse n 0x20).answer 0)
  else
    let m := s.mb n
    if width ≠ 8 ∨ m.full = false then s.answer 0
    else if m.stale then
      let c := { s with boxes := { s.boxes with staleDiscards := bump s.boxes.staleDiscards code 1 } }
      (((c.setMb n { m with full := false }).log 0x0502 n m.stamp.toNat).afterTake n m true).answer 0
    else ((s.setMb n { m with full := false }).afterTake n m false).answer m.ptr.toNat

/-- MAILBOX_SEND (R212): the registers, when the sender writes them, then SEND. -/
def execMailboxSend (mb : Nat) (src : Source) (regs : Option MbRegs) (s : State) : Answer :=
  .next (match regs with
    | some r =>
      (((s.mbWrite mb (srcCode src) 0 r.ptrLo).mbWrite mb (srcCode src) 4 r.ptrHi).mbWrite mb (srcCode src) 8 r.len).mbSend mb (srcCode src)
    | none => s.mbSend mb (srcCode src))

/-- The registers of a mailbox fail their check: a FULL message is treated as STALE (R365). -/
def State.boxFailed (s : State) (n : Nat) : State :=
  if (s.mb n).full then (s.setMb n { s.mb n with stale := true }).sramFailed else s.sramFailed

/-- MAILBOX_TAKE (R212, R217): of the host mailboxes, the firmware takes the next in round-robin order that it may take; it does not read another one
that is FULL (log 2). -/
def execMailboxTake (mb : Nat) (reader : Source) (width : Nat) (s0 : State) (regBad : Bool := false) : Answer :=
  let s := if regBad then s0.boxFailed mb else s0
  .next (if mb < 64 ∧ s.isReceiver mb (srcCode reader) = true then
      (if (s.mb mb).full = false ∨ width ≠ 8 ∨ s.servesMbadel mb ∧ s.nextHm = some mb then s.mbTake mb (srcCode reader) width else s)
    else s.mbTake mb (srcCode reader) width)

/-- MAILBOX_RETRACT (R212). -/
def execMailboxRetract (mb : Nat) (src : Source) (s : State) : Answer := .next (s.mbRetract mb (srcCode src))

/-- MAILBOX_STATUS_CLEAR (R211). -/
def execMailboxStatusClear (mb : Nat) (src : Source) (value : Word) (s : State) : Answer := .next (s.mbStatus mb (srcCode src) value)

/-! ### Locks (R221, R222) -/

/-- Whether a source shares the locks: PF0, the MPs, the SP, the Farriers and the monitor. -/
def sharesLocks (code : Nat) : Bool :=
  code ∈ [srcPf0, srcMp 0, srcMp 1, srcSp, srcFarrier 0, srcFarrier 1, srcMonitor]

/-- The owner of a lock; 0 when free. -/
def State.lock (s : State) (k : Nat) : Nat := FMap.get 0 s.boxes.locks k

/-- Replace a lock's owner. -/
def State.setLock (s : State) (k owner : Nat) : State := { s with boxes := { s.boxes with locks := FMap.set 0 s.boxes.locks k owner } }

/-- A read of a lock register. -/
def State.lockRead (s : State) (k code : Nat) : State :=
  if !sharesLocks code then s.answer 0
  else (if s.lock k = 0 then s.setLock k code else s).answer (s.lock k)

/-- A write of a lock register: only the owner's own number, written by the owner, frees it; bits 31:20 are reserved (R5, R221). -/
def State.lockWrite (s : State) (k code : Nat) (v : Word) : State :=
  if sharesLocks code && decide (s.lock k = code) && decide (v.toNat % 2 ^ 20 = code) then s.setLock k 0 else s.log 0x0503 k v.toNat

/-- LOCK_ACQUIRE (R222). A register that fails its check is freed first (R365). -/
def execLockAcquire (k : Fin 64) (src : Source) (s : State) (regBad : Bool := false) : Answer :=
  .next ((if regBad then (s.setLock k.val 0).sramFailed else s).lockRead k.val (srcCode src))

/-- LOCK_RELEASE (R222). -/
def execLockRelease (k : Fin 64) (src : Source) (value : Word) (s : State) : Answer := .next (s.lockWrite k.val (srcCode src) value)

/-! ### The event ring (R375 to R377) -/

/-- Entries of the ring that the host has not consumed. -/
def Events.unread (e : Events) : Nat := if e.ringSize = 0 then 0 else (e.ringTail + e.ringSize - e.ringHead) % e.ringSize

/-- A write of ER_HEAD; one that names an entry not yet written is discarded and logged. -/
def State.erHead (s : State) (v : Word) : State :=
  let e := s.events
  let adv := if e.ringSize = 0 then 0 else (v.toNat + e.ringSize - e.ringHead) % e.ringSize
  if e.ringEnabled && decide (v.toNat < e.ringSize) && decide (adv ≤ e.unread) then { s with events := { e with ringHead := v.toNat } }
  else s.log 0x0403 0 0x4014

/-- A read of ER_LOST, which clears it. -/
def State.erLost (s : State) : State := ({ s with events := { s.events with lost := 0 } }).answer s.events.lost.toNat

/-- A write of ER_STATUS. -/
def State.erStatus (s : State) (v : Word) : State := { s with events := { s.events with overflow := s.events.overflow && !v.getLsbD 1 } }

/-- The ring is forgotten (R377). -/
def State.forgetEventRing (s : State) : State :=
  { s with events := { s.events with ringBase := 0, ringSize := 0, ringVector := 0, ringTail := 0, ringHead := 0, ringPhase := true,
                                     ringEnabled := false, pendingRing := [] } }

/-- One event finds its place in the ring, or is lost (R376). -/
def State.placeEvent (s : State) (ev : Event) : State :=
  let e := s.events
  if e.ringSize = 0 then s
  else if (e.ringTail + 1) % e.ringSize = e.ringHead then
    { s with events := { e with overflow := true, lost := if e.lost = 0xFFFFFFFF#32 then e.lost else e.lost + 1 } }
  else
    let s1 := s.hostWrite 0 (e.ringBase.toNat + e.ringTail * 32) (ev.bytes e.ringPhase)
    let wraps := decide (e.ringTail + 1 = e.ringSize)
    { s1 with events := { s1.events with ringTail := if wraps then 0 else e.ringTail + 1, ringPhase := if wraps then !e.ringPhase else e.ringPhase } }

/-- The commit's event placement (R376): entries in SEQ order, then one request of the vector, which is a PME source (R206). -/
def State.placeEvents (s : State) : State :=
  let evs := s.events.pendingRing
  let s0 := { s with events := { s.events with pendingRing := [] } }
  let s1 := evs.foldl State.placeEvent s0
  if s1.events.ringTail = s.events.ringTail ∧ s1.events.ringPhase = s.events.ringPhase then s1
  else (s1.msix 0 s.events.ringVector).pme 0

/-- ER_HEAD_WRITE (R376). -/
def execErHeadWrite (value : Word) (s : State) : Answer := .next (s.erHead value)
/-- ER_LOST_READ (R375). -/
def execErLostRead (s : State) : Answer := .next s.erLost
/-- ER_STATUS_CLEAR (R375). -/
def execErStatusClear (value : Word) (s : State) : Answer := .next (s.erStatus value)

end Sys2Proof.Machine
end

