-- ==== Sys2Proof/Machine/MbadelOps.lean ====
section
/-!
DEFINITION. How the firmware runs an Mbadel command (11, R225 to R232): the order of its checks, its timing class, its result and notice.
-/

namespace Sys2Proof.Machine

/-- How a command ends: STATUS, and KIND and VALUE of DETAIL (R228). -/
structure CmdEnd where
  status : Byte
  kind : Nat
  value : Nat
deriving DecidableEq, Repr

/-- OK. -/
def vOk : CmdEnd := { status := 0, kind := 0, value := 0 }
/-- REFUSED by precondition `n` (step 7 of R229). -/
def vPre (n : Nat) : CmdEnd := { status := 0x0F, kind := 1, value := n }
/-- REFUSED or another status with DETAIL 0. -/
def vPlain (status : Byte) : CmdEnd := { status := status, kind := 0, value := 0 }
/-- BAD_DESCRIPTOR at an offset from the block's start. -/
def vBad (off : Nat) : CmdEnd := { status := 0x0A, kind := 2, value := off }
/-- NO_RESOURCE. -/
def vNoRes : CmdEnd := vPlain 9
/-- A status with DETAIL 0x03 and an object number. -/
def vObj (status : Byte) (n : Nat) : CmdEnd := { status := status, kind := 3, value := n }
/-- A status with DETAIL 0x05. -/
def vOwn (status : Byte) (n : Nat) : CmdEnd := { status := status, kind := 5, value := n }

/-- The first failure of a list of judgements. -/
def firstOf : List (Option CmdEnd) → Option CmdEnd
  | [] => none
  | some v :: _ => some v
  | none :: r => firstOf r

/-- A judgement that fails when a condition holds. -/
def failIf (b : Bool) (v : CmdEnd) : Option CmdEnd := if b then some v else none

/-- Kinds of objects that class W commands hold (R231). -/
inductive ObjKind where
  | inst | reg | ctx | backend | ns | slot | yard | farrier | mp
deriving DecidableEq, Repr

/-- The number of an object kind. -/
def ObjKind.num : ObjKind → Nat
  | .inst => 1 | .reg => 2 | .ctx => 3 | .backend => 4 | .ns => 5 | .slot => 6 | .yard => 7 | .farrier => 8 | .mp => 9

/-- An object that a command names. -/
def obj (k : ObjKind) (n : Nat) : Nat × Nat := (k.num, n)

/-- What the checks of R229 need of a command: `need` payload and fixed-result bytes, the offset from +0x40 of the first field out of its
range, the objects it names, the first of them that does not exist, and steps 7 and 8. -/
structure Judge where
  need : Nat
  bad : Option Nat
  objs : List (Nat × Nat)
  missing : State → Option Nat
  pre : State → Option CmdEnd

/-- A command with a payload of `need` bytes that checks nothing else. -/
def Judge.plain (need : Nat) : Judge := { need := need, bad := none, objs := [], missing := fun _ => none, pre := fun _ => none }

/-- Steps 5, 7 and 8, which class T judges twice (R232). -/
def Judge.late (j : Judge) (s : State) : Option CmdEnd :=
  match j.missing s with
  | some n => some (vObj 0x11 n)
  | none => j.pre s

/-- The opcode of a class W command on one of some objects (step 6): one that runs, or that waits for its turn on them (R231). A switch that a
Firmware Commit started holds its slot as MP_SWITCH does (R323). -/
def State.holding (s : State) (objs : List (Nat × Nat)) : Option Nat :=
  match s.mbadel.running.find? (fun r => r.objs.any (fun o => objs.contains o)) with
  | some r => some r.opcode
  | none => (match s.repair.mpSwitch with | some w => if objs.contains (obj .slot w.1) || objs.contains (obj .mp 0) then some 0x0A04 else none | none => none)

/-- Steps 4 to 8 of R229, against the device `p` for steps 5, 7 and 8. -/
def State.judgeCmd (s p : State) (len : Nat) (j : Judge) : Option CmdEnd :=
  if len < 64 + j.need then some (vBad 4)
  else match j.bad with
    | some off => some (vBad (64 + off))
    | none =>
      match j.missing p with
      | some n => some (vObj 0x11 n)
      | none =>
        match s.holding j.objs with
        | some op => some { status := 0x0F, kind := 4, value := op }
        | none => j.pre p

/-- The entry of a command that was taken before a reset of PF0 (R203). -/
def State.preReset? (s : State) (k ptr : Nat) : Option (Nat × Nat × Nat) :=
  s.mbadel.preReset.find? (fun e => decide (e.1 = k) && decide (e.2.1 = ptr))

/-- The state without that entry. -/
def State.dropPreReset (s : State) (k ptr : Nat) : State :=
  { s with mbadel := { s.mbadel with preReset := s.mbadel.preReset.filter (fun e => !(decide (e.1 = k) && decide (e.2.1 = ptr))) } }

/-- The firmware writes STATUS, DETAIL, DONE_TICK, RESULT_LEN, RESULT_NEED and as much of the result as fits, then posts the notice (R225,
R226, R229). A Hivia command's DONE_TICK is 0 (R249). -/
def State.deliverResult (s : State) (k ptr len : Nat) (v2 : Bool) (v : CmdEnd) (res : List Byte) (need : Nat) : State :=
  let body := res.take (len - 64)
  let hdr := [v.status, 0, 0, 0] ++ leBytes 4 (v.kind % 256 * 2 ^ 24 + v.value % 2 ^ 24) ++ leBytes 8 (if v2 then 0 else s.time.number) ++
    leBytes 4 body.length ++ leBytes 4 need
  let s1 := s.hostWrite 0 (ptr + 0x10) hdr
  let s2 := if body.isEmpty then s1 else s1.hostWrite 0 (ptr + 0x40) body
  ({ s2 with mbadel := { s2.mbadel with lastResult := body } }).postNotice k ptr len

/-- A command ends with its result: written, or discarded and logged when PF0 was reset since the take and its Bus Master Enable is 0
(R203). -/
def State.writeResult (s : State) (k ptr len : Nat) (v2 : Bool) (v : CmdEnd) (res : List Byte) (need : Nat) : State :=
  match s.preReset? k ptr with
  | some e => if s.bme 0 then (s.dropPreReset k ptr).deliverResult k ptr len v2 v res need else (s.dropPreReset k ptr).log 0x0404 k e.2.2
  | none => s.deliverResult k ptr len v2 v res need

/-- A command ends with a verdict and no result. -/
def State.endCmd (s : State) (k ptr len : Nat) (v2 : Bool) (v : CmdEnd) : State := s.writeResult k ptr len v2 v [] 0

/-- Whether a device state serves a group (R13); `farrier` marks the rows of 0x09 that need a Farrier. -/
def servesGroup (state group : Nat) (farrier : Bool) : Bool :=
  match state with
  | 1 => decide (group = 1) || decide (group = 0x0E) || decide (group = 4)
  | 2 => true
  | 3 => true
  | 4 => group ∈ [0x01, 0x09, 0x0C, 0x0D, 0x0E]
  | 5 => !farrier
  | _ => false

/-- What a command is, apart from its payload: its opcode, and whether it is marked H or F. -/
structure CmdRow where
  opcode : Nat
  hivia : Bool
  farrier : Bool
deriving DecidableEq, Repr

/-- A row. -/
def row (opcode : Nat) : CmdRow := { opcode := opcode, hivia := false, farrier := false }
/-- A row of the Hivia subset. -/
def rowH (opcode : Nat) : CmdRow := { opcode := opcode, hivia := true, farrier := false }
/-- A row that needs a Farrier. -/
def rowF (opcode : Nat) : CmdRow := { opcode := opcode, hivia := false, farrier := true }

/-- How many commands each group has; their numbers run from 1 (R233 to R248). -/
def groupSizes : List Nat := [0, 6, 11, 3, 15, 7, 7, 9, 7, 7, 8, 3, 4, 3, 3]

/-- Whether an OPCODE is implemented (step 2 of R229). -/
def implemented (opcode : Nat) : Bool := decide (1 ≤ opcode % 256) && decide (opcode % 256 ≤ groupSizes.getD (opcode / 256) 0)

/-- The message that a mailbox brought leaves the set of those taken and not yet read; the opcode becomes known to the record of a reset of PF0
(R203). -/
def State.consume (s : State) (k ptr opcode : Nat) : State :=
  { s with mbadel := { s.mbadel with
      taken := FMap.set none s.mbadel.taken k none, order := s.mbadel.order.filter (· ≠ k),
      preReset := s.mbadel.preReset.map (fun (e : Nat × Nat × Nat) => if e.1 = k ∧ e.2.1 = ptr then (e.1, e.2.1, opcode) else e) } }

/-- A command block that has been taken is read and passes the first three steps of R229, the third by the device state at the take (R14); `run` is
given the block's address and length. The firmware starts commands in the order of their takes (R231): one whose mailbox has not been taken, or behind
another that was taken before and has not started, changes nothing (log 2). -/
def State.takenCmd (s : State) (h : MbHdr) (r : CmdRow) (run : State → Nat → Nat → State) : State :=
  let k := h.hm.val
  match FMap.get none s.mbadel.taken k with
  | none => s
  | some (ptr, len) =>
    let s0 := s.consume k ptr r.opcode
    let st := FMap.get 0 s.mbadel.takenState k
    if s.mbadel.order.head? ≠ some k then s
    else if h.readStatus ≠ 0 then (s0.log 0x0407 k h.readStatus.toNat).endCmd k ptr len h.v2 (vPlain 8)
    else if ptr % 64 ≠ 0 then s0.endCmd k ptr len h.v2 (vBad 0)
    else if h.length ≠ len ∨ len < 64 then s0.endCmd k ptr len h.v2 (vBad 4)
    else if s0.boot.recoveryPers || s0.boot.window || h.v2 && !r.hivia || h.opcode.any (fun o => !implemented o) then
      s0.endCmd k ptr len h.v2 (vPlain 0x0B)
    else if !servesGroup st (r.opcode / 256) r.farrier then s0.endCmd k ptr len h.v2 { status := 0x0F, kind := 0, value := st }
    else run s0 ptr len

/-- A command of class I, S or N (R230): judged and carried out at once. `act` gives the state, how it ended and its result. Of a command
that only checks, what `act` finds counts as its status, and nothing else of it (R227). -/
def State.runNow (s : State) (h : MbHdr) (r : CmdRow) (j : Judge) (act : State → State × CmdEnd × List Byte) : State :=
  s.takenCmd h r (fun s ptr len =>
    match s.judgeCmd s len j with
    | some v => s.endCmd h.hm.val ptr len h.v2 v
    | none =>
      if h.checkOnly then s.endCmd h.hm.val ptr len h.v2 (act s).2.1
      else
        let (s1, v, res) := act s
        s1.writeResult h.hm.val ptr len h.v2 v res res.length)

/-- A query: OK with a result and no effect. -/
def State.runQuery (s : State) (h : MbHdr) (r : CmdRow) (j : Judge) (res : State → List Byte) : State :=
  s.runNow h r j (fun s => (s, vOk, res s))

/-- A command of class I that ends OK without a result. -/
def State.runDo (s : State) (h : MbHdr) (r : CmdRow) (j : Judge) (act : State → State) : State :=
  s.runNow h r j (fun s => (act s, vOk, []))

/-- The ticks that count in the times of R230: those that began with PF0's Bus Master Enable 1 and the link in L0. -/
def State.cmdTick (s : State) : Nat := s.time.tick - s.mbadel.idle

/-- When the request of a class T command with a payload of `bytes` is complete (R230), in ticks that count: 100 µs after the take and 1 µs later per KiB
beyond 64, without the host's read latency for the block, so from the tick whose gate comes next when the block has been read. -/
def State.readyTick (s : State) (bytes : Nat) : Nat :=
  let us := 100 + (if bytes ≤ 65536 then 0 else (bytes - 65536 + 1023) / 1024)
  s.gateTick - s.mbadel.idle + ticksOf s.time.period (us * 1000)

/-- The first tick whose turn AT_TICK and the next gate allow (R24, R230). -/
def State.dueTick (s : State) (atTick : Nat) : Nat := max s.gateTick (atTick - s.time.jumped)

/-- Whether the turn of an armed command has come. -/
def State.isDue (s : State) (a : Armed) : Bool := decide (a.ready ≤ s.cmdTick) && decide (a.due ≤ s.time.tick)

/-- A command of class T is judged at its take against `p`, the device as the class T commands before it will leave it, and armed (R230,
R232). -/
def State.runTurn (s p : State) (h : MbHdr) (r : CmdRow) (j : Judge) (cmd : Instr) (atTick : Nat) : State :=
  s.takenCmd h r (fun s ptr len =>
    match s.judgeCmd p len j with
    | some v => s.endCmd h.hm.val ptr len h.v2 v
    | none =>
      if h.checkOnly then s.endCmd h.hm.val ptr len h.v2 vOk
      else
        let a : Armed := { opcode := r.opcode, cmd := cmd, hm := h.hm.val, ptr := ptr, len := len, v2 := h.v2, ready := s.readyTick (len - 64),
                            due := s.dueTick atTick }
        { s with mbadel := { s.mbadel with armed := s.mbadel.armed ++ [a] } })

/-- A command of class W starts (R230, R231): `start` is what it does at once. `waits` is for INSTANCE_RESET and INSTANCE_DESTROY, which wait
for a running command instead of being refused; the preconditions of one that waits are judged when it starts. -/
def State.runLong (s : State) (h : MbHdr) (r : CmdRow) (j : Judge) (cmd : Instr) (waits : Bool) (start : State → State) : State :=
  s.takenCmd h r (fun s ptr len =>
    let busy := waits && (s.holding j.objs).isSome
    match s.judgeCmd s len (if busy then { j with objs := [], pre := fun _ => none } else j) with
    | some v => s.endCmd h.hm.val ptr len h.v2 v
    | none =>
      if h.checkOnly then s.endCmd h.hm.val ptr len h.v2 vOk
      else
        let w : Running := { cmd := cmd, hm := h.hm.val, ptr := ptr, len := len, v2 := h.v2, opcode := r.opcode, objs := j.objs,
                             start := s.cmdTick, stage := if busy then 0 else 1 }
        let s1 := { s with mbadel := { s.mbadel with running := s.mbadel.running ++ [w] } }
        if busy then s1 else start s1)

/-- The oldest running command that came by a mailbox. -/
def State.runningOf (s : State) (hm : Nat) : Option Running := s.mbadel.running.find? (fun r => decide (r.hm = hm))

/-- A running command of an opcode. -/
def State.runningOp (s : State) (opcode : Nat) : Option Running :=
  s.mbadel.running.find? (fun r => decide (r.opcode = opcode) && decide (r.stage ≠ 0))

/-- The running command of an opcode that names an object. -/
def State.runningOn (s : State) (opcode : Nat) (o : Nat × Nat) : Option Running :=
  s.mbadel.running.find? (fun r => decide (r.opcode = opcode) && r.objs.contains o && decide (r.stage ≠ 0))

/-- Replace the step count of a running command. -/
def State.setStage (s : State) (x : Running) (n : Nat) : State :=
  { s with mbadel := { s.mbadel with running := s.mbadel.running.map (fun (r : Running) => if r = x then { r with stage := n } else r) } }

/-- A class W command ends with its result (R230). -/
def State.endLong (s : State) (r : Running) (v : CmdEnd) (res : List Byte) (need : Nat) : State :=
  ({ s with mbadel := { s.mbadel with running := s.mbadel.running.erase r } }).writeResult r.hm r.ptr r.len r.v2 v res need

end Sys2Proof.Machine
end

