-- ==== Sys2Proof/Machine/RepairOps.lean ====
section
/-!
DEFINITION. Shared operations of repair and wear (18): the repair map and log, spares, weak rows, yard swaps, lane replacement, DRAM channel
retirement, management-processor fail-over.
-/

namespace Sys2Proof.Machine

/-! ### The repair map and log (R381 to R385, R411) -/

/-- The 64 bits of an entry, with CHECK (R383). -/
def mapWord (e : MapEntry) : Nat :=
  let body := e.type * 2 ^ 52 + e.unit * 2 ^ 32 + e.source * 2 ^ 16 + e.target
  body * 256 + (crc 0 (leBytes 7 body)).toNat % 256

/-- The entry that 64 bits hold, when CHECK holds. -/
def mapOfWord (w : Nat) : Option MapEntry :=
  let e : MapEntry := { type := bits w 60 4, unit := bits w 40 20, source := bits w 24 16, target := bits w 8 16 }
  if mapWord e = w then some e else none

/-- Whether a later entry replaces an earlier one (R385). -/
def replaces (a b : MapEntry) : Bool :=
  decide (a.type = b.type) && decide (a.unit = b.unit) && (!(a.type ∈ [1, 2, 6]) || decide (a.source = b.source))

/-- A record of the repair log. -/
def State.logRepair (s : State) (action type : Nat) (status : Byte) (entry : Nat) : State :=
  let r : RepairRec := { seq := s.repair.logSeq, tick := s.time.number, sec := s.time.sec, action := action, type := type, status := status,
                         entry := BitVec.ofNat 64 entry }
  { s with repair := { s.repair with log := (r :: s.repair.log).take 1048576, logSeq := s.repair.logSeq + 1 } }

/-- The map with an entry applied after the others. -/
def applyEntry (m : List MapEntry) (e : MapEntry) : List MapEntry := m.filter (fun x => !replaces e x) ++ [e]

/-- A repair or retirement in service: in the map at once, its journal append asked for, and logged (R385, R411). -/
def State.addEntry (s : State) (action : Nat) (e : MapEntry) : State :=
  let s1 := { s with repair := { s.repair with map := applyEntry s.repair.map e } }
  (s1.requestAppend 1 (mapWord e)).logRepair action e.type 0 (mapWord e)

/-- TOTAL of each row of R381. -/
def spareTotals : List Nat := [2, 18432, 9216, 5, 5, 512, 1, 2, 1, 1, 1]
/-- A spare of a row is used. -/
def State.useSpare (s : State) (r : Nat) : State := { s with repair := { s.repair with used := bump s.repair.used r 1 } }
/-- A unit of a row is retired with no spare left (R382). -/
def State.retireUnit (s : State) (r : Nat) : State := { s with repair := { s.repair with retired := bump s.repair.retired r 1 } }

/-- Whether repairs are made: some Farrier has a heartbeat (R409). -/
def State.managed (s : State) : Bool := !s.dev.unmanaged

/-- A cause of RECOVERING arises. -/
def State.addRecover (s : State) (r : Recover) : State :=
  if s.dev.recovers.contains r then s else { s with dev := { s.dev with recovers := s.dev.recovers ++ [r] } }
/-- A cause of RECOVERING clears. -/
def State.dropRecover (s : State) (r : Recover) : State := { s with dev := { s.dev with recovers := s.dev.recovers.filter (· ≠ r) } }

/-! ### Held threads (R88, R247) -/

/-- A held thread is killed and the kill logged, `why` 0 for a swap and 1 for the end of an unlock. -/
def State.killHeld (s : State) (pe k why : Nat) : State :=
  if (s.thr pe k).held then (s.log 0x0901 (pe * 8 + k) why).endOther pe k 0x0C false else s

/-- Every held thread of a physical yard is killed. -/
def State.killYard (s : State) (y why : Nat) : State :=
  (yardEngines y).foldl (fun s pe => [1, 2, 3, 4, 5, 6, 7].foldl (fun s k => s.killHeld pe k why) s) s

/-! ### Yards: choice, start and end of a swap (R390 to R396) -/

/-- The use of a physical yard. -/
def State.yardUse (s : State) (y : Nat) : YardUse := s.repair.yardUse.getD y .retired
/-- Change it. -/
def State.setYardUse (s : State) (y : Nat) (u : YardUse) : State :=
  { s with repair := { s.repair with yardUse := modifyAt s.repair.yardUse y (fun _ => u) } }

/-- STRESS of a yard with its fraction. -/
def State.stress (s : State) (y : Nat) : Nat := FMap.get 0 s.repair.stress y

/-- Physical yards in a use. -/
def State.yardsIn (s : State) (u : YardUse) : List Nat := (List.range 34).filter (fun y => decide (s.yardUse y = u))

/-- The resting yards that may be called out: none of them is already on its way. -/
def State.resting (s : State) : List Nat :=
  (s.yardsIn .resting).filter (fun y => match s.repair.swap with | some w => decide (w.inn ≠ y) | none => true)

/-- The resting yard with the lowest stress; the lowest number on a tie. -/
def State.lowestRest (s : State) : Option Nat :=
  s.resting.foldl (fun b y => match b with | none => some y | some x => if s.stress y < s.stress x then some y else some x) none

/-- The active yard with the highest stress; the lowest number on a tie. -/
def State.highestActive (s : State) : Option Nat :=
  (s.yardsIn .active).foldl (fun b y => match b with | none => some y | some x => if s.stress x < s.stress y then some y else some x) none

/-- Call a resting yard out towards a logical yard (R391): its built-in test runs. -/
def State.startSwap (s : State) (out inn logical : Nat) (asked : Bool) : State :=
  { s with repair := { s.repair with swap := some { out := out, inn := inn, logical := logical, stage := .testing, forced := false, asked := asked, due := 0,
                                                    saved := [], settled := false } } }

/-- Swaps that wait for the present one (R393, R396): the next one starts when a resting yard is usable. -/
def State.nextSwap (s : State) : State :=
  match s.repair.swap, s.repair.forcedWait with
  | none, w :: rest =>
    (match s.lowestRest with
     | some y =>
       if (w.forced && !w.settled) || (!w.forced && s.power.warn) then s
       else { s with repair := { s.repair with swap := some { w with inn := if w.asked && s.resting.contains w.inn then w.inn else y, stage := .testing }, forcedWait := rest } }
     | none => s)
  | _, _ => s

/-- The first tick whose turn applies what is ready now (R24): this one's before its gate. -/
def State.turnFrom (s : State) : Nat := if s.time.phase = .work then s.time.tick else s.time.tick + 1

/-- The swap ends without a rebind: the incoming yard goes back to rest. -/
def State.dropSwap (s : State) : State := { s with repair := { s.repair with swap := none } }

/-- ROTATE_NOW, when it asked for the swap, ends. -/
def State.endRotate (s : State) (w : Swap) (v : CmdEnd) (res : List Byte) : State :=
  if w.asked then (match s.runningOn 0x0903 (obj .yard w.out) with | some r => s.endLong r v res res.length | none => s) else s

/-- A planned swap is abandoned (R393, "When power warning meets a rotation"); ROTATE_NOW ends ABORTED (log 39). -/
def State.abandonSwap (s : State) : State :=
  match s.repair.swap with
  | some w => if w.forced then s else (s.dropSwap.endRotate w (vPlain 1) []).nextSwap
  | none => s

/-- The rotations that wait behind another swap are abandoned (R393, R453). -/
def State.abandonWaiting (s : State) : State :=
  let ws := s.repair.forcedWait.filter (fun (w : Swap) => !w.forced)
  let s1 := { s with repair := { s.repair with forcedWait := s.repair.forcedWait.filter (fun (w : Swap) => w.forced) } }
  ws.foldl (fun (s : State) w => s.endRotate w (vPlain 1) []) s1

/-- Whether a yard is already on its way out. -/
def State.leaving (s : State) (y : Nat) : Bool :=
  (match s.repair.swap with | some w => decide (w.out = y) | none => false) || s.repair.forcedWait.any (fun w => decide (w.out = y))

/-- An urgent rotation (R395). -/
def State.urgentRotation (s : State) (y : Nat) : State :=
  match s.logicalYard y with
  | none => s
  | some l =>
    if s.leaving y then s
    else
      let w : Swap := { out := y, inn := 0, logical := l, stage := .waiting, forced := false, asked := false, due := 0, saved := [], settled := false }
      ({ s with repair := { s.repair with forcedWait := s.repair.forcedWait ++ [w] } }).nextSwap

/-- A yard that fails its test out of rest is put to rest again and retired (R391). -/
def State.retireRest (s : State) (y : Nat) : State :=
  ((s.setYardUse y .retired).retireUnit 0).addEntry 2 { type := 3, unit := 0xFFFFF, source := y, target := 0xFFFF }

/-! ### Applying swaps at a turn (R34, R54, R58, R141, R392, R393, R396) -/

/-- Untaken messages of an engine (R58). -/
def Engine.untaken (e : Engine) : Nat :=
  e.faultCh.length + (e.threads.map (fun t => (t.2.rx.map (fun c => c.2.length)).foldl (· + ·) 0)).foldl (· + ·) 0

/-- An engine whose receive buffers have been emptied (R58). -/
def Engine.untakenGone (e : Engine) : Engine :=
  { e with faultCh := [], threads := FMap.mapVals Thread.reset (fun _ (t : Thread) => { t with rx := [] }) e.threads }

/-- The messages that receivers on a yard which is swapped out have not taken are discarded and counted in that yard's stale count (R58). -/
def State.dropUntaken (s : State) (y : Nat) : State :=
  let lost := ((yardEngines y).map (fun pe => (s.eng pe).untaken)).foldl (· + ·) 0
  let s1 := (yardEngines y).foldl (fun s pe => s.setEng pe (s.eng pe).untakenGone) s
  s1.setYard y { s1.yard y with staleMsgs := (s1.yard y).staleMsgs + lost }

/-- An engine as a swap builds it from the one it replaces: banks and their state, and the messages in flight, which are still to be delivered
(R54, R58); and, when it was mirrored, the 28 KiB data store, the slot registers, sxdwin, DBGEN, MWAUTO and the retries that wait (R392). -/
def Engine.successor (e : Engine) (mirrored : Bool) : Engine :=
  let b := { Engine.reset with bankA := e.bankA, bankB := e.bankB, activeB := e.activeB, pendSwitch := e.pendSwitch,
                               threads := FMap.mapVals Thread.reset (fun _ (t : Thread) => { Thread.reset with sendq := t.sendq }) e.threads }
  if mirrored then
    { b with dwin := e.dwin, slotLo := e.slotLo, slotHi := e.slotHi, oldLo := e.slotLo, oldHi := e.slotHi, dbgen := e.dbgen,
             mwauto := e.mwauto, store := e.store.filter (fun c => decide (c.1 < 0x17000)), retries := e.retries }
  else b

/-- The engines of `inn` take over from those of `out`, and their cycles count from the end of this tick (R39, R392, log 61); those of `out` are
unpowered, and keep nothing but the yard's stale count. -/
def State.moveYard (s0 : State) (out inn : Nat) (mirrored : Bool) : State :=
  let s := s0.dropUntaken out
  let s1 := (List.range 32).foldl (fun s j => (s.setEng (inn * 32 + j) ((s.eng (out * 32 + j)).successor mirrored)).setEng (out * 32 + j) Engine.reset) s
  let old := s1.yard out
  let fresh : Yard := { Yard.reset with boundary := old.boundary, boundaryNext := old.boundaryNext, staleMsgs := (s1.yard inn).staleMsgs,
                                        cycFrom := s.time.cycBase + tickCycles s.time.period }
  let s2 := s1.setYard inn (if mirrored then { fresh with shared := old.shared, setNo := old.setNo } else fresh)
  s2.setYard out { Yard.reset with staleMsgs := old.staleMsgs }

/-- The logical yard is bound to the incoming yard, with the map entry and the event (R393). -/
def State.bindYard (s : State) (w : Swap) : State :=
  let s1 := s.moveYard w.out w.inn (!w.forced)
  let s2 := { s1 with erg := { s1.erg with ymap := modifyAt s1.erg.ymap w.logical (fun _ => some w.inn) } }
  let s3 := (s2.setYardUse w.out (if w.forced then .retired else .resting)).setYardUse w.inn .active
  (s3.addEntry (if w.forced then 1 else 3) { type := 3, unit := w.logical, source := w.out, target := w.inn }).log 0x0B03 w.out w.inn

/-- Whether some engine of a physical yard is marked held. -/
def State.yardHeld (s : State) (y : Nat) : Bool := (yardEngines y).any (fun pe => (s.eng pe).holdEng)

/-- The logical yards in service other than one, ascending. -/
def State.otherYards (s : State) (l : Nat) : List Nat := (List.range 32).filter (fun i => decide (i ≠ l) && (s.erg.ymap.getD i none).isSome)

/-- Round robin over yards for the entries of a list: their new values, each keeping its engine (R141). -/
def respread (ys : List Nat) : Nat → List (Nat × Nat) → List (Nat × Nat)
  | _, [] => []
  | n, (i, v) :: rest => (i, (ys.getD (n % ys.length) 0) * 32 + v % 32) :: respread ys (n + 1) rest

/-- Write entries of the spread table in force. -/
def State.writeSpread (s : State) (es : List (Nat × Nat)) : State :=
  let c := s.cls.cur
  { s with cls := { s.cls with cur := { c with spread := es.foldl (fun m e => FMap.set 0xFFFF m e.1 e.2) c.spread } } }

/-- The entries of the spread table that name a logical yard, ascending. -/
def State.spreadOf (s : State) (l : Nat) : List (Nat × Nat) :=
  ((List.range 4096).map (fun i => (i, spreadEntry s.cls.cur i))).filter (fun e => decide (e.2 / 32 % 32 = l))

/-- Step 1 of a forced swap (R396): entries rewritten, held threads killed, grooms' epochs incremented; the yard leaves the map. Where no
resting yard is usable it stands as a permanent retirement. -/
def State.forceStep1 (s : State) (w : Swap) : State × Option Swap :=
  let saved := s.spreadOf w.logical
  let ys := s.otherYards w.logical
  let s1 := if ys.isEmpty then s else s.writeSpread (respread ys 0 saved)
  let s2 := (s1.killYard w.out 0).dropUntaken w.out
  let s3 := (List.range 32).foldl (fun s j => s.epochBump (srcGroom (w.logical * 32 + j))) s2
  let s4 := { s3 with erg := { s3.erg with ymap := modifyAt s3.erg.ymap w.logical (fun _ => none) } }
  let s5 := (s4.setYardUse w.out .retired).addEntry 2 { type := 3, unit := 0xFFFFF, source := w.out, target := 0xFFFF }
  if s5.managed && !s5.resting.isEmpty then (s5, some { w with saved := saved, settled := true })
  else
    (((s5.retireUnit 0).addEntry 2 { type := 3, unit := w.logical, source := w.out, target := 0xFFFF }).dropRecover (.yard w.out), none)

/-- Step 1 for a failing yard that has not had it: what remains of its swap. -/
def State.forceOne (s : State) (w : Swap) : State × List Swap :=
  if w.forced && !w.settled then ((s.forceStep1 w).1, (s.forceStep1 w).2.toList) else (s, [w])

/-- Step 1 for every failing yard that has not had it. -/
def forceAll (s : State) (ws : List Swap) : State × List Swap :=
  ws.foldl (fun (p : State × List Swap) w => ((p.1.forceOne w).1, p.2 ++ (p.1.forceOne w).2)) (s, [])

/-- A swap that is ready at this turn (R393, R396). -/
def State.applySwap (s : State) : State :=
  match s.repair.swap with
  | some w =>
    if w.stage ≠ .mirrored ∨ s.time.tick < w.due then s
    else if w.forced then
      let s1 := ((s.dropSwap.bindYard w).useSpare 0).writeSpread w.saved
      (s1.dropRecover (.yard w.out)).nextSwap
    else if s.yardHeld w.out then s
    else (((s.dropSwap.bindYard w).endRotate w vOk [BitVec.ofNat 8 w.out, BitVec.ofNat 8 w.inn])).nextSwap
  | none => s

/-- The turn's yard work (R24, R393, R396). -/
def State.turnSwaps (s : State) : State :=
  let (s1, ws) := forceAll s s.repair.forcedWait
  ({ s1 with repair := { s1.repair with forcedWait := ws } }).applySwap.nextSwap

/-! ### Weak rows and columns (R366, R388, R400) -/

/-- The buffers of a pool that overlap bytes `lo` to `hi - 1` of the memory that holds it. -/
def Pool.overlap (p : Pool) (lo hi : Nat) : List Nat :=
  if p.size = 0 ∨ p.count = 0 ∨ hi ≤ p.base ∨ p.base + p.size * p.count ≤ lo ∨ hi ≤ lo then []
  else
    let a := (lo - p.base) / p.size
    let b := min (p.count - 1) ((hi - 1 - p.base) / p.size)
    (List.range (b + 1 - a)).map (· + a)

/-- Every buffer of some pools that overlaps a range is withdrawn until reset (R157, R388). -/
def State.withdrawSpan (s : State) (codes : List Nat) (span : Nat × Nat) : State :=
  codes.foldl (fun s c => match s.pool? c with
    | some p => (p.overlap span.1 span.2).foldl (fun s i => s.withdraw c i) s
    | none => s) s

/-- A weak row (false) or column group (true) of an SRAM macro is given a spare, or is retired (R388). -/
def State.sramWeak (s : State) (mac : Nat) (col : Bool) (n : Nat) : State :=
  let type := if col then 2 else 1
  let r := if col then 2 else 1
  let spares := if col then 2 else 4
  let m := if col then s.repair.sramCols else s.repair.sramRows
  let k := FMap.get 0 m mac
  let s0 := s.logRepair 4 type 0 0
  if !s.managed then s0
  else if k < spares then
    let rp := s0.repair
    let s1 := { s0 with repair := if col then { rp with sramCols := bump rp.sramCols mac 1 } else { rp with sramRows := bump rp.sramRows mac 1 } }
    (s1.useSpare r).addEntry 1 { type := type, unit := mac, source := n, target := k }
  else
    let s1 := (s0.retireUnit r).addEntry 2 { type := type, unit := mac, source := n, target := 0xFFFF }
    match Config.macroHome mac with
    | .yard y => s1.urgentRotation y
    | .packet => (Config.macroSpan mac col n).foldl (fun s sp => s.withdrawSpan [1, 2, 3, 4] sp) s1
    | .other => { s1 with repair := { s1.repair with withdrawnRows := s1.repair.withdrawnRows ++ [(mac, n)] } }

/-- A channel starts to be retired in service (R401). -/
def State.retireChannel (s : State) (c : Nat) : State :=
  if s.repair.channels.getD c false && s.repair.moving.isNone then
    ({ s with repair := { s.repair with moving := some c, moveDone := false } }).addRecover .channel
  else s

/-- The retirement ends at a turn: the layout over the other channels takes over (R401). -/
def State.turnChannel (s : State) : State :=
  match s.repair.moving with
  | some c =>
    if s.repair.moveDone then
      let s1 := { s with repair := { s.repair with channels := modifyAt s.repair.channels c (fun _ => false), moving := none, moveDone := false } }
      let s2 := if FMap.get 0 s1.repair.used 6 = 0 then s1.useSpare 6 else s1.retireUnit 6
      (s2.addEntry 2 { type := 7, unit := c, source := 0xFFFF, target := 0xFFFF }).dropRecover .channel
    else s
  | none => s

/-- A weak DRAM row (R388, R400): one post-package repair per bank; beyond it the row is retired, its spill buffers withdrawn, and the channel
retired with its 64th such row. -/
def State.dramWeak (s : State) (ch die bank rw : Nat) : State :=
  let unit := ch * 128 + die * 16 + bank
  let s0 := s.logRepair 4 6 0 0
  if !s.managed then s0
  else if FMap.get 0 s0.repair.ppr unit = 0 then
    (({ s0 with repair := { s0.repair with ppr := FMap.set 0 s0.repair.ppr unit 1 } }).useSpare 5).addEntry 1
      { type := 6, unit := unit, source := rw % 65536, target := 0 }
  else
    let s1 := (s0.retireUnit 5).addEntry 2 { type := 6, unit := unit, source := rw % 65536, target := 0xFFFF }
    let s2 := { s1 with repair := { s1.repair with dramRows := bump s1.repair.dramRows ch 1 } }
    let rel := fun (sp : Nat × Nat) => (sp.1 - s2.dataBase, sp.2 - s2.dataBase)
    let s3 : State := (Config.dramSpan ch die bank rw).foldl (fun (s : State) sp => s.withdrawSpan [5, 6, 7] (rel sp)) s2
    if 64 ≤ FMap.get 0 s3.repair.dramRows ch then s3.retireChannel ch else s3

/-- A row or column that a test finds weak (R388). -/
def State.weak (s : State) (r : PatrolRow) : State :=
  match r with
  | .sramRow m n => s.sramWeak m false n
  | .sramCol m g => s.sramWeak m true g
  | .dramRow c d b n => s.dramWeak c d b n

/-! ### Lasers and electrical lanes (R93, R397, R398) -/

/-- The group of four, or optical engine, of a lane. -/
def laneGroup (lane : Nat) : Nat := lane / 4

/-- The spare of a lane's optical engine (1) or electrical group (2): 0, or 1 + the element that it replaces. -/
def State.laneSpare (s : State) (kind lane : Nat) : Nat :=
  FMap.get 0 (if kind = 1 then s.repair.lasers else s.repair.elanes) (laneGroup lane)

/-- The laser (1) or electrical lane (2) that serves a lane now: its own, or the spare, numbered 4. -/
def State.laneUnit (s : State) (kind lane : Nat) : Nat := if s.laneSpare kind lane = 1 + lane % 4 then 4 else lane % 4

/-- A lane becomes FAILED (R93, R382, R397, R398). -/
def State.failLane (s : State) (kind lane : Nat) : State :=
  let s1 := (s.setLane lane .failed).log 0x0302 lane (laneGroup lane)
  let s2 := { s1 with repair := { s1.repair with laneWork := FMap.set 0 s1.repair.laneWork lane 0 } }
  if s2.managed then
    (s2.retireUnit (2 + kind)).addEntry 2 { type := 3 + kind, unit := laneGroup lane, source := s.laneUnit kind lane, target := 0xFFFF }
  else s2

/-- The replacement is made: the spare serves the lane, which reports NO_LINK until it aligns again (R93). -/
def State.replaceLane (s : State) (kind lane : Nat) : State :=
  if s.laneSpare kind lane ≠ 0 then s.failLane kind lane
  else
    let g := laneGroup lane
    let v := 1 + lane % 4
    let rp := s.repair
    let s1 := { s with repair := { (if kind = 1 then { rp with lasers := FMap.set 0 rp.lasers g v } else { rp with elanes := FMap.set 0 rp.elanes g v }) with
                                   laneWork := FMap.set 0 rp.laneWork lane 0 } }
    let s2 := (s1.useSpare (2 + kind)).addEntry 1 { type := 3 + kind, unit := g, source := lane % 4, target := 4 }
    if s2.laneIsUp lane then s2.setLane lane .noLink else s2

/-- Whether a lane has failed for good. -/
def State.laneFailed (s : State) (lane : Nat) : Bool := match s.lane? lane with | some l => decide (l.st = .failed) | none => true

/-- A planned replacement (R93): a member that distributes is first removed from its group's distribution; any other lane is replaced at once. -/
def State.planLane (s : State) (kind lane : Nat) : State :=
  if s.laneFailed lane || !s.managed then s
  else if s.laneSpare kind lane ≠ 0 then s.failLane kind lane
  else if lane < 16 ∧ (s.groupOf lane).isSome = true ∧ s.laneIsUp lane = true then
    ({ s with repair := { s.repair with laneWork := FMap.set 0 s.repair.laneWork lane kind } }).modLane lane (fun l => { l with removal := true })
  else s.replaceLane kind lane

/-- An outright failure (R397, R398, R409). -/
def State.loseLane (s : State) (kind lane : Nat) : State :=
  if s.laneFailed lane then s
  else if !s.managed then s.failLane kind lane
  else s.replaceLane kind lane

/-- Whether every leaf of a lane is empty. -/
def State.laneDrained (s : State) (lane : Nat) : Bool :=
  s.tm.leaves.all (fun e => decide (e.1 % 32 ≠ lane) || e.2.frames.isEmpty) && (FMap.get none s.tm.sending lane).isNone

/-! ### Management processors (R403 to R406) -/

/-- The other of two. -/
def other (n : Nat) : Nat := 1 - n

/-- Whether the standby MP is usable. -/
def State.standbyUsable (s : State) : Bool := s.repair.mps.getD (other s.repair.mpActive) false

/-- Commands taken with no effect made or armed end ABORTED (R404). -/
def State.abortTaken (s : State) : State :=
  s.mbadel.taken.foldl (fun s e => match e.2 with
    | some (ptr, len) => ({ s with mbadel := { s.mbadel with taken := FMap.set none s.mbadel.taken e.1 none, order := s.mbadel.order.filter (· ≠ e.1) } }).endCmd e.1 ptr len false (vOwn 1 2)
    | none => s) s

/-- A fresh notice, under the new MP's stamp, for every command whose result was written and whose notice the host has not taken (R404). -/
def State.freshNotices (s : State) : State :=
  s.mbadel.posted.foldl (fun s e => match e.2 with
    | some (ptr, len) =>
      if s.mbadel.notices.any (fun n => decide (n.1 = e.1) && decide (n.2.1 = ptr)) then s
      else { s with mbadel := { s.mbadel with notices := s.mbadel.notices ++ [(e.1, ptr, len)] } }
    | none => s) s

/-- The image that runs changes places with the standby's. -/
def State.swapImages (s : State) : State :=
  let b := s.boot
  match b.standby with
  | some (slot, seq, ver) => { s with boot := { b with runSlot := some slot, runSeq := seq, runVersion := ver, firstRun := some s.time.sec, bootOk := false,
                                                       standby := b.runSlot.map (fun x => (x, b.runSeq, b.runVersion)) } }
  | none => s

/-- A switch has come about, or has been given up: MP_SWITCH ends, or the Firmware Commit that waits for it (R243, R322). -/
def State.endSwitch (s : State) (v : CmdEnd) (nvStatus : Nat) : State :=
  let s1 := match s.runningOp 0x0A04 with | some r => s.endLong r v [] 0 | none => s
  match (s1.ctl 2).fwWait with
  | some (cid, op) => (s1.modCtl 2 (fun c => { c with fwWait := none })).nvSettle 2 0 cid (some op) nvStatus 0 0 0
  | none => s1

/-- A standby that had loaded the slot of an MP_SWITCH takes over with that image, which completes the command (R406). -/
def State.switchImage (s : State) : State :=
  match s.repair.mpSwitch with
  | none => s
  | some (slot, _, seq) => { s with repair := { s.repair with mpSwitch := none },
                                    boot := { s.boot with standby := some (slot, seq, fieldLe (s.slotHdr slot) 12 4) } }

/-- The turn of a fail-over (R403, R404): the standby becomes active, settles the commands, and the failed MP's epoch increments. -/
def State.turnFailover (s : State) : State :=
  match s.repair.mpFail with
  | none => s
  | some m =>
    let s0 := { s with repair := { s.repair with mpFail := none } }
    if s0.standbyUsable then
      let s1 := ({ s0.switchImage with repair := { s0.switchImage.repair with mpActive := other m, mpReloading := some m, mpReloads := 0 } }).swapImages
      let s2 := (s1.abortTaken.freshNotices.logRepair 7 0 0 0).dropRecover .mp
      let s3 := s2.epochBump (srcMp m)
      if s0.repair.mpSwitch.isSome then s3.endSwitch vOk 0 else s3
    else ({ s0 with boot := { s0.boot with mpRunning := false }, repair := { s0.repair with mpReloading := some m, mpReloads := 0 } }).epochBump (srcMp m)

/-- The turn of MP_SWITCH (R406): the standby, which runs the new image, becomes active; no epoch changes. -/
def State.turnMpSwitch (s : State) : State :=
  match s.repair.mpSwitch with
  | none => s
  | some (slot, due, seq) =>
    if s.time.tick < due then s
    else
      let b := s.boot
      let old := b.runSlot.map (fun x => (x, b.runSeq, b.runVersion))
      let s1 := { s with repair := { s.repair with mpSwitch := none, mpActive := other s.repair.mpActive },
                         boot := { b with runSlot := some slot, runSeq := seq, runVersion := fieldLe (s.slotHdr slot) 12 4, firstRun := some s.time.sec,
                                          bootOk := false, fromRecovery := false, standby := old } }
      (s1.abortTaken.log 0x0C01 s1.repair.mpActive slot).endSwitch vOk 0

/-- MP_SWITCH is abandoned (R243, "When PWR_FAIL_WARN_N meets a switch-over"). -/
def State.abandonMpSwitch (s : State) : State :=
  match s.repair.mpSwitch with
  | none => s
  | some _ =>
    (({ s with repair := { s.repair with mpSwitch := none } }).log 0x0C02 0 1).endSwitch (vOwn 1 1) (nvSt 1 0x13 true)

end Sys2Proof.Machine
end

