-- ==== Sys2Proof/Machine/NvmeCmds.lean ====
section
/-!
DEFINITION. Meanings of the NVMe commands (R301 to R311, R322, R323), of KEEP_ALIVE_EXPIRY and of the power-state rows (R314, R315), and
what an abort or a queue deletion does in its commit.
-/

namespace Sys2Proof.Machine

/-! ### Statuses -/

/-- Invalid Command Opcode. -/
def nvBadOpcode : Nat := nvSt 0 0x01 true
/-- Invalid Field in Command. -/
def nvBadField : Nat := nvSt 0 0x02 true
/-- Invalid Namespace or Format. -/
def nvBadNs : Nat := nvSt 0 0x0B true
/-- Command Sequence Error. -/
def nvBadSeq : Nat := nvSt 0 0x0C true
/-- PRP Offset Invalid. -/
def nvBadPrp : Nat := nvSt 0 0x13 true
/-- LBA Out of Range. -/
def nvBadLba : Nat := nvSt 0 0x80 true
/-- Invalid Queue Identifier. -/
def nvBadQid : Nat := nvSt 1 0x01 true

/-- Bits of a command Dword. -/
def dw (w : Word) (lo n : Nat) : Nat := bits w.toNat lo n

/-- An admin command settles with a status and Dword 0. -/
def State.nvAdminDone (s : State) (k : NvCmd) (op : Option Nat) (status : Nat) (dw0 : Word) : State :=
  s.nvSettle k.ctl k.sqid k.cid op status dw0 0 k.nsid

/-- An admin command, which only the admin queue takes. -/
def State.nvAdmin (s : State) (k : NvCmd) (run : State → Option Nat → State) : State :=
  s.nvFetch k true (fun s op => if k.sqid ≠ 0 then s.nvAdminDone k op nvBadOpcode 0 else run s op)

/-! ### Queues (R303, R306, R311) -/

/-- CREATE_IO_COMPLETION_QUEUE (R303). -/
def execCreateIoCompletionQueue (k : NvCmd) (s : State) : Answer :=
  .next (s.nvAdmin k (fun s op =>
    let c := s.ctl k.ctl
    let q := dw k.cdw10 0 16
    let size := dw k.cdw10 16 16 + 1
    let iv := dw k.cdw11 16 16
    let st :=
      if k.cdw11.getLsbD 0 = false ∨ k.prp1.toNat % 4096 ≠ 0 then nvBadField
      else if q = 0 ∨ c.ncq < q ∨ (c.cq q).isSome = true then nvBadQid
      else if size < 2 ∨ 4096 < size then nvSt 1 0x02 true
      else if s.vectorsOf k.ctl ≤ iv then nvSt 1 0x08 true else 0
    if st ≠ 0 then s.nvAdminDone k op st 0
    else
      let v : NvCq := { iv := iv, ien := k.cdw11.getLsbD 1, size := size, base := k.prp1.toNat, next := 0, head := 0, modTicks := c.coalTicks,
                        modCount := dw c.coal 0 8 + 1, pendCount := 0, pendSince := 0 }
      (s.modCtl k.ctl (fun c => { c with cqs := FMap.set none c.cqs q (some v), everIo := true })).nvAdminDone k op 0 0))

/-- CREATE_IO_SUBMISSION_QUEUE (R303, R309). -/
def execCreateIoSubmissionQueue (k : NvCmd) (s : State) : Answer :=
  .next (s.nvAdmin k (fun s op =>
    let c := s.ctl k.ctl
    let q := dw k.cdw10 0 16
    let size := dw k.cdw10 16 16 + 1
    let cq := dw k.cdw11 16 16
    let st :=
      if k.cdw11.getLsbD 0 = false ∨ k.prp1.toNat % 4096 ≠ 0 then nvBadField
      else if q = 0 ∨ c.nsq < q ∨ (c.sq q).isSome = true then nvBadQid
      else if size < 2 ∨ 4096 < size then nvSt 1 0x02 true
      else if cq = 0 ∨ (c.cq cq).isNone = true then nvSt 1 0x00 true else 0
    if st ≠ 0 then s.nvAdminDone k op st 0
    else
      let v : NvSq := { cqid := cq, prio := dw k.cdw11 1 2, size := size, base := k.prp1.toNat, head := 0, tail := 0, error := false, aborted := [] }
      (s.modCtl k.ctl (fun c => { c with sqs := FMap.set none c.sqs q (some v), everIo := true })).nvAdminDone k op 0 0))

/-- DELETE_IO_SUBMISSION_QUEUE (R311): settled in the commit. -/
def execDeleteIoSubmissionQueue (k : NvCmd) (s : State) : Answer :=
  .next (s.nvAdmin k (fun s op =>
    let q := dw k.cdw10 0 16
    if q = 0 ∨ ((s.ctl k.ctl).sq q).isNone = true then s.nvAdminDone k op nvBadQid 0
    else s.modCtl k.ctl (fun c => { c with due := c.due ++ [.deleteSq k.cid (op.getD 0) q] })))

/-- DELETE_IO_COMPLETION_QUEUE (R311). -/
def execDeleteIoCompletionQueue (k : NvCmd) (s : State) : Answer :=
  .next (s.nvAdmin k (fun s op =>
    let c := s.ctl k.ctl
    let q := dw k.cdw10 0 16
    if q = 0 ∨ (c.cq q).isNone = true then s.nvAdminDone k op nvBadQid 0
    else if c.sqs.any (fun e => match e.2 with | some v => decide (v.cqid = q) | none => false) then s.nvAdminDone k op (nvSt 1 0x0C true) 0
    else (s.modCtl k.ctl (fun c => { c with cqs := FMap.set none c.cqs q none })).nvAdminDone k op 0 0))

/-- NVME_ABORT (R311): settled in the commit. -/
def execNvmeAbort (k : NvCmd) (s : State) : Answer :=
  .next (s.nvAdmin k (fun s op =>
    s.modCtl k.ctl (fun c => { c with due := c.due ++ [.abort k.cid (op.getD 0) (dw k.cdw10 0 16) (BitVec.ofNat 16 (dw k.cdw10 16 16))] })))

/-- The CIDs that wait unfetched in a submission queue. -/
def State.nvUnfetched (s : State) (q : NvSq) : List Half :=
  ((List.range (ringDist q.size q.head q.tail)).map (fun i => BitVec.ofNat 16 (Mem.rdLe s.hostMem (q.base + (q.head + i) % q.size * 64 + 2) 2))).filter
    (fun c => !q.aborted.contains c)

/-- The outstanding command that an abort names ends Command Abort Requested; answers whether there was one (R311). -/
def State.nvAbortOne (s : State) (fn sqid : Nat) (cid : Half) : Bool × State :=
  let c := s.ctl fn
  let st := nvSt 0 0x07 false
  match c.outs.find? (fun o => decide (o.sqid = sqid) && decide (o.cid = cid)) with
  | some o => (true, s.nvEndOut fn o st)
  | none =>
    if sqid = 0 ∧ c.aers.contains cid = true then
      (true, (s.modCtl fn (fun c => { c with aers := c.aers.erase cid })).nvSettle fn 0 cid none st 0 0 0)
    else match (if sqid = 0 then c.setPower else none) with
      | some (x, op) =>
        if x = cid then (true, (s.modCtl fn (fun c => { c with setPower := none })).nvSettle fn 0 cid (some op) st 0 0 0) else (false, s)
      | none =>
        match c.sq sqid with
        | some q =>
          if (s.nvUnfetched q).contains cid then
            (true, (s.modCtl fn (fun c => { c with sqs := FMap.set none c.sqs sqid (some { q with aborted := q.aborted ++ [cid] }) })).nvSettle
              fn sqid cid none st 0 0 0)
          else (false, s)
        | none => (false, s)

/-- An abort or a deletion in its commit, after the commit's completions (R311). -/
def State.nvDueOne (fn : Nat) (s : State) (d : NvDue) : State :=
  match d with
  | .abort cid op sqid target =>
    let (hit, s1) := s.nvAbortOne fn sqid target
    s1.nvSettle fn 0 cid (some op) 0 (BitVec.ofNat 32 (b2n !hit)) 0 0
  | .deleteSq cid op sqid =>
    let st := nvSt 0 0x08 false
    let s1 := ((s.ctl fn).outs.filter (fun (o : NvOut) => decide (o.sqid = sqid))).foldl (fun s o => s.nvEndOut fn o st) s
    let s2 := match (s1.ctl fn).sq sqid with
      | some q => (s1.nvUnfetched q).foldl (fun (s : State) c => s.nvSettle fn sqid c none st 0 0 0) s1
      | none => s1
    (s2.modCtl fn (fun c => { c with sqs := FMap.set none c.sqs sqid none })).nvSettle fn 0 cid (some op) 0 0 0 0

/-- Every abort and deletion of a controller that waits for this commit. -/
def State.nvDueAll (s : State) (fn : Nat) : State :=
  (s.ctl fn).due.foldl (State.nvDueOne fn) (s.modCtl fn (fun c => { c with due := [] }))

/-! ### Identify (R301, R302, R313) -/

/-- An upper-case hexadecimal digit. -/
def hexDigit (n : Nat) : Byte := BitVec.ofNat 8 (if n < 10 then 48 + n else 55 + n)
/-- `n` hexadecimal digits of a number. -/
def hexDigits : Nat → Nat → List Byte
  | 0, _ => []
  | n + 1, v => hexDigits n (v / 16) ++ [hexDigit (v % 16)]
/-- The ASCII bytes of a string. -/
def ascii (t : String) : List Byte := t.toList.map (fun c => BitVec.ofNat 8 c.toNat)
/-- A string padded with spaces. -/
def asciiPad (n : Nat) (bs : List Byte) : List Byte := (bs ++ List.replicate (n - bs.length) (32 : Byte)).take n

/-- SN (R301). -/
def nvSerial (fn : Nat) : List Byte := hexDigits 16 Config.serial.toNat ++ hexDigits 4 ((fnInst fn).getD 0xFFFF)

/-- A power-state descriptor (R313): MP in units of 0.01 W, NOPS, latencies, and RRT, RRL, RWT, RWL. -/
def nvPsd (p : Nat) : List Byte :=
  let mp := match p with | 0 => 50 | 1 => 20 | 2 => 5 | _ => 1
  let r : Byte := BitVec.ofNat 8 p
  padTo 32 (leBytes 2 mp ++ [0, (if p = 3 then 2 else 0)] ++ leBytes 4 (psEnlat p) ++ leBytes 4 (psExlat p) ++ [r, r, r, r])

/-- Bytes put at places of a page of zeros. -/
def putAt (n : Nat) (fields : List (Nat × List Byte)) : List Byte := fields.foldl (fun b f => patch b f.1 f.2) (zeros n)

/-- Identify Controller (R301). -/
def nvIdController (fn : Nat) : List Byte :=
  let pf := decide (fn = 2)
  putAt 4096
    [(0, leBytes 2 0x1F3C ++ leBytes 2 0x1F3C), (4, nvSerial fn), (24, asciiPad 40 (ascii "WN-SG1024 STADOR GELEATH")), (64, asciiPad 8 (ascii "G3.1")),
     (72, [3]), (77, [8]), (78, leBytes 2 (if pf then 0 else 1)), (80, leBytes 4 0x20000), (84, leBytes 4 1000 ++ leBytes 4 1000),
     (92, leBytes 4 (if pf then 512 else 0)), (256, leBytes 2 (if pf then 4 else 0)), (258, [3, 3, 0x14, 0x02, 63, 3]), (265, [1]),
     (266, leBytes 2 373 ++ leBytes 2 383), (270, leBytes 2 (if pf then 100 else 0)), (319, [1]), (320, leBytes 2 1), (512, [0x66, 0x44]),
     (516, leBytes 4 (if pf then 0 else 256)), (525, [0x04]), (768, ascii "nqn.2019-03.com.wenvon:sg1024:" ++ nvSerial fn),
     (2048, nvPsd 0 ++ nvPsd 1 ++ nvPsd 2 ++ nvPsd 3)]

/-- The device namespace attached to a controller at an NSID (R239); PF2 has none. -/
def State.nsAt (s : State) (fn nsid : Nat) : Option Nat :=
  match fnInst fn with
  | some n => if 1 ≤ nsid ∧ nsid ≤ 256 then FMap.get none s.sto.attach (n * 512 + nsid) else none
  | none => none

/-- NGUID (R302). -/
def nguid (ns : Nat) : List Byte := leBytes 8 Config.serial.toNat ++ leBytes 4 ns ++ zeros 4

/-- Identify Namespace (R302). -/
def State.nvIdNamespace (s : State) (ns : Nat) : List Byte :=
  match s.ns ns with
  | none => zeros 4096
  | some n =>
    putAt 4096 [(0, leBytes 8 n.blocks ++ leBytes 8 n.blocks ++ leBytes 8 n.blocks), (104, nguid ns), (128, leBytes 4 ((if n.block = 512 then 9 else 12) * 65536))]

/-- NSIDs attached to a controller above one, ascending. -/
def State.nsidsAbove (s : State) (fn lo : Nat) : List Nat := ((List.range 257).filter (fun i => decide (lo < i) && (s.nsAt fn i).isSome))

/-- What Identify returns, or its status. -/
def State.nvIdentifyData (s : State) (k : NvCmd) : Except Nat (List Byte) :=
  let nsid := k.nsid.toNat
  match dw k.cdw10 0 8 with
  | 0 => (match s.nsAt k.ctl nsid with
    | some ns => .ok (s.nvIdNamespace ns)
    | none => if 1 ≤ nsid ∧ nsid ≤ 256 then .ok (zeros 4096) else .error nvBadNs)
  | 1 => .ok (nvIdController k.ctl)
  | 2 => if 0xFFFFFFFE ≤ nsid then .error nvBadNs else .ok (padTo 4096 (((s.nsidsAbove k.ctl nsid).map (leBytes 4)).flatten))
  | 3 => (match s.nsAt k.ctl nsid with
    | some ns => .ok (padTo 4096 ([2, 16, 0, 0] ++ nguid ns))
    | none => .error nvBadNs)
  | _ => .error nvBadField

/-- A command that returns data at its PRPs. -/
def State.nvReturn (s : State) (k : NvCmd) (op : Option Nat) (r : Except Nat (List Byte)) : State :=
  match r with
  | .error st => s.nvAdminDone k op st 0
  | .ok bs => if prpBad k then s.nvAdminDone k op nvBadPrp 0 else (s.nvData k bs).nvAdminDone k op 0 0

/-- NVME_IDENTIFY (R301, R302). -/
def execNvmeIdentify (k : NvCmd) (s : State) : Answer := .next (s.nvAdmin k (fun s op => s.nvReturn k op (s.nvIdentifyData k)))

/-! ### Log pages (R307) -/

/-- One Error Information entry; the newest bears the count of all entries. -/
def nvErrBytes (count : Nat) (e : NvErr) : List Byte :=
  padTo 64 (leBytes 8 count ++ leBytes 2 e.sqid ++ leBytes 2 e.cid.toNat ++ leBytes 2 e.status.toNat ++ leBytes 2 e.loc.toNat ++ leBytes 8 e.lba ++
    leBytes 4 e.nsid.toNat)

/-- A temperature of 1/16 °C in kelvin. -/
def kelvin (t : Int) : Nat := (t / 16 + 273).toNat

/-- Available Spare (R307): 100 × (1 − USED / TOTAL) of the most-used row. -/
def State.availableSpare (s : State) : Nat :=
  (spareTotals.zipIdx.map (fun t => (t.1 - min t.1 (FMap.get 0 s.repair.used t.2)) * 100 / t.1)).foldl min 100

/-- Whether a temperature threshold of a controller is crossed (R306, R307). -/
def State.tempCrossed (s : State) (c : NvCtl) : Bool :=
  decide (c.tempOver.toNat ≤ kelvin s.power.junction) || decide (kelvin s.power.junction ≤ c.tempUnder.toNat) ||
    decide (c.tempOver1.toNat ≤ kelvin s.power.plate) || decide (kelvin s.power.plate ≤ c.tempUnder1.toNat)

/-- Critical Warning (R307). -/
def State.critical (s : State) (fn : Nat) : Nat :=
  b2n (decide (s.availableSpare < 10)) + 2 * b2n (s.tempCrossed (s.ctl fn)) + 4 * b2n (decide (s.dev.state = 3) || decide (s.dev.state = 5))

/-- The SMART / Health page. -/
def State.nvSmart (s : State) (fn : Nat) : List Byte :=
  let c := s.ctl fn
  let hours := s.jLast 7
  putAt 512
    [(0, [BitVec.ofNat 8 (s.critical fn)]), (1, leBytes 2 (kelvin s.power.junction)), (3, [BitVec.ofNat 8 s.availableSpare, 10]),
     (5, [BitVec.ofNat 8 (min 255 (hours * 100 / 175200))]), (32, leBytes 16 ((c.unitsRead + 999) / 1000)), (48, leBytes 16 ((c.unitsWritten + 999) / 1000)),
     (64, leBytes 16 c.cmdsRead), (80, leBytes 16 c.cmdsWritten), (96, leBytes 16 (c.busyNs / 60000000000)), (112, leBytes 16 (s.jLast 6)),
     (128, leBytes 16 hours), (144, leBytes 16 (s.jLast 8)), (160, leBytes 16 c.mediaErrors), (176, leBytes 16 c.errCount),
     (200, leBytes 2 (kelvin s.power.plate))]

/-- A decimal number of one or two digits. -/
def decBytes (n : Nat) : List Byte := (if 10 ≤ n then [BitVec.ofNat 8 (48 + n / 10 % 10)] else []) ++ [BitVec.ofNat 8 (48 + n % 10)]

/-- The release string of a VERSION in the form of FWREL (R233). -/
def releaseString (v : Nat) : List Byte := asciiPad 8 ([BitVec.ofNat 8 (bits v 24 8)] ++ decBytes (bits v 8 8) ++ ascii "." ++ decBytes (bits v 0 8))

/-- The Firmware Slot page. -/
def State.nvSlots (s : State) : List Byte :=
  let num := fun (o : Option Nat) => match o with | some n => n + 1 | none => 0
  let frs := fun (n : Nat) => if s.chipUsable n && s.marked n then releaseString (fieldLe (s.slotHdr n) 12 4) else zeros 8
  putAt 512 [(0, [BitVec.ofNat 8 (num s.boot.runSlot + 16 * num s.nextSlot)]), (8, frs 0), (16, frs 1)]

/-- The Commands Supported and Effects page. -/
def nvEffects (fn : Nat) : List Byte :=
  let adm := [0, 1, 2, 4, 5, 6, 8, 9, 10, 12, 24].map (fun o => (4 * o, leBytes 4 1))
  let fw := if fn = 2 then [(4 * 0x10, leBytes 4 17), (4 * 0x11, leBytes 4 1)] else []
  putAt 4096 (adm ++ fw ++ [0, 1, 2].map (fun o => (1024 + 4 * o, leBytes 4 1)))

/-- The bytes of a log page, or the status. -/
def State.nvLog (s : State) (k : NvCmd) : Except Nat (List Byte) :=
  match dw k.cdw10 0 8 with
  | 1 =>
    let c := s.ctl k.ctl
    .ok (padTo 4096 ((c.errors.zipIdx.map (fun e => nvErrBytes (c.errCount - e.2) e.1)).flatten))
  | 2 => if k.nsid = 0 ∨ k.nsid = 0xFFFFFFFF then .ok (s.nvSmart k.ctl) else .error nvBadField
  | 3 => .ok s.nvSlots
  | 5 => .ok (nvEffects k.ctl)
  | _ => .error (nvSt 1 0x09 true)

/-- GET_LOG_PAGE (R305, R307). -/
def execGetLogPage (k : NvCmd) (s : State) : Answer :=
  .next (s.nvAdmin k (fun s op =>
    let n := 4 * (dw k.cdw10 16 16 + 65536 * dw k.cdw11 0 16 + 1)
    let off := k.cdw12.toNat + 2 ^ 32 * k.cdw13.toNat
    s.nvReturn k op (match s.nvLog k with
      | .error st => .error st
      | .ok bs => if dw k.cdw10 8 7 ≠ 0 ∨ 1048576 < n ∨ off % 4 ≠ 0 ∨ bs.length ≤ off then .error nvBadField else .ok (slice bs off n))))

/-! ### Features (R306, R314) -/

/-- The Dword 11 form of a feature, as Get Features returns it; none for an identifier that is not supported. -/
def State.nvFeature (s : State) (fn : Nat) (k : NvCmd) : Option Nat :=
  let c := s.ctl fn
  match dw k.cdw10 0 8 with
  | 1 => some c.arb.toNat
  | 2 => some c.ps
  | 4 =>
    (match dw k.cdw11 16 4, dw k.cdw11 20 2 with
     | 0, 0 => some c.tempOver.toNat | 0, 1 => some c.tempUnder.toNat | 1, 0 => some c.tempOver1.toNat | 1, 1 => some c.tempUnder1.toNat | _, _ => none)
  | 7 => some ((c.nsq + 65535) % 65536 + 65536 * ((c.ncq + 65535) % 65536))
  | 8 => some c.coal.toNat
  | 0x0B => some c.aec.toNat
  | 0x0C => some (b2n c.apste)
  | 0x0F => some c.kato.toNat
  | _ => none

/-- GET_FEATURES (R306). -/
def execGetFeatures (k : NvCmd) (s : State) : Answer :=
  .next (s.nvAdmin k (fun s op =>
    match (if dw k.cdw10 8 3 ≠ 0 then none else s.nvFeature k.ctl k) with
    | none => s.nvAdminDone k op nvBadField 0
    | some v =>
      let s1 := if dw k.cdw10 0 8 = 0x0C then s.nvData k (padTo 256 (s.ctl k.ctl).apstTable) else s
      s1.nvAdminDone k op 0 (BitVec.ofNat 32 v)))

/-- Set Features of Power Management (R306, R314): completes once the transition has ended. -/
def State.nvSetPower (s : State) (k : NvCmd) (op : Option Nat) : State :=
  let p := dw k.cdw11 0 5
  if dw k.cdw11 5 3 ≠ 0 ∨ 3 < p then s.nvAdminDone k op nvBadField 0
  else
    let s1 := s.nvPowerSet k.ctl
    let c := s1.ctl k.ctl
    if p = c.ps then (s1.setCtl k.ctl { c with trans := none }).nvAdminDone k op 0 0
    else
      let lat := s1.usTicks (if c.ps < p then psEnlat p else psExlat c.ps)
      if lat = 0 then (s1.setCtl k.ctl { c with ps := p, trans := none, lastOper := if p < 3 then p else c.lastOper }).nvAdminDone k op 0 0
      else s1.setCtl k.ctl { c with trans := some { source := c.ps, target := p, endTick := s1.time.tick + lat - 1, leaving := decide (p < c.ps) },
                                    setPower := some (k.cid, op.getD 0) }

/-- The queues' moderation after a Set of Interrupt Coalescing. -/
def NvCtl.coalesce (c : NvCtl) (v : Word) (ticks : Nat) : NvCtl :=
  { c with coal := v, coalTicks := ticks,
           cqs := FMap.mapVals none (fun q x => if q = 0 then x else x.map (fun (y : NvCq) => { y with modTicks := ticks, modCount := dw v 0 8 + 1 })) c.cqs }

/-- SET_FEATURES (R306). -/
def execSetFeatures (k : NvCmd) (data : List Byte) (s : State) : Answer :=
  .next (s.nvAdmin k (fun s op =>
    let v := k.cdw11
    let put := fun (f : NvCtl → NvCtl) => (s.modCtl k.ctl f).nvAdminDone k op 0 0
    if k.cdw10.getLsbD 31 then s.nvAdminDone k op (nvSt 1 0x0D true) 0
    else match dw k.cdw10 0 8 with
      | 1 => put (fun c => { c with arb := v &&& 0xFFFFFF07 })
      | 2 => s.nvSetPower k op
      | 4 =>
        let t := BitVec.ofNat 32 (dw v 0 16)
        (match dw v 16 4, dw v 20 2 with
         | 0, 0 => put (fun c => { c with tempOver := t })
         | 0, 1 => put (fun c => { c with tempUnder := t })
         | 1, 0 => put (fun c => { c with tempOver1 := t })
         | 1, 1 => put (fun c => { c with tempUnder1 := t })
         | _, _ => s.nvAdminDone k op nvBadField 0)
      | 7 =>
        let n := s.nvmeqOf k.ctl
        let a := min (dw v 0 16) ((n + 65535) % 65536)
        let b := min (dw v 16 16) ((n + 65535) % 65536)
        if (s.ctl k.ctl).everIo then s.nvAdminDone k op nvBadSeq 0
        else if dw v 0 16 = 65535 ∨ dw v 16 16 = 65535 then s.nvAdminDone k op nvBadField 0
        else (s.modCtl k.ctl (fun c => { c with nsq := min n (a + 1), ncq := min n (b + 1) })).nvAdminDone k op 0 (BitVec.ofNat 32 (a + 65536 * b))
      | 8 => put (fun c => c.coalesce (BitVec.ofNat 32 (dw v 0 16)) (min 1024 (ticksOf s.time.period (dw v 8 8 * 100000))))
      | 0x0B => put (fun c => { c with aec := v })
      | 0x0C => put (fun c => { c with apste := v.getLsbD 0, apst := padTo 256 data })
      | 0x0F =>
        put (fun c => { c with kato := BitVec.ofNat 32 ((v.toNat + 99) / 100 * 100), katoFrom := s.time.tick })
      | _ => s.nvAdminDone k op nvBadField 0))

/-- ASYNCHRONOUS_EVENT_REQUEST (R308): at most four are outstanding; a kept event completes one at once. It takes no operation (R299). -/
def execAsynchronousEventRequest (k : NvCmd) (s : State) : Answer :=
  .next (s.nvFetch k false (fun s _ =>
    let c := s.ctl k.ctl
    if k.sqid ≠ 0 then s.nvAdminDone k none nvBadOpcode 0
    else match c.events with
      | e :: rest => ((s.setCtl k.ctl { c with events := rest }).nvSettle k.ctl 0 k.cid none 0 (BitVec.ofNat 32 e) 0 0).pme 2
      | [] =>
        if 4 ≤ c.aers.length then s.nvAdminDone k none (nvSt 1 0x05 true) 0 else s.setCtl k.ctl { c with aers := c.aers ++ [k.cid] }))

/-- KEEP_ALIVE (R306). -/
def execKeepAlive (k : NvCmd) (s : State) : Answer :=
  .next (s.nvAdmin k (fun s op => (s.modCtl k.ctl (fun c => { c with katoFrom := s.time.tick })).nvAdminDone k op 0 0))

/-- KEEP_ALIVE_EXPIRY (R306): logged for the host manager; the timer, suspended while the instance is frozen, starts again. -/
def execKeepAliveExpiry (ctl : Nat) (s : State) : Answer :=
  .next (
    let c := s.ctl ctl
    let frozen := match fnInst ctl with | some n => s.isFrozen n | none => false
    if c.enabled && decide (c.kato ≠ 0) && !frozen && decide (c.katoFrom + s.msTicks c.kato.toNat ≤ s.time.tick) then
      (s.setCtl ctl { c with katoFrom := s.time.tick }).log 0x0A03 (fnInstHalf ctl).toNat 0
    else s)

/-! ### Power states (R314, R315) -/

/-- ITPT in milliseconds and ITPS of a controller's present state. -/
def NvCtl.idleRule (c : NvCtl) : Nat × Nat :=
  let e := fieldLe c.apstTable (8 * c.ps) 8
  (bits e 8 24, bits e 3 5)

/-- APST_TRANSITION (R314): an entry starts at the first tick after ITPT of idle time. -/
def execApstTransition (ctl : Nat) (s : State) : Answer :=
  .next (
    let c := s.ctl ctl
    let (t, p) := c.idleRule
    if c.enabled && c.apste && !c.busy && c.trans.isNone && decide (t ≠ 0) && decide (c.ps < p) && decide (p ≤ 3) &&
        decide (c.idleSince + s.msTicks t ≤ s.time.tick) then
      let lat := s.usTicks (psEnlat p)
      s.setCtl ctl { c with trans := some { source := c.ps, target := p, endTick := s.time.tick + lat - 1, leaving := false } }
    else s)

/-- The arrival with which a fetched I/O command is offered to an engine (log 14). -/
def State.nvOffer (s : State) (fn op : Nat) (h : Word) : State :=
  match s.op op with
  | none => s
  | some o =>
    let (le, s1) := s.freeEngine
    (s1.swapOwner h ownHost ownRx).arrive le (replyArrival 2 (some op) o.inst o.gen o.arg h 64 1 0 0)

/-- The backend work of the commands that waited for an exit begins (R315). -/
def State.nvRelease (s : State) (fn : Nat) : State :=
  let os := (s.ctl fn).outs
  let s1 := s.modCtl fn (fun c => { c with outs := c.outs.map (fun (o : NvOut) => { o with waits := none }) })
  os.foldl (fun s o => match o.waits with | some h => s.nvOffer fn o.op h | none => s) s1

/-- POWER_STATE_TRANSITION_END (R314, R315): an entry during which a command was fetched is followed by an exit to the state it left. -/
def execPowerStateTransitionEnd (ctl : Nat) (s : State) : Answer :=
  .next (
    let c := s.ctl ctl
    match c.trans with
    | none => s
    | some t =>
      if s.time.tick < t.endTick then s
      else
        let c1 := { c with ps := t.target, trans := none, lastOper := if t.target < 3 then t.target else if t.source < 3 then t.source else c.lastOper,
                           idleSince := s.time.tick + 1 }
        let waiting := c.outs.any (fun o => o.waits.isSome)
        let s1 := (s.setCtl ctl c1).nvPowerSet ctl
        if t.leaving then (s1.nvRelease ctl).pumpBackends
        else if waiting then
          s1.modCtl ctl (fun c => { c with trans := some { source := t.target, target := t.source, endTick := s.time.tick + s.usTicks (psExlat t.target),
                                                           leaving := true } })
        else if c1.sqs.any (fun e => match e.2 with | some q => decide (q.head ≠ q.tail) | none => false) then s1.nvWake ctl
        else s1)

/-! ### Firmware (R322, R323) -/

/-- The slot that the running firmware did not come from. -/
def State.otherSlot (s : State) : Nat := match s.boot.runSlot with | some n => 1 - n | none => 0

/-- FIRMWARE_IMAGE_DOWNLOAD (R322): PF2 only. -/
def execFirmwareImageDownload (k : NvCmd) (data : List Byte) (s : State) : Answer :=
  .next (s.nvAdmin k (fun s op =>
    let n := 4 * (k.cdw10.toNat + 1)
    let off := 4 * k.cdw11.toNat
    let slot := s.otherSlot
    let st :=
      if k.ctl ≠ 2 then nvBadOpcode
      else if n % 4096 ≠ 0 ∨ off % 4096 ≠ 0 ∨ 1048576 < n ∨ imageEnd < off + n then nvBadField
      else if prpBad k then nvBadPrp
      else if (s.holding [obj .slot slot]).isSome ∨ s.chipUsable slot = false then nvBadSeq
      else if s.power.warn then nvSt 0 0x06 false else 0
    if st ≠ 0 then s.nvAdminDone k op st 0 else (s.slotWrite slot off (padTo n data)).nvAdminDone k op 0 0))

/-- The slot that FS names: none above 2. -/
def State.fsSlot (s : State) (fs : Nat) : Option Nat := match fs with | 0 => some s.otherSlot | 1 => some 0 | 2 => some 1 | _ => none

/-- FIRMWARE_COMMIT (R322): PF2 only. -/
def execFirmwareCommit (k : NvCmd) (s : State) : Answer :=
  .next (s.nvAdmin k (fun s op =>
    let badSlot := nvSt 1 0x06 true
    if k.ctl ≠ 2 then s.nvAdminDone k op nvBadOpcode 0
    else match s.fsSlot (dw k.cdw10 0 3) with
      | none => s.nvAdminDone k op badSlot 0
      | some slot =>
        let ca := dw k.cdw10 3 3
        if (s.holding [obj .slot slot]).isSome then s.nvAdminDone k op nvBadSeq 0
        else if ca = 2 then s.nvAdminDone k op (if s.nextSlot = some slot then 0 else badSlot) 0
        else if ca ≠ 0 ∧ ca ≠ 1 ∧ ca ≠ 3 then s.nvAdminDone k op nvBadField 0
        else if s.boot.runSlot = some slot then s.nvAdminDone k op badSlot 0
        else if s.power.warn then s.nvAdminDone k op (nvSt 1 0x13 true) 0
        else if s.chipUsable slot = false ∨ s.validateStatus slot ≠ 0 then s.nvAdminDone k op (nvSt 1 0x07 true) 0
        else
          let s1 := s.writeMarker slot
          if ca ≠ 3 then s1.nvAdminDone k op 0 0
          else if s1.standbyUsable = false ∨ s1.slotValid slot = false ∨ ¬(s1.dev.state = 2 ∨ s1.dev.state = 3) ∨ s1.repair.mpSwitch.isSome = true then
            s1.nvAdminDone k op (nvSt 1 0x13 true) 0
          else
            let s2 := if (s1.ctl 2).aec.getLsbD 9 then s1.nvEvent 2 evtActivation true else s1
            ({ s2 with repair := { s2.repair with mpSwitch := some (slot, s2.time.tick, hdrSeq (s2.slotHdr slot)) } }).modCtl 2
              (fun c => { c with fwWait := some (k.cid, op.getD 0) })))

/-! ### I/O commands (R304, R305) -/

/-- The 64 bytes of the submission entry, for the program that serves the command; PRP2 of a command whose list has more than one entry is the
list's address, which the model does not hold (log 14). -/
def nvSqe (opc : Nat) (k : NvCmd) (list : Nat) : List Byte :=
  [BitVec.ofNat 8 opc, BitVec.ofNat 8 (k.fuse.toNat + 64 * k.psdt.toNat)] ++ leBytes 2 k.cid.toNat ++ leBytes 4 k.nsid.toNat ++ zeros 16 ++
    leBytes 8 k.prp1.toNat ++ leBytes 8 (match k.prps with | [] => 0 | [p] => p.toNat | _ => list) ++ leBytes 4 k.cdw10.toNat ++ leBytes 4 k.cdw11.toNat ++
    leBytes 4 k.cdw12.toNat ++ leBytes 4 k.cdw13.toNat ++ leBytes 4 k.cdw14.toNat ++ leBytes 4 k.cdw15.toNat

/-- PRINFO of a read or write (step 2 of R305), then steps 3 to 6 for an I/O command; 0 when it passes. -/
def State.nvIoCheck (s : State) (opc : Nat) (k : NvCmd) : Nat :=
  if opc ≠ 0 ∧ dw k.cdw12 26 4 ≠ 0 then nvBadField
  else match s.nsAt k.ctl k.nsid.toNat with
  | none => nvBadNs
  | some d =>
    match s.ns d with
    | none => nvBadNs
    | some n =>
      if opc = 0 then 0
      else
        let nlb := dw k.cdw12 0 16 + 1
        let slba := k.cdw10.toNat + 2 ^ 32 * k.cdw11.toNat
        if 1048576 < nlb * n.block then nvBadField
        else if n.blocks < slba + nlb then nvBadLba
        else if prpBad k then nvBadPrp else 0

/-- Bytes that an I/O command moves. -/
def State.nvBytes (s : State) (opc : Nat) (k : NvCmd) : Nat :=
  match (s.nsAt k.ctl k.nsid.toNat).bind s.ns with
  | some n => if opc = 0 then 0 else (dw k.cdw12 0 16 + 1) * n.block
  | none => 0

/-- An I/O command is fetched and checked, and offered to an engine with its entry in a buffer; one that meets a transition which goes on
waits for the exit (R299, R304, R305, R315). A command that finds no buffer stays in its ring (R154). -/
def State.nvIo (s : State) (opc : Nat) (k : NvCmd) : State :=
  if (s.nvFetchable k.ctl k.sqid).isSome && (s.alloc 64 false ownHost).1.isNone then s.allocWaits ownHost
  else
    s.nvFetch k true (fun s op =>
      let o := op.getD 0
      let st := if k.sqid = 0 then nvBadOpcode else s.nvIoCheck opc k
      let slba := k.cdw10.toNat + 2 ^ 32 * k.cdw11.toNat
      if st ≠ 0 then s.nvSettle k.ctl k.sqid k.cid op st 0 (if opc = 0 then 0 else slba) k.nsid
      else match s.alloc 64 false ownHost with
        | (none, s1) => s1.allocWaits ownHost
        | (some h, s1) =>
          let (list, s2) := s1.freshNat
          let s3 := s2.bufWrite h 0 (nvSqe opc k list)
          let (arg, s4) := freeWords 8 s3
          let s5 := match s4.op o with | some p => s4.setOp o (some { p with arg := arg }) | none => s4
          let held := (s5.ctl k.ctl).trans.isSome
          let x : NvOut := { sqid := k.sqid, cid := k.cid, op := o, nsid := k.nsid, nvOp := opc, slba := slba, bytes := s5.nvBytes opc k, parts := [],
                             waits := if held then some h else none }
          let s6 := s5.modCtl k.ctl (fun c => { c with outs := c.outs ++ [x] })
          if held then s6 else s6.nvOffer k.ctl o h)

/-- FLUSH (R304). -/
def execFlush (k : NvCmd) (s : State) : Answer := .next (s.nvIo 0 k)
/-- NVME_WRITE (R304). -/
def execNvmeWrite (k : NvCmd) (s : State) : Answer := .next (s.nvIo 1 k)
/-- NVME_READ (R304). -/
def execNvmeRead (k : NvCmd) (s : State) : Answer := .next (s.nvIo 2 k)

end Sys2Proof.Machine
end

