-- ==== Sys2Proof/Machine/RdmaOps.lean ====
section
/-!
DEFINITION. Shared operations of remote memory access (15): counters, context records and the context cache, packet building and routes,
the checks of R332, placement, requester and responder state.
-/

namespace Sys2Proof.Machine

/-! ### Counters (R351) -/

/-- Count in an instance's counters and the device's. -/
def State.rdmaCount (s : State) (inst idx n : Nat) : State :=
  let own := if inst = 0xFFFF then s.rdma.counters else bump s.rdma.counters (inst * 32 + idx) n
  { s with rdma := { s.rdma with counters := bump own (0xFFFF * 32 + idx) n } }

/-! ### Context records (R337) -/

/-- Bytes of a PMTU code (R327). -/
def pmtuBytes (code : Nat) : Nat := 128 * 2 ^ code

/-- A list of bits as a number. -/
def ofBits : List Bool → Nat
  | [] => 0
  | b :: bs => b2n b + 2 * ofBits bs

/-- The 32-byte record of an inbound READ. -/
def readRecBytes (r : ReadRec) : List Byte :=
  leBytes 8 r.va ++ leBytes 4 r.rkey.toNat ++ leBytes 4 r.len ++ leBytes 4 r.psn ++ leBytes 4 r.sent ++ zeros 8

/-- The first 508 bytes of a context record. -/
def ctxBody (qpn : Nat) (c : Ctx) (slot : Nat) : List Byte :=
  let ops := c.wqes.map (fun w => (opWord (some w.op)).toNat)
  leBytes 4 qpn ++ leBytes 4 c.peerQpn ++ leBytes 2 c.inst ++ leBytes 2 c.pd ++
    [BitVec.ofNat 8 c.state, BitVec.ofNat 8 (b2n c.spray), BitVec.ofNat 8 c.paths, BitVec.ofNat 8 c.pmtu] ++ padTo 16 c.peer ++
    leBytes 2 c.ackTimeout ++ [BitVec.ofNat 8 c.retry, BitVec.ofNat 8 c.reasm, BitVec.ofNat 8 c.maxMsgs, c.errStatus] ++
    leBytes 2 (b2n c.nakSent + 2 * b2n c.writeOpen) ++ leBytes 4 c.sqPsn ++ leBytes 4 c.sqUna ++ leBytes 4 c.rqPsn ++
    [BitVec.ofNat 8 c.retriesLeft, BitVec.ofNat 8 (c.wqes.filter (fun w => w.isRead && w.sent)).length, BitVec.ofNat 8 c.reads.length, 0] ++
    leBytes 8 c.rwVa ++ leBytes 4 c.rwRkey.toNat ++ leBytes 4 c.rwLeft ++ leBytes 4 c.msgNext ++ leBytes 4 c.msgDone ++
    leBytes 8 (ofBits c.doneMap) ++ leBytes 2 c.respQueue ++ leBytes 2 c.respEdit ++ leBytes 2 c.reqQueue ++ leBytes 2 c.reqEdit ++
    leBytes 4 (ops.headD 0) ++ leBytes 4 (ops.getLastD 0) ++ zeros 24 ++ padTo 256 ((c.reads.map readRecBytes).flatten) ++ zeros 120 ++
    leBytes 4 slot

/-- A context record of 512 bytes with its CHECK. -/
def ctxBytes (qpn : Nat) (c : Ctx) (slot : Nat) : List Byte :=
  let b := padTo 508 (ctxBody qpn c slot)
  b ++ leBytes 4 (crc 0 b).toNat

/-- Whether a record's CHECK holds and it names a QPN and slot. -/
def ctxBytesOk (qpn slot : Nat) (b : List Byte) : Bool :=
  decide (b.length = 512) && decide (fieldLe b 0x1FC 4 = (crc 0 (b.take 508)).toNat) && decide (fieldLe b 0 4 = qpn) && decide (fieldLe b 0x1F8 4 = slot)

/-- The inbound READs with the fields of a record's RD_REC. -/
def readsOfBytes (b : List Byte) : Nat → List ReadRec → List ReadRec
  | _, [] => []
  | at0, r :: rs =>
    { r with va := fieldLe b at0 8, rkey := BitVec.ofNat 32 (fieldLe b (at0 + 8) 4), len := fieldLe b (at0 + 12) 4, psn := fieldLe b (at0 + 16) 4,
             sent := fieldLe b (at0 + 20) 4 } :: readsOfBytes b (at0 + 32) rs

/-- A context with the fields of a record; what the transport holds beside the record stays. -/
def ctxOfBytes (c : Ctx) (b : List Byte) : Ctx :=
  { c with
    peerQpn := fieldLe b 4 4, inst := fieldLe b 8 2, pd := fieldLe b 0xA 2, state := fieldLe b 0xC 1, spray := decide (fieldLe b 0xD 1 = 1),
    paths := fieldLe b 0xE 1, pmtu := fieldLe b 0xF 1, peer := slice b 0x10 16, ackTimeout := fieldLe b 0x20 2, retry := fieldLe b 0x22 1,
    reasm := fieldLe b 0x23 1, maxMsgs := fieldLe b 0x24 1, errStatus := BitVec.ofNat 8 (fieldLe b 0x25 1), nakSent := bitOf (fieldLe b 0x26 2) 0,
    writeOpen := bitOf (fieldLe b 0x26 2) 1, sqPsn := fieldLe b 0x28 4, sqUna := fieldLe b 0x2C 4, rqPsn := fieldLe b 0x30 4,
    retriesLeft := fieldLe b 0x34 1, rwVa := fieldLe b 0x38 8, rwRkey := BitVec.ofNat 32 (fieldLe b 0x40 4), rwLeft := fieldLe b 0x44 4,
    msgNext := fieldLe b 0x48 4, msgDone := fieldLe b 0x4C 4, doneMap := (List.range 64).map (bitOf (fieldLe b 0x50 8)),
    respQueue := fieldLe b 0x58 2, respEdit := fieldLe b 0x5A 2, reqQueue := fieldLe b 0x5C 2, reqEdit := fieldLe b 0x5E 2,
    reads := readsOfBytes b 0x80 c.reads }

/-- A context in RESET: every PSN, message counter, record and flag clear (R335). -/
def Ctx.clear (c : Ctx) : Ctx :=
  { c with state := 0, errStatus := 0, nakSent := false, writeOpen := false, sqPsn := 0, sqUna := 0, rqPsn := 0, retriesLeft := c.retry, rwVa := 0,
           rwRkey := 0, rwLeft := 0, msgNext := 0, msgDone := 0, doneMap := List.replicate 64 false, wqes := [], reads := [], reasms := [] }

/-- A context as CTX_CREATE makes it (R337, R238). -/
def Ctx.make (peerQpn inst pd mode paths pmtu : Nat) (peer : List Byte) (slot : Nat) : Ctx :=
  ({ peerQpn := peerQpn, inst := inst, pd := pd, state := 0, spray := decide (mode = 1), paths := paths, pmtu := pmtu, peer := peer, ackTimeout := 2048,
     retry := 7, reasm := 64, maxMsgs := 8, errStatus := 0, nakSent := false, writeOpen := false, sqPsn := 0, sqUna := 0, rqPsn := 0,
     retriesLeft := 7, rwVa := 0, rwRkey := 0, rwLeft := 0, msgNext := 0, msgDone := 0, doneMap := [], respQueue := 0, respEdit := 0,
     reqQueue := 0, reqEdit := 0, lastAckTick := 0, wqes := [], reads := [], reasms := [], slotNo := slot, cached := true, filling := false, filled := [],
     usedTick := 0 } : Ctx).clear

/-- Change a context that exists. -/
def State.modCtx (s : State) (qpn : Nat) (f : Ctx → Ctx) : State := match s.ctx qpn with | some c => s.setCtx qpn (some (f c)) | none => s

/-! ### The context cache (R338) -/

/-- The cached contexts of a set. -/
def State.cacheSet (s : State) (qpn : Nat) : List Nat :=
  s.rdma.ctxs.filterMap (fun e => match e.2 with | some c => if c.cached && decide (e.1 % 512 = qpn % 512) then some e.1 else none | none => none)

/-- Whether a line is pinned. -/
def State.pinned (s : State) (qpn : Nat) : Bool :=
  match s.ctx qpn with
  | some c => c.filling || !c.reasms.isEmpty || c.wqes.any (·.slot) || decide (c.usedTick = s.time.tick)
  | none => false

/-- The least recently used line of a set that is not pinned. -/
def State.victim (s : State) (qpn : Nat) : Option Nat :=
  (s.rdma.lru.reverse).find? (fun q => (s.cacheSet qpn).contains q && !s.pinned q)

/-- The control-region address of a QPN's word of the spill index (R338): the regions lie in the order of R16's table, with its sizes (log 67). -/
def spillIndexAt (qpn : Nat) : Nat := 3200 * 1048576 + 4 * qpn

/-- The spill index names the slot of a QPN: [19:0] the slot, [31] VALID. -/
def State.indexSlot (s : State) (qpn : Nat) (slot : Option Nat) : State :=
  s.ctlWrite (spillIndexAt qpn) (leBytes 4 (match slot with | some k => 2 ^ 31 + k % 2 ^ 20 | none => 0))

/-- A QPN's word of the spill index is read; it has none when the line fails its check and the repeat, also where DRAM returned `fail` (R367). -/
def State.indexRead (s : State) (qpn : Nat) (fail : Option LookupFail) : Option Nat × State :=
  let line := spillIndexAt qpn / 64
  match fail with
  | some (.line n first again) =>
    if n = line ∧ lineHolds (64 * line) first = false ∧ lineHolds (64 * line) again = false then (none, s.lineFailed (64 * line))
    else ((s.ctlRead (spillIndexAt qpn) 4).1.map ofLe, (s.ctlRead (spillIndexAt qpn) 4).2)
  | _ => ((s.ctlRead (spillIndexAt qpn) 4).1.map ofLe, (s.ctlRead (spillIndexAt qpn) 4).2)

/-- A line is written back to its slot by PF1 when it has changed since its fill (R338, R339). -/
def State.spillCtx (s : State) (qpn : Nat) : State :=
  match s.ctx qpn, s.rdma.backing with
  | some c, some (addr, _) =>
    let bs := ctxBytes qpn c c.slotNo
    let s1 := if bs = c.filled then s else (s.hostWrite 1 (addr + c.slotNo * 512) bs).rdmaCount c.inst 17 1
    s1.setCtx qpn (some { c with cached := false, filled := bs })
  | some c, none => s.setCtx qpn (some { c with cached := false })
  | none, _ => s

/-- Note a use of a context. -/
def State.touchCtx (s : State) (qpn : Nat) : State :=
  let s1 := s.modCtx qpn (fun c => { c with usedTick := s.time.tick })
  { s1 with rdma := { s1.rdma with lru := qpn :: s1.rdma.lru.filter (· ≠ qpn) } }

/-- Start the fill of a context that is not cached, when its set has a line for it (R338). -/
def State.startFill (s : State) (qpn : Nat) : State :=
  match s.ctx qpn with
  | none => s
  | some c =>
    if c.cached || c.filling then s
    else
      let used := (s.cacheSet qpn).length + (s.rdma.ctxs.filter (fun e => match e.2 with
        | some d => d.filling && !d.cached && decide (e.1 % 512 = qpn % 512) | none => false)).length
      let go := fun (s : State) => (s.modCtx qpn (fun c => { c with filling := true })).rdmaCount c.inst 16 1
      if used < 16 then go s
      else match s.victim qpn with
        | some v => go (s.spillCtx v)
        | none => s

/-- A miss waits for its context's fill (R339). The miss queue's bound drops packets; a SUBMIT or TUNE waits beyond it, as it is always
answered (R349, log 69). -/
def State.missWaits (s : State) (qpn inst : Nat) (m : Miss) : State :=
  if 16384 ≤ s.rdma.misses.length ∧ (match m with | .packet _ _ _ => true | .submit _ => false) = true then s.rdmaCount inst 18 1
  else ({ s with rdma := { s.rdma with misses := s.rdma.misses ++ [(qpn, m)] } }).startFill qpn

/-- The transport lets go of a packet's buffer. -/
def State.endPkt (s : State) (p : RdmaPkt) : State :=
  let s1 := { s with cls := { s.cls with toTransport := s.cls.toTransport.filter (fun (x : Nat × HeldFrame) => !(decide (x.1 = 6) && decide (x.2.handle = p.handle))) } }
  match s1.liveEnt p.handle with
  | some e => if e.owners.contains ownRdma then s1.removeOwner p.handle ownRdma else s1
  | none => s1

/-- The transport lets go of the buffer that a SUBMIT names. -/
def State.endSubmit (s : State) (r : PostReq) : State :=
  let h := BitVec.ofNat 32 (fieldLe r.block 0x28 4)
  match s.liveEnt h with
  | some e => if e.owners.contains ownRdma then s.removeOwner h ownRdma else s
  | none => s

/-- A context that ceases leaves its misses (R238): a packet names no context any more, and a SUBMIT ends ABORTED as outstanding work does. -/
def State.dropMiss (s : State) (m : Miss) : State :=
  match m with
  | .packet _ p _ => (s.endPkt p).rdmaCount p.inst.toNat 1 1
  | .submit r => if fieldLe r.block 4 1 = 1 then (s.endSubmit r).reply r 5 0 0 1 else if bitOf (fieldLe r.block 6 1) 0 then s.reply r 5 0 0 0x0A else s

/-- Misses whose set had no line try again (R338). -/
def State.retryFills (s : State) : State := s.rdma.misses.foldl (fun s m => s.startFill m.1) s

/-! ### Packets (R326, R329, R330, R342) -/

/-- The path port (R330). -/
def pathPort (qpn p : Nat) : Nat := 0xC000 + (qpn + p * 1024) % 0x4000

/-- A BTH: opcode, pad count, destination QPN, AckReq, PSN; P_Key 0xFFFF (log 33). -/
def bth (opcode pad dest psn : Nat) (ackReq : Bool) : List Byte :=
  [BitVec.ofNat 8 opcode, BitVec.ofNat 8 (pad * 16)] ++ beBytes 2 0xFFFF ++ [0] ++ beBytes 3 dest ++ [BitVec.ofNat 8 (128 * b2n ackReq)] ++ beBytes 3 psn

/-- A RETH. -/
def reth (va : Nat) (rkey : Word) (len : Nat) : List Byte := beBytes 8 va ++ beBytes 4 rkey.toNat ++ beBytes 4 len

/-- The placement header (R342). -/
def sprayHeader (msg off mlen path flags span : Nat) : List Byte :=
  beBytes 4 msg ++ beBytes 4 off ++ beBytes 4 mlen ++ [BitVec.ofNat 8 path, BitVec.ofNat 8 flags] ++ beBytes 2 span

/-- Pad bytes of a payload. -/
def padCount (n : Nat) : Nat := (4 - n % 4) % 4

/-- Packets join those that wait for a buffer. -/
def State.keepUnsent (s : State) (ps : List Unsent) : State := { s with rdma := { s.rdma with unsent := s.rdma.unsent ++ ps } }

/-- Whether a route names an existing queue and a loaded template (R329). -/
def State.routeOk (s : State) (queue edit : Nat) : Bool :=
  (s.tmq queue).isSome && (decide (edit = 0) || decide (FMap.get [] s.tm.templates edit ≠ []))

/-- Packets are enqueued in order, each built in a buffer under 0x4003 with 4 free bytes at its end and published by the next commit (R329). From
the first that finds no buffer on they wait, and are retried at the next dispatch (R154, log 67). -/
def State.sendUnsent : State → List Unsent → State
  | s, [] => s
  | s, p :: ps =>
    match s.alloc (p.body.length + 4) false ownRdma with
    | (none, s1) => (s1.allocWaits ownRdma).keepUnsent (p :: ps)
    | (some h, s1) =>
      let f : QFrame := { handle := h, len := p.body.length + 4, off := 0, edit := p.edit, flags := 0x20, l3at := 0, l4at := 0, tsat := 0,
                          arg := p.arg, cap := none, icrc := true, built := .buffer }
      let s2 := (s1.bufWrite h 0 p.body).swapOwner h ownRdma ownTm
      State.sendUnsent { s2 with rdma := { s2.rdma with outbox := s2.rdma.outbox ++ [(p.queue, f)] } } ps

/-- The packets that wait for a buffer try again at dispatch. -/
def State.retryUnsent (s : State) : State := State.sendUnsent { s with rdma := { s.rdma with unsent := [] } } s.rdma.unsent

/-- Enqueue one packet on a route (R329), behind those that wait for a buffer. -/
def State.sendPacket (s : State) (inst qpn queue edit path : Nat) (body : List Byte) : State :=
  if !s.routeOk queue edit then s.rdmaCount inst 15 1
  else
    let p : Unsent := { inst := inst, queue := queue, edit := edit, arg := BitVec.ofNat 32 (pathPort qpn path), body := body }
    if s.rdma.unsent.isEmpty then s.sendUnsent [p] else s.keepUnsent [p]

/-- Send on a context's request route. -/
def State.sendReq (s : State) (qpn : Nat) (c : Ctx) (path : Nat) (body : List Byte) : State := s.sendPacket c.inst qpn c.reqQueue c.reqEdit path body

/-- Send on a context's reply route. -/
def State.sendReply (s : State) (qpn : Nat) (c : Ctx) (path : Nat) (body : List Byte) : State := s.sendPacket c.inst qpn c.respQueue c.respEdit path body

/-- An AETH with a syndrome; its message sequence number is free (log 34). -/
def State.aeth (s : State) (syndrome : Nat) : List Byte × State :=
  let (m, s1) := s.freshNat
  ([BitVec.ofNat 8 syndrome] ++ beBytes 3 (m % 2 ^ 24), s1)

/-- Send an Acknowledge of a PSN, or a NAK (R326: the credit field sent is 0x1F). -/
def State.sendAck (s : State) (qpn : Nat) (syndrome psn : Nat) : State :=
  match s.ctx qpn with
  | some c =>
    let (a, s1) := s.aeth syndrome
    s1.sendReply qpn c 0 (bth 0x11 0 c.peerQpn (psn % 2 ^ 24) false ++ a)
  | none => s

/-- Send a SPRAY_ACK (R344), on the reply route (R329). -/
def State.sendSprayAck (s : State) (qpn msg mlen : Nat) : State :=
  match s.ctx qpn with
  | some c =>
    s.sendReply qpn c 0 (bth 0xC3 0 c.peerQpn (msg % 2 ^ 24) false ++ sprayHeader msg 0 mlen 0 0 0)
  | none => s

/-- The counter of a NAK sent, by syndrome. -/
def nakCounter (syn : Nat) : Nat := match syn with | 0x60 => 5 | 0x61 => 6 | 0x62 => 7 | _ => 8

/-- The status that a NAK syndrome gives a work request (R350). -/
def nakStatus (syn : Nat) : Byte := match syn with | 0x61 => 0x0B | 0x62 => 8 | _ => 1

/-- Send a NAK for an error and move the context to ERROR (R332, R336). -/
def State.nakError (s : State) (qpn : Nat) (syn psn msg mlen : Nat) : State :=
  match s.ctx qpn with
  | some c =>
    let s1 := if c.spray then
        let (a, t) := s.aeth syn
        t.sendReply qpn c 0 (bth 0xC5 0 c.peerQpn (msg % 2 ^ 24) false ++ sprayHeader msg 0 mlen 0 0 0 ++ a)
      else s.sendAck qpn syn psn
    (s1.rdmaCount c.inst (nakCounter syn) 1).errorCtx qpn (nakStatus syn)
  | none => s

/-! ### Registrations (R331, R332, R334, R347) -/

/-- A registration. -/
def State.reg (s : State) (i : Nat) : Reg := FMap.get Reg.reset s.rdma.regs i

/-- Replace a registration. -/
def State.setReg (s : State) (i : Nat) (r : Reg) : State := { s with rdma := { s.rdma with regs := FMap.set Reg.reset s.rdma.regs i r } }

/-- Change INFLIGHT of a registration; index 0 has none. -/
def State.inflight (s : State) (i : Nat) (f : Nat → Nat) : State :=
  if i = 0 then s else let r := s.reg i; s.setReg i { r with inflight := f r.inflight }

/-- Steps 8 to 13 of R332: whether the access passes. -/
def State.regOk (s : State) (c : Ctx) (rkey : Word) (va len : Nat) (write : Bool) : Bool :=
  let i := rkey.toNat / 256
  let r := s.reg i
  decide (i ≠ 0) && decide (r.state ≠ 0) && decide (r.tag.toNat = rkey.toNat % 256) && (decide (r.state = 1) || (decide (r.state = 2) && decide (r.marked = s.time.tick))) && decide (r.inst = c.inst) &&
    decide (r.pd = c.pd) && r.rights.getLsbD (if write then 1 else 0) && decide (r.base ≤ va) && decide (va + len ≤ r.base + r.length)

/-- The last step of a revocation (R347): the tag advances and the index is free. -/
def State.freeReg (s : State) (i : Nat) : State :=
  let r := s.reg i
  s.setReg i { Reg.reset with tag := r.tag + 1 }

/-! ### Placement (R333, R334, R340, R341, R344) -/

/-- The work request of an operation on a context. -/
def Ctx.wqe? (c : Ctx) (op : Nat) : Option Wqe := c.wqes.find? (fun w => decide (w.op = op))

/-- A work request ends (R349): its arrival is recorded, and a status other than OK moves the context to ERROR (R350). -/
def State.endWqe (s : State) (qpn op : Nat) (status : Byte) : State :=
  match s.ctx qpn with
  | none => s
  | some c =>
    match c.wqe? op with
    | none => s
    | some w =>
      let s1 := (s.setCtx qpn (some { c with wqes := c.wqes.filter (fun x => decide (x.op ≠ op)) })).reply w.req 5 0 0 status
      if status = 0 then s1 else s1.errorCtx qpn status

/-- What follows a placement write's issue. -/
def State.afterPlace (s : State) (a : AfterPlace) : State :=
  match a with
  | .nothing => s
  | .hostReply r => s.reply r 2 0 0 0
  | .ack qpn psn => s.sendAck qpn 0x1F psn
  | .sprayAck qpn msg mlen => s.sendSprayAck qpn msg mlen
  | .readDone qpn op =>
    let s1 := match s.ctx qpn with
      | some c => (match c.wqe? op with | some w => if c.spray then s.sendSprayAck qpn w.msg w.len else s | none => s)
      | none => s
    s1.endWqe qpn op 0

/-- A write is held with what follows its last request. -/
def State.holdPlace (s : State) (fn reg addr : Nat) (bytes : List Byte) (a : AfterPlace) : State :=
  let ps := s.writeParts fn addr bytes
  let s1 := ps.dropLast.foldl (fun s p => s.hold fn (.write p.1 p.2 true)) s
  match ps.getLast? with
  | some p => (s1.inflight reg (· + 1)).hold fn (.place reg p.1 p.2 a)
  | none => s1.afterPlace a

/-- A placement write under an instance's PF1 VF: issued at once or held, with what follows it. Answers nothing when the hold store is full
(R333). -/
def State.place (s : State) (fn reg addr : Nat) (bytes : List Byte) (a : AfterPlace) : Option State :=
  if s.holds fn then (if s.holdFull then none else some (s.holdPlace fn reg addr bytes a))
  else some ((s.issueWrite fn addr bytes true).afterPlace a)

/-- Bytes placed over segments from an offset of a message. -/
def scatterWrite (fn : Nat) : State → List (Nat × Nat) → Nat → List Byte → State
  | s, [], _, _ => s
  | s, (a, n) :: rest, off, bs =>
    if off < n then
      let k := min (n - off) bs.length
      scatterWrite fn (if k = 0 then s else s.dataWrite fn (a + off) (bs.take k)) rest 0 (bs.drop k)
    else scatterWrite fn s rest (off - n) bs

/-- The parts of segments that bytes `off` to `off + len - 1` of a message cover. -/
def segPart : List (Nat × Nat) → Nat → Nat → List (Nat × Nat)
  | [], _, _ => []
  | (a, n) :: rest, off, len =>
    if len = 0 then []
    else if off < n then (a + off, min (n - off) len) :: segPart rest 0 (len - min (n - off) len)
    else segPart rest (off - n) len

/-! ### The requester (R340, R343) -/

/-- Packets of a message. -/
def packets (pmtu len : Nat) : Nat := (len + pmtuBytes pmtu - 1) / pmtuBytes pmtu

/-- The opcode of packet `k` of `n`, from the opcodes First, Middle, Last, Only. -/
def partOp (first middle last only k n : Nat) : Nat :=
  if n = 1 then only else if k = 0 then first else if k + 1 = n then last else middle

/-- One packet of a WRITE on a standard context. -/
def writePacket (c : Ctx) (w : Wqe) (k : Nat) (data : List Byte) : List Byte :=
  let n := packets c.pmtu w.len
  let pad := padCount data.length
  bth (partOp 6 7 8 0x0A k n) pad c.peerQpn ((w.psn + k) % 2 ^ 24) (decide (k + 1 = n)) ++ (if k = 0 then reth w.rva w.rkey w.len else []) ++ data ++ zeros pad

/-- One packet of a spray WRITE. -/
def sprayWritePacket (c : Ctx) (w : Wqe) (k path retx : Nat) (data : List Byte) : List Byte :=
  let n := packets c.pmtu w.len
  let pad := padCount data.length
  bth 0xC0 pad c.peerQpn (w.msg % 2 ^ 24) false ++ sprayHeader w.msg (k * pmtuBytes c.pmtu) w.len path (min retx 1 + 2 * b2n (decide (k + 1 = n))) 0 ++
    reth w.rva w.rkey w.len ++ data ++ zeros pad

/-- Send payload packets of a WRITE from packet `k` on. -/
def sendPayload (qpn : Nat) (c : Ctx) (w : Wqe) (retx : Nat) : Nat → Nat → List Byte → State → State
  | 0, _, _, s => s
  | fuel + 1, k, bs, s =>
    if bs.isEmpty then s
    else
      let part := bs.take (pmtuBytes c.pmtu)
      let path := if c.spray then (k + retx % 2) % c.paths else 0
      let body := if c.spray then sprayWritePacket c w k path retx part else writePacket c w k part
      let s1 := s.sendReq qpn c path body
      sendPayload qpn c w retx fuel (k + 1) (bs.drop (pmtuBytes c.pmtu)) (if 0 < retx then s1.rdmaCount c.inst 10 1 else s1)

/-- Replace a work request. -/
def State.setWqe (s : State) (qpn : Nat) (w : Wqe) : State :=
  s.modCtx qpn (fun c => { c with wqes := c.wqes.map (fun x => if x.op = w.op then w else x) })

/-- The function that a context's requests use. -/
def Ctx.fn (c : Ctx) : Nat := vfNet c.inst

/-- Start the host read of a part of a WRITE's payload. -/
def State.readPayload (s : State) (qpn : Nat) (c : Ctx) (w : Wqe) (off len retx : Nat) : State :=
  s.startRead c.fn (BitVec.ofNat 16 c.inst) w.req.gen (.rdma qpn w.op off retx) (segPart w.segs off len)

/-- Send the READ Request of a work request, for its bytes from `next` on. -/
def State.sendReadReq (s : State) (qpn : Nat) (c : Ctx) (w : Wqe) (retx : Bool) : State :=
  let s1 := if c.spray then
      s.sendReq qpn c 0 (bth 0xC1 0 c.peerQpn (w.msg % 2 ^ 24) false ++ sprayHeader w.msg 0 w.len 0 (b2n retx + 2) 0 ++ reth w.rva w.rkey w.len)
    else s.sendReq qpn c 0 (bth 0x0C 0 c.peerQpn ((w.psn + w.next / pmtuBytes c.pmtu) % 2 ^ 24) true ++ reth (w.rva + w.next) w.rkey (w.len - w.next))
  if retx then s1.rdmaCount c.inst 10 1 else s1

/-- READs that a context has outstanding as requester. -/
def Ctx.readsOut (c : Ctx) : Nat := (c.wqes.filter (fun w => w.isRead && w.sent)).length
/-- Messages that a context has outstanding. -/
def Ctx.msgsOut (c : Ctx) : Nat := (c.wqes.filter (·.sent)).length

/-- Reassembly slots in use (R344). -/
def State.slotsUsed (s : State) : Nat :=
  (s.rdma.ctxs.map (fun e => match e.2 with | some c => c.reasms.length + (c.wqes.filter (·.slot)).length | none => 0)).foldl (· + ·) 0

/-- Whether a work request may be sent now (R327, R343, R344). -/
def State.maySend (s : State) (c : Ctx) (w : Wqe) : Bool :=
  (w.isRead || !w.data.isEmpty) && (!w.isRead || decide (c.readsOut < 8)) && (!c.spray || decide (c.msgsOut < c.maxMsgs)) &&
    (!(c.spray && w.isRead) || decide (s.slotsUsed < 4096))

/-- Send a work request for the first time: its PSNs or its message number are assigned, and a spray READ takes its slot. -/
def State.sendWqe (s : State) (qpn : Nat) (c : Ctx) (w : Wqe) : State :=
  let n := packets c.pmtu w.len
  let w1 := { w with psn := c.sqPsn, msg := c.msgNext, sent := true, data := [], lastSent := s.time.tick, slot := c.spray && w.isRead,
                     bitmap := List.replicate n false, slotTick := s.time.tick }
  let c1 := if c.spray then { c with msgNext := (c.msgNext + 1) % 2 ^ 32 } else { c with sqPsn := (c.sqPsn + n) % 2 ^ 24 }
  let c2 := { c1 with wqes := c1.wqes.map (fun x => if x.op = w.op then w1 else x), lastAckTick := s.time.tick }
  let s1 := s.setCtx qpn (some c2)
  if w.isRead then s1.sendReadReq qpn c2 w1 false else sendPayload qpn c2 w1 0 (n + 1) 0 w.data s1

/-- Send in order what may be sent (R340, R343). -/
def pumpCtx (qpn : Nat) : Nat → State → State
  | 0, s => s
  | n + 1, s =>
    match s.ctx qpn with
    | none => s
    | some c =>
      if c.state ≠ 3 then s
      else match c.wqes.find? (fun w => !w.sent) with
        | none => s
        | some w => if s.maySend c w then pumpCtx qpn n (s.sendWqe qpn c w) else s

/-- Send what a context may send. -/
def State.pump (s : State) (qpn : Nat) : State := match s.ctx qpn with | some c => pumpCtx qpn (c.wqes.length + 1) s | none => s

/-- A context that has become RTS starts the work it held (R335): payload reads of its WRITEs, then sending. -/
def State.startWork (s : State) (qpn : Nat) : State :=
  match s.ctx qpn with
  | some c =>
    if c.state = 3 then
      (c.wqes.foldl (fun s w => if w.isRead || w.sent || !w.data.isEmpty then s else s.readPayload qpn c w 0 w.len 0) s).pump qpn
    else s
  | none => s

/-- The distance from one PSN forward to another. -/
def psnDist (a b : Nat) : Nat := (b + 2 ^ 24 - a % 2 ^ 24) % 2 ^ 24

/-- Resend every packet of the sent work requests from a PSN on (R340): payloads are read from the host again. -/
def State.resendFrom (s : State) (qpn psn : Nat) : State :=
  match s.ctx qpn with
  | none => s
  | some c =>
    (c.wqes.filter (·.sent)).foldl (fun s w =>
      let n := packets c.pmtu w.len
      let d := psnDist w.psn psn
      let k := if d < n then d else if d < 2 ^ 23 then n else 0
      if k = n then s
      else if w.isRead then s.sendReadReq qpn c w true
      else s.readPayload qpn c w (k * pmtuBytes c.pmtu) (w.len - k * pmtuBytes c.pmtu) 2)
      (s.setCtx qpn (some { c with lastAckTick := s.time.tick }))

/-- An acknowledgement advances SQ_UNA and restores the retries (R340). -/
def Ctx.acked (c : Ctx) (psn tick : Nat) : Ctx :=
  let d := psnDist c.sqUna (psn + 1)
  if 0 < d ∧ d ≤ psnDist c.sqUna c.sqPsn then { c with sqUna := (psn + 1) % 2 ^ 24, retriesLeft := c.retry, lastAckTick := tick } else c

/-! ### The responder -/

/-- Advance MSG_DONE over every complete message at the window's base (R344). -/
def advanceDone : Nat → Nat → List Bool → Nat × List Bool
  | 0, d, m => (d, m)
  | n + 1, d, m =>
    match m with
    | true :: rest => advanceDone n ((d + 1) % 2 ^ 32) (rest ++ [false])
    | _ => (d, m)

/-- A message of the window is complete. -/
def Ctx.finishMsg (c : Ctx) (msg : Nat) : Ctx :=
  let i := (msg + 2 ^ 32 - c.msgDone) % 2 ^ 32
  let m := modifyAt c.doneMap i (fun _ => true)
  let (d, m') := advanceDone 64 c.msgDone m
  { c with msgDone := d, doneMap := m' }

/-- Send the response packets of data that an inbound READ has read, from packet `k` of `n` on. -/
def sendResponse (qpn : Nat) (c : Ctx) (r : ReadRec) (retx : Nat) : Nat → Nat → List Byte → State → State
  | 0, _, _, s => s
  | fuel + 1, k, bs, s =>
    if bs.isEmpty then s
    else
      let n := packets c.pmtu r.len
      let part := bs.take (pmtuBytes c.pmtu)
      let pad := padCount part.length
      let s1 :=
        if c.spray then
          let path := (k + retx % 2) % c.paths
          s.sendReply qpn c path (bth 0xC2 pad c.peerQpn (r.psn % 2 ^ 24) false ++
            sprayHeader r.psn (k * pmtuBytes c.pmtu) r.len path (min retx 1 + 2 * b2n (decide (k + 1 = n))) 0 ++ part ++ zeros pad)
        else
          let op := partOp 0x0D 0x0E 0x0F 0x10 k n
          let (a, t) := if op = 0x0E then ([], s) else s.aeth 0x1F
          t.sendReply qpn c 0 (bth op pad c.peerQpn ((r.psn + k) % 2 ^ 24) false ++ a ++ part ++ zeros pad)
      sendResponse qpn c r retx fuel (k + 1) (bs.drop (pmtuBytes c.pmtu)) (if 0 < retx then s1.rdmaCount c.inst 10 1 else s1)

/-- A READ record of a context, by PSN or message. -/
def Ctx.read? (c : Ctx) (key : Nat) : Option ReadRec := c.reads.find? (fun r => decide (r.psn = key))

/-- Free a READ record and its operation. -/
def State.freeRead (s : State) (qpn key : Nat) : State :=
  match s.ctx qpn with
  | some c =>
    (match c.read? key with
     | some r => (s.endRead r).setCtx qpn (some { c with reads := c.reads.filter (fun x => decide (x.psn ≠ key)) })
     | none => s)
  | none => s

/-- The first record of a key that has no data yet takes them. -/
def fillRead (key : Nat) (bs : List Byte) : List ReadRec → List ReadRec
  | [] => []
  | r :: rs => if r.psn = key ∧ r.data = none then { r with data := some bs, sent := bs.length } :: rs else r :: fillRead key bs rs

/-- Send, in PSN order, the responses of a standard context whose data are there; a record is freed with its last response. -/
def flushReads (qpn : Nat) : Nat → State → State
  | 0, s => s
  | n + 1, s =>
    match s.ctx qpn with
    | none => s
    | some c =>
      match c.reads with
      | r :: rest =>
        (match r.data with
         | some bs => flushReads qpn n (((sendResponse qpn c r 0 (packets c.pmtu r.len + 1) 0 bs s).modCtx qpn (fun d => { d with reads := rest })).endRead r)
         | none => s)
      | [] => s

/-- The data of an inbound READ has arrived, or its read has failed (R334, R350). -/
def State.readServed (s : State) (qpn reg key off retx : Nat) (status : Byte) (bytes : List Byte) : State :=
  let s0 := s.inflight reg (· - 1)
  match s0.ctx qpn with
  | none => s0
  | some c =>
    match c.read? key with
    | none => s0
    | some r =>
      if status ≠ 0 then s0.nakError qpn 0x63 r.psn r.psn r.len
      else if c.spray then
        let s1 := sendResponse qpn c r retx (packets c.pmtu r.len + 1) (off / pmtuBytes c.pmtu) bytes s0
        s1.modCtx qpn (fun c => { c with reads := c.reads.map (fun x => if x.psn = key then { x with sent := max x.sent (off + bytes.length), lastTick := s.time.tick } else x) })
      else
        flushReads qpn 9 (s0.setCtx qpn (some { c with reads := fillRead key bytes c.reads }))

/-- The payload of a WRITE has been read (R329, R340), or its read has failed (R350). -/
def State.payloadRead (s : State) (qpn op off retx : Nat) (status : Byte) (bytes : List Byte) : State :=
  match s.ctx qpn with
  | none => s
  | some c =>
    match c.wqe? op with
    | none => s
    | some w =>
      if status ≠ 0 then s.endWqe qpn op status
      else if c.state ≠ 3 then s
      else if w.sent then
        sendPayload qpn c w retx (packets c.pmtu w.len + 1) (off / pmtuBytes c.pmtu) bytes ((s.setWqe qpn { w with lastSent := s.time.tick }).modCtx qpn (fun d => { d with lastAckTick := s.time.tick }))
      else (s.setWqe qpn { w with data := bytes }).pump qpn

end Sys2Proof.Machine
end

