-- ==== Sys2Proof/Machine/Resets.lean ====
section
/-!
DEFINITION. Shared operations of function level resets (R201 to R204), instance resets and destruction (R283, R284), revocation of
registrations (R347), and the end of what waits for them.
-/

namespace Sys2Proof.Machine

/-! ### Function level reset (R201) -/

/-- A read group of which nothing is outstanding any more, after a reset of its function: its data is discarded. -/
def State.closeDead (s : State) (n : Nat) (g : ReadGroup) : State :=
  let s1 := s.dropGroup n
  match g.use with
  | .unit r => s1.dropHostName (BitVec.ofNat 32 (fieldLe r.block 0x14 4))
  | .responder _ reg _ _ _ => s1.inflight reg (· - 1)
  | _ => s1

/-- A request that a reset discards before it was issued no longer counts in its group. -/
def State.unissued (s : State) (r : ReadReq) : State :=
  match FMap.get none s.pcie.groups r.group with
  | some g => { s with pcie := { s.pcie with groups := FMap.set none s.pcie.groups r.group (some { g with left := g.left - 1 }) } }
  | none => s

/-- Whether a held request is a context spill, which no reset discards (R339). -/
def State.isSpill (s : State) (fn : Nat) (h : Held) : Bool :=
  match h, s.rdma.backing with
  | .write a _ _, some (base, count) => decide (fn = 1) && decide (base ≤ a) && decide (a < base + count * 512)
  | _, _ => false

/-- A held request is discarded. -/
def State.discardHeld (s : State) (h : Held) : State :=
  match h with
  | .read r => s.unissued r
  | .place reg _ _ _ => s.inflight reg (· - 1)
  | _ => s

/-- Reads of a function: those not issued are discarded, those outstanding keep their tags, and their data will be discarded. -/
def State.orphanReads (s : State) (fn : Nat) : State :=
  let p := s.pcie
  let s1 := (p.waiting.filter (fun r => decide (r.fn = fn))).foldl State.unissued
    { s with pcie := { p with waiting := p.waiting.filter (fun r => decide (r.fn ≠ fn)) } }
  let mark := fun (_ : Nat) (g : Option ReadGroup) => g.map (fun (x : ReadGroup) => if x.fn = fn then { x with dead := true } else x)
  let orphan := fun (_ : Nat) (u : Option TagUse) => u.map (fun (x : TagUse) => if x.req.fn = fn then { x with orphan := true } else x)
  let s2 := { s1 with pcie := { s1.pcie with groups := FMap.mapVals none mark s1.pcie.groups, tags := FMap.mapVals none orphan s1.pcie.tags } }
  s2.pcie.groups.foldl (fun s e => match e.2 with | some g => if g.dead && decide (g.left = 0) then s.closeDead e.1 g else s | none => s) s2

/-- The sticky bytes of a function's configuration: AER masks and severities (R204). -/
def Fn.sticky (f : Fn) : FMap Byte := Mem.wrN (Mem.wrN Fn.reset.cfg 0x108 (Mem.rdN f.cfg 0x108 8)) 0x114 (Mem.rdN f.cfg 0x114 4)

/-- What an FLR does to one function (R201): held requests are discarded, rings forgotten, configuration and MSI-X at their reset values.
Until FLR_COMPLETE the function answers nothing. -/
def State.resetFn (s : State) (fn : Nat) : State :=
  let f := s.fn fn
  let s1 := (f.held.filter (fun h => !s.isSpill fn h)).foldl State.discardHeld s
  let s2 := (s1.forgetRings fn).orphanReads fn
  let s3 := if fnSto fn then s2.nvReset fn else s2
  s3.setFn fn { Fn.reset with cfg := f.sticky, held := f.held.filter (s.isSpill fn), flr := true, badDoorbells := f.badDoorbells,
                              aerUncor := f.aerUncor, aerCor := f.aerCor, errPtr := f.errPtr, hdrLog := f.hdrLog, lastDoorbell := f.lastDoorbell }

/-- Every context of an instance enters ERROR (R336, R283). -/
def State.errorCtxs (s : State) (n : Nat) : State :=
  s.rdma.ctxs.foldl (fun s e => match e.2 with | some c => if c.inst = n ∧ c.state ≠ 4 then s.errorCtx e.1 1 else s | none => s) s

/-- The running command of an opcode on an instance. -/
def State.runningInst (s : State) (opcode n : Nat) : Option Running := s.runningOn opcode (obj .inst n)

/-- A save in progress ends ABORTED when a VF of its instance is reset (R288). -/
def State.abortSave (s : State) (n : Nat) : State :=
  match s.runningInst 0x0206 n with
  | some w => s.endLong w (vPlain 1) [] 0
  | none => s

/-- An instance enters RESETTING; the state to return to is kept (R275). -/
def Inst.resetting (i : Inst) : Inst :=
  match i.st with
  | .running => { i with st := .resetting, back := .running }
  | .frozen => { i with st := .resetting, back := .frozen }
  | .saving => { i with st := .resetting, back := .frozen }
  | _ => i

/-- An FLR of a VF (R201, R280, R275): the generation of its instance advances when the instance owns it; the MSI-X table takes the size
granted (R278). -/
def State.flrVf (s : State) (fn : Nat) : State :=
  match fnInst fn with
  | none => s
  | some n =>
    match s.inst n with
    | none => s.resetFn fn
    | some i =>
      if (if fnSto fn then i.noSto else i.noNet) then s.resetFn fn
      else
        let s1 := ((s.advanceGen n).abortSave n).modInst n Inst.resetting
        let s2 := s1.modInst n (fun i => if fnSto fn then { i with vecSto := i.res.vecSto } else { i with vecNet := i.res.vecNet })
        let s3 := s2.resetFn fn
        if fnSto fn then s3 else s3.errorCtxs n

/-- The VFs of a PF that exist. -/
def State.vfsOf (s : State) (pf : Nat) : List Nat :=
  if s.vfEnable pf then (List.range (min (s.numVfs pf) 4096)).map (fun n => if pf = 1 then vfNet n else vfSto n) else []

/-- VF Enable is cleared, or its PF is reset: every VF of the PF is reset (R203, R280). -/
def State.resetVfs (s : State) (pf : Nat) : State := (s.vfsOf pf).foldl State.flrVf s

/-- PF0 is reset (R203, R209, R377): its epoch increments, commands already taken run on, and the event ring is forgotten. -/
def State.resetPf0 (s : State) : State :=
  let m := s.mbadel
  let olds := m.taken.filterMap (fun e => e.2.map (fun p => (e.1, p.1, 0))) ++ m.armed.map (fun (a : Armed) => (a.hm, a.ptr, a.opcode)) ++
    m.running.map (fun (r : Running) => (r.hm, r.ptr, r.opcode))
  let s1 := (s.resetFn 0).epochBump srcPf0
  { s1 with mbadel := { s1.mbadel with preReset := s1.mbadel.preReset ++ olds.filter (fun o => !s1.mbadel.preReset.contains o) },
            events := { s1.events with ringEnabled := false, ringBase := 0, ringSize := 0, ringVector := 0, ringTail := 0, ringHead := 0,
                                       pendingRing := [] } }

/-- An FLR of a PF (R203). -/
def State.flrPf (s : State) (pf : Nat) : State := if pf = 0 then s.resetPf0 else (s.resetVfs pf).resetFn pf

/-! ### Registrations (R347) -/

/-- A registration is marked REVOKING; checks fail from the next tick boundary on. -/
def State.revoking (s : State) (i : Nat) : State :=
  let r := s.reg i
  if r.state = 2 then s else s.setReg i { r with state := 2, marked := s.time.tick }

/-- Step 3 of a revocation, when nothing is in flight under the registration. -/
def State.settleReg (s : State) (i : Nat) : State :=
  let r := s.reg i
  if r.state = 2 ∧ r.inflight = 0 ∧ r.marked < s.time.tick then s.freeReg i else s

/-- The registrations of an instance. -/
def State.regsOf (s : State) (n : Nat) : List Nat := (s.rdma.regs.filter (fun e => decide (e.2.state ≠ 0) && decide (e.2.inst = n))).map (·.1)

/-- The contexts of an instance. -/
def State.ctxsOf (s : State) (n : Nat) : List Nat :=
  s.rdma.ctxs.filterMap (fun e => match e.2 with | some c => if c.inst = n then some e.1 else none | none => none)

/-- A context is destroyed: outstanding work requests complete ABORTED (R238), its packets that wait are dropped, and its slot is free. -/
def State.destroyCtx (s : State) (qpn : Nat) : State :=
  let s1 := ((s.errorCtx qpn 1).setCtx qpn none).indexSlot qpn none
  let mine := s1.rdma.misses.filter (fun m => decide (m.1 = qpn))
  let s2 := { s1 with rdma := { s1.rdma with misses := s1.rdma.misses.filter (fun m => decide (m.1 ≠ qpn)), lru := s1.rdma.lru.filter (· ≠ qpn) } }
  mine.foldl (fun (s : State) m => s.dropMiss m.2) s2

/-! ### Instances (R276, R283, R284) -/

/-- The present VFs of an instance. -/
def Inst.vfs (i : Inst) (n : Nat) : List Nat := (if i.noNet then [] else [vfNet n]) ++ (if i.noSto then [] else [vfSto n])

/-- INSTANCE_RESET's effect (R283, R280): the generation advances once, both VFs are reset, every context enters ERROR. -/
def State.resetInst (s : State) (n : Nat) : State :=
  match s.inst n with
  | none => s
  | some i =>
    let s1 := (s.advanceGen n).modInst n (fun i => { i with vecNet := i.res.vecNet, vecSto := i.res.vecSto })
    ((i.vfs n).foldl State.resetFn s1).errorCtxs n

/-- Whether an FLR of a VF of an instance runs. -/
def State.instFlr (s : State) (n : Nat) : Bool := (s.fn (vfNet n)).flr || (s.fn (vfSto n)).flr

/-- The attachments of an instance: keys. -/
def State.attachedTo (s : State) (n : Nat) : List Nat := (s.sto.attach.filter (fun e => decide (e.1 / 512 = n))).map (·.1)

/-- A namespace is detached (R239, R320): the commands still outstanding on it end Invalid Namespace or Format. -/
def State.detach (s : State) (n nsid : Nat) : State :=
  let fn := vfSto n
  let outs := (s.ctl fn).outs.filter (fun o => decide (o.nsid.toNat = nsid))
  let s1 := outs.foldl (fun s o => s.nvEndOut fn o (nvSt 0 0x0B true)) s
  { s1 with sto := { s1.sto with attach := FMap.set none s1.sto.attach (n * 512 + nsid) none } }

/-- Every key context of an instance is cleared (R358). -/
def State.clearKeys (s : State) (n : Nat) : State :=
  let clear := fun (_ : Nat) (c : KeyCtx) => if c.state ≠ 0 ∧ c.inst.toNat = n then KeyCtx.reset else c
  { s with accel := { s.accel with keys := FMap.mapVals KeyCtx.reset clear s.accel.keys } }

/-- Steps 2 to 6 of a destruction (R284), as far as they can go now: once no FLR runs the registrations are revoked, and once nothing is in flight under
any of them the rest follows and the instance is gone. -/
def State.destroyOn (s : State) (n : Nat) : State :=
  if s.instFlr n then s
  else
    let s1 := (s.regsOf n).foldl State.revoking s
    let s2 := (s1.regsOf n).foldl State.settleReg s1
    if !(s2.regsOf n).isEmpty then s2
    else
      let s3 := (s2.ctxsOf n).foldl State.destroyCtx s2
      let s4 := (s3.attachedTo n).foldl (fun s k => s.detach n (k % 512)) s3
      let s5 := s4.modInst n (fun i => { i with macs := [], dirtyArmed := false, dirtyOverflow := false, dirty := [] })
      (s5.clearKeys n).setInst n none

/-- GENERATION as a result. -/
def State.genResult (s : State) (n : Nat) : List Byte := leBytes 2 (s.lastGen n).toNat

/-- What follows when an FLR of an instance has completed (R275, R283): the instance returns, and INSTANCE_RESET completes. -/
def State.resetDone (s : State) (n : Nat) : State :=
  if s.instFlr n then s
  else
    let s1 := s.modInst n (fun i => if i.st = .resetting then { i with st := i.back } else i)
    match s1.runningInst 0x0203 n with
    | some w => s1.endLong w vOk (s1.genResult n) 2
    | none => s1

/-- A destruction goes on, and INSTANCE_DESTROY completes when step 6 is done; when it has ended TIMEOUT before, that is logged now (R284). -/
def State.destroyDone (s : State) (n : Nat) : State :=
  match s.inst n with
  | none => s
  | some i =>
    if i.st ≠ .destroying then s
    else
      let s1 := s.destroyOn n
      if (s1.inst n).isSome then s1
      else match s1.runningInst 0x0204 n with
        | some w => s1.endLong w vOk [] 0
        | none => s1.log 0x0605 n 0

/-- The instances whose destruction runs. -/
def State.destroying (s : State) : List Nat :=
  s.ten.insts.filterMap (fun e => match e.2 with | some i => if i.st = .destroying then some e.1 else none | none => none)

/-- Revocations whose INFLIGHT has reached 0 come to their step 3, and REG_REVOKE completes (R347). -/
def State.settleRevokes (s : State) : State :=
  s.rdma.regs.foldl (fun s e =>
    let s1 := s.settleReg e.1
    match s1.runningOn 0x0502 (obj .reg e.1) with
    | some w => if (s1.reg e.1).state = 0 then s1.endLong w vOk [] 0 else s1
    | none => s1) s

end Sys2Proof.Machine
end

