-- ==== Sys2Proof/Machine/Instances.lean ====
section
/-!
DEFINITION. Tenant instances (13) and their commands of group 0x02 (R234): judgements of all of them, meanings of those that do not wait for a
turn, save images (R290, R324), dirty harvests (R292). Class T commands are carried out in TurnCmds.
-/

namespace Sys2Proof.Machine

/-! ### Grants (R276 to R279) -/

/-- What an instance has in use, in the fields of RES; its vector tables count with their size in force (log 42). -/
def State.resUse (s : State) (n : Nat) : Res :=
  let c := s.ctl (vfSto n)
  let io := fun (l : List Nat) => (l.filter (· ≠ 0)).length
  let live := fun {α : Type} (m : FMap (Option α)) => (m.filter (fun e => e.2.isSome)).map (·.1)
  match s.inst n with
  | some i => { rings := s.ioQueues (vfNet n) + (s.creating (vfNet n)).length, nvmeq := max (io (live c.sqs)) (io (live c.cqs)),
                ops := s.opsOf (BitVec.ofNat 16 n), vecNet := i.vecNet, vecSto := i.vecSto, regs := (s.regsOf n).length,
                ctxs := (s.ctxsOf n).length, ns := (s.attachedTo n).length }
  | none => { rings := 0, nvmeq := 0, ops := 0, vecNet := 0, vecSto := 0, regs := 0, ctxs := 0, ns := 0 }

/-- The 24 bytes of a resource block. -/
def resBytes (r : Res) : List Byte :=
  leBytes 2 r.rings ++ leBytes 2 r.nvmeq ++ leBytes 4 r.ops ++ leBytes 1 r.vecNet ++ leBytes 1 r.vecSto ++ zeros 2 ++ leBytes 4 r.regs ++
    leBytes 4 r.ctxs ++ leBytes 2 r.ns ++ zeros 2

/-- A resource block from its bytes. -/
def resOfBytes (b : List Byte) : Res :=
  { rings := fieldLe b 0 2, nvmeq := fieldLe b 2 2, ops := fieldLe b 4 4, vecNet := fieldLe b 8 1, vecSto := fieldLe b 9 1, regs := fieldLe b 12 4,
    ctxs := fieldLe b 16 4, ns := fieldLe b 20 2 }

/-- The offset in RES of the first field outside its range (R276). -/
def resBad (r : Res) (noNet noSto : Bool) : Option Nat :=
  if 4095 < r.rings then some 0 else if 4095 < r.nvmeq then some 2 else if 61440 < r.ops then some 4
  else if (if noNet then r.vecNet ≠ 0 else r.vecNet < 1 ∨ 64 < r.vecNet) then some 8
  else if (if noSto then r.vecSto ≠ 0 else r.vecSto < 1 ∨ 64 < r.vecSto) then some 9
  else if 16777216 < r.regs then some 12 else if 1048576 < r.ctxs then some 16 else if 256 < r.ns then some 20 else none

/-- What every instance but one has been granted of a field. -/
def State.granted (s : State) (but : Nat) (f : Res → Nat) : Nat :=
  (s.ten.insts.map (fun e => match e.2 with | some i => if e.1 = but then 0 else f i.res | none => 0)).foldl (· + ·) 0

/-- The pool of connection contexts: the COUNT of CTX_BACKING. -/
def State.ctxPool (s : State) : Nat := match s.rdma.backing with | some b => b.2 | none => 0

/-- The offset in RES of the first field that a pool cannot grant (R276). -/
def State.resShort (s : State) (n : Nat) (r : Res) : Option Nat :=
  let short := fun (f : Res → Nat) (pool : Nat) => decide (pool < s.granted n f + f r)
  if short Res.rings 32768 then some 0 else if short Res.nvmeq 16384 then some 2 else if short Res.ops 61440 then some 4
  else if short Res.regs 16777216 then some 12 else if short Res.ctxs s.ctxPool then some 16 else if short Res.ns 65536 then some 20 else none

/-- Whether one grant falls below a use; vectors change at an FLR only (R278). -/
def resBelow (r u : Res) : Bool :=
  decide (r.rings < u.rings) || decide (r.nvmeq < u.nvmeq) || decide (r.ops < u.ops) || decide (r.regs < u.regs) || decide (r.ctxs < u.ctxs) ||
    decide (r.ns < u.ns)

/-! ### Judgements (R234, R275) -/

/-- The instance that a command names, when it does not exist. -/
def noInst (n : Nat) (s : State) : Option Nat := if (s.inst n).isSome then none else some n

/-- Whether an instance is in one of some states. -/
def State.instIn (s : State) (n : Nat) (l : List InstState) : Bool := match s.inst n with | some i => i.st ∈ l | none => false

/-- A judgement of a command that names an instance, with the payload's size, the states that accept it, and what else it requires. -/
def instJudge (need n : Nat) (states : List InstState) (pre : State → Option CmdEnd) : Judge :=
  { need := need, bad := if n < 4096 then none else some 0, objs := [obj .inst n], missing := noInst n,
    pre := fun s => firstOf [failIf (!s.instIn n states) (vPre 1), pre s] }

/-- The judgement of INSTANCE_CREATE. -/
def createJudge (n : Nat) (mode flags : Byte) (tenant : Nat) (r : Res) : Judge :=
  { need := 32,
    bad := if 4096 ≤ n then some 0 else if 1 < mode.toNat then some 2 else if 8 ≤ flags.toNat then some 3 else if 4096 ≤ tenant then some 4
           else (resBad r (flags.getLsbD 1) (flags.getLsbD 2)).map (· + 8),
    objs := [obj .inst n], missing := fun _ => none,
    pre := fun s => firstOf [failIf (s.inst n).isSome (vPre 1), (s.resShort n r).map (vObj 9)] }

/-- INSTANCE_CREATE's effect (R280). -/
def State.createInst (s : State) (n : Nat) (mode flags : Byte) (tenant : Nat) (r : Res) : State :=
  let i : Inst := { st := if flags.getLsbD 0 then .frozen else .running, back := .running, elastic := decide (mode = 1), noNet := flags.getLsbD 1,
                    noSto := flags.getLsbD 2, tenant := tenant, res := r, macs := [], vecNet := r.vecNet, vecSto := r.vecSto, dirtyArmed := false,
                    dirtyOverflow := false, dirty := [], ctr := InstCtr.zero }
  let s0 := { s with pools := { s.pools with rxNoBufInst := FMap.set 0 s.pools.rxNoBufInst n 0, engNoBuf := FMap.set 0 s.pools.engNoBuf n 0 },
                     ports := { s.ports with itemDropInst := FMap.set 0 s.ports.itemDropInst n 0 },
                     ten := { s.ten with turnCtrs := FMap.set [] s.ten.turnCtrs n [] } }
  let s1 := (s0.advanceGen n).setInst n (some i)
  if i.noSto then s1 else s1.modCtl (vfSto n) (fun c => { c with nsq := r.nvmeq, ncq := r.nvmeq })

/-- The judgement of INSTANCE_RESIZE (R279), `absent` telling which VFs the instance lacks. -/
def resizeJudge (absent : Bool × Bool) (n : Nat) (r : Res) : Judge :=
  let j := instJudge 32 n [.running, .frozen] (fun s => match s.inst n with
    | some i => firstOf [failIf (!i.elastic) (vPre 1), failIf (resBelow r (s.resUse n)) (vPre 2), (s.resShort n r).map (vObj 9)]
    | none => none)
  { j with bad := if 4096 ≤ n then some 0 else (resBad r absent.1 absent.2).map (· + 8) }

/-- The VFs that an instance lacks. -/
def State.absentVfs (s : State) (n : Nat) : Bool × Bool := match s.inst n with | some i => (i.noNet, i.noSto) | none => (false, false)

/-- INSTANCE_RESIZE's effect. -/
def State.resizeInst (s : State) (n : Nat) (r : Res) : State := s.modInst n (fun i => { i with res := r })

/-- The judgement of INSTANCE_FREEZE. -/
def freezeJudge (n : Nat) : Judge := instJudge 2 n [.running] (fun _ => none)
/-- INSTANCE_FREEZE's effect (R285). -/
def State.freezeInst (s : State) (n : Nat) : State := s.modInst n (fun i => { i with st := .frozen })

/-- The judgement of INSTANCE_THAW. -/
def thawJudge (n : Nat) : Judge := instJudge 2 n [.frozen] (fun _ => none)
/-- INSTANCE_THAW's effect (R287): the Keep Alive timer restarts, and events that waited are reported. -/
def State.thawInst (s : State) (n : Nat) : State :=
  ((s.modInst n (fun i => { i with st := .running })).modCtl (vfSto n) (fun c => { c with katoFrom := s.time.tick })).nvFlush (vfSto n)

/-- The judgement of MAC_SET. -/
def macJudge (n count : Nat) (macs : List Nat) : Judge :=
  let j := instJudge 136 n [.running, .frozen] (fun _ => none)
  { j with bad := if 4096 ≤ n then some 0 else if 16 < count then some 2
                  else (macs.take count).findIdx? (fun m => decide (2 ^ 48 ≤ m)) |>.map (fun k => 8 + 8 * k) }
/-- MAC_SET's effect. -/
def State.setMacs (s : State) (n count : Nat) (macs : List Nat) : State := s.modInst n (fun i => { i with macs := macs.take count })

/-! ### Creation, reset, destruction, query -/

/-- INSTANCE_CREATE (R234). -/
def execInstanceCreate (h : MbHdr) (inst : Nat) (mode flags : Byte) (tenant : Nat) (res : Res) (s : State) : Answer :=
  .next (s.runNow h (row 0x0201) (createJudge inst mode flags tenant res) (fun s =>
    let s1 := s.createInst inst mode flags tenant res
    (s1, vOk, s1.genResult inst)))

/-- INSTANCE_RESET starts (R283). -/
def State.startReset (s : State) (n : Nat) : State := ((s.modInst n Inst.resetting).resetInst n).resetDone n

/-- The judgement of INSTANCE_RESET. -/
def resetJudge (n : Nat) : Judge := instJudge 2 n [.running, .frozen] (fun _ => none)

/-- The judgement of INSTANCE_DESTROY. -/
def destroyJudge (n : Nat) : Judge := instJudge 2 n [.running, .frozen, .resetting, .saving, .restoring] (fun _ => none)

/-- INSTANCE_RESET (R234, R283): it waits for a class W command that holds the instance. -/
def execInstanceReset (h : MbHdr) (inst : Nat) (s : State) : Answer :=
  .next (s.runLong h (row 0x0203) (resetJudge inst) (.instanceReset h inst) true (fun s => s.startReset inst))

/-- INSTANCE_DESTROY starts (R284). -/
def State.startDestroy (s : State) (n : Nat) : State := ((s.modInst n (fun i => { i with st := .destroying })).resetInst n).destroyDone n

/-- INSTANCE_DESTROY (R234, R284). -/
def execInstanceDestroy (h : MbHdr) (inst : Nat) (s : State) : Answer :=
  .next (s.runLong h (row 0x0204) (destroyJudge inst) (.instanceDestroy h inst) true (fun s => s.startDestroy inst))

/-- The code of an instance state (R275). -/
def InstState.code : InstState → Nat
  | .running => 1 | .frozen => 2 | .resetting => 3 | .destroying => 4 | .saving => 5 | .restoring => 6

/-- The counters of an instance in the order of R294. -/
def State.instCounters (s : State) (n : Nat) (c : InstCtr) : List Nat :=
  [c.staleGen, c.opsWait, c.frozenDrop, FMap.get 0 s.pools.rxNoBufInst n, FMap.get 0 s.pools.engNoBuf n, c.rxMasterOff, c.dirtyPages,
   c.dirtyOverflows, FMap.get 0 s.ports.itemDropInst n]

/-- The counters that a query of an instance reads: those that the last turn took, since it reports at once and all of a read are of one turn
(R160, R294, log 67). An instance that no turn has seen yet has counted nothing. -/
def State.turnCtrs (s : State) (n : Nat) : List Nat := (List.range 9).map (fun i => (FMap.get [] s.ten.turnCtrs n).getD i 0)

/-- A turn takes every instance's counters. -/
def State.takeCtrs (s : State) : State :=
  { s with ten := { s.ten with
      turnCtrs := s.ten.insts.filterMap (fun e => e.2.map (fun i => (e.1, s.instCounters e.1 i.ctr))) } }

/-- The result of INSTANCE_QUERY (R234, R294). -/
def State.instQuery (s : State) (n : Nat) : List Byte :=
  match s.inst n with
  | some i =>
    [BitVec.ofNat 8 i.st.code, BitVec.ofNat 8 (b2n i.elastic)] ++ leBytes 2 (s.lastGen n).toNat ++ zeros 4 ++ resBytes i.res ++ resBytes (s.resUse n) ++
      ((s.turnCtrs n).map (leBytes 8)).flatten
  | none => []

/-- INSTANCE_QUERY (R234): every state accepts it, also while a class W command runs (R275). -/
def execInstanceQuery (h : MbHdr) (inst : Nat) (s : State) : Answer :=
  .next (s.runQuery h (row 0x020A) { Judge.plain 128 with bad := if inst < 4096 then none else some 0, missing := noInst inst }
    (fun s => s.instQuery inst))

/-! ### Save images (R288, R290, R324) -/

/-- One VF's configuration element: Command, Device Control, Device Control 2 and MSI-X Message Control as they read at +0, +2, +4 and +6, and of the
SR-IOV state the control register and NumVFs of its PF at +8 and +10; the spec does not place them (log 43). -/
def State.vfConfig (s : State) (fn : Nat) : List Byte :=
  let pf := fnPf fn
  padTo 256 (s.cfgRead fn 4 2 ++ s.cfgRead fn 0x78 2 ++ s.cfgRead fn 0x98 2 ++ s.cfgRead fn 0x52 2 ++ s.cfgRead pf 0x150 2 ++ s.cfgRead pf 0x158 2)

/-- A vector's table entry as a driver reads it: the mask bit is kept inverted. -/
def Fn.vector (f : Fn) (v : Nat) : List Byte :=
  Mem.rdN f.msix (v * 16) 12 ++ leBytes 4 (let w := Mem.rdLe f.msix (v * 16 + 12) 4; if bitOf w 0 then w - 1 else w + 1)

/-- The pending bits of a function as one number. -/
def Fn.pending (f : Fn) : Nat := f.pba.foldl (fun m v => if bitOf m v then m else m + 2 ^ v) 0

/-- The MSI-X section, with as many entries as the grant has vectors (log 43). -/
def State.msixSection (s : State) (n : Nat) (i : Inst) : List Byte :=
  let tab := fun (fn k : Nat) => ((List.range k).map (fun v => (s.fn fn).vector v)).flatten
  tab (vfNet n) i.res.vecNet ++ tab (vfSto n) i.res.vecSto ++
    ((i.vfs n).map (fun fn => leBytes 8 (s.fn fn).pending)).flatten

/-- A queue record. Posted receive buffers are fetched anew after the thaw, so HEAD is the oldest slot still owned. -/
def queueRecord (num : Nat) (q : Queue) : List Byte :=
  padTo 64 (leBytes 2 num ++ leBytes 1 q.type ++ leBytes 1 (if q.error then 3 else 1) ++ leBytes 1 q.logn ++ leBytes 1 q.logm ++ leBytes 2 q.vector ++
    leBytes 8 q.desc ++ leBytes 8 q.cq ++ leBytes 2 q.ownedFrom ++ leBytes 2 q.tail ++ leBytes 2 (q.cqNext % q.cqSize) ++
    leBytes 2 (q.cqHead % q.cqSize) ++ [BitVec.ofNat 8 (b2n (decide (q.cqNext / q.cqSize % 2 = 0))), 0] ++ leBytes 2 q.modTicks ++
    leBytes 2 q.modCount ++ leBytes 2 q.pendCount ++ leBytes 4 q.bind)

/-- The queues of a function: numbers and records. -/
def State.fnQueues (s : State) (fn : Nat) : List (Nat × Queue) :=
  s.queues.qs.filterMap (fun e => match e.2 with | some q => if keyFn e.1 = fn then some (e.1 % 65536, q) else none | none => none)

/-- The bit of EVENTS that stands for a kept event: bits 0 to 2 the Critical Warning bit, 3 and 4 Invalid Doorbell Register and Write Value, 8 Firmware
Activation Starting (log 43). -/
def eventBit (dw0 : Nat) : Nat := if dw0 % 8 = 1 then 2 - bits dw0 8 8 else if dw0 % 8 = 0 then 3 + bits dw0 8 8 else 8

/-- The controller record (R324). -/
def ctlRecord (c : NvCtl) : List Byte :=
  padTo 384 ([BitVec.ofNat 8 (b2n c.enabled), BitVec.ofNat 8 c.ps, BitVec.ofNat 8 (b2n c.apste), BitVec.ofNat 8 c.aers.length] ++
    leBytes 4 c.arb.toNat ++ leBytes 4 c.tempOver.toNat ++ leBytes 4 c.tempUnder.toNat ++ leBytes 4 c.tempOver1.toNat ++ leBytes 4 c.tempUnder1.toNat ++
    leBytes 4 ((c.nsq - 1) % 65536 + 65536 * ((c.ncq - 1) % 65536)) ++ leBytes 4 c.coal.toNat ++ leBytes 4 c.aec.toNat ++ leBytes 4 c.kato.toNat ++
    leBytes 2 ((c.sqs.filter (fun e => decide (e.1 ≠ 0) && e.2.isSome)).length + (c.cqs.filter (fun e => decide (e.1 ≠ 0) && e.2.isSome)).length) ++
    zeros 2 ++ leBytes 4 (c.events.foldl (fun m e => if bitOf m (eventBit e) then m else m + 2 ^ eventBit e) 0) ++ leBytes 8 c.adminBase ++
    leBytes 1 c.logn ++ zeros 7 ++ padTo 256 c.apstTable)

/-- A submission queue's record; PHASE, IEN and PENDING are a completion queue's. -/
def sqRecord (n : Nat) (q : NvSq) : List Byte :=
  padTo 32 (leBytes 2 n ++ [1, BitVec.ofNat 8 q.prio] ++ leBytes 2 q.cqid ++ leBytes 2 q.size ++ leBytes 8 q.base ++ leBytes 2 q.head ++ leBytes 2 q.tail)

/-- A completion queue's record; TAIL is the position of the next entry. -/
def cqRecord (n : Nat) (q : NvCq) : List Byte :=
  padTo 32 (leBytes 2 n ++ [2, 0] ++ leBytes 2 q.iv ++ leBytes 2 q.size ++ leBytes 8 q.base ++ leBytes 2 (q.head % q.size) ++ leBytes 2 (q.next % q.size) ++
    [BitVec.ofNat 8 (b2n (decide (q.next / q.size % 2 = 0))), BitVec.ofNat 8 (b2n q.ien)] ++ leBytes 2 q.pendCount)

/-- The NVMe section. -/
def nvSection (c : NvCtl) : List Byte :=
  ctlRecord c ++ (c.sqs.filterMap (fun e => match e.2 with | some q => if e.1 = 0 then none else some (sqRecord e.1 q) | none => none)).flatten ++
    (c.cqs.filterMap (fun e => match e.2 with | some q => if e.1 = 0 then none else some (cqRecord e.1 q) | none => none)).flatten

/-- A registration's record. -/
def regRecord (i : Nat) (r : Reg) : List Byte :=
  leBytes 4 (i * 256 + r.tag.toNat) ++ leBytes 2 r.pd ++ [r.rights, 0] ++ leBytes 8 r.base ++ leBytes 8 r.length ++ zeros 8

/-- An advisory entry. -/
def advice (kind idx nsid value : Nat) : List Byte := [BitVec.ofNat 8 kind, 0] ++ leBytes 2 idx ++ leBytes 4 nsid ++ leBytes 8 value

/-- The advisory section: MAC addresses, namespaces, ring binds. -/
def State.adviceSection (s : State) (n : Nat) (i : Inst) : List (List Byte) :=
  i.macs.zipIdx.map (fun m => advice 1 m.2 0 m.1) ++
    (s.attachedTo n).map (fun k => advice 2 0 (k % 512) ((FMap.get none s.sto.attach k).getD 0)) ++
    (s.fnQueues (vfNet n)).filterMap (fun q => if q.2.tmq.isSome || q.2.wake then
      some (advice 3 q.1 0 (q.2.tmq.getD 0 + 65536 * b2n q.2.wake)) else none)

/-- The sections of an image: type, element count, bytes. A section without an element is left out. -/
def State.sections (s : State) (n : Nat) (i : Inst) : List (Nat × Nat × List Byte) :=
  let vfs := i.vfs n
  let qs := s.fnQueues (vfNet n)
  let regs := s.regsOf n
  let ctxs := s.ctxsOf n
  let adv := s.adviceSection n i
  let nv := nvSection (s.ctl (vfSto n))
  let vecs := i.res.vecNet + i.res.vecSto
  ([(1, vfs.length, (vfs.map s.vfConfig).flatten), (2, vecs, s.msixSection n i), (3, qs.length, (qs.map (fun q => queueRecord q.1 q.2)).flatten),
    (4, if i.noSto then 0 else 1 + (nv.length - 384) / 32, nv), (6, regs.length, (regs.map (fun k => regRecord k (s.reg k))).flatten),
    (7, ctxs.length, (ctxs.map (fun q => match s.ctx q with | some c => ctxBytes q c 0 | none => [])).flatten), (8, adv.length, adv.flatten)]).filter
    (fun x => decide (x.2.1 ≠ 0))

/-- Directory entries, the sections lying one after another from an offset. -/
def directory : Nat → List (Nat × Nat × List Byte) → List Byte
  | _, [] => []
  | off, (t, c, b) :: rest => leBytes 2 t ++ zeros 2 ++ leBytes 4 c ++ leBytes 4 off ++ leBytes 4 b.length ++ directory (off + b.length) rest

/-- The save image of an instance (R290). -/
def State.saveImage (s : State) (n : Nat) : List Byte :=
  match s.inst n with
  | none => []
  | some i =>
    let secs := s.sections n i
    let body := (secs.map (fun x => x.2.2)).flatten
    let total := 64 + 16 * secs.length + body.length + 8
    let hdr := leBytes 4 0x53494731 ++ leBytes 2 0x0301 ++ leBytes 2 (b2n (!i.noNet) + 2 * b2n (!i.noSto)) ++ leBytes 4 total ++
      leBytes 2 secs.length ++ [BitVec.ofNat 8 (b2n i.elastic), 0] ++ leBytes 2 n ++ leBytes 2 (s.lastGen n).toNat ++ leBytes 2 i.tenant ++ zeros 2 ++
      leBytes 8 Config.serial.toNat ++ leBytes 8 s.time.number ++ resBytes i.res
    let img := hdr ++ directory (64 + 16 * secs.length) secs ++ body
    img ++ leBytes 4 (crc 0 img).toNat ++ zeros 4

/-- The judgement of INSTANCE_SAVE. -/
def saveJudge (n addr len : Nat) : Judge :=
  let j := instJudge 20 n [.frozen] (fun s => failIf (decide (len < (s.saveImage n).length)) (vPre 2))
  { j with bad := if 4096 ≤ n then some 0 else if addr % 4096 ≠ 0 then some 8 else none }

/-- INSTANCE_SAVE starts (R288): p2 reports the image's length. -/
def State.startSave (s : State) (h : MbHdr) (n addr len : Nat) (cmd : Instr) : State :=
  s.takenCmd h (row 0x0206) (fun s ptr blen =>
    match s.judgeCmd s blen (saveJudge n addr len) with
    | some v => s.writeResult h.hm.val ptr blen h.v2 v [] (if v = vPre 2 then (s.saveImage n).length else 0)
    | none =>
      if h.checkOnly then s.endCmd h.hm.val ptr blen h.v2 vOk
      else
        let w : Running := { cmd := cmd, hm := h.hm.val, ptr := ptr, len := blen, v2 := h.v2, opcode := 0x0206, objs := [obj .inst n],
                             start := s.cmdTick, stage := 1 }
        ({ s with mbadel := { s.mbadel with running := s.mbadel.running ++ [w] } }).modInst n (fun i => { i with st := .saving }))

/-- INSTANCE_SAVE (R234, R288). -/
def execInstanceSave (h : MbHdr) (inst : Nat) (addr : DWord) (len : Nat) (s : State) : Answer :=
  .next (s.startSave h inst addr.toNat len (.instanceSave h inst addr len))

/-- QUIESCENCE (R286, R288): the save image is written and INSTANCE_SAVE completes, or ends under p2 when the image has outgrown LEN; the instance stays
FROZEN. -/
def State.finishSave (s : State) (n : Nat) : State :=
  match s.runningInst 0x0206 n with
  | some w =>
    (match w.cmd with
     | .instanceSave _ _ addr len =>
       let img := s.saveImage n
       if s.quiescent n && decide (len < img.length) then (s.modInst n (fun i => { i with st := .frozen })).endLong w (vPre 2) [] img.length
       else if s.quiescent n then
         let s1 := (s.hostWrite 0 addr.toNat img).modInst n (fun i => { i with st := .frozen })
         s1.endLong w vOk (leBytes 4 img.length) 4
       else s
     | _ => s)
  | none => s

/-- QUIESCENCE (R286). -/
def execQuiescence (inst : Nat) (s : State) : Answer := .next (s.finishSave inst)

/-! ### Restoring (R289) -/

/-- The directory of an image: type, count, offset, length. -/
def imageDir (b : List Byte) : List (Nat × Nat × Nat × Nat) :=
  (List.range (fieldLe b 0x0C 2)).map (fun k =>
    (fieldLe b (64 + 16 * k) 2, fieldLe b (68 + 16 * k) 4, fieldLe b (72 + 16 * k) 4, fieldLe b (76 + 16 * k) 4))

/-- A section of an image: count and bytes; none of that type gives nothing. -/
def imageSection (b : List Byte) (type : Nat) : Nat × List Byte :=
  match (imageDir b).find? (fun d => decide (d.1 = type)) with
  | some d => (d.2.1, slice b d.2.2.1 d.2.2.2)
  | none => (0, [])

/-- The `n`-byte elements of a section. -/
def elements (n count : Nat) (b : List Byte) : List (List Byte) := (List.range count).map (fun k => slice b (n * k) n)

/-- Step 1 of R289: the offset of the first thing that fails. -/
def imageFault (b : List Byte) (len : Nat) : Option Nat :=
  let total := fieldLe b 8 4
  if fieldLe b 0 4 ≠ 0x53494731 then some 0 else if fieldLe b 4 2 ≠ 0x0301 then some 4 else if len < total ∨ total < 72 ∨ b.length < total then some 8
  else if fieldLe b (total - 8) 4 ≠ (crc 0 (b.take (total - 8))).toNat then some (total - 8)
  else ((imageDir b).findIdx? (fun d => decide (total < d.2.2.1 + d.2.2.2))).map (fun k => 64 + 16 * k)

/-- The I/O queues that an image's sections hold: network, then NVMe submission and completion queues. -/
def imageQueues (b : List Byte) : Nat × Nat :=
  let net := (elements 64 (imageSection b 3).1 (imageSection b 3).2).filter (fun r => decide (fieldLe r 0 2 ≠ 0))
  let nv := elements 32 ((imageSection b 4).1 - 1) ((imageSection b 4).2.drop 384)
  (net.length, max (nv.filter (fun r => decide (fieldLe r 2 1 = 1))).length (nv.filter (fun r => decide (fieldLe r 2 1 = 2))).length)

/-- Whether the image's resources fit the target's grant (step 3 of R289), beside what the target keeps. -/
def State.imageFits (s : State) (n : Nat) (i : Inst) (b : List Byte) : Bool :=
  let r := resOfBytes (slice b 0x28 24)
  let q := imageQueues b
  decide (q.1 ≤ i.res.rings) && decide (q.2 ≤ i.res.nvmeq) && decide (r.vecNet ≤ i.res.vecNet) && decide (r.vecSto ≤ i.res.vecSto) &&
    decide ((s.regsOf n).length + (imageSection b 6).1 ≤ i.res.regs) && decide ((s.ctxsOf n).length + (imageSection b 7).1 ≤ i.res.ctxs)

/-- The first registration index or QPN of an image that is in use (step 4 of R289). -/
def State.imageTaken (s : State) (b : List Byte) : Option Nat :=
  let regs := (elements 32 (imageSection b 6).1 (imageSection b 6).2).map (fun r => fieldLe r 0 4 / 256)
  let qpns := (elements 512 (imageSection b 7).1 (imageSection b 7).2).map (fun r => fieldLe r 0 3)
  match regs.find? (fun i => decide (i = 0) || decide ((s.reg i).state ≠ 0)) with
  | some i => some i
  | none => qpns.find? (fun q => (s.ctx q).isSome)

/-- The checks of R289. -/
def State.restoreCheck (s : State) (n : Nat) (b : List Byte) (len : Nat) : Option CmdEnd :=
  match s.inst n with
  | none => some (vObj 0x11 n)
  | some i =>
    match imageFault b len with
    | some off => some (vBad off)
    | none =>
      if fieldLe b 6 2 ≠ b2n (!i.noNet) + 2 * b2n (!i.noSto) then some (vPre 2)
      else if !s.imageFits n i b then some (vPre 2)
      else (s.imageTaken b).map (vObj 9)

/-- A function's configuration and vectors from an image; of the configuration, what software may write. -/
def Fn.restored (f : Fn) (fn : Nat) (conf : List Byte) (vectors : List (List Byte)) (pend : Nat) : Fn :=
  let c1 := cfgWrite fn f.cfg 4 (slice conf 0 2)
  let c2 := cfgWrite fn (cfgWrite fn (cfgWrite fn c1 0x78 (slice conf 2 2)) 0x98 (slice conf 4 2)) 0x52 (slice conf 6 2)
  let inv := fun (v : List Byte) => slice v 0 12 ++ leBytes 4 (let w := fieldLe v 12 4; if bitOf w 0 then w - 1 else w + 1)
  { f with cfg := c2, msix := Mem.wrN [] 0 ((vectors.map inv).flatten), pba := (List.range 64).filter (fun v => bitOf pend v) }

/-- A queue from its record. -/
def queueOfRecord (r : List Byte) (tick : Nat) : Queue :=
  let q := Queue.make (fieldLe r 2 1) (fieldLe r 4 1) (fieldLe r 5 1) (fieldLe r 6 2) (fieldLe r 8 8) (fieldLe r 16 8) (fieldLe r 34 2) (fieldLe r 36 2)
    (fieldLe r 40 4)
  let next := fieldLe r 28 2 + (if fieldLe r 32 1 = 1 then 2 * q.cqSize else q.cqSize)
  { q with error := decide (fieldLe r 3 1 = 3), head := fieldLe r 24 2, oldest := fieldLe r 24 2, tail := fieldLe r 26 2, cqNext := next,
           cqHead := next - ringDist q.cqSize (fieldLe r 30 2) (fieldLe r 28 2), pendCount := fieldLe r 38 2, pendSince := tick }

/-- An NVMe submission queue from its record. -/
def sqOfRecord (r : List Byte) : NvSq :=
  { cqid := fieldLe r 4 2, prio := fieldLe r 3 1, size := fieldLe r 6 2, base := fieldLe r 8 8, head := fieldLe r 16 2, tail := fieldLe r 18 2,
    error := false, aborted := [] }

/-- An NVMe completion queue from its record. -/
def cqOfRecord (r : List Byte) (tick : Nat) : NvCq :=
  let next := fieldLe r 18 2 + (if fieldLe r 20 1 = 1 then 2 * fieldLe r 6 2 else fieldLe r 6 2)
  { iv := fieldLe r 4 2, ien := decide (fieldLe r 21 1 = 1), size := fieldLe r 6 2, base := fieldLe r 8 8, next := next,
    head := next - ringDist (fieldLe r 6 2) (fieldLe r 16 2) (fieldLe r 18 2), modTicks := 0, modCount := 1, pendCount := fieldLe r 22 2,
    pendSince := tick }

/-- A controller from its section; the command identifiers of the outstanding event requests are not in the image (free, log 43). -/
def State.restoreCtl (s : State) (fn : Nat) (b : List Byte) (count : Nat) : State :=
  let (cids, s1) := freeWords (fieldLe b 3 1) s
  let recs := elements 32 (count - 1) (b.drop 384)
  let sq := fun (m : FMap (Option NvSq)) (r : List Byte) => if fieldLe r 2 1 = 1 then FMap.set none m (fieldLe r 0 2) (some (sqOfRecord r)) else m
  let cq := fun (m : FMap (Option NvCq)) (r : List Byte) =>
    if fieldLe r 2 1 = 2 then FMap.set none m (fieldLe r 0 2) (some (cqOfRecord r s.time.tick)) else m
  let word := fun (o : Nat) => BitVec.ofNat 32 (fieldLe b o 4)
  let evs := (if bitOf (fieldLe b 44 4) 0 then [1 + 256 * 2 + 65536 * 2] else []) ++ (if bitOf (fieldLe b 44 4) 1 then [1 + 256 + 65536 * 2] else []) ++
    (if bitOf (fieldLe b 44 4) 2 then [1 + 65536 * 2] else []) ++ (if bitOf (fieldLe b 44 4) 3 then [evtBadRegister] else []) ++
    (if bitOf (fieldLe b 44 4) 4 then [evtBadValue] else []) ++ (if bitOf (fieldLe b 44 4) 8 then [evtActivation] else [])
  let s2 := if fieldLe b 0 1 = 1 then
      s1.nvEnable fn (Queue.make 0 (fieldLe b 56 1 + 4) (fieldLe b 56 1 + 4) 0 (fieldLe b 48 8)
        (fieldLe b 48 8 + 64 * 2 ^ (fieldLe b 56 1 + 4)) 0 1 0) else s1
  s2.modCtl fn (fun c => { c with
    ps := fieldLe b 1 1, apste := decide (fieldLe b 2 1 = 1), aers := cids.map (fun w => w.extractLsb' 0 16), arb := word 4, tempOver := word 8,
    tempUnder := word 12, tempOver1 := word 16, tempUnder1 := word 20, nsq := (fieldLe b 24 2 + 1) % 65536, ncq := (fieldLe b 26 2 + 1) % 65536,
    coal := word 28, aec := word 32, kato := word 36, katoFrom := s.time.tick, events := evs, apst := slice b 64 256,
    sqs := recs.foldl sq c.sqs, cqs := recs.foldl cq c.cqs })

/-- Put a new context in place, its slot in the spill index: in the cache when its set has a line, else in its slot of the backing store (R338). -/
def State.installCtx (s0 : State) (qpn : Nat) (c : Ctx) : State :=
  let s := s0.indexSlot qpn (some c.slotNo)
  if (s.cacheSet qpn).length < 16 then (s.setCtx qpn (some c)).touchCtx qpn
  else match s.victim qpn with
    | some v => ((s.spillCtx v).setCtx qpn (some c)).touchCtx qpn
    | none => (s.setCtx qpn (some c)).spillCtx qpn

/-- A slot of the backing store that no context has; which one is free (log 6). -/
def State.freeSlot (s : State) : Option Nat :=
  s.pickFree 3 (s.rdma.ctxs.filterMap (fun e => e.2.map (fun c => c.slotNo))) 0 s.ctxPool

/-- Install the image's contents in a reset instance (R289). -/
def State.installImage (s : State) (n : Nat) (b : List Byte) : State :=
  match s.inst n with
  | none => s
  | some i =>
    let vfs := i.vfs n
    let r := resOfBytes (slice b 0x28 24)
    let confs := elements 256 (imageSection b 1).1 (imageSection b 1).2
    let vecs := elements 16 (r.vecNet + r.vecSto) (imageSection b 2).2
    let pends := (imageSection b 2).2.drop (16 * (r.vecNet + r.vecSto))
    let s1 := vfs.zipIdx.foldl (fun (s : State) v =>
      s.setFn v.1 ((s.fn v.1).restored v.1 (confs.getD v.2 []) (if fnSto v.1 then vecs.drop r.vecNet else vecs.take r.vecNet) (fieldLe pends (8 * v.2) 8))) s
    let s2 := (elements 64 (imageSection b 3).1 (imageSection b 3).2).foldl (fun (s : State) r =>
      s.setQueue (qKey (vfNet n) (fieldLe r 0 2)) (some (queueOfRecord r s.time.tick))) s1
    let s3 := if i.noSto then s2 else s2.restoreCtl (vfSto n) (imageSection b 4).2 (imageSection b 4).1
    let s4 := (elements 32 (imageSection b 6).1 (imageSection b 6).2).foldl (fun (s : State) r =>
      s.setReg (fieldLe r 0 4 / 256) { base := fieldLe r 8 8, length := fieldLe r 16 8, inst := n, pd := fieldLe r 4 2, tag := BitVec.ofNat 8 (fieldLe r 0 1),
                                       rights := BitVec.ofNat 8 (fieldLe r 6 1), state := 1, inflight := 0, marked := 0 }) s3
    let s5 := (elements 512 (imageSection b 7).1 (imageSection b 7).2).foldl (fun (s : State) r =>
      match s.freeSlot with
      | some k => s.installCtx (fieldLe r 0 3) { ctxOfBytes (Ctx.make 0 n 0 0 1 1 [] k) r with inst := n }
      | none => s) s4
    s5.modInst n (fun i => { i with dirtyArmed := false, dirtyOverflow := false, dirty := [] })

/-- A restore whose reset has completed installs its image and completes (R289); the instance stays FROZEN. -/
def State.restoreDone (s : State) (n : Nat) : State :=
  if s.instFlr n then s
  else match s.runningInst 0x0207 n with
    | some w =>
      (match w.cmd with
       | .instanceRestore _ _ _ _ image => ((s.installImage n image).modInst n (fun i => { i with st := .frozen })).endLong w vOk [] 0
       | _ => s)
    | none => s

/-- INSTANCE_RESTORE starts (R289): the instance is reset. -/
def State.startRestore (s : State) (n : Nat) : State := ((s.modInst n (fun i => { i with st := .restoring })).resetInst n).restoreDone n

/-- The judgement of INSTANCE_RESTORE: the instance is frozen, and the checks of its image (R289), which CHECK_ONLY makes too (R227). -/
def restoreJudge (n len : Nat) (image : List Byte) : Judge := instJudge 20 n [.frozen] (fun s => s.restoreCheck n (image.take len) len)

/-- INSTANCE_RESTORE (R234, R289); `image` is what its read of LEN bytes gives. -/
def execInstanceRestore (h : MbHdr) (inst : Nat) (addr : DWord) (len : Nat) (image : List Byte) (s : State) : Answer :=
  .next (s.runLong h (row 0x0207) (restoreJudge inst len image) (.instanceRestore h inst addr len image) false (fun s => s.startRestore inst))

/-! ### Dirty harvests (R291 to R293) -/

/-- The class W commands beside which a harvest of their instance runs: the states RESETTING and SAVING accept it (R275). -/
def harvestBeside : List Nat := [0x0203, 0x0206]

/-- The judgement of DIRTY_HARVEST: every other class W command on the instance refuses it under step 6 (R231, R275). -/
def harvestJudge (n : Nat) (clear : Byte) : Judge :=
  let held := fun (s : State) =>
    s.mbadel.running.find? (fun r => r.objs.contains (obj .inst n) && !harvestBeside.contains r.opcode && decide (r.stage ≠ 0))
  let j := instJudge 20 n [.running, .frozen, .resetting, .saving] (fun _ => none)
  { j with bad := if 4096 ≤ n then some 0 else if 2 < clear.toNat then some 2 else none, objs := [],
           pre := fun s => firstOf [(held s).map (fun r => { status := 0x0F, kind := 4, value := r.opcode }), j.pre s] }

/-- Start a harvest: it takes its snapshot at the commit. -/
def State.startHarvest (s : State) (h : MbHdr) (n : Nat) (clear : Byte) (cmd : Instr) : State :=
  s.takenCmd h (row 0x0209) (fun s ptr blen =>
    match s.judgeCmd s blen (harvestJudge n clear) with
    | some v => s.endCmd h.hm.val ptr blen h.v2 v
    | none =>
      if h.checkOnly then s.endCmd h.hm.val ptr blen h.v2 vOk
      else
        let w : Running := { cmd := cmd, hm := h.hm.val, ptr := ptr, len := blen, v2 := h.v2, opcode := 0x0209, objs := [obj .inst n],
                             start := s.cmdTick, stage := 1 }
        { s with mbadel := { s.mbadel with running := s.mbadel.running ++ [w] } })

/-- DIRTY_HARVEST (R234, R291). -/
def execDirtyHarvest (h : MbHdr) (inst : Nat) (clear : Byte) (addr : DWord) (len : Nat) (s : State) : Answer :=
  .next (s.startHarvest h inst clear (.dirtyHarvest h inst clear addr len))

/-- Pages marked in a chunk. -/
def pageCount (b : Nat) : Nat := ((List.range 512).filter (bitOf b)).length

/-- A harvest at the commit (R292): whole records that fit, the bits reported cleared when asked. -/
def State.harvest (s : State) (w : Running) : State :=
  match w.cmd with
  | .dirtyHarvest _ n clear addr len =>
    (match s.inst n with
     | none => s.endLong w (vObj 0x11 n) [] 0
     | some i =>
       let full := i.dirtyOverflow && i.dirtyArmed
       let recs := (if full then [leBytes 8 (2 ^ 64 - 1) ++ zeros 64] else []) ++
         (if i.dirtyArmed then i.dirty.map (fun c => leBytes 8 (c.1 * 2 ^ 21) ++ leBytes 64 c.2) else [])
       let fit := len / 72
       let shown := i.dirty.take (fit - b2n full)
       let pages := if i.dirtyArmed then (shown.map (fun c => pageCount c.2)).foldl (· + ·) 0 else 0
       let clears := decide (clear ≠ 0) && i.dirtyArmed
       let s1 := if (recs.take fit).isEmpty then s else s.hostWrite 0 addr.toNat (recs.take fit).flatten
       let s2 := s1.modInst n (fun i => { i with
         dirty := if clears then i.dirty.drop (fit - b2n full) else i.dirty,
         dirtyOverflow := if clears && decide (0 < fit) then false else i.dirtyOverflow,
         dirtyArmed := if clear = 1 then true else if clear = 2 then false else i.dirtyArmed,
         ctr := { i.ctr with dirtyPages := i.ctr.dirtyPages + pages } })
       s2.endLong w vOk (leBytes 4 pages) (72 * recs.length))
  | _ => s

/-- The harvests of a commit. -/
def State.harvestAll (s : State) : State := (s.mbadel.running.filter (fun r => decide (r.opcode = 0x0209))).foldl State.harvest s

/-- Whether a running command holds one of some objects. -/
def State.runsOn (s : State) (objs : List (Nat × Nat)) : Bool :=
  s.mbadel.running.any (fun r => decide (r.stage ≠ 0) && r.objs.any (fun o => objs.contains o))

/-- INSTANCE_RESET and INSTANCE_DESTROY commands that wait start once nothing else holds their instance, or end with the check that then fails (R231). -/
def State.startWaiting (s : State) : State :=
  (s.mbadel.running.filter (fun r => decide (r.stage = 0))).foldl (fun s w =>
    if s.runsOn w.objs then s
    else
      let s1 := s.setStage w 1
      let go := fun (j : Judge) (start : State → State) => match j.late s with
        | some v => s1.endLong { w with stage := 1 } v [] 0
        | none => start s1
      match w.cmd with
      | .instanceReset _ n => go (resetJudge n) (fun s => s.startReset n)
      | .instanceDestroy _ n => go (destroyJudge n) (fun s => s.startDestroy n)
      | _ => s1) s

end Sys2Proof.Machine
end

