-- ==== Sys2Proof/Machine/Endpoint.lean ====
section
/-!
DEFINITION. Meanings of the host endpoint's commands (09): BAR and configuration accesses, resets, Bus Master Enable, power states, the link,
and the completions of Geleath's own reads.
-/

namespace Sys2Proof.Machine

/-! ### BAR reads (R188 to R190, R215, R375) -/

/-- How a request from the host was completed: successful, Unsupported Request, Completer Abort. -/
def cplSc : Byte := 0
/-- Unsupported Request. -/
def cplUr : Byte := 1
/-- Completer Abort. -/
def cplCa : Byte := 4

/-- A read completes with data. -/
def State.mmioAnswer (s : State) (b : List Byte) : State := { s with pcie := { s.pcie with lastMmio := some b, lastCpl := cplSc } }

/-- A request completes without data. -/
def State.mmioFail (s : State) (st : Byte) : State := { s with pcie := { s.pcie with lastMmio := none, lastCpl := st } }

/-- The part number (R233). -/
def partBytes : List Byte := padTo 16 (ascii (if Config.orderKD then "WN-SG1024-KD" else "WN-SG1024-KA"))

/-- sxperiod (R41), also TICKCFG. -/
def State.tickCfg (s : State) : Nat :=
  s.time.period + 256 * s.time.gate + (match s.time.pendPeriod with | some p => 65536 * p.1 + 2 ^ 20 | none => 0)

/-- FWREL (R215): VERSION of the running image. -/
def State.fwRel (s : State) : Nat := s.boot.runVersion

/-- The identity and status block (R215), the bytes that are not 0. -/
def State.identBlock (s : State) : List Byte :=
  let t := s.boot.straps
  let devstate := s.dev.state + 16 * s.nv.lifecycle + 256 * t.pos.val + 2048 * b2n t.stackEn + 4096 * b2n t.compatBoot + 8192 * b2n s.boot.recoveryPers
  let pendE := match s.time.pendPeriod with | some p => p.2 | none => 0
  partBytes ++ leBytes 4 s.fwRel ++ leBytes 4 (if s.boot.mpRunning then 0x00030001 else 0) ++ leBytes 4 (if s.boot.mpRunning then 0x00020004 else 0) ++
    zeros 4 ++ leBytes 8 Config.serial.toNat ++ leBytes 4 devstate ++ leBytes 4 s.tickCfg ++ leBytes 8 pendE ++
    leBytes 4 (if s.boot.endpointUp then s.dev.capacity else 0) ++ leBytes 4 s.dev.causesIn ++ leBytes 8 s.time.number

/-- A mailbox as it is read, TAKE aside (R210). -/
def Mailbox.bytes (m : Mailbox) : List Byte :=
  leBytes 8 m.ptr.toNat ++ leBytes 4 m.len.toNat ++ leBytes 4 m.stamp.toNat ++ leBytes 4 m.status ++ zeros 44

/-- FAULT_CAUSE (R375, R379). -/
def State.faultCause (s : State) : Nat := 8 * b2n (s.cause 3) + 32 * b2n (s.cause 5) + 64 * b2n (s.cause 6)

/-- The event-ring control registers (R375), ER_LOST read as it stands. -/
def State.ringRegs (s : State) : List Byte :=
  let e := s.events
  leBytes 8 e.ringBase.toNat ++ leBytes 4 e.ringSize ++ leBytes 4 e.ringVector ++ leBytes 4 e.ringTail ++ leBytes 4 e.ringHead ++
    leBytes 4 (b2n e.ringEnabled + 2 * b2n e.overflow) ++ leBytes 4 e.lost.toNat ++ leBytes 8 e.nextSeq ++ leBytes 4 s.faultCause ++ zeros 20

/-- Bytes of a vector table as a driver reads them; the mask bits are kept inverted (log 41). -/
def Fn.tableBytes (f : Fn) (vectors off n : Nat) : List Byte :=
  (List.range n).map (fun k =>
    let a := off + k
    if a < vectors * 16 then (if a % 16 = 12 then Mem.rd f.msix a ^^^ 1#8 else Mem.rd f.msix a) else 0)

/-- Bytes of a pending-bit array. -/
def Fn.pbaBytes (f : Fn) (off n : Nat) : List Byte :=
  (List.range n).map (fun k => BitVec.ofNat 8 (f.pba.foldl (fun m v => if v / 8 = off + k then m + 2 ^ (v % 8) else m) 0))

/-- Whether work of a function stalls because it may read no more from the host (R198): entries of its rings are ready and not fetched. -/
def State.stalled (s : State) (fn : Nat) : Bool :=
  s.holds fn &&
    (s.queues.qs.any (fun e => decide (keyFn e.1 = fn) && (match e.2 with | some q => !q.error && decide (q.head ≠ q.tail) | none => false)) ||
     (s.ctl fn).sqs.any (fun e => match e.2 with | some q => !q.error && decide (q.head ≠ q.tail) | none => false))

/-- FN_STATUS (R189): HELD is 1 while anything is held, requests or work (R198). -/
def State.fnStatus (s : State) (fn : Nat) : Nat :=
  b2n (!(s.fn fn).held.isEmpty || s.stalled fn) + 16 * s.dev.state + 65536 * (s.fnGen fn).toNat

/-- Bytes of PF0's BAR0 that read without an effect. -/
def State.pf0Read (s : State) (off n : Nat) : List Byte :=
  let one := off / 0x40 * 0x40
  if off < 0x1000 then slice s.identBlock off n
  else if off < 0x3000 then slice (s.mb ((off - 0x1000) / 0x40 % 64 + (if 0x2000 ≤ off then 64 else 0))).bytes (off - one) n
  else if off < 0x4000 then zeros n
  else if off < 0x4040 then slice s.ringRegs (off - 0x4000) n
  else if 0x8000 ≤ off ∧ off < 0xC000 then (s.fn 0).tableBytes 1024 (off - 0x8000) n
  else if 0xC000 ≤ off ∧ off < 0xC080 then (s.fn 0).pbaBytes (off - 0xC000) n
  else zeros n

/-- The locks that a read touches are acquired, those that are free (R222). -/
def readLocks : Nat → Nat → State → List Byte × State
  | _, 0, s => ([], s)
  | k, n + 1, s =>
    let s1 := s.lockRead k srcPf0
    let (bs, s2) := readLocks (k + 1) n s1
    (leBytes 4 s1.boxes.lastRead ++ bs, s2)

/-- A read of PF0's BAR0, with the effects of TAKE, a lock and ER_LOST. -/
def State.readPf0 (s : State) (off n : Nat) : State :=
  if 0x1000 ≤ off ∧ off < 0x3000 ∧ off % 0x40 / 8 = 4 then
    let no := (off - 0x1000) / 0x40 % 64 + (if 0x2000 ≤ off then 64 else 0)
    let s1 := s.mbTake no srcPf0 n
    s1.mmioAnswer (if n = 8 then leBytes 8 s1.boxes.lastRead else zeros n)
  else if 0x3000 ≤ off ∧ off < 0x3100 then
    let k := (off - 0x3000) / 4
    let (bs, s1) := readLocks k ((off - 0x3000 + n - 1) / 4 - k + 1) s
    s1.mmioAnswer (slice bs (off % 4) n)
  else
    let s1 := s.mmioAnswer (s.pf0Read off n)
    if off ≤ 0x401C ∧ 0x4020 ≤ off + n then { s1 with events := { s1.events with lost := 0 } } else s1

/-- Bytes of another function's BARs. -/
def State.fnRead (s : State) (fn bar off n : Nat) : List Byte :=
  let f := s.fn fn
  let pf := decide (fn < 3)
  if bar = 0 then
    let at0 := if pf then 0x1000 else 4
    (List.range n).map (fun k => if at0 ≤ off + k ∧ off + k < at0 + 4 then ((leBytes 4 (s.fnStatus fn)).getD (off + k - at0) 0) else 0)
  else if bar = 2 then
    let pba := if pf then 0x8000 else 0x800
    if off < pba then f.tableBytes (s.tableVectors fn) off n else f.pbaBytes (off - pba) n
  else zeros n

/-- The size of a BAR (R188). -/
def barSize (fn bar : Nat) : Nat :=
  if fn = 0 then (if bar = 0 then 0x10000 else 0)
  else if fn < 3 then (if bar = 0 then 0x2000 else if bar = 2 then 0x10000 else 0)
  else (if bar = 0 ∨ bar = 2 then 0x1000 else 0)

/-- BAR_READ (R190): UR when the function does not decode, CA when larger than 8 bytes or across an 8-byte unit; a read outside the BAR names
no BAR and changes nothing. -/
def State.barRead (s : State) (fn bar off n : Nat) : State :=
  if n = 0 ∨ barSize fn bar < off + n then s
  else if !s.decodes fn then (s.unsupported fn false).mmioFail cplUr
  else if 8 < n ∨ off / 8 ≠ (off + n - 1) / 8 then (s.aerUncor fn 15).mmioFail cplCa
  else if fn = 0 then s.readPf0 off n
  else s.mmioAnswer (s.fnRead fn bar off n)

/-- BAR_READ. -/
def execBarRead (fn bar off len : Nat) (s : State) : Answer := .next (s.barRead fn bar off len)

/-! ### BAR writes (R190) -/

/-- A write that covers no whole register is discarded and logged. -/
def State.barDiscard (s : State) (fn off : Nat) : State := s.log 0x0403 fn off

/-- A write of a word of an MSI-X table (R188); a vector that is unmasked with its pending bit set has its message requested, which waits for the
release while the function holds its requests (R200). -/
def State.tableWrite (s : State) (fn off : Nat) (v : Word) : State :=
  if s.tableVectors fn * 16 ≤ off then s.barDiscard fn off
  else
    let f := s.fn fn
    let w := if off % 16 = 12 then v ^^^ 1#32 else v
    let s1 := s.setFn fn { f with msix := Mem.wrN f.msix off (leBytes 4 w.toNat) }
    let vec := off / 16
    if (s1.fn fn).pba.contains vec && !s1.msixMasked fn vec && !s1.holds fn then
      (s1.setFn fn { s1.fn fn with pba := (s1.fn fn).pba.erase vec }).sendMsix fn vec
    else s1

/-- A 32-bit write of PF0's BAR0. -/
def State.writePf0 (s : State) (off : Nat) (v : Word) : State :=
  let no := (off - 0x1000) / 0x40 % 64 + (if 0x2000 ≤ off then 64 else 0)
  if 0x1000 ≤ off ∧ off < 0x3000 then
    match off % 0x40 with
    | 0 => s.mbWrite no srcPf0 0 v
    | 4 => s.mbWrite no srcPf0 4 v
    | 8 => s.mbWrite no srcPf0 8 v
    | 0x10 => s.mbStatus no srcPf0 v
    | 0x14 => if v = 1#32 then s.mbRetract no srcPf0 else if s.isSender no srcPf0 then s else s.misuse no 0x14
    | 0x18 => if v = 1#32 then s.mbSend no srcPf0 else if s.isSender no srcPf0 then s else s.misuse no 0x18
    | _ => s.barDiscard 0 off
  else if 0x3000 ≤ off ∧ off < 0x3100 then s.lockWrite ((off - 0x3000) / 4) srcPf0 v
  else if off = 0x4014 then s.erHead v
  else if off = 0x4018 then s.erStatus v
  else if 0x8000 ≤ off ∧ off < 0xC000 then s.tableWrite 0 (off - 0x8000) v
  else s.barDiscard 0 off

/-- BAR_WRITE (R190). In the recovery personality PF0 keeps the pair HM0 and MH0 (R433); the other mailboxes have no receiver. -/
def State.barWrite (s : State) (fn bar off : Nat) (data : List Byte) : State :=
  if data.isEmpty ∨ barSize fn bar < off + data.length then s
  else if !s.decodes fn then s.unsupported fn true
  else if data.length ≠ 4 ∨ off % 4 ≠ 0 then s.barDiscard fn off
  else
    let v := BitVec.ofNat 32 (ofLe data)
    if fn = 0 then s.writePf0 off v
    else if bar = 0 then (if off = 0 then s.doorbellWrite fn v else s.barDiscard fn off)
    else if off < (if fn < 3 then 0x8000 else 0x800) then s.tableWrite fn off v
    else s.barDiscard fn off

/-- BAR_WRITE. -/
def execBarWrite (fn bar off : Nat) (data : List Byte) (s : State) : Answer := .next (s.barWrite fn bar off data)

/-! ### Bus Master Enable and D-states (R198 to R200, R205) -/

/-- A held request is issued (R200). -/
def State.releaseHeld (fn : Nat) (s : State) (h : Held) : State :=
  match h with
  | .read r => s.issueRead r
  | .write a b data => s.issueWrite fn a b data
  | .place reg a b after => ((s.issueWrite fn a b true).inflight reg (· - 1)).afterPlace after
  | .msix _ => s

/-- A pending message of a function is sent when its vector is not masked. -/
def State.sendPending (fn : Nat) (s : State) (v : Nat) : State :=
  if s.msixMasked fn v || s.holds fn then s else (s.setFn fn { s.fn fn with pba := (s.fn fn).pba.erase v }).sendMsix fn v

/-- Everything that a function holds is issued, in the order in which it was held, then its pending messages whose vectors are not masked; stalled work
goes on from the next tick (R200). -/
def State.release (s : State) (fn : Nat) : State :=
  if s.holds fn then s
  else
    let l := (s.fn fn).held
    let s0 := s.setFn fn { s.fn fn with held := [], resumed := s.time.tick + 1 }
    let s1 := l.foldl (State.releaseHeld fn) s0
    (s1.fn fn).pba.foldl (State.sendPending fn) s1

/-- Set or clear a bit of a configuration field of two bytes. -/
def Fn.setCfgBit (f : Fn) (off bit : Nat) (v : Bool) : Fn :=
  let w := f.cfgField off 2
  { f with cfg := Mem.wrN f.cfg off (leBytes 2 (if bitOf w bit = v then w else if v then w + 2 ^ bit else w - 2 ^ bit)) }

/-- BUS_MASTER_ENABLE_CLEAR (R198). -/
def execBusMasterEnableClear (fn : Nat) (s : State) : Answer :=
  .next (if s.fnExists fn && !(s.fn fn).flr then s.setFn fn ((s.fn fn).setCfgBit 4 2 false) else s)

/-- BUS_MASTER_ENABLE_SET (R200). -/
def execBusMasterEnableSet (fn : Nat) (s : State) : Answer :=
  .next (if s.fnExists fn && !(s.fn fn).flr then (s.setFn fn ((s.fn fn).setCfgBit 4 2 true)).release fn else s)

/-- The functions that a PF's D-state governs: the PF and its VFs. -/
def State.pfFns (s : State) (pf : Nat) : List Nat := pf :: s.vfsOf pf

/-- D3HOT_ENTRY (R205): held messages become PME events. -/
def State.enterD3 (s : State) (pf : Nat) : State :=
  if (s.fn pf).flr then s
  else
    let s1 := s.setFn pf { s.fn pf with d3 := true, cfg := Mem.wrN (s.fn pf).cfg 0x44 (leBytes 2 ((s.fn pf).cfgField 0x44 2 / 4 * 4 + 3)) }
    if (s.pfFns pf).any (fun fn => (s.fn fn).held.any (fun h => match h with | .msix _ => true | _ => false)) then s1.pme pf else s1

/-- D3HOT_ENTRY. -/
def execD3hotEntry (pf : Fin 3) (s : State) : Answer := .next (s.enterD3 pf.val)

/-- D0_RETURN (R205): function state is kept, and held requests are released under R200. -/
def State.returnD0 (s : State) (pf : Nat) : State :=
  if !(s.fn pf).d3 then s
  else
    let s1 := s.setFn pf { s.fn pf with d3 := false, cfg := Mem.wrN (s.fn pf).cfg 0x44 (leBytes 2 ((s.fn pf).cfgField 0x44 2 / 4 * 4)) }
    (s1.pfFns pf).foldl State.release s1

/-- D0_RETURN. -/
def execD0Return (pf : Fin 3) (s : State) : Answer := .next (s.returnD0 pf.val)

/-- PME_SIGNAL (R206): a source of a PF fires. -/
def execPmeSignal (pf : Fin 3) (s : State) : Answer := .next (s.pme pf.val)

/-- PME_TURN_OFF (R206): answered with PME_TO_Ack; the link may then enter L2. -/
def execPmeTurnOff (s : State) : Answer :=
  .next (if s.pcie.linkUp then { s with pcie := { s.pcie with pmeToAck := s.pcie.pmeToAck + 1, lstate := .l2 } } else s)

/-! ### Function level resets and conventional reset (R201 to R204) -/

/-- FUNCTION_LEVEL_RESET of a VF (R201). -/
def execFunctionLevelReset (storage : Bool) (inst : Fin 4096) (s : State) : Answer :=
  let fn := if storage then vfSto inst.val else vfNet inst.val
  .next (if s.fnExists fn && !(s.fn fn).flr then s.flrVf fn else s)

/-- PF_FUNCTION_LEVEL_RESET (R203). -/
def execPfFunctionLevelReset (pf : Fin 3) (s : State) : Answer :=
  .next (if s.fnExists pf.val && !(s.fn pf.val).flr then s.flrPf pf.val else s)

/-- What waits for the FLRs of an instance goes on. -/
def State.afterFlr (s : State) (n : Nat) : State := ((s.resetDone n).restoreDone n).destroyDone n

/-- FLR_COMPLETE (R202): no request of the function is outstanding any more. -/
def State.flrComplete (s : State) (fn : Nat) : State :=
  let f := s.fn fn
  if f.flr && !s.fnBusy fn then
    let s1 := s.setFn fn { f with flr := false }
    match fnInst fn with
    | some n => s1.afterFlr n
    | none => s1
  else s

/-- FLR_COMPLETE. -/
def execFlrComplete (fn : Nat) (s : State) : Answer := .next (s.flrComplete fn)

/-- PME_En and PME_Status of a PF are kept (R204, R206). -/
def State.keepPme (old : State) (s : State) (pf : Nat) : State :=
  let kept := (old.fn pf).cfgField 0x44 2
  let bits := 256 * bits kept 8 1 + 32768 * bits kept 15 1
  s.setFn pf { s.fn pf with cfg := Mem.wrN (s.fn pf).cfg 0x44 (leBytes 2 bits) }

/-- CONVENTIONAL_RESET (R204): every function is reset as by an FLR; the endpoint's link state is lost. -/
def State.conventionalReset (s : State) (cause : ResetCause) : State :=
  let s1 := [1, 2, 0].foldl State.flrPf s
  let s2 := [0, 1, 2].foldl (State.keepPme s) s1
  let code := match cause with | .linkDown => 0 | .hotReset => 1 | .perst => 2
  let p := { s2.pcie with linkUp := false, perst := s2.pcie.perst || decide (code = 2), lstate := .l0, ltrUs := none, retraining := false }
  ({ s2 with pcie := p }).log 0x0402 code 0

/-- CONVENTIONAL_RESET. -/
def execConventionalReset (cause : ResetCause) (s : State) : Answer := .next (s.conventionalReset cause)

/-- PERST_DEASSERT (R204, R206, R429): WAKE_N is released; the endpoint trains its link. -/
def execPerstDeassert (s : State) : Answer := .next { s with pcie := { s.pcie with perst := false, wakeN := true } }

/-! ### The link (R181, R182, R194, R207) -/

/-- Whether a rate, width and mode can be trained (R181). -/
def trainable (rateX10 width : Nat) (flit : Bool) : Bool :=
  rateX10 ∈ [25, 50, 80, 160, 320, 640] && width ∈ [1, 2, 4, 8, 16] && (flit || decide (rateX10 ≠ 640))

/-- PCIE_LINK_RETRAIN (R182): a change of rate or width is logged. The endpoint trains once it has left reset (R429). -/
def State.retrain (s : State) (rateX10 width : Nat) (flit : Bool) : State :=
  if !trainable rateX10 width flit || s.pcie.perst || !s.boot.endpointUp then s
  else
    let s1 := { s with pcie := { s.pcie with rateX10 := rateX10, width := width, flit := flit, linkUp := true, lstate := .l0, retraining := false } }
    if rateX10 ≠ s.pcie.rateX10 ∨ width ≠ s.pcie.width then s1.log 0x0401 rateX10 width else s1

/-- PCIE_LINK_RETRAIN. -/
def execPcieLinkRetrain (rateX10 width : Nat) (flit : Bool) (s : State) : Answer := .next (s.retrain rateX10 width flit)

/-- A fatal error of the link: reported in PF0, and the link has to train again (R194). -/
def State.linkFatal (s : State) (bit : Nat) : State := let s1 := s.aerUncor 0 bit; { s1 with pcie := { s1.pcie with retraining := true } }

/-- MALFORMED_TLP (R194): an error of the link, reported in PF0. A correctable one is met by the link layer's retry. -/
def execMalformedTlp (kind : LinkError) (s : State) : Answer :=
  .next (match kind with
    | .malformed => s.linkFatal 18
    | .flowControl => s.linkFatal 13
    | .dataLink => s.linkFatal 4
    | .receiver => s.aerCorr 0 0
    | .badTlp => s.aerCorr 0 6
    | .badDllp => s.aerCorr 0 7
    | .replayRollover => s.aerCorr 0 8
    | .replayTimeout => s.aerCorr 0 12)

/-- UNSUPPORTED_REQUEST (R194); a poisoned write is discarded. -/
def execUnsupportedRequest (fn : Nat) (kind : BadRequest) (posted : Bool) (s : State) : Answer :=
  .next (if kind = .absentFunction ∧ s.fnExists fn = true then s
    else if kind = .poisoned then s.aerUncor (if s.fnExists fn then fn else 0) 12
    else
      let s1 := s.unsupported fn posted
      if posted then s1 else s1.mmioFail cplUr)

/-- Whether any request of Geleath's is outstanding or anything is held to send. -/
def State.pcieIdle (s : State) : Bool := s.pcie.tags.isEmpty && s.pcie.waiting.isEmpty && decide (s.heldCount = 0)

/-- ASPM_ENTRY (R207): the enables are Link Control's ASPM bits at 0x80 and the L1 PM Substates control at 0x258 of PF0; LTR_L1.2_THRESHOLD is
judged by the reported latency alone, 40 µs or no requirement (log 44). -/
def State.aspm (s : State) (target : LState) : State :=
  let f := s.fn 0
  let en := f.cfgField 0x80 2
  let l1ss := f.cfgField 0x258 4
  let thr := bits l1ss 16 10 * 32 ^ bits l1ss 29 3
  let go := match target with
    | .l0 => true
    | .l0s => !s.pcie.flit && bitOf en 0 && decide (s.pcie.lstate = .l0)
    | .l1 => bitOf en 1 && decide (s.pcie.lstate = .l0) && s.pcieIdle
    | .l11 => bitOf l1ss 3 && decide (s.pcie.lstate = .l1)
    | .l12 => bitOf l1ss 2 && decide (s.pcie.lstate = .l1) &&
        (match s.pcie.ltrUs with | some us => decide (thr ≤ us * 1000) | none => true)
    | .l2 => decide (0 < s.pcie.pmeToAck)
  if s.pcie.linkUp && go then { s with pcie := { s.pcie with lstate := target } } else s

/-- ASPM_ENTRY. -/
def execAspmEntry (target : LState) (s : State) : Answer := .next (s.aspm target)

/-- Whether a host queue of any function has had a doorbell or a completion in the last millisecond (R207). -/
def State.hostActive (s : State) : Bool :=
  s.pcie.fns.any (fun e => decide (0 < e.2.lastDoorbell) && decide (s.time.tick + 1 < e.2.lastDoorbell + ticksOf s.time.period 1000000))

/-- LTR_IDLE_REPORT (R207): no requirement after 1 ms without a doorbell or completion. -/
def execLtrIdleReport (s : State) : Answer := .next { s with pcie := { s.pcie with ltrUs := if s.hostActive then some 40 else none } }

/-! ### Configuration writes (R184 to R187, R201 to R203) -/

/-- Whether a write covers the byte at an offset and sets a bit of it. -/
def setsBit (off : Nat) (bs : List Byte) (at0 bit : Nat) : Bool :=
  decide (off ≤ at0) && decide (at0 < off + bs.length) && (bs.getD (at0 - off) 0).getLsbD bit

/-- What follows a change of configuration: VF Enable or NumVFs that take VFs away reset them, Bus Master Enable set releases, a D-state change
is made, and unmasked pending vectors are sent. -/
def State.afterCfg (s old : State) (fn off : Nat) (bs : List Byte) : State :=
  let s1 := if fn = 1 ∨ fn = 2 then ((old.vfsOf fn).filter (fun v => !(s.vfsOf fn).contains v)).foldl State.flrVf s else s
  let s2 := if !old.bme fn && s1.bme fn then s1.release fn else s1
  let s3 := if fn < 3 ∧ off ≤ 0x44 ∧ 0x44 < off + bs.length then
      (match (bs.getD (0x44 - off) 0).toNat % 4 with
       | 3 => if (s2.fn fn).d3 then s2 else s2.enterD3 fn
       | 0 => s2.returnD0 fn
       | _ => s2)
    else s2
  (s3.fn fn).pba.foldl (State.sendPending fn) s3

/-- The bits of a status register of 4 bytes at `base` that remain after a write that clears those it writes as 1. -/
def clearOnes (v : Word) (base off : Nat) (bs : List Byte) : Word :=
  let kept := (List.range 4).map (fun k =>
    let b := BitVec.ofNat 8 (v.toNat / 2 ^ (8 * k))
    if off ≤ base + k ∧ base + k < off + bs.length then b &&& ~~~ (bs.getD (base + k - off) 0) else b)
  BitVec.ofNat 32 (ofLe kept)

/-- VF Enable, bit 0 of SR-IOV Control, cannot be set while the host has given fewer than 33 bus numbers (R183). -/
def keepVfEnable (fn buses : Nat) (old new : FMap Byte) : FMap Byte :=
  if (fn = 1 ∨ fn = 2) ∧ buses < 33 ∧ (Mem.rd old 0x150).getLsbD 0 = false then Mem.wr new 0x150 (Mem.rd new 0x150 &&& 0xFE#8) else new

/-- CONFIG_WRITE (R185): a function in an FLR answers Request Retry Status. Bit 15 of Device Control starts an FLR; PME_Status, the error bits of
Status and Device Status and the AER status bits (R194) are cleared by writing 1. The write tells the endpoint its bus number (R183). -/
def State.configWrite (old : State) (fn off width : Nat) (v : Word) (bus : Byte) (buses : Nat) : State :=
  let s := { old with pcie := { old.pcie with bus := bus.toNat } }
  if width ∉ [1, 2, 4] ∨ off % width ≠ 0 ∨ 4096 < off + width then old
  else if !s.fnExists fn then (s.unsupported fn false).mmioFail cplUr
  else if (s.fn fn).flr then s.mmioFail 2
  else
    let bs := leBytes width v.toNat
    if setsBit off bs 0x79 7 then
      (if fn < 3 then s.flrPf fn else s.flrVf fn).mmioFail cplSc
    else
      let f := s.fn fn
      let c1 := cfgWrite fn f.cfg off bs
      let c2 := if fn < 3 ∧ setsBit off bs 0x45 7 then Mem.wr c1 0x45 (Mem.rd c1 0x45 &&& 0x7F#8) else c1
      let f1 := { f with cfg := keepVfEnable fn buses f.cfg c2, aerUncor := clearOnes f.aerUncor 0x104 off bs,
                         aerCor := clearOnes f.aerCor 0x110 off bs,
                         status := (clearOnes (f.status.zeroExtend 32) 0x06 off bs).truncate 16,
                         devStatus := (clearOnes (f.devStatus.zeroExtend 32) 0x7A off bs).truncate 8 }
      ((s.setFn fn f1).afterCfg s fn off bs).mmioFail cplSc

/-- CONFIG_WRITE. -/
def execConfigWrite (fn off : Nat) (width : Nat) (value : Word) (s : State) (bus : Byte := 0) (buses : Nat := 0) : Answer :=
  .next (s.configWrite fn off width value bus buses)

/-! ### Geleath's own reads (R192, R195 to R197) -/

/-- A TX caravan's bytes have been read: its item is offered to an engine (R257), or the read's failure settles it (R195). -/
def State.txArrive (s : State) (n : Nat) (g : ReadGroup) : State :=
  match s.op n with
  | none => s
  | some o =>
    if o.dead then s
    else if g.status ≠ 0 then ((s.dropHostName o.handle).setOp n (some { o with handle := 0 })).finishOp n g.status 0
    else
      let s1 := (s.bufWrite o.handle 0 (Mem.rdN g.data 0 g.len)).swapOwner o.handle ownHost ownRx
      let (le, s2) := s1.freeEngine
      (s2.setOp n (some { o with handle := 0 })).arrive le (replyArrival 2 (some n) o.inst o.gen o.arg o.handle g.len 1 0 0)

/-- A POST to unit 1 has its data: it lands in the buffer at OFFSET, and the reply carries the status of R195 (R271). -/
def State.unitRead (s : State) (g : ReadGroup) (r : PostReq) : State :=
  let h := BitVec.ofNat 32 (fieldLe r.block 0x14 4)
  let s1 := if g.status = 0 then s.bufWrite h (fieldLe r.block 0x18 4) (Mem.rdN g.data 0 g.len) else s
  (s1.swapOwner h ownHost ownRx).reply r 2 h g.len g.status

/-- A logical read has ended: its data goes where it was wanted. -/
def State.deliverRead (s : State) (n : Nat) (g : ReadGroup) : State :=
  if g.dead then s.closeDead n g
  else
    let s1 := s.dropGroup n
    match g.use with
    | .unit r => s1.unitRead g r
    | .txPayload op => s1.txArrive op g
    | .rdma qpn op off retx => s1.payloadRead qpn op off retx g.status (Mem.rdN g.data 0 g.len)
    | .responder qpn reg key off retx => s1.readServed qpn reg key off retx g.status (Mem.rdN g.data 0 g.len)

/-- One request of a group has ended. -/
def State.requestEnded (s : State) (r : ReadReq) (status : Byte) (bytes : List Byte) : State :=
  match FMap.get none s.pcie.groups r.group with
  | none => s
  | some g =>
    let g1 := groupAfter g r status bytes
    if g1.left = 0 then s.deliverRead r.group g1
    else { s with pcie := { s.pcie with groups := FMap.set none s.pcie.groups r.group (some g1) } }

/-- The tag use of a tag. -/
def State.tagUse (s : State) (t : Nat) : Option TagUse := FMap.get none s.pcie.tags t

/-- Take a tag out of use. -/
def State.dropTag (s : State) (t : Nat) : State := { s with pcie := { s.pcie with tags := FMap.set none s.pcie.tags t none } }

/-- The oldest waiting read is issued while a tag is free (R192). -/
def State.issueWaiting (s : State) : State :=
  match s.pcie.waiting with
  | r :: rest => if s.freeTag.isSome then ({ s with pcie := { s.pcie with waiting := rest } }).issueRead r else s
  | [] => s

/-- The quarantine of a tag: function, tick of the timeout, tick of its end. -/
def State.quarantineOf (s : State) (t : Nat) : Option (Nat × Nat × Nat) := FMap.get none s.pcie.quarantine t

/-- LATE_COMPLETION (R197): discarded, reported as advisory and logged. -/
def State.lateCompletion (s : State) (t : Nat) : State :=
  match s.quarantineOf t with
  | some q => (s.aerAdvisory q.1 16).log 0x0406 (t * 65536 + q.1) (s.time.tick - q.2.1)
  | none => s

/-- DMA_READ_COMPLETION (R195): the tag is freed; after an FLR the data is discarded without a report. A completion for a tag in quarantine is a
late one (R197), and one that matches nothing is unexpected (R194). -/
def State.completion (s : State) (t : Nat) (o : CplOutcome) : State :=
  match s.tagUse t with
  | some u => (s.dropTag t).requestEnded u.req (cplStatus o) (match o with | .data b => b | _ => [])
  | none => if (s.quarantineOf t).isSome then s.lateCompletion t else s.aerAdvisory 0 16

/-- DMA_READ_COMPLETION. -/
def execDmaReadCompletion (tag : Nat) (outcome : CplOutcome) (s : State) : Answer := .next (s.completion tag outcome)

/-- WAITING_READ_ISSUE (R192). -/
def execWaitingReadIssue (s : State) : Answer := .next s.issueWaiting

/-- COMPLETION_TIMEOUT (R196, R197): at the first tick boundary after the timeout has elapsed, with the event and the quarantine; of a function that was
reset there is no AER report (R201). -/
def State.cplExpired (s : State) (t : Nat) : State :=
  match s.tagUse t with
  | none => s
  | some u =>
    if s.time.tick ≤ u.issued + u.timeout then s
    else
      let s1 := (s.dropTag t).requestEnded u.req 3 []
      let s2 := { s1 with pcie := { s1.pcie with quarantine := FMap.set none s1.pcie.quarantine t (some (u.req.fn, s.time.tick, s.time.tick + 2 * u.timeout)) } }
      (if u.orphan then s2 else s2.aerUncor u.req.fn 14).log 0x0405 (t * 65536 + u.req.fn) (s.time.tick - u.issued)

/-- COMPLETION_TIMEOUT. -/
def execCompletionTimeout (tag : Nat) (s : State) : Answer := .next (s.cplExpired tag)

/-- QUARANTINE_END (R197): the tag returns to the pool. -/
def State.endQuarantine (s : State) (t : Nat) : State :=
  match s.quarantineOf t with
  | some q => if q.2.2 ≤ s.time.tick then { s with pcie := { s.pcie with quarantine := FMap.set none s.pcie.quarantine t none } } else s
  | none => s

/-- QUARANTINE_END. -/
def execQuarantineEnd (tag : Nat) (s : State) : Answer := .next (s.endQuarantine tag)

/-- LATE_COMPLETION. -/
def execLateCompletion (tag : Nat) (s : State) : Answer := .next (s.lateCompletion tag)

end Sys2Proof.Machine
end

