-- ==== Sys2Proof/Machine/Repair.lean ====
section
/-!
DEFINITION. Meanings of the repair and wear rows (18) and of MEMBER_QUEUES_DRAINED, POWER_STAGE_FAULT and FREE_LIST_REBUILD_COMPLETE.
-/

namespace Sys2Proof.Machine

/-- The row or column group's macro and element, or the DRAM row, must exist (log 2). -/
def rowExists (r : PatrolRow) : Bool :=
  match r with
  | .sramRow m n => decide (m < 4608) && decide (n < 65535)
  | .sramCol m g => decide (m < 4608) && decide (g < 65535)
  | .dramRow c d b _ => decide (c < 4) && decide (d < 8) && decide (b < 16)

/-- Whether a row belongs to a unit in service: resting and retired yards and retired channels are not patrolled (R387). -/
def State.rowInService (s : State) (r : PatrolRow) : Bool :=
  match r with
  | .dramRow c _ _ _ => s.repair.channels.getD c false
  | .sramRow m _ => (match Config.macroHome m with | .yard y => decide (s.yardUse y = .active) | _ => true)
  | .sramCol m _ => (match Config.macroHome m with | .yard y => decide (s.yardUse y = .active) | _ => true)

/-- The bytes that a row or column group holds: whether of DRAM, and the spans (log 38). -/
def rowSpans (r : PatrolRow) : Bool × List (Nat × Nat) :=
  match r with
  | .sramRow m n => (false, if Config.macroHome m = .packet then Config.macroSpan m false n else [])
  | .sramCol m g => (false, if Config.macroHome m = .packet then Config.macroSpan m true g else [])
  | .dramRow c d b n => (true, Config.dramSpan c d b n)

/-- Whether an address lies in a row. -/
def inRow (r : PatrolRow) (a : Bool × Nat) : Bool := decide (a.1 = (rowSpans r).1) && (rowSpans r).2.any (fun p => decide (p.1 ≤ a.2) && decide (a.2 < p.2))

/-- PATROL_TEST (R387, R388): a test changes no contents; a weak row is repaired or retired. A row that was reported is tested with the others, and also
while no pass runs (R156, R367). The test that ends a pass is recorded (R411). -/
def execPatrolTest (r : PatrolRow) (weak : Bool) (s : State) (endsPass : Bool := false) : Answer :=
  .next (if s.managed && rowExists r && s.rowInService r && (s.repair.patrolOn || s.repair.reported.any (inRow r)) then
      let s1 := { s with repair := { s.repair with reported := s.repair.reported.filter (fun a => !inRow r a) } }
      let s2 := if weak then s1.weak r else s1
      if endsPass && s.repair.patrolOn then s2.logRepair 5 0 0 0 else s2
    else s)

/-- CORRECTED_BURST (R366, R388): 16 or more corrections in a second are logged, and the row is repaired when it fails again on retest. -/
def execCorrectedBurst (mac count : Nat) (r : PatrolRow) (weak : Bool) (s : State) : Answer :=
  .next (
    let s1 := { s with repair := { s.repair with corrected := bump s.repair.corrected mac count } }
    if count < 16 then s1
    else
      let s2 := s1.log 0x0803 mac count
      if s2.managed && rowExists r && weak then s2.weak r else s2)

/-- STRESS_UPDATE (R389): once per PTP second each active yard's count grows; a resting yard's does not. -/
def execStressUpdate (ws : List YardWear) (s : State) : Answer :=
  .next (ws.foldl (fun s w =>
    if s.managed && decide (s.yardUse w.yard.val = .active) then
      { s with repair := { s.repair with stress := bump s.repair.stress w.yard.val (Config.stressGrowth w.tjMilliK w.used w.avail) } }
    else s) s)

/-- STRESS_SAVE (R389, R415): the counts go to the journal once a day, one record per yard. -/
def execStressSave (s : State) : Answer :=
  .next ((List.range 34).foldl (fun s y => s.requestAppend 5 (y * 2 ^ 32 + s.stress y / 2 ^ 20 % 2 ^ 32)) s)

/-- CONSUMED_RECOMPUTE (R413). -/
def execConsumedRecompute (s : State) : Answer :=
  .next { s with repair := { s.repair with
    consumed := Config.consumed ((List.range 11).map (FMap.get 0 s.repair.used)) ((List.range 34).map s.stress) } }

/-- A rotation of a named pair starts when no swap runs and the pair may change places. -/
def State.rotate (s : State) (out inn : Nat) (asked : Bool) : State :=
  match s.logicalYard out with
  | some l => s.startSwap out inn l asked
  | none => s

/-- A rotation starts at once, or waits behind the swap that runs (R390). -/
def State.startRotate (s : State) (out inn : Nat) (asked : Bool) : State :=
  if s.repair.swap.isNone then s.rotate out inn asked
  else
    let w : Swap := { out := out, inn := inn, logical := (s.logicalYard out).getD 0, stage := .waiting, forced := false, asked := asked, due := 0, saved := [],
                      settled := false }
    { s with repair := { s.repair with forcedWait := s.repair.forcedWait ++ [w] } }

/-- REST_ROTATION_DUE (R390): the highest-stress active yard and the lowest-stress resting yard, unless the former is not higher or is already on its
way out. While PWR_FAIL_WARN_N is asserted no rotation starts (R453). -/
def execRestRotationDue (s : State) : Answer :=
  .next (if s.managed && s.repair.rotationOn && !s.power.warn then
      (match s.highestActive, s.lowestRest with
       | some a, some r => if s.stress r < s.stress a && !s.leaving a then s.startRotate a r false else s
       | _, _ => s)
    else s)

/-- YARD_TEST_COMPLETE (R391, R392, R396): a yard that passes is mirrored, or, for a forced swap, is ready with zeroed memories; one that
fails is retired and the other resting yard is tried. -/
def execYardTestComplete (yard : Fin 34) (pass : Bool) (s : State) : Answer :=
  .next (match s.repair.swap with
    | some w =>
      if w.inn ≠ yard.val ∨ w.stage ≠ .testing ∨ s.managed = false then s
      else if pass then { s with repair := { s.repair with swap := some { w with stage := if w.forced then .mirrored else .mirroring, due := s.turnFrom } } }
      else
        let s1 := s.dropSwap.retireRest w.inn
        (match s1.lowestRest with
         | some y => { s1 with repair := { s1.repair with swap := some { w with inn := y } } }
         | none =>
           if w.forced then
             (((s1.retireUnit 0).addEntry 2 { type := 3, unit := w.logical, source := w.out, target := 0xFFFF }).dropRecover (.yard w.out)).nextSwap
           else (s1.endRotate w (vPlain 0x10) []).nextSwap)
    | none => s)

/-- MIRROR_COMPLETE (R392, R393): the swap may be applied from the first turn that the deadline of R24 leaves it. -/
def execMirrorComplete (yard : Fin 34) (s : State) : Answer :=
  .next (match s.repair.swap with
    | some w => if w.inn = yard.val ∧ w.stage = .mirroring then { s with repair := { s.repair with swap := some { w with stage := .mirrored, due := s.turnFrom } } } else s
    | none => s)

/-- Whether the self-check's finding makes a yard failing (R394): control checks do from 16 in a PTP second on. -/
def State.failing (s : State) (y : Nat) (k : YardFault) : Bool :=
  decide (s.yardUse y = .active) &&
    (match k with | .controlChecks => decide (16 ≤ FMap.get 0 s.repair.checkFails y) | _ => true)

/-- YARD_FAULT_DETECTED (R396): the forced swap begins at the next turn. A planned swap of the same yard gives way. -/
def execYardFaultDetected (yard : Fin 34) (k : YardFault) (s : State) : Answer :=
  .next (
    let y := yard.val
    match s.logicalYard y with
    | none => s
    | some l =>
      if !s.failing y k || s.repair.forcedWait.any (fun w => decide (w.out = y) && w.forced) then s
      else
        let s1 := match s.repair.swap with | some w => if w.out = y then s.abandonSwap else s | none => s
        let w : Swap := { out := y, inn := 0, logical := l, stage := .waiting, forced := true, asked := false, due := 0, saved := [], settled := false }
        let s2 := { s1 with repair := { s1.repair with forcedWait := s1.repair.forcedWait.filter (fun (x : Swap) => decide (x.out ≠ y)) ++ [w] } }
        s2.addRecover (.yard y))

/-- LASER_BIAS_CHECK (R397): above 1.5 times its value at manufacture the laser that serves the lane is replaced as R93 plans it. -/
def execLaserBiasCheck (lane : Fin 20) (biasUa tempX16 : Nat) (s : State) : Answer :=
  .next (
    let n := laneGroup lane.val * 5 + s.laneUnit 1 lane.val
    let s1 := { s with repair := { s.repair with bias := FMap.set 0 s.repair.bias n biasUa,
                                                 laserTemp := FMap.set 0 s.repair.laserTemp (laneGroup lane.val) tempX16 } }
    if 3 * Config.laserBiasAtBuild n < 2 * biasUa then s1.planLane 1 lane.val else s1)

/-- LASER_FAILURE (R397). -/
def execLaserFailure (lane : Fin 20) (s : State) : Answer := .next (s.loseLane 1 lane.val)

/-- ELECTRICAL_LANE_REPLACEMENT (R398). -/
def execElectricalLaneReplacement (lane : Fin 20) (s : State) : Answer :=
  .next (if s.managed then s.planLane 2 lane.val else s.loseLane 2 lane.val)

/-- MEMBER_QUEUES_DRAINED (R93): a removed member's queues are empty, so the replacement is made. -/
def execMemberQueuesDrained (lane : Fin 16) (s : State) : Answer :=
  .next (
    let k := FMap.get 0 s.repair.laneWork lane.val
    let out := match s.lane? lane.val with | some l => l.removal && !l.distributing | none => false
    if k ≠ 0 ∧ out = true ∧ s.laneDrained lane.val = true ∧ s.managed = true then s.replaceLane k lane.val else s)

/-- DRAM_CHANNEL_RETIREMENT (R401). -/
def execDramChannelRetirement (channel : Fin 4) (s : State) : Answer := .next (if s.managed then s.retireChannel channel.val else s)

/-- CHANNEL_MOVE_COMPLETE (R401): the new layout takes over at the next turn. -/
def execChannelMoveComplete (s : State) : Answer :=
  .next (if s.repair.moving.isSome then { s with repair := { s.repair with moveDone := true } } else s)

/-- FREE_LIST_REBUILD_COMPLETE (R156). -/
def execFreeListRebuildComplete (pool : Fin 7) (s : State) : Answer :=
  .next (match s.pool? (pool.val + 1) with | some p => if p.rebuilding then s.rebuildPool (pool.val + 1) else s | none => s)

/-- MP_HEARTBEAT_LOSS (R403): the active MP is held in reset; the fail-over comes at a turn. -/
def execMpHeartbeatLoss (s : State) : Answer :=
  .next (if s.boot.mpRunning && s.managed && s.repair.mpFail.isNone then
      let m := s.repair.mpActive
      ({ s with repair := { s.repair with mps := modifyAt s.repair.mps m (fun _ => false), mpFail := some m } }).addRecover .mp
    else s)

/-- MP_RELOAD_COMPLETE (R405): the reloaded MP becomes the standby; after three failed reloads it is retired. Each reload increments its
epoch (R209). -/
def execMpReloadComplete (ok : Bool) (s : State) : Answer :=
  .next (match s.repair.mpReloading with
    | none => s
    | some m =>
      let s0 := s.epochBump (srcMp m)
      if ok then
        let img := s0.selectSlot.map (fun x => (x, hdrSeq (s0.slotHdr x), fieldLe (s0.slotHdr x) 12 4))
        let s1 := { s0 with repair := { s0.repair with mps := modifyAt s0.repair.mps m (fun _ => true), mpReloading := none, mpReloads := 0 },
                            boot := { s0.boot with standby := img } }
        if s1.boot.mpRunning then s1
        else ({ s1 with boot := { s1.boot with mpRunning := true }, repair := { s1.repair with mpActive := m } }).swapImages.dropRecover .mp
      else if s0.repair.mpReloads + 1 < 3 then { s0 with repair := { s0.repair with mpReloads := s0.repair.mpReloads + 1 } }
      else
        let s1 := { s0 with repair := { s0.repair with mpReloading := none, mpReloads := 0 } }
        let s2 := if FMap.get 0 s1.repair.used 9 = 0 then s1.useSpare 9 else s1.retireUnit 9
        s2.addEntry 2 { type := 9, unit := m, source := 0xFFFF, target := 0xFFFF })

/-- A Farrier is reloaded (R408): whether its heartbeat comes back is open (log 6); one that stays without after `last` is retired. -/
def State.reloadFarrier (s : State) (n : Nat) (last : Bool) : Bool × State :=
  let (ok, s0) := (s.epochBump (srcFarrier n)).freshBit
  let set := fun (b : Bool) (s : State) =>
    { s with repair := { s.repair with farriers := modifyAt s.repair.farriers n (fun _ => b), farrierUp := modifyAt s.repair.farrierUp n (fun _ => b) } }
  if ok then (true, set true s0)
  else
    let s1 := set false s0
    (false, if last then
      (if FMap.get 0 s1.repair.used 10 = 0 then s1.useSpare 10 else s1.retireUnit 10).addEntry 2 { type := 9, unit := 2 + n, source := 0xFFFF, target := 0xFFFF }
    else s1)

/-- FARRIER_TAKEOVER (R407, R408): after 4 missed beats the standby takes over; a mirror starts again. -/
def execFarrierTakeover (missed : Nat) (s : State) : Answer :=
  .next (
    let a := s.repair.farrierActive
    if missed < 4 ∨ s.repair.farrierUp.getD (other a) false = false ∨ s.managed = false then s
    else
      let sw := s.repair.swap.map (fun (w : Swap) => if !w.forced && decide (w.stage = .mirrored) then { w with stage := .mirroring } else w)
      let s1 := { s with repair := { s.repair with farrierActive := other a, swap := sw } }
      ((s1.log 0x0B01 (other a) missed).logRepair 6 0 0 0).reloadFarrier a false |>.2)

/-- A forced swap that had its step 1 and now has no spare to finish with: step 1 stands as a permanent retirement (R396, R409). -/
def State.forsake (s : State) (w : Swap) : State :=
  if w.forced && w.settled then
    ((s.retireUnit 0).addEntry 2 { type := 3, unit := w.logical, source := w.out, target := 0xFFFF }).dropRecover (.yard w.out)
  else s

/-- The swaps of a device whose repairs nobody manages: those asked for end, those of failing yards come down to step 1 of R396, and the others
are dropped. -/
def State.dropSwaps (s : State) : State :=
  let ws := (match s.repair.swap with | some w => [w] | none => []) ++ s.repair.forcedWait
  let s1 := { s with repair := { s.repair with swap := none, forcedWait := ws.filter (fun (w : Swap) => w.forced && !w.settled) } }
  ws.foldl (fun (s : State) w => if w.forced then s.forsake w else s.endRotate w (vPlain 1) []) s1

/-- REPAIR_UNMANAGED (R409): both Farriers are lost. No spare is put in service and no rotation or patrol runs from here on. -/
def execRepairUnmanaged (s : State) : Answer :=
  .next (if s.dev.unmanaged then s
    else
      let s1 := s.dropSwaps
      { s1 with dev := { s1.dev with unmanaged := true },
                repair := { s1.repair with farrierUp := [false, false], farriers := [false, false] } }.log 0x0B02 0 0)

/-- POWER_STAGE_FAULT (R399): the stage is disabled; the device state is not changed. -/
def execPowerStageFault (stage : Fin 14) (s : State) : Answer :=
  .next (if s.repair.stages.getD stage.val false then
      let s1 := { s with repair := { s.repair with stages := modifyAt s.repair.stages stage.val (fun _ => false) } }
      let s2 := if FMap.get 0 s1.repair.used 7 < 2 then s1.useSpare 7 else s1.retireUnit 7
      s2.addEntry 2 { type := 8, unit := stage.val, source := 0xFFFF, target := 0xFFFF }
    else s)

end Sys2Proof.Machine
end

