-- ==== Sys2Proof/Machine/Boot.lean ====
section
/-!
DEFINITION. Start-up (19): a full reset as at PWR_GOOD, the repair map applied, selection, stage 1, the release of the processors and yards,
the recovery window, and the journal's rows.
-/

namespace Sys2Proof.Machine

/-! ### A full reset (R233, R402, R480, R481) -/

/-- What power-up and a full reset share: everything outside the always-on domains, the tack room, the flash and the host is as at PWR_GOOD.
The sizes recorded for the next reset take effect (R16, R130, R143); power loss forgets them (log 54). -/
def State.coldBoot (s : State) (straps : Straps) : State :=
  { State.reset with
      pending := s.pending, freeCtr := s.freeCtr, hostMem := s.hostMem, nv := s.nv,
      dev := { Device.reset with controlMib := s.dev.controlMibNext, controlMibNext := s.dev.controlMibNext },
      ports := Ports.reset straps.stackEn,
      tm := Tm.reset straps.stackEn,
      cls := { Cls.reset with tablePlan := s.cls.tablePlanNext, tablePlanNext := s.cls.tablePlanNext },
      pools := Pools.reset s.pools.nextSizes s.pools.nextCounts,
      pcie := { Pcie.reset with perst := s.pcie.perst },
      events := { Events.reset with faultN := s.events.faultN },
      boot := { Boot.reset straps with coldStart := s.boot.coldStart },
      stack := Stack.reset straps,
      power := { s.power with capCfg := 0, thermalCap := none, level := 0, cappedTicks := 0, pwrGood := true, lasersOff := false, mctpEid := 0,
                              mctpReply := none },
      monitor := { Monitor.reset with out := s.monitor.out } }

/-- Every state that is not held in the tack room or the flash is lost (R454). -/
def State.losePower (s : State) : State :=
  let t := State.reset
  let s1 := { s with pools := { s.pools with nextSizes := t.pools.nextSizes, nextCounts := t.pools.nextCounts },
                     dev := { s.dev with controlMibNext := t.dev.controlMibNext }, cls := { s.cls with tablePlanNext := t.cls.tablePlanNext },
                     boot := { s.boot with coldStart := true }, events := { s.events with faultN := true } }
  let s2 := s1.coldBoot s.boot.straps
  { s2 with power := { s2.power with pwrGood := false, lasersOff := true, warn := false, inSag := false, prevUnsafe := none, estimate := 0 } }

/-- FULL_DEVICE_RESET (R233, R481): the reset that DEVICE_RESET asked for. The straps are taken as they were last sampled (log 54). -/
def execFullDeviceReset (s : State) : Answer :=
  .next (match s.dev.resetAt with | some t => if t ≤ s.time.tick then s.coldBoot s.boot.straps else s | none => s)

/-- DRAM_CHANNEL_UNRESPONSIVE (R402): the channel is recorded as retired, and Geleath resets fully. -/
def execDramChannelUnresponsive (channel : Fin 4) (s : State) : Answer :=
  .next (if s.repair.channels.getD channel.val false then
      (s.jAppend 1 (mapWord { type := 7, unit := channel.val, source := 0xFFFF, target := 0xFFFF })).coldBoot s.boot.straps
    else s)

/-! ### The repair map (R385, R386, R411) -/

/-- The fused words up to the entry of type 0xF that ends them. -/
def fusedWords : List (BitVec 64) → List Nat
  | [] => []
  | w :: ws => if bits w.toNat 60 4 = 15 then [] else w.toNat :: fusedWords ws

/-- The words of the map: fuses first, then the journal. -/
def State.mapWords (s : State) : List Nat := fusedWords Config.fusedRepairs ++ (s.nv.journal.filter (fun r => decide (r.kind = 1))).map (·.value)

/-- A word whose CHECK fails is logged under a code that the spec does not give (log 54). -/
def State.badMapWord (s : State) : State :=
  let (c, s1) := s.freshNat
  s1.log (c % 65536) 0 0

/-- One entry applied; one of a reserved type is skipped. -/
def State.readEntry (s : State) (e : MapEntry) : State :=
  if 1 ≤ e.type ∧ e.type ≤ 10 then { s with repair := { s.repair with map := applyEntry s.repair.map e } } else s

/-- One word applied: one whose CHECK fails is skipped and logged, under a code that the spec does not give (log 54). -/
def State.readWord (s : State) (w : Nat) : State := (mapOfWord w).elim s.badMapWord s.readEntry

/-- Words applied in order. -/
def State.readMap (ws : List Nat) (s : State) : State := ws.foldl State.readWord s

/-- One more unit of a row out of service: spares first, then retirements (R382). -/
def State.oneLost (s : State) (r spares : Nat) : State := if FMap.get 0 s.repair.used r < spares then s.useSpare r else s.retireUnit r

/-- An entry takes effect (R384, R386); the yard map is applied by `applyYards`. -/
def State.applyMapEntry (s : State) (e : MapEntry) : State :=
  let rp := s.repair
  let gone := decide (e.target = 0xFFFF)
  match e.type with
  | 1 =>
    if gone then
      (match Config.macroHome e.unit with
       | .packet => (Config.macroSpan e.unit false e.source).foldl (fun (s : State) sp => s.withdrawSpan [1, 2, 3, 4] sp) (s.retireUnit 1)
       | .other => { s.retireUnit 1 with repair := { (s.retireUnit 1).repair with withdrawnRows := rp.withdrawnRows ++ [(e.unit, e.source)] } }
       | .yard _ => s.retireUnit 1)
    else ({ s with repair := { rp with sramRows := bump rp.sramRows e.unit 1 } }).useSpare 1
  | 2 =>
    if gone then
      (match Config.macroHome e.unit with
       | .packet => (Config.macroSpan e.unit true e.source).foldl (fun (s : State) sp => s.withdrawSpan [1, 2, 3, 4] sp) (s.retireUnit 2)
       | .other => { s.retireUnit 2 with repair := { (s.retireUnit 2).repair with withdrawnRows := rp.withdrawnRows ++ [(e.unit, e.source)] } }
       | .yard _ => s.retireUnit 2)
    else ({ s with repair := { rp with sramCols := bump rp.sramCols e.unit 1 } }).useSpare 2
  | 4 =>
    if gone then (if e.source < 4 then (s.setLaneCut (e.unit * 4 + e.source) .failed false).retireUnit 3 else s.retireUnit 3)
    else ({ s with repair := { rp with lasers := FMap.set 0 rp.lasers e.unit (1 + e.source) } }).useSpare 3
  | 5 =>
    if gone then (if e.source < 4 then (s.setLaneCut (e.unit * 4 + e.source) .failed false).retireUnit 4 else s.retireUnit 4)
    else ({ s with repair := { rp with elanes := FMap.set 0 rp.elanes e.unit (1 + e.source) } }).useSpare 4
  | 6 =>
    if gone then
      let s1 := { s.retireUnit 5 with repair := { (s.retireUnit 5).repair with dramRows := bump rp.dramRows (e.unit / 128) 1 } }
      let rel := fun (sp : Nat × Nat) => (sp.1 - s1.dataBase, sp.2 - s1.dataBase)
      (Config.dramSpan (e.unit / 128) (e.unit / 16 % 8) (e.unit % 16) e.source).foldl (fun (s : State) sp => s.withdrawSpan [5, 6, 7] (rel sp)) s1
    else ({ s with repair := { rp with ppr := FMap.set 0 rp.ppr e.unit 1 } }).useSpare 5
  | 7 => ({ s with repair := { rp with channels := modifyAt rp.channels e.unit (fun _ => false) } }).oneLost 6 1
  | 8 => ({ s with repair := { rp with stages := modifyAt rp.stages e.unit (fun _ => false) } }).oneLost 7 2
  | 9 =>
    if e.unit < 2 then ({ s with repair := { rp with mps := modifyAt rp.mps e.unit (fun _ => false) } }).oneLost 9 1
    else
      ({ s with repair := { rp with farriers := modifyAt rp.farriers (e.unit - 2) (fun _ => false),
                                    farrierUp := modifyAt rp.farrierUp (e.unit - 2) (fun _ => false) } }).oneLost 10 1
  | 10 => ({ s with repair := { rp with flash := modifyAt rp.flash e.unit (fun _ => false) } }).oneLost 8 1
  | _ => s

/-- The yard map (R384): YARD_MAP entries bind logical yards and retire physical ones; every other physical yard rests. The spread entries of a
logical yard that is retired name the others (R141). -/
def State.applyYards (s : State) : State :=
  let es := s.repair.map.filter (fun e => decide (e.type = 3))
  let ymap := es.foldl (fun (m : List (Option Nat)) e =>
    if e.unit < 32 then modifyAt m e.unit (fun _ => if e.target < 34 then some e.target else none) else m) s.erg.ymap
  let retired := (es.filter (fun e => decide (e.target = 0xFFFF))).map (·.source)
  let use := (List.range 34).map (fun y => if retired.contains y then YardUse.retired else if ymap.contains (some y) then .active else .resting)
  let replaced := es.filter (fun e => decide (e.unit < 32) && decide (e.target < 34) && retired.contains e.source)
  let s1 := { s with erg := { s.erg with ymap := ymap }, repair := { s.repair with yardUse := use } }
  let lost := (use.filter (fun u => decide (u = .retired))).length
  let s2 := { s1 with repair := { s1.repair with used := bump s1.repair.used 0 replaced.length,
                                                 retired := bump s1.repair.retired 0 (lost - replaced.length) } }
  (List.range 32).foldl (fun (s : State) l =>
    let ys := s.otherYards l
    if (s.erg.ymap.getD l none).isSome || ys.isEmpty then s else s.writeSpread (respread ys 0 (s.spreadOf l))) s2

/-- The STRESS counts of the journal (R389, R415). -/
def State.loadStress (s : State) : State :=
  (s.nv.journal.filter (fun r => decide (r.kind = 5))).foldl (fun (s : State) r =>
    { s with repair := { s.repair with stress := FMap.set 0 s.repair.stress (bits r.value 32 6) (r.value % 2 ^ 32 * 2 ^ 20) } }) s

/-- The repair map is applied, and the repair log rebuilt with one record for each entry in force (R386, R411). The endpoint leaves reset (R429)
with CAPACITY filled (R215). -/
def State.applyMap (s : State) : State :=
  let s1 := State.readMap s.mapWords s
  let s2 := (s1.repair.map.foldl State.applyMapEntry s1).applyYards.loadStress
  let s3 := s2.repair.map.foldl (fun (s : State) e => s.logRepair 8 e.type 0 (mapWord e)) s2
  { s3 with boot := { s3.boot with stage := .repaired, endpointUp := true }, dev := { s3.dev with capacity := s3.capacityWord } }

/-- Whether the module waits for its repair map in native boot. -/
def State.nativeWait (s : State) : Bool := s.power.pwrGood && decide (s.boot.stage = .waitRepair) && !s.boot.straps.compatBoot

/-- REPAIR_APPLIED (R386, R427): the first Farrier to run becomes the active one. -/
def execRepairApplied (farrierB : Bool) (s : State) : Answer :=
  .next (if s.nativeWait then
      let s1 := s.applyMap
      { s1 with repair := { s1.repair with farrierActive := b2n farrierB } }
    else s)

/-- LAST_RESORT_REPAIR (R409): the sequencer applies the map and restarts Farrier A, then Farrier B. Whether one comes back is open (log 6). -/
def execLastResortRepair (s : State) : Answer :=
  .next (if s.nativeWait then
      let (okA, s1) := s.applyMap.reloadFarrier 0 false
      if okA then { s1 with repair := { s1.repair with farrierActive := 0, farrierUp := [true, false] } }
      else
        let (okB, s2) := s1.reloadFarrier 1 false
        if okB then { s2 with repair := { s2.repair with farrierActive := 1 } }
        else { s2 with dev := { s2.dev with unmanaged := true } }.log 0x0B02 0 0
    else s)

/-! ### Processors (R414, R427, R430) -/

/-- Processors are released. -/
def State.start (s : State) (ps : List Nat) : State :=
  { s with boot := { s.boot with started := s.boot.started ++ ps.filter (fun p => !s.boot.started.contains p) } }

/-- Where a released processor started: at its boot vector, or at its ROM entry, which is `none`. In compatibility boot a Farrier starts from its firmware
load, as `none` too. -/
def State.bootEntry (s : State) (p : Nat) : Option Word :=
  if Config.bootVector p = 0 ∨ (s.boot.straps.compatBoot = true ∧ 3 ≤ p) then none else some (Config.bootVector p)

/-! ### Selection and stage 1 (R423, R427, R430 to R433) -/

/-- The state without an image that runs. -/
def State.noImage (s : State) : State :=
  { s with boot := { s.boot with stage := .repaired, runSlot := none, runSeq := 0, runVersion := 0, fromRecovery := false, window := false,
                                 windowHeld := false, preSelect := false } }

/-- The SP opens a recovery window. -/
def State.openWindow (s : State) : State := { s with boot := { s.boot with window := true, windowHeld := false } }

/-- The SP ROM selects a slot and runs its stage 1; when none passes, the device enters RECOVERY_WAIT with the recovery personality (R423, R432). -/
def State.selectImage (s : State) : State :=
  let s0 := s.noImage
  match s0.selectSlot with
  | some n =>
    let h := s0.slotHdr n
    let s1 := if s0.floor < hdrSeq h then s0.jAppend 3 (hdrSeq h % 2 ^ 32 + n * 2 ^ 32) else s0
    { s1 with boot := { s1.boot with stage := .selected, runSlot := some n, runSeq := hdrSeq h, runVersion := fieldLe h 12 4, recoveryPers := false },
              pcie := if s1.boot.recoveryPers then { s1.pcie with linkUp := false } else s1.pcie,
              dev := { s1.dev with recoveryWait := false } }
  | none =>
    ({ s0 with boot := { s0.boot with recoveryPers := true }, dev := { s0.dev with recoveryWait := true } }).openWindow

/-- A round starts: with BOOT_MODE 11 its recovery window opens before selection (R431). -/
def State.startRound (s : State) : State :=
  let s1 := { s.noImage with boot := { s.noImage.boot with rounds := s.boot.rounds + 1 } }
  if s1.boot.straps.bootMode = 3#2 then { s1.openWindow with boot := { s1.openWindow.boot with preSelect := true } } else s1.selectImage

/-- Every domain but the always-on ones and the endpoint is reset (R427, R432, R457): the SP and both MPs; the other units had not started. -/
def State.resetDomains (s : State) : State :=
  let s1 := s.epochBump srcSp
  let s2 := (s1.epochBump (srcMp 0)).epochBump (srcMp 1)
  { s2 with boot := { s2.boot with started := s2.boot.started.filter (fun p => decide (3 ≤ p)) },
            monitor := { s2.monitor with baud := 115200, baudNext := none, load := none } }

/-- A module in DECOMMISSIONED (R421): no image runs, both image areas and journal banks are erased, and RECOVERY_WAIT is reported. -/
def State.decommissioned (s : State) : State :=
  let erased := fun (c : FMap Byte) => chipErase c 0 imageEnd
  let s1 := s.noImage
  { s1 with nv := { s1.nv with journal := [], bankUsed := 0, chip0 := erased s1.nv.chip0, chip1 := erased s1.nv.chip1 },
            boot := { s1.boot with stage := .stuck, recoveryPers := true }, dev := { s1.dev with recoveryWait := true } }

/-- The SP counts a power cycle once (R415), and corrects an unsafe shutdown that did not come about (R455). -/
def State.spAppends (s : State) : State :=
  if s.power.warn then s
  else
    let s1 := if s.boot.coldStart then { s.jAppend 6 (s.jLast 6 + 1) with boot := { s.boot with coldStart := false } } else s
    match s1.power.prevUnsafe with
    | some c => if s1.power.st = .feed then { s1.jAppend 8 c with power := { s1.power with prevUnsafe := none } } else s1
    | none => s1

/-- SP_RELEASE (R427, R430): on the repair-applied line; in compatibility boot the SP comes first and applies the map itself. While PWR_FAIL_WARN_N is
asserted no append starts, and the SP waits with its selection (R417, log 54). -/
def execSpRelease (s : State) : Answer :=
  .next (
    let go := s.power.pwrGood && !s.power.warn && decide (s.boot.rounds = 0) && decide (s.boot.stage = (if s.boot.straps.compatBoot then .waitRepair else .repaired))
    if !go then s
    else
      let s1 := (if s.boot.straps.compatBoot then s.applyMap else s).start [0]
      if s1.nv.lifecycle = 3 then s1.decommissioned else s1.spAppends.startRound)

/-- RECOVERY_WINDOW_EXPIRY (R431, R432): a load that runs holds the window open. With BOOT_MODE 11 the round goes on to its selection; else the
next round starts. -/
def execRecoveryWindowExpiry (s : State) : Answer :=
  .next (if !s.boot.window || s.boot.windowHeld || s.monitor.load.isSome || s.power.warn then s
    else if s.boot.preSelect then s.selectImage
    else (s.resetDomains.start [0]).startRound)

/-- Bytes of the body of the image that stage 1 comes from: the slot's, or the staging area's (R433). -/
def State.runBody (s : State) (off n : Nat) : List Byte :=
  match s.boot.runSlot with
  | some slot => s.slotBody slot off n
  | none => Mem.rdN s.dram (s.dataBase + 0x2000 + off) n

/-- The header of that image. -/
def State.runHdr (s : State) : List Byte :=
  match s.boot.runSlot with
  | some slot => s.slotHdr slot
  | none => Mem.rdN s.dram s.dataBase 0x2000

/-- Each Farrier is told of its firmware (R427): a load notice in the MP's mailbox to it. Where the firmware lies in the control region is open
(log 54). -/
def State.loadNotice (s : State) (mb : Nat) : State :=
  let (a, s1) := s.freshNat
  s1.setMb mb ((s1.mb mb).post a (fieldLe s.runHdr 0x24 4) (s1.stamp (srcMp s1.repair.mpActive)))

/-- Stage 1 completes (R427, R428): it checks the digests of the MP and Farrier firmware, locks the fences and posts the release event, on which
MP A becomes active and MP B standby. A digest failure is a failure of the slot. -/
def State.stage1Done (s : State) : State :=
  if s.boot.stage ≠ .selected then s
  else if partOk s.runHdr s.runBody 1 && partOk s.runHdr s.runBody 2 then
    let a := if s.repair.mps.getD 0 false then 0 else 1
    let b := s.boot
    let s1 := { s with boot := { b with stage := .released, mpRunning := true, fenced := true,
                                        standby := if s.repair.mps.all id then b.runSlot.map (fun n => (n, b.runSeq, b.runVersion)) else none },
                       repair := { s.repair with mpActive := a } }
    ((s1.start [1, 2]).start (if s1.boot.straps.compatBoot then [3, 4] else [])).loadNotice 136 |>.loadNotice 144
  else if s.power.warn then s
  else
    let s1 := { s with boot := { s.boot with tried := match s.boot.runSlot with | some n => s.boot.tried ++ [n] | none => s.boot.tried } }
    (s1.resetDomains.start [0]).selectImage

/-- RELEASE_EVENT (R427, R431): with SAFE_HOLD high stage 1 stops before it. -/
def execReleaseEvent (s : State) : Answer := .next (if s.boot.straps.safeHold then s else s.stage1Done)

/-- YARD_RELEASE (R11, R102): STARTING ends and TESTING begins; the firmware has loaded the default parse graph. -/
def execYardRelease (s : State) : Answer :=
  .next (if s.boot.mpRunning && decide (s.boot.stage = .released) then
      let c := s.cls.cur
      { s with boot := { s.boot with stage := .yards }, dev := { s.dev with starting := false, testing := true },
               cls := { s.cls with cur := { c with graph := Config.defaultGraph.foldl (fun (m : FMap (List Byte)) n => FMap.set [] m n.1 n.2) c.graph } } }
    else s)

/-- BUILT_IN_TEST_END (R11): TESTING ends. Whether the device is RUNNING or DEGRADED follows from its capacity; what a failed test takes out
of service is reported by the rows of that unit (log 54). -/
def execBuiltInTestEnd (_pass : Bool) (s : State) : Answer := .next { s with dev := { s.dev with testing := false } }

/-- BOOT_OK (R423): appended when the device state first becomes RUNNING or DEGRADED in a power-up. -/
def State.noteFirstRun (s : State) : State :=
  if s.boot.firstRun.isSome || !(s.dev.state ∈ [2, 3]) then s
  else
    let s1 := { s with boot := { s.boot with firstRun := some s.time.sec, bootOk := true } }
    match s.boot.runSlot with
    | some n => s1.requestAppend 4 (s.boot.runSeq % 2 ^ 32 + n * 2 ^ 32)
    | none => s1

/-! ### Recovery loads (R433) -/

/-- The check of a loaded image (R433): it needs no marker. -/
def State.loadStatus (s : State) (image : List Byte) : Byte :=
  let h := image.take 0x2000
  let st := s.hdrStatus h (image.length - 0x2000)
  if st ≠ 0 then st
  else if !partOk h (fun off n => slice image (0x2000 + off) n) 0 then 0x08
  else if hdrSeq h < s.floor ∨ (s.boot.straps.compatBoot = true ∧ bitOf (fieldLe h 7 1) 0 = false) then 0x0F
  else 0

/-- The image lands in the staging area at the base of the DRAM data region. -/
def State.stageImage (s : State) (image : List Byte) : State := { s with dram := Mem.wrN s.dram s.dataBase image }

/-- An image that passes runs from stage 1; the endpoint returns to the normal personality after a link retrain. -/
def State.runLoaded (s : State) (image : List Byte) : State :=
  { s with boot := { s.boot with stage := .selected, runSlot := none, runSeq := hdrSeq image, runVersion := fieldLe image 12 4, fromRecovery := true,
                                 window := false, windowHeld := false, recoveryPers := false },
           pcie := if s.boot.recoveryPers then { s.pcie with linkUp := false } else s.pcie,
           dev := { s.dev with recoveryWait := false } }

/-- RECOVERY_LOAD (R433): the block that HM0 brought, taken in the window; a load during another one ends REFUSED. A block
that only checks (R227) is answered and not loaded. -/
def execRecoveryLoad (h : MbHdr) (addr : DWord) (len : Nat) (image : List Byte) (s : State) : Answer :=
  .next (match FMap.get none s.mbadel.taken 0 with
    | none => s
    | some (ptr, blen) =>
      if h.hm.val ≠ 0 ∨ s.boot.window = false then s
      else
        let s0 := { s with mbadel := { s.mbadel with taken := FMap.set none s.mbadel.taken 0 none, order := s.mbadel.order.filter (· ≠ 0) } }
        if s0.monitor.load.isSome then s0.endCmd 0 ptr blen false (vPlain 0x0F)
        else if h.readStatus ≠ 0 ∨ ptr % 64 ≠ 0 ∨ h.length ≠ blen ∨ blen < 76 ∨ addr.toNat % 4096 ≠ 0 ∨ len < 8192 ∨ 50331648 < len then
          s0.endCmd 0 ptr blen false (vPlain 0x0A)
        else
          let bs := padTo len image
          let st := s0.loadStatus bs
          if h.checkOnly then s0.endCmd 0 ptr blen false (vPlain st)
          else
            let s2 := (s0.stageImage bs).endCmd 0 ptr blen false (vPlain st)
            if st = 0 then s2.runLoaded bs else s2)

/-! ### The journal (R415 to R417) -/

/-- JOURNAL_APPEND (R416): the SP programs the next record that was asked for; a torn one is absent. While PWR_FAIL_WARN_N is asserted no step
starts (R417, R453). -/
def execJournalAppend (torn : Bool) (s : State) : Answer :=
  .next (match s.repair.appends with
    | (k, v) :: rest =>
      if s.power.warn || !s.boot.mpRunning || decide (16384 ≤ s.nv.bankUsed) then s
      else
        let s1 := { s with repair := { s.repair with appends := rest } }
        if torn then { s1 with nv := { s1.nv with bankUsed := s1.nv.bankUsed + 1 } } else s1.jAppend k v
    | [] => s)

/-- JOURNAL_COMPACTION (R417): the records in force and a BANK_HEAD of the next generation. A torn one leaves the old bank in force. -/
def execJournalCompaction (torn : Bool) (s : State) : Answer :=
  .next (if s.nv.bankUsed < 12288 ∨ s.power.warn = true ∨ torn = true ∨ s.power.pwrGood = false then s
    else
      let n := s.nv
      let js := inForce n.journal n.journal
      { s with nv := { n with journal := js, jseq := n.jseq + 1, bankGen := n.bankGen + 1, bankUsed := js.length + 1 } })

/-- POWER_ON_HOURS (R415). -/
def execPowerOnHours (s : State) : Answer := .next (if s.power.pwrGood then s.requestAppend 7 (s.jLast 7 + 1) else s)

end Sys2Proof.Machine
end

