-- ==== Sys2Proof/Machine/Control.lean ====
section
/-!
DEFINITION. Meanings of the engines' control instructions (R36, R37): branches and jumps, FENCE, and the instructions that end or hold
the thread.
-/

namespace Sys2Proof.Machine

/-- BRANCH (R36): latency 3 when taken, else 1. A target that is not a multiple of 2 cannot arise; its fetch is judged when it issues. -/
def execBranch (i : Issue) (c : BrCond) (rs1 rs2 : Fin 32) (off : BitVec 13) (s : State) : Answer :=
  .next (s.issue i (fun s pe k cyc =>
    let t := s.thr pe k
    if brHolds c (t.reg rs1.val) (t.reg rs2.val) then s.retire i cyc 3 (t.pc + off.signExtend 32) id
    else s.retire i cyc 1 (s.nextPc i) id))

/-- JAL (R36). -/
def execJal (i : Issue) (rd : Fin 32) (off : BitVec 21) (s : State) : Answer :=
  .next (s.issue i (fun s pe k c =>
    let link := s.nextPc i
    s.retire i c 3 ((s.thr pe k).pc + off.signExtend 32) (fun t => t.setReg rd.val link)))

/-- JALR (R36): the target's bit 0 is cleared. -/
def execJalr (i : Issue) (rd rs1 : Fin 32) (imm : BitVec 12) (s : State) : Answer :=
  .next (s.issue i (fun s pe k c =>
    let link := s.nextPc i
    s.retire i c 3 (((s.thr pe k).reg rs1.val + imm.signExtend 32) &&& ~~~1#32) (fun t => t.setReg rd.val link)))

/-- FENCE (R37): posted stores complete in the model as they execute; the wait for them is a free number of cycles (log 5). -/
def execFence (i : Issue) (s : State) : Answer :=
  .next (s.issue i (fun s _ _ c =>
    let (w, s1) := s.freshNat
    s1.retire i c (1 + w) (s1.nextPc i) id))

/-- ECALL (R37): fault cause 0x09. -/
def execEcall (i : Issue) (s : State) : Answer :=
  .next (s.issue i (fun s pe k _ => s.faultFree pe k 9))

/-- EBREAK (R37, R86): a worker is held when DBGEN is set, and in FIELD only under an unlock; otherwise, and on T0, fault cause 0x08. -/
def execEbreak (i : Issue) (s : State) : Answer :=
  .next (s.issue i (fun s pe k _ =>
    if k ≠ 0 ∧ (s.eng pe).dbgen = true ∧ s.debugAllowed (pe / 32) = true then s.holdThread pe k 8 else s.faultFree pe k 8))

/-- FENCE.I (R37): ILLEGAL. -/
def execFenceI (i : Issue) (s : State) : Answer :=
  .next (s.issue i (fun s pe k _ => s.fault pe k 1 fenceIWord))

/-- WFI (R37): ILLEGAL. -/
def execWfi (i : Issue) (s : State) : Answer :=
  .next (s.issue i (fun s pe k _ => s.fault pe k 1 wfiWord))

/-- YIELDT (R50): the item ends with the status in bits 7:0 of rs1. -/
def execYieldt (i : Issue) (rs1 : Fin 32) (s : State) : Answer :=
  .next (s.issue i (fun s pe k _ =>
    (s.modThr pe k (fun t => { t with instret := t.instret + 1 })).yieldItem pe k (((s.thr pe k).reg rs1.val).extractLsb' 0 8)))

end Sys2Proof.Machine
end

