-- ==== Sys2Proof/Machine/Csr.lean ====
section
/-!
DEFINITION. Meanings of the CSR instructions (R39 to R41, R44, R65, R66, R79, R80).
-/

namespace Sys2Proof.Machine

/-- The value of a CSR as a context reads it in cycle `c`; none for an absent one (R39). sxarr reads 0xFFFF_FFFF while nothing is selected, at
reset too, where the table's reset column says 0 (log 61). -/
def State.csrRead (s : State) (pe k c csr : Nat) : Option Nat :=
  let e := s.eng pe
  let t := e.thr k
  let now := s.engBase pe + c
  let tick := match e.itemOf k with | some it => it.tick | none => 0
  match csr with
  | 0x301 => some 0x40801104
  | 0xF11 => some 0
  | 0xF12 => some 0
  | 0xF13 => some 0x100
  | 0xF14 => some (s.mhartid pe k)
  | 0xC00 => some now
  | 0xC80 => some (now / 2 ^ 32)
  | 0xC02 => some t.instret
  | 0xC82 => some (t.instret / 2 ^ 32)
  | 0x7C0 => some e.dwin.toNat
  | 0x7C1 => some e.slotLo.toNat
  | 0x7C2 => some e.slotHi.toNat
  | 0x7C3 => some e.sxgctl
  | 0xFC0 => some tick
  | 0xFC1 => some (tick / 2 ^ 32)
  | 0xFC2 => some (s.sxeid pe k)
  | 0xFC3 => some (s.sxgate c)
  | 0xFC4 => some e.sxbank
  | 0xFC5 => some (match t.sel with | some i => i | none => 0xFFFFFFFF)
  | 0xFC6 => some s.sxperiod
  | 0xFC7 => some e.stale.toNat
  | _ => none

/-- The CSRs that can be written; only T0 may write them (R39). -/
def csrWritable (csr : Nat) : Bool := csr ∈ [0x7C0, 0x7C1, 0x7C2, 0x7C3]

/-- A write to a slot register (R65, R66): in force from the first cycle whose count is a multiple of 16 after the write. -/
def Engine.writeSlots (e : Engine) (now : Nat) (lo hi : Word) : Engine :=
  let f := e.slots now
  { e with slotLo := lo &&& 0x3FFFFFF8#32, slotHi := hi &&& 0x3FFFF#32, oldLo := BitVec.ofNat 32 f.1, oldHi := BitVec.ofNat 32 f.2,
           slotFrom := (now / 16 + 1) * 16 }

/-- The ending of one thread by ENDMASK (R80): no effect on a FREE or HELD thread. -/
def State.endMasked (s : State) (pe k : Nat) (status : Byte) : State :=
  let t := s.thr pe k
  if t.st = .free ∨ t.held = true then s else s.endOther pe k status false

/-- A write to sxgctl (R79, R80, R84): DBGEN with the lifecycle rule, MWAUTO, DISMISS, OVF, then ENDMASK in ascending thread order. -/
def State.writeGctl (s : State) (pe : Nat) (v : Nat) : State :=
  let e := s.eng pe
  let dbgen := if bitOf v 0 then (if s.debugAllowed (pe / 32) then true else e.dbgen) else false
  let e1 := { e with dbgen := dbgen, mwauto := bitOf v 1, ovf := e.ovf && !bitOf v 3 }
  let e2 := if bitOf v 2 then [1, 2, 3, 4, 5, 6, 7].foldl (fun e k => e.setThr k { e.thr k with mw := false, dismissed := (e.thr k).mw || (e.thr k).dismissed }) e1 else e1
  let s1 := s.setEng pe e2
  let st := bits v 16 8
  if st = 0 ∨ st = 0x0C ∨ 0x12 ≤ st then s1
  else [1, 2, 3, 4, 5, 6, 7].foldl (fun s k => if bitOf v (7 + k) then s.endMasked pe k (BitVec.ofNat 8 st) else s) s1

/-- A write by T0 to a CSR, in cycle `c`. -/
def State.csrStore (s : State) (pe c csr : Nat) (v : Word) : State :=
  let e := s.eng pe
  match csr with
  | 0x7C0 => s.setEng pe { e with dwin := v }
  | 0x7C1 => s.setEng pe (e.writeSlots (s.engBase pe + c) v e.slotHi)
  | 0x7C2 => s.setEng pe (e.writeSlots (s.engBase pe + c) e.slotLo v)
  | 0x7C3 => s.writeGctl pe v.toNat
  | _ => s

/-- A CSR instruction (R39): an absent CSR or a write to a read-only one is ILLEGAL, a worker's write is GROOM_ONLY, a read of sxstale
clears it; latency 2. -/
def State.csrOp (s : State) (i : Issue) (form : CsrForm) (csr : Nat) (src : CsrSrc) (rd : Fin 32) : State :=
  s.issue i (fun s pe k c =>
    let t := s.thr pe k
    let writes := csrWrites form src
    match s.csrRead pe k c csr with
    | none => s.fault pe k 1 (csrWord form csr src rd.val)
    | some old =>
      if writes && !csrWritable csr then s.fault pe k 1 (csrWord form csr src rd.val)
      else if writes && decide (k ≠ 0) then s.faultFree pe k 4
      else
        let oldW := BitVec.ofNat 32 old
        let s1 := if csr = 0xFC7 then s.setEng pe { s.eng pe with stale := 0 } else s
        let s2 := s1.writeBack i c 2 rd.val oldW
        if writes then s2.csrStore pe c csr (csrNew form oldW (csrSrcValue t src)) else s2)

/-- CSR_WRITE (R39): a CSR instruction on any CSR. -/
def execCsrWrite (i : Issue) (form : CsrForm) (csr : BitVec 12) (src : CsrSrc) (rd : Fin 32) (s : State) : Answer :=
  .next (s.csrOp i form csr.toNat src rd)

/-- SXDWIN_WRITE (R44). -/
def execSxdwinWrite (i : Issue) (form : CsrForm) (src : CsrSrc) (rd : Fin 32) (s : State) : Answer :=
  .next (s.csrOp i form 0x7C0 src rd)

/-- SXSLOT_WRITE (R65): sxslothi when `hi` holds, else sxslotlo. -/
def execSxslotWrite (i : Issue) (hi : Bool) (form : CsrForm) (src : CsrSrc) (rd : Fin 32) (s : State) : Answer :=
  .next (s.csrOp i form (if hi then 0x7C2 else 0x7C1) src rd)

/-- SXSTALE_READ (R39): a read with no write. -/
def execSxstaleRead (i : Issue) (rd : Fin 32) (s : State) : Answer :=
  .next (s.csrOp i .rs 0xFC7 (.reg 0) rd)

/-- DBGEN_WRITE (R79): a write to sxgctl. -/
def execDbgenWrite (i : Issue) (form : CsrForm) (src : CsrSrc) (rd : Fin 32) (s : State) : Answer :=
  .next (s.csrOp i form 0x7C3 src rd)

/-- DISMISS (R84): a write to sxgctl. -/
def execDismiss (i : Issue) (form : CsrForm) (src : CsrSrc) (rd : Fin 32) (s : State) : Answer :=
  .next (s.csrOp i form 0x7C3 src rd)

/-- OVF_CLEAR (R79): a write to sxgctl. -/
def execOvfClear (i : Issue) (form : CsrForm) (src : CsrSrc) (rd : Fin 32) (s : State) : Answer :=
  .next (s.csrOp i form 0x7C3 src rd)

/-- ENDMASK (R80): a write to sxgctl. -/
def execEndmask (i : Issue) (form : CsrForm) (src : CsrSrc) (rd : Fin 32) (s : State) : Answer :=
  .next (s.csrOp i form 0x7C3 src rd)

end Sys2Proof.Machine
end

