-- ==== Sys2Proof/Machine/CommitOps.lean ====
section
/-!
DEFINITION. Work queues in the commit and at the turn (12): admin commands that settle, aborts, queues that are created, destroyed or reset,
and the completions that follow (R263, R266 to R268).
-/

namespace Sys2Proof.Machine

/-- Caravans aborted before their fetch are settled ABORTED once they come first among those not fetched (R262, R267). -/
def skipAborted (key : Nat) : Nat → State → State
  | 0, s => s
  | n + 1, s =>
    match s.queue key with
    | some q =>
      if q.aborted.contains q.head then
        match s.unfetched q with
        | c :: _ =>
          let q1 := { q with head := (q.head + c.count) % q.size, aborted := q.aborted.erase q.head,
                             caravans := q.caravans ++ [{ c with out := some (1, 0, q.plainFlags) }] }
          skipAborted key n ((s.setQueue key (some q1)).drain key)
        | [] => s
      else s
    | none => s

/-- The oldest of some caravans with a TAG. -/
def byTag (tag : DWord) (cs : List Caravan) : Option Caravan := cs.find? (fun c => decide (c.tag = tag))

/-- Whether a caravan with a TAG that is older than one at a slot completed in this commit: it lies further behind the tail. -/
def State.publishedBefore (s : State) (key : Nat) (q : Queue) (tag : DWord) (slot : Nat) : Bool :=
  s.queues.published.any (fun p => decide (p.1 = key) && decide (p.2.1 = tag) &&
    decide (ringDist q.size slot q.tail < ringDist q.size p.2.2 q.tail))

/-- ABORT in its commit, after the commit's completions (R267, R268): the state after it, and its status. The oldest caravan with the TAG counts, one
that completed in this commit among them. -/
def State.abortTarget (s : State) (key : Nat) (tag : DWord) : State × Byte :=
  match s.queue key with
  | none => (s, 0x11)
  | some q =>
    match byTag tag q.caravans with
    | some c =>
      if c.out.isSome || s.publishedBefore key q tag c.first then (s, 2)
      else
        let s1 := s.endCaravan q c
        let set := fun (v : Queue) =>
          { v with caravans := v.caravans.map (fun (x : Caravan) =>
                     if x.first = c.first then { x with op := noOp, out := some (1, 0, q.plainFlags) } else x),
                   rxBufs := v.rxBufs.filter (fun (b : RxBuf) => decide (b.slot ≠ c.first)) }
        ((s1.modQueue key set).drain key, 0)
    | none =>
      if s.queues.published.any (fun p => decide (p.1 = key) && decide (p.2.1 = tag)) then (s, 2)
      else match byTag tag ((s.unfetched q).filter (fun c => !q.aborted.contains c.first)) with
        | some c =>
          let s1 := s.setQueue key (some { q with aborted := q.aborted ++ [c.first] })
          (skipAborted key q.size (if q.type = 3 then s1.errorCtx q.bind 1 else s1), 0)
        | none => (s, 0x11)

/-- Outstanding caravans of a queue, fetched or not. -/
def State.outstanding (s : State) (q : Queue) : Nat := q.caravans.length + (s.unfetched q).length

/-- STATE of a queue (R235): ABSENT, ACTIVE, MASTER_OFF (R198: the function holds its requests and work is stalled) or ERROR. -/
def State.queueState (s : State) (key : Nat) : Nat :=
  match s.queue key with
  | none => 0
  | some q => if q.error then 3 else if s.holds (keyFn key) = true ∧ s.outstanding q ≠ 0 then 2 else 1

/-- The result of QUERY_QUEUE from offset +32 of its block (R263). -/
def State.queryBytes (s : State) (key : Nat) : List Byte :=
  match s.queue key with
  | none => zeros 11
  | some q =>
    [BitVec.ofNat 8 (s.queueState key), 0] ++ leBytes 2 q.ownedFrom ++ leBytes 2 q.tail ++ leBytes 2 (s.outstanding q) ++
      leBytes 2 (q.cqNext % q.cqSize) ++ [BitVec.ofNat 8 (b2n (decide (q.cqNext / q.cqSize % 2 = 0)))]

/-- An admin command settles in its commit (R263). -/
def State.settleDue (s : State) (d : AdminDue) : State :=
  match d with
  | .finish _ op status bytes => s.finishOp op status bytes
  | .query key op target addr =>
    if (s.queue target).isNone then s.finishOp op 0x11 0 else (s.hostWrite (keyFn key) (addr + 32) (s.queryBytes target)).finishOp op 0 0
  | .abort _ op target tag => let (s1, st) := s.abortTarget target tag; s1.finishOp op st 0

/-- Every admin command that waits for this commit: those that only finish or query first, then the aborts (R23, R268). -/
def State.settleAllDue (s : State) : State :=
  let isAbort := fun (d : AdminDue) => match d with | .abort _ _ _ _ => true | _ => false
  let s1 := { s with queues := { s.queues with due := [] } }
  (s.queues.due.filter isAbort).foldl State.settleDue ((s.queues.due.filter (fun d => !isAbort d)).foldl State.settleDue s1)

/-- How many of some caravans end ABORTED. -/
def abortedOf (cs : List Caravan) : Nat := (cs.filter (fun c => decide ((c.out.getD (1, 0, 0)).1 = 1))).length

/-- Completions of an ended queue, while its ring has room: the queue, and how many ABORTED ones could not be written (R263, R266). A caravan that had
settled before gives its operation back now (R261). -/
def writeEnded (key : Nat) : State → Queue → List Caravan → State × Queue × Nat
  | s, q, [] => (s, q, 0)
  | s, q, c :: cs =>
    if q.cqSize ≤ q.unread then ((c :: cs).foldl (fun (s : State) c => s.killOp c.op) s, q, abortedOf (c :: cs))
    else
      let (s1, q1) := s.putCompletion key q c (c.out.getD (1, 0, q.plainFlags))
      writeEnded key (s1.killOp c.op) q1 cs

/-- An ended queue's caravans complete in the commit that follows the turn, then the admin command does (R266). A destroyed queue's message is
requested with them. -/
def State.settleEnding (s : State) (e : Ending) : State :=
  if e.destroy then
    let (s1, q, left) := writeEnded e.key s e.q e.aborted
    (if 0 < q.pendCount then s1.msix (keyFn e.key) q.vector else s1).finishOp e.op 0 left
  else
    match s.queue e.key with
    | some v =>
      let (s1, q, left) := writeEnded e.key s v e.aborted
      ((s1.setQueue e.key (some q)).drain e.key).finishOp e.op 0 left
    | none => s.finishOp e.op 0 0

/-- Every queue ended at the last turn. -/
def State.settleEndings (s : State) : State :=
  s.queues.endings.foldl State.settleEnding { s with queues := { s.queues with endings := [] } }

/-- A queue is destroyed or reset at a turn (R266, R235): its in-flight work ends, and what is outstanding waits for the next commit. -/
def State.endQueue (s : State) (key adminKey op : Nat) (destroy : Bool) : State :=
  match s.queue key with
  | none => s
  | some q =>
    let s1 := q.caravans.foldl (fun (s : State) c => if c.out.isSome then s else s.endCaravan q c) s
    let s2 := if q.type = 3 then s1.errorCtx q.bind 1 else s1
    let ended := q.caravans.map (fun (c : Caravan) => if c.out.isSome then c else { c with op := noOp })
    let e : Ending := { key := key, q := q, destroy := destroy, aborted := ended ++ s.unfetched q, adminKey := adminKey, op := op }
    let s3 := { s2 with queues := { s2.queues with endings := s2.queues.endings ++ [e] } }
    s3.setQueue key (if destroy then none
      else some { q with head := q.tail, oldest := q.tail, caravans := [], rxBufs := [], error := false, aborted := [] })

/-- A queue change at its turn (R253, R263, R266, R270, R298). -/
def State.queueChange (s : State) (c : AdminChange) : State :=
  match c with
  | .create key q => if fnSto (keyFn key) then s.nvEnable (keyFn key) q else s.setQueue key (some q)
  | .finish key adminKey op destroy => if (s.queue key).isNone then s.finishOp op 0x11 0 else s.endQueue key adminKey op destroy
  | .moderate key v t n => s.modQueue key (fun q => { q with vector := v, modTicks := t, modCount := n })
  | .ctlReset fn => s.nvReset fn

/-- Every queue change of a turn. -/
def State.queueChanges (s : State) : State := s.queues.changes.foldl State.queueChange { s with queues := { s.queues with changes := [] } }

/-- Aborted caravans that now come first in their queues are settled. -/
def State.skipAll (s : State) : State :=
  s.queues.qs.foldl (fun (s : State) e => match s.queue e.1 with | some q => if q.aborted.isEmpty then s else skipAborted e.1 q.size s | none => s) s

/-- The NVMe controllers at the end of a commit: aborts and deletions after completions, entries written, messages requested (R299, R311). -/
def State.nvCommit (s : State) : State :=
  s.sto.ctls.foldl (fun (s : State) e => (((s.nvDrain e.1).nvDueAll e.1).nvDrain e.1).nvModerate e.1) s

/-- The work queues at the end of a commit: completions have been published; then admin commands, endings and aborts settle, NVMe
controllers settle, messages are requested and ended operations are freed (R23, R263 to R270, R299). -/
def State.endCommit (s : State) : State := ((s.settleEndings.settleAllDue.skipAll).nvCommit).moderate.sweepOps

end Sys2Proof.Machine
end

