-- ==== Sys2Proof/Machine/Gate.lean ====
section
/-!
DEFINITION. The meaning of GATE (R18, R23, R25): live work items end, and the commit phase publishes what the items of the tick that
yielded have asked for (R52, R150, R167, R168, R281).
-/

namespace Sys2Proof.Machine

/-! ### The endings of the gate (R25, R61, R68, R87, R396) -/

/-- The status of R25's first row that applies to a worker `k` that is not held, at the gate in cycle `gate`: DEADLOCK, TIMEOUT for a receive, a
dismissed wait or a result owed (R36, R84), or LATE (R61; LATE too for an unreported JOIN of a mutual wait, where R85 has TIMEOUT: log 61). A
thread whose event has come is READY (R60). -/
def gateStatus (gate : Nat) (e : Engine) (k : Nat) : Byte :=
  let t := e.thr k
  if e.blocked k && t.mw then 4
  else if e.blocked k && (decide (t.st = .recv) || t.dismissed) || (t.st = .run && t.owed && decide (gate < t.ready)) then 3
  else 5

/-- A held item leaves gate accounting (R25, R87, R88): its posts, enqueues and frees go, its buffers are freed under its owner name, and its
status is DEBUG_HELD. A held child becomes an item of its own whose ending touches nobody else's (R68). -/
def State.gateHeld (s : State) (pe k : Nat) : State :=
  let e := s.eng pe
  let t := e.thr k
  match e.itemOf k with
  | none => s
  | some it =>
    let s1 := s.setEng pe (e.setThr k { t with item := some it, root := k, parent := none, outOfGate := true, effects := [] })
    if t.item.isSome then (s1.dropName it.owner).failItem it 0x0C else s1

/-- A worker that is not held ends at the gate, by its own row; one that ends LATE leaves a fault record whose address word is free (R25, R81,
log 25). `e` is the engine as the gate finds it; `failing` says that the yard has failed in this tick (R396). -/
def State.gateLive (s : State) (e : Engine) (pe k : Nat) (failing : Bool) : State :=
  let t := e.thr k
  let st := if failing then 1 else gateStatus (workCycles s.time.period s.time.gate) e k
  match e.itemOf k with
  | none => s
  | some it =>
    if st = 5 then
      let (v, s1) := s.freshNat
      (s1.faultRecord pe (recordHead 1 10 5 k :: recordTail t it t.pc (BitVec.ofNat 32 v))).endOther pe k 5 true
    else s.endOther pe k st true

/-- Whether a physical yard has failed and waits for step 1 of its forced swap (R396). -/
def State.yardFailing (s : State) (y : Nat) : Bool := s.repair.forcedWait.any (fun w => decide (w.out = y) && w.forced && !w.settled)

/-- The gate ends every item of an engine that is in gate accounting: the held ones leave it, then the others end in thread order. -/
def State.gateEngine (s : State) (pe : Nat) : State :=
  let e := s.eng pe
  let ks := e.live.filter (fun k => !(e.thr k).outOfGate)
  let s1 := (ks.filter (fun k => (e.thr k).held)).foldl (fun (s : State) k => s.gateHeld pe k) s
  (ks.filter (fun k => !(e.thr k).held)).foldl (fun (s : State) k => s.gateLive e pe k (s.yardFailing (pe / 32))) s1

/-- Every engine of the active yards. -/
def State.gateAll (s : State) : State := (FMap.keys s.erg.engines).foldl (fun (s : State) pe => if s.engActive pe then s.gateEngine pe else s) s

/-! ### Transfers (R150, R151, R281) -/

/-- The buffer that a posted block names: its handle, 0 for none (R271, R321, R348, R359, R362). -/
def postHandle (r : PostReq) : Word :=
  let off := match r.unit with
    | 1 => 0x14 | 2 => 0x14 | 3 => 0x0C | 4 => 0x0C | 5 => 0x0C | 6 => if fieldLe r.block 4 1 = 1 then 0x28 else 64 | 7 => 0x20 | _ => 64
  BitVec.ofNat 32 (fieldLe r.block off 4)

/-- The KIND of a unit's replies (R47). -/
def unitKind (unit : Nat) : Nat := match unit with | 3 => 4 | 4 => 4 | 5 => 4 | 6 => 5 | 7 => 6 | _ => 2

/-- The egress port that a frame's queue leads to: its lane, or the member that the frame selects, and a group's first member when it selects
none of this module (R101, R150). -/
def State.portOf (s : State) (q : Nat) (f : QFrame) : Nat :=
  match s.tmq q with
  | none => 0
  | some v =>
    if v.isGroup then
      let first := ((s.group? (v.dest - 0x20)).map (fun (x : Group) => x.order.headD 0)).getD 0
      match s.memberOf (v.dest - 0x20) f with
      | some m => if m < 32 then m else first
      | none => first
    else v.dest

/-- A discarded post carries STALE_GENERATION to its operation, which no completion reports (R261, R281). -/
def State.staleOp (s : State) (op : Option Nat) : State :=
  match op with
  | some n => (match s.op n with
    | some o => if fnSto (keyFn o.key) then (match (s.ctl (keyFn o.key)).out? n with | some x => s.nvDropOut (keyFn o.key) x | none => s) else s.dropOp n
    | none => s)
  | none => s

/-- Step 1 of R150 for one effect: its unit's name goes on the buffer. Answers the effect when it is made. A post of a stale item is discarded
and counted (R281, R294). A handle that is not live names no buffer, and the unit judges it. -/
def State.transfer (s : State) (owner : Half) (x : Effect) : State × List Effect :=
  match x with
  | .enq q f =>
    match s.giveTo f.handle owner ownTm with
    | some s1 => (s1, [x])
    | none => ({ s with pools := { s.pools with ownerFull := bump s.pools.ownerFull (s.portOf q f) 1 } }, [])
  | .post r =>
    if s.staleGen r.inst r.gen && decide (r.unit ∈ [1, 2, 6, 7, 8]) then
      ((s.modInstCtr r.inst.toNat (fun c => { c with staleGen := c.staleGen + 1 })).staleOp r.op, [])
    else if !s.isLive (postHandle r) then (s, [x])
    else match s.giveTo (postHandle r) owner (ownUnit r.unit) with
      | some s1 => (s1, [x])
      | none => (s.reply r (unitKind r.unit) 0 0 9, [])
  | .free _ _ => (s, [x])

/-- Step 1 for the effects of one item, in the order its instructions executed. -/
def transferAll (owner : Half) : State → List Effect → State × List Effect
  | s, [] => (s, [])
  | s, x :: xs =>
    let (s1, a) := s.transfer owner x
    let (s2, b) := transferAll owner s1 xs
    (s2, a ++ b)

/-- Step 2 of R150: each BFFREE removes its name; one whose name has gone is refused and logged (R149). -/
def State.freeOne (s : State) (x : Effect) : State :=
  match x with
  | .free h n => s.removeOwner h n
  | _ => s

/-! ### Publication (R23, R167, R168) -/

/-- Publish the enqueues and posts of an item in order. `heads` are the buffers into which this item's header copy has been made. -/
def publishAll : State → List Word → List Effect → State
  | s, _, [] => s
  | s, heads, .enq q f :: xs =>
    let first := !heads.contains f.handle
    publishAll (s.publishEnq q f first) (if f.flags.getLsbD 6 && first then f.handle :: heads else heads) xs
  | s, heads, .post r :: xs =>
    let s1 :=
      if 3 ≤ r.unit ∧ r.unit ≤ 5 then s.acceptAccel (r.unit - 3) r
      else { s with erg := { s.erg with posted := s.erg.posted ++ [r] } }
    publishAll s1 heads xs
  | s, heads, .free _ _ :: xs => publishAll s heads xs

/-- The operation of an item that failed completes with the item's status (R26, R62). -/
def State.failOp (s : State) (d : DoneItem) : State :=
  match d.op with
  | some n =>
    (match s.op n with
     | some o => if fnSto (keyFn o.key) then s.nvComplete n d.status else s.finishOp n d.status 0
     | none => s)
  | none => s

/-- The items under one owner name, a parent and its children or the runs of one T0, in the order in which they yielded: transfers, then frees,
then the rest of the name, for T0 on the buffers of those runs, then what they publish (R78, R150, R67, log 28). -/
def State.commitOwner (s : State) (ds : List DoneItem) (owner : Half) : State :=
  let mine := ds.filter (fun d => decide (d.owner = owner) && !d.failed)
  if mine.isEmpty then s
  else
    let (s1, xs) := transferAll owner s (mine.map (·.effects)).flatten
    let s2 := xs.foldl State.freeOne s1
    let s3 := s2.dropOwn (owner.toNat % 8) owner (mine.map (·.took)).flatten
    publishAll s3 [] xs

/-- A number put into an ascending list without repeats. -/
def insertAsc (n : Nat) : List Nat → List Nat
  | [] => [n]
  | x :: xs => if n < x then n :: x :: xs else if n = x then x :: xs else x :: insertAsc n xs

/-- The owner names of yielded items, ascending. -/
def doneNames (ds : List DoneItem) : List Half :=
  (((ds.filter (fun d => !d.failed)).map (fun d => d.owner.toNat)).foldr insertAsc []).map (BitVec.ofNat 16)

/-- The commit phase publishes: failed operations complete, frames of lanes that are not UP are freed (R92), then items in ascending order of
name (R168), then the packets that the transports have built and what the MP firmware and the stack send. -/
def State.commitAll (s : State) : State :=
  let ds := s.erg.done
  let s0 := { s with erg := { s.erg with done := [] } }
  let s1 := (ds.filter (fun d => d.failed)).foldl State.failOp s0
  let s2 := (doneNames ds).foldl (fun (s : State) n => s.commitOwner ds n) s1.flushDown
  let out := s2.rdma.outbox
  (out.foldl (fun (s : State) p => s.publishEnq p.1 p.2 true) { s2 with rdma := { s2.rdma with outbox := [] } }).publishMp

/-- GATE (R18, R23, R25): the work phase ends and the commit phase begins. The power estimate of the tick is taken (R459, R461); the causes of device
states that hold, and what the aggregation groups' members are able to do, are noted for the turn (R24, R101). -/
def execGate (estimateMw : Nat) (s : State) : Answer :=
  .next (
    if s.time.phase ≠ .work || !s.power.pwrGood then s
    else
      let s1 := { s with time := { s.time with phase := .commit }, power := { s.power with estimate := estimateMw },
                         dev := { s.dev with gateCauses := s.causes } }
      s1.gateAll.commitAll.harvestAll.noteWants)

end Sys2Proof.Machine
end

