-- ==== Sys2Proof/Machine/HostUnits.lean ====
section
/-!
DEFINITION. Meanings of the requests that engines post to the host units (R51, R271): host reads and writes, receive delivery, completions and
saved arguments.
-/

namespace Sys2Proof.Machine

/-- HANDLE of a host unit's block. -/
def reqHandle (r : PostReq) : Word := BitVec.ofNat 32 (fieldLe r.block 0x14 4)
/-- LEN. -/
def reqLen (r : PostReq) : Nat := fieldLe r.block 0x10 4
/-- OFFSET. -/
def reqOff (r : PostReq) : Nat := fieldLe r.block 0x18 4
/-- HOST_ADDR. -/
def reqAddr (r : PostReq) : Nat := fieldLe r.block 8 8
/-- REPLY. -/
def reqReplies (r : PostReq) : Bool := bitOf (fieldLe r.block 6 1) 0

/-- Whether a block's range lies within its buffer. -/
def State.reqInBuffer (s : State) (r : PostReq) : Bool := s.isLive (reqHandle r) && decide (reqOff r + reqLen r ≤ s.bufSize (reqHandle r))

/-- A request ends with a reply when it asked for one, and its buffer is given back. -/
def State.endWrite (s : State) (r : PostReq) (status : Byte) (always : Bool) : State :=
  let s1 := s.dropHostName (reqHandle r)
  if always || reqReplies r then s1.reply r 2 0 0 status else s1

/-- A host read (R271): the read starts under the item's VF; a range outside the buffer ends BAD_DESCRIPTOR (log 45). -/
def State.hostRead (s : State) (r : PostReq) : State :=
  if s.replyDead r then s.dropHostName (reqHandle r)
  else if !s.reqInBuffer r then (s.dropHostName (reqHandle r)).reply r 2 0 0 0x0A
  else s.startRead (itemFn r.inst) r.inst r.gen (.unit r) [(reqAddr r, reqLen r)]

/-- HOST_DMA_READ (R271). -/
def execHostDmaRead (s : State) : Answer := .next (s.serve (fun r => decide (r.unit = 1)) (fun r s => s.hostRead r))

/-- A host write of MODE 0 (R271): issued or held; its reply comes once the data is issued. -/
def State.hostWriteReq (s : State) (r : PostReq) : State :=
  if s.replyDead r then s.dropHostName (reqHandle r)
  else if !s.reqInBuffer r then s.endWrite r 0x0A true
  else
    let fn := itemFn r.inst
    let bytes := s.bufRead (reqHandle r) (reqOff r) (reqLen r)
    let s1 := s.dropHostName (reqHandle r)
    let after : AfterPlace := if reqReplies r then .hostReply r else .nothing
    match s1.place fn 0 (reqAddr r) bytes after with
    | some s2 => s2
    | none => s1.reply r 2 0 0 9

/-- HOST_DMA_WRITE (R271). -/
def execHostDmaWrite (s : State) : Answer :=
  .next (s.serve (fun r => decide (r.unit = 2) && decide (fieldLe r.block 5 1 = 0)) (fun r s => s.hostWriteReq r))

/-- The posted buffers that a frame of `n` bytes fills, each with its bytes of the frame (offset, length); none when they do not suffice. -/
def fillBufs : List RxBuf → Nat → Nat → Option (List (RxBuf × Nat × Nat))
  | _, _, 0 => some []
  | [], _, _ + 1 => none
  | b :: bs, off, n + 1 =>
    if b.len = 0 then none
    else (fillBufs bs (off + min b.len (n + 1)) (n + 1 - min b.len (n + 1))).map (fun l => (b, off, min b.len (n + 1)) :: l)

/-- Settle the caravan at a slot. -/
def settleSlot (cs : List Caravan) (slot : Nat) (o : Byte × Nat × Nat) : List Caravan :=
  cs.map (fun (c : Caravan) => if c.first = slot ∧ c.op = noOp then { c with out := some o } else c)

/-- A received frame is written into the next posted buffers, then their completions (R261, R271). -/
def State.deliverFrame (s : State) (r : PostReq) (key : Nat) (q : Queue) (fill : List (RxBuf × Nat × Nat)) : State :=
  let fn := keyFn key
  let n := fill.length
  let csum := fieldLe r.block 0x1E 1
  let s1 := fill.foldl (fun (s : State) f => s.dataWrite fn f.1.addr (s.bufRead (reqHandle r) (reqOff r + f.2.1) f.2.2)) s
  let flags := fun (i : Nat) => 2 * b2n (decide (i = 0)) + 4 * b2n (decide (i + 1 = n)) + 8 * (csum % 4)
  let cs := fill.zipIdx.foldl (fun cs f => settleSlot cs f.1.1.slot (0, f.1.2.2, flags f.2)) q.caravans
  let s2 := (s1.setQueue key (some { q with caravans := cs, rxBufs := q.rxBufs.drop n })).drain key
  (if q.wake then s2.pme 1 else s2).endWrite r 0 false

/-- A frame for a receive queue (R271): REFUSED while the instance is frozen (R285), dropped in D3hot and while the hold store is full (R199,
R205), when it still wakes (R206), NO_RESOURCE when too few buffers are posted. -/
def State.rxDeliver (s : State) (r : PostReq) : State :=
  let fn := itemFn r.inst
  let key := qKey fn (fieldLe r.block 0x1C 2)
  if s.replyDead r then s.dropHostName (reqHandle r)
  else if s.isFrozen r.inst.toNat && decide (r.inst ≠ 0xFFFF#16) then
    (s.modInstCtr r.inst.toNat (fun c => { c with frozenDrop := c.frozenDrop + 1 })).endWrite r 0x0F true
  else if !s.reqInBuffer r then s.endWrite r 0x0A true
  else if (s.fn (fnPf fn)).d3 || (!s.bme fn && s.holdFull) then
    let s1 := s.modInstCtr r.inst.toNat (fun c => { c with rxMasterOff := c.rxMasterOff + 1 })
    (if ((s.queue key).map (·.wake)).getD false then s1.pme 1 else s1).endWrite r 9 false
  else match s.queue key with
    | some q =>
      if q.type ≠ 2 then s.endWrite r 9 true
      else match fillBufs q.rxBufs 0 (reqLen r) with
        | some fill => s.deliverFrame r key q fill
        | none => s.endWrite r 9 true
    | none => s.endWrite r 9 true

/-- HOST_DMA_WRITE_RX (R271). -/
def execHostDmaWriteRx (s : State) : Answer :=
  .next (s.serve (fun r => decide (r.unit = 2) && decide (fieldLe r.block 5 1 = 1)) (fun r s => s.rxDeliver r))

/-- The operation that a block of unit 8 names: one is attached when bit 31 is set (R47, R271). -/
def reqOp (r : PostReq) : Option Nat := if bitOf (fieldLe r.block 8 4) 31 then some (fieldLe r.block 8 4 % 2 ^ 16) else none

/-- A request of unit 2 by its MODE (R271). -/
def State.hostWriteAny (s : State) (r : PostReq) : State := if fieldLe r.block 5 1 = 0 then s.hostWriteReq r else s.rxDeliver r

/-- The writer takes its next request of some kind. The data writes of the operation that were posted before it are issued first (R261). -/
def State.serveWriter (s : State) (f : PostReq → Bool) (act : PostReq → State → State) : State :=
  match takeFirst f s.erg.posted with
  | some (r, _) =>
    let data := fun (x : PostReq) => decide (x.unit = 2) && x.op.isSome && decide (x.op = reqOp r)
    let before := (s.erg.posted.takeWhile (fun x => !f x)).filter data
    (before.foldl (fun (s : State) _ => s.serve data (fun r s => s.hostWriteAny r)) s).serve f act
  | none => s

/-- The entry of an operation fails its check in the commit that reads it (R365, R372): the operation completes CONTROL_CHECK and what was posted is
discarded; an entry whose owner cannot be read is withdrawn until reset. -/
def State.entryFailed (s : State) (n : Nat) (ownerLost : Bool) : State :=
  let s1 := s.sramFailed
  match s1.op n with
  | some o =>
    if ownerLost then ({ s1 with queues := { s1.queues with withdrawn := s1.queues.withdrawn ++ [n] } }).setOp n none
    else if fnSto (keyFn o.key) then s1.nvComplete n 0x0E else s1.finishOp n 0x0E 0
  | none => s1

/-- A COMPLETE (R271): the completion is written under R261 and R262, an NVMe command's under R299; the entry is freed with it. -/
def State.completeReq (s : State) (r : PostReq) : State :=
  if s.replyDead r then s
  else
    let status := BitVec.ofNat 8 (fieldLe r.block 5 1)
    let s1 := match reqOp r with
      | some n => (match s.op n with
        | some o => if fnSto (keyFn o.key) then s.nvComplete n status else s.finishOp n status (fieldLe r.block 0xC 4)
        | none => s)
      | none => s
    if reqReplies r then s1.reply r 2 0 0 0 else s1

/-- The writer's request runs when its operation's entry passes the check; else the entry has failed. -/
def State.checkedReq (s : State) (check : EntryCheck) (r : PostReq) (run : State → State) : State :=
  match check, reqOp r with
  | .bad, some n => if s.replyDead r then s else s.entryFailed n false
  | .ownerLost, some n => if s.replyDead r then s else s.entryFailed n true
  | _, _ => run s

/-- COMPLETE (R271). -/
def execComplete (s : State) (check : EntryCheck := .good) : Answer :=
  .next (s.serveWriter (fun r => decide (r.unit = 8) && decide (fieldLe r.block 4 1 = 1)) (fun r s => s.checkedReq check r (fun s => s.completeReq r)))

/-- The eight words of ARG. -/
def reqArg (r : PostReq) : List Word := (List.range 8).map (fun i => BitVec.ofNat 32 (fieldLe r.block (0x20 + 4 * i) 4))

/-- A SAVE (R271): the operation's saved argument is replaced. -/
def State.saveReq (s : State) (r : PostReq) : State :=
  if s.replyDead r then s
  else
    let s1 := match reqOp r with
      | some n => (match s.op n with
        | some o => if o.dead then s else s.setOp n (some { o with arg := reqArg r })
        | none => s)
      | none => s
    if reqReplies r then s1.reply r 2 0 0 0 else s1

/-- SAVE (R271). -/
def execSave (s : State) (check : EntryCheck := .good) : Answer :=
  .next (s.serveWriter (fun r => decide (r.unit = 8) && decide (fieldLe r.block 4 1 = 2)) (fun r s => s.checkedReq check r (fun s => s.saveReq r)))

/-- What the writer's OP asks for. -/
def State.writerReq (s : State) (r : PostReq) : State := if fieldLe r.block 4 1 = 1 then s.completeReq r else s.saveReq r

/-- The writer's requests that are left of a commit, in order: all of them are published in it, before the aborts (R23, R268). -/
def State.serveRest (s : State) : State :=
  s.erg.posted.foldl (fun (s : State) x => if x.unit = 8 then s.serveWriter (fun r => decide (r.unit = 8)) (fun r s => s.writerReq r) else s) s

end Sys2Proof.Machine
end

