-- ==== Sys2Proof/Machine/Integer.lean ====
section
/-!
DEFINITION. Meanings of the integer, multiply, divide and word instructions of the engines (R36, R50).
-/

namespace Sys2Proof.Machine

/-- An instruction that computes a word from the context and writes it to `rd`. -/
def State.compute (s : State) (i : Issue) (lat : Nat) (rd : Fin 32) (f : Thread → Word) : State :=
  s.issue i (fun s pe k c => s.writeBack i c lat rd.val (f (s.thr pe k)))

/-- INTEGER_OP (R36). -/
def execIntegerOp (i : Issue) (op : AluOp) (rd rs1 : Fin 32) (src : Src2) (s : State) : Answer :=
  .next (s.compute i 1 rd (fun t => aluValue op (t.reg rs1.val) (src2Value t src)))

/-- LUI (R36). -/
def execLui (i : Issue) (rd : Fin 32) (imm : BitVec 20) (s : State) : Answer :=
  .next (s.compute i 1 rd (fun _ => imm ++ 0#12))

/-- AUIPC (R36). -/
def execAuipc (i : Issue) (rd : Fin 32) (imm : BitVec 20) (s : State) : Answer :=
  .next (s.compute i 1 rd (fun t => t.pc + (imm ++ 0#12)))

/-- MUL and its high forms (R36). -/
def execMul (i : Issue) (op : MulOp) (rd rs1 rs2 : Fin 32) (s : State) : Answer :=
  .next (s.compute i 3 rd (fun t => mulValue op (t.reg rs1.val) (t.reg rs2.val)))

/-- DIV, DIVU, REM and REMU (R36). -/
def execDiv (i : Issue) (op : DivOp) (rd rs1 rs2 : Fin 32) (s : State) : Answer :=
  .next (s.compute i 34 rd (fun t => divValue op (t.reg rs1.val) (t.reg rs2.val)))

/-- CRC32C (R50, the CRC of R139). -/
def execCrc32c (i : Issue) (rd rs1 rs2 : Fin 32) (s : State) : Answer :=
  .next (s.compute i 1 rd (fun t => crc (t.reg rs1.val) (wordBytes (t.reg rs2.val))))

/-- BSWAP (R50). -/
def execBswap (i : Issue) (rd rs1 : Fin 32) (s : State) : Answer :=
  .next (s.compute i 1 rd (fun t => bswapWord (t.reg rs1.val)))

/-- CSUM16 (R50). -/
def execCsum16 (i : Issue) (rd rs1 rs2 : Fin 32) (s : State) : Answer :=
  .next (s.compute i 1 rd (fun t => csum16Word (t.reg rs1.val) (t.reg rs2.val)))

end Sys2Proof.Machine
end

