-- ==== Sys2Proof/Machine/MbadelPrograms.lean ====
section
/-!
DEFINITION. Loading programs and switching banks (R45, R53, R54, R236).
-/

namespace Sys2Proof.Machine

/-- Whether a program header passes every check of R45. -/
def headerOk (h : List Byte) : Bool :=
  let n := fieldLe h 8 1
  let base := fieldLe h 0x0C 4
  let size := fieldLe h 0x10 2
  decide (fieldLe h 0 4 = 0x58505301) && decide (fieldLe h 4 2 ≠ 0) && decide (1 ≤ n) && decide (n ≤ 16) &&
    decide (1 ≤ fieldLe h 9 1) && decide (fieldLe h 9 1 ≤ 16) && decide (fieldLe h 0x0A 1 ≤ 1) && decide (fieldLe h 0x0B 1 ≤ 4) &&
    decide (0x10000 ≤ base) && decide (base ≤ 0x16FFF) && decide (size % 16 = 0) && decide (base + 8 * size ≤ 0x17000) &&
    (slice h 0x12 14).all (fun b => decide (b = 0)) &&
    (List.range 16).all (fun i =>
      let e := fieldLe h (0x20 + 2 * i) 2
      if i < n then decide (e % 2 = 0) && decide (0x40 ≤ e) && decide (e < 0x4000) else decide (e = 0))

/-- The bank that an image makes. -/
def bankOf (image : List Byte) : Bank :=
  { program := BitVec.ofNat 16 (fieldLe image 4 2), version := BitVec.ofNat 16 (fieldLe image 6 2), batch := fieldLe image 9 1,
    policy := fieldLe image 0x0A 1, minPeriod := fieldLe image 0x0B 1, stackBase := BitVec.ofNat 32 (fieldLe image 0x0C 4),
    stackSize := fieldLe image 0x10 2, entries := (List.range 16).map (fun i => BitVec.ofNat 16 (fieldLe image (0x20 + 2 * i) 2)),
    image := Mem.ofBytes image }

/-- The inactive bank. -/
def Engine.idleBank (e : Engine) : Bank := if e.activeB then e.bankA else e.bankB

/-- Replace the inactive bank. -/
def Engine.loadIdle (e : Engine) (b : Bank) : Engine := if e.activeB then { e with bankA := b } else { e with bankB := b }

/-- The engines of an ENGSET in ascending order; bit (logical yard × 32 + engine). -/
def engsetOf (set : List Nat) : List Nat := (List.range 1024).filter (fun n => set.contains n)

/-- What the checks of R229 and R249 ask of an ENGSET: V2 blocks name only logical yards 0 to 7. -/
def engsetBad (v2 : Bool) (set : List Nat) : Option Nat :=
  if set.any (fun n => decide (1024 ≤ n)) || (v2 && set.any (fun n => decide (256 ≤ n))) then some 0 else none

/-- The first engine of a set whose logical yard has lost its physical yard: its capacity is absent (R13, step 8 of R229). -/
def State.absentEngine (s : State) (set : List Nat) : Option Nat := (engsetOf set).find? (fun n => (s.peng n).isNone)

/-- The physical engines of a set. -/
def State.engset (s : State) (set : List Nat) : List Nat := (engsetOf set).filterMap s.peng

/-- PROGRAM_LOAD (R45, R53, R236). The header checks are the first precondition of its row, whose number DETAIL gives (DESIGN CHOICE, log 42). -/
def execProgramLoad (h : MbHdr) (engset : List Nat) (boundary : Byte) (image : List Byte) (s : State) : Answer :=
  let j : Judge :=
    { need := 136 + image.length,
      bad := match engsetBad h.v2 engset with
        | some o => some o
        | none => if 32 < boundary.toNat then some 128 else if image.length < 64 ∨ 16384 < image.length then some 132 else none,
      objs := [], missing := fun _ => none,
      pre := fun s => firstOf [failIf (!headerOk image) (vPre 1),
        ((s.engset engset).find? (fun pe => (s.eng pe).pendSwitch)).map (vObj 0x0F), (s.absentEngine engset).map (vObj 0x10)] }
  .next (s.runDo h (rowH 0x040D) j (fun s =>
    let s1 := (s.engset engset).foldl (fun (s : State) pe => s.setEng pe ((s.eng pe).loadIdle (bankOf image))) s
    if boundary = 0 then s1
    else ((s.engset engset).map (· / 32)).dedup.foldl
      (fun (s : State) y => s.setYard y { s.yard y with boundaryNext := 0x100000 + 65536 * boundary.toNat }) s1))

/-- The judgement of BANK_SWITCH (R54). -/
def bankJudge (v2 : Bool) (set : List Nat) : Judge :=
  { Judge.plain 136 with
    bad := engsetBad v2 set,
    pre := fun s => firstOf [((s.engset set).find? (fun pe => (s.eng pe).holdEng)).map (vObj 0x0F), (s.absentEngine set).map (vObj 0x10)] }

/-- Mark the engines of a set PENDING, or clear the mark. -/
def State.pendBanks (s : State) (set : List Nat) (b : Bool) : State :=
  (s.engset set).foldl (fun (s : State) pe => s.setEng pe { s.eng pe with pendSwitch := b }) s

/-- BANK_SWITCH's effect: all engines of the set switch in the same turn, and a boundary recorded for a yard takes effect (R236). -/
def State.switchBanks (s : State) (set : List Nat) : State :=
  let s1 := (s.engset set).foldl (fun (s : State) pe => s.setEng pe { s.eng pe with activeB := !(s.eng pe).activeB }) s
  ((s1.engset set).map (· / 32)).dedup.foldl (fun (s : State) y =>
    let v := s.yard y
    if v.boundaryNext = 0 then s else s.setYard y { v with boundary := v.boundaryNext, boundaryNext := 0 }) s1

/-- PROGRAM_QUERY (R236). -/
def execProgramQuery (h : MbHdr) (engset : List Nat) (s : State) : Answer :=
  .next (s.runQuery h (row 0x040F) { Judge.plain 128 with bad := engsetBad h.v2 engset, pre := fun s => (s.absentEngine engset).map (vObj 0x10) }
    (fun s => ((s.engset engset).map (fun pe => leBytes 2 (s.eng pe).bank.program.toNat ++ leBytes 2 (s.eng pe).idleBank.program.toNat)).flatten))

end Sys2Proof.Machine
end

