-- ==== Sys2Proof/Machine/MbadelDevice.lean ====
section
/-!
DEFINITION. Groups 0x01, 0x08, 0x0C, 0x0D and 0x0E (R233, R241, R245 to R248), and the events of the clock (R29 to R31). Class T commands are
carried out in TurnCmds.
-/

namespace Sys2Proof.Machine

/-! ### Identity and device (R233) -/

/-- IDENTIFY (R233). -/
def execIdentify (h : MbHdr) (s : State) : Answer :=
  .next (s.runQuery h (rowH 0x0101) (Judge.plain 40) (fun s =>
    partBytes ++ leBytes 4 s.fwRel ++ leBytes 4 0x00030001 ++ leBytes 4 0x00020004 ++
      [BitVec.ofNat 8 s.nv.lifecycle, BitVec.ofNat 8 s.boot.straps.pos.val, BitVec.ofNat 8 s.time.period, 0] ++ leBytes 8 Config.serial.toNat))

/-- Two usable units as bits 0 and 1. -/
def pairBits (l : List Bool) : Nat := b2n (l.getD 0 false) + 2 * b2n (l.getD 1 false)

/-- DEVICE_STATE (R233). -/
def execDeviceState (h : MbHdr) (s : State) : Answer :=
  .next (s.runQuery h (rowH 0x0102) (Judge.plain 12) (fun s =>
    [BitVec.ofNat 8 s.dev.state, BitVec.ofNat 8 s.yardsInService, BitVec.ofNat 8 s.lanesInService, BitVec.ofNat 8 s.channelsInService,
      BitVec.ofNat 8 (pairBits s.repair.mps + 16 * s.repair.mpActive), BitVec.ofNat 8 (pairBits s.repair.farriers + 16 * s.repair.farrierActive),
      BitVec.ofNat 8 (pairBits s.repair.flash), 0] ++ leBytes 4 s.causes))

/-- Whether sizes strictly increase. -/
def rising : List Nat → Bool
  | a :: b :: r => decide (a < b) && rising (b :: r)
  | _ => true

/-- Bytes of a carving. -/
def carveBytes (sizes counts : List Nat) : Nat := ((sizes.zip counts).map (fun p => p.1 * p.2)).foldl (· + ·) 0

/-- Whether a carving meets R143. -/
def carveOk (sizes counts : List Nat) : Bool :=
  decide (sizes.length = 7) && decide (counts.length = 7) &&
    sizes.all (fun z => decide (z % 64 = 0) && decide (256 ≤ z) && decide (z ≤ 65536)) && rising (sizes.take 4) && rising (sizes.drop 4) &&
    decide (9728 ≤ sizes.getD 3 0) && decide (9728 ≤ sizes.getD 6 0) && counts.all (fun c => decide (64 ≤ c)) &&
    decide (carveBytes (sizes.take 4) (counts.take 4) ≤ 100663296) && decide ((counts.take 4).foldl (· + ·) 0 ≤ 131072) &&
    decide (carveBytes (sizes.drop 4) (counts.drop 4) ≤ 8589934592) && decide ((counts.drop 4).foldl (· + ·) 0 ≤ 2097152)

/-- Whether sub-pools and the code area of a control region of so many MiB exceed the 8 GiB spill reservation (R368). -/
def codeAreaBad (sizes counts : List Nat) (controlMib : Nat) : Bool :=
  decide (8589934592 < carveBytes (sizes.drop 4) (counts.drop 4) + controlMib * 1048576 / 32)

/-- Preconditions of POOL_CARVE: the carving meets R143, and fits with the code area of the control region recorded for the next reset. -/
def carvePre (sizes counts : List Nat) (p : State) : Option CmdEnd :=
  if carveOk sizes counts then failIf (codeAreaBad sizes counts p.dev.controlMibNext) (vOwn 0x0F 1) else some (vPre 1)

/-- The precondition of CONTROL_REGION: its code area fits with the carving recorded for the next reset. -/
def regionPre (sizeMib : Nat) (p : State) : Option CmdEnd :=
  failIf (codeAreaBad p.pools.nextSizes p.pools.nextCounts sizeMib) (vOwn 0x0F 1)

/-- POOL_CARVE (R143, R233, R368): recorded for the next reset. -/
def execPoolCarve (h : MbHdr) (sizes counts : List Nat) (s : State) : Answer :=
  .next (s.runDo h (row 0x0103) { Judge.plain 56 with pre := carvePre sizes counts }
    (fun s => { s with pools := { s.pools with nextSizes := sizes, nextCounts := counts } }))

/-- CONTROL_REGION (R16, R233, R368): recorded for the next reset. -/
def execControlRegion (h : MbHdr) (sizeMib : Nat) (s : State) : Answer :=
  .next (s.runDo h (row 0x0105)
    { Judge.plain 4 with bad := (if 4096 ≤ sizeMib ∧ sizeMib ≤ 16384 ∧ sizeMib % 256 = 0 then none else some 0), pre := regionPre sizeMib }
    (fun s => { s with dev := { s.dev with controlMibNext := sizeMib } }))

/-- DEVICE_RESET (R233): the full reset comes 10 ms after the notice is posted (FULL_DEVICE_RESET). -/
def execDeviceReset (h : MbHdr) (confirm : Word) (s : State) : Answer :=
  let ptr := (FMap.get none s.mbadel.taken h.hm.val).map (·.1)
  .next (s.runDo h (row 0x0106) { Judge.plain 4 with pre := fun _ => failIf (decide (confirm ≠ 0x5A5AA5A5#32)) (vPre 1) }
    (fun s => { s with dev := { s.dev with resetFor := ptr.map (fun p => (h.hm.val, p)) } }))

/-! ### The clock (R29 to R31, R241) -/

/-- The code of a clock state. -/
def ClockState.code : ClockState → Nat
  | .freerun => 0 | .acquiring => 1 | .locked => 2 | .holdover => 3

/-- The clock enters a state with a source, and the change is logged (R30). -/
def State.clockTo (s : State) (c : ClockState) (source : Nat) : State :=
  let s1 := { s with time := { s.time with clock := c, source := source, stateNs := 0, belowNs := 0 } }
  if s.time.clock = c ∧ s.time.source = source then s else s1.log 0x0201 c.code source

/-- Whether a source is qualified. -/
def Time.qualified (t : Time) (src : Nat) : Bool :=
  match src with
  | 1 => t.qualStack
  | 2 => t.qualPtp
  | 3 => t.qualPps
  | _ => false

/-- The number of a source. -/
def TimeSource.num : TimeSource → Nat
  | .stack => 1 | .ptp => 2 | .pps => 3

/-- Set whether a source is qualified. -/
def Time.setQual (t : Time) (src : Nat) (b : Bool) : Time :=
  match src with
  | 1 => { t with qualStack := b }
  | 2 => { t with qualPtp := b }
  | 3 => { t with qualPps := b }
  | _ => t

/-- Whether a source can discipline this module: the stack master only at another position than the master's while STACK_EN is asserted, PTP
only with a lane (R29, R241). -/
def State.sourceOk (s : State) (src : Nat) : Bool :=
  match src with
  | 1 => s.boot.straps.stackEn && decide (s.stack.master ≠ s.boot.straps.pos.val)
  | 2 => decide (s.time.ptpLane ≠ 0xFF)
  | _ => true

/-- The highest-priority qualified source (R29). -/
def State.bestSource (s : State) : Option Nat :=
  let order := if s.time.ptpPrio ≤ s.time.ppsPrio then [1, 2, 3] else [1, 3, 2]
  order.find? (fun n => s.time.qualified n && s.sourceOk n)

/-- SOURCE_QUALIFIED (R29, R30): the source is selected when none is, and the stack master at once. -/
def execSourceQualified (src : TimeSource) (s : State) : Answer :=
  .next (
    let n := TimeSource.num src
    if !s.sourceOk n then s
    else
      let s1 := { s with time := s.time.setQual n true }
      if s.time.source = 0 ∨ (n = 1 ∧ s.time.source ≠ 1) then s1.clockTo .acquiring n else s1)

/-- CLOCK_LOCKED (R30): Δ has stayed below 50 ns for 16 s. -/
def execClockLocked (s : State) : Answer :=
  .next (if s.time.clock = .acquiring ∧ 16000000000 ≤ s.time.belowNs then s.clockTo .locked s.time.source else s)

/-- The clock keeps the phase that it has: nothing of an offset is left to correct (R30). -/
def Time.keepPhase (t : Time) : Time := { t with offset := 0, slew := 0 }

/-- The current source is lost (R30): HOLDOVER after at least 300 s in LOCKED, else FREERUN with the phase and the frequency correction of the loss
kept; then the highest-priority source that is still qualified is selected (R29). -/
def State.loseSource (s : State) : State :=
  if s.time.source = 0 then s
  else
    let hold := decide (s.time.clock = .locked) && decide (300000000000 ≤ s.time.stateNs)
    let t := s.time.setQual s.time.source false
    let s1 := { s with time := if hold then t else t.keepPhase }
    let s2 := s1.clockTo (if hold then .holdover else .freerun) 0
    match s2.bestSource with
    | some n => s2.clockTo .acquiring n
    | none => s2

/-- SOURCE_LOST (R29, R30): the selected source is lost, or another one, which is then no longer qualified. -/
def execSourceLost (s : State) (src : TimeSource := .stack) : Answer :=
  .next (
    let n := TimeSource.num src
    if s.time.source = n then s.loseSource else { s with time := s.time.setQual n false })

/-- HOLDOVER_EXPIRY (R30). -/
def execHoldoverExpiry (s : State) : Answer :=
  .next (if s.time.clock = .holdover ∧ s.time.holdoverSec * 1000000000 ≤ s.time.stateNs then s.clockTo .freerun 0 else s)

/-- PPS_IN_EDGE (R29, R31, R476): the edge is timestamped with the clock's time; while PPS_IN disciplines the clock, its distance from the
nearest second is the offset Δ. -/
def execPpsInEdge (sec ns : Nat) (s : State) : Answer :=
  .next (
    let n := ns % 1000000000
    let d : Int := if n ≤ 500000000 then (n : Int) else (n : Int) - 1000000000
    let s1 := { s with time := { s.time with ppsStamp := (sec, n) } }
    if s.time.source = 3 then s1.measure d else s1)

/-- k of R31: whole periods in an offset, so that the rest lies in (−P/2, P/2]. -/
def stepsOf (p : Nat) (d : Int) : Int := -((((p : Int) - 2 * d) / (2 * (p : Int))))

/-- At a turn the clock steps by k periods and the rest is left to slewing (R31). Nanoseconds count from 0. -/
def State.clockStep (s : State) : State :=
  let p := periodNs s.time.period
  let k := stepsOf p s.time.offset
  let f := s.time.offset - k * (p : Int)
  if s.time.offset = 0 then s
  else
    let now : Int := (s.time.sec * 1000000000 + s.time.ns : Nat)
    let new := (now - k * (p : Int)).toNat
    { s with time := { s.time with sec := new / 1000000000, ns := new % 1000000000, offset := 0, slew := s.time.slew + 10 * f } }

/-- Slewing over one tick, in tenths of a nanosecond: at most 200 ppm of the period (R31). -/
def State.slewTick (s : State) : State :=
  let m : Int := (periodNs s.time.period : Int) * 10 * 200 / 1000000
  let f := s.time.slew
  { s with time := { s.time with slew := if f < -m then f + m else if m < f then f - m else 0 } }

/-- The offset Δ that the clock still has, in nanoseconds: what waits for a step and what slewing has yet to remove (R241). -/
def Time.delta (t : Time) : Int := t.offset + t.slew.tdiv 10

/-- TIME_QUERY (R241). -/
def execTimeQuery (h : MbHdr) (s : State) : Answer :=
  .next (s.runQuery h (row 0x0801) (Judge.plain 32) (fun s =>
    let t := s.time
    leBytes 8 t.sec ++ leBytes 4 t.ns ++ [BitVec.ofNat 8 t.clock.code, BitVec.ofNat 8 t.source, 0, 0] ++
      leBytes 4 (BitVec.ofInt 32 t.delta).toNat ++
      [BitVec.ofNat 8 t.gate, match t.pendPeriod with | some p => BitVec.ofNat 8 p.1 | none => 0xFF, 0, 0] ++
      leBytes 8 (match t.pendPeriod with | some p => p.2 | none => 0)))

/-- The judgement of SOURCE_PRIORITY. -/
def prioJudge (ptpLane ptpPrio ppsPrio domain : Nat) : Judge :=
  let ok := fun (p : Nat) => decide (p = 2) || decide (p = 3)
  { Judge.plain 4 with
    bad := if ptpLane ≠ 0xFF ∧ 16 ≤ ptpLane then some 0 else if !ok ptpPrio then some 1 else if !ok ppsPrio ∨ ptpPrio = ppsPrio then some 2
           else if domain < 24 ∨ 43 < domain then some 3 else none }

/-- SOURCE_PRIORITY's effect; a source on another lane is not yet qualified (R29). -/
def State.setPrio (s : State) (ptpLane ptpPrio ppsPrio domain : Nat) : State :=
  let s1 := { s with time := { s.time with ptpLane := ptpLane, ptpPrio := ptpPrio, ppsPrio := ppsPrio, domain := domain } }
  if ptpLane = s.time.ptpLane then s1
  else if s.time.source = 2 then s1.loseSource
  else { s1 with time := s1.time.setQual 2 false }

/-- The judgement of SOURCE_SELECT. -/
def selectJudge (src : Byte) : Judge :=
  { Judge.plain 1 with
    bad := if src = 2 ∨ src = 3 then none else some 0,
    pre := fun s => failIf (!s.time.qualified src.toNat) (vPre 1) }

/-- SOURCE_SELECT's effect: none while the stack master is qualified, whose priority no command changes (R29). -/
def State.selectSource (s : State) (src : Byte) : State :=
  if s.time.qualStack && s.sourceOk 1 then s else s.clockTo .acquiring src.toNat

/-- The judgement of SET_GATE (R19): a G outside its range is the row's one precondition (step 7 of R229). -/
def gateJudge (g : Nat) : Judge := { Judge.plain 16 with pre := fun _ => failIf (decide (g < 218) || decide (248 < g)) (vPre 1) }

/-- SET_GATE's effect: the next tick's gate. -/
def State.setGate (s : State) (g : Nat) : State := { s with time := { s.time with gate := g } }

/-- Every loaded program's shortest period (R32): both banks of every engine in service. -/
def State.longestMin (s : State) : Nat :=
  s.erg.engines.foldl (fun m e =>
    let v := fun (b : Bank) => if b.program = 0 then 0 else b.minPeriod
    if s.engActive e.1 then max m (max (v e.2.bankA) (v e.2.bankB)) else m) 0

/-- The pending period change, or none, for every member of the stack (R32, R440): a CONTROL frame; the markers carry it too. -/
def State.tellPeriod (s : State) : State :=
  if !s.stacked then s
  else s.controlAll ctlPeriod 0 (match s.time.pendPeriod with | some p => BitVec.ofNat 8 p.1 :: leBytes 8 p.2 | none => [0xFF])

/-- PERIOD_CHANGE (R32, R241): accepted now for the second boundary E, on the whole stack. -/
def execPeriodChange (h : MbHdr) (code e : Nat) (s : State) : Answer :=
  .next (s.runDo h (row 0x0805)
    { Judge.plain 16 with
      bad := if code < 5 then none else some 0,
      pre := fun s => firstOf [failIf (decide (e ≤ s.time.sec + 2)) (vPre 1), failIf s.time.pendPeriod.isSome (vPre 2),
        failIf (decide (code < s.longestMin)) (vPre 3), failIf (s.boot.straps.stackEn && decide (s.stack.master ≠ s.boot.straps.pos.val)) (vPre 4)] }
    (fun s => { s with time := { s.time with pendPeriod := some (code, e) } : State }.tellPeriod))

/-- PERIOD_CANCEL (R32, R241). -/
def execPeriodCancel (h : MbHdr) (s : State) : Answer :=
  .next (s.runDo h (row 0x0806)
    { Judge.plain 0 with
      pre := fun s => match s.time.pendPeriod with | none => some (vPre 1) | some p => failIf (decide (p.2 ≤ s.time.sec + 1)) (vPre 2) }
    (fun s => { s with time := { s.time with pendPeriod := none } : State }.tellPeriod))

/-- HOLDOVER_SET (R30, R241). -/
def execHoldoverSet (h : MbHdr) (seconds : Nat) (s : State) : Answer :=
  .next (s.runDo h (row 0x0807) { Judge.plain 4 with bad := if 60 ≤ seconds ∧ seconds ≤ 86400 then none else some 0 }
    (fun s => { s with time := { s.time with holdoverSec := seconds } }))

/-! ### Power (R245, R399, R457 to R460) -/

/-- The power-stage limit (R399): none while 12 stages work. -/
def State.stageCap (s : State) : Option Nat :=
  let n := (s.repair.stages.filter id).length
  if n < 12 then some (85000 * n / 12) else none

/-- The lower of two caps. -/
def lowerCap (a b : Option Nat) : Option Nat :=
  match a, b with
  | some x, some y => some (min x y)
  | some x, none => some x
  | none, y => y

/-- The effective cap (R460). -/
def State.cap (s : State) : Option Nat := lowerCap (lowerCap (if s.power.capCfg = 0 then none else some s.power.capCfg) s.stageCap) s.power.thermalCap

/-- POWER_QUERY (R245). -/
def execPowerQuery (h : MbHdr) (s : State) : Answer :=
  .next (s.runQuery h (row 0x0C01) (Judge.plain 28) (fun s =>
    let p := s.power
    leBytes 4 p.estimate ++ leBytes 4 p.vinMv ++ leBytes 4 p.holdupMv ++ leBytes 2 (BitVec.ofInt 16 p.plate).toNat ++
      leBytes 2 (BitVec.ofInt 16 p.junction).toNat ++ leBytes 4 (s.cap.getD 0) ++ leBytes 8 p.cappedTicks))

/-- The judgement of POWER_CAP. -/
def capJudge (capMw : Nat) : Judge :=
  { Judge.plain 4 with bad := if capMw = 0 ∨ (20000 ≤ capMw ∧ capMw ≤ 85000) then none else some 0 }

/-- POWER_CAP's effect. -/
def State.setCap (s : State) (capMw : Nat) : State := { s with power := { s.power with capCfg := capMw } }

/-- URGENT_MASK's effect (R173): bit 0 is forced to 1. -/
def State.setUrgent (s : State) (program : Nat) (mask : Half) : State :=
  { s with erg := { s.erg with urgent := FMap.set 1 s.erg.urgent program (mask ||| 1#16) } }

/-- Whether the map retires a processor. -/
def State.processorRetired (s : State) (u : Nat) : Bool := s.repair.map.any (fun e => decide (e.type = 9) && decide (e.unit = u))

/-- Whether an optical engine is powered: some lane of it is neither DISABLED nor FAILED (R458). -/
def State.oePowered (s : State) (oe : Nat) : Bool :=
  ((s.ports.lanes.drop (oe * 4)).take 4).any (fun l => decide (l.mode ≠ 0) && decide (l.st ≠ .failed))

/-- Whether a power domain is powered (R457, R458); a resting yard that a swap has called out is. -/
def State.domainOn (s : State) (n : Nat) : Bool :=
  if s.power.st = .down then false
  else if s.power.st = .tripped then decide (n = 59) || decide (n = 60)
  else if n < 34 then
    decide (s.yardUse n = .active) || (match s.repair.swap with | some w => decide (w.inn = n) && decide (w.stage ≠ .waiting) | none => false)
  else if 41 ≤ n ∧ n < 46 then s.oePowered (n - 41)
  else if 48 ≤ n ∧ n < 52 then s.repair.channels.getD (n - 48) false
  else if n = 56 ∨ n = 57 then !s.processorRetired (n - 56)
  else if n = 59 ∨ n = 60 then !s.processorRetired (n - 57)
  else true

/-- DOMAIN_QUERY (R245, R457). -/
def execDomainQuery (h : MbHdr) (s : State) : Answer :=
  .next (s.runQuery h (row 0x0C04) (Judge.plain 8) (fun s =>
    leBytes 8 ((List.range 64).foldl (fun m n => if s.domainOn n then m + 2 ^ n else m) 0)))

/-! ### Monitor unlock (R246, R247) -/

/-- MONITOR_UNLOCK (R246). A second unlock adds its yards, and its UNTIL holds for all (log 47). -/
def execMonitorUnlock (h : MbHdr) (yards : Word) (seconds : Nat) (s : State) : Answer :=
  .next (s.runNow h (row 0x0D01)
    { Judge.plain 8 with
      bad := if 1 ≤ seconds ∧ seconds ≤ 86400 then none else some 4,
      pre := fun s => failIf (decide (s.nv.lifecycle ≠ 1) && decide (s.nv.lifecycle ≠ 2)) (vPre 1) }
    (fun s =>
      let u := s.time.sec + seconds
      ({ s with monitor := { s.monitor with unlockYards := s.monitor.unlockYards ||| yards, unlockUntil := u } }, vOk, leBytes 8 u)))

/-- An unlock ends for some logical yards (R247): held threads are killed and logged, DBGEN is cleared. -/
def State.relock (s : State) (yards : Word) : State :=
  let covered := yards &&& s.monitor.unlockYards
  let ys := ((List.range 32).filter (fun l => covered.getLsbD l)).filterMap (fun l => s.erg.ymap.getD l none)
  let s1 := ys.foldl (fun (s : State) y =>
    (yardEngines y).foldl (fun (s : State) pe => s.setEng pe { s.eng pe with dbgen := false }) (s.killYard y 1)) s
  { s1 with monitor := { s1.monitor with unlockYards := s1.monitor.unlockYards &&& ~~~covered } }

/-- UNLOCK_EXPIRY (R247): the unlock ends at the next turn. -/
def execUnlockExpiry (s : State) : Answer :=
  .next (if s.monitor.unlockYards ≠ 0 ∧ s.monitor.unlockUntil ≤ s.time.sec then { s with monitor := { s.monitor with expiring := true } } else s)

/-- An unlock that has expired ends at a turn (R247), unless a later MONITOR_UNLOCK has moved its UNTIL. -/
def State.turnUnlock (s : State) : State :=
  if s.monitor.expiring then
    let s1 := { s with monitor := { s.monitor with expiring := false } }
    if s1.monitor.unlockUntil ≤ s1.time.sec then s1.relock s1.monitor.unlockYards else s1
  else s

/-- DEBUG_QUERY (R246). -/
def execDebugQuery (h : MbHdr) (s : State) : Answer :=
  .next (s.runQuery h (row 0x0D03) (Judge.plain 144) (fun s =>
    let held := fun (n : Nat) => match s.peng n with | some pe => (s.eng pe).holdEng | none => false
    leBytes 4 s.monitor.unlockYards.toNat ++ zeros 4 ++ leBytes 8 s.monitor.unlockUntil ++
      (List.range 128).map (fun i => BitVec.ofNat 8 ((List.range 8).foldl (fun m b => if held (i * 8 + b) then m + 2 ^ b else m) 0))))

/-! ### Events and logs (R248, R373 to R377, R411) -/

/-- EVENT_RING_SET (R376, R377). -/
def execEventRingSet (h : MbHdr) (addr entries vector : Nat) (s : State) : Answer :=
  .next (s.runDo h (row 0x0E01)
    { Judge.plain 14 with
      bad := if addr % 4096 ≠ 0 ∨ 2 ^ 64 ≤ addr then some 0
             else if entries < 256 ∨ 65536 < entries ∨ 2 ^ Nat.log2 entries ≠ entries then some 8 else if vector < 64 ∨ 1023 < vector then some 12 else none }
    (fun s => { s with events := { s.events with ringBase := BitVec.ofNat 64 addr, ringSize := entries, ringVector := vector, ringTail := 0, ringHead := 0,
                                                 ringPhase := true, ringEnabled := true } }))

/-- EVENT_MASK (R248). -/
def execEventMask (h : MbHdr) (mask : BitVec 256) (s : State) : Answer :=
  .next (s.runDo h (row 0x0E02) (Judge.plain 32) (fun s => { s with events := { s.events with mask := mask } }))

/-- A repair-log record (R411). -/
def RepairRec.bytes (r : RepairRec) : List Byte :=
  leBytes 8 r.seq ++ leBytes 8 r.tick ++ leBytes 4 r.sec ++ [BitVec.ofNat 8 r.action, BitVec.ofNat 8 r.type, r.status, 0] ++ leBytes 8 r.entry.toNat

/-- Records of the event log from a sequence number on (R373). -/
def State.eventsFrom (s : State) (first max : Nat) : List Event := (s.events.log.reverse.filter (fun e => decide (first ≤ e.seq))).take max

/-- Records of the repair log from a sequence number on (R411). -/
def State.repairsFrom (s : State) (first max : Nat) : List RepairRec := (s.repair.log.reverse.filter (fun r => decide (first ≤ r.seq))).take max

/-- LOG_READ (R248). -/
def execLogRead (h : MbHdr) (log : Byte) (seqFrom max : Nat) (s : State) : Answer :=
  .next (s.runQuery h (rowH 0x0E03) { Judge.plain 16 with bad := if log = 1 ∨ log = 2 then none else some 0 }
    (fun s => if log = 1 then ((s.eventsFrom seqFrom max).map (fun e => e.bytes false)).flatten
      else ((s.repairsFrom seqFrom max).map RepairRec.bytes).flatten))

/-- REPAIR_LOG (R242, R411). -/
def execRepairLog (h : MbHdr) (seqFrom max : Nat) (s : State) : Answer :=
  .next (s.runQuery h (row 0x0905) (Judge.plain 12) (fun s => ((s.repairsFrom seqFrom max).map RepairRec.bytes).flatten))

end Sys2Proof.Machine
end

