-- ==== Sys2Proof/Machine/MbadelRepair.lean ====
section
/-!
DEFINITION. Mbadel group 0x09: repair and wear (R242, R381, R387, R389, R390, R408). REPAIR_LOG stands with the other log reads.
-/

namespace Sys2Proof.Machine

/-- A spares row in SPARES_QUERY. -/
def State.spareRow (s : State) (i : Nat) : List Byte :=
  leBytes 2 (spareTotals.getD i 0) ++ leBytes 2 (FMap.get 0 s.repair.used i) ++ leBytes 2 (FMap.get 0 s.repair.retired i) ++ zeros 2

/-- SPARES_QUERY (R242, R381). -/
def execSparesQuery (h : MbHdr) (s : State) : Answer :=
  .next (s.runQuery h (row 0x0901) (Judge.plain 88) (fun s => ((List.range 11).map s.spareRow).flatten))

/-- ROTATION_SET (R242, R390). -/
def execRotationSet (h : MbHdr) (enable : Byte) (days : Nat) (s : State) : Answer :=
  .next (s.runDo h (rowF 0x0902)
    { Judge.plain 6 with bad := if 1 < enable.toNat then some 0 else if days = 0 ∨ 365 < days then some 4 else none }
    (fun s => { s with repair := { s.repair with rotationOn := decide (enable = 1), rotationDays := days } }))

/-- The pair that ROTATE_NOW names: 0xFF means the active yard with the highest stress, or the resting yard with the lowest. -/
def State.rotatePair (s : State) (out inn : Nat) : Nat × Nat :=
  (if out = 0xFF then s.highestActive.getD 0xFF else out, if inn = 0xFF then s.lowestRest.getD 0xFF else inn)

/-- The judgement of ROTATE_NOW: OUT is an active yard, IN a resting one; while PWR_FAIL_WARN_N is asserted it is abandoned at once (R453, log 51). -/
def State.rotateJudge (s : State) (out inn : Nat) : Judge :=
  let (o, i) := s.rotatePair out inn
  { need := 8, bad := if 34 ≤ out ∧ out ≠ 0xFF then some 0 else if 34 ≤ inn ∧ inn ≠ 0xFF then some 1 else none,
    objs := [obj .yard o, obj .yard i],
    missing := fun s => if (s.logicalYard o).isSome then none else some o,
    pre := fun s => firstOf [failIf (!s.resting.contains i) (vPre 1), failIf s.power.warn (vOwn 1 1)] }

/-- ROTATE_NOW (R242, R390). -/
def execRotateNow (h : MbHdr) (out inn waitMs : Nat) (s : State) : Answer :=
  let (o, i) := s.rotatePair out inn
  .next (s.runLong h (rowF 0x0903) (s.rotateJudge out inn) (.rotateNow h out inn waitMs) false (fun s => s.startRotate o i true))

/-- ROTATE_NOW is cancelled at WAIT_MS: its swap ends, and it reports TIMEOUT. -/
def State.cancelRotate (s : State) (r : Running) : State :=
  let mine := fun (w : Swap) => w.asked && r.objs.contains (obj .yard w.out)
  let p := s.repair
  let s1 := { s with repair := { p with forcedWait := p.forcedWait.filter (fun w => !mine w) } }
  let s2 := (match p.swap with | some w => if mine w then s1.dropSwap else s1 | none => s1).endLong r (vPlain 3) [] 0
  s2.nextSwap

/-- PATROL_SET (R242, R387). -/
def execPatrolSet (h : MbHdr) (enable : Byte) (days : Nat) (s : State) : Answer :=
  .next (s.runDo h (rowF 0x0904) { Judge.plain 6 with bad := if 1 < enable.toNat then some 0 else if 65536 ≤ days then some 4 else none }
    (fun s => { s with repair := { s.repair with patrolOn := decide (enable = 1), patrolDays := days } }))

/-- FARRIER_RELOAD (R242, R408): it completes when the reloaded Farrier has its heartbeat again. -/
def execFarrierReload (h : MbHdr) (which : Nat) (s : State) : Answer :=
  .next (s.runLong h (rowF 0x0906)
    { need := 1, bad := if which < 2 then none else some 0, objs := [obj .farrier which], missing := fun _ => none,
      pre := fun s => failIf (decide (s.repair.farrierActive ≠ other which) || !s.repair.farrierUp.getD (other which) false) (vPre 1) }
    (.farrierReload h which) false (fun s =>
      let (ok, s1) := s.reloadFarrier which true
      if ok then (match s1.runningOn 0x0906 (obj .farrier which) with | some r => s1.endLong r vOk [] 0 | none => s1) else s1))

/-- WEAR_QUERY (R242, R389). -/
def execWearQuery (h : MbHdr) (s : State) : Answer :=
  .next (s.runQuery h (row 0x0907) (Judge.plain 138) (fun s =>
    ((List.range 34).map (fun y => leBytes 4 (s.stress y / 2 ^ 20))).flatten ++ leBytes 2 s.repair.consumed))

end Sys2Proof.Machine
end

