-- ==== Sys2Proof/Machine/MbadelImages.lean ====
section
/-!
DEFINITION. Mbadel group 0x0A: images, switch-over and keys (R243, R406, R420 to R425). While PWR_FAIL_WARN_N is asserted the SP starts no step
(R453), and a command that needs one ends ABORTED (log 51).
-/

namespace Sys2Proof.Machine

/-- No step of the SP may start. -/
def noStep (s : State) : Option CmdEnd := failIf s.power.warn (vOwn 1 1)

/-- IMAGE_WRITE (R243, R422, R425): it clears the slot's marker and programs the bytes. -/
def execImageWrite (h : MbHdr) (slot offset : Nat) (data : List Byte) (s : State) : Answer :=
  .next (s.runDo h (rowH 0x0A01)
    { need := 16 + data.length,
      bad := if 1 < slot then some 0 else if offset % 4096 ≠ 0 ∨ imageEnd ≤ offset then some 4
             else if data.length % 4096 ≠ 0 ∨ 1044480 < data.length ∨ imageEnd < offset + data.length then some 8 else none,
      objs := [obj .slot slot], missing := fun _ => none,
      pre := fun s => firstOf [failIf (decide (s.boot.runSlot = some slot) && !s.boot.fromRecovery) (vPre 1), failIf (!s.chipUsable slot) (vPre 2), noStep s] }
    (fun s => s.slotWrite slot offset data))

/-- The judgement of IMAGE_VALIDATE: REVOKED or ACCESS_DENIED when a signature, key or digest fails, REFUSED below the floor (R422). -/
def validateJudge (slot : Nat) : Judge :=
  { need := 5, bad := if slot < 2 then none else some 0, objs := [obj .slot slot], missing := fun _ => none,
    pre := fun s =>
      let st := if s.chipUsable slot then s.validateStatus slot else 0x08
      firstOf [failIf (decide (st ≠ 0) && decide (st ≠ 0x0F)) { status := st, kind := 1, value := 1 }, failIf (decide (st = 0x0F)) (vPre 2), noStep s] }

/-- IMAGE_VALIDATE (R243, R422): the marker is programmed as its last step. -/
def execImageValidate (h : MbHdr) (slot : Nat) (s : State) : Answer :=
  .next (s.runNow h (rowH 0x0A02) (validateJudge slot) (fun s =>
    let hd := s.slotHdr slot
    (s.writeMarker slot, vOk, leBytes 4 (hdrSeq hd) ++ [BitVec.ofNat 8 (hdrKey hd)])))

/-- One slot of IMAGE_QUERY. -/
def State.imageInfo (s : State) (slot : Nat) : List Byte :=
  let hd := s.slotHdr slot
  [BitVec.ofNat 8 (b2n (s.chipUsable slot && s.marked slot)), BitVec.ofNat 8 (b2n (decide (hdrSeq hd = s.floor))), BitVec.ofNat 8 (hdrKey hd), 0] ++
    leBytes 4 (hdrSeq hd) ++ slice hd 12 4

/-- IMAGE_QUERY (R243, R424). -/
def execImageQuery (h : MbHdr) (s : State) : Answer :=
  .next (s.runQuery h (rowH 0x0A03) (Judge.plain 28) (fun s => s.imageInfo 0 ++ s.imageInfo 1 ++ leBytes 4 s.floor))

/-- The judgement of MP_SWITCH. -/
def switchJudge (slot : Nat) : Judge :=
  { need := 16, bad := if slot < 2 then none else some 0, objs := [obj .slot slot, obj .mp 0], missing := fun _ => none,
    pre := fun s => firstOf [failIf (!s.standbyUsable) (vPre 1), failIf (!s.slotValid slot) (vPre 2),
                             failIf (decide (s.dev.state ≠ 2) && decide (s.dev.state ≠ 3)) (vPre 3), noStep s] }

/-- MP_SWITCH (R243, R406): the standby takes over at the turn of AT_TICK or the next one. -/
def execMpSwitch (h : MbHdr) (slot atTick : Nat) (s : State) : Answer :=
  .next (s.runLong h (row 0x0A04) (switchJudge slot) (.mpSwitch h slot atTick) false (fun s =>
    { s with repair := { s.repair with mpSwitch := some (slot, max s.time.tick (atTick - s.time.jumped), hdrSeq (s.slotHdr slot)) } }))

/-- Whether the running image has run 86,400 s (R424). -/
def State.ranLong (s : State) : Bool := match s.boot.firstRun with | some t => decide (t + 86400 ≤ s.time.sec) | none => false

/-- IMAGE_CONFIRM (R243, R424): one FLOOR append raises the floor. -/
def execImageConfirm (h : MbHdr) (s : State) : Answer :=
  .next (s.runNow h (row 0x0A05) { Judge.plain 4 with pre := fun s => firstOf [failIf (!s.ranLong) (vPre 1), noStep s] } (fun s =>
    let s1 := if s.floor < s.boot.runSeq then s.jAppend 2 s.boot.runSeq else s
    (s1, vOk, leBytes 4 s1.floor)))

/-- Whether a slot holds a verified image signed with a live key other than `k`. -/
def State.otherSigned (s : State) (k : Nat) : Bool :=
  [0, 1].any (fun n => s.chipUsable n && s.marked n && s.slotPasses n && decide (hdrKey (s.slotHdr n) ≠ k))

/-- KEY_REVOKE (R243, R420). -/
def execKeyRevoke (h : MbHdr) (key : Nat) (s : State) : Answer :=
  .next (s.runDo h (row 0x0A06)
    { Judge.plain 1 with
        bad := if key < 4 then none else some 0,
        pre := fun s => firstOf [failIf (!s.otherSigned key) (vPre 1),
                                 failIf (!([0, 1, 2, 3].any (fun k => decide (k ≠ key) && s.keyLive k))) (vPre 2), noStep s] }
    (fun s => if s.nv.revoked.contains key then s else { s with nv := { s.nv with revoked := s.nv.revoked ++ [key] } }))

/-- KEY_QUERY (R243). -/
def execKeyQuery (h : MbHdr) (s : State) : Answer :=
  .next (s.runQuery h (row 0x0A07) (Judge.plain 8) (fun s =>
    ([0, 1, 2, 3].map (fun k => [BitVec.ofNat 8 (b2n (s.keyLive k)), BitVec.ofNat 8 (b2n (s.keyProgrammed k))])).flatten))

/-- LIFECYCLE_ADVANCE (R243, R421). -/
def execLifecycleAdvance (h : MbHdr) (toState : Nat) (confirm : Word) (s : State) : Answer :=
  .next (s.runDo h (row 0x0A08)
    { Judge.plain 8 with
        bad := if toState < 4 then none else some 0,
        pre := fun s => firstOf [failIf (decide (toState ≤ s.nv.lifecycle)) (vPre 1), failIf (decide (confirm ≠ 0x5A5AA5A5#32)) (vPre 2), noStep s] }
    (fun s => { s with nv := { s.nv with lifecycle := toState } }))

end Sys2Proof.Machine
end

