-- ==== Sys2Proof/Machine/MbadelQueues.lean ====
section
/-!
DEFINITION. Group 0x03 (R235): queues as the host manager observes, destroys and binds them. Class T commands are carried out in TurnCmds.
-/

namespace Sys2Proof.Machine

/-- The function that INST and PF name: INST 0xFFFF for the PF itself. -/
def queueFn (inst : Nat) (pf : Byte) : Nat := if inst = 0xFFFF then pf.toNat else if pf = 1 then vfNet inst else vfSto inst

/-- The judgement that the commands of R235 share. -/
def queueJudge (need inst : Nat) (pf : Byte) : Judge :=
  { Judge.plain need with
    bad := if 4096 ≤ inst ∧ inst ≠ 0xFFFF then some 0 else if pf = 1 ∨ pf = 2 then none else some 2,
    objs := if inst = 0xFFFF then [] else [obj .inst inst],
    missing := fun s => if inst = 0xFFFF ∨ (s.inst inst).isSome then none else some inst }

/-- Whether a queue exists: a work queue of PF1, or an NVMe submission queue of PF2. -/
def State.hasQueue (s : State) (fn queue : Nat) : Bool := if fnSto fn then ((s.ctl fn).sq queue).isSome else (s.queue (qKey fn queue)).isSome

/-- The result of QUEUE_QUERY. -/
def State.queueQuery (s : State) (fn queue : Nat) : List Byte :=
  if fnSto fn then
    match (s.ctl fn).sq queue with
    | none => zeros 8
    | some q =>
      let out := (((s.ctl fn).outs.filter (fun o => decide (o.sqid = queue))).length) + (s.nvUnfetched q).length
      let st := if q.error then 3 else if s.bme fn = false ∧ out ≠ 0 then 2 else 1
      [BitVec.ofNat 8 st, 0] ++ leBytes 2 q.head ++ leBytes 2 q.tail ++ leBytes 2 out
  else (s.queryBytes (qKey fn queue)).take 8

/-- QUEUE_QUERY (R235). -/
def execQueueQuery (h : MbHdr) (inst : Nat) (pf : Byte) (queue : Nat) (s : State) : Answer :=
  .next (s.runQuery h (row 0x0301) (queueJudge 8 inst pf) (fun s => s.queueQuery (queueFn inst pf) queue))

/-- The judgement of QUEUE_DESTROY. -/
def queueGoneJudge (inst : Nat) (pf : Byte) (queue : Nat) : Judge :=
  let j := queueJudge 6 inst pf
  { j with
    missing := fun s => match j.missing s with | some n => some n | none => if queue = 0 ∨ s.hasQueue (queueFn inst pf) queue then none else some queue,
    pre := fun _ => failIf (decide (queue = 0)) (vPre 1) }

/-- QUEUE_DESTROY's effect: entries complete ABORTED. Of an NVMe queue, the submission queue is deleted (log 48). -/
def State.queueDestroy (s : State) (fn queue : Nat) : State :=
  if fnSto fn then
    let st := nvStatusOf 1
    let s1 := ((s.ctl fn).outs.filter (fun (o : NvOut) => decide (o.sqid = queue))).foldl (fun (s : State) o => s.nvEndOut fn o st) s
    let s2 := match (s1.ctl fn).sq queue with
      | some q => (s1.nvUnfetched q).foldl (fun (s : State) c => s.nvSettle fn queue c none st 0 0 0) s1
      | none => s1
    s2.modCtl fn (fun c => { c with sqs := FMap.set none c.sqs queue none })
  else s.endQueue (qKey fn queue) 0 noOp true

/-- The judgement of RING_BIND. The PF itself has no TENANT, so p2 asks nothing of its rings (log 48). -/
def bindJudge (inst : Nat) (pf : Byte) (queue tmq : Nat) : Judge :=
  let j := queueJudge 9 inst pf
  let fn := queueFn inst pf
  { j with
    missing := fun s => match j.missing s with
      | some n => some n
      | none => if !s.hasQueue fn queue then some queue else if (s.tmq tmq).isNone then some tmq else none,
    pre := fun s => firstOf [
      failIf (!(decide (pf = 1) && (match s.queue (qKey fn queue) with | some q => decide (q.type = 1) || decide (q.type = 2) | none => false))) (vPre 1),
      failIf (match s.inst inst, s.tmq tmq with | some i, some q => decide (q.tenant ≠ i.tenant) | _, _ => false) (vPre 2)] }

/-- RING_BIND's effect (R206, R265). -/
def State.ringBind (s : State) (fn queue tmq : Nat) (wake : Byte) : State :=
  s.modQueue (qKey fn queue) (fun q => { q with tmq := some tmq, wake := wake.getLsbD 0 })

end Sys2Proof.Machine
end

