-- ==== Sys2Proof/Machine/RdmaCmds.lean ====
section
/-!
DEFINITION. Meanings of the RDMA rows (15): inbound request and response packets, acknowledgements, timers, context fills, SUBMIT and
TUNE, the counter record.
-/

namespace Sys2Proof.Machine

/-! ### Admission (R328, R332 steps 1 to 5, R335, R339) -/

/-- Steps 1 to 3 of R332 and the wait for a fill; `ok` is step 2's test of the context's state. A cached line that fails its check moves the context to
ERROR (R365). -/
def State.acceptPkt (s : State) (m : Miss) (p : RdmaPkt) (ok : Nat → Bool) (body : Ctx → State → State) : State :=
  let drop := fun (idx : Nat) => (s.endPkt p).rdmaCount p.inst.toNat idx 1
  if p.icrcBad then drop 0
  else match s.ctx p.qpn with
    | none => drop 1
    | some c =>
      if !c.cached then (if 16384 ≤ s.rdma.misses.length then drop 18 else s.missWaits p.qpn c.inst m)
      else if p.ctxBad then (((s.endPkt p).log 0x0804 p.qpn c.slotNo).errorCtx p.qpn 0x0E)
      else if !(ok c.state) then drop 1
      else if p.inst.toNat ≠ c.inst ∨ s.staleGen p.inst p.gen = true then drop 2
      else body c ((s.endPkt p).touchCtx p.qpn)

/-- Request packets: steps 1 to 5 of R332, and the reply route of R328. -/
def State.request (s : State) (m : Miss) (p : RdmaPkt) (spray : Bool) (body : Ctx → State → State) : State :=
  s.acceptPkt m p (fun st => decide (st = 2) || decide (st = 3)) (fun c s =>
    if s.isFrozen c.inst then s.modInstCtr c.inst (fun x => { x with frozenDrop := x.frozenDrop + 1 })
    else
      let c1 := { c with respQueue := bits p.c0.toNat 0 16, respEdit := bits p.c0.toNat 16 12, usedTick := s.time.tick }
      let s1 := s.setCtx p.qpn (some c1)
      if c1.spray ≠ spray then s1.nakError p.qpn 0x61 p.psn p.psn 0 else body c1 s1)

/-- Response packets and acknowledgements: steps 1 to 3 of R332 on a context in RTS of the packet's mode. -/
def State.response (s : State) (m : Miss) (p : RdmaPkt) (spray : Bool) (body : Ctx → State → State) : State :=
  s.acceptPkt m p (fun st => decide (st = 3)) (fun c s => if c.spray ≠ spray then s else body c s)

/-! ### The standard responder (R332, R341) -/

/-- A packet ahead of RQ_PSN: one NAK, then silence. -/
def State.aheadOf (s : State) (qpn : Nat) (c : Ctx) : State :=
  if c.nakSent then s else ((s.setCtx qpn (some { c with nakSent := true })).sendAck qpn 0x60 c.rqPsn).rdmaCount c.inst 5 1

/-- Whether a packet of a standard WRITE fits its sequence (step 7). -/
def writeFits (c : Ctx) (p : RdmaPkt) (first last : Bool) : Bool :=
  let n := p.payload.length
  let left := if first then p.dmaLen else c.rwLeft
  (c.writeOpen != first) && (if last then decide (1 ≤ n) && decide (n ≤ pmtuBytes c.pmtu) else decide (n = pmtuBytes c.pmtu)) && decide (n ≤ left) &&
    decide (left ≤ 2147483648)

/-- A packet of a WRITE on a standard context. -/
def State.writePkt (s : State) (p : RdmaPkt) (first last : Bool) (c : Ctx) : State :=
  let d := psnDist c.rqPsn p.psn
  if d ≠ 0 then (if d < 2 ^ 23 then s.aheadOf p.qpn c else s.sendAck p.qpn 0x1F (c.rqPsn + 2 ^ 24 - 1))
  else if !(writeFits c p first last) then s.nakError p.qpn 0x61 p.psn 0 0
  else
    let n := p.payload.length
    let va := if first then p.va.toNat else c.rwVa
    let rkey := if first then p.rkey else c.rwRkey
    let left := if first then p.dmaLen else c.rwLeft
    if !(s.regOk c rkey va n true) then s.nakError p.qpn 0x62 p.psn 0 0
    else match s.place c.fn (rkey.toNat / 256) va p.payload (if p.ackReq then .ack p.qpn p.psn else .nothing) with
      | none => s
      | some s1 => s1.modCtx p.qpn (fun c => { c with rqPsn := (c.rqPsn + 1) % 2 ^ 24, nakSent := false, writeOpen := !last, rwVa := va + n, rwRkey := rkey, rwLeft := left - n })

/-- Start answering an inbound READ (R334): its record takes an operation and its data are read from the host. Answers nothing when the
operation table has no room (step 14). -/
def State.startServe (s : State) (qpn : Nat) (p : RdmaPkt) (key : Nat) (len : Nat) : Option State :=
  match s.ctx qpn with
  | none => none
  | some c =>
    if !(s.opRoomNet p.inst) then none
    else match s.freeOp with
      | none => none
      | some op =>
        let gen := (s.gen c.inst).getD 0
        let o : Operation := { key := qKey 0xFFFF 0, inst := p.inst, gen := gen, arg := [], kind := 0, dead := false, handle := 0, len := 0 }
        let r : ReadRec := { va := p.va.toNat, rkey := p.rkey, len := len, psn := key, sent := 0, op := op, lastTick := s.time.tick, data := none }
        let s1 := (s.setOp op (some o)).setCtx qpn (some { c with reads := c.reads ++ [r] })
        some ((s1.inflight (p.rkey.toNat / 256) (· + 1)).startRead c.fn p.inst gen (.responder qpn (p.rkey.toNat / 256) key 0 0) [(p.va.toNat, len)])

/-- A READ Request on a standard context; a duplicate is checked and answered again (R341). -/
def State.readReq (s : State) (p : RdmaPkt) (c : Ctx) : State :=
  let d := psnDist c.rqPsn p.psn
  if 0 < d ∧ d < 2 ^ 23 then s.aheadOf p.qpn c
  else if p.dmaLen = 0 ∨ 2147483648 < p.dmaLen ∨ 8 ≤ c.reads.length then s.nakError p.qpn 0x61 p.psn 0 0
  else if !(s.regOk c p.rkey p.va.toNat p.dmaLen false) then s.nakError p.qpn 0x62 p.psn 0 0
  else match s.startServe p.qpn p p.psn p.dmaLen with
    | none => s.rdmaCount c.inst 3 1
    | some s1 => if d = 0 then s1.modCtx p.qpn (fun c => { c with rqPsn := (c.rqPsn + packets c.pmtu p.dmaLen) % 2 ^ 24, nakSent := false }) else s1

/-- UNSUPPORTED_OPCODE_PACKET (R326): another opcode of the reliable-connection transport draws a NAK; other transports are dropped. -/
def State.unsupportedPkt (s : State) (m : Miss) (p : RdmaPkt) : State :=
  if p.opcode.toNat < 32 then
    s.acceptPkt m p (fun st => decide (st = 2) || decide (st = 3)) (fun c s =>
      if s.isFrozen c.inst then s.modInstCtr c.inst (fun x => { x with frozenDrop := x.frozenDrop + 1 })
      else (s.setCtx p.qpn (some { c with respQueue := bits p.c0.toNat 0 16, respEdit := bits p.c0.toNat 16 12, usedTick := s.time.tick })).nakError p.qpn 0x61 p.psn p.psn 0)
  else s.endPkt p

/-! ### The standard requester (R340, R350) -/

/-- Whether a PSN lies among those sent and not yet acknowledged. -/
def Ctx.awaits (c : Ctx) (psn : Nat) : Bool := decide (psnDist c.sqUna psn < psnDist c.sqUna c.sqPsn)

/-- Every WRITE that ends at or before a PSN completes (R340). -/
def State.completeTo (s : State) (qpn : Nat) (c : Ctx) (psn : Nat) : State :=
  c.wqes.foldl (fun s w => if w.sent && !w.isRead && decide (psnDist (w.psn + packets c.pmtu w.len - 1) psn < 2 ^ 23) then s.endWqe qpn w.op 0 else s) s

/-- A NAK for an error ends the work request that it names with its status (R350). -/
def State.nakReceived (s : State) (qpn : Nat) (op : Option Nat) (syn : Nat) : State :=
  match op with
  | some n => s.endWqe qpn n (nakStatus syn)
  | none => s.errorCtx qpn (nakStatus syn)

/-- The work request whose PSNs hold a PSN, else the oldest one sent. -/
def Ctx.wqeAt (c : Ctx) (psn : Nat) : Option Nat :=
  match c.wqes.find? (fun w => w.sent && decide (psnDist w.psn psn < packets c.pmtu w.len)) with
  | some w => some w.op
  | none => (c.wqes.find? (·.sent)).map (·.op)

/-- An Acknowledge packet. -/
def State.ackPkt (s : State) (p : RdmaPkt) (c : Ctx) : State :=
  let syn := p.syndrome.toNat
  if syn < 0x20 then
    if c.awaits p.psn then ((s.setCtx p.qpn (some (c.acked p.psn s.time.tick))).completeTo p.qpn c p.psn).pump p.qpn else s
  else if syn = 0x60 then (s.rdmaCount c.inst 9 1).resendFrom p.qpn p.psn
  else (s.rdmaCount c.inst 9 1).nakReceived p.qpn (c.wqeAt p.psn) syn

/-- Placement of response data over the segments of a READ, the last piece carrying what follows; nothing when the hold store is full. -/
def placeSegs (fn : Nat) (after : AfterPlace) : List (Nat × Nat) → List Byte → State → State
  | [], _, s => s
  | [(a, n)], bs, s => (s.place fn 0 a (bs.take n) after).getD s
  | (a, n) :: rest, bs, s => placeSegs fn after rest (bs.drop n) (s.dataWrite fn a (bs.take n))

/-- A READ response on a standard context: in order, ahead (the READ is reissued for its remaining bytes), or a duplicate. It also
acknowledges what was sent before it (log 35). -/
def State.readResp (s : State) (p : RdmaPkt) (c : Ctx) : State :=
  match c.wqes.find? (fun w => w.isRead && w.sent) with
  | none => s
  | some w =>
    let d := psnDist (w.psn + w.next / pmtuBytes c.pmtu) p.psn
    if 2 ^ 23 ≤ d then s
    else if 0 < d then (s.modCtx p.qpn (fun c => { c with lastAckTick := s.time.tick })).sendReadReq p.qpn c w true
    else if s.holds c.fn && s.holdFull then s
    else
      let bs := p.payload.take (w.len - w.next)
      let next := w.next + bs.length
      let s1 := (s.setCtx p.qpn (some (c.acked p.psn s.time.tick))).completeTo p.qpn c p.psn
      let s2 := s1.setWqe p.qpn { w with next := next }
      (placeSegs c.fn (if w.len ≤ next then .readDone p.qpn w.op else .nothing) (segPart w.segs w.next bs.length) bs s2).pump p.qpn

/-- A timeout of a standard context (R340): with no retry left the oldest work request ends TIMEOUT, else everything from SQ_UNA is sent
again. -/
def State.ackTimeoutOf (s : State) (qpn : Nat) : State :=
  match s.ctx qpn with
  | none => s
  | some c =>
    if c.state ≠ 3 ∨ c.spray = true ∨ s.time.tick < c.lastAckTick + c.ackTimeout then s
    else match c.wqes.find? (·.sent) with
      | none => s
      | some w =>
        if !c.cached then s.startFill qpn
        else
          let s1 := (s.touchCtx qpn).rdmaCount c.inst 11 1
          if c.retriesLeft = 0 then s1.endWqe qpn w.op 3 else (s1.modCtx qpn (fun c => { c with retriesLeft := c.retriesLeft - 1 })).resendFrom qpn c.sqUna

/-- ACK_TIMEOUT (R340). -/
def execAckTimeout (qpn : Nat) (s : State) : Answer := .next (s.ackTimeoutOf qpn)

/-! ### Spray packets (R342 to R345) -/

/-- Where a message lies in the receiver's window (R344). -/
inductive Window where
  | done
  | inside
  | above
deriving DecidableEq, Repr

/-- The place of a message in a context's window. -/
def Ctx.window (c : Ctx) (msg : Nat) : Window :=
  let rel := (msg + 2 ^ 32 - c.msgDone) % 2 ^ 32
  if 2 ^ 31 ≤ rel then .done else if 64 ≤ rel then .above else if c.doneMap.getD rel false then .done else .inside

/-- The placement header fields that step 7 of R332 asks of a packet with payload. -/
def sprayFits (c : Ctx) (sh : SprayHdr) (n : Nat) : Bool :=
  decide (1 ≤ sh.mlen) && decide (sh.mlen ≤ 1048576) && decide (sh.offset % pmtuBytes c.pmtu = 0) && decide (sh.offset < sh.mlen) &&
    decide (n = min (pmtuBytes c.pmtu) (sh.mlen - sh.offset))

/-- The reassembly slot of a message. -/
def Ctx.slot? (c : Ctx) (msg : Nat) : Option Reasm := c.reasms.find? (fun r => decide (r.msg = msg))

/-- Every bit of a bitmap is set. -/
def bitmapFull (b : List Bool) : Bool := b.all id

/-- A placed packet in its message's slot: a full bitmap frees the slot and completes the message. -/
def Ctx.noteWrite (c : Ctx) (sh : SprayHdr) (p : RdmaPkt) (tick : Nat) : Ctx :=
  let k := sh.offset / pmtuBytes c.pmtu
  let r : Reasm := (c.slot? sh.msg).getD { msg := sh.msg, mlen := sh.mlen, va := p.va.toNat, rkey := p.rkey,
                                           bitmap := List.replicate (packets c.pmtu sh.mlen) false, since := tick, rounds := 0 }
  let r1 := { r with bitmap := modifyAt r.bitmap k (fun _ => true) }
  let others := c.reasms.filter (fun x => decide (x.msg ≠ sh.msg))
  if bitmapFull r1.bitmap then ({ c with reasms := others }).finishMsg sh.msg else { c with reasms := others ++ [r1] }

/-- A SPRAY_WRITE at the responder. -/
def State.sprayWritePkt (s : State) (p : RdmaPkt) (sh : SprayHdr) (c : Ctx) : State :=
  let k := sh.offset / pmtuBytes c.pmtu
  let held := match c.slot? sh.msg with | some r => r.bitmap.getD k false | none => false
  let nak := fun (syn : Nat) => s.nakError p.qpn syn sh.msg sh.msg sh.mlen
  if c.window sh.msg = .above then s
  else if c.window sh.msg = .done then s.sendSprayAck p.qpn sh.msg sh.mlen
  else if held then s.rdmaCount c.inst 13 1
  else if !(sprayFits c sh p.payload.length) || decide (p.dmaLen ≠ sh.mlen) || (match c.slot? sh.msg with | some r => decide (r.mlen ≠ sh.mlen) | none => false) then nak 0x61
  else if !(s.regOk c p.rkey (p.va.toNat + sh.offset) p.payload.length true) then nak 0x62
  else if (c.slot? sh.msg).isNone && decide (4096 ≤ s.slotsUsed) then s.rdmaCount c.inst 4 1
  else
    let c1 := c.noteWrite sh p s.time.tick
    let after : AfterPlace := if (c1.slot? sh.msg).isNone then .sprayAck p.qpn sh.msg sh.mlen else .nothing
    match s.place c.fn (p.rkey.toNat / 256) (p.va.toNat + sh.offset) p.payload after with
    | none => s
    | some s1 => s1.modCtx p.qpn (fun d => { d with reasms := c1.reasms, msgDone := c1.msgDone, doneMap := c1.doneMap })

/-- A SPRAY_READ_REQ at the responder; a repeated one is checked and answered again. -/
def State.sprayReadPkt (s : State) (p : RdmaPkt) (sh : SprayHdr) (c : Ctx) : State :=
  let nak := fun (syn : Nat) => s.nakError p.qpn syn sh.msg sh.msg sh.mlen
  let known := (c.read? sh.msg).isSome
  if c.window sh.msg ≠ .inside then s
  else if sh.offset ≠ 0 ∨ sh.mlen = 0 ∨ 1048576 < sh.mlen ∨ p.dmaLen ≠ sh.mlen ∨ p.payload ≠ [] ∨ (known = false ∧ 8 ≤ c.reads.length) then nak 0x61
  else if !(s.regOk c p.rkey p.va.toNat sh.mlen false) then nak 0x62
  else if known then
    (s.inflight (p.rkey.toNat / 256) (· + 1)).startRead c.fn p.inst ((s.gen c.inst).getD 0) (.responder p.qpn (p.rkey.toNat / 256) sh.msg 0 2)
      [(p.va.toNat, sh.mlen)]
  else match s.startServe p.qpn p sh.msg sh.mlen with
    | none => s.rdmaCount c.inst 3 1
    | some s1 => s1

/-- The outstanding work request of a message. -/
def Ctx.wqeMsg (c : Ctx) (msg : Nat) (isRead : Bool) : Option Wqe := c.wqes.find? (fun w => w.sent && decide (w.msg = msg) && decide (w.isRead = isRead))

/-- A SPRAY_READ_RESP at the requester. -/
def State.sprayRespPkt (s : State) (p : RdmaPkt) (sh : SprayHdr) (c : Ctx) : State :=
  match c.wqeMsg sh.msg true with
  | none => s
  | some w =>
    let k := sh.offset / pmtuBytes c.pmtu
    if !w.slot || !(sprayFits c sh p.payload.length) || decide (sh.mlen ≠ w.len) then s
    else if w.bitmap.getD k false then s.rdmaCount c.inst 13 1
    else if s.holds c.fn && s.holdFull then s
    else
      let b := modifyAt w.bitmap k (fun _ => true)
      let s1 := s.setWqe p.qpn { w with bitmap := b, slot := !bitmapFull b, next := w.next + p.payload.length }
      (placeSegs c.fn (if bitmapFull b then .readDone p.qpn w.op else .nothing) (segPart w.segs sh.offset p.payload.length) p.payload s1).pump p.qpn

/-- A SPRAY_ACK: it completes the WRITE of its message, or frees the READ record of its message (R344). -/
def State.sprayAckPkt (s : State) (p : RdmaPkt) (sh : SprayHdr) (c : Ctx) : State :=
  match c.wqeMsg sh.msg false with
  | some w => (s.endWqe p.qpn w.op 0).pump p.qpn
  | none => if (c.read? sh.msg).isSome then (s.freeRead p.qpn sh.msg).modCtx p.qpn (fun c => c.finishMsg sh.msg) else s

/-- A SPRAY_SACK: the missing packets of a WRITE, or of an answered READ once its access has been checked again, are sent on the next
path (R334, R343). -/
def State.sprayMissing (s : State) (p : RdmaPkt) (sh : SprayHdr) (c : Ctx) : State :=
  let size := fun (len : Nat) => min (sh.span * pmtuBytes c.pmtu) (len - sh.offset)
  match c.wqeMsg sh.msg false with
  | some w => if size w.len = 0 then s else s.readPayload p.qpn c w sh.offset (size w.len) 1
  | none =>
    match c.read? sh.msg with
    | none => s
    | some r =>
      if size r.len = 0 then s
      else if !(s.regOk c r.rkey (r.va + sh.offset) (size r.len) false) then s.nakError p.qpn 0x62 sh.msg sh.msg r.len
      else (s.inflight (r.rkey.toNat / 256) (· + 1)).startRead c.fn p.inst ((s.gen c.inst).getD 0) (.responder p.qpn (r.rkey.toNat / 256) sh.msg sh.offset 1)
        [(r.va + sh.offset, size r.len)]

/-- A SPRAY_NAK (R350). -/
def State.sprayNakPkt (s : State) (p : RdmaPkt) (sh : SprayHdr) (c : Ctx) : State :=
  (s.rdmaCount c.inst 9 1).nakReceived p.qpn ((c.wqes.find? (fun w => w.sent && decide (w.msg = sh.msg))).map (·.op)) p.syndrome.toNat

/-- A message unacknowledged for ACK_TIMEOUT ticks after its last packet (R343). -/
def State.sprayTimeoutOf (s : State) (qpn msg : Nat) : State :=
  match s.ctx qpn with
  | none => s
  | some c =>
    match c.wqes.find? (fun w => w.sent && decide (w.msg = msg)) with
    | none => s
    | some w =>
      if c.state ≠ 3 ∨ c.spray = false ∨ s.time.tick < w.lastSent + c.ackTimeout then s
      else if !c.cached then s.startFill qpn
      else
        let s1 := (s.touchCtx qpn).rdmaCount c.inst 11 1
        if c.retry ≤ w.retries then s1.endWqe qpn w.op 3
        else
          let w1 := { w with retries := w.retries + 1, lastSent := s.time.tick }
          let s2 := s1.setWqe qpn w1
          if w.isRead then s2.sendReadReq qpn c w1 true else s2.readPayload qpn c w1 0 w.len 2

/-- SPRAY_MESSAGE_TIMEOUT (R343). -/
def execSprayMessageTimeout (qpn msg : Nat) (s : State) : Answer := .next (s.sprayTimeoutOf qpn msg)

/-- The runs of missing packets of a bitmap: first packet and count, from packet `k` on. -/
def missingRuns : List Bool → Nat → Option (Nat × Nat) → List (Nat × Nat)
  | [], _, none => []
  | [], _, some r => [r]
  | true :: bs, k, none => missingRuns bs (k + 1) none
  | true :: bs, k, some r => r :: missingRuns bs (k + 1) none
  | false :: bs, k, none => missingRuns bs (k + 1) (some (k, 1))
  | false :: bs, k, some (a, n) => missingRuns bs (k + 1) (some (a, n + 1))

/-- One SACK for each run of missing packets, at most 16 (R345). -/
def State.sendSacks (s : State) (qpn : Nat) (c : Ctx) (msg mlen : Nat) (bitmap : List Bool) : State :=
  ((missingRuns bitmap 0 none).take 16).foldl (fun s r =>
    (s.sendReply qpn c 0 (bth 0xC4 0 c.peerQpn (msg % 2 ^ 24) false ++ sprayHeader msg (r.1 * pmtuBytes c.pmtu) mlen 0 0 r.2)).rdmaCount c.inst 12 1) s

/-- REASM ticks have passed on a slot of a responder or a requester (R345). -/
def State.reassemblyOf (s : State) (qpn msg : Nat) : State :=
  match s.ctx qpn with
  | none => s
  | some c =>
    match c.reasms.find? (fun r => decide (r.msg = msg) && decide (r.since + c.reasm ≤ s.time.tick)) with
    | some r =>
      let others := c.reasms.filter (fun x => decide (x.msg ≠ msg))
      if c.retry + 1 ≤ r.rounds then (s.setCtx qpn (some { c with reasms := others })).rdmaCount c.inst 14 1
      else (s.setCtx qpn (some { c with reasms := others ++ [{ r with rounds := r.rounds + 1, since := s.time.tick }] })).sendSacks qpn c msg r.mlen r.bitmap
    | none =>
      match c.wqes.find? (fun w => w.slot && decide (w.msg = msg) && decide (w.slotTick + c.reasm ≤ s.time.tick)) with
      | none => s
      | some w =>
        if w.rounds < c.retry + 1 then (s.setWqe qpn { w with rounds := w.rounds + 1, slotTick := s.time.tick }).sendSacks qpn c msg w.len w.bitmap
        else
          let s1 := s.rdmaCount c.inst 14 1
          if c.retry ≤ w.retries then s1.endWqe qpn w.op 3
          else
            let w1 := { w with retries := w.retries + 1, rounds := 0, slotTick := s.time.tick, lastSent := s.time.tick, next := 0,
                               bitmap := List.replicate w.bitmap.length false }
            (s1.setWqe qpn w1).sendReadReq qpn c w1 true

/-- REASSEMBLY_LIMIT (R345). -/
def execReassemblyLimit (qpn msg : Nat) (s : State) : Answer := .next (s.reassemblyOf qpn msg)

/-- READ_RECORD_TIMEOUT (R344): ACK_TIMEOUT ticks after the last response of a spray READ its record is freed. -/
def State.readRecordOf (s : State) (qpn n : Nat) : State :=
  match s.ctx qpn with
  | none => s
  | some c =>
    match c.reads[n]? with
    | none => s
    | some r =>
      if c.spray && decide (0 < r.sent) && decide (r.lastTick + c.ackTimeout ≤ s.time.tick) then
        (s.freeRead qpn r.psn).modCtx qpn (fun c => c.finishMsg r.psn)
      else s

/-- READ_RECORD_TIMEOUT (R344). -/
def execReadRecordTimeout (qpn record : Nat) (s : State) : Answer := .next (s.readRecordOf qpn record)

/-! ### SUBMIT and TUNE (R348, R349) -/

/-- Write requests that unit 6 answers at the engine: KIND 0x05 with AUX the tag. -/
def rdmaQpn (r : PostReq) : Nat := fieldLe r.block 0x0C 3

/-- The DATA segments that a SUBMIT names, as its buffer holds them. -/
def State.submitSegs (s : State) (r : PostReq) : List (Nat × Nat) :=
  let h := BitVec.ofNat 32 (fieldLe r.block 0x28 4)
  let off := fieldLe r.block 0x2C 4
  (List.range (fieldLe r.block 0x15 1)).map (fun k =>
    let b := s.bufRead h (off + 32 * k) 32
    (fieldLe b 0 8, fieldLe b 8 4))

/-- A work request from a SUBMIT. -/
def State.submitWqe (s : State) (r : PostReq) : Wqe :=
  { req := r, op := fieldLe r.block 8 4 % 2 ^ 31, isRead := decide (fieldLe r.block 0x14 1 = 4), rva := fieldLe r.block 0x18 8,
    rkey := BitVec.ofNat 32 (fieldLe r.block 0x20 4), len := fieldLe r.block 0x24 4, segs := s.submitSegs r, psn := 0, msg := 0, next := 0,
    sent := false, data := [], retries := 0, slot := false, bitmap := [], slotTick := 0, rounds := 0, lastSent := 0 }

/-- A SUBMIT on a context: its immediate answers, else a work request, started at once in RTS (R335, R349). -/
def State.submitReq (s : State) (r : PostReq) : State :=
  let q := rdmaQpn r
  let answer := fun (st : Byte) => (s.endSubmit r).reply r 5 0 0 st
  match s.ctx q with
  | none => answer 0x11
  | some c =>
    if decide (c.inst ≠ r.inst.toNat) then answer 0x11
    else if !c.cached then s.missWaits q c.inst (.submit r)
    else if c.state < 2 then answer 0x0F
    else if c.state = 4 then answer 1
    else
      let w := s.submitWqe r
      if w.len = 0 ∨ (if c.spray then 1048576 else 2147483648) < w.len ∨ (w.segs.map Prod.snd).foldl (· + ·) 0 ≠ w.len then answer 0x0A
      else
        let c1 := { c with wqes := c.wqes ++ [w], reqQueue := fieldLe r.block 0x10 2, reqEdit := fieldLe r.block 0x12 2 % 4096 }
        let s1 := ((s.endSubmit r).setCtx q (some c1)).touchCtx q
        if c.state = 3 then (if w.isRead then s1.pump q else s1.readPayload q c1 w 0 w.len 0) else s1

/-- A TUNE: a field of 0 keeps its value; a value outside the ranges of R337 changes nothing (R348). -/
def State.tuneReq (s : State) (r : PostReq) : State :=
  let q := rdmaQpn r
  let at0 := fieldLe r.block 0x10 2
  let retry := fieldLe r.block 0x12 1
  let reasm := fieldLe r.block 0x13 1
  let msgs := fieldLe r.block 0x14 1
  let answer := fun (s : State) (st : Byte) => if bitOf (fieldLe r.block 6 1) 0 then s.reply r 5 0 0 st else s
  match s.ctx q with
  | none => answer s 0x0A
  | some c =>
    if decide (c.inst ≠ r.inst.toNat) then answer s 0x0A
    else if !c.cached then s.missWaits q c.inst (.submit r)
    else if (0 < at0 ∧ at0 < 16) ∨ 7 < retry ∨ (0 < reasm ∧ reasm < 8) ∨ 64 < msgs then answer s 0x0A
    else
      let pick := fun (new old : Nat) => if new = 0 then old else new
      answer ((s.setCtx q (some { c with ackTimeout := pick at0 c.ackTimeout, retry := pick retry c.retry, reasm := pick reasm c.reasm, maxMsgs := pick msgs c.maxMsgs })).touchCtx q) 0

/-- A request of unit 6. -/
def State.rdmaPost (s : State) (r : PostReq) : State := if fieldLe r.block 4 1 = 1 then s.submitReq r else s.tuneReq r

/-- Whether a posted request is unit 6's with an OP. -/
def isRdmaPost (op : Nat) (r : PostReq) : Bool := decide (r.unit = 6) && decide (fieldLe r.block 4 1 = op)

/-- SUBMIT (R349). -/
def execSubmit (s : State) : Answer := .next (s.serve (isRdmaPost 1) (fun r s => s.submitReq r))
/-- TUNE (R348). -/
def execTune (s : State) : Answer := .next (s.serve (isRdmaPost 2) (fun r s => s.tuneReq r))

/-! ### Context fills (R338, R339) -/

/-- A packet by the BTH opcode of its row (R326, R342), on arrival or when its context's fill has ended. -/
def State.rdmaHandle (s : State) (op : Nat) (p : RdmaPkt) (sh : SprayHdr) : State :=
  let m : Miss := .packet op p sh
  match op with
  | 0x06 => s.request m p false (fun c s => s.writePkt p true false c)
  | 0x07 => s.request m p false (fun c s => s.writePkt p false false c)
  | 0x08 => s.request m p false (fun c s => s.writePkt p false true c)
  | 0x0A => s.request m p false (fun c s => s.writePkt p true true c)
  | 0x0C => s.request m p false (fun c s => s.readReq p c)
  | 0x0D => s.response m p false (fun c s => s.readResp p c)
  | 0x0E => s.response m p false (fun c s => s.readResp p c)
  | 0x0F => s.response m p false (fun c s => s.readResp p c)
  | 0x10 => s.response m p false (fun c s => s.readResp p c)
  | 0x11 => s.response m p false (fun c s => s.ackPkt p c)
  | 0xC0 => s.request m p true (fun c s => s.sprayWritePkt p sh c)
  | 0xC1 => s.request m p true (fun c s => s.sprayReadPkt p sh c)
  | 0xC2 => s.response m p true (fun c s => s.sprayRespPkt p sh c)
  | 0xC3 => s.response m p true (fun c s => s.sprayAckPkt p sh c)
  | 0xC4 => s.response m p true (fun c s => s.sprayMissing p sh c)
  | 0xC5 => s.response m p true (fun c s => s.sprayNakPkt p sh c)
  | _ => s.unsupportedPkt m p

/-- No placement header. -/
def noSpray : SprayHdr := { msg := 0, offset := 0, mlen := 0, path := 0, flags := 0, span := 0 }

/-- The misses of a context are handled in order once its fill has ended; a SUBMIT whose fill failed ends CONTROL_CHECK (R350). -/
def State.replayMisses (s : State) (qpn : Nat) (ok : Bool) : State :=
  let ms := s.rdma.misses.filter (fun m => decide (m.1 = qpn))
  let s1 := { s with rdma := { s.rdma with misses := s.rdma.misses.filter (fun (m : Nat × Miss) => decide (m.1 ≠ qpn)) } }
  ms.foldl (fun s m => match m.2 with
    | .packet op p sh => s.rdmaHandle op p sh
    | .submit r => if ok || decide (fieldLe r.block 4 1 = 2) then s.rdmaPost r else (s.endSubmit r).reply r 5 0 0 0x0E) s1

/-- A fill's data arrive (R338, R372): a good record fills the line; a bad one moves the context to ERROR and is logged, and so does a failed read of
the spill index, which its line's event logs. PF1's requests are
held while its Bus Master Enable is 0. A context that entered ERROR while it was not cached (R336) stays in ERROR (log 49). -/
def State.fillDone (s : State) (qpn : Nat) (bytes : List Byte) (fail : Option LookupFail) : State :=
  match s.ctx qpn with
  | none => s
  | some c =>
    if !c.filling || s.holds 1 then s
    else
      let (w, s0) := s.indexRead qpn fail
      let c1 := { c with filling := false, cached := true, filled := bytes }
      let d := ctxOfBytes c1 bytes
      let d1 := if c.state = 4 then { d with state := 4, errStatus := c.errStatus } else d
      if w.isSome && ctxBytesOk qpn c.slotNo bytes then (((s0.setCtx qpn (some d1)).touchCtx qpn).replayMisses qpn true).retryFills
      else
        let s1 := (s0.setCtx qpn (some c1)).errorCtx qpn 0x0E
        let s2 := if w.isSome then s1.log 0x0804 qpn c.slotNo else s1
        (s2.replayMisses qpn false).retryFills

/-- CONTEXT_FILL (R338). -/
def execContextFill (qpn : Nat) (bytes : List Byte) (s : State) (fail : Option LookupFail := none) : Answer := .next (s.fillDone qpn bytes fail)

/-- RDMA_COUNTERS (R351): the counters that have changed since their last record are written to the event log. -/
def execRdmaCounters (s : State) : Answer :=
  .next (s.rdma.counters.foldl (fun s e =>
    if FMap.get 0 s.rdma.logged e.1 = e.2 then s
    else { s.log 0x0E01 (e.1 / 32 * 65536 + e.1 % 32) e.2 with rdma := { s.rdma with logged := FMap.set 0 s.rdma.logged e.1 e.2 } }) s)

/-! ### The packet rows -/

/-- RDMA_WRITE_FIRST (R332). -/
def execRdmaWriteFirst (p : RdmaPkt) (s : State) : Answer := .next (s.rdmaHandle 0x06 p noSpray)
/-- RDMA_WRITE_MIDDLE (R332). -/
def execRdmaWriteMiddle (p : RdmaPkt) (s : State) : Answer := .next (s.rdmaHandle 0x07 p noSpray)
/-- RDMA_WRITE_LAST (R332). -/
def execRdmaWriteLast (p : RdmaPkt) (s : State) : Answer := .next (s.rdmaHandle 0x08 p noSpray)
/-- RDMA_WRITE_ONLY (R332). -/
def execRdmaWriteOnly (p : RdmaPkt) (s : State) : Answer := .next (s.rdmaHandle 0x0A p noSpray)
/-- RDMA_READ_REQUEST (R332). -/
def execRdmaReadRequest (p : RdmaPkt) (s : State) : Answer := .next (s.rdmaHandle 0x0C p noSpray)
/-- RDMA_READ_RESPONSE_FIRST (R340). -/
def execRdmaReadResponseFirst (p : RdmaPkt) (s : State) : Answer := .next (s.rdmaHandle 0x0D p noSpray)
/-- RDMA_READ_RESPONSE_MIDDLE (R340). -/
def execRdmaReadResponseMiddle (p : RdmaPkt) (s : State) : Answer := .next (s.rdmaHandle 0x0E p noSpray)
/-- RDMA_READ_RESPONSE_LAST (R340). -/
def execRdmaReadResponseLast (p : RdmaPkt) (s : State) : Answer := .next (s.rdmaHandle 0x0F p noSpray)
/-- RDMA_READ_RESPONSE_ONLY (R340). -/
def execRdmaReadResponseOnly (p : RdmaPkt) (s : State) : Answer := .next (s.rdmaHandle 0x10 p noSpray)
/-- ACKNOWLEDGE (R340). -/
def execAcknowledge (p : RdmaPkt) (s : State) : Answer := .next (s.rdmaHandle 0x11 p noSpray)
/-- SPRAY_WRITE (R344). -/
def execSprayWrite (p : RdmaPkt) (sh : SprayHdr) (s : State) : Answer := .next (s.rdmaHandle 0xC0 p sh)
/-- SPRAY_READ_REQ (R342). -/
def execSprayReadReq (p : RdmaPkt) (sh : SprayHdr) (s : State) : Answer := .next (s.rdmaHandle 0xC1 p sh)
/-- SPRAY_READ_RESP (R344). -/
def execSprayReadResp (p : RdmaPkt) (sh : SprayHdr) (s : State) : Answer := .next (s.rdmaHandle 0xC2 p sh)
/-- SPRAY_ACK (R344). -/
def execSprayAck (p : RdmaPkt) (sh : SprayHdr) (s : State) : Answer := .next (s.rdmaHandle 0xC3 p sh)
/-- SPRAY_SACK (R343). -/
def execSpraySack (p : RdmaPkt) (sh : SprayHdr) (s : State) : Answer := .next (s.rdmaHandle 0xC4 p sh)
/-- SPRAY_NAK (R350). -/
def execSprayNak (p : RdmaPkt) (sh : SprayHdr) (s : State) : Answer := .next (s.rdmaHandle 0xC5 p sh)
/-- UNSUPPORTED_OPCODE_PACKET (R326). -/
def execUnsupportedOpcodePacket (p : RdmaPkt) (s : State) : Answer := .next (s.rdmaHandle 0xFF p noSpray)

end Sys2Proof.Machine
end

