-- ==== Sys2Proof/Machine/MbadelRdma.lean ====
section
/-!
DEFINITION. Mbadel group 0x05: registrations and connection contexts (R238, R335, R337, R347).
-/

namespace Sys2Proof.Machine

/-! ### Registrations (R331, R332, R347) -/

/-- The judgement of REG_CREATE: it counts against REGS (R277). -/
def regCreateJudge (n pd : Nat) (rights : Byte) (base length : Nat) : Judge :=
  { need := 24,
    bad := if 4096 ≤ n then some 0 else if 65536 ≤ pd then some 2 else if 4 ≤ rights.toNat then some 4 else if 2 ^ 64 ≤ base then some 8
           else if 2 ^ 64 < base + length then some 16 else none,
    objs := [obj .inst n], missing := noInst n,
    pre := fun s => match s.inst n with
      | some i => failIf (decide (i.res.regs ≤ (s.regsOf n).length)) vNoRes
      | none => none }

/-- REG_CREATE's effect: a FREE index becomes ACTIVE with its tag. -/
def State.createReg (s : State) (n pd : Nat) (rights : Byte) (base length : Nat) : State × CmdEnd × List Byte :=
  let used := (s.rdma.regs.filter (fun e => decide (e.2.state ≠ 0))).map (·.1)
  match s.pickFree 4 used 1 16777215 with
  | none => (s, vNoRes, [])
  | some i =>
    let tag := (s.reg i).tag
    let r : Reg := { base := base, length := length, inst := n, pd := pd, tag := tag, rights := rights, state := 1, inflight := 0, marked := 0 }
    ((s.setReg i r).tickFree, vOk, leBytes 4 (i * 256 + tag.toNat))

/-- REG_CREATE (R238). -/
def execRegCreate (h : MbHdr) (inst pd : Nat) (rights : Byte) (base length : Nat) (s : State) : Answer :=
  .next (s.runNow h (row 0x0501) (regCreateJudge inst pd rights base length) (fun s => s.createReg inst pd rights base length))

/-- The judgement of REG_REVOKE: the key names a registration that is not already REVOKING. -/
def regRevokeJudge (rkey : Word) : Judge :=
  let i := rkey.toNat / 256
  { need := 4, bad := none, objs := [obj .reg i],
    missing := fun s =>
      let r := s.reg i
      if i = 0 ∨ r.state = 0 ∨ r.tag.toNat ≠ rkey.toNat % 256 then some i else none,
    pre := fun s => failIf (decide ((s.reg i).state = 2)) (vPre 1) }

/-- REG_REVOKE (R347): the entry becomes REVOKING in the tick of the take. -/
def execRegRevoke (h : MbHdr) (rkey : Word) (s : State) : Answer :=
  .next (s.runLong h (row 0x0502) (regRevokeJudge rkey) (.regRevoke h rkey) false (fun s => s.revoking (rkey.toNat / 256)))

/-- REVOKE_DRAIN_COMPLETE (R347): step 3, for a registration that is REVOKING with INFLIGHT 0. -/
def execRevokeDrainComplete (index : Nat) (s : State) : Answer :=
  let s1 := s.settleReg index
  .next (if (s.reg index).state = 2 ∧ (s1.reg index).state = 0 then
      match s1.runningOn 0x0502 (obj .reg index) with
      | some w => s1.endLong w vOk [] 0
      | none => s1
    else s)

/-! ### Contexts (R335 to R338) -/

/-- CTX_BACKING (R238): the host memory of the backing store. -/
def execCtxBacking (h : MbHdr) (addr count : Nat) (s : State) : Answer :=
  .next (s.runDo h (row 0x0503)
    { Judge.plain 12 with
        bad := if addr % 4096 ≠ 0 ∨ 2 ^ 64 ≤ addr then some 0 else if 1048576 < count then some 8 else none,
        pre := fun s => failIf (s.rdma.ctxs.any (fun e => e.2.isSome)) (vPre 1) }
    (fun s => { s with rdma := { s.rdma with backing := some (addr, count) } }))

/-- The judgement of CTX_CREATE: it counts against CTXS (R277). -/
def ctxCreateJudge (n pd qpn : Nat) (mode paths pmtu : Byte) (peerIsStador : Bool) : Judge :=
  { need := 32,
    bad := if 4096 ≤ n then some 0 else if 65536 ≤ pd then some 2 else if 2 ^ 24 ≤ qpn then some 4 else if 1 < mode.toNat then some 8
           else if paths = 0 ∨ 16 < paths.toNat then some 9 else if pmtu = 0 ∨ 5 < pmtu.toNat then some 10 else none,
    objs := [obj .inst n, obj .ctx qpn], missing := noInst n,
    pre := fun s => firstOf
      [failIf (s.ctx qpn).isSome (vPre 1), failIf (decide (mode = 1) && !peerIsStador) (vPre 2),
       (match s.inst n with | some i => failIf (decide (i.res.ctxs ≤ (s.ctxsOf n).length)) vNoRes | none => none),
       failIf s.freeSlot.isNone vNoRes] }

/-- CTX_CREATE (R238): a context in RESET with a free slot of the backing store; PATHS is 1 when MODE is 0 (R337). -/
def execCtxCreate (h : MbHdr) (inst pd qpn : Nat) (mode paths pmtu : Byte) (peerQpn : Nat) (peer : List Byte) (peerIsStador : Bool) (s : State) :
    Answer :=
  .next (s.runDo h (row 0x0504) (ctxCreateJudge inst pd qpn mode paths pmtu peerIsStador) (fun s =>
    match s.freeSlot with
    | some k =>
      s.tickFree.installCtx qpn
        (Ctx.make (peerQpn % 2 ^ 24) inst pd mode.toNat (if mode = 0 then 1 else paths.toNat) pmtu.toNat (padTo 16 peer) k)
    | none => s))

/-- The transitions of a queue pair that the InfiniBand standard permits and the part implements (R335). -/
def ctxMoveOk (old new : Nat) : Bool :=
  decide (new = 0) || decide (new = 4) || (decide (old = 0) && decide (new = 1)) || (decide (old = 1) && decide (new = 1)) ||
    (decide (old = 1) && decide (new = 2)) || (decide (old = 2) && decide (new = 3)) || (decide (old = 3) && decide (new = 3))

/-- The context that CTX_MODIFY names, when it does not exist. -/
def noCtx (qpn : Nat) (s : State) : Option Nat := if (s.ctx qpn).isSome then none else some qpn

/-- A context that is not cached is brought into the cache with its present record (log 49). -/
def State.cacheCtx (s : State) (qpn : Nat) : State :=
  match s.ctx qpn with
  | none => s
  | some c =>
    if c.cached then s
    else (s.installCtx qpn { c with cached := true, filling := false }).replayMisses qpn true

/-- CTX_MODIFY's effect: RQ_PSN is set on the move to RTR, SQ_PSN on the move to RTS, which starts held work; RESET clears (R335). -/
def State.modifyCtx (s : State) (qpn new sqPsn rqPsn : Nat) : State :=
  match s.ctx qpn with
  | none => s
  | some c =>
    if new = 4 then (if c.state = 4 then s else s.errorCtx qpn 0)
    else if new = 0 then ((s.errorCtx qpn 1).modCtx qpn Ctx.clear).cacheCtx qpn
    else
      let d := if new = 2 then { c with state := 2, rqPsn := rqPsn }
               else if new = 3 ∧ c.state = 2 then { c with state := 3, sqPsn := sqPsn, sqUna := sqPsn }
               else { c with state := new }
      ((s.setCtx qpn (some d)).cacheCtx qpn).startWork qpn

/-- CTX_MODIFY (R335, R238). -/
def execCtxModify (h : MbHdr) (qpn : Nat) (newState : Byte) (sqPsn rqPsn : Nat) (s : State) : Answer :=
  .next (s.runDo h (row 0x0505)
    { need := 16,
      bad := if 2 ^ 24 ≤ qpn then some 0 else if 4 < newState.toNat then some 4 else if 2 ^ 24 ≤ sqPsn then some 8
             else if 2 ^ 24 ≤ rqPsn then some 12 else none,
      objs := [obj .ctx qpn], missing := noCtx qpn,
      pre := fun s => match s.ctx qpn with | some c => failIf (!ctxMoveOk c.state newState.toNat) (vPre 1) | none => none }
    (fun s => s.modifyCtx qpn newState.toNat sqPsn rqPsn))

/-- CTX_DESTROY (R238): outstanding work requests complete ABORTED; nothing else is waited for. -/
def execCtxDestroy (h : MbHdr) (qpn : Nat) (s : State) : Answer :=
  .next (s.runDo h (row 0x0506)
    { need := 4, bad := if 2 ^ 24 ≤ qpn then some 0 else none, objs := [obj .ctx qpn], missing := noCtx qpn, pre := fun _ => none }
    (fun s => s.destroyCtx qpn))

/-- CTX_QUERY (R238). -/
def execCtxQuery (h : MbHdr) (qpn : Nat) (s : State) : Answer :=
  .next (s.runQuery h (row 0x0507)
    { need := 12, bad := if 2 ^ 24 ≤ qpn then some 0 else none, objs := [obj .ctx qpn], missing := noCtx qpn, pre := fun _ => none }
    (fun s => match s.ctx qpn with
      | some c => [BitVec.ofNat 8 c.state, BitVec.ofNat 8 (b2n c.cached), 0, 0] ++ leBytes 4 c.sqPsn ++ leBytes 4 c.rqPsn
      | none => zeros 12))

end Sys2Proof.Machine
end

