-- ==== Sys2Proof/Machine/MbadelStorage.lean ====
section
/-!
DEFINITION. Mbadel group 0x06: storage backends and namespaces (R239, R317, R318, R320).
-/

namespace Sys2Proof.Machine

/-! ### Backends -/

/-- The backend that a command names, when it does not exist. -/
def noBackend (b : Nat) (s : State) : Option Nat := if (s.backend b).isSome then none else some b

/-- The judgement of BACKEND_ADD; up to 1,024 backends exist (R317). -/
def backendAddJudge (b : Nat) (transport : Byte) (port : Nat) (subnqn : List Byte) : Judge :=
  { need := 248,
    bad := if 65536 ≤ b then some 0 else if transport ≠ 1 ∧ transport ≠ 2 then some 2 else if 65536 ≤ port then some 4
           else if !((padTo 224 subnqn).contains 0) then some 24 else none,
    objs := [obj .backend b], missing := fun _ => none,
    pre := fun s => firstOf [failIf (s.backend b).isSome (vPre 1),
                             failIf (decide (1024 ≤ (s.sto.backends.filter (fun e => e.2.isSome)).length)) vNoRes] }

/-- BACKEND_ADD (R239, R317): Geleath connects to the target's admin queue; the backend is DOWN until BACKEND_CONNECTED. -/
def execBackendAdd (h : MbHdr) (backend : Nat) (transport : Byte) (port : Nat) (addr subnqn : List Byte) (s : State) : Answer :=
  .next (s.runLong h (row 0x0601) (backendAddJudge backend transport port subnqn) (.backendAdd h backend transport port addr subnqn) false
    (fun s =>
      let b : Backend := { transport := transport.toNat, port := port, addr := padTo 16 addr, subnqn := padTo 224 subnqn, up := false, lostAt := none,
                           tries := 0, queues := [], keepAlives := 0 }
      (s.setBackend backend (some b)).toBackend backend 0 (connectCapsule 0 b.subnqn)))

/-- A BACKEND_ADD whose backend is up completes. -/
def State.settleAdd (s : State) (b : Nat) : State :=
  match s.runningOn 0x0601 (obj .backend b), s.backend b with
  | some w, some v => if v.up then s.endLong w vOk [] 0 else s
  | _, _ => s

/-- BACKEND_CONNECTED (R239): the backend is up, BACKEND_ADD completes, and waiting commands leave. -/
def execBackendConnected (backend : Nat) (s : State) : Answer :=
  .next (match s.backend backend with
    | some b =>
      if b.up then s
      else (((s.setBackend backend (some { b with up := true, lostAt := none })).log 0x0A02 backend 1).pumpBackends).settleAdd backend
    | none => s)

/-- BACKEND_REMOVE (R239): it completes at once, as nothing is outstanding on a backend with no namespace. -/
def execBackendRemove (h : MbHdr) (backend : Nat) (s : State) : Answer :=
  .next (s.runDo h (row 0x0602)
    { need := 2, bad := if backend < 65536 then none else some 0, objs := [obj .backend backend], missing := noBackend backend,
      pre := fun s => failIf (s.sto.nss.any (fun e => match e.2 with | some n => decide (n.backend = backend) | none => false)) (vPre 1) }
    (fun s => s.setBackend backend none))

/-- BACKEND_QUERY (R239). -/
def execBackendQuery (h : MbHdr) (backend : Nat) (s : State) : Answer :=
  .next (s.runQuery h (row 0x0607)
    { need := 8, bad := if backend < 65536 then none else some 0, objs := [obj .backend backend], missing := noBackend backend, pre := fun _ => none }
    (fun s => match s.backend backend with
      | some b => [BitVec.ofNat 8 (b2n b.up), 0, 0, 0] ++
          leBytes 4 (s.sto.cmds.filter (fun e => match e.2 with | some c => decide (c.backend = backend) | none => false)).length
      | none => zeros 8))

/-! ### Namespaces -/

/-- Replace a namespace. -/
def State.setNs (s : State) (n : Nat) (v : Option Namespace) : State := { s with sto := { s.sto with nss := FMap.set none s.sto.nss n v } }

/-- The judgement of NS_CREATE (R239, R318), before the backend is asked; up to 65,536 namespaces exist. -/
def nsCreateJudge (n backend remoteNsid : Nat) : Judge :=
  { need := 16, bad := if 2 ^ 32 ≤ n then some 0 else if 65536 ≤ backend then some 4 else if 2 ^ 32 ≤ remoteNsid then some 8 else none,
    objs := [obj .ns n, obj .backend backend], missing := noBackend backend,
    pre := fun s => firstOf
      [failIf (s.ns n).isSome (vPre 1), failIf (match s.backend backend with | some b => !b.up | none => true) (vPre 2),
       failIf (decide (65536 ≤ (s.sto.nss.filter (fun e => e.2.isSome)).length)) vNoRes] }

/-- The remote Identify Namespace as the NVMe standard lays it out: the format in use (FLBAS), its data and metadata sizes, NSZE and DPS (log 50). -/
def remoteOf (data : List Byte) : RemoteNs :=
  let lbaf := 128 + 4 * (fieldLe data 26 1 % 16)
  { block := 2 ^ fieldLe data (lbaf + 2) 1, blocks := fieldLe data 0 8, metaOrPi := decide (fieldLe data lbaf 2 ≠ 0) || decide (fieldLe data 29 1 % 8 ≠ 0) }

/-- The backend has answered an NS_CREATE (R239, R318): the remote format must be one that Geleath supports. -/
def State.nsAnswer (s : State) (w : Running) (remote : RemoteNs) : State :=
  match w.cmd with
  | .nsCreate h ns backend remoteNsid _ =>
    if (remote.block ≠ 512 ∧ remote.block ≠ 4096) ∨ remote.metaOrPi = true then s.endLong w (vOwn 0x0F 1) [] 0
    else if h.checkOnly then s.endLong w vOk [] 0
    else
      (s.setNs ns (some { backend := backend, remote := remoteNsid, block := remote.block, blocks := remote.blocks })).endLong w vOk
        (leBytes 4 remote.block ++ zeros 4 ++ leBytes 8 remote.blocks) 16
  | _ => s

/-- NS_CREATE (R239, R318) asks the backend's admin queue for the remote Identify Namespace, holding the namespace and the backend. `remote` is an answer
that comes with the command; else the answer is a BACKEND_REPLY, and the command ends TIMEOUT without one. A command that only checks asks too (R227). -/
def execNsCreate (h : MbHdr) (ns backend remoteNsid : Nat) (remote : Option RemoteNs) (s : State) : Answer :=
  .next (s.takenCmd h (row 0x0603) (fun s ptr len =>
    match s.judgeCmd s len (nsCreateJudge ns backend remoteNsid) with
    | some v => s.endCmd h.hm.val ptr len h.v2 v
    | none =>
      let ref := s.sto.nextBref
      let w : Running := { cmd := .nsCreate h ns backend remoteNsid remote, hm := h.hm.val, ptr := ptr, len := len, v2 := h.v2, opcode := 0x0603,
                           objs := [obj .ns ns, obj .backend backend], start := s.cmdTick, stage := 1 + ref }
      let s1 := { s with mbadel := { s.mbadel with running := s.mbadel.running ++ [w] }, sto := { s.sto with nextBref := ref % 0xFFFFFFFF + 1 } }
      let s2 := s1.toBackend backend 0 (padTo 64 ([0x06, 0] ++ leBytes 2 (ref % 65536) ++ leBytes 4 remoteNsid))
      match remote with
      | some r => s2.nsAnswer w r
      | none => s2))

/-- The NS_CREATE whose Identify command has a reference. -/
def State.identifying (s : State) (ref : Nat) : Option Running :=
  s.mbadel.running.find? (fun r => decide (r.opcode = 0x0603) && decide (r.stage = 1 + ref))

/-- BACKEND_REPLY (R321): a reply to a command of unit 7, or the Identify data that an NS_CREATE waits for, whole (log 50). -/
def execBackendReply (backend bref : Nat) (rkind status : Byte) (offset : Nat) (data : List Byte) (s : State) (lane : Nat := 0) : Answer :=
  .next (match s.bcmd bref with
    | some c => if c.backend = backend then s.backendReplyIn bref lane rkind status offset data else s
    | none =>
      match s.identifying bref with
      | some w => if w.objs.contains (obj .backend backend) && decide (rkind = 2) && decide (status = 0) then s.nsAnswer w (remoteOf data) else s
      | none => s)

/-- The judgement of NS_ATTACH (R239, R277). -/
def attachJudge (n ns nsid : Nat) : Judge :=
  { need := 12, bad := if 4096 ≤ n then some 0 else if 2 ^ 32 ≤ ns then some 4 else if nsid = 0 ∨ 256 < nsid then some 8 else none,
    objs := [obj .inst n, obj .ns ns],
    missing := fun s => match noInst n s with | some k => some k | none => if (s.ns ns).isSome then none else some ns,
    pre := fun s => firstOf
      [failIf (FMap.get none s.sto.attach (n * 512 + nsid)).isSome (vPre 1),
       (match s.inst n with | some i => failIf (decide (i.res.ns ≤ (s.attachedTo n).length)) vNoRes | none => none)] }

/-- NS_ATTACH's effect. -/
def State.attachNs (s : State) (n ns nsid : Nat) : State :=
  { s with sto := { s.sto with attach := FMap.set none s.sto.attach (n * 512 + nsid) (some ns) } }

/-- Whether commands of an attached namespace are outstanding. -/
def State.nsBusy (s : State) (n nsid : Nat) : Bool := (s.ctl (vfSto n)).outs.any (fun o => decide (o.nsid.toNat = nsid))

/-- NS_DETACH completes: the namespace is detached, and what is still outstanding ends under R320. -/
def State.endDetach (s : State) (w : Running) (n nsid : Nat) : State := (s.detach n nsid).endLong w vOk [] 0

/-- Every NS_DETACH with no command outstanding completes, and every BACKEND_ADD whose backend is up. -/
def State.settleDetaches (s : State) : State :=
  s.mbadel.running.foldl (fun s w =>
    match w.cmd with
    | .nsDetach _ n nsid => if decide (w.opcode = 0x0605) && !s.nsBusy n nsid then s.endDetach w n nsid else s
    | .backendAdd _ b _ _ _ _ => s.settleAdd b
    | _ => s) s

/-- The judgement of NS_DETACH: the instance exists and has a namespace at the NSID. -/
def detachJudge (n nsid : Nat) : Judge :=
  { need := 12, bad := if 4096 ≤ n then some 0 else if nsid = 0 ∨ 256 < nsid then some 8 else none, objs := [obj .inst n],
    missing := fun s => match noInst n s with
      | some k => some k
      | none => if (FMap.get none s.sto.attach (n * 512 + nsid)).isSome then none else some nsid,
    pre := fun _ => none }

/-- NS_DETACH (R239, R320): it waits for the outstanding commands of the namespace; the attachment stays until then (log 50). -/
def execNsDetach (h : MbHdr) (inst nsid : Nat) (s : State) : Answer :=
  .next (s.runLong h (row 0x0605) (detachJudge inst nsid) (.nsDetach h inst nsid) false State.settleDetaches)

/-- NS_DESTROY (R239). -/
def execNsDestroy (h : MbHdr) (ns : Nat) (s : State) : Answer :=
  .next (s.runDo h (row 0x0606)
    { need := 4, bad := if ns < 2 ^ 32 then none else some 0, objs := [obj .ns ns],
      missing := fun s => if (s.ns ns).isSome then none else some ns,
      pre := fun s => failIf (s.sto.attach.any (fun e => decide (e.2 = some ns))) (vPre 1) }
    (fun s => s.setNs ns none))

end Sys2Proof.Machine
end

