-- ==== Sys2Proof/Machine/MbadelTables.lean ====
section
/-!
DEFINITION. The tables of group 0x04 (R120 to R136, R236): creation and destruction, batches and staging, the application of a batch at its
turn, and reads. COMMIT itself stands in StackOps, since a stack applies it everywhere at once (R237).
-/

namespace Sys2Proof.Machine

/-! ### Actions, stage descriptors and nodes as staging checks them (R103, R114, R117, R119) -/

/-- Whether an action word may be staged beside an entry that holds `words` data words. -/
def actionOk (a : Word) (words : Nat) : Bool :=
  let k := actKind a
  let p := bits a.toNat 17 10
  decide (bits a.toNat 27 5 = 0) && decide (k ≤ 6) && decide (actNdata a ≤ min 5 words) && decide (actCdst a + actNdata a ≤ 32) &&
    (if k = 3 ∨ k = 4 then decide (actEntry a ≠ 0) else decide (actEntry a = 0)) &&
    (match k with
     | 2 => decide (p < 256)
     | 4 => true
     | 5 => decide (p < 256)
     | 6 => decide (p < 2)
     | _ => decide (p = 0))

/-- Whether a word may be a default action: unchanged, or a verdict kind without data words. -/
def defaultOk (a : Word) : Bool :=
  decide (a = 0xFFFFFFFF#32) || (actionOk a 0 && decide (2 ≤ actKind a) && decide (actKind a ≤ 6))

/-- The first offset of a list of (offset, whether it is right). -/
def firstBad : List (Nat × Bool) → Option Nat
  | [] => none
  | (off, ok) :: r => if ok then firstBad r else some off

/-- Whether a key segment is well formed (R119). -/
def segOk (g : Nat) : Bool :=
  decide (bits g 26 6 = 0) && (match bits g 0 2 with
    | 2 => decide (bits g 2 3 ≠ 0)
    | 3 => decide (bits g 14 4 ≤ 3)
    | _ => true)

/-- The segments of a stage descriptor. -/
def stageSegs (d : List Byte) : List Nat := ((List.range 10).map (fun i => fieldLe d (0x18 + 4 * i) 4)).takeWhile (fun g => decide (bits g 0 2 ≠ 0))

/-- The bytes of the key that a descriptor builds. -/
def stageKeyLen (d : List Byte) : Nat := ((stageSegs d).map (fun g => bits g 14 4 + 1)).foldl (· + ·) 0

/-- The first malformed field of a stage descriptor, apart from what depends on its tables. -/
def stageBad (d : List Byte) : Option Nat :=
  firstBad ([(0, decide (fieldLe d 0 1 ≤ 5)), (1, decide (fieldLe d 1 1 < 4)), (2, decide (fieldLe d 2 1 < 32)), (3, decide (fieldLe d 3 1 ≤ 30))] ++
    (List.range 4).map (fun i => (4 + i, decide (fieldLe d (4 + i) 1 < 64))) ++
    [(8, decide (fieldLe d 8 1 < 32)), (9, decide (fieldLe d 9 3 = 0)), (0x14, actionOk (BitVec.ofNat 32 (fieldLe d 0x14 4)) 0)] ++
    (List.range 10).map (fun i => (0x18 + 4 * i, segOk (fieldLe d (0x18 + 4 * i) 4))))

/-- The tables that a descriptor names; an OFF stage names none. -/
def stageTables (d : List Byte) : List Nat := if fieldLe d 0 1 = 0 then [] else (List.range 4).map (fun i => fieldLe d (4 + i) 1)

/-- The code of a table type in a descriptor (R117). -/
def TableType.code : TableType → Nat
  | .exact => 1 | .lpm => 2 | .tree => 3 | .range => 4 | .direct => 5

/-- The first field of a descriptor that its tables do not allow: their type, or a key longer than theirs (R117, R118). -/
def stageTableBad (c : ClsConfig) (d : List Byte) : Option Nat :=
  firstBad (((stageTables d).zipIdx.map (fun p => (4 + p.2, match c.table p.1 with
      | some t => decide (t.type.code = fieldLe d 0 1) | none => true))) ++
    ((stageTables d).map (fun n => (0x18, match c.table n with | some t => decide (stageKeyLen d ≤ t.keylen) | none => true))))

/-- Whether a next step is one of R103. -/
def nextOk (n : Nat) : Bool := decide (n < 256) || decide (n = 0x8000) || decide (n = 0x8001)

/-- The first malformed field of a parse node (R103). -/
def nodeBad (d : List Byte) : Option Nat :=
  let kind := fieldLe d 0 1
  let gen := decide (kind = 0x16)
  let tc := fieldLe d 6 1
  firstBad ([(0, decide (1 ≤ kind) && decide (kind ≤ 0x16)), (1, decide (fieldLe d 1 1 < 8)),
      (2, if gen then decide (1 ≤ fieldLe d 2 1) else decide (fieldLe d 2 1 = 0)),
      (3, if gen then decide (fieldLe d 3 1 + 2 ≤ fieldLe d 2 1) else decide (fieldLe d 3 1 = 0)),
      (4, nextOk (fieldLe d 4 2)), (6, decide (tc ≤ 7)), (7, decide (fieldLe d 7 1 = 0))] ++
    (List.range 7).map (fun i => (12 + 8 * i, decide (tc ≤ i) || nextOk (fieldLe d (12 + 8 * i) 2))) ++
    (List.range 7).map (fun i => (14 + 8 * i, decide (fieldLe d (14 + 8 * i) 2 = 0))))

/-- The offset of the first malformed item of a list that starts at `base` in items of `stride` bytes. -/
def itemsBad (bad : List Byte → Option Nat) (stride : Nat) : Nat → List (List Byte) → Option Nat
  | _, [] => none
  | base, d :: ds => match bad (padTo stride d) with | some off => some (base + off) | none => itemsBad bad stride (base + stride) ds

/-! ### Creating and destroying tables (R120, R121, R130) -/

/-- The table type of a code. -/
def typeOf : Nat → TableType
  | 1 => .exact | 2 => .lpm | 3 => .tree | 4 => .range | _ => .direct

/-- Whether a table counts against the same total as one of this type, residency and, for LPM, family. -/
def sameTotal (a b : Table) : Bool :=
  decide (a.type = b.type) && decide (a.resident = b.resident) && (decide (a.type ≠ .lpm) || decide (a.keylen = b.keylen))

/-- The total that a table counts against (R121, R130), under a plan. -/
def totalOf (plan : List Nat) (t : Table) : Nat :=
  match t.type with
  | .exact => if t.resident then min 262144 (plan.getD 8 0 * 16) else min 16777216 (plan.getD 5 0 * 8192)
  | .lpm => if t.keylen = 4 then 2097152 else 1048576
  | .tree => 262144
  | .range => 65536
  | .direct => if t.resident then min 65536 (plan.getD 4 0 * 32) else 8388608

/-- The tables in force. -/
def State.tablesNow (s : State) : List Table := s.cls.cur.tables.filterMap (fun e => e.2)

/-- Whether a new table fits (R121). LPM first levels take 256 KiB each, in pairs of one table of each family (R130, log 46). -/
def State.tableFits (s : State) (t : Table) : Bool :=
  let same := s.tablesNow.filter (sameTotal t)
  let used := (same.map (·.capacity)).foldl (· + ·) 0
  decide (used + t.capacity ≤ totalOf s.cls.tablePlan t) &&
    (decide (t.type ≠ .lpm) || decide ((same.length + 1) * 512 ≤ s.cls.tablePlan.getD 0 0))

/-- Whether a number is a power of two. -/
def isPow2 (n : Nat) : Bool := decide (n ≠ 0) && decide (2 ^ Nat.log2 n = n)

/-- Whether a type allows a key length (R120). -/
def keylenOk (type keylen : Nat) : Bool :=
  match type with
  | 1 => decide (1 ≤ keylen) && decide (keylen ≤ 40)
  | 2 => decide (keylen = 4) || decide (keylen = 16)
  | 3 => decide (1 ≤ keylen) && decide (keylen ≤ 40)
  | 4 => decide (keylen = 4)
  | _ => decide (1 ≤ keylen) && decide (keylen ≤ 4)

/-- The table that TABLE_CREATE makes. -/
def newTable (type keylen flags : Byte) (capacity : Nat) (tseed : Word) (nfields : Nat) (fields : List (Nat × Nat)) : Table :=
  { type := typeOf type.toNat, keylen := keylen.toNat, capacity := capacity, resident := flags.getLsbD 0, engine := flags.getLsbD 1,
    tseed := tseed, fields := if type = 3 then fields.take nfields else [], entries := [] }

/-- The judgement of TABLE_CREATE. -/
def tableJudge (table : Nat) (type keylen flags : Byte) (capacity : Nat) (tseed : Word) (nfields : Nat) (fields : List (Nat × Nat)) : Judge :=
  let ty := type.toNat
  let res := flags.getLsbD 0
  { need := 32,
    bad := firstBad ([(0, decide (table < 64)), (1, decide (1 ≤ ty) && decide (ty ≤ 5)), (2, keylenOk ty keylen.toNat),
        (3, decide (flags.toNat < 4) && (res || decide (ty = 1) || decide (ty = 5))),
        (4, if ty ≠ 1 then decide (1 ≤ capacity) else (isPow2 capacity && decide (1024 ≤ capacity) && decide (capacity ≤ (if res then 16384 else 16777216)))),
        (12, decide (ty ≠ 3) || decide (nfields ≤ 8))] ++
      (if ty = 3 then (List.range (min 8 nfields)).map (fun i =>
        (16 + 2 * i, let f := fields.getD i (0, 0); decide (1 ≤ f.2) && decide (f.2 ≤ 16) && decide (f.1 + f.2 ≤ keylen.toNat))) else [])),
    objs := [], missing := fun _ => none,
    pre := fun s => firstOf [failIf (s.cls.cur.table table).isSome (vPre 1),
      failIf (!s.tableFits (newTable type keylen flags capacity tseed nfields fields)) vNoRes] }

/-- Replace a table in force. -/
def State.setTable (s : State) (n : Nat) (t : Option Table) : State :=
  { s with cls := { s.cls with cur := { s.cls.cur with tables := FMap.set none s.cls.cur.tables n t } } }

/-- The tables that a staged stage descriptor names. -/
def Change.staged : Change → List Nat
  | .stage _ d => stageTables d
  | _ => []

/-- A table leaves, and with it the lines of it that the hot cache holds (R130, log 12). -/
def State.dropTable (s : State) (n : Nat) : State :=
  let s1 := s.setTable n none
  let keep := fun (ls : List (List Nat)) => ls.filter (fun l => decide (l.head? ≠ some n))
  { s1 with cls := { s1.cls with cache := FMap.mapVals [] (fun _ ls => keep ls) s1.cls.cache } }

/-- The judgement of TABLE_DESTROY. -/
def tableGoneJudge (table : Nat) : Judge :=
  { Judge.plain 1 with
    bad := if table < 64 then none else some 0,
    missing := fun s => if (s.cls.cur.table table).isSome then none else some table,
    pre := fun s => firstOf [
      failIf (s.cls.cur.stages.any (fun e => (stageTables e.2).contains table) ||
        s.cls.batches.any (fun b => b.changes.any (fun c => c.staged.contains table))) (vPre 1),
      failIf (s.cls.batches.any (fun b => b.changes.any (fun c => match c with | .entry t _ _ => decide (t = table) | _ => false))) (vPre 2)] }

/-! ### Views and placement (R122 to R128, R135) -/

/-- Whether two entries of a table have the same identity (R135). Of an LPM key, the bits of the prefix count (log 46). -/
def sameEntry (t : Table) (a b : Entry) : Bool :=
  match t.type with
  | .exact => decide (slice a.key 0 t.keylen = slice b.key 0 t.keylen)
  | .direct => decide (fieldBe a.key 0 t.keylen = fieldBe b.key 0 t.keylen)
  | .lpm => decide (a.num = b.num) && sameBits (slice a.key 0 t.keylen) (slice b.key 0 t.keylen) a.num
  | .tree => decide (a.num = b.num)
  | .range => decide (slice a.key 0 4 = slice b.key 0 4)

/-- One entry change on a staged view, whose entries say whether they are uncommitted adds (R135). -/
def viewStep (t : Table) (v : List (Entry × Bool)) (op : Nat) (e : Entry) : List (Entry × Bool) :=
  if op = 1 then v ++ [(e, true)]
  else if op = 2 then v.filter (fun x => !sameEntry t x.1 e)
  else v.map (fun x => if sameEntry t x.1 e then (if x.2 then ({ x.1 with action := e.action, data := e.data }, true) else (e, true)) else x)

/-- The staged view of a table under changes. -/
def viewOf (t : Table) (n : Nat) (cs : List Change) : List (Entry × Bool) :=
  cs.foldl (fun v c => match c with | .entry m op e => if m = n then viewStep t v op e else v | _ => v) (t.entries.map (fun e => (e, false)))

/-- Data words that an entry of a table holds (R122, R125 to R128). -/
def entryWords (t : Table) : Nat :=
  match t.type with
  | .exact => if t.keylen ≤ 16 then 3 else 5
  | .lpm => 3
  | .range => 1
  | _ => 5

/-- Slots of a line (R122). -/
def lineSlots (t : Table) : Nat := if t.keylen ≤ 16 then 2 else 1

/-- A free slot of a line among places in use. -/
def freeSlotOf (t : Table) (occ : List Entry) (n : Nat) : Option Place :=
  ((List.range (lineSlots t)).map (fun i => Place.line n i)).find? (fun p => !occ.any (fun e => decide (e.place = p)))

/-- The other of an entry's two lines. -/
def otherLine (t : Table) (e : Entry) (n : Nat) : Nat :=
  if n = primaryLine t e.key then secondaryLine t e.key else primaryLine t e.key

/-- A chain of relocations from a full line (R124): the places that each move leaves, and the free slot that the last one takes. Which slot
of a line gives way is free (log 13). -/
def relocate (t : Table) (occ : List Entry) (ctr : Nat) : Nat → Nat → List Place → Option (List Place)
  | 0, _, _ => none
  | fuel + 1, n, path =>
    let p := Place.line n (Config.pick 4 ctr fuel % lineSlots t)
    if path.contains p then none
    else match occ.find? (fun e => decide (e.place = p)) with
      | none => none
      | some e =>
        let m := otherLine t e n
        match freeSlotOf t occ m with
        | some q => some (path ++ [p, q])
        | none => relocate t occ ctr fuel m (path ++ [p])

/-- Where a new entry goes, and the moves (from, to) that make room for it (R124); none when the stash is full too. -/
def placeEntry (t : Table) (occ : List Entry) (ctr : Nat) (key : List Byte) : Option (Place × List (Place × Place)) :=
  match freeSlotOf t occ (primaryLine t key) with
  | some p => some (p, [])
  | none =>
    match freeSlotOf t occ (secondaryLine t key) with
    | some p => some (p, [])
    | none =>
      match relocate t occ ctr 64 (secondaryLine t key) [] with
      | some (p :: ps) => some (p, (p :: ps).zip ps)
      | _ => if (occ.filter (fun e => decide (e.place = .stash))).length < 32 then some (.stash, []) else none

/-- An entry after moves. -/
def Entry.moved (ms : List (Place × Place)) (e : Entry) : Entry :=
  match ms.find? (fun m => decide (m.1 = e.place)) with
  | some m => { e with place := m.2 }
  | none => e

/-- A change after moves in table `n`. -/
def Change.moved (n : Nat) (ms : List (Place × Place)) : Change → Change
  | .entry t op e => if t = n then .entry t op (e.moved ms) else .entry t op e
  | c => c

/-- A configuration after moves in a table. -/
def ClsConfig.moved (c : ClsConfig) (n : Nat) (ms : List (Place × Place)) : ClsConfig :=
  match c.table n with
  | some t => { c with tables := FMap.set none c.tables n (some { t with entries := t.entries.map (Entry.moved ms) }) }
  | none => c

/-- Relocations take place as they are staged, wherever the moved entries are named. -/
def State.movePlaces (s : State) (n : Nat) (ms : List (Place × Place)) : State :=
  if ms.isEmpty then s
  else
    { s with cls := { s.cls with cur := s.cls.cur.moved n ms, former := s.cls.former.map (fun v => (v.1.moved n ms, v.2)),
                                 batches := s.cls.batches.map (fun b => { b with changes := b.changes.map (Change.moved n ms) }) } }

/-- The entries whose slots are taken: those of the view, and in DRAM also those that are deleted until the clean-up frees them. -/
def State.occupied (s : State) (n : Nat) (t : Table) (v : List (Entry × Bool)) : List Entry :=
  if t.resident then v.map Prod.fst
  else
    let was := if s.cls.cleaning.any (fun c => c.tables.contains n) then
        (s.cls.former.map (fun v => match v.1.table n with | some x => x.entries | none => [])).flatten
      else []
    (was ++ t.entries ++ (v.filter (fun x => x.2)).map Prod.fst).dedup

/-! ### The commit shadow (R134) -/

/-- A block of the table store by structure, table and number. -/
def blockNo (kind table n : Nat) : Nat := (kind * 64 + table) * 2 ^ 32 + n

/-- Blocks of a structure whose layout the spec does not give. -/
def openBlocks (kind table n : Nat) : List Nat := (Config.storeBlocks kind table n).map (blockNo (16 + kind) 0)

/-- The table-store blocks that a change touches. -/
def Change.blocks (c : ClsConfig) : Change → List Nat
  | .stage n _ => [blockNo 8 0 n]
  | .node n _ => [blockNo 9 0 n]
  | .entry n _ e =>
    (match c.table n with
     | none => []
     | some t =>
       match t.type with
       | .exact =>
         (match e.place with
          | .line l _ => if t.resident then [blockNo 1 n l] else if l ≠ primaryLine t e.key then openBlocks 6 n (primaryLine t e.key) else []
          | .stash => openBlocks 7 n (exactHash t e.key)
          | .none => [])
       | .lpm =>
         let v := fieldBe e.key 0 2
         let span := if e.num ≤ 16 then 2 ^ (16 - e.num) else 1
         let lo := v / span * span
         ((List.range ((lo + span - 1) / 16 - lo / 16 + 1)).map (fun i => blockNo 3 (t.keylen / 16) (lo / 16 + i))) ++
           openBlocks 2 n (fieldBe e.key 0 16 * 256 + e.num)
       | .range => openBlocks 4 n (fieldBe e.key 0 4)
       | .direct => if t.resident then [blockNo 5 n (fieldBe e.key 0 t.keylen / 2)] else []
       | .tree => [])
  | _ => []

/-- The distinct blocks of a list of changes. -/
def State.blocksOf (s : State) (cs : List Change) : Nat := ((cs.map (Change.blocks s.cls.cur)).flatten.dedup).length

/-- The shadow blocks in use: those of every uncommitted batch, and those that hold former values. -/
def State.shadowUsed (s : State) : Nat := ((s.cls.batches.map (fun b => s.blocksOf b.changes)).foldl (· + ·) 0) + (s.cls.cleaning.map (·.blocks)).foldl (· + ·) 0

/-- The blocks of the shadow (R134). -/
def State.shadowSize (s : State) : Nat := s.cls.tablePlan.getD 7 0 * 16

/-! ### Batches (R133) -/

/-- A batch that has been staged into. -/
def State.batch (s : State) (n : Nat) : Option Batch := s.cls.batches.find? (fun b => decide (b.num = n))

/-- The changes of a batch. -/
def State.changesOf (s : State) (n : Nat) : List Change := match s.batch n with | some b => b.changes | none => []

/-- Whether a batch's commit has been requested. -/
def State.batchRequested (s : State) (n : Nat) : Bool := match s.batch n with | some b => b.requested | none => false

/-- Add a change to a batch. -/
def State.addChange (s : State) (n : Nat) (c : Change) : State :=
  match s.batch n with
  | some _ => { s with cls := { s.cls with batches := s.cls.batches.map (fun (b : Batch) => if b.num = n then { b with changes := b.changes ++ [c] } else b) } }
  | none => { s with cls := { s.cls with batches := s.cls.batches ++ [{ num := n, changes := [c], requested := false }] } }

/-- Mark or clear the commit request of a batch; a stack commit may name a batch that holds nothing (R442). -/
def State.requestBatch (s : State) (n : Nat) (b : Bool) : State :=
  if b && (s.batch n).isNone then { s with cls := { s.cls with batches := s.cls.batches ++ [{ num := n, changes := [], requested := true }] } }
  else { s with cls := { s.cls with batches := s.cls.batches.map (fun (x : Batch) => if x.num = n then { x with requested := b } else x) } }

/-- The batch that a table belongs to. -/
def State.tableBatch (s : State) (table : Nat) : Option Nat :=
  (s.cls.batches.find? (fun b => b.changes.any (fun c => match c with | .entry t _ _ => decide (t = table) | _ => false))).map (·.num)

/-- Stage a change, if the commit shadow has room for it. -/
def State.stageChange (s : State) (n : Nat) (c : Change) : Option State :=
  let s1 := s.addChange n c
  if s1.shadowUsed ≤ s.shadowSize then some s1 else none

/-- Stage changes until one does not fit; how the command ends. -/
def State.stageAll (s : State) (n : Nat) : List Change → State × CmdEnd
  | [] => (s, vOk)
  | c :: cs => match s.stageChange n c with | some s1 => s1.stageAll n cs | none => (s, vNoRes)

/-! ### Staging entries (R126, R127, R134 to R136, R236) -/

/-- The entry that a staged entry describes. -/
def stagedEntry (x : StagedEntry) (t : Table) : Entry :=
  { key := padTo 40 x.key, key2 := padTo 40 x.key2, num := x.num.toNat, prio := x.prio.toNat, action := x.action,
    data := (x.data ++ List.replicate 5 0).take (entryWords t), place := .none }

/-- Whether the fields of a TREE rule are prefixes or ranges (R126). -/
def treeRuleOk (fields : List (Nat × Nat)) (e : Entry) : Bool :=
  fields.all (fun f =>
    let v := fieldBe e.key f.1 f.2
    let k2 := fieldBe e.key2 f.1 f.2
    isPrefixMask (8 * f.2) k2 || (decide (f.2 ≤ 4) && decide (v ≤ k2)))

/-- Whether a staged entry is well formed for its table (R114, R135, R236). -/
def stagedOk (t : Table) (x : StagedEntry) : Bool :=
  let e := stagedEntry x t
  let k2zero := e.key2.all (fun b => decide (b = 0))
  decide (1 ≤ x.op.toNat) && decide (x.op.toNat ≤ 3) && (e.key.drop t.keylen).all (fun b => decide (b = 0)) &&
    actionOk e.action (entryWords t) && decide (actKind e.action ≠ 0) &&
    (match t.type with
     | .exact => decide (e.num = 0) && k2zero
     | .lpm => decide (e.num ≤ 8 * t.keylen) && k2zero
     | .tree => treeRuleOk t.fields e
     | .range => decide (e.num = 0) && decide (fieldBe e.key 0 4 ≤ fieldBe e.key2 0 4) && (e.key2.drop 4).all (fun b => decide (b = 0))
     | .direct => decide (e.num = 0) && k2zero && decide (fieldBe e.key 0 t.keylen < t.capacity))

/-- Whether two ranges overlap (R127). -/
def rangesMeet (a b : Entry) : Bool :=
  decide (fieldBe a.key 0 4 ≤ fieldBe b.key2 0 4) && decide (fieldBe b.key 0 4 ≤ fieldBe a.key2 0 4)

/-- The results in use by LPM routes: their action and data words (R125). -/
def lpmResults (es : List Entry) : List (Word × List Word) := (es.map (fun e => (e.action, e.data))).dedup

/-- The staged views of every table of a type, apart from table `n` whose view is given. -/
def State.viewsOfType (s : State) (ty : TableType) (n : Nat) (v : List Entry) : List Entry :=
  (s.cls.cur.tables.map (fun e => match e.2 with
    | some t =>
      if t.type = ty then
        (if e.1 = n then v else (viewOf t e.1 (match s.tableBatch e.1 with | some b => s.changesOf b | none => [])).map Prod.fst)
      else []
    | none => [])).flatten

/-- Whether table `n` has room for its view `v`, after an entry was added or replaced (R120, R125, R126). -/
def State.viewFits (s : State) (n : Nat) (t : Table) (v : List Entry) : Bool :=
  match t.type with
  | .lpm => decide (v.length ≤ t.capacity) &&
      decide ((lpmResults (s.viewsOfType .lpm n v)).length ≤ min 65536 (s.cls.tablePlan.getD 1 0 * 64))
  | .tree => decide (v.length ≤ t.capacity) &&
      decide (Config.treeBytes ((s.viewsOfType .tree n v).map (fun e => (e.key, e.key2, e.prio))) * 2 ≤ s.cls.tablePlan.getD 2 0 * 1024)
  | .range => decide (v.length ≤ t.capacity)
  | _ => true

/-- EXACT changes of a batch (R121: at most 1,048,576). -/
def State.exactChanges (s : State) (b : Nat) : Nat :=
  ((s.changesOf b).filter (fun c => match c with
    | .entry n _ _ => (match s.cls.cur.table n with | some t => decide (t.type = .exact) | none => false)
    | _ => false)).length

/-- Whether an entry needs a slot of its own: an add, or a replacement of a committed entry, which is a DEL and an ADD (R135). -/
def needsPlace (op : Nat) (old : Option (Entry × Bool)) : Bool :=
  decide (op = 1) || (match old with | some x => decide (op = 3) && !x.2 | none => false)

/-- Stage one entry of table `n` in batch `b`: the state after it, or the status that refuses it. -/
def State.stageEntry (s : State) (b n : Nat) (x : StagedEntry) : State ⊕ Byte :=
  match s.cls.cur.table n with
  | none => .inr 0x11
  | some t =>
    let op := x.op.toNat
    let v := viewOf t n (s.changesOf b)
    let e := stagedEntry x t
    let old := v.find? (fun y => sameEntry t y.1 e)
    if !stagedOk t x then .inr 0x0A
    else if op = 1 ∧ old.isSome then .inr 0x0F
    else if op ≠ 1 ∧ old.isNone then .inr 0x11
    else if t.type = .range ∧ op ≠ 2 ∧ v.any (fun y => !sameEntry t y.1 e && rangesMeet y.1 e) then .inr 0x0F
    else if t.type = .exact ∧ 1048576 ≤ s.exactChanges b then .inr 9
    else
      let was : Place := match old with | some y => y.1.place | none => .none
      if t.type = .exact ∧ needsPlace op old then
        (match placeEntry t (s.occupied n t v) s.freeCtr e.key with
         | none => .inr 9
         | some (p, ms) =>
           match (s.tickFree.movePlaces n ms).stageChange b (.entry n op { e with place := p }) with
           | some s1 => .inl s1
           | none => .inr 9)
      else
        let c : Entry := { e with place := was }
        if !s.viewFits n t ((viewStep t v op c).map Prod.fst) then .inr 9
        else match s.stageChange b (.entry n op c) with
          | some s1 => .inl s1
          | none => .inr 9

/-- Stage entries in order until one is refused: how many were staged, and the status that stopped it. -/
def State.stageEntries (b n : Nat) : State → Nat → List StagedEntry → State × Nat × Byte
  | s, k, [] => (s, k, 0)
  | s, k, x :: xs =>
    match s.stageEntry b n x with
    | .inl s1 => State.stageEntries b n s1 (k + 1) xs
    | .inr st => (s, k, st)

/-- The judgement of a STAGE command: a batch number, further checks, p1. -/
def stageJudge (batch need : Nat) (bad : Option Nat) : Judge :=
  { Judge.plain need with
    bad := if 1 ≤ batch ∧ batch ≤ 255 then bad else some 0,
    pre := fun s => failIf (s.batchRequested batch) (vPre 1) }

/-- STAGE_ENTRIES (R133, R135, R236). -/
def execStageEntries (h : MbHdr) (batch table : Nat) (entries : List StagedEntry) (s : State) : Answer :=
  let j := stageJudge batch (8 + 112 * entries.length) (if table < 64 then none else some 1)
  let j1 : Judge := { j with
    missing := fun s => if (s.cls.cur.table table).isSome then none else some table,
    pre := fun s => firstOf [j.pre s, failIf (match s.tableBatch table with | some b => s.batchRequested b | none => false) (vPre 1)] }
  .next (s.runNow h (rowH 0x0403) j1 (fun s =>
    let b := (s.tableBatch table).getD batch
    let (s1, k, st) := s.stageEntries b table 0 entries
    (s1, if st = 0 then vOk else { status := st, kind := 2, value := 72 + 112 * k }, [BitVec.ofNat 8 b, 0, 0, 0] ++ leBytes 4 k)))

/-- A STAGE command of changes that cannot be refused one by one. -/
def State.runStage (s : State) (h : MbHdr) (opcode batch : Nat) (j : Judge) (cs : List Change) : State :=
  s.runNow h (row opcode) j (fun s =>
    let (s1, v) := s.stageAll batch cs
    (s1, v, [BitVec.ofNat 8 batch]))

/-- STAGE_STAGES (R117, R118, R236). -/
def execStageStages (h : MbHdr) (batch first : Nat) (descs : List (List Byte)) (s : State) : Answer :=
  let ds := descs.map (padTo 64)
  let j := stageJudge batch (8 + 64 * ds.length) (if 12 ≤ first then some 1 else if 12 < first + ds.length then some 2 else itemsBad stageBad 64 8 ds)
  let named := (ds.map stageTables).flatten
  let j1 : Judge := { j with
    missing := fun s => named.find? (fun n => (s.cls.cur.table n).isNone),
    pre := fun s => match itemsBad (stageTableBad s.cls.cur) 64 8 ds with | some off => some (vBad (64 + off)) | none => j.pre s }
  .next (s.runStage h 0x0404 batch j1 (ds.zipIdx.map (fun p => Change.stage (first + p.2) p.1)))

/-- STAGE_GRAPH (R102, R103, R236). -/
def execStageGraph (h : MbHdr) (batch first : Nat) (start : List Nat) (nodes : List (List Byte)) (s : State) : Answer :=
  let ns := nodes.map (padTo 64)
  let starts := (start ++ List.replicate 20 0xFFFF).take 20
  let badStart := starts.findIdx? (fun n => decide (256 ≤ n) && decide (n ≠ 0xFFFF))
  let j := stageJudge batch (48 + 64 * ns.length)
    (if 256 ≤ first then some 2 else if 256 < first + ns.length then some 4 else match badStart with | some i => some (8 + 2 * i) | none => itemsBad nodeBad 64 48 ns)
  .next (s.runStage h 0x0405 batch j
    ((ns.zipIdx.map (fun p => Change.node (first + p.2) p.1)) ++ (if starts.all (fun n => decide (n = 0xFFFF)) then [] else [Change.starts starts])))

/-- STAGE_DEFAULTS (R109, R114, R236). -/
def execStageDefaults (h : MbHdr) (batch : Nat) (parseFail noMatch : List Word) (s : State) : Answer :=
  let pad := fun (ws : List Word) => (ws ++ List.replicate 20 0xFFFFFFFF#32).take 20
  let j := stageJudge batch 168 (((pad parseFail ++ pad noMatch).findIdx? (fun a => !defaultOk a)).map (fun i => 8 + 4 * i))
  .next (s.runStage h 0x0406 batch j
    (if (pad parseFail ++ pad noMatch).all (fun a => decide (a = 0xFFFFFFFF#32)) then [] else [Change.defaults (pad parseFail) (pad noMatch)]))

/-- STAGE_SPREAD (R138 to R140, R236). -/
def execStageSpread (h : MbHdr) (batch : Nat) (seedset : Byte) (first : Nat) (seed : Word) (profiles : List Byte) (entries : List Nat) (s : State) :
    Answer :=
  let ps := (profiles ++ List.replicate 28 0xFF#8).take 28
  let bad := if 1 < seedset.toNat then some 1
    else match ps.findIdx? (fun p => decide (4 ≤ p.toNat) && decide (p ≠ 0xFF#8)) with
      | some i => some (12 + i)
      | none => (entries.findIdx? (fun v => decide (1024 ≤ v))).map (fun i => 40 + 2 * i)
  let j := stageJudge batch (40 + 2 * entries.length) bad
  let j1 : Judge := { j with pre := fun s => firstOf [j.pre s, failIf (decide (4096 < first + entries.length)) (vPre 2)] }
  .next (s.runStage h 0x0407 batch j1
    ((if seedset = 1#8 then [Change.spreadSeed seed] else []) ++ (if ps.all (fun p => decide (p = 0xFF#8)) then [] else [Change.profiles ps]) ++
      entries.zipIdx.map (fun p => Change.spreadEntry (first + p.2) p.1)))

/-- ABANDON (R236). -/
def execAbandon (h : MbHdr) (batch : Nat) (s : State) : Answer :=
  .next (s.runDo h (row 0x0409) (stageJudge batch 1 none) (fun s =>
    { s with cls := { s.cls with batches := s.cls.batches.filter (fun b => decide (b.num ≠ batch)) } }))

/-! ### Applying a batch (R134, R136) -/

/-- Set those of the lanes, or groups, whose word is not `keep`. -/
def setLanes {α : Type} [DecidableEq α] (d keep : α) (m : FMap α) (vs : List α) : FMap α :=
  vs.zipIdx.foldl (fun m p => if p.1 = keep then m else FMap.set d m p.2 p.1) m

/-- A change other than of an entry, on a configuration. -/
def Change.onConfig (c : ClsConfig) : Change → ClsConfig
  | .entry _ _ _ => c
  | .stage n d => { c with stages := FMap.set [] c.stages n d }
  | .node n raw => { c with graph := FMap.set [] c.graph n raw }
  | .starts ns => { c with starts := setLanes 0 0xFFFF c.starts ns }
  | .defaults pf nm => { c with parseFail := setLanes 2 0xFFFFFFFF#32 c.parseFail pf, noMatch := setLanes 2 0xFFFFFFFF#32 c.noMatch nm }
  | .spreadSeed w => { c with spreadSeed := w }
  | .profiles ps => { c with profiles := setLanes 2 0xFF#8 c.profiles ps }
  | .spreadEntry i v => { c with spread := FMap.set 0xFFFF c.spread i v }

/-- The tables whose entries a batch changes. -/
def entryTables (cs : List Change) : List Nat := (cs.filterMap (fun c => match c with | .entry t _ _ => some t | _ => none)).dedup

/-- A table as its batch leaves it, in a configuration. -/
def commitTable (cs : List Change) (c : ClsConfig) (n : Nat) : ClsConfig :=
  match c.table n with
  | some t => { c with tables := FMap.set none c.tables n (some { t with entries := (viewOf t n cs).map Prod.fst }) }
  | none => c

/-- The configuration that a batch makes of another. -/
def commitConfig (c : ClsConfig) (cs : List Change) : ClsConfig :=
  let c1 := (entryTables cs).foldl (commitTable cs) c
  { cs.foldl Change.onConfig c1 with ver := c.ver + 1 }

/-- A batch is applied whole at a turn. `start` is the PTP time at which the next tick starts; the former version stays until the
clean-up. -/
def State.applyBatch (s : State) (n start : Nat) : State :=
  let cs := s.changesOf n
  let c := commitConfig s.cls.cur cs
  { s with
    cls := { s.cls with
      cur := c, curFrom := start, former := (s.cls.cur, s.cls.curFrom) :: s.cls.former,
      cleaning := s.cls.cleaning ++ [{ ver := c.ver, tables := entryTables cs, blocks := s.blocksOf cs }],
      batches := s.cls.batches.filter (fun b => decide (b.num ≠ n)) } }

/-- Whether the commit of a batch must wait: the shadow still holds former values, or one of its tables awaits its clean-up (R135, R136). -/
def State.commitWaits (s : State) (n : Nat) : Bool :=
  s.cls.cleaning.any (fun c => decide (0 < c.blocks) || c.tables.any (fun t => (entryTables (s.changesOf n)).contains t))

/-- Whether a frame of a version before `ver` may still be in the parser, the queues or the stages (R136): one waits, or one whose first byte entered
under it can still be arriving (log 63). -/
def State.earlierFrames (s : State) (ver : Nat) : Bool :=
  let since := if s.cls.cur.ver = ver then s.cls.curFrom
    else ((s.cls.former.find? (fun v => decide (v.1.ver = ver))).map Prod.snd).getD 0
  (s.cls.queueA ++ s.cls.queueB).any (fun f => decide (f.ver < ver)) || decide (fineTime s.time.sec s.time.ns s.time.frac < since + 4000 * 65536)

/-- COMMIT_CLEANUP_COMPLETE (R135, R136): the oldest clean-up ends, possible once no frame of an earlier version remains; the versions before it go. -/
def execCommitCleanupComplete (s : State) : Answer :=
  .next (match s.cls.cleaning with
    | c :: rest =>
      if s.earlierFrames c.ver then s
      else { s with cls := { s.cls with former := s.cls.former.filter (fun v => decide (c.ver ≤ v.1.ver)), cleaning := rest } }
    | [] => s)

/-! ### Reads, counters and the plan (R130, R142, R236) -/

/-- A table entry in its staging format with OP 0. -/
def Entry.bytes (e : Entry) : List Byte :=
  [0, 0] ++ leBytes 2 e.prio ++ leBytes 4 e.num ++ padTo 40 e.key ++ padTo 40 e.key2 ++ leBytes 4 e.action.toNat ++
    ((List.range 5).map (fun i => leBytes 4 (e.data.getD i 0).toNat)).flatten

/-- The result of READ. -/
def State.readTables (s : State) (what table first count : Nat) (key : List Byte) : List Byte :=
  let c := s.cls.cur
  match what with
  | 1 =>
    (match c.table table with
     | some t => (match tableFind t (padTo 40 key) with | some (e, _) => e.bytes | none => [])
     | none => [])
  | 2 => ((List.range count).map (fun i => padTo 64 (FMap.get [] c.graph (first + i)))).flatten
  | 3 => ((List.range count).map (fun i => padTo 64 (FMap.get [] c.stages (first + i)))).flatten
  | 4 =>
    ((List.range count).map (fun i =>
      let v := FMap.get 0xFFFF c.spread (first + i)
      leBytes 2 (if v = 0xFFFF then ((first + i) / 32) % 32 + 32 * ((first + i) % 32) else v))).flatten
  | _ => ((List.range 20).map (fun l => leBytes 4 (FMap.get 2 c.parseFail l).toNat)).flatten ++
      ((List.range 20).map (fun l => leBytes 4 (FMap.get 2 c.noMatch l).toNat)).flatten

/-- READ (R236). -/
def execRead (h : MbHdr) (what : Byte) (table first count : Nat) (key : List Byte) (s : State) : Answer :=
  let most := match what.toNat with | 2 => 256 | 3 => 12 | 4 => 4096 | _ => first + count
  .next (s.runQuery h (row 0x040A)
    { Judge.plain 48 with
      bad := firstBad [(0, decide (1 ≤ what.toNat) && decide (what.toNat ≤ 5)), (1, decide (what ≠ 1#8) || decide (table < 64)),
        (2, decide (first ≤ most)), (4, decide (first + count ≤ most))],
      missing := fun s => if what = 1#8 ∧ (s.cls.cur.table table).isNone then some table else none }
    (fun s => s.readTables what.toNat table first count key))

/-- The judgement of TABLE_COUNTERS. -/
def tableCtrJudge (table : Nat) : Judge :=
  { Judge.plain 1 with
    bad := if table < 64 ∨ table = 0xFF then none else some 0,
    missing := fun s => if table = 0xFF ∨ (s.cls.cur.table table).isSome then none else some table }

/-- The six counters of one table. -/
def State.tableSix (s : State) (n : Nat) : List Byte :=
  let g := fun (m : FMap Nat) => leBytes 8 (FMap.get 0 m n)
  match s.cls.cur.table n with
  | none => zeros 48
  | some t =>
    g s.cls.lookups ++ g s.cls.hits ++ g s.cls.dramReads ++ g s.cls.cacheHits ++ g s.cls.secondReads ++
      leBytes 8 (if t.type = .exact then (t.entries.filter (fun e => decide (e.place = .stash))).length else 0)

/-- The result of TABLE_COUNTERS. -/
def State.tableCounters (s : State) (n : Nat) : List Byte :=
  if n ≠ 0xFF then s.tableSix n
  else
    let g := fun (m : FMap Nat) (k : Nat) => (List.range k).map (fun i => leBytes 8 (FMap.get 0 m i))
    (((List.range 64).map s.tableSix) ++ g s.cls.stageSkips 12 ++ g s.cls.clsOverload 20 ++ g s.cls.puntDrop 256 ++ g s.cls.clsDrop 5120).flatten

/-- TABLE_PLAN (R130, R236): recorded for the next reset. -/
def execTablePlan (h : MbHdr) (sizes : List Nat) (s : State) : Answer :=
  let p := (sizes ++ List.replicate 9 0).take 9
  .next (s.runDo h (row 0x040C)
    { Judge.plain 36 with pre := fun _ => failIf (decide (p.foldl (· + ·) 0 ≠ 40960)) (vPre 1) }
    (fun s => { s with cls := { s.cls with tablePlanNext := p } }))

/-- TABLE_CREATE's effect; a number's counters start at 0. -/
def State.tableCreate (s : State) (n : Nat) (t : Table) : State :=
  let z := fun (m : FMap Nat) => FMap.set 0 m n 0
  let s1 := s.setTable n (some t)
  { s1 with cls := { s1.cls with lookups := z s1.cls.lookups, hits := z s1.cls.hits, dramReads := z s1.cls.dramReads,
                                 cacheHits := z s1.cls.cacheHits, secondReads := z s1.cls.secondReads } }

end Sys2Proof.Machine
end

