-- ==== Sys2Proof/Machine/MbadelTimeout.lean ====
section
/-!
DEFINITION. COMMAND_TIMEOUT: a class W command that reaches the bound of its row (R230), and what each of them leaves behind.
-/

namespace Sys2Proof.Machine

/-- The bound of a class W command in milliseconds; ROTATE_NOW names its own. -/
def boundMs (r : Running) : Nat :=
  match r.opcode with
  | 0x0203 => 100
  | 0x0204 => 150
  | 0x0206 => 1000
  | 0x0207 => 1000
  | 0x0209 => 50
  | 0x0502 => 100
  | 0x0601 => 5000
  | 0x0603 => 1000
  | 0x0605 => 100
  | 0x0903 => (match r.cmd with | .rotateNow _ _ _ w => w | _ => 0)
  | 0x0906 => 2000
  | _ => 10000

/-- Whether a running command has reached its bound, in the ticks that count (R230). -/
def State.overdue (s : State) (r : Running) : Bool := decide (r.start + s.msTicks (boundMs r) ≤ s.cmdTick)

/-- TIMEOUT with DETAIL 0. -/
def vTimeout : CmdEnd := vPlain 3

/-- A command ends at its bound: a namespace's rest is ended and it is detached (R320), a destruction and a revocation go on, and the
latter is logged (R284, R347), a save or a restore leaves the instance FROZEN (R288, R289), a rotation is cancelled (R242), a switch-over does not take place. -/
def State.timeOut (s : State) (r : Running) : State :=
  match r.cmd with
  | .instanceDestroy _ _ => s.endLong r vTimeout [] 0
  | .instanceSave _ n _ _ => (s.modInst n (fun i => { i with st := .frozen })).endLong r vTimeout [] 0
  | .instanceRestore _ n _ _ _ => (s.modInst n (fun i => { i with st := .frozen })).endLong r vTimeout [] 0
  | .regRevoke _ k => (s.log 0x0A01 k.toNat (s.reg (k.toNat / 256)).inflight).endLong r vTimeout [] 0
  | .nsDetach _ n nsid => s.endDetach r n nsid
  | .rotateNow _ _ _ _ => s.cancelRotate r
  | .mpSwitch _ _ _ => ({ s with repair := { s.repair with mpSwitch := none } }).endLong r vTimeout [] 0
  | _ => s.endLong r vTimeout [] 0

/-- COMMAND_TIMEOUT (R230): the oldest command of a mailbox that has reached its bound. -/
def execCommandTimeout (hm : Fin 64) (s : State) : Answer :=
  .next (match s.mbadel.running.find? (fun r => decide (r.hm = hm.val) && s.overdue r) with
    | some r => s.timeOut r
    | none => s)

end Sys2Proof.Machine
end

