-- ==== Sys2Proof/Machine/MbadelTm.lean ====
section
/-!
DEFINITION. The commands of group 0x07 (R240): lanes, aggregation groups, the traffic manager, edit templates, counters, optics. Judgements and
effects; class T commands are carried out in TurnCmds.
-/

namespace Sys2Proof.Machine

/-! ### Lanes and groups (R89 to R100) -/

/-- The modes that a lane allows (R89). -/
def laneModes (lane : Nat) : List Nat := if lane < 8 then [0, 1] else if lane < 16 then [0, 1, 2, 3, 4] else [0, 5]

/-- Whether a mode on a lane would leave its aggregation group with two modes (R98). -/
def State.splitsGroup (s : State) (lane mode : Nat) : Bool :=
  match (s.groupOf lane).bind s.group? with
  | some g => g.members.any (fun m => decide (m ≠ lane) && decide (((s.lane? m).map (·.mode)).getD mode ≠ mode))
  | none => false

/-- The judgement of LANE_SET. A mode that breaks R98's one mode for a group counts as one that the lane does not allow (log 63). -/
def laneJudge (lane : Nat) (mode : Byte) (maxFrame : Nat) (rxAdj txAdj : Int) (adjset : Byte) : Judge :=
  let adjBad := fun (v : Int) => decide (v < -16000) || decide (16000 < v)
  { need := 9,
    bad := if 20 ≤ lane then some 0 else if 5 < mode.toNat ∧ mode ≠ 0xFF#8 then some 1
           else if maxFrame ≠ 0 ∧ (maxFrame < 1518 ∨ 9728 < maxFrame) then some 2
           else if adjset.getLsbD 0 && adjBad rxAdj then some 4 else if adjset.getLsbD 1 && adjBad txAdj then some 6
           else if 4 ≤ adjset.toNat then some 8 else none,
    objs := [], missing := fun _ => none,
    pre := fun s => firstOf [failIf (decide (mode ≠ 0xFF#8) && (!(laneModes lane).contains mode.toNat || s.splitsGroup lane mode.toNat)) (vPre 1),
      failIf (match s.lane? lane with | some l => decide (l.st = .failed) | none => false) (vObj 0x10 lane)] }

/-- LANE_SET's effect (R90, R91, R94, R97): a change of mode takes the lane DOWN. -/
def State.laneSet (s : State) (lane : Nat) (mode : Byte) (maxFrame : Nat) (rxAdj txAdj : Int) (adjset : Byte) : State :=
  let s1 := s.modLane lane (fun l => { l with
    maxFrame := if maxFrame = 0 then l.maxFrame else maxFrame,
    rxAdj := if adjset.getLsbD 0 then rxAdj else l.rxAdj, txAdj := if adjset.getLsbD 1 then txAdj else l.txAdj })
  match s.lane? lane with
  | some l =>
    if mode = 0xFF#8 ∨ l.mode = mode.toNat then s1 else (s1.setLane lane .down).modLane lane (fun l => { l with mode := mode.toNat })
  | none => s1

/-- The lanes that a member mask names. -/
def maskLanes (w : Word) : List Nat := (List.range 16).filter (fun i => w.getLsbD i)

/-- The queues whose destination is a group. -/
def State.groupQueues (s : State) (g : Nat) : List Nat :=
  s.tm.queues.filterMap (fun e => match e.2 with | some q => if q.dest = 0x20 + g then some e.1 else none | none => none)

/-- Leaves in existence (R161); the MP firmware's own are not counted (log 64). -/
def State.leafCount (s : State) : Nat :=
  ((s.tm.queues.filter (fun e => decide (e.1 < 65536))).map (fun e => match e.2 with | some q => q.leaves.length | none => 0)).foldl (· + ·) 0

/-- Whether one of the lanes is in a group other than `group` (R98). -/
def State.elsewhere (s : State) (group : Nat) (ls : List Nat) : Bool :=
  ls.any (fun l => match s.groupOf l with | some g => decide (g ≠ group) | none => false)

/-- Whether the lanes run in more than one mode (R98). -/
def State.mixedModes (s : State) (ls : List Nat) : Bool :=
  let modes := ls.filterMap (fun l => (s.lane? l).map (·.mode))
  modes.any (fun (m : Nat) => decide (m ≠ modes.headD 0))

/-- Tenant nodes in existence (R161). -/
def State.tenantNodes (s : State) : List Nat :=
  ((s.tm.queues.filter (fun e => decide (e.1 < 65536))).map (fun e => match e.2 with
    | some q => q.leaves.map (fun l => nodeKey l q.cls q.tenant) | none => [])).flatten.dedup

/-- Whether the leaves and tenant nodes that lanes `ls` bring to the queues of a group pass the limits of R161 (R162). -/
def State.leavesOver (s : State) (group : Nat) (ls : List Nat) : Bool :=
  let news := ((s.groupQueues group).map (fun q => match s.tmq q with
    | some v => (ls.filter (fun l => !v.leaves.contains l)).map (fun l => nodeKey l v.cls v.tenant) | none => [])).flatten
  decide (65536 < s.leafCount + news.length) || decide (32768 < (s.tenantNodes ++ news).dedup.length)

/-- The judgement of AG_SET. -/
def agJudge (group : Nat) (mode : Byte) (members : Word) : Judge :=
  let ls := maskLanes members
  { need := 8,
    bad := if 8 ≤ group then some 0 else if 1 < mode.toNat then some 1 else if 65536 ≤ members.toNat ∨ 8 < ls.length then some 4 else none,
    objs := [], missing := fun _ => none,
    pre := fun s => firstOf [failIf (s.elsewhere group ls) (vPre 1), failIf (s.mixedModes ls) (vPre 2), failIf (s.leavesOver group ls) vNoRes] }

/-- Leaves of a group's queue after a membership change (R162). -/
def State.regroupQueue (ls : List Nat) (s : State) (q : Nat) : State :=
  match s.tmq q with
  | some v =>
    (s.setTmq q (some { v with leaves := v.leaves ++ ls.filter (fun l => !v.leaves.contains l),
                               closed := (v.leaves.filter (fun l => !ls.contains l)) })).pruneLeaves q
  | none => s

/-- Lanes whose membership or mode of aggregation a command has changed: the partner of a new member has not agreed yet, and each is wanted as its new
place has it (R99, R100). -/
def State.rejoin (s : State) (old ls : List Nat) : State :=
  let s1 := ls.foldl (fun (s : State) l => if old.contains l then s else s.modLane l (fun l => { l with partner := false })) s
  (old ++ ls).foldl (fun (s : State) l => s.modLane l (fun x => { x with wants := s1.mayDistribute l })) s1

/-- A group as a command forms it (R98 to R100, R445): `order` are its members in the order of the distribution table. -/
def State.formGroup (s : State) (group : Nat) (isStatic : Bool) (ls order : List Nat) : State :=
  let old := ((s.group? group).map (·.members)).getD []
  let set := fun (g : Group) => { g with isStatic := isStatic, members := ls, order := order, dist := Group.table order }
  let s1 := ({ s with ports := { s.ports with groups := modifyAt s.ports.groups group set } }).rejoin old ls
  (s1.groupQueues group).foldl (State.regroupQueue ls) s1

/-- AG_SET's effect. -/
def State.agSet (s : State) (group : Nat) (mode : Byte) (members : Word) : State :=
  s.formGroup group (decide (mode = 1)) (maskLanes members) (maskLanes members)

/-- The judgement of AG_HASH. -/
def agHashJudge (group : Nat) (profile : Byte) : Judge :=
  { Judge.plain 9 with bad := if 8 ≤ group then some 0 else if 3 < profile.toNat ∧ profile ≠ 0xFF#8 then some 8 else none }

/-- AG_HASH's effect (R139). -/
def State.agHash (s : State) (group : Nat) (seed : Word) (profile : Byte) : State :=
  let c := s.cls.cur
  let ps := if profile = 0xFF#8 then c.profiles else FMap.set 2 c.profiles (20 + group) profile
  { s with ports := { s.ports with groups := modifyAt s.ports.groups group (fun (g : Group) => { g with seed := seed }) },
           cls := { s.cls with cur := { c with profiles := ps } } }

/-! ### The traffic manager (R161 to R164) -/

/-- Whether a destination is one that TMQ_CREATE may name (R162). -/
def destOk (dest : Nat) : Bool := decide (dest < 16) || (decide (0x20 ≤ dest) && decide (dest < 0x28))

/-- The leaves that a new queue would have. -/
def State.newLeaves (s : State) (dest : Nat) : List Nat :=
  if dest < 0x20 then [dest] else match s.group? (dest - 0x20) with | some g => g.members | none => []

/-- The judgement of TMQ_CREATE. -/
def tmqJudge (queue dest cls tenant quantum maxBytes spill : Nat) : Judge :=
  let most := if maxBytes = 0 then 1048576 else maxBytes
  { need := 20,
    bad := if 65536 ≤ queue then some 0 else if !destOk dest then some 2 else if 8 ≤ cls then some 3 else if 4096 ≤ tenant then some 4
           else if quantum ≠ 0 ∧ (quantum < 256 ∨ 1048576 < quantum) then some 8
           else if maxBytes ≠ 0 ∧ (maxBytes < 2048 ∨ 2 ^ 32 ≤ maxBytes) then some 12
           else if spill ≠ 0 ∧ (spill < 2048 ∨ most < spill) then some 16 else none,
    objs := [], missing := fun _ => none,
    pre := fun s =>
      let ls := s.newLeaves dest
      let nodes := s.tenantNodes
      let more := (ls.filter (fun l => !nodes.contains (nodeKey l cls tenant))).length
      firstOf [failIf (s.tmq queue).isSome (vPre 1), failIf (decide (65536 < s.leafCount + ls.length)) vNoRes,
        failIf (decide (32768 < nodes.length + more)) vNoRes] }

/-- TMQ_CREATE's effect. -/
def State.tmqCreate (s : State) (queue dest cls tenant quantum maxBytes spill : Nat) : State :=
  let v : TmQueue := { dest := dest, cls := cls, tenant := tenant, quantum := if quantum = 0 then 16384 else quantum,
                       maxBytes := if maxBytes = 0 then 1048576 else maxBytes, spill := spill, leaves := s.newLeaves dest, closed := [] }
  s.setTmq queue (some v)

/-- The judgement of TMQ_DESTROY. -/
def tmqGoneJudge (queue : Nat) : Judge :=
  { Judge.plain 2 with missing := fun s => if (s.tmq queue).isSome then none else some queue }

/-- TMQ_DESTROY's effect (R164): held frames are freed and counted in Q_FLUSH. -/
def State.tmqDestroy (s : State) (queue : Nat) : State :=
  match s.tmq queue with
  | none => s
  | some v =>
    let s1 := v.leaves.foldl (fun (s : State) lane =>
      let (fs, s1) := s.clearLeaf queue lane
      let (n, s2) := s1.freeQueued lane fs
      { s2 with tm := { s2.tm with flushed := bump s2.tm.flushed queue n } }) s
    let s2 := v.leaves.foldl (fun (s : State) lane => s.setLeaf (leafKey queue lane) Leaf.zero) s1
    s2.setTmq queue none

/-- The judgement of TM_ATTR (R163). -/
def tmAttrJudge (kind : Byte) (index : Nat) (a : TmAttrs) : Judge :=
  let bad := match kind.toNat with
    | 1 =>
      if 20 ≤ index then some 2
      else match (a.cquantum.take 8).findIdx? (fun q => decide (q ≠ 0) && (decide (q.toNat < 256) || decide (1048576 < q.toNat))) with
        | some i => some (8 + 4 * i)
        | none => if a.strict7.toNat ≤ 1 ∨ a.strict7 = 0xFF#8 then none else some 40
    | 2 =>
      if 4096 ≤ index then some 2 else if 1024 < a.weight.toNat then some 8
      else if a.lgroup.toNat < 64 ∨ a.lgroup = 0xFF#8 then none else some 10
    | 3 =>
      if a.ledgerMode.toNat ≤ 2 ∨ a.ledgerMode = 0xFF#8 then
        (if a.ledgerSlack.toNat ≤ 1048576 ∨ a.ledgerSlack = 0xFFFFFFFF#32 then none else some 12)
      else some 8
    | _ => some 0
  { Judge.plain (match kind.toNat with | 1 => 41 | 2 => 11 | _ => 16) with bad := bad }

/-- TM_ATTR's effect: deficits and ledger counters stay (R164). -/
def State.tmAttr (s : State) (kind : Byte) (index : Nat) (a : TmAttrs) : State :=
  match kind.toNat with
  | 1 =>
    let cq := (a.cquantum.take 8).zipIdx.foldl (fun (m : FMap Nat) q => if q.1 = 0 then m else FMap.set 16384 m (index * 8 + q.2) q.1.toNat) s.tm.cquantum
    { s with tm := { s.tm with cquantum := cq,
                               strict7 := if a.strict7 = 0xFF#8 then s.tm.strict7 else FMap.set false s.tm.strict7 index (decide (a.strict7 = 1)) } }
  | 2 =>
    let t := s.tenant index
    s.setTenant index { t with weight := if a.weight = 0 then t.weight else a.weight.toNat,
                               lgroup := if a.lgroup = 0xFF#8 then t.lgroup else a.lgroup.toNat }
  | _ =>
    { s with tm := { s.tm with ledgerMode := if a.ledgerMode = 0xFF#8 then s.tm.ledgerMode else a.ledgerMode.toNat,
                               ledgerSlack := if a.ledgerSlack = 0xFFFFFFFF#32 then s.tm.ledgerSlack else a.ledgerSlack.toNat } }

/-! ### Edit templates (R174, R175) -/

/-- The bytes within the inserted bytes that a patch needs: what it writes, and the base it refers to. -/
def patchReach (p : Nat) : Nat :=
  match bits p 8 4 with
  | 1 => bits p 0 8 + 4
  | 3 => max (bits p 0 8 + 2) (bits p 16 8)
  | 4 => max (bits p 0 8 + 2) (bits p 16 8)
  | _ => bits p 0 8 + 2

/-- Whether a template is one that may be loaded. -/
def templateOk (t : List Byte) : Bool :=
  let len := fieldLe t 0 1
  let n := fieldLe t 2 1
  decide (len ≤ 96) && decide (fieldLe t 1 1 + len ≤ 351) && decide (n ≤ 6) &&
    (List.range (min n 6)).all (fun i =>
      let p := fieldLe t (4 + 4 * i) 4
      decide (1 ≤ bits p 8 4) && decide (bits p 8 4 ≤ 5) && decide (patchReach p ≤ len))

/-- The judgement of EDIT_LOAD. -/
def editJudge (template : Nat) (raw : List Byte) : Judge :=
  { Judge.plain 136 with bad := if template = 0 ∨ 4095 < template then some 0 else if templateOk (padTo 128 raw) then none else some 8 }

/-- EDIT_LOAD's effect. -/
def State.editLoad (s : State) (template : Nat) (raw : List Byte) : State :=
  { s with tm := { s.tm with templates := FMap.set [] s.tm.templates template (padTo 128 raw) } }

/-! ### Counters and optics (R110, R160, R180, R240) -/

/-- A 64-bit counter. -/
def c64 (n : Nat) : List Byte := leBytes 8 n

/-- The leaf that INDEX names, when it exists. -/
def State.leafOf (s : State) (index : Word) : Option (Nat × Nat) :=
  let q := bits index.toNat 0 16
  let lane := bits index.toNat 16 8
  match s.tmq q with
  | some v => if bits index.toNat 24 8 = 0 ∧ v.leaves.contains lane then some (q, lane) else none
  | none => none

/-- The object of a scope that INDEX names, when it exists. -/
def State.counterObj (s : State) (scope : Nat) (index : Word) : Bool :=
  let n := index.toNat
  match scope with
  | 1 => decide (n < 20)
  | 2 => (s.leafOf index).isSome
  | 3 => decide (n < 65536) && (s.tmq n).isSome
  | 4 => decide (bits n 12 4 = 0) && decide (bits n 19 5 = 0) && decide (bits n 29 3 = 0) &&
      s.tenantNodes.contains (nodeKey (bits n 24 5) (bits n 16 3) (bits n 0 12))
  | 5 => decide (n < 4096)
  | 6 => decide (n < 20)
  | _ => decide (n = 0)

/-- The judgement of PORT_COUNTERS. The object of a leaf or queue that does not exist is its queue number. -/
def countersJudge (scope : Byte) (index : Word) : Judge :=
  { Judge.plain 8 with
    bad := if scope = 0 ∨ 7 < scope.toNat then some 0 else none,
    missing := fun s => if s.counterObj scope.toNat index then none else some (index.toNat % (if scope = 2 ∨ scope = 3 then 65536 else 2 ^ 24)) }

/-- The result of PORT_COUNTERS. -/
def State.portCounters (s : State) (scope : Nat) (index : Word) : List Byte :=
  let n := index.toNat
  let get := fun (m : FMap Nat) (k : Nat) => FMap.get 0 m k
  match scope with
  | 1 => ((List.range 18).map (fun i => c64 (get s.ports.ctr (n * 32 + i)))).flatten ++ c64 (get s.pools.rxNoBufLane n)
  | 2 =>
    (match s.leafOf index with
     | some (q, lane) => let l := s.leaf (leafKey q lane); c64 l.enqFrames ++ c64 l.enqBytes ++ c64 l.drop ++ c64 l.held
     | none => [])
  | 3 => c64 (get s.tm.flushed n)
  | 4 => c64 (get s.tm.sentBytes (nodeKey (bits n 24 5) (bits n 16 3) (bits n 0 12)))
  | 5 => let t := s.tenant n; leBytes 8 (BitVec.ofInt 64 t.ledger).toNat ++ c64 t.overTicks ++ c64 t.skips
  | 6 => c64 (get s.tm.editErr n) ++ c64 (get s.pools.ownerFull n) ++ c64 (get s.pools.ctrlDrop n) ++ c64 (get s.pools.spillSkipped n)
  | _ => c64 s.tm.tsReportDrop

/-- The judgement of POOL_COUNTERS (R233). -/
def poolJudge (pool : Byte) : Judge :=
  { Judge.plain 1 with bad := if (1 ≤ pool.toNat ∧ pool.toNat ≤ 7) ∨ pool = 0xFF#8 then none else some 0 }

/-- One pool's counters in the order of R233. -/
def poolBytes (p : Pool) : List Byte :=
  c64 p.allocs ++ c64 p.fallback ++ c64 p.fail ++ c64 p.freeNow ++ c64 p.lowWater ++ c64 p.foreign ++ c64 p.linkFail ++ c64 p.withdrawn ++ c64 p.spilled

/-- The result of POOL_COUNTERS, and LOW_WATER reset by the read (R160). -/
def State.poolCounters (s : State) (pool : Byte) : State × List Byte :=
  let all := decide (pool = 0xFF#8)
  let named := fun (i : Nat) => all || decide (i + 1 = pool.toNat)
  let bytes := (s.pools.pools.zipIdx.map (fun p => if named p.2 then poolBytes p.1 else [])).flatten
  let waits := if all then c64 (FMap.get 0 s.pools.allocWait ownHost.toNat) ++ c64 (FMap.get 0 s.pools.allocWait ownRdma.toNat) ++
    c64 (FMap.get 0 s.pools.allocWait ownSto.toNat) else []
  let reset := s.pools.pools.zipIdx.map (fun p => if named p.2 then { p.1 with lowWater := p.1.freeNow } else p.1)
  ({ s with pools := { s.pools with pools := reset } }, bytes ++ waits)

/-- The elements of an optical engine: its four lanes, OE4 for the S lanes. -/
def oeLanes (oe : Nat) : List Nat := (List.range 4).map (fun i => oe * 4 + i)

/-- The result of OPTICS_QUERY (R240): the lasers that carry a lane in use, the spare laser, spare electrical lanes, temperature and bias. -/
def State.opticsQuery (s : State) (oe : Nat) : List Byte :=
  let spare := FMap.get 0 s.repair.lasers oe
  let used := (List.range 4).foldl (fun m i => if spare = 1 + i then m else m + 2 ^ i) (if spare = 0 then 0 else 16)
  [BitVec.ofNat 8 used, BitVec.ofNat 8 (b2n (decide (spare ≠ 0))), BitVec.ofNat 8 (b2n (decide (FMap.get 0 s.repair.elanes oe ≠ 0))), 0] ++
    leBytes 2 (FMap.get 0 s.repair.laserTemp oe) ++ zeros 2 ++ ((List.range 5).map (fun i => leBytes 2 (FMap.get 0 s.repair.bias (oe * 5 + i)))).flatten

/-- OPTICS_QUERY (R240). -/
def execOpticsQuery (h : MbHdr) (oe : Nat) (s : State) : Answer :=
  .next (s.runQuery h (row 0x0709) { Judge.plain 18 with bad := if oe < 5 then none else some 0 } (fun s => s.opticsQuery oe))

end Sys2Proof.Machine
end

