-- ==== Sys2Proof/Machine/Monitor.lean ====
section
/-!
DEFINITION. The Criek monitor (23): who serves the port, sessions, lifecycle, its commands and the serial load. A line of output is a label with
numbers, in the order in which the rule lists the fields; the text itself is not modelled (log 18).
-/

namespace Sys2Proof.Machine

/-! ### Lines, sessions and permission (R485 to R489) -/

/-- Write a line. -/
def State.say (s : State) (l : MonLine) : State := { s with monitor := { s.monitor with out := s.monitor.out ++ [l] } }
/-- A line of output with numbers. -/
def State.text (s : State) (label : String) (vs : List Nat) : State := s.say (.text label vs)
/-- The final line OK. -/
def State.okLine (s : State) : State := s.say .ok
/-- The final line ERR. -/
def State.errLine (s : State) (code : Byte) : State := s.say (.err code)

/-- The kinds of command that R488 and R489 tell apart: served by both servers in every lifecycle state, by Criek alone, fuse commands, and the
Criek-ROM loading commands. -/
inductive MonKind where
  | basic | look | engine | fuse | advance | rom
deriving DecidableEq, Repr

/-- Whether the present server knows a command (R489). -/
def State.monServes (s : State) (k : MonKind) : Bool :=
  match k with
  | .look => s.monitor.criek
  | .engine => s.monitor.criek
  | _ => true

/-- Whether the lifecycle state permits a command (R488); engine commands in FIELD are judged by their yard's unlock. -/
def State.monPermits (s : State) (k : MonKind) : Bool :=
  match k with
  | .basic => true
  | .look => decide (s.nv.lifecycle < 3)
  | .engine => decide (s.nv.lifecycle < 3)
  | .fuse => decide (s.nv.lifecycle < 2)
  | .advance => decide (s.nv.lifecycle = 0)
  | .rom => decide (s.nv.lifecycle < 3)

/-- A command on a path (R487): the first opens the session, the other path answers ERR 0x0F while it is open. The TAP carries commands under its
CRIEK instruction alone. While a LOAD is in progress no command is read (R485). -/
def State.monCmd (s : State) (m : MonPath) (k : MonKind) (run : State → State) : State :=
  if !s.power.pwrGood || s.monitor.load.isSome || (decide (m = .tap) && !(s.monitor.tapCriek && decide (s.nv.lifecycle ≤ 1))) then s
  else
    let other := match s.monitor.session with | some p => decide (p ≠ m) | none => false
    if other then s.errLine 0x0F
    else
      let s1 := { s with monitor := { s.monitor with session := some m } }
      if !s1.monServes k then s1.errLine 0x0B
      else if !s1.monPermits k then s1.errLine 0x0F
      else run s1

/-! ### Commands that look (R489) -/

/-- The words that the present server accepts. -/
def monWords (criek : Bool) : List String :=
  ["HELP", "ID", "STATE", "BAUD", "QUIT", "KEYPROG", "REVOKE", "LCADV", "LOAD", "RELEASE"] ++
    (if criek then ["LOG", "TIME", "DBG", "HOLD", "RESUME", "STEP", "KILL", "REGS", "SETREG", "RDMEM", "WRMEM"] else [])

/-- HELP. -/
def execHelp (m : MonPath) (s : State) : Answer :=
  .next (s.monCmd m .basic (fun s => ((monWords s.monitor.criek).foldl (fun (s : State) w => s.text w []) s).okLine))

/-- ID: the fields of IDENTIFY (R233). -/
def execId (m : MonPath) (s : State) : Answer :=
  .next (s.monCmd m .basic (fun s =>
    (((((((s.text "PART" (partBytes.map (·.toNat))).text "FWREL" [s.fwRel]).text "MBADEL" [0x00030001]).text "HIVIA" [0x00020004]).text "LIFECYCLE"
      [s.nv.lifecycle]).text "POSITION" [s.boot.straps.pos.val]).text "PERIOD" [s.time.period]).text "SERIAL" [Config.serial.toNat] |>.okLine))

/-- STATE: the device state, the lifecycle state, the clock state and the counts of R11. -/
def execState (m : MonPath) (s : State) : Answer :=
  .next (s.monCmd m .basic (fun s =>
    ((((s.text "STATE" [s.dev.state]).text "LIFECYCLE" [s.nv.lifecycle]).text "CLOCK" [s.time.clock.code]).text "COUNTS"
      [s.yardsInService, s.lanesInService, s.channelsInService]).okLine))

/-- LOG: up to 64 entries from a sequence number; a larger count is malformed (log 56). -/
def execLog (m : MonPath) (seqFrom count : Nat) (s : State) : Answer :=
  .next (s.monCmd m .look (fun s =>
    if 64 < count then s.errLine 0x0A
    else ((s.eventsFrom seqFrom count).foldl (fun (s : State) e => s.text "EVENT" ((e.bytes false).map (·.toNat))) s).okLine))

/-- TIME: the fields of TIME_QUERY (R241). -/
def execTime (m : MonPath) (s : State) : Answer :=
  .next (s.monCmd m .look (fun s =>
    let t := s.time
    (s.text "TIME" [t.sec, t.ns, t.clock.code, t.source, (BitVec.ofInt 32 t.delta).toNat, t.gate,
      (match t.pendPeriod with | some p => p.1 | none => 0xFF), (match t.pendPeriod with | some p => p.2 | none => 0)]).okLine))

/-! ### The line (R484 to R487) -/

/-- The rates of R484. -/
def baudRates : List Nat := [115200, 230400, 460800, 921600, 1000000, 2000000, 3000000]

/-- BAUD: answered at the old rate. -/
def execBaud (m : MonPath) (rate : Nat) (s : State) : Answer :=
  .next (s.monCmd m .basic (fun s =>
    if baudRates.contains rate then { s.okLine with monitor := { s.okLine.monitor with baudNext := some rate } } else s.errLine 0x0F))

/-- BAUD_SWITCH: 2 ms after the answer. -/
def execBaudSwitch (s : State) : Answer :=
  .next (match s.monitor.baudNext with | some r => { s with monitor := { s.monitor with baud := r, baudNext := none } } | none => s)

/-- QUIT. -/
def execQuit (m : MonPath) (s : State) : Answer :=
  .next (s.monCmd m .basic (fun s => { s.okLine with monitor := { s.okLine.monitor with session := none } }))

/-- SESSION_TIMEOUT: 60 s without a command; a LOAD in progress is one. -/
def execSessionTimeout (s : State) : Answer :=
  .next (if s.monitor.load.isSome then s else { s with monitor := { s.monitor with session := none } })

/-- SERVER_CHANGE (R486): at a release, a fail-over or a switch-over. A command in progress is lost without a final line, the rate returns, the
new server sends its banner, and the monitor's epoch increments. -/
def execServerChange (s : State) : Answer :=
  .next (if !s.power.pwrGood || (!s.boot.mpRunning && !s.monitor.criek) then s
    else
      let c := s.boot.mpRunning
      let s1 := (s.epochBump srcMonitor)
      let s2 := { s1 with monitor := { s1.monitor with criek := c, load := none, baud := 115200, baudNext := none }, boot := { s1.boot with windowHeld := false } }
      if c then s2.text "CRIEK" [s2.fwRel, s2.dev.state] else s2.text "CRIEK-ROM" [s2.dev.state])

/-! ### Fuses (R489, R416) -/

/-- KEYPROG: blows an unprogrammed slot. -/
def execKeyprog (m : MonPath) (slot : Nat) (ecdsa mldsa : BitVec 384) (s : State) : Answer :=
  .next (s.monCmd m .fuse (fun s =>
    if s.power.warn then s.errLine 0x0F
    else if 4 ≤ slot then s.errLine 0x0A
    else if s.keyProgrammed slot then s.errLine 0x0F
    else { s with nv := { s.nv with keys := FMap.set none s.nv.keys slot (some (ecdsa.toNat, mldsa.toNat)) } }.okLine))

/-- REVOKE: blows a slot's revocation pair; no slot is checked. Without CONFIRM it is malformed (log 56). -/
def execRevoke (m : MonPath) (slot : Nat) (confirmed : Bool) (s : State) : Answer :=
  .next (s.monCmd m .fuse (fun s =>
    if s.power.warn then s.errLine 0x0F
    else if 4 ≤ slot ∨ confirmed = false then s.errLine 0x0A
    else { s with nv := { s.nv with revoked := if s.nv.revoked.contains slot then s.nv.revoked else s.nv.revoked ++ [slot] } }.okLine))

/-- LCADV: MANUFACTURE to DEVELOPMENT. -/
def execLcadv (m : MonPath) (confirmed : Bool) (s : State) : Answer :=
  .next (s.monCmd m .advance (fun s =>
    if s.power.warn then s.errLine 0x0F
    else if !confirmed then s.errLine 0x0A
    else { s with nv := { s.nv with lifecycle := 1 } }.okLine))

/-! ### Loading (R489, R493) -/

/-- Whether stage 1 is stopped by SAFE_HOLD before the release event (R431). -/
def State.safeHeld (s : State) : Bool := s.boot.straps.safeHold && decide (s.boot.stage = .selected) && !s.boot.mpRunning

/-- RELEASE: in SAFE_HOLD stage 1 continues to the release event. -/
def execRelease (m : MonPath) (s : State) : Answer :=
  .next (s.monCmd m .rom (fun s => if !s.monitor.criek && s.safeHeld then s.okLine.stage1Done else s.errLine 0x0F))

/-- MONITOR_LOAD: LOAD is served in a recovery window or in SAFE_HOLD; it holds the window open. -/
def execMonitorLoad (m : MonPath) (len : Nat) (s : State) : Answer :=
  .next (s.monCmd m .rom (fun s =>
    if s.monitor.criek || !(s.boot.window || s.safeHeld) then s.errLine 0x0F
    else if len < 8192 ∨ 50331648 < len then s.errLine 0x0A
    else
      let s1 := s.text "READY" []
      { s1 with monitor := { s1.monitor with load := some { len := len, data := [], block := 0, safeHold := !s1.boot.window } },
                boot := { s1.boot with windowHeld := s1.boot.window } }))

/-- The transfer ends. -/
def State.endLoad (s : State) : State := { s with monitor := { s.monitor with load := none }, boot := { s.boot with windowHeld := false } }

/-- A whole image has come: it is checked and run as R433 states. In SAFE_HOLD one that passes replaces the selected slot's stage 1 for this
power-up only. -/
def State.loadDone (s : State) (l : MonLoad) (image : List Byte) : State :=
  let s1 := s.endLoad.stageImage image
  let st := s1.loadStatus image
  if st ≠ 0 then s1.errLine st else if l.safeHold then s1.okLine else s1.okLine.runLoaded image

/-- LOAD_BLOCK: 4,096 bytes, the last one short, with the hash of R139. -/
def execLoadBlock (data : List Byte) (check : Word) (s : State) : Answer :=
  .next (match s.monitor.load with
    | none => s
    | some l =>
      if data.length = min 4096 (l.len - l.data.length) ∧ crc 0 data = check then
        let all := l.data ++ data
        let s1 := s.text "ACK" [l.block]
        let l1 := { l with data := all, block := l.block + 1 }
        if l.len ≤ all.length then s1.loadDone l1 all else { s1 with monitor := { s1.monitor with load := some l1 } }
      else s.text "NAK" [l.block])

/-- LOAD_GAP_TIMEOUT: a gap of 1 s. -/
def execLoadGapTimeout (s : State) : Answer := .next (if s.monitor.load.isSome then s.endLoad.errLine 3 else s)

/-- SERIAL_LOAD_LIMIT: 60 s from READY. -/
def execSerialLoadLimit (s : State) : Answer := .next (if s.monitor.load.isSome then s.endLoad.errLine 3 else s)

/-! ### Engine commands (R490 to R492) -/

/-- An engine command (R490): resting and retired yards end ERR 0x10, in FIELD a yard with no unlock ends ERR 0x0F. -/
def State.monEngine (s : State) (m : MonPath) (pe : Nat) (run : State → State) : State :=
  s.monCmd m .engine (fun s =>
    if !s.engActive pe then s.errLine 0x10 else if !s.debugAllowed (pe / 32) then s.errLine 0x0F else run s)

/-- A command on a held thread; one that is not HELD ends ERR 0x11 (R491). -/
def State.monHeld (s : State) (m : MonPath) (pe k : Nat) (run : State → State) : State :=
  s.monEngine m pe (fun s => if (s.thr pe k).held then run s else s.errLine 0x11)

/-- DBG. -/
def execDbg (m : MonPath) (eng : Fin 1088) (on : Bool) (s : State) : Answer :=
  .next (s.monEngine m eng.val (fun s => (s.setEng eng.val { s.eng eng.val with dbgen := on }).okLine))

/-- HOLD: at the next instruction boundary. A thread that is HELD already stays so. The tick of the answer is the thread's own, as SXTICK shows
it (DEDUCED, log 56). -/
def execHold (m : MonPath) (eng : Fin 1088) (thr : Fin 8) (s : State) : Answer :=
  .next (s.monEngine m eng.val (fun s =>
    let t := s.thr eng.val thr.val
    if thr.val = 0 then s.errLine 0x0F
    else if t.st = .free then s.errLine 0x11
    else
      let s1 := if t.held then s else s.holdThread eng.val thr.val 0
      let tick := match (s.eng eng.val).itemOf thr.val with | some it => it.tick | none => s.time.number
      (s1.text "HELD" [t.pc.toNat, tick]).okLine))

/-- RESUME (R88). -/
def execResume (m : MonPath) (eng : Fin 1088) (thr : Fin 8) (s : State) : Answer :=
  .next (s.monHeld m eng.val thr.val (fun s => (s.modThr eng.val thr.val (fun t => { t with held := false, stepping := false })).okLine))

/-- STEP: one instruction, after which the thread is held again. -/
def execStep (m : MonPath) (eng : Fin 1088) (thr : Fin 8) (s : State) : Answer :=
  .next (s.monHeld m eng.val thr.val (fun s => (s.modThr eng.val thr.val (fun t => { t with held := false, stepping := true })).okLine))

/-- KILL: nothing is published. The spec names no status for the thread's item; the model gives DEBUG_HELD (DESIGN CHOICE, log 61). -/
def execKill (m : MonPath) (eng : Fin 1088) (thr : Fin 8) (s : State) : Answer :=
  .next (s.monHeld m eng.val thr.val (fun s => (s.endOther eng.val thr.val 0x0C false).okLine))

/-- REGS: x1 to x31, pc, sxtick and sxarr. -/
def execRegs (m : MonPath) (eng : Fin 1088) (thr : Fin 8) (s : State) : Answer :=
  .next (s.monEngine m eng.val (fun s =>
    let t := s.thr eng.val thr.val
    let tick := match (s.eng eng.val).itemOf thr.val with | some it => it.tick | none => 0
    ((((s.text "X" ((List.range 31).map (fun i => (t.reg (i + 1)).toNat))).text "PC" [t.pc.toNat]).text "SXTICK" [tick]).text "SXARR"
      [match t.sel with | some i => i | none => 0xFFFFFFFF]).okLine))

/-- SETREG: register 32 is the pc. -/
def execSetreg (m : MonPath) (eng : Fin 1088) (thr : Fin 8) (reg : Fin 33) (value : Word) (s : State) : Answer :=
  .next (s.monHeld m eng.val thr.val (fun s =>
    (s.modThr eng.val thr.val (fun t => if reg.val = 32 then { t with pc := value } else t.setReg reg.val value)).okLine))

/-- A word of an engine's address space as the monitor reads it (R42); the packet windows show a thread's arrival, and the monitor names no
thread (log 56). -/
def State.monWord (s : State) (pe addr : Nat) : Option Nat :=
  if addr % 4 ≠ 0 then none
  else if addr < 0x4000 then some (Mem.rdLe (s.eng pe).bank.image addr 4)
  else match s.locate pe 0 addr 4 with
    | .bad _ => none
    | p => some (ofLe (s.readPlace pe 0 p 4))

/-- RDMEM: up to 256 words; an address that holds nothing to read ends ERR 0x08. -/
def execRdmem (m : MonPath) (eng : Fin 1088) (addr count : Nat) (s : State) : Answer :=
  .next (s.monEngine m eng.val (fun s =>
    let ws := (List.range count).map (fun i => s.monWord eng.val (addr + 4 * i))
    if 256 < count then s.errLine 0x0A
    else if ws.all Option.isSome then (s.text "MEM" (ws.map (·.getD 0))).okLine
    else s.errLine 8))

/-- WRMEM: the data store, record area or shared store of a held engine. -/
def execWrmem (m : MonPath) (eng : Fin 1088) (addr : Nat) (value : Word) (s : State) : Answer :=
  .next (s.monEngine m eng.val (fun s =>
    if !(s.eng eng.val).holdEng then s.errLine 0x0F
    else match s.locate eng.val 0 addr 4 with
      | .store a => (s.writePlace eng.val 0 (.store a) (leBytes 4 value.toNat)).okLine
      | .shared a => (s.writePlace eng.val 0 (.shared a) (leBytes 4 value.toNat)).okLine
      | _ => s.errLine 8))

end Sys2Proof.Machine
end

