-- ==== Sys2Proof/Machine/Power.lean ====
section
/-!
DEFINITION. Power, thermal, pins, SMBus, MCTP and the TAP (21, 22). Voltages and temperatures are what the command says was measured (log 20).
-/

namespace Sys2Proof.Machine

/-! ### The feed (R449 to R456, R480) -/

/-- VIN_RISE (R480): from DOWN the always-on domains come up, PWR_GOOD stays low, and this power-up counts as a power cycle. -/
def execVinRise (vinMv : Nat) (s : State) : Answer :=
  .next (if s.power.st = .down ∧ 6000 ≤ vinMv then
      { s with power := { s.power with st := .feed, vinMv := vinMv, pwrGood := false, warn := false, inSag := false },
               boot := { s.boot with coldStart := true } }
    else s)

/-- PWR_GOOD_ASSERT (R480, R430): the straps are sampled and boot begins. -/
def execPwrGoodAssert (straps : Straps) (s : State) : Answer :=
  .next (if s.power.st = .feed ∧ s.power.pwrGood = false ∧ s.power.resetInLow = false then s.coldBoot straps else s)

/-- Whether the SP runs and may append (R416, R453). -/
def State.spRuns (s : State) : Bool := s.power.pwrGood && decide (s.boot.stage ≠ .waitRepair) && !s.power.warn

/-- SAG_BAND_ENTRY (R449): logged each time VIN enters the band. -/
def execSagBandEntry (vinMv : Nat) (s : State) : Answer :=
  .next (if s.power.st = .feed ∧ 5500 ≤ vinMv ∧ vinMv < 6000 then
      { s with power := { s.power with vinMv := vinMv, inSag := true } }.log 0x0104 0 vinMv
    else s)

/-- Whether the stored energy is at most 2 ms of the estimate, or the bank is at 25.5 V (R452). -/
def warnDue (p : Power) (holdupMv : Nat) : Bool :=
  decide (holdupMv ≤ 25500) || decide (p.cm * (holdupMv * holdupMv - 400000000) ≤ 4000000 * p.estimate)

/-- PWR_FAIL_WARN_N asserts (R452, R453): switch-overs and rotations that wait are abandoned. -/
def State.warnOn (s : State) (holdupMv : Nat) : State :=
  let s1 := { s with power := { s.power with st := .warned, warn := true, holdupMv := holdupMv } }
  ((s1.log 0x0102 0 holdupMv).abandonMpSwitch).abandonWaiting.abandonSwap

/-- FEED_INTERRUPTION (R449, R452, R455): the SP counts an unsafe shutdown. What VIN measures below 5.5 V is free. -/
def execFeedInterruption (s : State) : Answer :=
  .next (if s.power.st ≠ .feed then s
    else
      let (v, s1) := s.freshNat
      let n := s1.jLast 8
      let s2 := { s1 with power := { s1.power with st := .rideThrough, vinMv := v % 5500, inSag := false } }
      let s3 := if s2.spRuns then { s2.jAppend 8 (n + 1) with power := { s2.power with prevUnsafe := some n } } else s2
      if warnDue s3.power s3.power.holdupMv then s3.warnOn s3.power.holdupMv else s3)

/-- FEED_RETURN (R449, R452, R455): the warning ends, and the SP records the previous count again. -/
def execFeedReturn (vinMv : Nat) (s : State) : Answer :=
  .next (if (s.power.st = .rideThrough ∨ s.power.st = .warned) ∧ 6000 ≤ vinMv then
      let s1 := { s with power := { s.power with st := .feed, vinMv := vinMv, warn := false } }
      match s1.power.prevUnsafe with
      | some n => if s1.spRuns then { s1.jAppend 8 n with power := { s1.power with prevUnsafe := none } } else s1
      | none => s1
    else s)

/-- PWR_FAIL_WARN_ASSERT (R452). -/
def execPwrFailWarnAssert (holdupMv : Nat) (s : State) : Answer :=
  .next (if s.power.st = .rideThrough ∧ warnDue s.power holdupMv = true then s.warnOn holdupMv else s)

/-- HOLDUP_EXHAUSTED (R454). -/
def execHoldupExhausted (s : State) : Answer :=
  .next (if s.power.st = .rideThrough ∨ s.power.st = .warned then
      let s1 := s.losePower
      { s1 with power := { s1.power with st := .down, holdupMv := 20000, thermAlert := false } }
    else s)

/-- BANK_CHARGE_MEASURE (R450). -/
def execBankChargeMeasure (cmMicroF : Nat) (s : State) : Answer :=
  .next (if s.power.st = .feed then { s with power := { s.power with cm := cmMicroF, holdupMv := 52000 } } else s)

/-! ### Temperature (R462 to R464) -/

/-- A sensor's crossing is logged (R463, R378). -/
def State.logThermal (s : State) (sensor : Nat) (t : Int) : State := s.log 0x0103 sensor (BitVec.ofInt 32 t).toNat

/-- THERMAL_ALERT (R463): 0 is the junction's sensor and 1 the plate's, as R306 numbers them. -/
def execThermalAlert (junction plate : Int) (s : State) : Answer :=
  .next (if s.power.st = .down then s
    else
      let p := s.power
      let s1 := { s with power := { p with junction := junction, plate := plate } }
      let s2 := if p.junction < 1600 ∧ 1600 ≤ junction then s1.logThermal 0 junction else s1
      let s3 := if p.plate ≤ 1360 ∧ 1360 < plate then s2.logThermal 1 plate else s2
      if 1600 ≤ junction ∨ 1360 < plate then { s3 with power := { s3.power with thermAlert := true } }
      else if junction < 1552 ∧ plate < 1328 ∧ p.st ≠ .tripped then { s3 with power := { s3.power with thermAlert := false } }
      else s3)

/-- THERMAL_CAP_UPDATE (R463). -/
def execThermalCapUpdate (junction : Int) (s : State) : Answer :=
  .next (
    let p := { s.power with junction := junction }
    if p.st = .down ∨ p.st = .tripped then s
    else if 1680 ≤ junction then { s with power := { p with thermalCap := some (max 30000 (p.estimate - 2000)) } }
    else if junction < 1632 then
      { s with power := { p with thermalCap := match p.thermalCap with | some c => if 85000 < c + 2000 then none else some (c + 2000) | none => none } }
    else { s with power := p })

/-- THERMAL_TRIP (R464): made in hardware, and counted as an unsafe shutdown. An interruption that goes on has been counted already, and while
PWR_FAIL_WARN_N is asserted no append starts (R453, log 54). -/
def execThermalTrip (junction : Int) (s : State) : Answer :=
  .next (if 1840 ≤ junction ∧ s.power.st ≠ .down ∧ s.power.st ≠ .tripped then
      let counted := s.power.prevUnsafe.isSome || s.power.warn
      let s1 := (if counted then s else s.jAppend 8 (s.jLast 8 + 1)).losePower
      { s1 with power := { s1.power with st := .tripped, junction := junction, thermAlert := true } }
    else s)

/-- TRIP_COOLDOWN (R464, R481): below 95 °C Geleath powers up as from a cold start; PWR_GOOD waits while RESET_IN_N is low. -/
def execTripCooldown (junction : Int) (straps : Straps) (s : State) : Answer :=
  .next (if s.power.st = .tripped ∧ junction < 1520 then
      let p := { s.power with st := .feed, junction := junction, thermAlert := decide (1328 ≤ s.power.plate) }
      let s1 := { s with power := p, boot := { s.boot with coldStart := true } }
      if p.resetInLow then s1 else s1.coldBoot straps
    else s)

/-! ### RESET_IN_N (R481) -/

/-- RESET_IN_ASSERT: PWR_GOOD deasserts, the lasers turn off, and everything outside the always-on domains is held in reset. -/
def execResetInAssert (s : State) : Answer :=
  .next (
    let s1 := if s.power.st = .down ∨ s.power.st = .tripped then s else s.coldBoot s.boot.straps
    { s1 with power := { s1.power with resetInLow := true, pwrGood := false, lasersOff := true } })

/-- RESET_IN_RELEASE: PWR_GOOD asserts and Geleath boots, with the straps sampled again; not while it is DOWN or TRIPPED. -/
def execResetInRelease (straps : Straps) (s : State) : Answer :=
  .next (
    let s1 := { s with power := { s.power with resetInLow := false } }
    if s.power.resetInLow = false ∨ s.power.st = .down ∨ s.power.st = .tripped then s1 else s1.coldBoot straps)

/-! ### SMBus and MCTP (R477, R478) -/

/-- STATUS of R478. -/
def State.smbusStatus (s : State) : Nat :=
  s.dev.state + 256 * b2n s.power.thermAlert + 512 * b2n (!s.events.faultN) + 1024 * b2n s.power.warn + 2048 * b2n (decide (s.power.st = .tripped))

/-- A monitoring register; none where the command code is not acknowledged. -/
def State.smbusReg (s : State) (code : Byte) : Option Half :=
  match code.toNat with
  | 1 => some (BitVec.ofInt 16 s.power.plate)
  | 2 => some (BitVec.ofInt 16 s.power.junction)
  | 3 => some (BitVec.ofNat 16 (s.power.vinMv / 10))
  | 4 => some (BitVec.ofNat 16 (s.power.holdupMv / 10))
  | 5 => some (BitVec.ofNat 16 s.smbusStatus)
  | 6 => some (BitVec.ofNat 16 (s.power.estimate / 10))
  | _ => none

/-- SMBUS_READ_WORD: served in every state but DOWN. -/
def execSmbusReadWord (code : Byte) (s : State) : Answer :=
  .next { s with power := { s.power with smbus := if s.power.st = .down then none else s.smbusReg code } }

/-- ALERT_RESPONSE: while SMB_ALERT_N is low Geleath answers with its own address, 0x68 + POS, as the address byte's upper seven bits. -/
def execAlertResponse (s : State) : Answer :=
  .next (
    let low := decide (s.power.st ≠ .down) && (s.power.thermAlert || !s.events.faultN || s.power.warn)
    { s with power := { s.power with smbus := if low then some (BitVec.ofNat 16 (2 * (0x68 + s.boot.straps.pos.val))) else none } })

/-- An MCTP control message: answered while an MP runs, else not acknowledged (R477). -/
def State.mctp (s : State) (reply : State → List Byte × State) : State :=
  if s.boot.mpRunning && s.power.pwrGood then
    let (bs, s1) := reply s
    { s1 with power := { s1.power with mctpReply := some bs } }
  else { s with power := { s.power with mctpReply := none } }

/-- SET_ENDPOINT_ID: completion code, status, the ID, pool size (DSP0236, PRESUMED, log 55). IDs 0x00 and 0xFF are invalid data. -/
def execSetEndpointId (eid : Byte) (s : State) : Answer :=
  .next (s.mctp (fun s =>
    if eid = 0 ∨ eid = 0xFF then ([2], s) else ([0, 0, eid, 0], { s with power := { s.power with mctpEid := eid } })))

/-- GET_ENDPOINT_ID: completion code, the ID, endpoint type, medium-specific byte (DSP0236, PRESUMED, log 55). -/
def execGetEndpointId (s : State) : Answer := .next (s.mctp (fun s => ([0, s.power.mctpEid, 0, 0], s)))

/-- GET_MCTP_VERSION_SUPPORT: one entry; the version is not given, so it is free (log 55). -/
def execGetMctpVersionSupport (s : State) : Answer :=
  .next (s.mctp (fun s => let (v, s1) := s.freshNat; ([0, 1] ++ leBytes 4 v, s1)))

/-- GET_MESSAGE_TYPE_SUPPORT: no type beside the control type, which the list leaves out (DSP0236, PRESUMED, log 55). -/
def execGetMessageTypeSupport (s : State) : Answer := .next (s.mctp (fun s => ([0, 0], s)))

/-! ### The TAP (R479, R487) -/

/-- Instruction numbers of the model's own for BYPASS, IDCODE, SAMPLE/PRELOAD, EXTEST and CRIEK; the spec gives no codes (log 55). -/
def tapBypass : Nat := 0
/-- IDCODE. -/
def tapIdcode : Nat := 1
/-- SAMPLE/PRELOAD. -/
def tapSample : Nat := 2
/-- EXTEST. -/
def tapExtest : Nat := 3
/-- CRIEK. -/
def tapCriekIr : Nat := 4

/-- The data register that a TAP instruction selects: BYPASS a bit of 0, IDCODE the identification code (R479). -/
def tapData (p : Power) : Nat := if p.tapIr = tapIdcode then 0x15A109E7 else 0

/-- Select a TAP instruction: boundary outputs are driven under EXTEST alone, and the Criek channel is open under CRIEK alone. -/
def State.tapSelect (s : State) (ir : Nat) : State :=
  { s with power := { s.power with tapIr := ir, extest := decide (ir = tapExtest) }, monitor := { s.monitor with tapCriek := decide (ir = tapCriekIr) } }

/-- BYPASS. -/
def execBypass (s : State) : Answer := .next (s.tapSelect tapBypass)
/-- IDCODE. -/
def execIdcode (s : State) : Answer := .next (s.tapSelect tapIdcode)
/-- SAMPLE_PRELOAD: the boundary register is loaded. -/
def execSamplePreload (bits : List Bool) (s : State) : Answer :=
  .next (let s1 := s.tapSelect tapSample; { s1 with power := { s1.power with boundary := bits } })
/-- EXTEST: the contacts are driven from the boundary register. -/
def execExtest (s : State) : Answer := .next (s.tapSelect tapExtest)
/-- CRIEK (R487): in MANUFACTURE and DEVELOPMENT; in FIELD and DECOMMISSIONED it selects BYPASS. -/
def execCriek (s : State) : Answer := .next (s.tapSelect (if s.nv.lifecycle ≤ 1 then tapCriekIr else tapBypass))

end Sys2Proof.Machine
end

