-- ==== Sys2Proof/Machine/StackOps.lean ====
section
/-!
DEFINITION. Stack-wide commits (20, R442 to R444): PREPARE, answers, GO, ABANDON and the turn of T. The answers of other members and the status of
a member that is not ready are free (log 52), as no command of the table brings them.
-/

namespace Sys2Proof.Machine

/-- Send or relay GO in both directions (R443). -/
def State.sendGo (s : State) (b t : Nat) : State := s.control 0xFF ctlGo b (leBytes 8 t)

/-- The COMMIT of a batch that this module took and has armed. -/
def State.armedCommit (s : State) (b : Nat) : Option Armed :=
  s.mbadel.armed.find? (fun a => match a.cmd with | .commit _ n _ => decide (n = b) | _ => false)

/-- An armed command ends. -/
def State.endArmed (s : State) (a : Armed) (v : CmdEnd) (res : List Byte) : State :=
  ({ s with mbadel := { s.mbadel with armed := s.mbadel.armed.erase a } }).writeResult a.hm a.ptr a.len a.v2 v res res.length

/-- The COMMIT of a batch, when this module took it, ends. -/
def State.endCommitCmd (s : State) (b : Nat) (v : CmdEnd) : State := match s.armedCommit b with | some a => s.endArmed a v [] | none => s

/-- The outcome of a stack commit is kept; 256 of them (R443). -/
def State.noteOutcome (s : State) (b t : Nat) (applied : Bool) : State :=
  { s with stack := { s.stack with outcomes := ((b, t, applied) :: s.stack.outcomes).take 256 } }

/-- A batch is no longer part of a stack commit here. -/
def State.forgetStack (s : State) (b : Nat) : State :=
  { s with stack := { s.stack with prepared := s.stack.prepared.filter (fun e => decide (e.1 ≠ b)), going := s.stack.going.filter (fun e => decide (e.1 ≠ b)),
                                   commit := match s.stack.commit with | some c => if c.batch = b then none else some c | none => none } }

/-- A batch is abandoned (R443): it stays staged, its commit request is cleared, and the COMMIT ends. -/
def State.stackAbandoned (s : State) (b : Nat) (v : CmdEnd) : State :=
  (((s.forgetStack b).requestBatch b false).noteOutcome b s.time.number false).endCommitCmd b v

/-- The status that a local COMMIT would give a member that is not ready: REFUSED, or NO_RESOURCE when its shadow does not fit; free (log 52). -/
def State.notReadyStatus (s : State) : Byte × State :=
  let (b, s1) := s.freshBit
  (if b then 0x0F else 9, s1)

/-- AT_TICK of a COMMIT. -/
def Armed.atTick (a : Armed) : Nat := match a.cmd with | .commit _ _ t => t | _ => 0

/-- Answers of the peers so far: whether each has answered by this turn, and how, is free. Answers the first that is not ready. -/
def gatherAnswers : List Nat → State → List Nat → State × List Nat × Option (Nat × Byte)
  | [], s, ok => (s, ok, none)
  | p :: ps, s, ok =>
    if ok.contains p then gatherAnswers ps s ok
    else
      let (came, s1) := s.freshBit
      if !came then gatherAnswers ps s1 ok
      else
        let (ready, s2) := s1.freshBit
        if ready then gatherAnswers ps s2 (ok ++ [p])
        else
          let (st, s3) := s2.notReadyStatus
          (s3, ok, some (p, st))

/-- The master's part of a commit at a turn (R443): it gathers READY, then names T and sends GO, or abandons. -/
def State.masterTurn (s : State) : State :=
  match s.stack.commit with
  | none => s
  | some c =>
    if c.goTick.isSome || !s.isMaster then s
    else
      let me := s.position
      let ok := if c.ready.contains me || s.commitWaits c.batch then c.ready else c.ready ++ [me]
      let (s1, ok1, bad) := gatherAnswers s.peers s ok
      match bad with
      | some (p, st) => (s1.controlAll ctlAbandon c.batch []).stackAbandoned c.batch { status := st, kind := 3, value := p }
      | none =>
        if s.stack.members.all (fun p => ok1.contains p) then
          let t := max ((match s1.armedCommit c.batch with | some a => a.atTick | none => 0)) (s1.time.number + 32)
          ({ s1 with stack := { s1.stack with commit := some { c with ready := ok1, goTick := some t }, going := s1.stack.going ++ [(c.batch, t)] } }).sendGo
            c.batch t
        else { s1 with stack := { s1.stack with commit := some { c with ready := ok1 } } }

/-- A member answers a PREPARE that waited for the clean-up: READY once it is done, NOT_READY after 16 ticks. -/
def State.answerPrepared (s : State) : State :=
  s.stack.prepared.foldl (fun (s : State) e =>
    if e.2.2 then s
    else if !s.commitWaits e.1 then
      ({ s with stack := { s.stack with prepared := s.stack.prepared.map (fun (x : Nat × Nat × Bool) => if x.1 = e.1 then (x.1, x.2.1, true) else x) } }).control
        s.stack.master ctlReady e.1 []
    else if e.2.1 + 16 ≤ s.time.tick then
      ({ s with stack := { s.stack with prepared := s.stack.prepared.filter (fun x => decide (x.1 ≠ e.1)) } }).control s.stack.master ctlNotReady e.1 [0x0F]
    else s) s

/-- The batches whose T has come are applied (R443), and the COMMITs of this module complete. `start` is the PTP time of the next tick. -/
def State.applyGoing (s : State) (start : Nat) : State :=
  (s.stack.going.filter (fun g => decide (g.2 ≤ s.time.number))).foldl (fun (s : State) g =>
    (((s.applyBatch g.1 start).forgetStack g.1).noteOutcome g.1 g.2 true).endCommitCmd g.1 vOk) s

/-- The next COMMIT that this module took starts (R442, R443): the master sends PREPARE, another member forwards it; an isolated module refuses it
(R439). -/
def State.startStackCommit (s : State) : State :=
  if s.stack.commit.isSome || decide (s.dev.state = 1) then s
  else match s.mbadel.armed.find? (fun a => decide (a.opcode = 0x0408) && s.isDue a) with
    | none => s
    | some a =>
      (match a.cmd with
       | .commit _ b t =>
         if s.stack.isolated then (s.requestBatch b false).endArmed a { status := 0x0F, kind := 0, value := s.dev.state } []
         else
           let s1 := { s with stack := { s.stack with commit := some { batch := b, start := s.time.tick, ready := [], goTick := none, lost := false } } }
           if s.isMaster then s1.controlAll ctlPrepare b [] else s1.control s.stack.master ctlCommit b (leBytes 8 t)
       | _ => s)

/-- The commits of a stack at a turn. -/
def State.stackTurn (s : State) (start : Nat) : State :=
  if s.stacked then (((s.applyGoing start).answerPrepared).masterTurn).startStackCommit else s

/-! ### Membership (R437 to R439) -/

/-- The lowest position of a membership. -/
def lowestOf (ms : List Nat) : Nat := ms.foldl min (ms.headD 0)

/-- Whether a position is healthy (R437): this module by its device state, another by its heartbeats, as the last tick marker found them (log 52). -/
def State.healthy (s : State) (p : Nat) : Bool := if p = s.position then s.dev.state ∈ [2, 3, 4, 5] else !s.stack.unwell.contains p

/-- The master of a membership: position 0 when it is a healthy member, else the lowest healthy member, or the lowest when none is healthy. -/
def State.masterOf (s : State) (ms : List Nat) : Nat :=
  let well := ms.filter (fun p => s.healthy p)
  if well.isEmpty then lowestOf ms else lowestOf well

/-- Whether this module has answered a PREPARE of a batch, or waits to. -/
def State.isPrepared (s : State) (b : Nat) : Bool := s.stack.prepared.any (fun e => decide (e.1 = b))

/-- This module is isolated (R439): it runs alone. A COMMIT that it took ends as when the master is lost (log 52); a batch that waits for a
decision stays as it is until the module rejoins (R444). -/
def State.isolate (s : State) : State :=
  let s1 := match s.stack.commit with
    | some c =>
      if s.isPrepared c.batch then
        let t := s.endCommitCmd c.batch (vOwn 1 3)
        { t with stack := { t.stack with commit := none } }
      else s.stackAbandoned c.batch (vOwn 1 3)
    | none => s
  { s1 with stack := { s1.stack with members := [s.position], master := s.position, isolated := true, missed := 0, takeover := false } }

/-- STACK_QUERY's masks: bit per position. -/
def posMask (ps : List Nat) : Nat := (List.range 8).foldl (fun m p => if ps.contains p then m + 2 ^ p else m) 0

/-! ### Groups and stages that span modules (R445, R446) -/

/-- The members of a STACK_GROUP in the order of its distribution table: position, then lane. A lane of another module is named
(position + 1) × 32 + lane. -/
def State.groupOrder (s : State) (ms : List Half) : List Nat :=
  ((List.range 8).map (fun p => ((List.range 16).filter (fun l => (ms.getD p 0).getLsbD l)).map (fun l => if p = s.position then l else (p + 1) * 32 + l))).flatten

/-- The lanes of this module that a STACK_GROUP names. -/
def State.ownLanes (s : State) (ms : List Half) : List Nat := (s.groupOrder ms).filter (fun l => decide (l < 32))

/-- The judgement of STACK_GROUP. R244 names no failure for members that break R98 or the limits of R161; they are AG_SET's (log 63). -/
def stackGroupJudge (group : Nat) (mode : Byte) (ms : List Half) : Judge :=
  { Judge.plain 20 with
    bad := if 8 ≤ group then some 0 else if 1 < mode.toNat then some 1
           else if 8 < ((ms.take 8).map (fun (m : Half) => (maskLanes (m.zeroExtend 32)).length)).foldl (· + ·) 0 then some 4 else none,
    pre := fun s => firstOf [failIf (!s.isMaster) (vPre 1), failIf (s.elsewhere group (s.ownLanes ms)) (vPre 1), failIf (s.mixedModes (s.ownLanes ms)) (vPre 2),
                             failIf (s.leavesOver group (s.ownLanes ms)) vNoRes] }

/-- STACK_GROUP's effect here (R445), and its message to every other member. -/
def State.stackGroup (s : State) (group : Nat) (mode : Byte) (members : List Half) : State :=
  let order := s.groupOrder members
  let s1 := s.formGroup group (decide (mode = 1)) (order.filter (fun l => decide (l < 32))) order
  ({ s1 with stack := { s1.stack with groups := FMap.set [] s1.stack.groups group members } }).controlAll ctlGroup group
    ((List.range 8).map (fun p => leBytes 2 (members.getD p 0).toNat)).flatten

/-- The judgement of STACK_STAGE. -/
def stackStageJudge (program entry nextPos : Nat) : Judge :=
  { Judge.plain 4 with bad := if 65536 ≤ program then some 0 else if 256 ≤ entry then some 2 else if 8 ≤ nextPos then some 3 else none }

/-- STACK_STAGE's effect (R446): one binding per program and entry; this module's own position undoes it (log 52). -/
def State.stackStage (s : State) (program entry nextPos : Nat) : State :=
  let others := s.stack.stages.filter (fun b => !(decide (b.1 = program) && decide (b.2.1 = entry)))
  { s with stack := { s.stack with stages := if nextPos = s.position then others else others ++ [(program, entry, nextPos)] } }

end Sys2Proof.Machine
end

