-- ==== Sys2Proof/Machine/StackCmds.lean ====
section
/-!
DEFINITION. Meanings of the stacking rows (20): joining, tick markers, loss of the master, a split, the messages of a stack-wide commit, MEMBER
and STAGE frames; and what a turn and a tick boundary do for the stack.
-/

namespace Sys2Proof.Machine

/-! ### Membership and the tick (R437 to R441) -/

/-- Whether some stack lane is UP. -/
def State.stackLaneUp (s : State) : Bool := [16, 17, 18, 19].any s.laneIsUp

/-- A CONTROL message reaches the MP firmware with a stamp of class 6, index SRC, and the sender's epoch (R208, R436). -/
def State.hear (s : State) (src code about : Nat) : State :=
  if s.stacked then { s with stack := { s.stack with heard := some (s.stamp (srcPeer src), code, about) } } else s

/-- STACK_JOIN (R438): the admission of a position is announced 1,000 ticks ahead. `tick` is the tick number of the module that joins, or of the
stack when this module joins it. -/
def execStackJoin (pos : Fin 8) (tick : Nat) (s : State) : Answer :=
  .next (
    let s := s.hear pos.val ctlAdmit pos.val
    let known := s.stack.members.contains pos.val && !(decide (pos.val = s.position) && decide (s.stack.members.length = 1))
    if !s.stacked || !s.stackLaneUp || s.stack.joinAt.isSome || known then s
    else
      let s1 := { s with stack := { s.stack with joinAt := some (pos.val, tick, s.time.tick + 1000) } }
      if s1.isMaster && decide (pos.val ≠ s.position) then s1.controlAll ctlAdmit pos.val (leBytes 8 (s.time.number + 1000)) else s1)

/-- The tick number steps forward to `n`; it never steps back (R438). -/
def State.stepTick (s : State) (n : Nat) : State :=
  { s with time := { s.time with jumped := s.time.jumped + (n - s.time.number) } }

/-- Whether a stack commit is in progress here. -/
def State.committing (s : State) : Bool := s.stack.commit.isSome || !s.stack.prepared.isEmpty || !s.stack.going.isEmpty

/-- The membership that a module finds when it joins: its own position, and others that are free (log 52). -/
def joinedSet (me : Nat) : Nat → State → List Nat → List Nat × State
  | 0, s, ps => (ps, s)
  | n + 1, s, ps =>
    let p := 7 - n
    if p = me then joinedSet me n s (ps ++ [p])
    else
      let (b, s1) := s.freshBit
      joinedSet me n s1 (if b then ps ++ [p] else ps)

/-- The batches that waited for a decision when this module was isolated are applied or abandoned as the outcome record says (R444); the record
is the old stack's, so the outcome is free (log 52). -/
def State.settlePrepared (s : State) (start : Nat) : State :=
  s.stack.prepared.foldl (fun (s : State) e =>
    let (b, s1) := s.freshBit
    if b then ((s1.applyBatch e.1 start).forgetStack e.1).noteOutcome e.1 s.time.number true
    else ((s1.forgetStack e.1).requestBatch e.1 false).noteOutcome e.1 s.time.number false) s

/-- An announced admission, or the return of the master role to position 0, at its turn (R437, R438, R444). -/
def State.admitJoin (s : State) (start : Nat) : State :=
  match s.stack.joinAt with
  | none => s
  | some (pos, tick, turn) =>
    if s.time.tick < turn then s
    else if pos ≠ s.position ∧ s.stack.members.contains pos = true then
      if s.committing then s else { s with stack := { s.stack with master := pos, joinAt := none } }
    else
      let mine := s.time.number
      let its := tick + 1000
      let s0 := { s with stack := { s.stack with joinAt := none, isolated := false, missed := 0 } }
      if pos = s.position then
        let s1 := (s0.stepTick (if its < mine then mine + 1 else its)).settlePrepared start
        let (ms, s2) := joinedSet pos 8 s1 []
        let old := s2.masterOf (ms.filter (fun p => decide (p ≠ pos)))
        let role := if pos = 0 ∧ ms.length ≠ 1 then some (0, 0, s.time.tick + 1000) else none
        { s2 with stack := { s2.stack with members := ms, master := if pos = 0 ∧ ms.length ≠ 1 then old else s2.masterOf ms, joinAt := role } }
      else
        let s1 := s0.stepTick (if mine < its then its + 1 else mine)
        let ms := (List.range 8).filter (fun p => decide (p = pos) || s1.stack.members.contains p)
        if pos = 0 then { s1 with stack := { s1.stack with members := ms, joinAt := some (0, 0, s.time.tick + 1000) } }
        else { s1 with stack := { s1.stack with members := ms, master := s1.masterOf ms } }

/-- A marker of the master counts towards the 16 that end a takeover (R441). -/
def State.countMarker (s : State) : State :=
  let n := s.stack.markers + 1
  let s1 := { s with stack := { s.stack with missed := 0, markers := n } }
  if s1.stack.takeover && decide (16 ≤ n) then ({ s1 with stack := { s1.stack with takeover := false } }).dropRecover .master else s1

/-- TICK_MARKER (R440): the member's boundaries follow it; how far a boundary moves stays within the model's time resolution (log 3). A clock that
the stack disciplines takes its offset from it (R29, R31), and a member holds the period change that is pending (R32). The heartbeats of the tick come
with it to every module, `unwell` naming the positions that they do not show healthy (R437, log 52). -/
def execTickMarker (hops : Nat) (s0 : State) (offset : Int := 0) (pend : Option (Nat × Nat) := none) (unwell : List (Fin 8) := []) : Answer :=
  let s := { s0 with stack := { s0.stack with unwell := if s0.stacked then unwell.map (·.val) else s0.stack.unwell } }
  .next (if s.stacked && !s.isMaster && !s.stack.isolated && decide (hops < 8) then
      let s1 := s.countMarker
      let s2 := if s1.time.source = 1 then s1.measure offset else s1
      match pend with
      | some p => if p.1 < 5 then { s2 with time := { s2.time with pendPeriod := some p } } else s2
      | none => { s2 with time := { s2.time with pendPeriod := none } }
    else s)

/-- The stack at a tick boundary (R437, R440, R441): a heartbeat leaves, a member counts a boundary without a marker, and the master's own marker
counts for it. -/
def State.stackBoundary (s : State) : State :=
  if !s.stacked then s
  else
    let s1 := s.control 0xFF ctlBeat 0 []
    if s1.isMaster then (if s1.stack.takeover then s1.countMarker else s1)
    else { s1 with stack := { s1.stack with missed := s1.stack.missed + 1 } }

/-- The master is lost (R441): the device recovers, the clock leaves the stack, and the next turn has a new master. -/
def State.loseMaster (s : State) (members : List Nat) : State :=
  let s1 := s.addRecover .master
  let s2 := if s1.time.source = 1 then s1.loseSource else { s1 with time := s1.time.setQual 1 false }
  { s2 with stack := { s2.stack with members := members, takeover := true, markers := 0, missed := 0,
                                     commit := s2.stack.commit.map (fun (c : StackCommit) => { c with lost := true }) } }

/-- MASTER_LOSS (R441): three boundaries without a marker. -/
def execMasterLoss (s : State) : Answer :=
  .next (if s.stacked && !s.isMaster && decide (3 ≤ s.stack.missed) then
      s.loseMaster (s.stack.members.filter (fun p => decide (p ≠ s.stack.master)))
    else s)

/-- Whether the part of a membership that this module sees continues as the stack (R439). -/
def continues (ms part : List Nat) : Bool :=
  decide (ms.length < 2 * part.length) || (decide (ms.length = 2 * part.length) && part.contains (lowestOf ms))

/-- STACK_SPLIT (R439). -/
def execStackSplit (reachable : List (Fin 8)) (s : State) : Answer :=
  .next (
    let part := s.stack.members.filter (fun p => decide (p = s.position) || (reachable.map (·.val)).contains p)
    if !s.stacked || decide (part.length = s.stack.members.length) then s
    else if !continues s.stack.members part then s.isolate
    else if part.contains s.stack.master then { s with stack := { s.stack with members := part } }
    else s.loseMaster part)

/-- The batches of a takeover (R444): the new master sends GO again for a batch that it holds GO of; for one without, a member may hold GO (free,
log 52), else it is abandoned. -/
def State.decideBatches (s : State) : State :=
  let s1 := s.controlAll ctlDecision 0 []
  let s2 := s1.stack.going.foldl (fun (s : State) g => s.sendGo g.1 g.2) s1
  let open_ := (s2.stack.prepared.map (·.1)).filter (fun b => !s2.stack.going.any (fun g => decide (g.1 = b)))
  open_.foldl (fun (s : State) b =>
    let (held, s3) := s.freshBit
    let (t, s4) := s3.freshNat
    if held then
      let n := s4.time.number + t % 32
      ({ s4 with stack := { s4.stack with going := s4.stack.going ++ [(b, n)] } }).sendGo b n
    else (s4.controlAll ctlAbandon b []).stackAbandoned b (vOwn 1 3)) s2

/-- Whether the master is not healthy while another member is (R437). -/
def State.masterFails (s : State) : Bool := !s.healthy s.stack.master && s.stack.members.any (fun p => s.healthy p)

/-- The new master takes over at a turn (R437, R441). -/
def State.takeover (s : State) : State :=
  if s.stack.takeover && !s.stack.members.contains s.stack.master || s.stacked && !s.stack.isolated && s.masterFails then
    let s1 := { s with stack := { s.stack with master := s.masterOf s.stack.members } }
    if s1.isMaster then s1.decideBatches else s1
  else s

/-! ### The messages of a commit (R443, R444) -/

/-- PREPARE (R443): the batch's commit is requested; READY is sent when the clean-up is done, or the answer waits. -/
def execPrepare (src : Fin 8) (batch : Nat) (s : State) : Answer :=
  let s := s.hear src.val ctlPrepare batch
  .next (if !s.stacked || s.isMaster || decide (src.val ≠ s.stack.master) || !(decide (1 ≤ batch) && decide (batch ≤ 255)) || s.isPrepared batch then s
    else
      let ready := !s.commitWaits batch
      let s1 := s.requestBatch batch true
      let s2 := { s1 with stack := { s1.stack with prepared := s1.stack.prepared ++ [(batch, s.time.tick, ready)] } }
      if ready then s2.control src.val ctlReady batch [] else s2)

/-- GO (R443): the first one is relayed in both directions and arms the batch for T. -/
def execGo (src : Fin 8) (batch tick : Nat) (s : State) : Answer :=
  let s := s.hear src.val ctlGo batch
  .next (if !s.stacked || s.stack.isolated || s.stack.going.any (fun g => decide (g.1 = batch)) then s
    else
      let name := fun (c : StackCommit) => if c.batch = batch then { c with goTick := some tick } else c
      ({ s with stack := { s.stack with going := s.stack.going ++ [(batch, tick)], commit := s.stack.commit.map name } }).sendGo batch tick)

/-- STACK_ABANDON (R443, R444): the batch stays staged with its commit request cleared. A COMMIT that this module took ends with the status of a
member, which the message's row does not name and is free (log 52), or ABORTED when the master was lost. -/
def execStackAbandon (src : Fin 8) (batch : Nat) (s : State) : Answer :=
  let s := s.hear src.val ctlAbandon batch
  .next (if !s.stacked || s.stack.isolated then s
    else
      let lost := match s.stack.commit with | some c => c.lost | none => false
      let (st, s1) := s.notReadyStatus
      let (p, s2) := s1.freshNat
      s2.stackAbandoned batch (if lost then vOwn 1 3 else { status := st, kind := 3, value := p % 8 }))

/-- PREPARE_TIMEOUT (R443): an answer is missing after 16 ticks; the spec gives a missing answer no status, and TIMEOUT is the model's (log 52). -/
def execPrepareTimeout (missing : Fin 8) (s : State) : Answer :=
  .next (match s.stack.commit with
    | some c =>
      if !s.isMaster || c.goTick.isSome || decide (s.time.tick < c.start + 16) || !s.stack.members.contains missing.val || c.ready.contains missing.val then s
      else (s.controlAll ctlAbandon c.batch []).stackAbandoned c.batch { status := 3, kind := 3, value := missing.val }
    | none => s)

/-- STACK_DECISION_DEADLINE (R444): a member that holds neither GO nor ABANDON leaves the stack as isolated. -/
def execStackDecisionDeadline (s : State) : Answer :=
  .next (if s.stacked && !s.isMaster && s.stack.prepared.any (fun e => !s.stack.going.any (fun g => decide (g.1 = e.1))) then s.isolate else s)

/-! ### Frames (R445, R446) -/

/-- The enqueue of a MEMBER frame's block over a buffer. -/
def memberFrame (block : List Byte) (h : Word) : QFrame :=
  { handle := h, len := fieldLe block 2 2, off := fieldLe block 4 2, edit := fieldLe block 6 2, flags := BitVec.ofNat 8 (fieldLe block 8 1),
    l3at := fieldLe block 9 1, l4at := fieldLe block 10 1, tsat := fieldLe block 11 1, arg := BitVec.ofNat 32 (fieldLe block 12 4), cap := none,
    icrc := false, built := .buffer }

/-- A frame for another position is sent on, unless that would be its 8th hop (R435, R436). -/
def State.relay (s : State) (f : StackFrame) : State := if 8 ≤ f.hops + 1 then s else s.stackRoute 0 { f with hops := f.hops + 1 }

/-- MEMBER (R445): appended to the member lane's leaf with no engine work, and edited there. -/
def execMember (src : Fin 8) (hops lane : Nat) (block frame : List Byte) (s : State) (dst : Fin 8 := 0) : Answer :=
  .next (if !s.stacked || decide (8 ≤ hops) || !s.dataplane then s
    else if dst.val ≠ s.position then
      s.relay { kind := 2, src := src.val, dst := dst.val, hops := hops, index := lane, aux := 0, body := padTo 16 block ++ frame }
    else match s.tmq (fieldLe block 0 2) with
      | none => s
      | some v =>
        let (h, s1) := s.alloc frame.length false ownTm
        (match h with
         | some x => (s1.bufWrite x 0 frame).appendLeaf (fieldLe block 0 2) lane v (memberFrame block x)
         | none => s1))

/-- The body of a STAGE frame (R446): the frame with its length, its header vector and its carries; their order is the model's (log 52). -/
def stageBody (frame hv : List Byte) (carries : List Word) : List Byte :=
  leBytes 2 frame.length ++ frame ++ padTo 512 hv ++ (carries.map (fun w => leBytes 4 w.toNat)).flatten

/-- STAGE (R446): recorded with FLAGS.STACK set, and classified by this module's stages from the carries that came with it. -/
def execStage (src : Fin 8) (hops : Nat) (frame hv : List Byte) (carries : List Word) (s : State) (dst : Fin 8 := 0) (entry : Nat := 0) : Answer :=
  .next (if !s.stacked || decide (8 ≤ hops) || !s.dataplane then s
    else if dst.val ≠ s.position then
      s.relay { kind := 3, src := src.val, dst := dst.val, hops := hops, index := entry, aux := 0, body := stageBody frame hv carries }
    else
      let (h, s1) := s.alloc frame.length false ownRx
      let s2 := match h with | some x => s1.bufWrite x 0 frame | none => s1
      let vec := Mem.ofBytes (padTo 512 hv)
      let f : PFrame := { lane := (Mem.rd vec 0).toNat, hv := vec, bytes := frame, handle := h.getD 0, noBuf := h.isNone, ver := s2.cls.cur.ver, stack := true }
      s2.classifyWith f (some ((carries ++ List.replicate 32 0).take 32)) [])

end Sys2Proof.Machine
end

