-- ==== Sys2Proof/Machine/Ticks.lean ====
section
/-!
DEFINITION. The meanings of TICK_BOUNDARY and PERIOD_CHANGE_APPLY: time moves on by a tick (R17, R20, R32), doorbells are sampled (R28, R223,
R252), and dispatch gives recorded arrivals to the worker threads (R22, R46 to R48, R76, R77, R141, R173, R281).
-/

namespace Sys2Proof.Machine

/-! ### Time (R17, R20, R31, R32) -/

/-- PTP seconds and nanoseconds at the start of the next tick: boundaries lie one period apart on this clock. -/
def State.nextStart (s : State) : Nat × Nat :=
  let ns := s.time.ns + periodNs s.time.period
  (s.time.sec + ns / 1000000000, ns % 1000000000)

/-- The pending period change, when the next tick starts at a second boundary that has reached E (R32, also after a clock step past E). -/
def State.periodDue (s : State) : Option Nat :=
  match s.time.pendPeriod with
  | some (code, e) => if s.nextStart.2 = 0 ∧ e ≤ s.nextStart.1 then some code else none
  | none => none

/-- The tick number and the clock advance over the tick that ends, which counts in no command's time when PF0 may not master or the link is outside L0
(R230); slewing takes its share (R31). PPS_OUT is high for 100 ms from each second (R476). -/
def State.advance (s : State) : State :=
  let p := s.time.period
  let (sec, ns) := s.nextStart
  let s1 := s.slewTick
  { s1 with time := { s1.time with tick := s1.time.tick + 1, phase := .work, sec := sec, ns := ns, cycBase := s1.time.cycBase + tickCycles p,
                                   stateNs := s1.time.stateNs + periodNs p,
                                   belowNs := if s.time.delta.natAbs < 50 then s1.time.belowNs + periodNs p else 0,
                                   ppsOut := decide (ns < 100000000) },
            mbadel := { s1.mbadel with idle := s1.mbadel.idle + b2n (!s1.bme 0 || !s1.pcie.linkUp || s1.pcie.retraining || decide (s1.pcie.lstate ≠ .l0)) },
            repair := { s1.repair with checkFails := if sec = s.time.sec then s1.repair.checkFails else [] } }

/-- The period that a change names is in force from this tick on, and the change is logged (R32, R378). -/
def State.newPeriod (s : State) (code : Nat) : State :=
  let s1 := { s with time := { s.time with period := code, pendPeriod := none } }
  s1.log 0x0202 code s1.time.number

/-! ### The ledger (R171) -/

/-- L_i of R171, clamped. -/
def ledgerOf (slack : Nat) (l : Int) (a w weight sent : Nat) : Int :=
  max (-4194304) (min (slack : Int) (l + ((a * weight / w : Nat) : Int) - (sent : Int)))

/-- A tenant after a tick, given the backlogged members of its group. -/
def Tenant.afterTick (t : Tenant) (b : List Tenant) (mode slack : Nat) : Tenant :=
  let a := (b.map (·.sentTick)).foldl (· + ·) 0
  let w := (b.map (·.weight)).foldl (· + ·) 0
  let l := if mode = 0 ∨ !t.startBacklog ∨ b.length = 1 then 0 else ledgerOf slack t.ledger a w t.weight t.sentTick
  let o := decide (mode ≠ 0) && decide (l < -(slack : Int))
  { t with ledger := l, isOver := o, overTicks := t.overTicks + b2n o }

/-- The ledger update at the end of a tick (R171): every frame that started in the tick counts, and tenants are over from the next one on (R172). -/
def State.ledgerTick (s : State) : State :=
  let group := fun (g : Nat) => (s.tm.tenants.filter (fun e => e.2.startBacklog && decide (e.2.lgroup = g))).map (·.2)
  { s with tm := { s.tm with
      tenants := FMap.mapVals Tenant.reset (fun _ (t : Tenant) => t.afterTick (group t.lgroup) s.tm.ledgerMode s.tm.ledgerSlack) s.tm.tenants } }

/-! ### What begins anew with a tick -/

/-- An engine at the start of a tick: its cycles count from the start of the work phase, `gone` cycles after the last one's, and no thread is capped
yet. A latency that still runs, of a thread that the debugger has resumed, goes on (R36, R60, R88). -/
def Engine.newTick (e : Engine) (gone : Nat) : Engine :=
  { e with cyc := 0, threads := FMap.mapVals Thread.reset (fun _ (t : Thread) => { t with ready := t.ready - gone, capped := false }) e.threads }

/-- The tenants with a queued frame in a ledgered class (R170). -/
def State.backlogged (s : State) : List Nat :=
  (s.tm.queues.filterMap (fun e => match e.2 with
    | some v => if v.leaves.any (fun lane => s.ledgered lane v.cls && !(s.leaf (leafKey e.1 lane)).frames.isEmpty) then some v.tenant else none
    | none => none)).dedup

/-- The ledger's view of a tick's start (R170). -/
def State.noteBacklog (s : State) : State :=
  let ts := FMap.mapVals Tenant.reset (fun _ (t : Tenant) => { t with startBacklog := false, sentTick := 0 }) s.tm.tenants
  s.backlogged.foldl (fun (s : State) n => s.setTenant n { s.tenant n with startBacklog := true }) { s with tm := { s.tm with tenants := ts } }

/-- Budgets and counts of one tick start at 0 (R131, R159, R313); the version in force is so from the tick's start at the latest (R134); ticks
with a cap level count (R461). -/
def State.newBudgets (s : State) (gone : Nat) : State :=
  let start := fineTime s.time.sec s.time.ns s.time.frac
  { s with
    cls := { s.cls with readsUsed := 0, curFrom := min s.cls.curFrom start, former := s.cls.former.map (fun v => (v.1, min v.2 start)) },
    pools := { s.pools with spillWrite := 0, spillRead := s.pools.spillRead - s.spillBudget },
    queues := { s.queues with published := [] },
    sto := { s.sto with ctls := FMap.mapVals NvCtl.reset (fun _ (c : NvCtl) => { c with fetched := 0 }) s.sto.ctls },
    erg := { s.erg with engines := FMap.mapVals Engine.reset (fun _ (e : Engine) => e.newTick gone) s.erg.engines },
    power := { s.power with cappedTicks := s.power.cappedTicks + b2n (decide (0 < s.power.level)) } }

/-! ### Doorbells (R28, R223, R252) -/

/-- A kept doorbell value is applied. One of a VF without an instance is discarded and counted, its ADMIN_CTL logged (R273). -/
def State.sampleOne (s : State) (fn field low : Nat) : State :=
  if !s.fnOwned fn && decide (field ≠ 0xFFF4) then s.badDoorbell fn field low
  else if fnSto fn then s.applyNvDoorbell fn field low
  else s.applyDoorbell fn field low

/-- The kept doorbell values of one function are applied, in ascending order of the queue field (R252), those of a frozen instance too, whose tails so
move without being served (R285). A function that the device does not serve keeps them (R13). An admin tail that followed ENABLE waits for the next
sample (R297). -/
def State.sampleFn (s : State) (fn : Nat) : State :=
  if !s.fnSampled fn then s
  else
    let f := s.fn fn
    let later : FMap (Option Nat) := match f.afterEnable with | some t => [(0, some t)] | none => []
    f.doorbells.foldl (fun (s : State) d => match d.2 with | some low => s.sampleOne fn d.1 low | none => s)
      (s.setFn fn { f with doorbells := later, afterEnable := none })

/-- Every function's doorbells. -/
def State.sampleAll (s : State) : State := (FMap.keys s.pcie.fns).foldl State.sampleFn s

/-- A controller's busy time, and the Critical Warning bits that have become set (R307, R308): an enabled bit is reported as an event. -/
def State.nvTick (s : State) (fn : Nat) : State :=
  let c := s.ctl fn
  if !c.enabled then s
  else
    let w := s.critical fn
    let s1 := s.modCtl fn (fun c => { c with critWarn := w,
                                             busyNs := c.busyNs + (if c.outs.any (fun o => decide (o.sqid ≠ 0)) then periodNs s.time.period else 0) })
    [2, 1, 0].foldl (fun (s : State) b =>
      if bitOf w b && !bitOf c.critWarn b && c.aec.getLsbD b then s.nvEvent fn (1 + 256 * (2 - b) + 65536 * 2) true else s) s1

/-- Every controller. -/
def State.nvTicks (s : State) : State := (FMap.keys s.sto.ctls).foldl State.nvTick s

/-! ### Dispatch -/

/-- A logical yard in service for an arrival whose own has gone and which no hash places: free (log 39). -/
def State.someYard (s : State) : Nat × State :=
  let ys := (List.range 32).filter (fun i => (s.erg.ymap.getD i none).isSome)
  let (v, s1) := s.freshNat
  (ys.getD (v % ys.length) 0, s1)

/-- An arrival that waits for a retired logical yard is resolved again (R141): a packet through the spread table by its hash. -/
def State.resolve (s : State) (le : Nat) (a : Arrival) : State :=
  if a.kind = 1#8 then s.arrive (spreadEngine s.cls.cur (Mem.rdLe a.hv 0x24 4)) a
  else
    let (y, s1) := s.someYard
    s1.arrive (y * 32 + le % 32) a

/-- Every arrival of the logical yards that no physical yard serves. -/
def State.resolveAll (s : State) : State :=
  if s.yardsInService = 0 then s
  else
    (s.erg.arrivals.filter (fun e => (s.erg.ymap.getD (e.1 / 32) none).isNone)).foldl (fun (s : State) e =>
      e.2.foldl (fun (s : State) a => s.resolve e.1 a) { s with erg := { s.erg with arrivals := FMap.set [] s.erg.arrivals e.1 [] } }) s

/-- An arrival that is not dispatched: the receive name leaves its buffer. -/
def State.dropArrival (s : State) (a : Arrival) : State := if a.handle = 0 then s else s.removeOwner a.handle ownRx

/-- Whether the operation of an arrival has ended (R267). -/
def State.deadOp (s : State) (op : Option Nat) : Bool :=
  match op with
  | some n => (match s.op n with | some o => o.dead | none => true)
  | none => false

/-- A stale arrival is dropped and counted (R281). -/
def State.dropStaleArrival (s : State) (a : Arrival) : State :=
  (s.dropArrival a).modInstCtr a.inst.toNat (fun c => { c with staleGen := c.staleGen + 1 })

/-- The arrivals that may be dispatched: stale ones, and those of ended operations, go first. -/
def siftArrivals : State → List Arrival → State × List Arrival
  | s, [] => (s, [])
  | s, a :: as =>
    if s.staleGen a.inst a.gen then siftArrivals (s.dropStaleArrival a) as
    else if s.deadOp a.op then siftArrivals (s.dropArrival a) as
    else
      let (s1, rest) := siftArrivals s as
      (s1, a :: rest)

/-- The retries that may be dispatched: a stale one goes, and one whose program is no longer active fails with the status of its first ending
(R54, R281). -/
def siftRetries (program : Half) : State → List Item → State × List Item
  | s, [] => (s, [])
  | s, it :: its =>
    if s.staleGen it.inst it.gen then siftRetries program (it.arrivals.foldl State.dropStaleArrival s) its
    else if s.deadOp it.op then siftRetries program (it.arrivals.foldl State.dropArrival s) its
    else if it.program ≠ program then siftRetries program ((it.arrivals.foldl State.dropArrival s).failItem it it.firstStatus) its
    else
      let (s1, rest) := siftRetries program s its
      (s1, it :: rest)

/-- ENTRIES of a program: entry points beyond it are 0 (R45). -/
def Bank.count (b : Bank) : Nat := (b.entries.filter (· ≠ 0)).length

/-- The entry point that an arrival runs, of 1 to ENTRIES − 1 (R77): the one that its action names, or else one that its KIND and ACTION choose
(R47, log 14). -/
def Bank.fitEntry (b : Bank) (a : Arrival) : Nat :=
  if 1 ≤ a.entry ∧ a.entry < b.count then a.entry else 1 + Config.entryOf a.kind.toNat a.action.toNat b.count % (b.count - 1)

/-- Whether two arrivals may share an item (R47). Those that differ in FLAGS.STACK do not (log 57). -/
def sameItem (bank : Bank) (a b : Arrival) : Bool :=
  decide (a.kind = b.kind) && decide (bank.fitEntry a = bank.fitEntry b) && decide (a.op = b.op) && decide (a.inst = b.inst) && decide (a.stack = b.stack)

/-- Runs of arrivals that share an item, each of at most the program's batch limit (R22, R47). -/
def batches (bank : Bank) (as : List Arrival) : List (List Arrival) :=
  let step := fun (p : List (List Arrival) × List Arrival) (a : Arrival) =>
    match p.2 with
    | [] => (p.1, [a])
    | x :: _ => if sameItem bank x a && decide (p.2.length < bank.batch) then (p.1, p.2 ++ [a]) else (p.1 ++ [p.2], [a])
  let r := as.foldl step ([], [])
  if r.2.isEmpty then r.1 else r.1 ++ [r.2]

/-- The item of a batch: its argument is the operation's saved one, or the first arrival's, and so is its generation (R47, log 57). -/
def State.itemOfBatch (s : State) (bank : Bank) (as : List Arrival) : Option Item :=
  match as with
  | [] => none
  | a :: _ =>
    some { tick := 0, program := bank.program, entry := bank.fitEntry a, retry := false, firstStatus := 0, kind := a.kind, op := a.op, inst := a.inst, gen := a.gen,
           stack := a.stack, arg := if a.op.isSome then s.opArg a.op else a.arg, arrivals := as, owner := 0 }

/-- The record header (R47). -/
def itemHeader (it : Item) : List Byte :=
  leBytes 8 it.tick ++ leBytes 2 it.program.toNat ++ [BitVec.ofNat 8 it.entry, BitVec.ofNat 8 (b2n it.retry + 2 * b2n it.stack),
    BitVec.ofNat 8 it.arrivals.length, it.kind, 0, 0] ++ leBytes 4 (opWord it.op).toNat ++ leBytes 2 it.inst.toNat ++ leBytes 2 it.gen.toNat ++
    zeros 8 ++ ((List.range 8).map (fun i => leBytes 4 (it.arg.getD i 0).toNat)).flatten

/-- One arrival entry (R48). -/
def arrivalEntry (a : Arrival) : List Byte :=
  leBytes 4 a.handle.toNat ++ leBytes 2 a.len ++ [a.source, a.status] ++ leBytes 4 a.action.toNat ++ leBytes 4 a.aux.toNat

/-- The registers at the start of an item on thread `k` (R46). -/
def Engine.startRegs (e : Engine) (k n : Nat) : FMap Word :=
  FMap.set 0 (FMap.set 0 (FMap.set 0 [] 2 (e.stackTop k)) 10 (BitVec.ofNat 32 (recordAddr k))) 11 (BitVec.ofNat 32 n)

/-- An item starts on thread `k` (R46, R60, R151): its name replaces 0x4009 on its arrival buffers and its record is written. -/
def State.startItem (s : State) (pe k : Nat) (it0 : Item) (capped : Bool) : State :=
  let it := { it0 with tick := s.time.number, owner := ownerName (s.leng pe) k }
  let s1 := it.arrivals.foldl (fun (s : State) a => if a.handle = 0 then s else s.swapOwner a.handle ownRx it.owner) s
  let e := s1.eng pe
  let old := e.thr k
  let t : Thread := { Thread.reset with st := .run, regs := e.startRegs k it.arrivals.length, pc := (e.bank.entries.getD it.entry 0).zeroExtend 32,
                                        item := some it, root := k, instret := old.instret, sendq := old.sendq, rx := old.rx, capped := capped }
  let e1 := { e with store := Mem.wrN e.store (recordAddr k) (itemHeader it ++ (it.arrivals.map arrivalEntry).flatten) }
  s1.setEng pe (e1.setThr k t)

/-- Whether capping affects an engine in this tick (R461). -/
def State.engCapped (s : State) (pe : Nat) : Bool := decide ((pe % 32 + s.time.number) % 4 < s.power.level)

/-- Whether an entry of a program is urgent (R173). -/
def State.urgentEntry (s : State) (program : Half) (entry : Nat) : Bool := (FMap.get 1 s.erg.urgent program.toNat).getLsbD entry

/-- Whether an engine takes work items at this dispatch (R13, R22, R77, R87, R88). -/
def State.takesItems (s : State) (pe : Nat) : Bool :=
  let e := s.eng pe
  s.dataplane && s.engActive pe && decide (e.bank.program ≠ 0) && decide (2 ≤ e.bank.count) && !e.holdEng &&
    !e.threads.any (fun t => t.2.outOfGate && decide (t.2.st ≠ .free))

/-- Start items on threads pairwise. -/
def startAll (pe : Nat) (cap : Item → Bool) : State → List (Nat × Item) → State
  | s, [] => s
  | s, (k, it) :: rest => startAll pe cap (s.startItem pe k it (cap it)) rest

/-- Dispatch on one engine (R22, R46, R173): retries, then batches in arrival order, on the free workers from T1 up; what does not fit stays
recorded. -/
def State.dispatchEngine (s : State) (pe : Nat) : State :=
  if !s.takesItems pe then s
  else
    let le := s.leng pe
    let program := (s.eng pe).bank.program
    let (s1, rs) := siftRetries program s (s.eng pe).retries
    let (s2, as) := siftArrivals s1 (FMap.get [] s1.erg.arrivals le)
    let e := s2.eng pe
    let todo := rs ++ (batches e.bank as).filterMap (fun b => s2.itemOfBatch e.bank b)
    let numbered := (List.range todo.length).zip todo
    let urgent := fun (x : Nat × Item) => s2.urgentEntry program x.2.entry
    let capped := s2.engCapped pe
    let ordered := if capped then numbered.filter urgent ++ numbered.filter (fun x => !urgent x) else numbered
    let free := [1, 2, 3, 4, 5, 6, 7].filter (fun k => decide ((e.thr k).st = .free))
    let taken := (ordered.take free.length).map (·.1)
    let left := numbered.filter (fun x => !taken.contains x.1)
    let s3 := s2.setEng pe { e with retries := (left.filter (fun x => x.2.retry)).map (·.2) }
    let rest := ((left.filter (fun x => !x.2.retry)).map (fun x => x.2.arrivals)).flatten
    let s4 := { s3 with erg := { s3.erg with arrivals := FMap.set [] s3.erg.arrivals le rest } }
    let s5 := startAll pe (fun it => capped && !s4.urgentEntry program it.entry) s4 (free.zip (ordered.map (·.2)))
    if taken.isEmpty then s5 else s5.moved pe 1

/-- A retry on a yard that is no longer served fails with the status of its first ending. -/
def State.failRetries (s : State) (pe : Nat) : State :=
  let its := (s.eng pe).retries
  if its.isEmpty || s.engActive pe then s
  else its.foldl (fun (s : State) it => (it.arrivals.foldl State.dropArrival s).failItem it it.firstStatus) (s.setEng pe { s.eng pe with retries := [] })

/-- Messages of a worker that are older than the dispatch tick, in all its channels (R76): what stays, and how many go. -/
def Thread.dropOld (t : Thread) (now : Nat) : Thread × Nat :=
  let keep := fun (ms : List RxMsg) => ms.filter (fun m => decide (now ≤ m.msg.stamp))
  let n := (t.rx.map (fun c => c.2.length - (keep c.2).length)).foldl (· + ·) 0
  ({ t with rx := FMap.mapVals [] (fun _ ms => keep ms) t.rx }, n)

/-- Stale messages in an engine's receive buffers are discarded at dispatch and counted in sxstale (R76). -/
def Engine.dropOld (e : Engine) (now : Nat) : Engine :=
  let n := (e.threads.map (fun t => (t.2.dropOld now).2)).foldl (· + ·) 0
  ({ e with threads := FMap.mapVals Thread.reset (fun _ (t : Thread) => (t.dropOld now).1) e.threads }).addStale n

/-- The dispatch phase (R18, R22): arrivals of lost yards are resolved, stale messages go, items and grooms start. -/
def State.dispatch (s : State) : State :=
  let s1 := s.resolveAll
  let s2 := { s1 with erg := { s1.erg with engines := FMap.mapVals Engine.reset (fun _ (e : Engine) => e.dropOld s1.time.number) s1.erg.engines } }
  let pes := FMap.keys s2.erg.engines
  let s3 := pes.foldl State.failRetries s2
  pes.foldl (fun (s : State) pe => (s.dispatchEngine pe).groomStart pe) s3

/-! ### The commands -/

/-- A tick ends and the next one begins. -/
def State.tickOver (s : State) : State :=
  let due := s.periodDue
  let s1 := s.ledgerTick.finishAccel.advance
  let s2 := match due with | some code => s1.newPeriod code | none => s1
  let s3 := (s2.newBudgets (s2.workBase - s.workBase)).noteBacklog
  let s4 := s3.sampleAll.releaseNotices.startWaiting
  let s5 := (s4.destroying.foldl State.destroyDone s4).settleRevokes.settleDetaches
  (s5.lanesTrain.stackBoundary.nvTicks).retryFills.retryUnsent.spendAccel.dispatch

/-- Whether a tick may end: its turn has been, and the module is supplied. -/
def State.mayTick (s : State) : Bool := decide (s.time.phase = .turn) && s.power.pwrGood

/-- TICK_BOUNDARY (R18, R20). -/
def execTickBoundary (s : State) : Answer := .next (if s.mayTick then s.tickOver else s)

/-- PERIOD_CHANGE_APPLY (R32): the tick boundary at E, at which the last tick of the old period ends. -/
def execPeriodChangeApply (s : State) : Answer := .next (if s.mayTick && s.periodDue.isSome then s.tickOver else s)

end Sys2Proof.Machine
end

