-- ==== Sys2Proof/Machine/TurnCmds.lean ====
section
/-!
DEFINITION. Class T commands (R230, R232): what each of them checks and does, the device as the armed ones will leave it, their meanings at the
take, and a turn that applies them.
-/

namespace Sys2Proof.Machine

/-- The judgement of COMMIT (R236, R442). In a stack of several modules p1 also holds when another member's batch holds changes, which is open
here (log 52). -/
def commitJudge (batch : Nat) : Judge :=
  { Judge.plain 16 with
    bad := if 1 ≤ batch ∧ batch ≤ 255 then none else some 0,
    pre := fun s =>
      let others := s.stacked && decide (1 < s.stack.members.length) && Config.freeBit s.freeCtr
      firstOf [failIf (s.stacked && s.stack.isolated) { status := 0x0F, kind := 0, value := s.dev.state },
               failIf ((s.changesOf batch).isEmpty && !others) (vPre 1)] }

/-- The judgement of a class T command; the range of RES depends on the VFs of the instance (R276). -/
def State.judgeT (s : State) (c : Instr) : Judge :=
  match c with
  | .poolCounters _ pool => poolJudge pool
  | .instanceResize _ n r => resizeJudge (s.absentVfs n) n r
  | .instanceFreeze _ n => freezeJudge n
  | .instanceThaw _ n => thawJudge n
  | .macSet _ n count macs => macJudge n count macs
  | .queueDestroy _ n pf q => queueGoneJudge n pf q
  | .ringBind _ n pf q tmq _ => bindJudge n pf q tmq
  | .tableCreate _ t ty kl fl cap seed nf fs => tableJudge t ty kl fl cap seed nf fs
  | .tableDestroy _ t => tableGoneJudge t
  | .commit _ b _ => commitJudge b
  | .tableCounters _ t => tableCtrJudge t
  | .bankSwitch h set _ => bankJudge h.v2 set
  | .nsAttach _ n ns nsid => attachJudge n ns nsid
  | .laneSet _ l m mf rx tx adj => laneJudge l m mf rx tx adj
  | .agSet _ g m ms => agJudge g m ms
  | .agHash _ g _ p => agHashJudge g p
  | .tmqCreate _ q d c t qu mx sp => tmqJudge q d c t qu mx sp
  | .tmqDestroy _ q => tmqGoneJudge q
  | .tmAttr _ k i a => tmAttrJudge k i a
  | .editLoad _ t raw => editJudge t raw
  | .portCounters _ sc i => countersJudge sc i
  | .sourcePriority _ l a b d => prioJudge l a b d
  | .sourceSelect _ src => selectJudge src
  | .setGate _ g _ => gateJudge g
  | .stackGroup _ g m ms => stackGroupJudge g m ms
  | .stackStage _ p e n => stackStageJudge p e n
  | .powerCap _ c => capJudge c
  | .urgentMask _ p _ => { Judge.plain 4 with bad := if p < 65536 then none else some 0 }
  | .monitorRelock _ _ => Judge.plain 4
  | _ => Judge.plain 0

/-- What a class T command does at its turn, and its result. A COMMIT applies its batch at `start`. -/
def applyT (start : Nat) (c : Instr) (s : State) : State × List Byte :=
  match c with
  | .poolCounters _ pool => s.poolCounters pool
  | .instanceResize _ n r => (s.resizeInst n r, [])
  | .instanceFreeze _ n => (s.freezeInst n, [])
  | .instanceThaw _ n => (s.thawInst n, [])
  | .macSet _ n count macs => (s.setMacs n count macs, [])
  | .queueDestroy _ n pf q => (s.queueDestroy (queueFn n pf) q, [])
  | .ringBind _ n pf q tmq wake => (s.ringBind (queueFn n pf) q tmq wake, [])
  | .tableCreate _ t ty kl fl cap seed nf fs => (s.tableCreate t (newTable ty kl fl cap seed nf fs), [])
  | .tableDestroy _ t => (s.dropTable t, [])
  | .commit _ b _ => (s.applyBatch b start, [])
  | .tableCounters _ t => (s, s.tableCounters t)
  | .bankSwitch _ set _ => (s.switchBanks set, [])
  | .nsAttach _ n ns nsid => (s.attachNs n ns nsid, [])
  | .laneSet _ l m mf rx tx adj => (s.laneSet l m mf rx tx adj, [])
  | .agSet _ g m ms => (s.agSet g m ms, [])
  | .agHash _ g seed p => (s.agHash g seed p, [])
  | .tmqCreate _ q d c t qu mx sp => (s.tmqCreate q d c t qu mx sp, [])
  | .tmqDestroy _ q => (s.tmqDestroy q, [])
  | .tmAttr _ k i a => (s.tmAttr k i a, [])
  | .editLoad _ t raw => (s.editLoad t raw, [])
  | .portCounters _ sc i => (s, s.portCounters sc.toNat i)
  | .sourcePriority _ l a b d => (s.setPrio l a b d, [])
  | .sourceSelect _ src => (s.selectSource src, [])
  | .setGate _ g _ => (s.setGate g, [])
  | .stackGroup _ g m ms => (s.stackGroup g m ms, [])
  | .stackStage _ p e n => (s.stackStage p e n, [])
  | .powerCap _ c => (s.setCap c, [])
  | .urgentMask _ p m => (s.setUrgent p m, [])
  | .monitorRelock _ ys => (s.relock ys, [])
  | _ => (s, [])

/-- The device as it will stand once every armed command has been applied, in take order (R232). -/
def State.projected (s : State) : State :=
  s.mbadel.armed.foldl (fun (p : State) a => match (p.judgeT a.cmd).late p with | none => (applyT 0 a.cmd p).1 | some _ => p) s

/-- A class T command at its take (R232). -/
def State.takeT (s : State) (h : MbHdr) (r : CmdRow) (cmd : Instr) (atTick : Nat) : State := s.runTurn s.projected h r (s.judgeT cmd) cmd atTick

/-! ### The turn -/

/-- An armed command whose turn has come: it is judged again, and takes effect or ends with the failed step's status. -/
def State.applyArmed (s : State) (start : Nat) (a : Armed) : State :=
  match (s.judgeT a.cmd).late s with
  | some v => s.endArmed a v []
  | none =>
    let (s1, res) := applyT start a.cmd s
    s1.endArmed a vOk res

/-- A COMMIT of a module outside a stack: it waits for the clean-up of an earlier one and for the end of TESTING (R13, R135). -/
def State.applyCommit (s : State) (start b : Nat) (a : Armed) : State :=
  if s.commitWaits b || decide (s.dev.state = 1) then s else (s.applyBatch b start).endArmed a vOk []

/-- The engines that wait for a BANK_SWITCH (R54). -/
def State.settlePending (s : State) : State :=
  let waiting := (s.mbadel.armed.map (fun a => match a.cmd with | .bankSwitch _ set _ => s.engset set | _ => [])).flatten
  s.erg.engines.foldl (fun (s : State) e => if e.2.pendSwitch && !waiting.contains e.1 then s.setEng e.1 { s.eng e.1 with pendSwitch := false } else s) s

/-- Every armed command that is due, in take order (R231, R232). While no MP runs, none is carried out. -/
def State.turnCommands (s : State) (start : Nat) : State :=
  if !s.boot.mpRunning then s
  else
    (s.mbadel.armed.foldl (fun (s : State) a =>
      if !s.isDue a then s
      else match a.cmd with
        | .commit _ b _ => if s.stacked then s else s.applyCommit start b a
        | _ => s.applyArmed start a) s).settlePending

/-! ### Meanings at the take -/

/-- POOL_COUNTERS (R160, R233). -/
def execPoolCounters (h : MbHdr) (pool : Byte) (s : State) : Answer := .next (s.takeT h (rowH 0x0104) (.poolCounters h pool) 0)
/-- INSTANCE_RESIZE (R279). -/
def execInstanceResize (h : MbHdr) (inst : Nat) (res : Res) (s : State) : Answer := .next (s.takeT h (row 0x0202) (.instanceResize h inst res) 0)
/-- INSTANCE_FREEZE (R285). -/
def execInstanceFreeze (h : MbHdr) (inst : Nat) (s : State) : Answer := .next (s.takeT h (row 0x0205) (.instanceFreeze h inst) 0)
/-- INSTANCE_THAW (R287). -/
def execInstanceThaw (h : MbHdr) (inst : Nat) (s : State) : Answer := .next (s.takeT h (row 0x0208) (.instanceThaw h inst) 0)
/-- MAC_SET (R234). -/
def execMacSet (h : MbHdr) (inst count : Nat) (macs : List Nat) (s : State) : Answer := .next (s.takeT h (row 0x020B) (.macSet h inst count macs) 0)
/-- QUEUE_DESTROY (R235). -/
def execQueueDestroy (h : MbHdr) (inst : Nat) (pf : Byte) (queue : Nat) (s : State) : Answer :=
  .next (s.takeT h (row 0x0302) (.queueDestroy h inst pf queue) 0)
/-- RING_BIND (R235). -/
def execRingBind (h : MbHdr) (inst : Nat) (pf : Byte) (queue tmq : Nat) (wake : Byte) (s : State) : Answer :=
  .next (s.takeT h (row 0x0303) (.ringBind h inst pf queue tmq wake) 0)
/-- TABLE_CREATE (R120, R121, R236). -/
def execTableCreate (h : MbHdr) (table : Nat) (type keylen flags : Byte) (capacity : Nat) (tseed : Word) (nfields : Nat) (fields : List (Nat × Nat))
    (s : State) : Answer :=
  .next (s.takeT h (rowH 0x0401) (.tableCreate h table type keylen flags capacity tseed nfields fields) 0)
/-- TABLE_DESTROY (R236). -/
def execTableDestroy (h : MbHdr) (table : Nat) (s : State) : Answer := .next (s.takeT h (rowH 0x0402) (.tableDestroy h table) 0)
/-- TABLE_COUNTERS (R142, R236). -/
def execTableCounters (h : MbHdr) (table : Nat) (s : State) : Answer := .next (s.takeT h (row 0x040B) (.tableCounters h table) 0)
/-- NS_ATTACH (R239). -/
def execNsAttach (h : MbHdr) (inst ns nsid : Nat) (s : State) : Answer := .next (s.takeT h (row 0x0604) (.nsAttach h inst ns nsid) 0)
/-- LANE_SET (R90). -/
def execLaneSet (h : MbHdr) (lane : Nat) (mode : Byte) (maxFrame : Nat) (rxAdj txAdj : Int) (adjset : Byte) (s : State) : Answer :=
  .next (s.takeT h (rowH 0x0701) (.laneSet h lane mode maxFrame rxAdj txAdj adjset) 0)
/-- AG_SET (R98). -/
def execAgSet (h : MbHdr) (group : Nat) (mode : Byte) (members : Word) (s : State) : Answer := .next (s.takeT h (row 0x0702) (.agSet h group mode members) 0)
/-- AG_HASH (R139). -/
def execAgHash (h : MbHdr) (group : Nat) (seed : Word) (profile : Byte) (s : State) : Answer :=
  .next (s.takeT h (row 0x0703) (.agHash h group seed profile) 0)
/-- TMQ_CREATE (R162). -/
def execTmqCreate (h : MbHdr) (queue dest cls tenant quantum maxBytes spill : Nat) (s : State) : Answer :=
  .next (s.takeT h (row 0x0704) (.tmqCreate h queue dest cls tenant quantum maxBytes spill) 0)
/-- TMQ_DESTROY (R164). -/
def execTmqDestroy (h : MbHdr) (queue : Nat) (s : State) : Answer := .next (s.takeT h (row 0x0705) (.tmqDestroy h queue) 0)
/-- TM_ATTR (R163). -/
def execTmAttr (h : MbHdr) (kind : Byte) (index : Nat) (a : TmAttrs) (s : State) : Answer := .next (s.takeT h (row 0x0706) (.tmAttr h kind index a) 0)
/-- EDIT_LOAD (R174). -/
def execEditLoad (h : MbHdr) (template : Nat) (raw : List Byte) (s : State) : Answer := .next (s.takeT h (row 0x0707) (.editLoad h template raw) 0)
/-- PORT_COUNTERS (R240). -/
def execPortCounters (h : MbHdr) (scope : Byte) (index : Word) (s : State) : Answer := .next (s.takeT h (rowH 0x0708) (.portCounters h scope index) 0)
/-- SOURCE_PRIORITY (R29). -/
def execSourcePriority (h : MbHdr) (ptpLane ptpPrio ppsPrio domain : Nat) (s : State) : Answer :=
  .next (s.takeT h (row 0x0802) (.sourcePriority h ptpLane ptpPrio ppsPrio domain) 0)
/-- SOURCE_SELECT (R29). -/
def execSourceSelect (h : MbHdr) (src : Byte) (s : State) : Answer := .next (s.takeT h (row 0x0803) (.sourceSelect h src) 0)
/-- SET_GATE (R19). -/
def execSetGate (h : MbHdr) (g atTick : Nat) (s : State) : Answer := .next (s.takeT h (row 0x0804) (.setGate h g atTick) atTick)
/-- STACK_GROUP (R445). -/
def execStackGroup (h : MbHdr) (group : Nat) (mode : Byte) (members : List Half) (s : State) : Answer :=
  .next (s.takeT h (row 0x0B02) (.stackGroup h group mode members) 0)
/-- STACK_STAGE (R446). -/
def execStackStage (h : MbHdr) (program entry nextPos : Nat) (s : State) : Answer :=
  .next (s.takeT h (row 0x0B03) (.stackStage h program entry nextPos) 0)
/-- POWER_CAP (R460). -/
def execPowerCap (h : MbHdr) (capMw : Nat) (s : State) : Answer := .next (s.takeT h (row 0x0C02) (.powerCap h capMw) 0)
/-- URGENT_MASK (R173). -/
def execUrgentMask (h : MbHdr) (program : Nat) (mask : Half) (s : State) : Answer := .next (s.takeT h (row 0x0C03) (.urgentMask h program mask) 0)
/-- MONITOR_RELOCK (R247). -/
def execMonitorRelock (h : MbHdr) (yards : Word) (s : State) : Answer := .next (s.takeT h (row 0x0D02) (.monitorRelock h yards) 0)

/-- Whether a take has armed a command. -/
def armedMore (s t : State) : Bool := decide (s.mbadel.armed.length < t.mbadel.armed.length)

/-- BANK_SWITCH (R54, R236): the engines of the set are PENDING from its acceptance. -/
def execBankSwitch (h : MbHdr) (engset : List Nat) (atTick : Nat) (s : State) : Answer :=
  let t := s.takeT h (row 0x040E) (.bankSwitch h engset atTick) atTick
  .next (if armedMore s t then t.pendBanks engset true else t)

/-- COMMIT (R236, R442): the batch's commit is requested from its acceptance, so a second one fails p2. -/
def execCommit (h : MbHdr) (batch atTick : Nat) (s : State) : Answer :=
  let j := commitJudge batch
  let j1 : Judge := { j with pre := fun p => firstOf [failIf (s.batchRequested batch) (vPre 2), j.pre p] }
  let t := s.runTurn s.projected h (rowH 0x0408) j1 (.commit h batch atTick) atTick
  .next (if armedMore s t then (t.requestBatch batch true).tickFree else t)

/-- STACK_QUERY (R244, R439): an isolated module reports only itself. -/
def execStackQuery (h : MbHdr) (s : State) : Answer :=
  .next (s.runQuery h (row 0x0B01) (Judge.plain 16) (fun s =>
    [BitVec.ofNat 8 s.stack.master, BitVec.ofNat 8 (posMask s.stack.members), BitVec.ofNat 8 (posMask (s.stack.members.filter (fun p => s.healthy p)))] ++ zeros 5 ++ leBytes 8 s.time.number))

end Sys2Proof.Machine
end

