-- ==== Sys2Proof/Machine/Turn.lean ====
section
/-!
DEFINITION. The meaning of TURN (R18, R24): the commit phase ends, and the turn applies together what waits for it. The cap level is brought up to date
(R461).
-/

namespace Sys2Proof.Machine

/-! ### The cap level (R461) -/

/-- Λ for the next tick. -/
def capLevel (level estimate : Nat) (cap : Option Nat) : Nat :=
  match cap with
  | none => level - 1
  | some c => if c < estimate then min 4 (level + 1) else if estimate + 1000 < c then level - 1 else level

/-- The decision of a turn. -/
def State.levelTick (s : State) : State := { s with power := { s.power with level := capLevel s.power.level s.power.estimate s.cap } }

/-! ### Grooms (R78) -/

/-- A T0 run that is live at the start of the turn ends LATE and is reported as a groom fault. -/
def State.groomLate (s : State) (pe : Nat) : State :=
  let t := s.thr pe 0
  if t.st = .free then s else s.faultAt pe 0 10 t.pc t.pc

/-- Every engine's. -/
def State.groomsLate (s : State) : State := (FMap.keys s.erg.engines).foldl State.groomLate s

/-! ### The turn -/

/-- What is left of the commit phase: the completions that no row has written yet, before aborts, the queues' and controllers' settlements, and the event ring's entries (R23,
R268, R376). -/
def State.closeCommit (s : State) : State := s.serveRest.endCommit.settleDetaches.placeEvents

/-- The changes of a turn, in the model's order; all of them are first seen at the next dispatch (R24, log 58). -/
def State.turnWork (s : State) : State :=
  let s1 := s.clockStep
  let (sec, ns) := s1.nextStart
  let start := fineTime sec ns s1.time.frac
  let s2 := (s1.admitJoin start).takeover.queueChanges
  let s3 := ((s2.stackTurn start).turnCommands start).turnUnlock.redistribute
  ((s3.turnSwaps.turnChannel.turnFailover.turnMpSwitch).refreshState s.causes).noteFirstRun

/-- TURN (R18, R24). The turn at E of a pending period change carries nothing else (R32). -/
def execTurn (s : State) : Answer :=
  .next (
    if s.time.phase ≠ .commit || !s.power.pwrGood then s
    else
      let s1 := s.closeCommit
      let s2 := ({ s1 with time := { s1.time with phase := .turn } }).groomsLate
      let s3 := if s2.periodDue.isSome then s2 else s2.turnWork
      s3.levelTick.takeCtrs)

end Sys2Proof.Machine
end

