-- ==== Sys2Proof/Machine/Words.lean ====
section
/-!
DEFINITION. The words of the engines' instructions (R35, R37, R49): SPX by the spec's table, RV32IMC by the RISC-V unprivileged specification, and
the meaning of ILLEGAL_ENCODING, the issue of a word that may or may not be an encoding (R38).
-/

namespace Sys2Proof.Machine

/-! ### Fields of a 32-bit word (R49) -/

/-- opcode. -/
def wOp (w : Nat) : Nat := bits w 0 7
/-- rd. -/
def wRd (w : Nat) : Nat := bits w 7 5
/-- funct3. -/
def wF3 (w : Nat) : Nat := bits w 12 3
/-- rs1. -/
def wRs1 (w : Nat) : Nat := bits w 15 5
/-- rs2. -/
def wRs2 (w : Nat) : Nat := bits w 20 5
/-- funct7. -/
def wF7 (w : Nat) : Nat := bits w 25 7

/-- A register number. -/
def regNo (n : Nat) : Fin 32 := Fin.ofNat 32 n

/-- An encoding whose "must be 0" fields are these. -/
def mustBe0 (fields : List Nat) (x : ErgOp) : Option ErgOp := if fields.all (fun f => f == 0) then some x else none

/-! ### SPX (R49) -/

/-- custom-0 by funct3 and funct7. -/
def spxCustom0 (w : Nat) : Option ErgOp :=
  let d := regNo (wRd w)
  let a := regNo (wRs1 w)
  let b := regNo (wRs2 w)
  match wF3 w, wF7 w with
  | 0, 0 => mustBe0 [wRd w, wRs2 w] (.yieldt a)
  | 0, 1 => some (.fork d a b)
  | 0, 2 => mustBe0 [wRs2 w] (.join d a)
  | 0, 3 => mustBe0 [wRd w, wRs2 w] (.pksel a)
  | 0, 4 => some (.post d a b)
  | 0, 5 => some (.tlkp d a b)
  | 1, 0 => mustBe0 [wRd w] (.chsend a b)
  | 1, 1 => mustBe0 [wRd w] (.chsendl a b)
  | 1, 2 => mustBe0 [wRs2 w] (.chrecv d a)
  | 1, 3 => mustBe0 [wRs2 w] (.chpoll d a)
  | 2, 0 => mustBe0 [wRs2 w] (.bfalloc d a)
  | 2, 1 => some (.bfown d a b)
  | 2, 2 => some (.bffree d a b)
  | 2, 3 => some (.enq d a b)
  | 3, 0 => some (.crc32c d a b)
  | 3, 1 => mustBe0 [wRs2 w] (.bswap d a)
  | 3, 2 => some (.csum16 d a b)
  | _, _ => none

/-- custom-1 by funct7; its funct3 is 0 throughout. -/
def spxCustom1 (w : Nat) : Option ErgOp :=
  let d := regNo (wRd w)
  let a := regNo (wRs1 w)
  let b := regNo (wRs2 w)
  if wF3 w ≠ 0 then none
  else match wF7 w with
    | 0 => some (.saadd d a b)
    | 1 => some (.saswap d a b)
    | 2 => some (.sacas d a b)
    | 3 => some (.samin d a b)
    | 4 => some (.samax d a b)
    | 5 => some (.saand d a b)
    | 6 => some (.saor d a b)
    | 7 => some (.saxor d a b)
    | 8 => mustBe0 [wRd w] (.sainc64 a b)
    | _ => none

/-! ### RV32IM (R35) -/

/-- The I-type immediate. -/
def immI (w : Nat) : BitVec 12 := BitVec.ofNat 12 (bits w 20 12)
/-- The S-type immediate. -/
def immS (w : Nat) : BitVec 12 := BitVec.ofNat 12 (bits w 7 5 + 32 * bits w 25 7)
/-- The B-type offset. -/
def immB (w : Nat) : BitVec 13 := BitVec.ofNat 13 (2 * bits w 8 4 + 32 * bits w 25 6 + 2048 * bits w 7 1 + 4096 * bits w 31 1)
/-- The J-type offset. -/
def immJ (w : Nat) : BitVec 21 := BitVec.ofNat 21 (2 * bits w 21 10 + 2048 * bits w 20 1 + 4096 * bits w 12 8 + 1048576 * bits w 31 1)
/-- The U-type immediate. -/
def immU (w : Nat) : BitVec 20 := BitVec.ofNat 20 (bits w 12 20)

/-- Branch conditions by funct3. -/
def branchOf (f : Nat) : Option BrCond :=
  match f with | 0 => some .eq | 1 => some .ne | 4 => some .lt | 5 => some .ge | 6 => some .ltu | 7 => some .geu | _ => none

/-- Load widths by funct3. -/
def loadOf (f : Nat) : Option LdW :=
  match f with | 0 => some .b | 1 => some .h | 2 => some .w | 4 => some .bu | 5 => some .hu | _ => none

/-- Store widths by funct3. -/
def storeOf (f : Nat) : Option StW := match f with | 0 => some .b | 1 => some .h | 2 => some .w | _ => none

/-- Immediate operations by funct3 and, for shifts, funct7. -/
def immOpOf (f f7 : Nat) : Option AluOp :=
  match f with
  | 0 => some .add
  | 1 => if f7 = 0 then some .sll else none
  | 2 => some .slt
  | 3 => some .sltu
  | 4 => some .xor
  | 5 => if f7 = 0 then some .srl else if f7 = 0x20 then some .sra else none
  | 6 => some .or
  | _ => some .and

/-- Register operations by funct3 and funct7, those of the M extension apart. -/
def regOpOf (f f7 : Nat) : Option AluOp :=
  match f, f7 with
  | 0, 0 => some .add
  | 0, 0x20 => some .sub
  | 1, 0 => some .sll
  | 2, 0 => some .slt
  | 3, 0 => some .sltu
  | 4, 0 => some .xor
  | 5, 0 => some .srl
  | 5, 0x20 => some .sra
  | 6, 0 => some .or
  | 7, 0 => some .and
  | _, _ => none

/-- The M extension by funct3. -/
def mulDivOf (w : Nat) : ErgOp :=
  let d := regNo (wRd w)
  let a := regNo (wRs1 w)
  let b := regNo (wRs2 w)
  match wF3 w with
  | 0 => .mul .mul d a b
  | 1 => .mul .mulh d a b
  | 2 => .mul .mulhsu d a b
  | 3 => .mul .mulhu d a b
  | 4 => .div .div d a b
  | 5 => .div .divu d a b
  | 6 => .div .rem d a b
  | _ => .div .remu d a b

/-- CSR forms by the low two bits of funct3. -/
def csrFormOf (f : Nat) : Option CsrForm := match f % 4 with | 1 => some .rw | 2 => some .rs | 3 => some .rc | _ => none

/-- SYSTEM: ECALL, EBREAK and the CSR instructions; WFI and every other one is unimplemented (R37). -/
def systemOf (w : Nat) : Option ErgOp :=
  if w = 0x73 then some .ecall
  else if w = 0x100073 then some .ebreak
  else
    let src : CsrSrc := if wF3 w < 4 then .reg (regNo (wRs1 w)) else .uimm (BitVec.ofNat 5 (wRs1 w))
    (csrFormOf (wF3 w)).map (fun form => .csr form (immI w) src (regNo (wRd w)))

/-- A 32-bit word by its opcode. -/
def wideWord (w : Nat) : Option ErgOp :=
  let d := regNo (wRd w)
  let a := regNo (wRs1 w)
  let b := regNo (wRs2 w)
  match wOp w with
  | 0x0B => spxCustom0 w
  | 0x2B => spxCustom1 w
  | 0x37 => some (.lui d (immU w))
  | 0x17 => some (.auipc d (immU w))
  | 0x6F => some (.jal d (immJ w))
  | 0x67 => if wF3 w = 0 then some (.jalr d a (immI w)) else none
  | 0x63 => (branchOf (wF3 w)).map (fun c => .branch c a b (immB w))
  | 0x03 => (loadOf (wF3 w)).map (fun v => .load v d a (immI w))
  | 0x23 => (storeOf (wF3 w)).map (fun v => .store v a b (immS w))
  | 0x13 => (immOpOf (wF3 w) (wF7 w)).map (fun op => .integerOp op d a (.imm (if wF3 w % 4 = 1 then BitVec.ofNat 12 (wRs2 w) else immI w)))
  | 0x33 => if wF7 w = 1 then some (mulDivOf w) else (regOpOf (wF3 w) (wF7 w)).map (fun op => .integerOp op d a (.reg b))
  | 0x0F => if wF3 w = 0 then some .fence else none
  | 0x73 => systemOf w
  | _ => none

/-! ### RV32C (R35): a 16-bit word and the instruction that it stands for -/

/-- rd or rs1 in full. -/
def cReg (w : Nat) : Nat := bits w 7 5
/-- rs2 in full. -/
def cReg2 (w : Nat) : Nat := bits w 2 5
/-- The short register in bits 9 to 7. -/
def cHigh (w : Nat) : Fin 32 := regNo (8 + bits w 7 3)
/-- The short register in bits 4 to 2. -/
def cLow (w : Nat) : Fin 32 := regNo (8 + bits w 2 3)
/-- The 6-bit immediate, sign-extended. -/
def cImm (w : Nat) : BitVec 12 := (BitVec.ofNat 6 (cReg2 w + 32 * bits w 12 1)).signExtend 12
/-- The word offset of C.LW and C.SW. -/
def cOff (w : Nat) : BitVec 12 := BitVec.ofNat 12 (4 * bits w 6 1 + 8 * bits w 10 3 + 64 * bits w 5 1)
/-- The jump offset of C.J and C.JAL. -/
def cJump (w : Nat) : BitVec 21 :=
  (BitVec.ofNat 12 (2 * bits w 3 3 + 16 * bits w 11 1 + 32 * bits w 2 1 + 64 * bits w 7 1 + 128 * bits w 6 1 + 256 * bits w 9 2 + 1024 * bits w 8 1 +
    2048 * bits w 12 1)).signExtend 21
/-- The offset of C.BEQZ and C.BNEZ. -/
def cBranch (w : Nat) : BitVec 13 :=
  (BitVec.ofNat 9 (2 * bits w 3 2 + 8 * bits w 10 2 + 32 * bits w 2 1 + 64 * bits w 5 2 + 256 * bits w 12 1)).signExtend 13

/-- Quadrant 0. -/
def shortQ0 (w : Nat) : Option ErgOp :=
  match bits w 13 3 with
  | 0 =>
    let v := 4 * bits w 6 1 + 8 * bits w 5 1 + 16 * bits w 11 2 + 64 * bits w 7 4
    if v = 0 then none else some (.integerOp .add (cLow w) 2 (.imm (BitVec.ofNat 12 v)))
  | 2 => some (.load .w (cLow w) (cHigh w) (cOff w))
  | 6 => some (.store .w (cHigh w) (cLow w) (cOff w))
  | _ => none

/-- The register and immediate operations of quadrant 1; a shift by 32 or more is no encoding of RV32. -/
def shortAlu (w : Nat) : Option ErgOp :=
  let r := cHigh w
  match bits w 10 2, bits w 12 1 with
  | 0, 0 => some (.integerOp .srl r r (.imm (BitVec.ofNat 12 (cReg2 w))))
  | 1, 0 => some (.integerOp .sra r r (.imm (BitVec.ofNat 12 (cReg2 w))))
  | 2, _ => some (.integerOp .and r r (.imm (cImm w)))
  | 3, 0 =>
    let op : AluOp := match bits w 5 2 with | 0 => .sub | 1 => .xor | 2 => .or | _ => .and
    some (.integerOp op r r (.reg (cLow w)))
  | _, _ => none

/-- C.ADDI16SP, on x2, and C.LUI; an immediate of 0 is reserved. -/
def shortLui (w : Nat) : Option ErgOp :=
  if cImm w = 0 then none
  else if cReg w = 2 then
    some (.integerOp .add 2 2 (.imm ((BitVec.ofNat 10 (16 * bits w 6 1 + 32 * bits w 2 1 + 64 * bits w 5 1 + 128 * bits w 3 2 + 512 * bits w 12 1)).signExtend 12)))
  else some (.lui (regNo (cReg w)) ((cImm w).signExtend 20))

/-- Quadrant 1. -/
def shortQ1 (w : Nat) : Option ErgOp :=
  let d := regNo (cReg w)
  match bits w 13 3 with
  | 0 => some (.integerOp .add d d (.imm (cImm w)))
  | 1 => some (.jal 1 (cJump w))
  | 2 => some (.integerOp .add d 0 (.imm (cImm w)))
  | 3 => shortLui w
  | 4 => shortAlu w
  | 5 => some (.jal 0 (cJump w))
  | 6 => some (.branch .eq (cHigh w) 0 (cBranch w))
  | _ => some (.branch .ne (cHigh w) 0 (cBranch w))

/-- C.JR, C.MV, C.EBREAK, C.JALR and C.ADD. -/
def shortMove (w : Nat) : Option ErgOp :=
  let d := regNo (cReg w)
  let b := regNo (cReg2 w)
  if bits w 12 1 = 0 then
    if cReg2 w ≠ 0 then some (.integerOp .add d 0 (.reg b)) else if cReg w ≠ 0 then some (.jalr 0 d 0) else none
  else if cReg2 w ≠ 0 then some (.integerOp .add d d (.reg b))
  else if cReg w ≠ 0 then some (.jalr 1 d 0) else some .ebreak

/-- Quadrant 2. -/
def shortQ2 (w : Nat) : Option ErgOp :=
  let d := regNo (cReg w)
  match bits w 13 3 with
  | 0 => if bits w 12 1 = 0 then some (.integerOp .sll d d (.imm (BitVec.ofNat 12 (cReg2 w)))) else none
  | 2 => if cReg w = 0 then none else some (.load .w d 2 (BitVec.ofNat 12 (4 * bits w 4 3 + 32 * bits w 12 1 + 64 * bits w 2 2)))
  | 4 => shortMove w
  | 6 => some (.store .w 2 (regNo (cReg2 w)) (BitVec.ofNat 12 (4 * bits w 9 4 + 64 * bits w 7 2)))
  | _ => none

/-- The instruction that a fetched word spells, and whether it is a compressed one; none for an unimplemented or reserved encoding. -/
def decodeErg (w : Nat) : Option ErgOp :=
  match w % 4 with
  | 0 => shortQ0 w
  | 1 => shortQ1 w
  | 2 => shortQ2 w
  | _ => wideWord w

/-! ### Running a decoded instruction -/

/-- The meaning of a decoded instruction; its control checks hold. -/
def runErg (i : Issue) (x : ErgOp) (s : State) : Answer :=
  match x with
  | .integerOp op rd rs1 src => execIntegerOp i op rd rs1 src s
  | .lui rd imm => execLui i rd imm s
  | .auipc rd imm => execAuipc i rd imm s
  | .branch c rs1 rs2 off => execBranch i c rs1 rs2 off s
  | .jal rd off => execJal i rd off s
  | .jalr rd rs1 imm => execJalr i rd rs1 imm s
  | .mul op rd rs1 rs2 => execMul i op rd rs1 rs2 s
  | .div op rd rs1 rs2 => execDiv i op rd rs1 rs2 s
  | .load w rd rs1 imm => execLoad i w rd rs1 imm false s
  | .store w rs1 rs2 imm => execStore i w rs1 rs2 imm false s
  | .fence => execFence i s
  | .ecall => execEcall i s
  | .ebreak => execEbreak i s
  | .csr form csr src rd => execCsrWrite i form csr src rd s
  | .yieldt rs1 => execYieldt i rs1 s
  | .fork rd rs1 rs2 => execFork i rd rs1 rs2 s
  | .join rd rs1 => execJoin i rd rs1 s
  | .pksel rs1 => execPksel i rs1 s
  | .post rd rs1 rs2 => execPost i rd rs1 rs2 s
  | .tlkp rd rs1 rs2 => execTlkp i rd rs1 rs2 s
  | .chsend rs1 rs2 => execChsend i rs1 rs2 s
  | .chsendl rs1 rs2 => execChsendl i rs1 rs2 s
  | .chrecv rd rs1 => execChrecv i rd rs1 s
  | .chpoll rd rs1 => execChpoll i rd rs1 s
  | .bfalloc rd rs1 => execBfalloc i rd rs1 s
  | .bfown rd rs1 rs2 => execBfown i rd rs1 rs2 s
  | .bffree rd rs1 rs2 => execBffree i rd rs1 rs2 s
  | .enq rd rs1 rs2 => execEnq i rd rs1 rs2 s
  | .crc32c rd rs1 rs2 => execCrc32c i rd rs1 rs2 s
  | .bswap rd rs1 => execBswap i rd rs1 s
  | .csum16 rd rs1 rs2 => execCsum16 i rd rs1 rs2 s
  | .saadd rd rs1 rs2 => execSaadd i rd rs1 rs2 false s
  | .saswap rd rs1 rs2 => execSaswap i rd rs1 rs2 false s
  | .sacas rd rs1 rs2 => execSacas i rd rs1 rs2 false s
  | .samin rd rs1 rs2 => execSamin i rd rs1 rs2 false s
  | .samax rd rs1 rs2 => execSamax i rd rs1 rs2 false s
  | .saand rd rs1 rs2 => execSaand i rd rs1 rs2 false s
  | .saor rd rs1 rs2 => execSaor i rd rs1 rs2 false s
  | .saxor rd rs1 rs2 => execSaxor i rd rs1 rs2 false s
  | .sainc64 rs1 rs2 => execSainc64 i rs1 rs2 false s

/-- ILLEGAL_ENCODING (R38, R49): the issue of a word. One that RV32IMC and the SPX table do not list raises ILLEGAL; any other is the instruction
that it spells. -/
def execIllegalEncoding (i : Issue) (word : Word) (s : State) : Answer :=
  match decodeErg word.toNat with
  | none => .next (s.issue i (fun s pe k _ => s.fault pe k 1 word))
  | some x => runErg { i with compressed := decide (word.toNat % 4 ≠ 3) } x s

end Sys2Proof.Machine
end

