-- ==== Sys2Proof/Machine/Dispatch.lean ====
section
/-!
DEFINITION. The dispatcher: one arm for each command.
-/

namespace Sys2Proof.Machine

/-- The meaning of each command. -/
def exec (i : Instr) (s : State) : Host.Outcome State Fault Refusal :=
  match i with
  | .vinRise vinMv => Sys2Proof.Machine.execVinRise vinMv s
  | .pwrGoodAssert straps => Sys2Proof.Machine.execPwrGoodAssert straps s
  | .sagBandEntry vinMv => Sys2Proof.Machine.execSagBandEntry vinMv s
  | .feedInterruption => Sys2Proof.Machine.execFeedInterruption s
  | .feedReturn vinMv => Sys2Proof.Machine.execFeedReturn vinMv s
  | .pwrFailWarnAssert holdupMv => Sys2Proof.Machine.execPwrFailWarnAssert holdupMv s
  | .holdupExhausted => Sys2Proof.Machine.execHoldupExhausted s
  | .bankChargeMeasure cmMicroF => Sys2Proof.Machine.execBankChargeMeasure cmMicroF s
  | .thermalAlert junction plate => Sys2Proof.Machine.execThermalAlert junction plate s
  | .thermalCapUpdate junction => Sys2Proof.Machine.execThermalCapUpdate junction s
  | .thermalTrip junction => Sys2Proof.Machine.execThermalTrip junction s
  | .tripCooldown junction straps => Sys2Proof.Machine.execTripCooldown junction straps s
  | .powerStageFault stage => Sys2Proof.Machine.execPowerStageFault stage s
  | .resetInAssert => Sys2Proof.Machine.execResetInAssert s
  | .resetInRelease straps => Sys2Proof.Machine.execResetInRelease straps s
  | .conventionalReset cause => Sys2Proof.Machine.execConventionalReset cause s
  | .perstDeassert => Sys2Proof.Machine.execPerstDeassert s
  | .pcieLinkRetrain rateX10 width flit => Sys2Proof.Machine.execPcieLinkRetrain rateX10 width flit s
  | .malformedTlp kind => Sys2Proof.Machine.execMalformedTlp kind s
  | .unsupportedRequest fn kind posted => Sys2Proof.Machine.execUnsupportedRequest fn kind posted s
  | .barRead fn bar off len => Sys2Proof.Machine.execBarRead fn bar off len s
  | .barWrite fn bar off data => Sys2Proof.Machine.execBarWrite fn bar off data s
  | .configWrite fn off width value bus buses => Sys2Proof.Machine.execConfigWrite fn off width value s bus buses
  | .functionLevelReset storage inst => Sys2Proof.Machine.execFunctionLevelReset storage inst s
  | .pfFunctionLevelReset pf => Sys2Proof.Machine.execPfFunctionLevelReset pf s
  | .flrComplete fn => Sys2Proof.Machine.execFlrComplete fn s
  | .busMasterEnableClear fn => Sys2Proof.Machine.execBusMasterEnableClear fn s
  | .busMasterEnableSet fn => Sys2Proof.Machine.execBusMasterEnableSet fn s
  | .d3hotEntry pf => Sys2Proof.Machine.execD3hotEntry pf s
  | .d0Return pf => Sys2Proof.Machine.execD0Return pf s
  | .pmeSignal pf => Sys2Proof.Machine.execPmeSignal pf s
  | .pmeTurnOff => Sys2Proof.Machine.execPmeTurnOff s
  | .aspmEntry target => Sys2Proof.Machine.execAspmEntry target s
  | .ltrIdleReport => Sys2Proof.Machine.execLtrIdleReport s
  | .tickBoundary => Sys2Proof.Machine.execTickBoundary s
  | .gate estimateMw => Sys2Proof.Machine.execGate estimateMw s
  | .turn => Sys2Proof.Machine.execTurn s
  | .periodChangeApply => Sys2Proof.Machine.execPeriodChangeApply s
  | .sourceQualified src => Sys2Proof.Machine.execSourceQualified src s
  | .clockLocked => Sys2Proof.Machine.execClockLocked s
  | .sourceLost src => Sys2Proof.Machine.execSourceLost s src
  | .holdoverExpiry => Sys2Proof.Machine.execHoldoverExpiry s
  | .ppsInEdge sec ns => Sys2Proof.Machine.execPpsInEdge sec ns s
  | .integerOp iss op rd rs1 src => Sys2Proof.Machine.execIntegerOp iss op rd rs1 src s
  | .lui iss rd imm => Sys2Proof.Machine.execLui iss rd imm s
  | .auipc iss rd imm => Sys2Proof.Machine.execAuipc iss rd imm s
  | .branch iss c rs1 rs2 off => Sys2Proof.Machine.execBranch iss c rs1 rs2 off s
  | .jal iss rd off => Sys2Proof.Machine.execJal iss rd off s
  | .jalr iss rd rs1 imm => Sys2Proof.Machine.execJalr iss rd rs1 imm s
  | .mul iss op rd rs1 rs2 => Sys2Proof.Machine.execMul iss op rd rs1 rs2 s
  | .div iss op rd rs1 rs2 => Sys2Proof.Machine.execDiv iss op rd rs1 rs2 s
  | .load iss w rd rs1 imm checkBad => Sys2Proof.Machine.execLoad iss w rd rs1 imm checkBad s
  | .store iss w rs1 rs2 imm checkBad => Sys2Proof.Machine.execStore iss w rs1 rs2 imm checkBad s
  | .fence iss => Sys2Proof.Machine.execFence iss s
  | .ecall iss => Sys2Proof.Machine.execEcall iss s
  | .ebreak iss => Sys2Proof.Machine.execEbreak iss s
  | .fenceI iss => Sys2Proof.Machine.execFenceI iss s
  | .wfi iss => Sys2Proof.Machine.execWfi iss s
  | .illegalEncoding iss word => Sys2Proof.Machine.execIllegalEncoding iss word s
  | .csrWrite iss form csr src rd => Sys2Proof.Machine.execCsrWrite iss form csr src rd s
  | .sxdwinWrite iss form src rd => Sys2Proof.Machine.execSxdwinWrite iss form src rd s
  | .sxslotWrite iss hi form src rd => Sys2Proof.Machine.execSxslotWrite iss hi form src rd s
  | .sxstaleRead iss rd => Sys2Proof.Machine.execSxstaleRead iss rd s
  | .dbgenWrite iss form src rd => Sys2Proof.Machine.execDbgenWrite iss form src rd s
  | .dismiss iss form src rd => Sys2Proof.Machine.execDismiss iss form src rd s
  | .ovfClear iss form src rd => Sys2Proof.Machine.execOvfClear iss form src rd s
  | .endmask iss form src rd => Sys2Proof.Machine.execEndmask iss form src rd s
  | .yieldt iss rs1 => Sys2Proof.Machine.execYieldt iss rs1 s
  | .fork iss rd rs1 rs2 => Sys2Proof.Machine.execFork iss rd rs1 rs2 s
  | .join iss rd rs1 => Sys2Proof.Machine.execJoin iss rd rs1 s
  | .joinUnblock eng thr => Sys2Proof.Machine.execJoinUnblock eng thr s
  | .pksel iss rs1 => Sys2Proof.Machine.execPksel iss rs1 s
  | .post iss rd rs1 rs2 => Sys2Proof.Machine.execPost iss rd rs1 rs2 s
  | .tlkp iss rd rs1 rs2 fail => Sys2Proof.Machine.execTlkp iss rd rs1 rs2 s fail
  | .chsend iss rs1 rs2 => Sys2Proof.Machine.execChsend iss rs1 rs2 s
  | .chsendl iss rs1 rs2 => Sys2Proof.Machine.execChsendl iss rs1 rs2 s
  | .chsendUnblock eng thr => Sys2Proof.Machine.execChsendUnblock eng thr s
  | .chrecv iss rd rs1 => Sys2Proof.Machine.execChrecv iss rd rs1 s
  | .chrecvUnblock eng thr => Sys2Proof.Machine.execChrecvUnblock eng thr s
  | .chpoll iss rd rs1 => Sys2Proof.Machine.execChpoll iss rd rs1 s
  | .messageDelivery eng thr parityBad => Sys2Proof.Machine.execMessageDelivery eng thr s parityBad
  | .bfalloc iss rd rs1 entryBad => Sys2Proof.Machine.execBfalloc iss rd rs1 s entryBad
  | .bfown iss rd rs1 rs2 => Sys2Proof.Machine.execBfown iss rd rs1 rs2 s
  | .bffree iss rd rs1 rs2 entryBad => Sys2Proof.Machine.execBffree iss rd rs1 rs2 s entryBad
  | .enq iss rd rs1 rs2 => Sys2Proof.Machine.execEnq iss rd rs1 rs2 s
  | .crc32c iss rd rs1 rs2 => Sys2Proof.Machine.execCrc32c iss rd rs1 rs2 s
  | .bswap iss rd rs1 => Sys2Proof.Machine.execBswap iss rd rs1 s
  | .csum16 iss rd rs1 rs2 => Sys2Proof.Machine.execCsum16 iss rd rs1 rs2 s
  | .saadd iss rd rs1 rs2 checkBad => Sys2Proof.Machine.execSaadd iss rd rs1 rs2 checkBad s
  | .saswap iss rd rs1 rs2 checkBad => Sys2Proof.Machine.execSaswap iss rd rs1 rs2 checkBad s
  | .sacas iss rd rs1 rs2 checkBad => Sys2Proof.Machine.execSacas iss rd rs1 rs2 checkBad s
  | .samin iss rd rs1 rs2 checkBad => Sys2Proof.Machine.execSamin iss rd rs1 rs2 checkBad s
  | .samax iss rd rs1 rs2 checkBad => Sys2Proof.Machine.execSamax iss rd rs1 rs2 checkBad s
  | .saand iss rd rs1 rs2 checkBad => Sys2Proof.Machine.execSaand iss rd rs1 rs2 checkBad s
  | .saor iss rd rs1 rs2 checkBad => Sys2Proof.Machine.execSaor iss rd rs1 rs2 checkBad s
  | .saxor iss rd rs1 rs2 checkBad => Sys2Proof.Machine.execSaxor iss rd rs1 rs2 checkBad s
  | .sainc64 iss rs1 rs2 checkBad => Sys2Proof.Machine.execSainc64 iss rs1 rs2 checkBad s
  | .groomStart eng => Sys2Proof.Machine.execGroomStart eng s
  | .mutualWaitReport yard => Sys2Proof.Machine.execMutualWaitReport yard s
  | .frameReceive lane frame bad corr sec ns frac uncorr ent fails => Sys2Proof.Machine.execFrameReceive lane frame bad corr sec ns frac s uncorr ent fails
  | .classificationDequeue pipeB fails => Sys2Proof.Machine.execClassificationDequeue pipeB s fails
  | .laneUp lane peer => Sys2Proof.Machine.execLaneUp lane s peer
  | .laneDown lane cutFrame => Sys2Proof.Machine.execLaneDown lane cutFrame s
  | .lacpTimeout lane => Sys2Proof.Machine.execLacpTimeout lane s
  | .lacpPeriodicTransmit lane => Sys2Proof.Machine.execLacpPeriodicTransmit lane s
  | .memberQueuesDrained lane => Sys2Proof.Machine.execMemberQueuesDrained lane s
  | .schedulerSelect port sec ns frac => Sys2Proof.Machine.execSchedulerSelect port sec ns frac s
  | .transmitComplete port entryBad => Sys2Proof.Machine.execTransmitComplete port s entryBad
  | .doorbell fn value stateBad => Sys2Proof.Machine.execDoorbell fn value s stateBad
  | .completionHeadDoorbell fn value => Sys2Proof.Machine.execCompletionHeadDoorbell fn value s
  | .adminBaseWrite fn value => Sys2Proof.Machine.execAdminBaseWrite fn value s
  | .adminCtlEnable fn value => Sys2Proof.Machine.execAdminCtlEnable fn value s
  | .adminCtlDisable fn value => Sys2Proof.Machine.execAdminCtlDisable fn value s
  | .tx fn q descs => Sys2Proof.Machine.execTx fn q descs s
  | .rxPost fn q descs => Sys2Proof.Machine.execRxPost fn q descs s
  | .rdmaWrite fn q descs => Sys2Proof.Machine.execRdmaWrite fn q descs s
  | .rdmaRead fn q descs => Sys2Proof.Machine.execRdmaRead fn q descs s
  | .compressJob fn q descs => Sys2Proof.Machine.execCompressJob fn q descs s
  | .decompressJob fn q descs => Sys2Proof.Machine.execDecompressJob fn q descs s
  | .gcmSealJob fn q descs => Sys2Proof.Machine.execGcmSealJob fn q descs s
  | .gcmOpenJob fn q descs => Sys2Proof.Machine.execGcmOpenJob fn q descs s
  | .createQueue fn d block => Sys2Proof.Machine.execCreateQueue fn d block s
  | .destroyQueue fn d block => Sys2Proof.Machine.execDestroyQueue fn d block s
  | .resetQueue fn d block => Sys2Proof.Machine.execResetQueue fn d block s
  | .abort fn d block => Sys2Proof.Machine.execAbort fn d block s
  | .setModeration fn d block => Sys2Proof.Machine.execSetModeration fn d block s
  | .queryQueue fn d block => Sys2Proof.Machine.execQueryQueue fn d block s
  | .moderationExpiry fn q => Sys2Proof.Machine.execModerationExpiry fn q s
  | .hostDmaRead => Sys2Proof.Machine.execHostDmaRead s
  | .hostDmaWrite => Sys2Proof.Machine.execHostDmaWrite s
  | .hostDmaWriteRx => Sys2Proof.Machine.execHostDmaWriteRx s
  | .complete check => Sys2Proof.Machine.execComplete s check
  | .save check => Sys2Proof.Machine.execSave s check
  | .dmaReadCompletion tag outcome => Sys2Proof.Machine.execDmaReadCompletion tag outcome s
  | .waitingReadIssue => Sys2Proof.Machine.execWaitingReadIssue s
  | .completionTimeout tag => Sys2Proof.Machine.execCompletionTimeout tag s
  | .quarantineEnd tag => Sys2Proof.Machine.execQuarantineEnd tag s
  | .lateCompletion tag => Sys2Proof.Machine.execLateCompletion tag s
  | .mailboxSend mb src regs => Sys2Proof.Machine.execMailboxSend mb src regs s
  | .mailboxTake mb reader width regBad => Sys2Proof.Machine.execMailboxTake mb reader width s regBad
  | .mailboxRetract mb src => Sys2Proof.Machine.execMailboxRetract mb src s
  | .mailboxStatusClear mb src value => Sys2Proof.Machine.execMailboxStatusClear mb src value s
  | .lockAcquire k src regBad => Sys2Proof.Machine.execLockAcquire k src s regBad
  | .lockRelease k src value => Sys2Proof.Machine.execLockRelease k src value s
  | .erHeadWrite value => Sys2Proof.Machine.execErHeadWrite value s
  | .erLostRead => Sys2Proof.Machine.execErLostRead s
  | .erStatusClear value => Sys2Proof.Machine.execErStatusClear value s
  | .identify h => Sys2Proof.Machine.execIdentify h s
  | .deviceState h => Sys2Proof.Machine.execDeviceState h s
  | .poolCarve h sizes counts => Sys2Proof.Machine.execPoolCarve h sizes counts s
  | .poolCounters h pool => Sys2Proof.Machine.execPoolCounters h pool s
  | .controlRegion h sizeMib => Sys2Proof.Machine.execControlRegion h sizeMib s
  | .deviceReset h confirm => Sys2Proof.Machine.execDeviceReset h confirm s
  | .instanceCreate h inst mode flags tenant res => Sys2Proof.Machine.execInstanceCreate h inst mode flags tenant res s
  | .instanceResize h inst res => Sys2Proof.Machine.execInstanceResize h inst res s
  | .instanceReset h inst => Sys2Proof.Machine.execInstanceReset h inst s
  | .instanceDestroy h inst => Sys2Proof.Machine.execInstanceDestroy h inst s
  | .instanceFreeze h inst => Sys2Proof.Machine.execInstanceFreeze h inst s
  | .instanceSave h inst addr len => Sys2Proof.Machine.execInstanceSave h inst addr len s
  | .quiescence inst => Sys2Proof.Machine.execQuiescence inst s
  | .instanceRestore h inst addr len image => Sys2Proof.Machine.execInstanceRestore h inst addr len image s
  | .instanceThaw h inst => Sys2Proof.Machine.execInstanceThaw h inst s
  | .dirtyHarvest h inst clear addr len => Sys2Proof.Machine.execDirtyHarvest h inst clear addr len s
  | .instanceQuery h inst => Sys2Proof.Machine.execInstanceQuery h inst s
  | .macSet h inst count macs => Sys2Proof.Machine.execMacSet h inst count macs s
  | .queueQuery h inst pf queue => Sys2Proof.Machine.execQueueQuery h inst pf queue s
  | .queueDestroy h inst pf queue => Sys2Proof.Machine.execQueueDestroy h inst pf queue s
  | .ringBind h inst pf queue tmq wake => Sys2Proof.Machine.execRingBind h inst pf queue tmq wake s
  | .tableCreate h table type keylen flags capacity tseed nfields fields => Sys2Proof.Machine.execTableCreate h table type keylen flags capacity tseed nfields fields s
  | .tableDestroy h table => Sys2Proof.Machine.execTableDestroy h table s
  | .stageEntries h batch table entries => Sys2Proof.Machine.execStageEntries h batch table entries s
  | .stageStages h batch first descs => Sys2Proof.Machine.execStageStages h batch first descs s
  | .stageGraph h batch first start nodes => Sys2Proof.Machine.execStageGraph h batch first start nodes s
  | .stageDefaults h batch parseFail noMatch => Sys2Proof.Machine.execStageDefaults h batch parseFail noMatch s
  | .stageSpread h batch seedset first seed profiles entries => Sys2Proof.Machine.execStageSpread h batch seedset first seed profiles entries s
  | .commit h batch atTick => Sys2Proof.Machine.execCommit h batch atTick s
  | .commitCleanupComplete => Sys2Proof.Machine.execCommitCleanupComplete s
  | .abandon h batch => Sys2Proof.Machine.execAbandon h batch s
  | .read h what table first count key => Sys2Proof.Machine.execRead h what table first count key s
  | .tableCounters h table => Sys2Proof.Machine.execTableCounters h table s
  | .tablePlan h sizes => Sys2Proof.Machine.execTablePlan h sizes s
  | .programLoad h engset boundary image => Sys2Proof.Machine.execProgramLoad h engset boundary image s
  | .bankSwitch h engset atTick => Sys2Proof.Machine.execBankSwitch h engset atTick s
  | .programQuery h engset => Sys2Proof.Machine.execProgramQuery h engset s
  | .regCreate h inst pd rights base length => Sys2Proof.Machine.execRegCreate h inst pd rights base length s
  | .regRevoke h rkey => Sys2Proof.Machine.execRegRevoke h rkey s
  | .revokeDrainComplete index => Sys2Proof.Machine.execRevokeDrainComplete index s
  | .ctxBacking h addr count => Sys2Proof.Machine.execCtxBacking h addr count s
  | .ctxCreate h inst pd qpn mode paths pmtu peerQpn peer peerIsStador => Sys2Proof.Machine.execCtxCreate h inst pd qpn mode paths pmtu peerQpn peer peerIsStador s
  | .ctxModify h qpn newState sqPsn rqPsn => Sys2Proof.Machine.execCtxModify h qpn newState sqPsn rqPsn s
  | .ctxDestroy h qpn => Sys2Proof.Machine.execCtxDestroy h qpn s
  | .ctxQuery h qpn => Sys2Proof.Machine.execCtxQuery h qpn s
  | .backendAdd h backend transport port addr subnqn => Sys2Proof.Machine.execBackendAdd h backend transport port addr subnqn s
  | .backendRemove h backend => Sys2Proof.Machine.execBackendRemove h backend s
  | .nsCreate h ns backend remoteNsid remote => Sys2Proof.Machine.execNsCreate h ns backend remoteNsid remote s
  | .nsAttach h inst ns nsid => Sys2Proof.Machine.execNsAttach h inst ns nsid s
  | .nsDetach h inst nsid => Sys2Proof.Machine.execNsDetach h inst nsid s
  | .nsDestroy h ns => Sys2Proof.Machine.execNsDestroy h ns s
  | .backendQuery h backend => Sys2Proof.Machine.execBackendQuery h backend s
  | .laneSet h lane mode maxFrame rxAdj txAdj adjset => Sys2Proof.Machine.execLaneSet h lane mode maxFrame rxAdj txAdj adjset s
  | .agSet h group mode members => Sys2Proof.Machine.execAgSet h group mode members s
  | .agHash h group seed profile => Sys2Proof.Machine.execAgHash h group seed profile s
  | .tmqCreate h queue dest cls tenant quantum maxBytes spill => Sys2Proof.Machine.execTmqCreate h queue dest cls tenant quantum maxBytes spill s
  | .tmqDestroy h queue => Sys2Proof.Machine.execTmqDestroy h queue s
  | .tmAttr h kind index a => Sys2Proof.Machine.execTmAttr h kind index a s
  | .editLoad h template raw => Sys2Proof.Machine.execEditLoad h template raw s
  | .portCounters h scope index => Sys2Proof.Machine.execPortCounters h scope index s
  | .opticsQuery h oe => Sys2Proof.Machine.execOpticsQuery h oe s
  | .timeQuery h => Sys2Proof.Machine.execTimeQuery h s
  | .sourcePriority h ptpLane ptpPrio ppsPrio domain => Sys2Proof.Machine.execSourcePriority h ptpLane ptpPrio ppsPrio domain s
  | .sourceSelect h src => Sys2Proof.Machine.execSourceSelect h src s
  | .setGate h g atTick => Sys2Proof.Machine.execSetGate h g atTick s
  | .periodChange h code e => Sys2Proof.Machine.execPeriodChange h code e s
  | .periodCancel h => Sys2Proof.Machine.execPeriodCancel h s
  | .holdoverSet h seconds => Sys2Proof.Machine.execHoldoverSet h seconds s
  | .sparesQuery h => Sys2Proof.Machine.execSparesQuery h s
  | .rotationSet h enable days => Sys2Proof.Machine.execRotationSet h enable days s
  | .rotateNow h out inn waitMs => Sys2Proof.Machine.execRotateNow h out inn waitMs s
  | .patrolSet h enable days => Sys2Proof.Machine.execPatrolSet h enable days s
  | .repairLog h seqFrom max => Sys2Proof.Machine.execRepairLog h seqFrom max s
  | .farrierReload h which => Sys2Proof.Machine.execFarrierReload h which s
  | .wearQuery h => Sys2Proof.Machine.execWearQuery h s
  | .imageWrite h slot offset data => Sys2Proof.Machine.execImageWrite h slot offset data s
  | .imageValidate h slot => Sys2Proof.Machine.execImageValidate h slot s
  | .imageQuery h => Sys2Proof.Machine.execImageQuery h s
  | .mpSwitch h slot atTick => Sys2Proof.Machine.execMpSwitch h slot atTick s
  | .imageConfirm h => Sys2Proof.Machine.execImageConfirm h s
  | .keyRevoke h key => Sys2Proof.Machine.execKeyRevoke h key s
  | .keyQuery h => Sys2Proof.Machine.execKeyQuery h s
  | .lifecycleAdvance h toState confirm => Sys2Proof.Machine.execLifecycleAdvance h toState confirm s
  | .stackQuery h => Sys2Proof.Machine.execStackQuery h s
  | .stackGroup h group mode members => Sys2Proof.Machine.execStackGroup h group mode members s
  | .stackStage h program entry nextPos => Sys2Proof.Machine.execStackStage h program entry nextPos s
  | .powerQuery h => Sys2Proof.Machine.execPowerQuery h s
  | .powerCap h capMw => Sys2Proof.Machine.execPowerCap h capMw s
  | .urgentMask h program mask => Sys2Proof.Machine.execUrgentMask h program mask s
  | .domainQuery h => Sys2Proof.Machine.execDomainQuery h s
  | .monitorUnlock h yards seconds => Sys2Proof.Machine.execMonitorUnlock h yards seconds s
  | .monitorRelock h yards => Sys2Proof.Machine.execMonitorRelock h yards s
  | .unlockExpiry => Sys2Proof.Machine.execUnlockExpiry s
  | .debugQuery h => Sys2Proof.Machine.execDebugQuery h s
  | .eventRingSet h addr entries vector => Sys2Proof.Machine.execEventRingSet h addr entries vector s
  | .eventMask h mask => Sys2Proof.Machine.execEventMask h mask s
  | .logRead h log seqFrom max => Sys2Proof.Machine.execLogRead h log seqFrom max s
  | .commandTimeout hm => Sys2Proof.Machine.execCommandTimeout hm s
  | .recoveryLoad h addr len image => Sys2Proof.Machine.execRecoveryLoad h addr len image s
  | .rdmaWriteFirst p => Sys2Proof.Machine.execRdmaWriteFirst p s
  | .rdmaWriteMiddle p => Sys2Proof.Machine.execRdmaWriteMiddle p s
  | .rdmaWriteLast p => Sys2Proof.Machine.execRdmaWriteLast p s
  | .rdmaWriteOnly p => Sys2Proof.Machine.execRdmaWriteOnly p s
  | .rdmaReadRequest p => Sys2Proof.Machine.execRdmaReadRequest p s
  | .rdmaReadResponseFirst p => Sys2Proof.Machine.execRdmaReadResponseFirst p s
  | .rdmaReadResponseMiddle p => Sys2Proof.Machine.execRdmaReadResponseMiddle p s
  | .rdmaReadResponseLast p => Sys2Proof.Machine.execRdmaReadResponseLast p s
  | .rdmaReadResponseOnly p => Sys2Proof.Machine.execRdmaReadResponseOnly p s
  | .acknowledge p => Sys2Proof.Machine.execAcknowledge p s
  | .unsupportedOpcodePacket p => Sys2Proof.Machine.execUnsupportedOpcodePacket p s
  | .sprayWrite p sh => Sys2Proof.Machine.execSprayWrite p sh s
  | .sprayReadReq p sh => Sys2Proof.Machine.execSprayReadReq p sh s
  | .sprayReadResp p sh => Sys2Proof.Machine.execSprayReadResp p sh s
  | .sprayAck p sh => Sys2Proof.Machine.execSprayAck p sh s
  | .spraySack p sh => Sys2Proof.Machine.execSpraySack p sh s
  | .sprayNak p sh => Sys2Proof.Machine.execSprayNak p sh s
  | .ackTimeout qpn => Sys2Proof.Machine.execAckTimeout qpn s
  | .sprayMessageTimeout qpn msg => Sys2Proof.Machine.execSprayMessageTimeout qpn msg s
  | .reassemblyLimit qpn msg => Sys2Proof.Machine.execReassemblyLimit qpn msg s
  | .readRecordTimeout qpn record => Sys2Proof.Machine.execReadRecordTimeout qpn record s
  | .contextFill qpn bytes fail => Sys2Proof.Machine.execContextFill qpn bytes s fail
  | .submit => Sys2Proof.Machine.execSubmit s
  | .tune => Sys2Proof.Machine.execTune s
  | .backendSubmit => Sys2Proof.Machine.execBackendSubmit s
  | .backendData => Sys2Proof.Machine.execBackendData s
  | .cancel => Sys2Proof.Machine.execCancel s
  | .backendReply backend bref rkind status offset data lane => Sys2Proof.Machine.execBackendReply backend bref rkind status offset data s lane
  | .backendConnectionLost backend => Sys2Proof.Machine.execBackendConnectionLost backend s
  | .backendReconnect backend up => Sys2Proof.Machine.execBackendReconnect backend up s
  | .backendCommandTimeout bref => Sys2Proof.Machine.execBackendCommandTimeout bref s
  | .backendQueueIdleClose backend queue => Sys2Proof.Machine.execBackendQueueIdleClose backend queue s
  | .keyLoad unit1 checkBad => Sys2Proof.Machine.execKeyLoad unit1 checkBad s
  | .keyClear unit1 checkBad => Sys2Proof.Machine.execKeyClear unit1 checkBad s
  | .macsecProtect unit1 checkBad => Sys2Proof.Machine.execMacsecProtect unit1 checkBad s
  | .macsecValidate unit1 checkBad => Sys2Proof.Machine.execMacsecValidate unit1 checkBad s
  | .espEncrypt unit1 checkBad => Sys2Proof.Machine.execEspEncrypt unit1 checkBad s
  | .espDecrypt unit1 checkBad => Sys2Proof.Machine.execEspDecrypt unit1 checkBad s
  | .tlsSeal unit1 checkBad => Sys2Proof.Machine.execTlsSeal unit1 checkBad s
  | .tlsOpen unit1 checkBad => Sys2Proof.Machine.execTlsOpen unit1 checkBad s
  | .gcmSeal unit1 checkBad => Sys2Proof.Machine.execGcmSeal unit1 checkBad s
  | .gcmOpen unit1 checkBad => Sys2Proof.Machine.execGcmOpen unit1 checkBad s
  | .compress => Sys2Proof.Machine.execCompress s
  | .decompress => Sys2Proof.Machine.execDecompress s
  | .acceleratorResult unit => Sys2Proof.Machine.execAcceleratorResult unit s
  | .deleteIoSubmissionQueue c => Sys2Proof.Machine.execDeleteIoSubmissionQueue c s
  | .deleteIoCompletionQueue c => Sys2Proof.Machine.execDeleteIoCompletionQueue c s
  | .createIoSubmissionQueue c => Sys2Proof.Machine.execCreateIoSubmissionQueue c s
  | .createIoCompletionQueue c => Sys2Proof.Machine.execCreateIoCompletionQueue c s
  | .getLogPage c => Sys2Proof.Machine.execGetLogPage c s
  | .nvmeIdentify c => Sys2Proof.Machine.execNvmeIdentify c s
  | .nvmeAbort c => Sys2Proof.Machine.execNvmeAbort c s
  | .setFeatures c data => Sys2Proof.Machine.execSetFeatures c data s
  | .getFeatures c => Sys2Proof.Machine.execGetFeatures c s
  | .asynchronousEventRequest c => Sys2Proof.Machine.execAsynchronousEventRequest c s
  | .firmwareCommit c => Sys2Proof.Machine.execFirmwareCommit c s
  | .firmwareImageDownload c data => Sys2Proof.Machine.execFirmwareImageDownload c data s
  | .keepAlive c => Sys2Proof.Machine.execKeepAlive c s
  | .flush c => Sys2Proof.Machine.execFlush c s
  | .nvmeWrite c => Sys2Proof.Machine.execNvmeWrite c s
  | .nvmeRead c => Sys2Proof.Machine.execNvmeRead c s
  | .keepAliveExpiry ctl => Sys2Proof.Machine.execKeepAliveExpiry ctl s
  | .apstTransition ctl => Sys2Proof.Machine.execApstTransition ctl s
  | .powerStateTransitionEnd ctl => Sys2Proof.Machine.execPowerStateTransitionEnd ctl s
  | .patrolTest row weak endsPass => Sys2Proof.Machine.execPatrolTest row weak s endsPass
  | .correctedBurst mac count row weak => Sys2Proof.Machine.execCorrectedBurst mac count row weak s
  | .stressUpdate ws => Sys2Proof.Machine.execStressUpdate ws s
  | .restRotationDue => Sys2Proof.Machine.execRestRotationDue s
  | .yardTestComplete yard pass => Sys2Proof.Machine.execYardTestComplete yard pass s
  | .mirrorComplete yard => Sys2Proof.Machine.execMirrorComplete yard s
  | .yardFaultDetected yard kind => Sys2Proof.Machine.execYardFaultDetected yard kind s
  | .laserBiasCheck lane biasUa tempX16 => Sys2Proof.Machine.execLaserBiasCheck lane biasUa tempX16 s
  | .laserFailure lane => Sys2Proof.Machine.execLaserFailure lane s
  | .electricalLaneReplacement lane => Sys2Proof.Machine.execElectricalLaneReplacement lane s
  | .dramChannelRetirement channel => Sys2Proof.Machine.execDramChannelRetirement channel s
  | .channelMoveComplete => Sys2Proof.Machine.execChannelMoveComplete s
  | .dramChannelUnresponsive channel => Sys2Proof.Machine.execDramChannelUnresponsive channel s
  | .freeListRebuildComplete pool => Sys2Proof.Machine.execFreeListRebuildComplete pool s
  | .mpHeartbeatLoss => Sys2Proof.Machine.execMpHeartbeatLoss s
  | .mpReloadComplete ok => Sys2Proof.Machine.execMpReloadComplete ok s
  | .farrierTakeover missed => Sys2Proof.Machine.execFarrierTakeover missed s
  | .repairUnmanaged => Sys2Proof.Machine.execRepairUnmanaged s
  | .journalAppend torn => Sys2Proof.Machine.execJournalAppend torn s
  | .journalCompaction torn => Sys2Proof.Machine.execJournalCompaction torn s
  | .repairApplied farrierB => Sys2Proof.Machine.execRepairApplied farrierB s
  | .lastResortRepair => Sys2Proof.Machine.execLastResortRepair s
  | .spRelease => Sys2Proof.Machine.execSpRelease s
  | .releaseEvent => Sys2Proof.Machine.execReleaseEvent s
  | .yardRelease => Sys2Proof.Machine.execYardRelease s
  | .builtInTestEnd pass => Sys2Proof.Machine.execBuiltInTestEnd pass s
  | .recoveryWindowExpiry => Sys2Proof.Machine.execRecoveryWindowExpiry s
  | .stackJoin pos tick => Sys2Proof.Machine.execStackJoin pos tick s
  | .tickMarker hops offset pend unwell => Sys2Proof.Machine.execTickMarker hops s offset pend unwell
  | .masterLoss => Sys2Proof.Machine.execMasterLoss s
  | .stackSplit reachable => Sys2Proof.Machine.execStackSplit reachable s
  | .prepare src batch => Sys2Proof.Machine.execPrepare src batch s
  | .go src batch tick => Sys2Proof.Machine.execGo src batch tick s
  | .stackAbandon src batch => Sys2Proof.Machine.execStackAbandon src batch s
  | .prepareTimeout missing => Sys2Proof.Machine.execPrepareTimeout missing s
  | .stackDecisionDeadline => Sys2Proof.Machine.execStackDecisionDeadline s
  | .member src hops lane block frame dst => Sys2Proof.Machine.execMember src hops lane block frame s dst
  | .stage src hops frame hv carries dst entry => Sys2Proof.Machine.execStage src hops frame hv carries s dst entry
  | .smbusReadWord code => Sys2Proof.Machine.execSmbusReadWord code s
  | .alertResponse => Sys2Proof.Machine.execAlertResponse s
  | .setEndpointId eid => Sys2Proof.Machine.execSetEndpointId eid s
  | .getEndpointId => Sys2Proof.Machine.execGetEndpointId s
  | .getMctpVersionSupport => Sys2Proof.Machine.execGetMctpVersionSupport s
  | .getMessageTypeSupport => Sys2Proof.Machine.execGetMessageTypeSupport s
  | .bypass => Sys2Proof.Machine.execBypass s
  | .idcode => Sys2Proof.Machine.execIdcode s
  | .samplePreload bits => Sys2Proof.Machine.execSamplePreload bits s
  | .extest => Sys2Proof.Machine.execExtest s
  | .criek => Sys2Proof.Machine.execCriek s
  | .help m => Sys2Proof.Machine.execHelp m s
  | .id m => Sys2Proof.Machine.execId m s
  | .state m => Sys2Proof.Machine.execState m s
  | .baud m rate => Sys2Proof.Machine.execBaud m rate s
  | .baudSwitch => Sys2Proof.Machine.execBaudSwitch s
  | .quit m => Sys2Proof.Machine.execQuit m s
  | .sessionTimeout => Sys2Proof.Machine.execSessionTimeout s
  | .log m seqFrom count => Sys2Proof.Machine.execLog m seqFrom count s
  | .time m => Sys2Proof.Machine.execTime m s
  | .keyprog m slot ecdsa mldsa => Sys2Proof.Machine.execKeyprog m slot ecdsa mldsa s
  | .revoke m slot confirmed => Sys2Proof.Machine.execRevoke m slot confirmed s
  | .lcadv m confirmed => Sys2Proof.Machine.execLcadv m confirmed s
  | .loadBlock data check => Sys2Proof.Machine.execLoadBlock data check s
  | .loadGapTimeout => Sys2Proof.Machine.execLoadGapTimeout s
  | .release m => Sys2Proof.Machine.execRelease m s
  | .dbg m eng on => Sys2Proof.Machine.execDbg m eng on s
  | .hold m eng thr => Sys2Proof.Machine.execHold m eng thr s
  | .resume m eng thr => Sys2Proof.Machine.execResume m eng thr s
  | .step m eng thr => Sys2Proof.Machine.execStep m eng thr s
  | .kill m eng thr => Sys2Proof.Machine.execKill m eng thr s
  | .regs m eng thr => Sys2Proof.Machine.execRegs m eng thr s
  | .setreg m eng thr reg value => Sys2Proof.Machine.execSetreg m eng thr reg value s
  | .rdmem m eng addr count => Sys2Proof.Machine.execRdmem m eng addr count s
  | .wrmem m eng addr value => Sys2Proof.Machine.execWrmem m eng addr value s
  | .serverChange => Sys2Proof.Machine.execServerChange s
  | .monitorLoad m len => Sys2Proof.Machine.execMonitorLoad m len s
  | .serialLoadLimit => Sys2Proof.Machine.execSerialLoadLimit s
  | .fullDeviceReset => Sys2Proof.Machine.execFullDeviceReset s
  | .backendConnected backend => Sys2Proof.Machine.execBackendConnected backend s
  | .backendKeepAlive backend => Sys2Proof.Machine.execBackendKeepAlive backend s
  | .rdmaCounters => Sys2Proof.Machine.execRdmaCounters s
  | .stressSave => Sys2Proof.Machine.execStressSave s
  | .powerOnHours => Sys2Proof.Machine.execPowerOnHours s
  | .consumedRecompute => Sys2Proof.Machine.execConsumedRecompute s

end Sys2Proof.Machine
end

