-- ==== Sys2Proof/Safety.lean ====
section
/-!
DEFINITION. The words in which claims about the block are said: when a command can act, what stays unchanged, and the invariants of the state.
-/

namespace Sys2Proof.Machine

/-! ### Invariants -/

/-- DRAM and host memory keep their one canonical form: addresses strictly rising, and no byte listed that reads as an unlisted one does. -/
def State.MemoriesCanonical (s : State) : Prop := FMap.wf 0 s.dram = true ∧ FMap.wf 0 s.hostMem = true

/-- The tick period is one of R17's five, the gate constant lies in the range of R19, and a pending period is legal too. -/
def State.LegalTime (s : State) : Prop :=
  s.time.period < 5 ∧ 218 ≤ s.time.gate ∧ s.time.gate ≤ 248 ∧ ∀ p, s.time.pendPeriod = some p → p.1 < 5

/-! ### Engines -/

/-- A context issues an instruction in cycle `c`, which leaves the lending pointer at `lend`, and its fetch is good (R36, R63): the context is READY
in an active yard, in a phase that allows it, and has a cycle before its bound; the pc lies in the instruction window; the bank's check holds. -/
def State.Issues (s : State) (i : Issue) (c lend : Nat) : Prop :=
  s.issueAt i.eng.val i.thr.val = some (c, lend) ∧ (s.thr i.eng.val i.thr.val).pc.toNat % 2 = 0 ∧
    (s.thr i.eng.val i.thr.val).pc.toNat < 0x4000 ∧ (i.compressed = true ∨ (s.thr i.eng.val i.thr.val).pc.toNat ≠ 0x3FFE) ∧ i.fetchBad = false ∧
    (s.thr i.eng.val i.thr.val).stepping = false

/-- The context that issues. -/
def State.running (s : State) (i : Issue) : Thread := s.thr i.eng.val i.thr.val

/-- The context `t` after its issue in cycle `c`: the cycle is charged to it, and the result that it was owed has come. -/
def Thread.charge (t : Thread) (c : Nat) : Thread := { t with charged := t.charged + 1, ready := c + 1, owed := false }

/-- The context `t` once an instruction of it that issued in cycle `c` with a latency has been retired. -/
def Thread.done (t : Thread) (i : Issue) (c lat : Nat) : Thread :=
  { t.charge c with instret := t.instret + 1, pc := t.pc + (if i.compressed then 2 else 4), ready := c + lat }

/-- Nothing but the Erg's engines differs. -/
def State.SameButEngines (s t : State) : Prop := t = { s with erg := { s.erg with engines := t.erg.engines } }

/-- The one context that `s` and `t` differ in is context `k` of engine `pe`, which is `th` in `t`; the engine has counted its issue cycle. Every
other context, engine and piece of state is the same. -/
def State.OnlyContext (s t : State) (pe k : Nat) (th : Thread) : Prop :=
  s.SameButEngines t ∧ (∀ pe', pe' ≠ pe → t.eng pe' = s.eng pe') ∧ (∀ k', k' ≠ k → t.thr pe k' = s.thr pe k') ∧ t.thr pe k = th ∧
    { t.eng pe with threads := [], cyc := 0, lend := 0 } = { s.eng pe with threads := [], cyc := 0, lend := 0 }

/-! ### Mbadel -/

/-- The device states that serve an Mbadel group (R13): RUNNING and DEGRADED all of them; TESTING identity, tables and events; RECOVERING those and
maintenance groups; REPAIR_UNMANAGED all but the rows that need a Farrier. -/
def Serves (state group : Nat) (farrier : Bool) : Prop :=
  state = 2 ∨ state = 3 ∨ (state = 1 ∧ group ∈ [0x01, 0x04, 0x0E]) ∨ (state = 4 ∧ group ∈ [0x01, 0x09, 0x0C, 0x0D, 0x0E]) ∨ (state = 5 ∧ farrier = false)

/-- A block whose message is the oldest that has been taken and not started, which the firmware has read and which passes the first three steps
of R229: its OPCODE is one that the manual gives, and the device state at its take serves its group. -/
def State.Taken (s : State) (h : MbHdr) (r : CmdRow) (ptr len : Nat) : Prop :=
  FMap.get none s.mbadel.taken h.hm.val = some (ptr, len) ∧ s.mbadel.order.head? = some h.hm.val ∧ h.readStatus = 0 ∧ ptr % 64 = 0 ∧
    h.length = len ∧ 64 ≤ len ∧ s.boot.recoveryPers = false ∧ s.boot.window = false ∧ (h.v2 = false ∨ r.hivia = true) ∧
    (∀ o, h.opcode = some o → implemented o = true) ∧ Serves (FMap.get 0 s.mbadel.takenState h.hm.val) (r.opcode / 256) r.farrier

/-- A block of a command that is to act, not only to be checked, with room for `need` bytes of payload and result. -/
def State.Acts (s : State) (h : MbHdr) (r : CmdRow) (ptr len need : Nat) : Prop := s.Taken h r ptr len ∧ h.checkOnly = false ∧ 64 + need ≤ len

/-- The state in which a taken block is judged. -/
def State.read (s : State) (h : MbHdr) (r : CmdRow) (ptr : Nat) : State := s.consume h.hm.val ptr r.opcode

/-- A command ends OK with its result: it is written in its block and the notice is posted (R225, R226; `writeResult`). -/
def State.finish (s : State) (h : MbHdr) (ptr len : Nat) (res : List Byte) : State := s.writeResult h.hm.val ptr len h.v2 vOk res res.length

end Sys2Proof.Machine
end

