-- ==== Sys2Proof/Certificates/Slice0/Obligations.lean ====
section
/-!
DEFINITION. The statements for the provers. `Claims` holds the words that they are said in.
-/

open Sys2Proof Sys2Proof.Machine

/-! ### Engines: integer, multiply, divide and word instructions -/

/-- The result `v` of an integer operation of RV32I on `a` and `b` (R35, R36), said over the numbers that the words hold. -/
def Claims.AluResult (op : AluOp) (a b v : Word) : Prop :=
  match op with
  | .add => v.toNat = (a.toNat + b.toNat) % 2 ^ 32
  | .sub => (v.toNat + b.toNat) % 2 ^ 32 = a.toNat
  | .sll => v.toNat = a.toNat * 2 ^ (b.toNat % 32) % 2 ^ 32
  | .slt => (a.toInt < b.toInt → v = 1) ∧ (b.toInt ≤ a.toInt → v = 0)
  | .sltu => (a.toNat < b.toNat → v = 1) ∧ (b.toNat ≤ a.toNat → v = 0)
  | .xor => ∀ j, v.getLsbD j = (a.getLsbD j != b.getLsbD j)
  | .srl => v.toNat = a.toNat / 2 ^ (b.toNat % 32)
  | .sra => v.toInt = a.toInt / 2 ^ (b.toNat % 32)
  | .or => ∀ j, v.getLsbD j = (a.getLsbD j || b.getLsbD j)
  | .and => ∀ j, v.getLsbD j = (a.getLsbD j && b.getLsbD j)

/-- The result `v` of a multiplication of the M extension. -/
def Claims.MulResult (op : MulOp) (a b v : Word) : Prop :=
  match op with
  | .mul => v.toNat = a.toNat * b.toNat % 2 ^ 32
  | .mulh => v.toInt = a.toInt * b.toInt / 2 ^ 32
  | .mulhsu => v.toInt = a.toInt * (b.toNat : Int) / 2 ^ 32
  | .mulhu => v.toNat = a.toNat * b.toNat / 2 ^ 32

/-- The result `v` of a division of the M extension: by zero a quotient of all ones and a remainder equal to the dividend; the one signed overflow
gives the dividend and 0. -/
def Claims.DivResult (op : DivOp) (a b v : Word) : Prop :=
  match op with
  | .div => (b = 0 → v = 0xFFFFFFFF) ∧ (b ≠ 0 → a = 0x80000000 → b = 0xFFFFFFFF → v = 0x80000000) ∧
      (b ≠ 0 → ¬ (a = 0x80000000 ∧ b = 0xFFFFFFFF) → v.toInt = a.toInt.tdiv b.toInt)
  | .divu => (b = 0 → v = 0xFFFFFFFF) ∧ (b ≠ 0 → v.toNat = a.toNat / b.toNat)
  | .rem => (b = 0 → v = a) ∧ (b ≠ 0 → v.toInt = a.toInt.tmod b.toInt)
  | .remu => (b = 0 → v = a) ∧ (b ≠ 0 → v.toNat = a.toNat % b.toNat)

/-- Byte `j` of a word. -/
def Claims.byteOf (w : Word) (j : Nat) : Byte := w.extractLsb' (8 * j) 8

/-- O1. The integer, multiply, divide and word instructions (R35, R36, R50): each writes its result to `rd`, is retired with the latency of R36, and
changes nothing but its context; x0 keeps its 0. -/
def Obligations.ComputingInstructionsWriteOneRegister : Prop :=
  ∀ (s : State) (i : Issue) (c lend : Nat), s.Issues i c lend → ∀ rd rs1 rs2 : Fin 32,
    let x := s.running i
    let a := x.reg rs1.val
    let b := x.reg rs2.val
    let writes := fun (e : Instr) (lat : Nat) (v : Word) =>
      ∃ t, exec e s = .next t ∧ s.OnlyContext t i.eng.val i.thr.val ((x.done i c lat).setReg rd.val v)
    (∀ op, ∃ v, Claims.AluResult op a b v ∧ writes (.integerOp i op rd rs1 (.reg rs2)) 1 v) ∧
    (∀ op (imm : BitVec 12), ∃ v, Claims.AluResult op a (imm.signExtend 32) v ∧ writes (.integerOp i op rd rs1 (.imm imm)) 1 v) ∧
    (∀ imm : BitVec 20, ∃ v : Word, v.toNat = imm.toNat * 4096 ∧ writes (.lui i rd imm) 1 v) ∧
    (∀ imm : BitVec 20, ∃ v : Word, v.toNat = (x.pc.toNat + imm.toNat * 4096) % 2 ^ 32 ∧ writes (.auipc i rd imm) 1 v) ∧
    (∀ op, ∃ v, Claims.MulResult op a b v ∧ writes (.mul i op rd rs1 rs2) 3 v) ∧
    (∀ op, ∃ v, Claims.DivResult op a b v ∧ writes (.div i op rd rs1 rs2) 34 v) ∧
    writes (.crc32c i rd rs1 rs2) 1 (crc a [Claims.byteOf b 0, Claims.byteOf b 1, Claims.byteOf b 2, Claims.byteOf b 3]) ∧
    (∃ v, (∀ j, j < 4 → Claims.byteOf v j = Claims.byteOf a (3 - j)) ∧ writes (.bswap i rd rs1) 1 v) ∧
    (∃ v : Word, (let sum := a.toNat % 65536 + b.toNat % 65536 + a.toNat / 65536 + b.toNat / 65536
        v.toNat < 65536 ∧ v.toNat % 65535 = sum % 65535 ∧ (v = 0 ↔ sum = 0)) ∧ writes (.csum16 i rd rs1 rs2) 1 v)

/-! ### Engines: control, and the instructions that end or hold a context -/

/-- Whether a branch condition of RV32I holds of two words. -/
def Claims.Branches (c : BrCond) (a b : Word) : Prop :=
  match c with
  | .eq => a = b
  | .ne => a ≠ b
  | .lt => a.toInt < b.toInt
  | .ge => b.toInt ≤ a.toInt
  | .ltu => a.toNat < b.toNat
  | .geu => b.toNat ≤ a.toNat

/-- O2. Branches, jumps and FENCE (R36, R37): a taken branch or a jump goes to its target with latency 3, a branch that is not taken goes on with
latency 1, a jump leaves its link in `rd`; nothing but the context changes. FENCE waits for a time that is free and changes nothing else but that a
free value was used. -/
def Obligations.ControlTransfersSetThePc : Prop :=
  ∀ (s : State) (i : Issue) (c lend : Nat), s.Issues i c lend → ∀ rd rs1 rs2 : Fin 32,
    let x := s.running i
    let goes := fun (e : Instr) (lat : Nat) (pc : Word) (f : Thread → Thread) =>
      ∃ t, exec e s = .next t ∧ s.OnlyContext t i.eng.val i.thr.val { f (x.done i c lat) with pc := pc }
    let next := x.pc + (if i.compressed then 2 else 4)
    (∀ (cond : BrCond) (off : BitVec 13),
      (Claims.Branches cond (x.reg rs1.val) (x.reg rs2.val) → goes (.branch i cond rs1 rs2 off) 3 (x.pc + off.signExtend 32) id) ∧
      (¬ Claims.Branches cond (x.reg rs1.val) (x.reg rs2.val) → goes (.branch i cond rs1 rs2 off) 1 next id)) ∧
    (∀ off : BitVec 21, goes (.jal i rd off) 3 (x.pc + off.signExtend 32) (fun t => t.setReg rd.val next)) ∧
    (∀ imm : BitVec 12, ∃ pc : Word, pc.toNat = (x.reg rs1.val + imm.signExtend 32).toNat / 2 * 2 ∧
      goes (.jalr i rd rs1 imm) 3 pc (fun t => t.setReg rd.val next)) ∧
    (∃ t n, exec (.fence i) s = .next t ∧ s.tickFree.OnlyContext t i.eng.val i.thr.val (x.done i c (1 + n)))

/-- O3. The instructions that end or hold their context (R37, R38, R50, R60, R86): YIELDT ends the item with its status; ECALL and EBREAK raise causes
0x09 and 0x08, EBREAK holding a worker instead where DBGEN and the lifecycle let it; FENCE.I, WFI and a word that no row of RV32IMC or of R49's table lists raise
ILLEGAL with the word, and any other word runs as the instruction that it spells, as R49's two worked examples do. What a fault leaves is O60. -/
def Obligations.EndingInstructionsEndOrHold : Prop :=
  ∀ (s : State) (i : Issue) (c lend : Nat), s.Issues i c lend →
    let pe := i.eng.val
    let k := i.thr.val
    let s1 := s.takeCycle pe k c lend
    let x := s.running i
    (∀ rs1 : Fin 32, exec (.yieldt i rs1) s =
      .next ((s1.modThr pe k (fun t => { t with instret := t.instret + 1 })).yieldItem pe k (Claims.byteOf (x.reg rs1.val) 0))) ∧
    exec (.ecall i) s = .next (s1.faultFree pe k 9) ∧
    (k = 0 ∨ (s.eng pe).dbgen = false ∨ s.debugAllowed (pe / 32) = false → exec (.ebreak i) s = .next (s1.faultFree pe k 8)) ∧
    (k ≠ 0 → (s.eng pe).dbgen = true → s.debugAllowed (pe / 32) = true → exec (.ebreak i) s = .next (s1.holdThread pe k 8)) ∧
    exec (.fenceI i) s = .next (s1.fault pe k 1 0x0000100F) ∧ exec (.wfi i) s = .next (s1.fault pe k 1 0x10500073) ∧
    (∀ w, decodeErg w.toNat = none → exec (.illegalEncoding i w) s = .next (s1.fault pe k 1 w)) ∧
    decodeErg 0x00000000 = none ∧ decodeErg 0x0415850B = none ∧
    (let wide := { i with compressed := false }
     let short := { i with compressed := true }
     exec (.illegalEncoding i 0x007302AB) s = exec (.saadd wide 5 6 7 false) s ∧ exec (.illegalEncoding i 0x0005000B) s = exec (.yieldt wide 10) s ∧
     exec (.illegalEncoding i 0x0405850B) s = exec (.join wide 10 11) s ∧ exec (.illegalEncoding i 0x4052D2B3) s = exec (.integerOp wide .sra 5 5 (.reg 5)) s ∧
     exec (.illegalEncoding i 0x00812303) s = exec (.load wide .w 6 2 8 false) s ∧
     exec (.illegalEncoding i 0x00000285) s = exec (.integerOp short .add 5 5 (.imm 1)) s)

/-! ### Engines: loads, stores and atomics -/

/-- The shared-store word of the engine's yard at an address. -/
def Claims.sharedWord (s : State) (pe a : Nat) : Word := BitVec.ofNat 32 (Mem.rdLe (s.yard (pe / 32)).shared a 4)

/-- O4. Loads, stores and the atomics of the shared store (R36, R42 to R44, R50, R55, R495). Where the address lies in a region and its check holds, a
load writes the bytes of the place, extended, to `rd`; a store writes the low bytes of `rs2` at the place and nothing else (O54 says what a write of
bytes leaves); an atomic writes the old word to `rd` and the new one to the shared store. A misaligned address raises cause 2 and one outside the
regions cause 3, before any effect. -/
def Obligations.MemoryInstructionsAccessTheirPlace : Prop :=
  ∀ (s : State) (i : Issue) (c lend : Nat), s.Issues i c lend → ∀ rd rs1 rs2 : Fin 32,
    let pe := i.eng.val
    let k := i.thr.val
    let s1 := s.takeCycle pe k c lend
    let x := s.running i
    let next := x.pc + (if i.compressed then 2 else 4)
    (∀ (w : LdW) (imm : BitVec 12) (chk : Bool), let a := x.reg rs1.val + imm.signExtend 32
      (∀ cause, s.locate pe k a.toNat (ldSize w) = .bad cause → exec (.load i w rd rs1 imm chk) s = .next (s1.fault pe k cause a)) ∧
      (∀ p, s.locate pe k a.toNat (ldSize w) = p → (∀ cause, p ≠ .bad cause) → (chk = false ∨ s.checked pe p = false) →
        ∃ t, exec (.load i w rd rs1 imm chk) s = .next t ∧ (s.loadLat p).2.OnlyContext t pe k
          { (x.done i c (s.loadLat p).1).setReg rd.val (ldExtend w (s.readPlace pe k p (ldSize w))) with owed := true })) ∧
    (∀ (w : StW) (imm : BitVec 12) (chk : Bool), let a := x.reg rs1.val + imm.signExtend 32
      (∀ cause, s.locate pe k a.toNat (stSize w) = .bad cause → exec (.store i w rs1 rs2 imm chk) s = .next (s1.fault pe k cause a)) ∧
      (∀ p, s.locate pe k a.toNat (stSize w) = p → (∀ cause, p ≠ .bad cause) → (chk = false ∨ s.checked pe p = false) →
        exec (.store i w rs1 rs2 imm chk) s =
          .next ((s1.writePlace pe k p (leBytes (stSize w) (x.reg rs2.val).toNat)).retire i c (storeLat p) next id))) ∧
    (∀ chk : Bool, let a := x.reg rs1.val
      let b := x.reg rs2.val
      let old := Claims.sharedWord s pe a.toNat
      let free := chk = false ∨ (s.yard (pe / 32)).boundary ≤ a.toNat
      let swaps := fun (e : Instr) (new : Word) => exec e s =
        .next ((s1.writePlace pe k (.shared a.toNat) (leBytes 4 new.toNat)).retire i c 14 next (fun t => { t.setReg rd.val old with owed := true }))
      (a.toNat % 4 = 0 → 0x100000 ≤ a.toNat → a.toNat < 0x300000 → free →
        swaps (.saadd i rd rs1 rs2 chk) (old + b) ∧ swaps (.saswap i rd rs1 rs2 chk) b ∧
        swaps (.sacas i rd rs1 rs2 chk) (if old = x.reg rd.val then b else old) ∧
        swaps (.samin i rd rs1 rs2 chk) (if b.toInt < old.toInt then b else old) ∧
        swaps (.samax i rd rs1 rs2 chk) (if old.toInt < b.toInt then b else old) ∧
        swaps (.saand i rd rs1 rs2 chk) (old &&& b) ∧ swaps (.saor i rd rs1 rs2 chk) (old ||| b) ∧ swaps (.saxor i rd rs1 rs2 chk) (old ^^^ b)) ∧
      (a.toNat % 8 = 0 → 0x100000 ≤ a.toNat → a.toNat < 0x300000 → free → exec (.sainc64 i rs1 rs2 chk) s =
        .next ((s1.writePlace pe k (.shared a.toNat) (leBytes 8 (Mem.rdLe (s.yard (pe / 32)).shared a.toNat 8 + b.toNat))).retire i c 1 next id)) ∧
      (∀ e ∈ [Instr.saadd i rd rs1 rs2 chk, .saswap i rd rs1 rs2 chk, .sacas i rd rs1 rs2 chk, .samin i rd rs1 rs2 chk, .samax i rd rs1 rs2 chk,
          .saand i rd rs1 rs2 chk, .saor i rd rs1 rs2 chk, .saxor i rd rs1 rs2 chk],
        (a.toNat % 4 ≠ 0 → exec e s = .next (s1.fault pe k 2 a)) ∧
        (a.toNat % 4 = 0 → a.toNat < 0x100000 ∨ 0x300000 ≤ a.toNat → exec e s = .next (s1.fault pe k 3 a))))

/-! ### Engines: control and status registers -/

/-- The value that a CSR instruction writes (RV32I Zicsr): its source, the old value with the source's bits set, or with them cleared. -/
def Claims.csrWritten (form : CsrForm) (old src : Word) : Word :=
  match form with
  | .rw => src
  | .rs => old ||| src
  | .rc => old &&& ~~~src

/-- Whether a CSR instruction writes: the set and clear forms do not when their source is x0 or the immediate 0. -/
def Claims.CsrWrites (form : CsrForm) (src : CsrSrc) : Prop := form = .rw ∨ (src ≠ .reg 0 ∧ src ≠ .uimm 0)

/-- The source's value. -/
def Claims.csrSource (x : Thread) (src : CsrSrc) : Word := match src with | .reg r => x.reg r.val | .uimm v => v.zeroExtend 32

/-- O5. CSR instructions (R39, R44, R65, R66, R79, R80). A read writes the register's value to `rd` with latency 2 and changes nothing but the
context; a read of sxstale clears it. A CSR that is absent, and a write to a read-only one, raise ILLEGAL, and a worker's write raises GROOM_ONLY.
T0's write to sxdwin, sxslotlo, sxslothi or sxgctl takes effect: the slot registers from the next cycle count that is a multiple of 16, DBGEN as the
lifecycle lets it, DISMISS, OVF and ENDMASK as R79, R80 and R84 state. -/
def Obligations.CsrInstructionsReadAndWrite : Prop :=
  ∀ (s : State) (i : Issue) (c lend : Nat), s.Issues i c lend → ∀ (rd : Fin 32) (form : CsrForm) (src : CsrSrc),
    let pe := i.eng.val
    let k := i.thr.val
    let s1 := s.takeCycle pe k c lend
    let x := s.running i
    let now := s.engBase pe + c
    (∀ (csr : BitVec 12) (v : Nat), s1.csrRead pe k c csr.toNat = some v → csr ≠ 0xFC7 → ¬ Claims.CsrWrites form src →
      ∃ t, exec (.csrWrite i form csr src rd) s = .next t ∧ s.OnlyContext t pe k ((x.done i c 2).setReg rd.val (BitVec.ofNat 32 v))) ∧
    (∃ t, exec (.sxstaleRead i rd) s = .next t ∧ (t.eng pe).stale = 0 ∧ t.thr pe k = (x.done i c 2).setReg rd.val (s.eng pe).stale ∧
      (∀ pe', pe' ≠ pe → t.eng pe' = s.eng pe') ∧ (∀ k', k' ≠ k → t.thr pe k' = s.thr pe k') ∧ s.SameButEngines t) ∧
    (∀ csr : BitVec 12, (s1.csrRead pe k c csr.toNat = none ∨ (Claims.CsrWrites form src ∧ csr ∉ [0x7C0#12, 0x7C1#12, 0x7C2#12, 0x7C3#12])) →
      exec (.csrWrite i form csr src rd) s = .next (s1.fault pe k 1 (csrWord form csr.toNat src rd.val))) ∧
    (Claims.CsrWrites form src → k ≠ 0 → ∀ e ∈ [Instr.csrWrite i form 0x7C0 src rd, .sxdwinWrite i form src rd, .sxslotWrite i false form src rd,
        .sxslotWrite i true form src rd, .dbgenWrite i form src rd, .dismiss i form src rd, .ovfClear i form src rd, .endmask i form src rd],
      exec e s = .next (s1.faultFree pe k 4)) ∧
    (Claims.CsrWrites form src → k = 0 →
      let y := Claims.csrSource x src
      let others := fun (t : State) => (∀ pe', pe' ≠ pe → t.eng pe' = s.eng pe') ∧ (∀ k', k' ≠ k → t.thr pe k' = s.thr pe k') ∧ s.SameButEngines t
      (∃ t, exec (.sxdwinWrite i form src rd) s = .next t ∧ (t.eng pe).dwin = Claims.csrWritten form (s.eng pe).dwin y ∧
        t.thr pe k = (x.done i c 2).setReg rd.val (s.eng pe).dwin ∧ others t) ∧
      (∃ t, exec (.sxslotWrite i false form src rd) s = .next t ∧ (t.eng pe).slotLo = Claims.csrWritten form (s.eng pe).slotLo y &&& 0x3FFFFFF8 ∧
        now < (t.eng pe).slotFrom ∧ (t.eng pe).slotFrom ≤ now + 16 ∧ (t.eng pe).slotFrom % 16 = 0 ∧
        t.thr pe k = (x.done i c 2).setReg rd.val (s.eng pe).slotLo ∧ others t) ∧
      (∃ t, exec (.sxslotWrite i true form src rd) s = .next t ∧ (t.eng pe).slotHi = Claims.csrWritten form (s.eng pe).slotHi y &&& 0x3FFFF ∧
        now < (t.eng pe).slotFrom ∧ (t.eng pe).slotFrom ≤ now + 16 ∧ (t.eng pe).slotFrom % 16 = 0 ∧
        t.thr pe k = (x.done i c 2).setReg rd.val (s.eng pe).slotHi ∧ others t) ∧
      (let old := BitVec.ofNat 32 (s1.eng pe).sxgctl
       let v := Claims.csrWritten form old y
       let status := v.toNat / 65536 % 256
       ∀ e ∈ [Instr.dbgenWrite i form src rd, .dismiss i form src rd, .ovfClear i form src rd, .endmask i form src rd],
        ∃ t u, exec e s = .next t ∧ (∀ pe', pe' ≠ pe → u.eng pe' = s.eng pe') ∧ s.SameButEngines u ∧
          u.thr pe k = (x.done i c 2).setReg rd.val old ∧
          (u.eng pe).dbgen = (v.getLsbD 0 && ((s.eng pe).dbgen || s.debugAllowed (pe / 32))) ∧ (u.eng pe).mwauto = v.getLsbD 1 ∧
          (u.eng pe).ovf = ((s.eng pe).ovf && !v.getLsbD 3) ∧
          (∀ j, 1 ≤ j → j < 8 → (s.thr pe j).st ≠ .free → (u.thr pe j).mw = (!v.getLsbD 2 && (s.thr pe j).mw)) ∧
          (status = 0 ∨ status = 0x0C ∨ 0x12 ≤ status → t = u) ∧
          (status ≠ 0 → status ≠ 0x0C → status < 0x12 → t = [1, 2, 3, 4, 5, 6, 7].foldl (fun (w : State) (j : Nat) =>
            if v.getLsbD (7 + j) = true ∧ (w.thr pe j).st ≠ .free ∧ (w.thr pe j).held = false then w.endOther pe j (BitVec.ofNat 8 status) false else w) u)))

/-! ### Engines: forks and joins, grooms -/

/-- The named threads of a JOIN by context `k`: T1 to T7 in the mask, its own bit ignored (R50, R69). -/
def Claims.Named (k : Nat) (mask : Nat) (d : Nat) : Prop := 1 ≤ d ∧ d < 8 ∧ d ≠ k ∧ mask / 2 ^ d % 2 = 1

/-- `v` is what JOIN returns once every named thread has ended: the kept status of the lowest-numbered one whose status is not 0, else 0. -/
def Claims.JoinResult (s : State) (pe k mask : Nat) (v : Word) : Prop :=
  (∀ d, Claims.Named k mask d → (s.thr pe d).st = .free) ∧
    ((v = 0 ∧ ∀ d, Claims.Named k mask d → (s.thr pe d).kept = 0) ∨
     ∃ d, Claims.Named k mask d ∧ (s.thr pe d).kept ≠ 0 ∧ v = (s.thr pe d).kept.zeroExtend 32 ∧
       ∀ d', Claims.Named k mask d' → d' < d → (s.thr pe d').kept = 0)

/-- O6. FORK and JOIN, the unblocking of a JOIN, the start of a groom and the report of a mutual wait (R46, R50, R67 to R69, R77, R82 to R85). FORK
takes the lowest FREE worker, which starts at `rs1` with `rs2` in a0, its parent in a1 and its own stack; without a FREE one it returns 0. JOIN
returns the first status that is not 0 of the ended threads, or blocks. T0 starts when it is FREE and has something to read. A yard whose live workers
all wait is reported to the groom of each of its engines. -/
def Obligations.ForksJoinsAndGroomsRun : Prop :=
  (∀ (s : State) (i : Issue) (c lend : Nat), s.Issues i c lend → ∀ rd rs1 rs2 : Fin 32,
    let pe := i.eng.val
    let k := i.thr.val
    let s1 := s.takeCycle pe k c lend
    let x := s.running i
    let pc := x.reg rs1.val
    (k = 0 → exec (.fork i rd rs1 rs2) s = .next (s1.fault pe k 1 (rType 0x0B 0 1 rd.val rs1.val rs2.val)) ∧
      exec (.join i rd rs1) s = .next (s1.fault pe k 1 (rType 0x0B 0 2 rd.val rs1.val 0))) ∧
    (k ≠ 0 → pc.toNat % 2 = 1 → exec (.fork i rd rs1 rs2) s = .next (s1.fault pe k 2 pc)) ∧
    (k ≠ 0 → pc.toNat % 2 = 0 → 0x4000 ≤ pc.toNat → exec (.fork i rd rs1 rs2) s = .next (s1.fault pe k 3 pc)) ∧
    (k ≠ 0 → pc.toNat % 2 = 0 → pc.toNat < 0x4000 → (∀ d, 1 ≤ d → d < 8 → (s.thr pe d).st ≠ .free) →
      ∃ t, exec (.fork i rd rs1 rs2) s = .next t ∧ s.OnlyContext t pe k ((x.done i c 2).setReg rd.val 0)) ∧
    (k ≠ 0 → pc.toNat % 2 = 0 → pc.toNat < 0x4000 → ∀ d, 1 ≤ d → d < 8 → (s.thr pe d).st = .free → (∀ d', 1 ≤ d' → d' < d → (s.thr pe d').st ≠ .free) →
      ∃ t, exec (.fork i rd rs1 rs2) s = .next t ∧ t.thr pe k = (x.done i c 2).setReg rd.val (BitVec.ofNat 32 d) ∧
        (t.thr pe d).st = .run ∧ (t.thr pe d).pc = pc ∧ (t.thr pe d).parent = some k ∧ (t.thr pe d).reg 10 = x.reg rs2.val ∧
        (t.thr pe d).reg 11 = BitVec.ofNat 32 k ∧
        (t.thr pe d).reg 2 = (s.eng pe).bank.stackBase + BitVec.ofNat 32 ((d + 1) * (s.eng pe).bank.stackSize) ∧
        (∀ k', k' ≠ k → k' ≠ d → t.thr pe k' = s.thr pe k') ∧ (∀ pe', pe' ≠ pe → t.eng pe' = s.eng pe')) ∧
    (k ≠ 0 → pc.toNat % 2 = 0 → pc.toNat < 256 → ∀ v, Claims.JoinResult s pe k pc.toNat v →
      ∃ t, exec (.join i rd rs1) s = .next t ∧ s.OnlyContext t pe k ((x.done i c 1).setReg rd.val v)) ∧
    (k ≠ 0 → pc.toNat % 2 = 0 → pc.toNat < 256 → (∃ d, Claims.Named k pc.toNat d ∧ (s.thr pe d).st ≠ .free) →
      exec (.join i rd rs1) s =
        .next ((s1.modThr pe k (fun t => { t with st := .join, blk := .join (BitVec.ofNat 8 pc.toNat) rd.val })).moved pe k))) ∧
  (∀ (s : State) (eng : Fin 1088) (thr : Fin 8) (mask : Byte) (rd : Nat) (v : Word), (s.thr eng.val thr.val).st = .join →
    (s.thr eng.val thr.val).blk = .join mask rd → Claims.JoinResult s eng.val thr.val mask.toNat v →
    exec (.joinUnblock eng thr) s = .next (s.unblock eng.val thr.val 1 (fun t => t.setReg rd v))) ∧
  (∀ (s : State) (eng : Fin 1088), s.engActive eng.val = true → (s.thr eng.val 0).st = .free → s.time.phase ≠ .turn →
    (s.eng eng.val).bank.program ≠ 0 → ((s.eng eng.val).faultCh ≠ [] ∨ (s.mb (mbToGroom (s.leng eng.val))).full = true) →
    ∃ t, exec (.groomStart eng) s = .next t ∧ (t.thr eng.val 0).st = .run ∧
      (t.thr eng.val 0).pc = ((s.eng eng.val).bank.entries.getD 0 0).zeroExtend 32 ∧ (t.thr eng.val 0).reg 10 = 0x17000 ∧
      (t.thr eng.val 0).reg 11 = BitVec.ofNat 32 (s.eng eng.val).faultWords ∧ (∀ k, k ≠ 0 → t.thr eng.val k = s.thr eng.val k) ∧
      (t.eng eng.val).store = Mem.wrN (s.eng eng.val).store 0x17000 (leBytes 8 s.time.number ++
        leBytes 4 ((if (s.eng eng.val).faultCh = [] then 0 else 1) + (if (s.mb (mbToGroom (s.leng eng.val))).full = true then 2 else 0)))) ∧
  (∀ (s : State) (yard : Fin 34), (s.logicalYard yard.val).isSome = true → s.time.phase = .work → s.liveSet yard.val ≠ [] →
    (∀ p ∈ s.liveSet yard.val, (s.thr p.1 p.2).held = false ∧
      ((∃ ch rd, (s.thr p.1 p.2).st = .recv ∧ (s.thr p.1 p.2).blk = .recv ch rd ∧ (s.thr p.1 p.2).chan ch = []) ∨
       ∃ mask rd d, (s.thr p.1 p.2).st = .join ∧ (s.thr p.1 p.2).blk = .join mask rd ∧ Claims.Named p.2 mask.toNat d ∧ (s.thr p.1 d).st ≠ .free)) →
    s.inFlightTo ((s.logicalYard yard.val).getD 0) = false → (s.yard yard.val).reported = false →
    let pes := (yardEngines yard.val).filter (fun pe => !(s.eng pe).live.isEmpty)
    let s1 := s.setYard yard.val { s.yard yard.val with setNo := (s.yard yard.val).setNo + 1, reported := true }
    exec (.mutualWaitReport yard) s =
      .next (pes.foldl (State.reportWait ((pes.map (fun pe => 2 ^ (pe % 32))).foldl (· + ·) 0) ((s.yard yard.val).setNo + 1).toNat
        (s.liveSet yard.val).length) s1))

/-! ### Engines: channels -/

/-- What a send leaves of the open message and the send buffer (R72): the word joins the open message, which the first word opens with the address
and the item's tick; CHSENDL or the sixteenth word commits it. -/
def Claims.Sends (x y : Thread) (tick : Nat) (a w : Word) (last : Bool) : Prop :=
  ∃ m : Msg, m.words = (match x.openMsg with | some o => o.words | none => []) ++ [w] ∧
    m.dst = (match x.openMsg with | some o => o.dst | none => a) ∧ m.stamp = (match x.openMsg with | some o => o.stamp | none => tick) ∧
    (last = true ∨ 16 ≤ m.words.length → y = { x with openMsg := none, sendq := x.sendq ++ [m] }) ∧
    (last = false → m.words.length < 16 → y = { x with openMsg := some m })

/-- The messages of a worker's channel that are not stale for an item of tick `now` (R76): those at the head with an older stamp go. -/
def Claims.fresh (now : Nat) (ms : List RxMsg) : List RxMsg := ms.dropWhile (fun m => decide (m.msg.stamp < now))

/-- The channel's messages after its first word, `w`, has been read (R75): a message read to its end leaves. -/
def Claims.Reads (ms : List RxMsg) (w : Word) (left : List RxMsg) : Prop :=
  ∃ m rest, ms = m :: rest ∧ m.msg.words[m.read]? = some w ∧
    left = (if m.read + 1 = m.msg.words.length then rest else { m with read := m.read + 1 } :: rest)

/-- O7. Sending and receiving (R50, R70 to R76, R78). A word joins the open message when the 32-word send buffer has room and else blocks its thread;
a message moves when its receiving channel has credit for all of it. A worker's receive or poll first discards stale messages, counting them in
sxstale; a receive takes the next word or blocks, and one whose channel brought only stale messages is READY again (R60). A message whose address or stamp fails
its parity goes to sxstale (R365). A channel address that names none raises CHANNEL, and T0 may not send. -/
def Obligations.ChannelInstructionsMoveWords : Prop :=
  (∀ (s : State) (i : Issue) (c lend : Nat), s.Issues i c lend → ∀ (it : Item) (rd rs1 rs2 : Fin 32) (last : Bool),
    let pe := i.eng.val
    let k := i.thr.val
    let s1 := s.takeCycle pe k c lend
    let x := s.running i
    let a := x.reg rs1.val
    let ch := a.toNat % 4
    let send := if last = true then Instr.chsendl i rs1 rs2 else Instr.chsend i rs1 rs2
    let kept := fun (ms : List RxMsg) => { x.charge c with rx := FMap.set [] x.rx ch ms }
    let gone := (x.chan ch).length - (Claims.fresh it.tick (x.chan ch)).length
    (s.eng pe).itemOf k = some it →
    (k = 0 → exec send s = .next (s1.fault pe k 1 (rType 0x0B 1 (if last = true then 1 else 0) 0 rs1.val rs2.val))) ∧
    (k ≠ 0 → x.openMsg = none → (32768 ≤ a.toNat ∨ a.toNat / 4 % 8 = 0) → exec send s = .next (s1.faultFree pe k 5)) ∧
    (k ≠ 0 → (x.openMsg ≠ none ∨ (a.toNat < 32768 ∧ a.toNat / 4 % 8 ≠ 0)) →
      (x.sendWords < 32 → ∃ t y, exec send s = .next t ∧ Claims.Sends (x.done i c 1) y it.tick a (x.reg rs2.val) last ∧ s.OnlyContext t pe k y) ∧
      (32 ≤ x.sendWords → exec send s =
        .next ((s1.modThr pe k (fun t => { t with st := .send, blk := .send a (x.reg rs2.val) last })).moved pe k))) ∧
    (k = 0 → ch ≠ 3 → exec (.chrecv i rd rs1) s = .next (s1.faultFree pe k 5) ∧ exec (.chpoll i rd rs1) s = .next (s1.faultFree pe k 5)) ∧
    (k = 0 → ch = 3 → ∀ w left, Claims.Reads (s.eng pe).faultCh w left →
      exec (.chrecv i rd rs1) s = .next ((s1.setEng pe { s1.eng pe with faultCh := left }).writeBack i c 2 rd.val w)) ∧
    (k ≠ 0 → let s2 := s1.setEng pe (((s1.eng pe).setThr k (kept (Claims.fresh it.tick (x.chan ch)))).addStale gone)
      (∀ w left, Claims.Reads (s2.chanOf pe k ch) w left →
        exec (.chrecv i rd rs1) s = .next ((s2.setChan pe k ch left).writeBack i c 2 rd.val w)) ∧
      (s2.chanOf pe k ch = [] → exec (.chrecv i rd rs1) s =
        .next ((s2.modThr pe k (fun t => { t with st := .recv, blk := .recv ch rd.val })).moved pe k)) ∧
      (exec (.chpoll i rd rs1) s = .next (s2.writeBack i c 2 rd.val
        (BitVec.ofNat 32 (match s2.chanOf pe k ch with | m :: _ => m.msg.words.length - m.read | [] => 0)))))) ∧
  (∀ (s : State) (eng : Fin 1088) (thr : Fin 8), let pe := eng.val
    let k := thr.val
    (∀ a w last it, (s.thr pe k).st = .send → (s.thr pe k).blk = .send a w last → (s.eng pe).itemOf k = some it → (s.thr pe k).sendWords < 32 →
      exec (.chsendUnblock eng thr) s = .next (s.unblock pe k 1 (fun t => t.pushWord it.tick a w last))) ∧
    (∀ rd w left, k = 0 → (s.thr pe k).st = .recv → (s.thr pe k).blk = .recv 3 rd → Claims.Reads (s.eng pe).faultCh w left →
      exec (.chrecvUnblock eng thr) s = .next ((s.setEng pe { s.eng pe with faultCh := left }).unblock pe k 2 (fun t => t.setReg rd w))) ∧
    (∀ ch rd w left, k ≠ 0 → (s.thr pe k).st = .recv → (s.thr pe k).blk = .recv ch rd →
      Claims.Reads ((s.staleDiscard pe k ch).chanOf pe k ch) w left →
      exec (.chrecvUnblock eng thr) s = .next (((s.staleDiscard pe k ch).setChan pe k ch left).unblock pe k 2 (fun t => t.setReg rd w))) ∧
    (∀ ch rd, k ≠ 0 → (s.thr pe k).st = .recv → (s.thr pe k).blk = .recv ch rd → s.chanOf pe k ch ≠ [] → (s.staleDiscard pe k ch).chanOf pe k ch = [] →
      exec (.chrecvUnblock eng thr) s = .next (((s.staleDiscard pe k ch).modThr pe k
        (fun t => { t with st := .run, blk := .none, mw := false, dismissed := false, ready := ((s.staleDiscard pe k ch).eng pe).cyc })).moved pe k)) ∧
    (∀ m rest dpe, (s.thr pe k).sendq = m :: rest → s.peng (m.dst.toNat / 32 % 1024) = some dpe →
      let dk := m.dst.toNat / 4 % 8
      let ch := m.dst.toNat % 4
      let s1 := s.modThr pe k (fun t => { t with sendq := rest })
      m.words.length ≤ (s.thr dpe dk).credit ch →
        exec (.messageDelivery eng thr false) s =
          .next (s1.modThr dpe dk (fun t => { t with rx := FMap.set [] t.rx ch (t.chan ch ++ [{ msg := m, read := 0 }]) })) ∧
        exec (.messageDelivery eng thr true) s = .next (s1.setEng dpe ((s1.eng dpe).addStale 1)).sramFailed))

/-! ### Engines: packets, posts and lookups -/

/-- A block of `n` bytes lies at an `n`-byte boundary in the data store (R38, R50). -/
def Claims.Block (a : Word) (n : Nat) : Prop := a.toNat % n = 0 ∧ 0x10000 ≤ a.toNat ∧ a.toNat < 0x18000

/-- O8. Packet instructions (R38, R50 to R52, R67, R129, R149, R152, R157, R165, R166, R208, R271, R365, R367). PKSEL selects an arrival that has a buffer; BFALLOC returns a
handle owned by the item, or 0; BFOWN adds a keep name to a live buffer with a free owner slot, or returns 9; BFFREE and ENQ keep their effect for the
item's end; POST keeps its request, stamped, or returns 0x0A or 9; TLKP leaves its block and returns 0, 8 or 0x11. A wrong handle or name is BUFFER, a
block outside the data store MISALIGN or ACCESS; an access that its check fails is CONTROL_CHECK. -/
def Obligations.PacketInstructionsComplete : Prop :=
  ∀ (s : State) (i : Issue) (c lend : Nat), s.Issues i c lend → ∀ (it : Item) (rd rs1 rs2 : Fin 32),
    let pe := i.eng.val
    let k := i.thr.val
    let s1 := s.takeCycle pe k c lend
    let x := s.running i
    let a := x.reg rs1.val
    let b := x.reg rs2.val
    let gives := fun (e : Instr) (lat : Nat) (v : Word) => ∃ t, exec e s = .next t ∧ s.OnlyContext t pe k ((x.done i c lat).setReg rd.val v)
    let keeps := fun (e : Instr) (lat : Nat) (f : Effect) =>
      ∃ t, exec e s = .next t ∧ s.OnlyContext t pe k ((({ x with effects := x.effects ++ [f] } : Thread).done i c lat).setReg rd.val 0)
    (s.eng pe).itemOf k = some it →
    (∀ arr, it.arrivals[a.toNat]? = some arr →
      (arr.handle ≠ 0 → ∃ t, exec (.pksel i rs1) s = .next t ∧ s.OnlyContext t pe k { x.done i c 2 with sel := some a.toNat }) ∧
      (arr.handle = 0 → exec (.pksel i rs1) s = .next (s1.faultFree pe k 6))) ∧
    (it.arrivals[a.toNat]? = none → exec (.pksel i rs1) s = .next (s1.faultFree pe k 6)) ∧
    (∀ bad h s2, s1.allocChecked bad (a.toNat % 2 ^ 31) (a.getLsbD 31) it.owner = (some h, s2) → exec (.bfalloc i rd rs1 bad) s =
      .next ((if k = 0 then s2.modThr pe 0 (fun t => { t with took := h :: t.took }) else s2).writeBack i c 8 rd.val h)) ∧
    (∀ bad s2, s1.allocChecked bad (a.toNat % 2 ^ 31) (a.getLsbD 31) it.owner = (none, s2) → exec (.bfalloc i rd rs1 bad) s =
      .next (State.writeBack { s2 with pools := { s2.pools with engNoBuf := bump s2.pools.engNoBuf it.inst.toNat 1 } } i c 8 rd.val 0)) ∧
    (s.isLive a = false ∨ b.toNat = 0 ∨ 0x3FFF < b.toNat → exec (.bfown i rd rs1 rs2) s = .next (s1.faultFree pe k 6)) ∧
    (s.isLive a = true → 0 < b.toNat → b.toNat ≤ 0x3FFF →
      (s1.addOwner a (b.setWidth 16) = none → gives (.bfown i rd rs1 rs2) 8 9) ∧
      (∀ s2, s1.addOwner a (b.setWidth 16) = some s2 → exec (.bfown i rd rs1 rs2) s = .next (s2.writeBack i c 8 rd.val 0))) ∧
    (b.toNat < 65536 → s.ownedBy a (b.setWidth 16) = true → keeps (.bffree i rd rs1 rs2 false) 8 (.free a (b.setWidth 16))) ∧
    (s.isLive a = true → exec (.bffree i rd rs1 rs2 true) s = .next ((s1.loseEntry a).checkFault pe k a)) ∧
    (∀ bad, bad = false ∨ s.isLive a = false → 65536 ≤ b.toNat ∨ s.ownedBy a (b.setWidth 16) = false → exec (.bffree i rd rs1 rs2 bad) s =
      .next (((s1.modPool (hPool a) (fun p => { p with foreign := p.foreign + 1 })).log 0x0701 a.toNat (b.toNat % 65536)).faultFree pe k 6)) ∧
    (Claims.Block b 16 → let block := s.storeBytes pe b.toNat 16
      let judged := s1.judgeEnq pe k (fieldLe block 0 2) (enqFrame a block)
      (s.isLive a = false → exec (.enq i rd rs1 rs2) s = .next (s1.faultFree pe k 6)) ∧
      (s.isLive a = true → judged = none → gives (.enq i rd rs1 rs2) 4 0x0A) ∧
      (s.isLive a = true → ∀ f, judged = some f → keeps (.enq i rd rs1 rs2) 4 (.enq (fieldLe block 0 2) f))) ∧
    (Claims.Block b 64 → let block := s.storeBytes pe b.toNat 64
      let bad := a.toNat = 0 ∨ 8 < a.toNat ∨ postBlockOk a.toNat block = false
      let full := s1.unitFull a.toNat = true ∨ s.holdRefuses a.toNat it.inst = true
      (bad → gives (.post i rd rs1 rs2) 4 0x0A) ∧ (¬ bad → full → gives (.post i rd rs1 rs2) 4 9) ∧
      (¬ bad → ¬ full → keeps (.post i rd rs1 rs2) 4
        (.post { stamp := s.stamp (itemSrc it.inst (s.leng pe)), unit := a.toNat, block := block, leng := s.leng pe, inst := it.inst, gen := it.gen, op := it.op, owner := it.owner }))) ∧
    (∀ fail, Claims.Block b 64 →
      ((63 < a.toNat ∨ s.cls.cur.table a.toNat = none ∨ ∃ tab, s.cls.cur.table a.toNat = some tab ∧ tab.engine = false) →
        ∃ t, exec (.tlkp i rd rs1 rs2 fail) s = .next t ∧ s.OnlyContext t pe k { (x.done i c 20).setReg rd.val 8 with owed := true }) ∧
      (∀ tab failed found reads s2 lat s3, a.toNat ≤ 63 → s.cls.cur.table a.toNat = some tab → tab.engine = true →
        s1.lookupChecked a.toNat tab (s.storeBytes pe b.toNat 40) fail = (failed, found, reads, s2) → dramReadsLat reads s2 = (lat, s3) →
        exec (.tlkp i rd rs1 rs2 fail) s = .next (if failed = true then s3.fault pe k 7 b else match found with
          | some (e, m) => (s3.writePlace pe k (.store b.toNat) (lookupBlock e m)).writeOwed i c (20 + lat) rd.val 0
          | none => s3.writeOwed i c (20 + lat) rd.val 0x11))) ∧
    (∀ e n fail, (e = Instr.enq i rd rs1 rs2 ∧ n = 16) ∨ ((e = .post i rd rs1 rs2 ∨ e = .tlkp i rd rs1 rs2 fail) ∧ n = 64) →
      (b.toNat % n ≠ 0 → exec e s = .next (s1.fault pe k 2 b)) ∧
      (b.toNat % n = 0 → (b.toNat < 0x10000 ∨ 0x18000 ≤ b.toNat) → exec e s = .next (s1.fault pe k 3 b)))

/-! ### Power, temperature and reset -/

/-- The energy of R452: what the bank holds above 20 V, at a charge of `mv` millivolts, against 2 ms of the estimate. -/
def Claims.WarnDue (p : Power) (mv : Nat) : Prop := mv ≤ 25500 ∨ p.cm * (mv * mv - 400000000) ≤ 4000000 * p.estimate

/-- O9. The feed (R449 to R455, R480): it rises, sags, is interrupted and returns; PWR_GOOD starts the module; power is lost when the bank is
exhausted. Each command acts in its power states and changes nothing in the others. Whether an interruption is counted in the journal depends on
whether the SP runs (R416, R455). -/
def Obligations.FeedCommandsFollowThePowerStates : Prop :=
  ∀ (s : State) (mv : Nat) (straps : Straps), let p := s.power
    (p.st = .down → 6000 ≤ mv → exec (.vinRise mv) s = .next { s with power := { p with st := .feed, vinMv := mv, pwrGood := false, warn := false, inSag := false }, boot := { s.boot with coldStart := true } }) ∧
    (p.st ≠ .down ∨ mv < 6000 → exec (.vinRise mv) s = .next s) ∧
    (p.st = .feed → p.pwrGood = false → p.resetInLow = false → exec (.pwrGoodAssert straps) s = .next (s.coldBoot straps)) ∧
    (p.st ≠ .feed ∨ p.pwrGood = true ∨ p.resetInLow = true → exec (.pwrGoodAssert straps) s = .next s) ∧
    (p.st = .feed → 5500 ≤ mv → mv < 6000 →
      exec (.sagBandEntry mv) s = .next (State.log { s with power := { p with vinMv := mv, inSag := true } } 0x0104 0 mv)) ∧
    (p.st = .feed → p.pwrGood = true → s.boot.stage ≠ .waitRepair → p.warn = false → ¬ Claims.WarnDue p p.holdupMv →
      ∃ t, exec .feedInterruption s = .next t ∧ t.power.st = .rideThrough ∧ t.power.vinMv < 5500 ∧ t.power.inSag = false ∧ t.power.warn = false ∧
        t.power.prevUnsafe = some (s.jLast 8) ∧ t.nv.journal = (s.jAppend 8 (s.jLast 8 + 1)).nv.journal ∧ t.dram = s.dram ∧ t.erg = s.erg) ∧
    (p.st = .feed → p.pwrGood = false → ¬ Claims.WarnDue p p.holdupMv →
      ∃ t, exec .feedInterruption s = .next t ∧ t.power.st = .rideThrough ∧ t.nv = s.nv ∧ t.power.prevUnsafe = p.prevUnsafe) ∧
    (p.st = .feed → Claims.WarnDue p p.holdupMv → ∃ u t, exec .feedInterruption s = .next t ∧ t = State.warnOn u p.holdupMv ∧ u.power.st = .rideThrough) ∧
    (p.st ≠ .feed → exec .feedInterruption s = .next s) ∧
    (p.st = .rideThrough ∨ p.st = .warned → 6000 ≤ mv →
      ∃ t, exec (.feedReturn mv) s = .next t ∧ t.power.st = .feed ∧ t.power.vinMv = mv ∧ t.power.warn = false ∧ t.erg = s.erg ∧
        (p.prevUnsafe = none → t.nv = s.nv) ∧
        (∀ n, p.prevUnsafe = some n → p.pwrGood = true → s.boot.stage ≠ .waitRepair → t.power.prevUnsafe = none ∧ t.nv.journal = (s.jAppend 8 n).nv.journal)) ∧
    (p.st = .rideThrough → Claims.WarnDue p mv → exec (.pwrFailWarnAssert mv) s = .next (s.warnOn mv)) ∧
    (p.st ≠ .rideThrough ∨ ¬ Claims.WarnDue p mv → exec (.pwrFailWarnAssert mv) s = .next s) ∧
    (p.st = .rideThrough ∨ p.st = .warned → ∃ t, exec .holdupExhausted s = .next t ∧ t.power.st = .down ∧ t.power.pwrGood = false ∧
      t.power.warn = false ∧ t.dram = [] ∧ t.nv = s.nv ∧ t.hostMem = s.hostMem ∧ t.erg = State.reset.erg ∧ t.pending = s.pending) ∧
    (p.st = .feed → exec (.bankChargeMeasure mv) s = .next { s with power := { p with cm := mv, holdupMv := 52000 } })

/-- O10. Temperature, stage faults and resets (R402, R462 to R464, R481). A sensor that crosses its limit is logged and asserts the alert; the cap
falls and rises with the junction; a trip turns power off until the junction is below 95 °C; RESET_IN_N holds the module in reset and its release
boots it. -/
def Obligations.ThermalAndResetCommandsAct : Prop :=
  ∀ (s : State) (j plate : Int) (straps : Straps), let p := s.power
    (p.st ≠ .down → (1600 ≤ j ∨ 1360 < plate) → ∃ t, exec (.thermalAlert j plate) s = .next t ∧ t.power.thermAlert = true ∧ t.power.junction = j ∧
      t.power.plate = plate ∧ t.erg = s.erg ∧ t.nv = s.nv) ∧
    (p.st ≠ .down → p.st ≠ .tripped → j < 1552 → plate < 1328 → exec (.thermalAlert j plate) s = .next { s with power := { p with junction := j, plate := plate, thermAlert := false } }) ∧
    (p.st = .down → exec (.thermalAlert j plate) s = .next s) ∧
    (p.st ≠ .down → p.st ≠ .tripped →
      (1680 ≤ j → exec (.thermalCapUpdate j) s = .next { s with power := { p with junction := j, thermalCap := some (max 30000 (p.estimate - 2000)) } }) ∧
      (j < 1632 → ∃ cap, exec (.thermalCapUpdate j) s = .next { s with power := { p with junction := j, thermalCap := cap } } ∧
        (p.thermalCap = none → cap = none) ∧ (∀ c, p.thermalCap = some c → (85000 < c + 2000 → cap = none) ∧ (c + 2000 ≤ 85000 → cap = some (c + 2000)))) ∧
      (1632 ≤ j → j < 1680 → exec (.thermalCapUpdate j) s = .next { s with power := { p with junction := j } })) ∧
    (1840 ≤ j → p.st ≠ .down → p.st ≠ .tripped → ∃ t, exec (.thermalTrip j) s = .next t ∧ t.power.st = .tripped ∧ t.power.pwrGood = false ∧
      t.power.lasersOff = true ∧ t.power.thermAlert = true ∧ t.dram = [] ∧ t.hostMem = s.hostMem ∧
      t.nv = (if p.prevUnsafe ≠ none ∨ p.warn = true then s.nv else (s.jAppend 8 (s.jLast 8 + 1)).nv)) ∧
    (p.st = .tripped → j < 1520 → ∃ t, exec (.tripCooldown j straps) s = .next t ∧ t.power.st = .feed ∧ t.power.junction = j ∧
      t.power.thermAlert = decide (1328 ≤ p.plate) ∧ t.nv = s.nv ∧ (p.resetInLow = false → t.power.pwrGood = true ∧ t.boot.straps = straps)) ∧
    (∀ stage : Fin 14, s.repair.stages.getD stage.val false = true →
      let s1 := { s with repair := { s.repair with stages := modifyAt s.repair.stages stage.val (fun _ => false) } }
      let s2 := if FMap.get 0 s.repair.used 7 < 2 then s1.useSpare 7 else s1.retireUnit 7
      exec (.powerStageFault stage) s = .next (s2.addEntry 2 { type := 8, unit := stage.val, source := 0xFFFF, target := 0xFFFF })) ∧
    (∀ stage : Fin 14, s.repair.stages.getD stage.val false = false → exec (.powerStageFault stage) s = .next s) ∧
    (∃ t, exec .resetInAssert s = .next t ∧ t.power.resetInLow = true ∧ t.power.pwrGood = false ∧ t.power.lasersOff = true ∧ t.nv = s.nv ∧
      (p.st ≠ .down → p.st ≠ .tripped → t.erg = State.reset.erg)) ∧
    (p.resetInLow = true → p.st ≠ .down → p.st ≠ .tripped → ∃ t, exec (.resetInRelease straps) s = .next t ∧ t.power.resetInLow = false ∧
      t.power.pwrGood = true ∧ t.boot.straps = straps ∧ t.nv = s.nv) ∧
    (∀ at_, s.dev.resetAt = some at_ → at_ ≤ s.time.tick → exec .fullDeviceReset s = .next (s.coldBoot s.boot.straps)) ∧
    (s.dev.resetAt = none → exec .fullDeviceReset s = .next s) ∧
    (∀ ch : Fin 4, s.repair.channels.getD ch.val false = true → exec (.dramChannelUnresponsive ch) s =
      .next ((s.jAppend 1 (mapWord { type := 7, unit := ch.val, source := 0xFFFF, target := 0xFFFF })).coldBoot s.boot.straps))

/-- O11. What a full reset leaves (R233, R402, R480, R481): host memory, the tack room, the flash and the waiting commands are kept, the sizes
recorded for the next reset are in force, and everything outside the always-on domains is as at PWR_GOOD with the sampled straps. -/
def Obligations.FullResetLeavesTheResetState : Prop :=
  ∀ (s : State) (straps : Straps), let t := s.coldBoot straps
    t.hostMem = s.hostMem ∧ t.nv = s.nv ∧ t.pending = s.pending ∧ t.dram = [] ∧ t.erg = State.reset.erg ∧ t.time = State.reset.time ∧
    t.queues = State.reset.queues ∧ t.tm = Tm.reset straps.stackEn ∧ t.ports = Ports.reset straps.stackEn ∧ t.boxes = State.reset.boxes ∧ t.mbadel = State.reset.mbadel ∧ t.rdma = State.reset.rdma ∧
    t.accel = State.reset.accel ∧ t.sto = State.reset.sto ∧ t.ten = State.reset.ten ∧ t.boot.straps = straps ∧ t.power.pwrGood = true ∧
    t.dev.controlMib = s.dev.controlMibNext ∧ t.cls.tablePlan = s.cls.tablePlanNext ∧ t.time.tick = 0 ∧ t.time.period = 1 ∧ t.time.gate = 240 ∧
    t.events.faultN = s.events.faultN ∧ t.power.st = s.power.st

/-! ### Ticks and the clock -/

/-- O12. The tick and the clock (R18, R20, R25, R29 to R32, R461, R476). The boundary, the gate and the turn act in their own phase of a supplied module
and change nothing otherwise; the period changes at the boundary at E; a source is selected, locked, lost and held over as R30 states, each change of
state or source being logged; a source that is not in force and is lost is no longer qualified (R29). -/
def Obligations.TickAndClockCommandsAct : Prop :=
  ∀ (s : State) (mw sec ns : Nat) (src : TimeSource), let t := s.time
    (t.phase = .turn → s.power.pwrGood = true →
      exec .tickBoundary s = .next s.tickOver ∧
      (∀ code e, t.pendPeriod = some (code, e) → s.nextStart.2 = 0 → e ≤ s.nextStart.1 → exec .periodChangeApply s = .next s.tickOver) ∧
      (t.pendPeriod = none → exec .periodChangeApply s = .next s)) ∧
    (t.phase ≠ .turn ∨ s.power.pwrGood = false → exec .tickBoundary s = .next s ∧ exec .periodChangeApply s = .next s) ∧
    (t.phase = .work → s.power.pwrGood = true → exec (.gate mw) s =
      .next (State.gateAll
        { s with time := { t with phase := .commit }, power := { s.power with estimate := mw }, dev := { s.dev with gateCauses := s.causes } }).commitAll.harvestAll.noteWants) ∧
    (t.phase ≠ .work ∨ s.power.pwrGood = false → exec (.gate mw) s = .next s) ∧
    (t.phase = .commit → s.power.pwrGood = true → let s1 := s.closeCommit
      let s2 := State.groomsLate { s1 with time := { s1.time with phase := .turn } }
      exec .turn s = .next (if s2.periodDue.isSome = true then s2 else s2.turnWork).levelTick.takeCtrs) ∧
    (t.phase ≠ .commit ∨ s.power.pwrGood = false → exec .turn s = .next s) ∧
    (s.sourceOk (TimeSource.num src) = true →
      let u := { s with time := t.setQual (TimeSource.num src) true }
      (t.source = 0 ∨ (src = .stack ∧ t.source ≠ 1) →
        exec (.sourceQualified src) s = .next (u.clockTo .acquiring (TimeSource.num src))) ∧
      (t.source ≠ 0 → (src ≠ .stack ∨ t.source = 1) → exec (.sourceQualified src) s = .next u)) ∧
    (s.sourceOk (TimeSource.num src) = false → exec (.sourceQualified src) s = .next s) ∧
    (t.clock = .acquiring → 16000000000 ≤ t.belowNs → exec .clockLocked s =
      .next (State.log { s with time := { t with clock := .locked, stateNs := 0, belowNs := 0 } } 0x0201 2 t.source)) ∧
    (t.clock ≠ .acquiring ∨ t.belowNs < 16000000000 → exec .clockLocked s = .next s) ∧
    (t.source ≠ TimeSource.num src → exec (.sourceLost src) s = .next { s with time := t.setQual (TimeSource.num src) false }) ∧
    (t.source = TimeSource.num src →
      let hold := t.clock = .locked ∧ 300000000000 ≤ t.stateNs
      let q := t.setQual t.source false
      let u := State.clockTo { s with time := if hold then q else { q with offset := 0, slew := 0 } } (if hold then .holdover else .freerun) 0
      (u.bestSource = none → exec (.sourceLost src) s = .next u) ∧
      (∀ n, u.bestSource = some n → exec (.sourceLost src) s = .next (u.clockTo .acquiring n))) ∧
    (t.clock = .holdover → t.holdoverSec * 1000000000 ≤ t.stateNs → exec .holdoverExpiry s =
      .next (State.log { s with time := { t with clock := .freerun, source := 0, stateNs := 0, belowNs := 0 } } 0x0201 0 0)) ∧
    (t.clock ≠ .holdover ∨ t.stateNs < t.holdoverSec * 1000000000 → exec .holdoverExpiry s = .next s) ∧
    (t.source ≠ 3 → exec (.ppsInEdge sec ns) s = .next { s with time := { t with ppsStamp := (sec, ns % 1000000000) } }) ∧
    (t.source = 3 → ∃ d : Int, -500000000 < d ∧ d ≤ 500000000 ∧ ((ns : Int) - d) % 1000000000 = 0 ∧
      exec (.ppsInEdge sec ns) s = .next (State.measure { s with time := { t with ppsStamp := (sec, ns % 1000000000) } } d))

/-- O13. What the boundary does to time (R17, R20, R31, R32): the tick number rises by one, the work phase begins one period later on the clock, PPS_OUT
is high for the first 100 ms of a second (R476), the cycle count has advanced by the old period's cycles, and slewing takes at most 200 ppm of the period from the rest of the offset, which is held in
tenths of a nanosecond. -/
def Obligations.BoundaryAdvancesTime : Prop :=
  ∀ s : State, let t := s.advance.time
    let p := s.time.period
    t.tick = s.time.tick + 1 ∧ t.phase = .work ∧ t.sec * 1000000000 + t.ns = s.time.sec * 1000000000 + s.time.ns + periodNs p ∧
    t.ns < 1000000000 ∧ t.ppsOut = decide (t.ns < 100000000) ∧ t.cycBase = s.time.cycBase + tickCycles p ∧ t.period = p ∧ t.gate = s.time.gate ∧
    (t.slew - s.time.slew).natAbs * 500 ≤ periodNs p ∧ t.slew.natAbs ≤ s.time.slew.natAbs ∧ s.advance.erg = s.erg ∧ s.advance.dram = s.dram

/-! ### The host endpoint -/

/-- O14. Resets of functions, bus mastering, power states and the link (R181, R182, R194, R198 to R207, R429). A function level reset leaves a
function at its reset configuration, AER's registers kept, and in reset until no request of it is outstanding; clearing Bus Master Enable makes it hold its requests and
setting it issues them; the link trains to a rate and width that it has, and has to train again after a fatal error. -/
def Obligations.EndpointResetsAndLinkAct : Prop :=
  (∀ (s : State) (fn : Nat), s.fnExists fn = true → (s.fn fn).flr = false →
    exec (.busMasterEnableClear fn) s = .next (s.setFn fn ((s.fn fn).setCfgBit 4 2 false)) ∧
    exec (.busMasterEnableSet fn) s = .next ((s.setFn fn ((s.fn fn).setCfgBit 4 2 true)).release fn)) ∧
  (∀ (s : State) (fn : Nat), (s.fnExists fn = false ∨ (s.fn fn).flr = true) →
    exec (.busMasterEnableClear fn) s = .next s ∧ exec (.busMasterEnableSet fn) s = .next s) ∧
  (∀ (s : State) (sto : Bool) (n : Fin 4096), let fn := if sto = true then vfSto n.val else vfNet n.val
    s.fnExists fn = true → (s.fn fn).flr = false → exec (.functionLevelReset sto n) s = .next (s.flrVf fn)) ∧
  (∀ (s : State) (pf : Fin 3), s.fnExists pf.val = true → (s.fn pf.val).flr = false →
    exec (.pfFunctionLevelReset pf) s = .next (if pf = 0 then s.resetPf0 else (s.resetVfs pf.val).resetFn pf.val)) ∧
  (∀ (s : State) (fn : Nat), let f := s.fn fn
    let t := (s.resetFn fn).fn fn
    t.flr = true ∧ t.cfg = Mem.wrN (Mem.wrN Fn.reset.cfg 0x108 (Mem.rdN f.cfg 0x108 8)) 0x114 (Mem.rdN f.cfg 0x114 4) ∧ t.msix = Fn.reset.msix ∧ t.pba = [] ∧ t.doorbells = [] ∧ t.d3 = false ∧ t.aerUncor = f.aerUncor ∧
      t.aerCor = f.aerCor ∧ t.errPtr = f.errPtr ∧ t.hdrLog = f.hdrLog ∧ t.badDoorbells = f.badDoorbells) ∧
  (∀ (s : State) (fn : Nat), (s.fn fn).flr = true → s.fnBusy fn = false →
    exec (.flrComplete fn) s = .next (match fnInst fn with
      | some n => (((s.setFn fn { s.fn fn with flr := false }).resetDone n).restoreDone n).destroyDone n
      | none => s.setFn fn { s.fn fn with flr := false })) ∧
  (∀ (s : State) (fn : Nat), ((s.fn fn).flr = false ∨ s.fnBusy fn = true) → exec (.flrComplete fn) s = .next s) ∧
  (∀ (s : State) (c : ResetCause), let s1 := [0, 1, 2].foldl (State.keepPme s) ([1, 2, 0].foldl State.flrPf s)
    let code := match c with | .linkDown => 0 | .hotReset => 1 | .perst => 2
    exec (.conventionalReset c) s = .next (State.log { s1 with pcie := { s1.pcie with linkUp := false, perst := s1.pcie.perst || decide (c = .perst), lstate := .l0, ltrUs := none, retraining := false } } 0x0402 code 0)) ∧
  (∀ s : State, exec .perstDeassert s = .next { s with pcie := { s.pcie with perst := false, wakeN := true } }) ∧
  (∀ (s : State) (rate width : Nat) (flit : Bool), let up := { s with pcie := { s.pcie with rateX10 := rate, width := width, flit := flit, linkUp := true, lstate := .l0, retraining := false } }
    (rate ∈ [25, 50, 80, 160, 320, 640] → width ∈ [1, 2, 4, 8, 16] → (flit = true ∨ rate ≠ 640) → s.pcie.perst = false → s.boot.endpointUp = true →
      exec (.pcieLinkRetrain rate width flit) s =
        .next (if rate = s.pcie.rateX10 ∧ width = s.pcie.width then up else up.log 0x0401 rate width)) ∧
    ((rate ∉ [25, 50, 80, 160, 320, 640] ∨ width ∉ [1, 2, 4, 8, 16] ∨ (flit = false ∧ rate = 640) ∨ s.pcie.perst = true ∨ s.boot.endpointUp = false) →
      exec (.pcieLinkRetrain rate width flit) s = .next s)) ∧
  (∀ s : State, (∀ e ∈ [(LinkError.malformed, 18), (.flowControl, 13), (.dataLink, 4)], ∃ t, exec (.malformedTlp e.1) s = .next t ∧
      t = { s.aerUncor 0 e.2 with pcie := { (s.aerUncor 0 e.2).pcie with retraining := true } }) ∧
    ∀ e ∈ [(LinkError.receiver, 0), (.badTlp, 6), (.badDllp, 7), (.replayRollover, 8), (.replayTimeout, 12)],
      exec (.malformedTlp e.1) s = .next (s.aerCorr 0 e.2)) ∧
  (∀ (s : State) (fn : Nat) (posted : Bool), s.fnExists fn = true → exec (.unsupportedRequest fn .absentFunction posted) s = .next s) ∧
  (∀ (s : State) (fn : Nat) (kind : BadRequest), (kind ≠ .absentFunction ∨ s.fnExists fn = false) →
    let f := if s.fnExists fn = true then fn else 0
    (∀ posted, kind = .poisoned → exec (.unsupportedRequest fn kind posted) s = .next (s.aerUncor f 12)) ∧
    (kind ≠ .poisoned → exec (.unsupportedRequest fn kind true) s = .next (s.aerAdvisory f 20) ∧
      exec (.unsupportedRequest fn kind false) s = .next ((s.aerUncor f 20).mmioFail 1))) ∧
  (∀ (s : State) (pf : Fin 3), exec (.pmeSignal pf) s = .next (s.pme pf.val) ∧
    ((s.fn pf.val).flr = true → exec (.d3hotEntry pf) s = .next s) ∧
    ((s.fn pf.val).flr = false → ∃ t, exec (.d3hotEntry pf) s = .next t ∧
      let u := s.setFn pf.val { s.fn pf.val with d3 := true, cfg := Mem.wrN (s.fn pf.val).cfg 0x44 (leBytes 2 ((s.fn pf.val).cfgField 0x44 2 / 4 * 4 + 3)) }
      (t = u ∨ t = u.pme pf.val)) ∧
    ((s.fn pf.val).d3 = false → exec (.d0Return pf) s = .next s) ∧
    ((s.fn pf.val).d3 = true → ∃ u : State, u = s.setFn pf.val { s.fn pf.val with d3 := false, cfg := Mem.wrN (s.fn pf.val).cfg 0x44 (leBytes 2 ((s.fn pf.val).cfgField 0x44 2 / 4 * 4)) } ∧
      exec (.d0Return pf) s = .next ((u.pfFns pf.val).foldl State.release u))) ∧
  (∀ s : State, (s.pcie.linkUp = true → exec .pmeTurnOff s = .next { s with pcie := { s.pcie with pmeToAck := s.pcie.pmeToAck + 1, lstate := .l2 } }) ∧
    (s.pcie.linkUp = false → exec .pmeTurnOff s = .next s) ∧
    exec .ltrIdleReport s = .next { s with pcie := { s.pcie with ltrUs := if s.hostActive = true then some 40 else none } } ∧
    (s.pcie.linkUp = true → s.pcie.lstate = .l0 → s.pcieIdle = true → bitOf ((s.fn 0).cfgField 0x80 2) 1 = true →
      exec (.aspmEntry .l1) s = .next { s with pcie := { s.pcie with lstate := .l1 } }) ∧
    (s.pcie.linkUp = true → exec (.aspmEntry .l0) s = .next { s with pcie := { s.pcie with lstate := .l0 } }) ∧
    (∀ target, s.pcie.linkUp = false → exec (.aspmEntry target) s = .next s))

/-- O15. Accesses of the host and completions of Geleath's reads (R183 to R185, R190, R192, R194 to R197, R201 to R203). A read or write of a function
that does not decode is an Unsupported Request; an oversized read is a Completer Abort and a write that covers no register is discarded and logged; a
completion frees its tag and ends its request with the status of R195; a timeout, at the first boundary after it has elapsed, quarantines the tag, and what
comes late is discarded. VF Enable cannot be set with fewer than 33 bus numbers. -/
def Obligations.HostAccessesAndCompletionsAct : Prop :=
  (∀ (s : State) (fn bar off n : Nat), 0 < n → off + n ≤ barSize fn bar →
    (s.decodes fn = false → exec (.barRead fn bar off n) s = .next ((s.unsupported fn false).mmioFail 1)) ∧
    (s.decodes fn = true → (8 < n ∨ off / 8 ≠ (off + n - 1) / 8) → exec (.barRead fn bar off n) s = .next ((s.aerUncor fn 15).mmioFail 4)) ∧
    (s.decodes fn = true → n ≤ 8 → off / 8 = (off + n - 1) / 8 → exec (.barRead fn bar off n) s =
      .next (if fn = 0 then s.readPf0 off n else { s with pcie := { s.pcie with lastMmio := some (s.fnRead fn bar off n), lastCpl := 0 } }))) ∧
  (∀ (s : State) (fn bar off : Nat) (data : List Byte), data ≠ [] → off + data.length ≤ barSize fn bar →
    (s.decodes fn = false → exec (.barWrite fn bar off data) s = .next (s.unsupported fn true)) ∧
    (s.decodes fn = true → (data.length ≠ 4 ∨ off % 4 ≠ 0) → exec (.barWrite fn bar off data) s = .next (s.log 0x0403 fn off)) ∧
    (s.decodes fn = true → data.length = 4 → off % 4 = 0 → let v := BitVec.ofNat 32 (ofLe data)
      (fn = 0 → exec (.barWrite fn bar off data) s = .next (s.writePf0 off v)) ∧
      (fn ≠ 0 → bar = 0 → off = 0 → exec (.barWrite fn bar off data) s = .next (s.doorbellWrite fn v)) ∧
      (fn ≠ 0 → bar = 0 → off ≠ 0 → exec (.barWrite fn bar off data) s = .next (s.log 0x0403 fn off)) ∧
      (fn ≠ 0 → bar = 2 → exec (.barWrite fn bar off data) s =
        .next (if off < (if fn < 3 then 0x8000 else 0x800) then s.tableWrite fn off v else s.log 0x0403 fn off)))) ∧
  (∀ (old : State) (fn off width : Nat) (v : Word) (bus : Byte) (buses : Nat), width ∈ [1, 2, 4] → off % width = 0 → off + width ≤ 4096 →
    let s := { old with pcie := { old.pcie with bus := bus.toNat } }
    let write := exec (.configWrite fn off width v bus buses) old
    (s.fnExists fn = false → write = .next ((s.unsupported fn false).mmioFail 1)) ∧
    (s.fnExists fn = true → (s.fn fn).flr = true → write = .next (s.mmioFail 2)) ∧
    (s.fnExists fn = true → (s.fn fn).flr = false → setsBit off (leBytes width v.toNat) 0x79 7 = true →
      write = .next ((if fn < 3 then s.flrPf fn else s.flrVf fn).mmioFail 0)) ∧
    (s.fnExists fn = true → (s.fn fn).flr = false → setsBit off (leBytes width v.toNat) 0x79 7 = false →
      ∃ f : Fn, write = .next (((s.setFn fn f).afterCfg s fn off (leBytes width v.toNat)).mmioFail 0) ∧
        f.doorbells = (s.fn fn).doorbells ∧ f.held = (s.fn fn).held ∧ f.msix = (s.fn fn).msix ∧
        f.aerUncor = clearOnes (s.fn fn).aerUncor 0x104 off (leBytes width v.toNat) ∧
        f.aerCor = clearOnes (s.fn fn).aerCor 0x110 off (leBytes width v.toNat) ∧
        ((3 ≤ fn ∨ setsBit off (leBytes width v.toNat) 0x45 7 = false) →
          f.cfg = keepVfEnable fn buses (s.fn fn).cfg (cfgWrite fn (s.fn fn).cfg off (leBytes width v.toNat))))) ∧
  (∀ (fn buses : Nat) (old new : FMap Byte),
    ((fn ≠ 1 ∧ fn ≠ 2) ∨ 33 ≤ buses ∨ (Mem.rd old 0x150).getLsbD 0 = true → keepVfEnable fn buses old new = new) ∧
    (fn = 1 ∨ fn = 2 → buses < 33 → (Mem.rd old 0x150).getLsbD 0 = false → FMap.wf 0 new = true →
      (Mem.rd (keepVfEnable fn buses old new) 0x150).getLsbD 0 = false)) ∧
  (∀ (s : State) (tag : Nat),
    (∀ u o, s.tagUse tag = some u → exec (.dmaReadCompletion tag o) s =
      .next ((s.dropTag tag).requestEnded u.req (cplStatus o) (match o with | .data b => b | _ => []))) ∧
    (∀ o, s.tagUse tag = none → s.quarantineOf tag = none → exec (.dmaReadCompletion tag o) s = .next (s.aerAdvisory 0 16)) ∧
    (∀ q, s.quarantineOf tag = some q → let late := (s.aerAdvisory q.1 16).log 0x0406 (tag * 65536 + q.1) (s.time.tick - q.2.1)
      exec (.lateCompletion tag) s = .next late ∧ (s.tagUse tag = none → ∀ o, exec (.dmaReadCompletion tag o) s = .next late) ∧
      (q.2.2 ≤ s.time.tick → exec (.quarantineEnd tag) s = .next { s with pcie := { s.pcie with quarantine := FMap.set none s.pcie.quarantine tag none } }) ∧
      (s.time.tick < q.2.2 → exec (.quarantineEnd tag) s = .next s)) ∧
    (∀ u, s.tagUse tag = some u → s.time.tick ≤ u.issued + u.timeout → exec (.completionTimeout tag) s = .next s) ∧
    (∀ u, s.tagUse tag = some u → u.issued + u.timeout < s.time.tick → let s1 := (s.dropTag tag).requestEnded u.req 3 []
      let s2 := { s1 with pcie := { s1.pcie with quarantine := FMap.set none s1.pcie.quarantine tag (some (u.req.fn, s.time.tick, s.time.tick + 2 * u.timeout)) } }
      exec (.completionTimeout tag) s =
        .next ((if u.orphan = true then s2 else s2.aerUncor u.req.fn 14).log 0x0405 (tag * 65536 + u.req.fn) (s.time.tick - u.issued))) ∧
    (s.tagUse tag = none → exec (.completionTimeout tag) s = .next s)) ∧
  (∀ (s : State) (r : ReadReq) (rest : List ReadReq), s.pcie.waiting = r :: rest →
    (s.freeTag.isSome = true → exec .waitingReadIssue s = .next (State.issueRead { s with pcie := { s.pcie with waiting := rest } } r)) ∧
    (s.freeTag = none → exec .waitingReadIssue s = .next s)) ∧
  (∀ s : State, s.pcie.waiting = [] → exec .waitingReadIssue s = .next s)

/-! ### Doorbells, mailboxes, locks and the event ring -/

/-- O16. Doorbells (R189, R207, R223, R224, R252 to R254, R297, R365). A write of a function's DOORBELL register keeps its low half for the queue that its upper half names
until the next sample, the last value for a queue winning; an admin tail of a storage controller that follows its ENABLE is kept apart; PF0 has none, and a function that does not decode answers Unsupported Request. A kept tail
moves a descriptor ring's tail within the room of the ring, and an invalid one, or queue state that fails its check (R365), puts the queue in ERROR; a doorbell for a queue that does not exist is
counted and logged. -/
def Obligations.DoorbellsAreKeptAndApplied : Prop :=
  (∀ (s : State) (fn : Nat) (v : Word), ∀ e ∈ [Instr.doorbell fn v false, .completionHeadDoorbell fn v, .adminBaseWrite fn v, .adminCtlEnable fn v, .adminCtlDisable fn v],
    (s.decodes fn = false → exec e s = .next (s.unsupported fn true)) ∧
    (s.decodes fn = true → fn = 0 → exec e s = .next (s.log 0x0403 0 0)) ∧
    (s.decodes fn = true → fn ≠ 0 → let late := fnSto fn = true ∧ v.toNat / 65536 = 0 ∧ (s.fn fn).enabling = true
      ∃ t, exec e s = .next t ∧ (t.fn fn).lastDoorbell = s.time.tick + 1 ∧
        (late → (t.fn fn).afterEnable = some (v.toNat % 65536) ∧ (t.fn fn).doorbells = (s.fn fn).doorbells) ∧
        (¬ late → (t.fn fn).afterEnable = (s.fn fn).afterEnable ∧ FMap.get none (t.fn fn).doorbells (v.toNat / 65536) = some (v.toNat % 65536) ∧
          ∀ q, q ≠ v.toNat / 65536 → FMap.get none (t.fn fn).doorbells q = FMap.get none (s.fn fn).doorbells q) ∧
        (∀ fn', fn' ≠ fn → t.fn fn' = s.fn fn') ∧ t = { s with pcie := { s.pcie with fns := t.pcie.fns, ltrUs := some 40 } })) ∧
  (∀ (s : State) (fn : Nat) (v : Word), let key := qKey fn (v.toNat / 65536)
    (s.decodes fn = false ∨ s.queue key = none → exec (.doorbell fn v true) s = exec (.doorbell fn v false) s) ∧
    (∀ q, s.decodes fn = true → s.queue key = some q → exec (.doorbell fn v true) s =
      exec (.doorbell fn v false) ((s.setQueue key (some { q with error := true })).log 0x0603 fn (v.toNat / 65536)).sramFailed)) ∧
  (∀ (s : State) (fn field low : Nat), field < 0x1000 →
    (s.queue (qKey fn field) = none → ∃ t, s.applyDoorbell fn field low = t ∧ t.events.nextSeq = (s.log 0x0601 fn (field * 65536 + low)).events.nextSeq ∧
      t.erg = s.erg ∧ t.queues = s.queues) ∧
    (∀ q, s.queue (qKey fn field) = some q → q.error = true → s.applyDoorbell fn field low = s) ∧
    (∀ q, s.queue (qKey fn field) = some q → q.error = false →
      let adv := (low + q.size - q.tail) % q.size
      let room := ((q.oldest + q.size - 1) % q.size + q.size - q.tail) % q.size
      (low < q.size → 0 < adv → adv ≤ room → s.applyDoorbell fn field low = s.setQueue (qKey fn field) (some { q with tail := low })) ∧
      (q.size ≤ low ∨ adv = 0 ∨ room < adv →
        s.applyDoorbell fn field low = (s.setQueue (qKey fn field) (some { q with error := true })).log 0x0603 fn field)))

/-- The registers of a mailbox with PTR and LEN written; LEN has 20 bits. -/
def Claims.written (m : Mailbox) (r : MbRegs) : Mailbox :=
  { m with ptr := BitVec.ofNat 64 (r.ptrHi.toNat * 2 ^ 32 + r.ptrLo.toNat), len := BitVec.ofNat 32 (r.len.toNat % 2 ^ 20) }

/-- O17. Mailboxes, locks and the event ring's registers (R208, R210 to R214, R217, R221, R222, R365, R375, R376). SEND stamps the message with the sender's
number and epoch and fills the mailbox; a full one is left as it is but for OVERRUN. A take empties it and returns its pointer, a stale message is
discarded. A lock is taken by reading it free and freed by its owner's own number. A mailbox whose registers fail their check is treated as stale, and
a lock whose register does is freed (R365). -/
def Obligations.MailboxesLocksAndEventRingAct : Prop :=
  (∀ (s : State) (n : Nat) (src : Source), let code := srcCode src
    let m := s.mb n
    (s.isSender n code = true → m.full = false →
      (∃ t, exec (.mailboxSend n src none) s = .next t ∧ t = s.setMb n { m with stamp := s.stamp code, full := true, stale := false, retracted := false }) ∧
      (∀ r : MbRegs, FMap.wf Mailbox.reset s.boxes.mbs = true → ∃ t, exec (.mailboxSend n src (some r)) s = .next t ∧
        t.mb n = { Claims.written m r with stamp := s.stamp code, full := true, stale := false, retracted := false } ∧
        (∀ n', n' ≠ n → t.mb n' = s.mb n') ∧ t = { s with boxes := { s.boxes with mbs := t.boxes.mbs } })) ∧
    (s.isSender n code = true → m.full = true → ∀ r, exec (.mailboxSend n src r) s = .next (s.setMb n { m with overrun := true })) ∧
    (s.isSender n code = false → exec (.mailboxSend n src none) s = .next (s.log 0x0501 n 0x18) ∧
      exec (.mailboxRetract n src) s =
        .next ((if s.isReceiver n code = true then s.setMb n { m with retractFail := true } else s).log 0x0501 n 0x14) ∧ ∀ v, exec (.mailboxStatusClear n src v) s = .next (s.log 0x0501 n 0x10)) ∧
    (s.isSender n code = true →
      (m.full = true → m.stamp = s.stamp code → exec (.mailboxRetract n src) s = .next (s.setMb n { m with full := false, retracted := true })) ∧
      (m.full = false ∨ m.stamp ≠ s.stamp code → exec (.mailboxRetract n src) s = .next (s.setMb n { m with retractFail := true })) ∧
      (∀ v : Word, exec (.mailboxStatusClear n src v) s =
        .next (s.setMb n { m with overrun := m.overrun && !v.getLsbD 3, retractFail := m.retractFail && !v.getLsbD 4 }))) ∧
    (s.isReceiver n code = true → ∀ width, (width ≠ 8 ∨ m.full = false → exec (.mailboxTake n src width false) s = .next (s.answer 0)) ∧
      (width = 8 → m.full = true → (n < 64 → s.servesMbadel n = true ∧ s.nextHm = some n) →
        (m.stale = false →
          exec (.mailboxTake n src width false) s = .next (((s.setMb n { m with full := false }).afterTake n m false).answer m.ptr.toNat)) ∧
        (m.stale = true → let c := { s with boxes := { s.boxes with staleDiscards := bump s.boxes.staleDiscards code 1 } }
          exec (.mailboxTake n src width false) s =
            .next ((((c.setMb n { m with full := false }).log 0x0502 n m.stamp.toNat).afterTake n m true).answer 0))) ∧
      (n < 64 → width = 8 → m.full = true → (s.servesMbadel n = false ∨ s.nextHm ≠ some n) → exec (.mailboxTake n src width false) s = .next s)) ∧
    (s.isReceiver n code = false → ∀ width, exec (.mailboxTake n src width false) s =
      .next ((if s.isSender n code = true then s else s.log 0x0501 n 0x20).answer 0)) ∧
    (∀ width, exec (.mailboxTake n src width true) s =
      exec (.mailboxTake n src width false) (if m.full = true then s.setMb n { m with stale := true } else s).sramFailed)) ∧
  (∀ (s : State) (k : Fin 64) (src : Source) (v : Word), let code := srcCode src
    (sharesLocks code = true →
      (s.lock k.val = 0 → ∃ t, exec (.lockAcquire k src false) s = .next t ∧ t.lock k.val = code ∧ t.boxes.lastRead = 0 ∧ (∀ j, j ≠ k.val → t.lock j = s.lock j)) ∧
      (s.lock k.val ≠ 0 → exec (.lockAcquire k src false) s = .next { s with boxes := { s.boxes with lastRead := s.lock k.val } }) ∧
      (s.lock k.val = code → v.toNat % 2 ^ 20 = code → exec (.lockRelease k src v) s = .next { s with boxes := { s.boxes with locks := FMap.set 0 s.boxes.locks k.val 0 } })) ∧
    exec (.lockAcquire k src true) s = exec (.lockAcquire k src false) (s.setLock k.val 0).sramFailed ∧
    (sharesLocks code = false → exec (.lockAcquire k src false) s = .next { s with boxes := { s.boxes with lastRead := 0 } }) ∧
    (sharesLocks code = false ∨ s.lock k.val ≠ code ∨ v.toNat % 2 ^ 20 ≠ code → exec (.lockRelease k src v) s = .next (s.log 0x0503 k.val v.toNat))) ∧
  (∀ (s : State) (v : Word), let e := s.events
    (e.ringEnabled = true → v.toNat < e.ringSize → (v.toNat + e.ringSize - e.ringHead) % e.ringSize ≤ (e.ringTail + e.ringSize - e.ringHead) % e.ringSize →
      exec (.erHeadWrite v) s = .next { s with events := { e with ringHead := v.toNat } }) ∧
    (e.ringEnabled = false ∨ e.ringSize ≤ v.toNat → exec (.erHeadWrite v) s = .next (s.log 0x0403 0 0x4014)) ∧
    exec .erLostRead s = .next { s with events := { e with lost := 0 }, boxes := { s.boxes with lastRead := e.lost.toNat } } ∧
    exec (.erStatusClear v) s = .next { s with events := { e with overflow := e.overflow && !v.getLsbD 1 } })

/-! ### Lanes, frames and egress -/

/-- O18. Frames and lanes (R13, R90 to R94, R97, R99, R110, R132, R151, R157, R159, R168, R169, R178, R180, R435). A lane that is UP counts its FEC's
codewords, drops a frame under the first MAC check that fails and parses every other one; frames that wait are classified while DRAM reads last; a lane
comes up, a stack lane only beside another module, and goes down; LACP times out, and its LACPDU waits for the commit; a port that sends nothing drops the
frames of withdrawn buffers and sends the frame that the scheduler chooses, within the tick's budget of spill reads; its end frees the buffer and counts it. -/
def Obligations.FramesAndLanesAct : Prop :=
  (∀ (s : State) (n : Fin 20) (l : Lane) (f : List Byte) (fcsBad : Bool) (cor unc sec ns frac : Nat) (entryBad : Bool) (fails : List (Nat × LookupFail)),
    s.lane? n.val = some l →
    let receive := exec (.frameReceive n f fcsBad cor sec ns frac unc entryBad fails) s
    let s0 := if l.mode = 0 ∨ l.mode = 3 then s else (s.laneCtr n.val 0x0B cor).laneCtr n.val 0x0C unc
    (l.st ≠ .up ∨ s.dataplane = false → receive = .next s) ∧
    (l.st = .up → s.dataplane = true →
      (fcsBad = true → receive = .next (s0.laneCtr n.val 2 1)) ∧
      (fcsBad = false → f.length + 4 < 64 → receive = .next (s0.laneCtr n.val 3 1)) ∧
      (fcsBad = false → 64 ≤ f.length + 4 → l.maxFrame < f.length + 4 → receive = .next (s0.laneCtr n.val 4 1)) ∧
      (fcsBad = false → 64 ≤ f.length + 4 → f.length + 4 ≤ l.maxFrame → be16 f 12 = 0x8808 → receive = .next (s0.laneCtr n.val 5 1)) ∧
      (fcsBad = false → 64 ≤ f.length + 4 → f.length + 4 ≤ l.maxFrame → be16 f 12 ≠ 0x8808 →
        let s1 := (s0.laneCtr n.val 0 1).laneCtr n.val 1 (f.length + 4)
        (n.val < 16 → receive = .next ((s1.seePtp n.val f).parseIn n.val l f ((sec * 1000000000 + ns) * 65536 + frac) entryBad fails)) ∧
        (16 ≤ n.val → receive = .next s1)))) ∧
  (∀ (s : State) (lane : Nat) (f : List Byte), (s.time.source ≠ 2 ∨ lane ≠ s.time.ptpLane ∨ be16 f 12 ≠ 0x88F7) → s.seePtp lane f = s) ∧
  (∀ (s : State) (b : Bool) (fails : List (Nat × LookupFail)), let q := if b = true then s.cls.queueB else s.cls.queueA
    (∀ f rest, q = f :: rest → s.cls.readsUsed < s.readAllotment →
      exec (.classificationDequeue b fails) s = .next ((s.setClsQueue b rest).classify f fails)) ∧
    (q = [] ∨ s.readAllotment ≤ s.cls.readsUsed → exec (.classificationDequeue b fails) s = .next s)) ∧
  (∀ (s : State) (n : Fin 20) (l : Lane) (peer : Option (Fin 8)), s.lane? n.val = some l →
    let trains := s.dataplane = true ∧ l.mode ≠ 0 ∧ (l.st = .noLink ∨ l.st = .down) ∧ (n.val < 16 ∨ ∃ p : Fin 8, peer = some p ∧ p.val ≠ s.position)
    (trains → exec (.laneUp n peer) s = .next ((s.setLane n.val .up).modLane n.val (fun x => { x with removal := false }))) ∧
    (¬ trains → exec (.laneUp n peer) s = .next s) ∧
    (∀ cut, l.st = .up → exec (.laneDown n cut) s =
      .next ((((s.modLane n.val (fun l => { l with st := .noLink, partner := false })).laneCtr n.val 0x10 1).laneCtr n.val 0x06 (b2n cut)).log 0x0301 n.val 1)) ∧
    (∀ cut, l.st ≠ .up → exec (.laneDown n cut) s = .next s)) ∧
  (∀ (s : State) (n : Fin 16),
    (s.lacpMember n.val = true → exec (.lacpTimeout n) s = .next (s.modLane n.val (fun l => { l with partner := false }))) ∧
    (s.lacpMember n.val = false → exec (.lacpTimeout n) s = .next s) ∧
    (s.lacpMember n.val = false ∨ s.laneIsUp n.val = false ∨ s.lacpElsewhere n.val = true → exec (.lacpPeriodicTransmit n) s = .next s) ∧
    (s.lacpMember n.val = true → s.laneIsUp n.val = true → s.lacpElsewhere n.val = false → ∃ (q : QFrame) (f : List Byte),
      exec (.lacpPeriodicTransmit n) s = .next { s with freeCtr := s.freeCtr + 1, tm := { s.tm with mpOut := s.tm.mpOut ++ [(65536 + n.val, q)] } } ∧
        f.length = 124 ∧ q.built = .bytes f ∧ q.len = 124 ∧ q.handle = 0)) ∧
  (∀ (s : State) (n : Fin 16) (l : Lane), s.lane? n.val = some l → let work := FMap.get 0 s.repair.laneWork n.val
    let due := work ≠ 0 ∧ l.removal = true ∧ l.distributing = false ∧ s.laneDrained n.val = true ∧ s.managed = true
    (due → exec (.memberQueuesDrained n) s = .next (s.replaceLane work n.val)) ∧ (¬ due → exec (.memberQueuesDrained n) s = .next s)) ∧
  (∀ (s : State) (p : Fin 20) (sec ns frac : Nat), let run := exec (.schedulerSelect p sec ns frac) s
    (s.laneIsUp p.val = false ∨ FMap.get none s.tm.sending p.val ≠ none → run = .next s) ∧
    (s.laneIsUp p.val = true → FMap.get none s.tm.sending p.val = none → let s0 := s.purgePort p.val
      (s0.choose p.val = none → run = .next s0) ∧
      (∀ c q rest, s0.choose p.val = some c → (s0.leaf c.key).frames = q :: rest →
        let waits := q.spilled = true ∧ 0 < s0.pools.spillRead ∧ s0.spillBudget < s0.pools.spillRead + q.len
        let s1 := (if q.spilled = true then { s0 with pools := { s0.pools with spillRead := s0.pools.spillRead + q.len } } else s0).takeHeadFrame p.val c
        let ts := adjustTime ((sec * 1000000000 + ns) * 65536 + frac) (((s0.lane? p.val).map (·.txAdj)).getD 0)
        (waits → run = .next s0) ∧
        (¬ waits → s1.frameBytes p.val q ts = none →
          run = .next (State.releaseTm { s1 with tm := { s1.tm with editErr := bump s1.tm.editErr p.val 1 } } q)) ∧
        (∀ f, ¬ waits → s1.frameBytes p.val q ts = some f → ∃ x : TxFrame, x.queue = c.key / 32 ∧ x.handle = q.handle ∧ x.bytes = f ∧
          (q.flags.getLsbD 4 = false → x.report = none) ∧ (q.flags.getLsbD 4 = true → ∃ r, x.report = some r ∧ r.arg = q.arg) ∧
          let s2 := s1.countSent p.val c (s0.wireBytes q)
          run = .next { s2 with tm := { s2.tm with sending := FMap.set none s2.tm.sending p.val (some x) } })))) ∧
  (∀ (s : State) (p : Fin 20) (bad : Bool),
    (FMap.get none s.tm.sending p.val = none → exec (.transmitComplete p bad) s = .next s) ∧
    (∀ x, FMap.get none s.tm.sending p.val = some x → ∃ t, exec (.transmitComplete p bad) s = .next t ∧
      let s1 := (s.laneCtr p.val 0x0D 1).laneCtr p.val 0x0E (x.bytes.length + 4)
      let s2 := if x.handle = 0 ∨ s1.isLive x.handle = false then s1 else if bad = true then s1.loseEntry x.handle else s1.removeOwner x.handle ownTm
      t.tm.sending = FMap.set none s2.tm.sending p.val none ∧ t.tm.sent = FMap.set [] s2.tm.sent p.val x.bytes ∧ t.pools = s2.pools ∧
      t.ports = s2.ports ∧ t.dram = s2.dram ∧
      (x.report = none → t.tm.tsReports = s2.tm.tsReports) ∧
      (∀ r, x.report = some r → s2.tm.tsReports.length < 4096 → t.tm.tsReports = s2.tm.tsReports ++ [r])))

/-- O19. What a verdict does with a frame that has its buffer (R115): DISPATCH and TO_ENGINE record an arrival, PUNT joins a queue of at most 4,096,
TO_TRANSPORT hands the frame to unit 6 or 7, and every other kind drops the frame and counts it. -/
def Obligations.VerdictsTakeEffect : Prop :=
  ∀ (s : State) (v : Verdict), let p := actParam v.action
    let lane := v.frame.lane
    (actKind v.action = 3 → s.verdictEffect v = s.dispatchTo v (spreadEngine (s.clsOf v.frame.ver) v.hash) (actEntry v.action)) ∧
    (actKind v.action = 4 → (s.peng p).isSome = true → s.verdictEffect v = s.dispatchTo v p (actEntry v.action)) ∧
    (actKind v.action = 4 → s.peng p = none → s.verdictEffect v = s.dispatchTo v (spreadEngine (s.clsOf v.frame.ver) v.hash) (actEntry v.action)) ∧
    (actKind v.action = 5 → s.cls.punt.length < 4096 → ∃ t, s.verdictEffect v = t ∧ t.cls.punt = (s.swapOwner v.frame.handle ownRx ownMp).cls.punt ++
      [(s.swapOwner v.frame.handle ownRx ownMp).heldFrame v (p % 256)] ∧ t.pools = (s.swapOwner v.frame.handle ownRx ownMp).pools) ∧
    (actKind v.action = 5 → 4096 ≤ s.cls.punt.length → ∃ t, s.verdictEffect v = t ∧ t.pools = (s.removeOwner v.frame.handle ownRx).pools ∧
      t.cls.punt = (s.removeOwner v.frame.handle ownRx).cls.punt ∧ t.cls.puntDrop = bump (s.removeOwner v.frame.handle ownRx).cls.puntDrop (p % 256) 1) ∧
    (actKind v.action = 6 → ∃ t, s.verdictEffect v = t ∧ let s1 := s.swapOwner v.frame.handle ownRx (ownUnit (6 + p % 2))
      t.cls.toTransport = s1.cls.toTransport ++ [(6 + p % 2, s1.heldFrame v 0)] ∧ t.pools = s1.pools) ∧
    (actKind v.action ∉ [3, 4, 5, 6] → ∃ t, s.verdictEffect v = t ∧ let s1 := s.removeOwner v.frame.handle ownRx
      t.cls.clsDrop = bump s1.cls.clsDrop (lane * 256 + p % 256) 1 ∧ t.pools = s1.pools ∧ t.erg = s1.erg)

/-! ### Work queues -/

/-- A caravan of `n` entries can be fetched from queue `q` of a function (R198, R255, R258, R259, R267, R285): the queue exists as `v` and is not in
ERROR, the function is served, holds no requests and may fetch again since it last did (R200), the entries lie before the tail and within the tick's 64, and the caravan
is not aborted. -/
def Claims.CanFetch (s : State) (fn q n : Nat) (v : Queue) : Prop :=
  s.queue (qKey fn q) = some v ∧ s.fnServed fn = true ∧ s.holds fn = false ∧ (s.fn fn).resumed ≤ s.time.tick ∧ v.error = false ∧ 1 ≤ n ∧ n ≤ (v.tail + v.size - v.head) % v.size ∧
    n + (if v.fetchTick = s.time.tick then v.fetchCnt else 0) ≤ 64 ∧ v.head ∉ v.aborted

/-- The queue after a caravan has been taken from it. -/
def Claims.took (s : State) (v : Queue) (n : Nat) (c : Caravan) : Queue :=
  { v with head := (v.head + n) % v.size, caravans := v.caravans ++ [c], fetchCnt := (if v.fetchTick = s.time.tick then v.fetchCnt else 0) + n, fetchTick := s.time.tick }

/-- O20. Fetching caravans (R9, R10, R154, R257 to R259, R265, R277, R364). Entries are cut into caravans as R258 says, and the caravans are fetched in turn.
One that can be fetched and has an operation free is taken from its ring; a faulty one completes with its status, its operation kept while the completion
waits; a TX caravan's fragments begin to be read into a buffer, any other caravan is put into a buffer and offered to an engine; without a free operation
the offer is deferred. A posted receive buffer joins its queue or completes BAD_DESCRIPTOR. -/
def Obligations.CaravansAreFetched : Prop :=
  (∀ d ds, (descIsF d = false ∨ descIsL d = true) → cutOne (d :: ds) = some ([d], ds)) ∧
  (∀ a mid rest, descIsF a = true → descIsL a = false → (∀ d ∈ mid, descIsF d = false ∧ descIsL d = false) →
    (∀ l, mid.length < 63 → descIsF l = false → descIsL l = true → cutOne (a :: (mid ++ l :: rest)) = some (a :: (mid ++ [l]), rest)) ∧
    (∀ f, mid.length < 63 → descIsF f = true → cutOne (a :: (mid ++ f :: rest)) = some (a :: mid, f :: rest)) ∧
    (mid.length = 63 → cutOne (a :: (mid ++ rest)) = some (a :: mid, rest)) ∧
    (mid.length < 63 → cutOne (a :: mid) = none)) ∧
  (∀ (s : State) (fn q kind : Nat) (c : List Desc) (cs : List (List Desc)), let t := s.fetchOne fn q kind c
    fetchEach fn q kind [] s = s ∧
    ((t.queue (qKey fn q)).map (·.head) = (s.queue (qKey fn q)).map (·.head) → fetchEach fn q kind (c :: cs) s = t) ∧
    ((t.queue (qKey fn q)).map (·.head) ≠ (s.queue (qKey fn q)).map (·.head) →
      fetchEach fn q kind (c :: cs) s = fetchEach fn q (descKind ((cs.headD []).headD (lastDesc []))) cs t)) ∧
  (∀ (s : State) (fn q : Nat) (ds : List Desc), ∀ p ∈ [(Instr.tx fn q ds, 1), (.rdmaWrite fn q ds, 3), (.rdmaRead fn q ds, 4), (.compressJob fn q ds, 0x10),
      (.decompressJob fn q ds, 0x11), (.gcmSealJob fn q ds, 0x12), (.gcmOpenJob fn q ds, 0x13)],
    exec p.1 s = .next (fetchEach fn q p.2 (cutAll ds.length ds) s)) ∧
  (∀ (s : State) (fn q : Nat) (ds : List Desc), cutOne ds = some (ds, []) → ∀ p ∈ [(Instr.tx fn q ds, 1), (.rdmaWrite fn q ds, 3), (.rdmaRead fn q ds, 4),
      (.compressJob fn q ds, 0x10), (.decompressJob fn q ds, 0x11), (.gcmSealJob fn q ds, 0x12), (.gcmOpenJob fn q ds, 0x13)],
    let key := qKey fn q
    let inst := fnInstHalf fn
    ((¬ ∃ v, Claims.CanFetch s fn q ds.length v) → exec p.1 s = .next s) ∧
    (∀ v, Claims.CanFetch s fn q ds.length v →
      (s.opRoom inst = false ∨ s.freeOp = none → exec p.1 s = .next (s.deferOffer fn)) ∧
      (∀ op, s.opRoom inst = true → s.freeOp = some op →
        let taken := fun (u : State) (out : Option (Byte × Nat × Nat)) =>
          some (Claims.took u v ds.length { op := op, first := v.head, count := ds.length, tag := (lastDesc ds).tag, irq := descIrq (lastDesc ds), out := out })
        (∀ st, s.caravanFault v p.2 ds = some st → let o : Operation :=
            { key := key, inst := fnInstHalf (keyFn key), gen := s.fnGen (keyFn key), arg := [], kind := descKind (ds.headD (lastDesc ds)), dead := false, handle := 0, len := 0 }
          exec p.1 s = .next (((s.setOp op (some o)).setQueue key (taken s (some (st, 0, if v.type = 2 then 0 else 6)))).drain key)) ∧
        (s.caravanFault v p.2 ds = none → let size := if p.2 = 1 then (ds.headD (lastDesc ds)).len.toNat + dataBytes ds else 32 * ds.length
          (∀ s1, s.alloc size false ownHost = (none, s1) → exec p.1 s = .next (s1.allocWaits ownHost)) ∧
          (∀ h s1, s.alloc size false ownHost = (some h, s1) → ∃ rest : List Word,
            let arg := BitVec.ofNat 32 ((ds.headD (lastDesc ds)).spec.toNat % 2 ^ 32) :: rest
            let o : Operation := { key := key, inst := inst, gen := s.fnGen fn, arg := arg, kind := p.2, dead := false, handle := h, len := size }
            let s2 := ((freeWords 7 s1).2.setOp op (some o)).setQueue key (taken s1 none)
            (p.2 = 1 → exec p.1 s = .next (s2.startRead fn inst (s.fnGen fn) (.txPayload op) (ds.map (fun d => (d.addr.toNat, d.len.toNat))))) ∧
            (p.2 ≠ 1 → let s3 := (s2.bufWrite h 0 ((ds.map descBytes).flatten)).swapOwner h ownHost ownRx
              exec p.1 s = .next ((s3.freeEngine.2.setOp op (some { o with handle := 0 })).arrive s3.freeEngine.1
                (replyArrival 2 (some op) inst (s.fnGen fn) arg h size 1 0 0)))))))) ∧
  (∀ (s : State) (fn q : Nat) (ds : List Desc), exec (.rxPost fn q ds) s = .next ((cutAll ds.length ds).foldl (State.postRx fn q) s)) ∧
  (∀ (s : State) (fn q : Nat) (ds : List Desc), cutOne ds = some (ds, []) → let d := lastDesc ds
    ((¬ ∃ v, Claims.CanFetch s fn q ds.length v) → exec (.rxPost fn q ds) s = .next s) ∧
    (∀ v, Claims.CanFetch s fn q ds.length v →
      let c := fun (out : Option (Byte × Nat × Nat)) => ({ op := noOp, first := v.head, count := ds.length, tag := d.tag, irq := descIrq d, out := out } : Caravan)
      (rxPostOk d = true → ds.length = 1 → v.type = 2 → let w := Claims.took s v ds.length (c none)
        exec (.rxPost fn q ds) s = .next ((s.setQueue (qKey fn q) (some { w with rxBufs := w.rxBufs ++ [{ slot := v.head, addr := d.addr.toNat, len := d.len.toNat }] })).drain (qKey fn q))) ∧
      (rxPostOk d = false ∨ ds.length ≠ 1 ∨ v.type ≠ 2 → exec (.rxPost fn q ds) s =
        .next ((s.setQueue (qKey fn q) (some (Claims.took s v ds.length (c (some (0x0A, 0, if v.type = 2 then 0 else 6)))))).drain (qKey fn q)))))

/-- O21. Admin commands of a network function's queue 0 (R259, R263 to R267, R269, R270). A well-formed command runs as an operation: its result is
settled in the commit and its change is made at the turn. Moderation that has waited long enough requests its vector. -/
def Obligations.QueueAdminCommandsAct : Prop :=
  (∀ (s : State) (fn : Nat) (d : Desc) (b : List Byte), ∀ p ∈ [(Instr.createQueue fn d b, 0x40), (.destroyQueue fn d b, 0x41), (.resetQueue fn d b, 0x42),
      (.abort fn d b, 0x43), (.setModeration fn d b, 0x44), (.queryQueue fn d b, 0x45)],
    let key := qKey fn 0
    ((¬ ∃ v, Claims.CanFetch s fn 0 1 v) → exec p.1 s = .next s) ∧
    (∀ v, Claims.CanFetch s fn 0 1 v →
      (s.opRoom (fnInstHalf fn) = false ∨ s.freeOp = none → exec p.1 s = .next (s.deferOffer fn)) ∧
      (∀ op, s.opRoom (fnInstHalf fn) = true → s.freeOp = some op →
        let taken := fun (out : Option (Byte × Nat × Nat)) =>
          some (Claims.took s v 1 { op := op, first := v.head, count := 1, tag := d.tag, irq := descIrq d, out := out })
        let o := fun kind => ({ key := key, inst := fnInstHalf (keyFn key), gen := s.fnGen (keyFn key), arg := [], kind := kind, dead := false, handle := 0, len := 0 } : Operation)
        (adminDescOk p.2 d = false → exec p.1 s =
          .next (((s.setOp op (some (o (descKind d)))).setQueue key (taken (some (0x0A, 0, if v.type = 2 then 0 else 6)))).drain key)) ∧
        (adminDescOk p.2 d = true →
          let s1 := (s.setOp op (some (o p.2))).setQueue key (taken none)
          let finish := fun (st : Byte) => s1.adminDue (.finish key op st 0)
          let q := fieldLe b 0 2
          (p.2 = 0x40 → s1.judgeCreate fn b ≠ 0 → exec p.1 s = .next (finish (s1.judgeCreate fn b))) ∧
          (p.2 = 0x40 → s1.judgeCreate fn b = 0 → exec p.1 s = .next ((finish 0).adminChange (.create (qKey fn q)
            (Queue.make (fieldLe b 2 1) (fieldLe b 3 1) (fieldLe b 4 1) (fieldLe b 6 2) (fieldLe b 8 8) (fieldLe b 16 8) (fieldLe b 24 2) (fieldLe b 26 2) (fieldLe b 28 4))))) ∧
          (p.2 = 0x41 ∨ p.2 = 0x42 → (q = 0 → exec p.1 s = .next (finish 0x0F)) ∧ (q ≠ 0 → s1.queue (qKey fn q) = none → exec p.1 s = .next (finish 0x11)) ∧
            (q ≠ 0 → s1.queue (qKey fn q) ≠ none → exec p.1 s = .next (s1.adminChange (.finish (qKey fn q) key op (decide (p.2 = 0x41)))))) ∧
          (0x43 ≤ p.2 → s1.queue (qKey fn q) = none → exec p.1 s = .next (finish 0x11)) ∧
          (p.2 = 0x43 → s1.queue (qKey fn q) ≠ none → exec p.1 s = .next (s1.adminDue (.abort key op (qKey fn q) (BitVec.ofNat 64 (fieldLe b 8 8))))) ∧
          (p.2 = 0x45 → s1.queue (qKey fn q) ≠ none → exec p.1 s = .next (s1.adminDue (.query key op (qKey fn q) d.addr.toNat))) ∧
          (p.2 = 0x44 → s1.queue (qKey fn q) ≠ none →
            let bad := s1.vectorsOf fn ≤ fieldLe b 2 2 ∨ modOk (fieldLe b 4 2) (fieldLe b 6 2) = false ∨ (q = 0 ∧ (fieldLe b 2 2 ≠ 0 ∨ fieldLe b 4 2 ≠ 0))
            (bad → exec p.1 s = .next (finish 0x0A)) ∧
            (¬ bad → exec p.1 s = .next ((finish 0).adminChange (.moderate (qKey fn q) (fieldLe b 2 2) (fieldLe b 4 2) (fieldLe b 6 2))))))))) ∧
  (∀ (s : State) (fn q : Nat) (v : Queue), s.queue (qKey fn q) = some v →
    let due := s.time.phase = .commit ∧ 0 < v.pendCount ∧ v.pendSince + v.modTicks ≤ s.time.tick
    (due → exec (.moderationExpiry fn q) s = .next ((s.setQueue (qKey fn q) (some { v with pendCount := 0 })).msix fn v.vector)) ∧
    (¬ due → exec (.moderationExpiry fn q) s = .next s)) ∧
  (∀ (s : State) (fn q : Nat), s.queue (qKey fn q) = none → exec (.moderationExpiry fn q) s = .next s)

/-! ### Requests of engines, and storage backends -/

/-- A unit takes the posted request `r`, the oldest one that fits, which leaves `u` (R51). -/
def Claims.Takes (s : State) (fits : PostReq → Prop) (r : PostReq) (u : State) : Prop :=
  ∃ before after, s.erg.posted = before ++ r :: after ∧ fits r ∧ (∀ x ∈ before, ¬ fits x) ∧ u = { s with erg := { s.erg with posted := before ++ after } }

/-- The field of a posted block at an offset. -/
def Claims.at (r : PostReq) (off n : Nat) : Nat := fieldLe r.block off n

/-- The operation that a block of unit 8 names: bit 31 of OPERATION says that there is one (R47, R271). -/
def Claims.opOf (r : PostReq) : Option Nat := if Claims.at r 8 4 / 2 ^ 31 % 2 = 1 then some (Claims.at r 8 4 % 2 ^ 16) else none

/-- O22. What the host units, unit 6 and unit 7 do with the oldest request posted to them (R51, R199, R205, R206, R261, R271, R285, R321, R348, R349, R365,
R372); with none posted nothing happens. A request of an ended operation or a stale instance only gives its buffer back. Data writes of an operation that
were posted before its COMPLETE or SAVE are issued first; an operation whose entry fails its check completes CONTROL_CHECK or is withdrawn. -/
def Obligations.PostedRequestsAreServed : Prop :=
  ∀ (s : State),
    (∀ p ∈ [(Instr.hostDmaRead, 1, none), (.hostDmaWrite, 2, some (5, 0)), (.hostDmaWriteRx, 2, some (5, 1)), (.complete .good, 8, some (4, 1)),
        (.complete .bad, 8, some (4, 1)), (.complete .ownerLost, 8, some (4, 1)), (.save .good, 8, some (4, 2)), (.save .bad, 8, some (4, 2)),
        (.save .ownerLost, 8, some (4, 2)), (.submit, 6, some (4, 1)), (.tune, 6, some (4, 2)), (.backendSubmit, 7, some (4, 1)),
        (.backendData, 7, some (4, 2)), (.cancel, 7, some (4, 3))],
      let fits := fun (r : PostReq) => r.unit = p.2.1 ∧ ∀ f : Nat × Nat, p.2.2 = some f → Claims.at r f.1 1 = f.2
      let data := fun (r x : PostReq) => decide (x.unit = 2) && x.op.isSome && decide (x.op = Claims.opOf r)
      ((∀ r ∈ s.erg.posted, ¬ fits r) → exec p.1 s = .next s) ∧
      (∀ r before after, s.erg.posted = before ++ r :: after → fits r → (∀ x ∈ before, ¬ fits x) → r.unit = 8 →
        let v := (before.filter (data r)).foldl (fun (s : State) _ => s.serve (data r) (fun r s => s.hostWriteAny r)) s
        ∃ (f : PostReq → Bool) (act : PostReq → State → State), (∀ x, f x = true ↔ fits x) ∧ exec p.1 s = .next (v.serve f act)) ∧
      (∀ r u, Claims.Takes s fits r u → (r.unit = 8 → ∀ x ∈ s.erg.posted, data r x = false) →
        let acks := Claims.at r 6 1 % 2 = 1
        (p.1 = .hostDmaRead → (u.replyDead r = true → exec p.1 s = .next (u.dropHostName (reqHandle r))) ∧
          (u.replyDead r = false → u.reqInBuffer r = false → exec p.1 s = .next ((u.dropHostName (reqHandle r)).reply r 2 0 0 0x0A)) ∧
          (u.replyDead r = false → u.reqInBuffer r = true →
            exec p.1 s = .next (u.startRead (itemFn r.inst) r.inst r.gen (.unit r) [(Claims.at r 8 8, Claims.at r 0x10 4)]))) ∧
        (p.1 = .hostDmaWrite ∨ p.1 = .hostDmaWriteRx → u.replyDead r = true → exec p.1 s = .next (u.dropHostName (reqHandle r))) ∧
        (p.1 = .hostDmaWrite → u.replyDead r = false → u.reqInBuffer r = false → exec p.1 s = .next (u.endWrite r 0x0A true)) ∧
        (p.1 = .hostDmaWrite → u.replyDead r = false → u.reqInBuffer r = true →
          let placed := (u.dropHostName (reqHandle r)).place (itemFn r.inst) 0 (Claims.at r 8 8) (u.bufRead (reqHandle r) (Claims.at r 0x18 4) (Claims.at r 0x10 4))
            (if acks then .hostReply r else .nothing)
          (∀ t, placed = some t → exec p.1 s = .next t) ∧ (placed = none → exec p.1 s = .next ((u.dropHostName (reqHandle r)).reply r 2 0 0 9))) ∧
        (p.1 = .hostDmaWriteRx → u.replyDead r = false → r.inst ≠ 0xFFFF#16 → u.isFrozen r.inst.toNat = true → exec p.1 s =
          .next ((u.modInstCtr r.inst.toNat (fun c => { c with frozenDrop := c.frozenDrop + 1 })).endWrite r 0x0F true)) ∧
        (p.1 = .hostDmaWriteRx → u.replyDead r = false → (r.inst = 0xFFFF#16 ∨ u.isFrozen r.inst.toNat = false) →
          (u.reqInBuffer r = false → exec p.1 s = .next (u.endWrite r 0x0A true)) ∧
          (u.reqInBuffer r = true → let fn := itemFn r.inst
            let key := qKey fn (Claims.at r 0x1C 2)
            let off := (u.fn (fnPf fn)).d3 = true ∨ (u.bme fn = false ∧ u.holdFull = true)
            (off → let v := u.modInstCtr r.inst.toNat (fun c => { c with rxMasterOff := c.rxMasterOff + 1 })
              exec p.1 s = .next ((if ((u.queue key).map (·.wake)).getD false = true then v.pme 1 else v).endWrite r 9 false)) ∧
            (¬ off → (u.queue key = none ∨ (∃ q, u.queue key = some q ∧ q.type ≠ 2)) → exec p.1 s = .next (u.endWrite r 9 true)) ∧
            (¬ off → ∀ q, u.queue key = some q → q.type = 2 →
              (∀ fill, fillBufs q.rxBufs 0 (Claims.at r 0x10 4) = some fill → exec p.1 s = .next (u.deliverFrame r key q fill)) ∧
              (fillBufs q.rxBufs 0 (Claims.at r 0x10 4) = none → exec p.1 s = .next (u.endWrite r 9 true))))) ∧
        (p.1 = .complete .good ∨ p.1 = .save .good → let acked := fun (v : State) => if acks then v.reply r 2 0 0 0 else v
          (u.replyDead r = true → exec p.1 s = .next u) ∧
          (u.replyDead r = false → (Claims.opOf r = none ∨ ∃ n, Claims.opOf r = some n ∧ u.op n = none) → exec p.1 s = .next (acked u)) ∧
          (u.replyDead r = false → ∀ n o, Claims.opOf r = some n → u.op n = some o →
            (p.1 = .complete .good → exec p.1 s = .next (acked (if fnSto (keyFn o.key) = true then u.nvComplete n (BitVec.ofNat 8 (Claims.at r 5 1))
              else u.finishOp n (BitVec.ofNat 8 (Claims.at r 5 1)) (Claims.at r 0x0C 4)))) ∧
            (p.1 = .save .good → exec p.1 s = .next (acked (if o.dead = true then u else u.setOp n (some { o with arg := reqArg r })))))) ∧
        (∀ lost, (p.1 = (.complete (if lost = true then .ownerLost else .bad)) ∨ p.1 = (.save (if lost = true then .ownerLost else .bad))) →
          ∀ n, Claims.opOf r = some n → let v := u.sramFailed
            (u.replyDead r = true → exec p.1 s = .next u) ∧ (u.replyDead r = false → v.op n = none → exec p.1 s = .next v) ∧
            (u.replyDead r = false → ∀ o, v.op n = some o → exec p.1 s = .next (
              if lost = true then { v with queues := { v.queues with withdrawn := v.queues.withdrawn ++ [n], ops := (v.setOp n none).queues.ops } }
              else if fnSto (keyFn o.key) = true then v.nvComplete n 0x0E else v.finishOp n 0x0E 0))) ∧
        (p.1 = .submit → let refuse := fun (st : Byte) => exec p.1 s = .next ((u.endSubmit r).reply r 5 0 0 st)
          let q := Claims.at r 0x0C 3
          (u.ctx q = none → refuse 0x11) ∧
          (∀ c, u.ctx q = some c → (c.inst ≠ r.inst.toNat → refuse 0x11) ∧
            (c.inst = r.inst.toNat → c.cached = false → exec p.1 s = .next (u.missWaits q c.inst (.submit r))) ∧
            (c.inst = r.inst.toNat → c.cached = true → (c.state < 2 → refuse 0x0F) ∧ (c.state = 4 → refuse 1) ∧
              (2 ≤ c.state → c.state ≠ 4 → let w := u.submitWqe r
                let good := 0 < w.len ∧ w.len ≤ (if c.spray = true then 1048576 else 2147483648) ∧ (w.segs.map Prod.snd).foldl (· + ·) 0 = w.len
                let c1 := { c with wqes := c.wqes ++ [w], reqQueue := Claims.at r 0x10 2, reqEdit := Claims.at r 0x12 2 % 4096 }
                let v := ((u.endSubmit r).setCtx q (some c1)).touchCtx q
                (¬ good → refuse 0x0A) ∧ (good → c.state ≠ 3 → exec p.1 s = .next v) ∧
                (good → c.state = 3 → exec p.1 s = .next (if w.isRead = true then v.pump q else v.readPayload q c1 w 0 w.len 0)))))) ∧
        (p.1 = .tune → let q := Claims.at r 0x0C 3
          let acked := fun (v : State) (st : Byte) => if acks then v.reply r 5 0 0 st else v
          (u.ctx q = none → exec p.1 s = .next (acked u 0x0A)) ∧
          (∀ c, u.ctx q = some c → (c.inst ≠ r.inst.toNat → exec p.1 s = .next (acked u 0x0A)) ∧
            (c.inst = r.inst.toNat → c.cached = false → exec p.1 s = .next (u.missWaits q c.inst (.submit r))) ∧
            (c.inst = r.inst.toNat → c.cached = true →
            let bad := (0 < Claims.at r 0x10 2 ∧ Claims.at r 0x10 2 < 16) ∨ 7 < Claims.at r 0x12 1 ∨ (0 < Claims.at r 0x13 1 ∧ Claims.at r 0x13 1 < 8) ∨ 64 < Claims.at r 0x14 1
            let pick := fun (x y : Nat) => if x = 0 then y else x
            (bad → exec p.1 s = .next (acked u 0x0A)) ∧
            (¬ bad → exec p.1 s = .next (acked ((u.setCtx q (some { c with ackTimeout := pick (Claims.at r 0x10 2) c.ackTimeout, retry := pick (Claims.at r 0x12 1) c.retry, reasm := pick (Claims.at r 0x13 1) c.reasm, maxMsgs := pick (Claims.at r 0x14 1) c.maxMsgs })).touchCtx q) 0))))) ∧
        (p.1 = .backendSubmit → let refuse := fun (st : Byte) => exec p.1 s = .next (u.reply r 6 0 0 st)
          (u.ns (Claims.at r 8 4) = none → refuse 0x11) ∧
          (∀ n b, u.ns (Claims.at r 8 4) = some n → u.backend n.backend = some b → let nlb := Claims.at r 0x18 4
            let tooBig := Claims.at r 0x0C 1 ≠ 0 ∧ (nlb = 0 ∨ 1048576 < nlb * n.block)
            (tooBig → refuse 0x0A) ∧ (¬ tooBig → u.laneRemains = false → refuse 0x10) ∧
            (¬ tooBig → u.laneRemains = true → let ref := u.sto.nextBref
              let c : BackendCmd := { backend := n.backend, ns := Claims.at r 8 4, nvmeOp := Claims.at r 0x0C 1, slba := Claims.at r 0x10 8, nlb := nlb, req := r, since := u.time.tick, sent := none, cancelled := false }
              let v := u.setBcmd ref (some c)
              exec p.1 s = .next (State.trySend { v with sto := { v.sto with nextBref := ref % 0xFFFFFFFF + 1 } } ref)))) ∧
        (p.1 = .cancel → let ref := Claims.at r 0x1C 4
          (∀ c, u.bcmd ref = some c → exec p.1 s = .next ((u.endBcmd ref c 1).backendAck r 0)) ∧ (u.bcmd ref = none → exec p.1 s = .next (u.backendAck r 0x11))) ∧
        (p.1 = .backendData → ∃ v : State, (v = u ∨ v = u.removeOwner (BitVec.ofNat 32 (Claims.at r 0x20 4)) ownSto) ∧
          (u.bcmd (Claims.at r 0x1C 4) = none → exec p.1 s = .next (v.backendAck r 0x11)) ∧
          (∀ c, u.bcmd (Claims.at r 0x1C 4) = some c → (c.cancelled = true ∨ c.sent = none) → exec p.1 s = .next (v.backendAck r 0x0F)) ∧
          (∀ c, u.bcmd (Claims.at r 0x1C 4) = some c → c.cancelled = false → c.sent ≠ none → exec p.1 s =
            .next ((v.toBackend c.backend (1 + Claims.at r 0x1C 4 % (psQueues (u.ctl (reqCtl c.req)).ps)) (leBytes 4 (Claims.at r 0x1C 4) ++ leBytes 4 (Claims.at r 0x24 4) ++
              u.bufRead (BitVec.ofNat 32 (Claims.at r 0x20 4)) 0 (Claims.at r 0x28 4))).backendAck r 0)))))

/-- O23. Storage backends (R153, R154, R311, R313, R317, R319, R321, R371). A connection is lost and comes up with an event (the first time, this ends its
BACKEND_ADD); a lost one is tried again every 500 ms; a command times out after 2 s; an idle queue closes after 10 s; a reply to a command that is not known
is discarded unless an NS_CREATE waits for it, one that finds no buffer is counted, and the last reply of a command frees it for the next. -/
def Obligations.BackendsConnectAndAnswer : Prop :=
  ∀ (s : State) (b : Nat),
    (s.backend b = none → (∀ up, exec (.backendReconnect b up) s = .next s) ∧ exec (.backendConnectionLost b) s = .next s ∧
      exec (.backendKeepAlive b) s = .next s ∧ exec (.backendConnected b) s = .next s ∧ ∀ q, exec (.backendQueueIdleClose b q) s = .next s) ∧
    (∀ v, s.backend b = some v →
      (v.up = true → exec (.backendConnectionLost b) s =
          .next ((s.setBackend b (some { v with up := false, lostAt := some s.time.tick, tries := 0, queues := [] })).log 0x0A02 b 0) ∧
        (∀ up, exec (.backendReconnect b up) s = .next s) ∧
        exec (.backendKeepAlive b) s = .next ((s.setBackend b (some { v with keepAlives := v.keepAlives + 1 })).toBackend b 0 (padTo 64 [0x18]))) ∧
      (v.up = false → exec (.backendConnectionLost b) s = .next s ∧ exec (.backendKeepAlive b) s = .next s ∧
        (let due := ∃ l, v.lostAt = some l ∧ l + (v.tries + 1) * s.msTicks 500 ≤ s.time.tick
          let s1 := s.toBackend b 0 (connectCapsule 0 v.subnqn)
          (¬ due → ∀ up, exec (.backendReconnect b up) s = .next s) ∧
          (due → exec (.backendReconnect b false) s = .next (s1.setBackend b (some { v with tries := v.tries + 1 })) ∧
            exec (.backendReconnect b true) s = .next ((s1.setBackend b (some { v with up := true, lostAt := none, tries := 0 })).log 0x0A02 b 1).pumpBackends)) ∧
        exec (.backendConnected b) s = .next (((s.setBackend b (some { v with up := true, lostAt := none })).log 0x0A02 b 1).pumpBackends.settleAdd b)) ∧
      (v.up = true → exec (.backendConnected b) s = .next s) ∧
      (∀ q t, FMap.get none v.queues q = some t →
        (t + s.msTicks 10000 ≤ s.time.tick → exec (.backendQueueIdleClose b q) s = .next (s.setBackend b (some { v with queues := FMap.set none v.queues q none }))) ∧
        (s.time.tick < t + s.msTicks 10000 → exec (.backendQueueIdleClose b q) s = .next s))) ∧
    (∀ ref, s.bcmd ref = none → exec (.backendCommandTimeout ref) s = .next s ∧ ∀ (lane : Nat) (rk st : Byte) (off : Nat) (d : List Byte),
      let reply := exec (.backendReply b ref rk st off d lane) s
      (s.identifying ref = none → reply = .next s) ∧
      (∀ w, s.identifying ref = some w → let answers := obj .backend b ∈ w.objs ∧ rk = 2 ∧ st = 0
        (answers → reply = .next (s.nsAnswer w (remoteOf d))) ∧ (¬ answers → reply = .next s))) ∧
    (∀ ref c, s.bcmd ref = some c →
      (s.bcmdExpired c = false → exec (.backendCommandTimeout ref) s = .next s) ∧
      (s.bcmdExpired c = true → c.cancelled = false → exec (.backendCommandTimeout ref) s = .next (s.endBcmd ref c 3)) ∧
      (s.bcmdExpired c = true → c.cancelled = true → exec (.backendCommandTimeout ref) s = .next (s.setBcmd ref none).pumpBackends) ∧
      (∀ t, c.sent = some t → c.backend = b → (t + s.msTicks 2000 ≤ s.time.tick → s.bcmdExpired c = true)) ∧
      (∀ (lane : Nat) (rk st : Byte) (off : Nat) (d : List Byte), let reply := exec (.backendReply b ref rk st off d lane) s
        let answer := s.backendAnswer c.req rk.toNat ref off (if rk = 3 then padTo 16 d else d) st
        (c.backend ≠ b ∨ c.sent = none → reply = .next s) ∧
        (c.backend = b → c.sent ≠ none → c.cancelled = true → reply = .next (if rk = 3 then (s.setBcmd ref none).pumpBackends else s)) ∧
        (c.backend = b → c.sent ≠ none → c.cancelled = false →
          (∀ t, answer = (false, t) → reply = .next (t.rxNoBuffer lane c.req.inst)) ∧
          (∀ t, answer = (true, t) → rk ≠ 3 → reply = .next t) ∧
          (∀ t, answer = (true, t) → rk = 3 → reply = .next (((t.noteResponse c (padTo 16 d)).setBcmd ref none).pumpBackends)))))

/-! ### Mbadel queries -/

/-- A command that only reads ends OK with the result `res`: the result is delivered, and nothing else happens (R225 to R230). -/
def Claims.Answers (s : State) (h : MbHdr) (c : Instr) (r : CmdRow) (need : Nat) (res : State → List Byte) : Prop :=
  ∀ ptr len, s.Acts h r ptr len need → exec c s = .next ((s.read h r ptr).finish h ptr len (res (s.read h r ptr)))

/-- A command of class I on objects that no class W command holds takes effect at once and ends OK without a result (R230, R231). -/
def Claims.Does (s : State) (h : MbHdr) (c : Instr) (r : CmdRow) (need : Nat) (objs : List (Nat × Nat)) (act : State → State) : Prop :=
  ∀ ptr len, s.Acts h r ptr len need → s.holding objs = none → exec c s = .next ((act (s.read h r ptr)).finish h ptr len [])

/-- One byte. -/
def Claims.b (n : Nat) : Byte := BitVec.ofNat 8 n

/-- O24. The queries of the groups (R233 to R248): each ends OK with the result that its row gives, and changes nothing else. Where the result is one
of the model's functions (a queue's, an instance's, an optical engine's), the statement says only that it is the result. -/
def Obligations.MbadelQueriesAnswer : Prop :=
  ∀ (s : State) (h : MbHdr),
    (∀ p ∈ [(Instr.identify h, rowH 0x0101, 40, fun (u : State) => partBytes ++ leBytes 4 u.fwRel ++ leBytes 4 0x00030001 ++ leBytes 4 0x00020004 ++
          [Claims.b u.nv.lifecycle, Claims.b u.boot.straps.pos.val, Claims.b u.time.period, 0] ++ leBytes 8 Config.serial.toNat),
        (.deviceState h, rowH 0x0102, 12, fun (u : State) => [Claims.b u.dev.state, Claims.b u.yardsInService, Claims.b u.lanesInService,
          Claims.b u.channelsInService, Claims.b (pairBits u.repair.mps + 16 * u.repair.mpActive), Claims.b (pairBits u.repair.farriers + 16 * u.repair.farrierActive),
          Claims.b (pairBits u.repair.flash), 0] ++ leBytes 4 u.causes),
        (.timeQuery h, row 0x0801, 32, fun (u : State) => leBytes 8 u.time.sec ++ leBytes 4 u.time.ns ++ [Claims.b u.time.clock.code, Claims.b u.time.source, 0, 0] ++
          leBytes 4 (BitVec.ofInt 32 u.time.delta).toNat ++ [Claims.b u.time.gate, match u.time.pendPeriod with | some q => Claims.b q.1 | none => 0xFF, 0, 0] ++
          leBytes 8 (match u.time.pendPeriod with | some q => q.2 | none => 0)),
        (.sparesQuery h, row 0x0901, 88, fun (u : State) => ((List.range 11).map (fun (i : Nat) => leBytes 2 (spareTotals.getD i 0) ++ leBytes 2 (FMap.get 0 u.repair.used i) ++
          leBytes 2 (FMap.get 0 u.repair.retired i) ++ zeros 2)).flatten),
        (.wearQuery h, row 0x0907, 138, fun (u : State) => ((List.range 34).map (fun (y : Nat) => leBytes 4 (u.stress y / 2 ^ 20))).flatten ++ leBytes 2 u.repair.consumed),
        (.imageQuery h, rowH 0x0A03, 28, fun (u : State) => u.imageInfo 0 ++ u.imageInfo 1 ++ leBytes 4 u.floor),
        (.keyQuery h, row 0x0A07, 8, fun (u : State) => ([0, 1, 2, 3].map (fun (k : Nat) => [Claims.b (b2n (u.keyLive k)), Claims.b (b2n (u.keyProgrammed k))])).flatten),
        (.stackQuery h, row 0x0B01, 16, fun (u : State) => [Claims.b u.stack.master, Claims.b (posMask u.stack.members),
            Claims.b (posMask (u.stack.members.filter (fun m => u.healthy m)))] ++ zeros 5 ++
          leBytes 8 u.time.number),
        (.powerQuery h, row 0x0C01, 28, fun (u : State) => leBytes 4 u.power.estimate ++ leBytes 4 u.power.vinMv ++ leBytes 4 u.power.holdupMv ++
          leBytes 2 (BitVec.ofInt 16 u.power.plate).toNat ++ leBytes 2 (BitVec.ofInt 16 u.power.junction).toNat ++ leBytes 4 (u.cap.getD 0) ++ leBytes 8 u.power.cappedTicks),
        (.domainQuery h, row 0x0C04, 8, fun (u : State) => leBytes 8 ((List.range 64).foldl (fun (m n : Nat) => if u.domainOn n then m + 2 ^ n else m) 0)),
        (.debugQuery h, row 0x0D03, 144, fun (u : State) => leBytes 4 u.monitor.unlockYards.toNat ++ zeros 4 ++ leBytes 8 u.monitor.unlockUntil ++
          (List.range 128).map (fun (i : Nat) => Claims.b ((List.range 8).foldl (fun (m b : Nat) => if (match u.peng (i * 8 + b) with | some pe => (u.eng pe).holdEng | none => false) then m + 2 ^ b else m) 0)))],
      Claims.Answers s h p.1 p.2.1 p.2.2.1 p.2.2.2) ∧
    (∀ first max, Claims.Answers s h (.logRead h 1 first max) (rowH 0x0E03) 16 (fun u => ((u.eventsFrom first max).map (fun (e : Event) => e.bytes false)).flatten) ∧
      Claims.Answers s h (.logRead h 2 first max) (rowH 0x0E03) 16 (fun u => ((u.repairsFrom first max).map RepairRec.bytes).flatten) ∧
      Claims.Answers s h (.repairLog h first max) (row 0x0905) 12 (fun u => ((u.repairsFrom first max).map RepairRec.bytes).flatten)) ∧
    (∀ oe, oe < 5 → Claims.Answers s h (.opticsQuery h oe) (row 0x0709) 18 (fun u => u.opticsQuery oe)) ∧
    (∀ n, n < 4096 → s.inst n ≠ none → Claims.Answers s h (.instanceQuery h n) (row 0x020A) 128 (fun u => u.instQuery n)) ∧
    (∀ n (pf : Byte) q, (n = 0xFFFF ∨ (n < 4096 ∧ s.inst n ≠ none ∧ s.holding [obj .inst n] = none)) → pf = 1 ∨ pf = 2 →
      Claims.Answers s h (.queueQuery h n pf q) (row 0x0301) 8 (fun u => u.queueQuery (queueFn n pf) q)) ∧
    (∀ set : List Nat, (∀ n ∈ set, n < 1024) → (∀ n ∈ set, s.peng n ≠ none) → Claims.Answers s h (.programQuery h set) (row 0x040F) 128
      (fun u => ((u.engset set).map (fun (pe : Nat) => leBytes 2 (u.eng pe).bank.program.toNat ++ leBytes 2 (u.eng pe).idleBank.program.toNat)).flatten)) ∧
    (∀ q c, q < 2 ^ 24 → s.ctx q = some c → s.holding [obj .ctx q] = none → Claims.Answers s h (.ctxQuery h q) (row 0x0507) 12
      (fun _ => [Claims.b c.state, Claims.b (b2n c.cached), 0, 0] ++ leBytes 4 c.sqPsn ++ leBytes 4 c.rqPsn)) ∧
    (∀ n v, n < 65536 → s.backend n = some v → s.holding [obj .backend n] = none → Claims.Answers s h (.backendQuery h n) (row 0x0607) 8
      (fun u => [Claims.b (b2n v.up), 0, 0, 0] ++ leBytes 4 (u.sto.cmds.filter (fun e => match e.2 with | some c => decide (c.backend = n) | none => false)).length))

/-! ### Mbadel commands of classes I and N -/

/-- A class W command that runs, from its take at a tick of those that count on (R230, R231). -/
def Claims.long (u : State) (h : MbHdr) (c : Instr) (r : CmdRow) (ptr len : Nat) (objs : List (Nat × Nat)) : Running :=
  { cmd := c, hm := h.hm.val, ptr := ptr, len := len, v2 := h.v2, opcode := r.opcode, objs := objs, start := u.cmdTick, stage := 1 }

/-- A command of class W on objects that no other one holds starts: it holds them from now on, and `start` is what it does at once (R230, R231). -/
def Claims.Starts (s : State) (h : MbHdr) (c : Instr) (r : CmdRow) (need : Nat) (objs : List (Nat × Nat)) (start : State → State) : Prop :=
  ∀ ptr len, s.Acts h r ptr len need → s.holding objs = none → let u := s.read h r ptr
    exec c s = .next (start { u with mbadel := { u.mbadel with running := u.mbadel.running ++ [Claims.long u h c r ptr len objs] } })

/-- O25. Settings of the device, the clock, events, rotation and the monitor's unlock (R16, R30, R32, R143, R233, R241, R242, R246, R248, R368, R376, R390):
each takes effect at once, when its operands are in range and its preconditions hold. POOL_CARVE and CONTROL_REGION are recorded for the next reset; the
10 ms of DEVICE_RESET run from the posting of its notice; a change of period is told to the members of a stack. -/
def Obligations.DeviceSettingsTakeEffect : Prop :=
  ∀ (s : State) (h : MbHdr),
    (∀ sizes counts, carveOk sizes counts = true → codeAreaBad sizes counts s.dev.controlMibNext = false →
      Claims.Does s h (.poolCarve h sizes counts) (row 0x0103) 56 [] (fun u => { u with pools := { u.pools with nextSizes := sizes, nextCounts := counts } })) ∧
    (∀ n, 4096 ≤ n → n ≤ 16384 → n % 256 = 0 → codeAreaBad s.pools.nextSizes s.pools.nextCounts n = false →
      Claims.Does s h (.controlRegion h n) (row 0x0105) 4 [] (fun u => { u with dev := { u.dev with controlMibNext := n } })) ∧
    (∀ ptr len, s.Acts h (row 0x0106) ptr len 4 → let u := s.read h (row 0x0106) ptr
      exec (.deviceReset h 0x5A5AA5A5) s = .next (({ u with dev := { u.dev with resetFor := some (h.hm.val, ptr) } } : State).finish h ptr len [])) ∧
    (∀ k ptr, (s.dev.resetFor ≠ some (k, ptr) → s.noticeReset k ptr = s) ∧
      (s.dev.resetFor = some (k, ptr) → s.noticeReset k ptr =
        { s with dev := { s.dev with resetFor := none, resetAt := some (s.time.tick + ticksOf s.time.period 10000000) } })) ∧
    (s.stacked = false → s.tellPeriod = s) ∧
    (s.stacked = true → s.tellPeriod =
      s.controlAll ctlPeriod 0 (match s.time.pendPeriod with | some p => BitVec.ofNat 8 p.1 :: leBytes 8 p.2 | none => [0xFF])) ∧
    (∀ code e, code < 5 → s.time.sec + 2 < e → s.time.pendPeriod = none → s.longestMin ≤ code → (s.boot.straps.stackEn = false ∨ s.stack.master = s.boot.straps.pos.val) →
      Claims.Does s h (.periodChange h code e) (row 0x0805) 16 [] (fun u => State.tellPeriod { u with time := { u.time with pendPeriod := some (code, e) } })) ∧
    (∀ p, s.time.pendPeriod = some p → s.time.sec + 1 < p.2 →
      Claims.Does s h (.periodCancel h) (row 0x0806) 0 [] (fun u => State.tellPeriod { u with time := { u.time with pendPeriod := none } })) ∧
    (∀ sec, 60 ≤ sec → sec ≤ 86400 →
      Claims.Does s h (.holdoverSet h sec) (row 0x0807) 4 [] (fun u => { u with time := { u.time with holdoverSec := sec } })) ∧
    (∀ (on : Byte) days, on.toNat ≤ 1 → (0 < days → days ≤ 365 →
        Claims.Does s h (.rotationSet h on days) (rowF 0x0902) 6 [] (fun u => { u with repair := { u.repair with rotationOn := decide (on = 1), rotationDays := days } })) ∧
      (days < 65536 →
        Claims.Does s h (.patrolSet h on days) (rowF 0x0904) 6 [] (fun u => { u with repair := { u.repair with patrolOn := decide (on = 1), patrolDays := days } }))) ∧
    (∀ addr k vector, addr % 4096 = 0 → addr < 2 ^ 64 → 8 ≤ k → k ≤ 16 → 64 ≤ vector → vector ≤ 1023 →
      Claims.Does s h (.eventRingSet h addr (2 ^ k) vector) (row 0x0E01) 14 []
        (fun u => { u with events := { u.events with ringBase := BitVec.ofNat 64 addr, ringSize := 2 ^ k, ringVector := vector, ringTail := 0, ringHead := 0, ringPhase := true, ringEnabled := true } })) ∧
    (∀ mask, Claims.Does s h (.eventMask h mask) (row 0x0E02) 32 [] (fun u => { u with events := { u.events with mask := mask } })) ∧
    (∀ (yards : Word) sec ptr len, 1 ≤ sec → sec ≤ 86400 → (s.nv.lifecycle = 1 ∨ s.nv.lifecycle = 2) → s.Acts h (row 0x0D01) ptr len 8 →
      let u := s.read h (row 0x0D01) ptr
      exec (.monitorUnlock h yards sec) s = .next (({ u with monitor := { u.monitor with unlockYards := u.monitor.unlockYards ||| yards, unlockUntil := u.time.sec + sec } } : State).finish h ptr len (leBytes 8 (u.time.sec + sec))))

/-- O26. Firmware images, keys and the lifecycle (R243, R406, R420 to R425), outside a power warning: a written slot loses its marker and takes the bytes; a
slot that passes validation is marked; a confirmed image raises the floor; a key is revoked when another verified image and another key remain; a lifecycle
state only rises; MP_SWITCH waits for its turn. -/
def Obligations.ImagesKeysAndLifecycleAct : Prop :=
  ∀ (s : State) (h : MbHdr), s.power.warn = false →
    (∀ slot off (data : List Byte), slot < 2 → off % 4096 = 0 → off < imageEnd → data.length % 4096 = 0 → data.length ≤ 1044480 → off + data.length ≤ imageEnd →
      (s.boot.runSlot ≠ some slot ∨ s.boot.fromRecovery = true) → s.chipUsable slot = true →
      Claims.Does s h (.imageWrite h slot off data) (rowH 0x0A01) (16 + data.length) [obj .slot slot] (fun u => u.slotWrite slot off data)) ∧
    (∀ slot ptr len, slot < 2 → s.chipUsable slot = true → s.validateStatus slot = 0 → s.holding [obj .slot slot] = none → s.Acts h (rowH 0x0A02) ptr len 5 →
      let u := s.read h (rowH 0x0A02) ptr
      exec (.imageValidate h slot) s = .next ((u.writeMarker slot).finish h ptr len (leBytes 4 (hdrSeq (u.slotHdr slot)) ++ [Claims.b (hdrKey (u.slotHdr slot))]))) ∧
    (∀ t ptr len, s.boot.firstRun = some t → t + 86400 ≤ s.time.sec → s.Acts h (row 0x0A05) ptr len 4 →
      let u := s.read h (row 0x0A05) ptr
      let v := if u.floor < u.boot.runSeq then u.jAppend 2 u.boot.runSeq else u
      exec (.imageConfirm h) s = .next (v.finish h ptr len (leBytes 4 v.floor))) ∧
    (∀ key, key < 4 → s.otherSigned key = true → (∃ k, k < 4 ∧ k ≠ key ∧ s.keyLive k = true) →
      Claims.Does s h (.keyRevoke h key) (row 0x0A06) 1 [] (fun u => if u.nv.revoked.contains key then u else { u with nv := { u.nv with revoked := u.nv.revoked ++ [key] } })) ∧
    (∀ new, new < 4 → s.nv.lifecycle < new →
      Claims.Does s h (.lifecycleAdvance h new 0x5A5AA5A5) (row 0x0A08) 8 [] (fun u => { u with nv := { u.nv with lifecycle := new } })) ∧
    (∀ slot tick, slot < 2 → s.standbyUsable = true → s.slotValid slot = true → (s.dev.state = 2 ∨ s.dev.state = 3) →
      Claims.Starts s h (.mpSwitch h slot tick) (row 0x0A04) 16 [obj .slot slot, obj .mp 0]
        (fun u => { u with repair := { u.repair with mpSwitch := some (slot, max u.time.tick (tick - u.time.jumped), hdrSeq (u.slotHdr slot)) } }))

/-! ### Mbadel commands on registrations, contexts, backends, namespaces and instances -/

/-- The number of entries of a map that are present. -/
def Claims.count {α : Type} (m : FMap (Option α)) : Nat := (m.filter (fun e => e.2.isSome)).length

/-- O27. Registrations and connection contexts as the host manager handles them (R238, R277, R335 to R338, R347). REG_CREATE makes a FREE index ACTIVE
and answers its key; REG_REVOKE makes the entry REVOKING, and it is FREE, with a new tag, once a later tick finds nothing in flight (`settleReg`).
CTX_MODIFY moves between the states as the standard permits. Which free index or slot is taken is open (log 6). -/
def Obligations.RdmaAdminCommandsAct : Prop :=
  ∀ (s : State) (h : MbHdr),
    (∀ n pd (rights : Byte) base length i ptr len, n < 4096 → pd < 65536 → rights.toNat < 4 → base < 2 ^ 64 → base + length ≤ 2 ^ 64 → s.inst n = some i →
      (s.regsOf n).length < i.res.regs → s.holding [obj .inst n] = none → s.Acts h (row 0x0501) ptr len 24 →
      let u := s.read h (row 0x0501) ptr
      (∀ k, u.pickFree 4 ((u.rdma.regs.filter (fun e => decide (e.2.state ≠ 0))).map Prod.fst) 1 16777215 = some k →
        let r : Reg := { base := base, length := length, inst := n, pd := pd, tag := (u.reg k).tag, rights := rights, state := 1, inflight := 0, marked := 0 }
        exec (.regCreate h n pd rights base length) s = .next ((u.setReg k r).tickFree.finish h ptr len (leBytes 4 (k * 256 + (u.reg k).tag.toNat)))) ∧
      (u.pickFree 4 ((u.rdma.regs.filter (fun e => decide (e.2.state ≠ 0))).map Prod.fst) 1 16777215 = none →
        exec (.regCreate h n pd rights base length) s = .next (u.endCmd h.hm.val ptr len h.v2 vNoRes))) ∧
    (∀ key : Word, let k := key.toNat / 256
      k ≠ 0 → (s.reg k).state = 1 → (s.reg k).tag.toNat = key.toNat % 256 →
      Claims.Starts s h (.regRevoke h key) (row 0x0502) 4 [obj .reg k] (fun u => u.setReg k { u.reg k with state := 2, marked := u.time.tick })) ∧
    (∀ k, ((s.reg k).state = 2 → ((s.settleReg k).reg k).state = 0 →
        (∀ w, (s.settleReg k).runningOn 0x0502 (obj .reg k) = some w → exec (.revokeDrainComplete k) s = .next ((s.settleReg k).endLong w vOk [] 0)) ∧
        ((s.settleReg k).runningOn 0x0502 (obj .reg k) = none → exec (.revokeDrainComplete k) s = .next (s.settleReg k))) ∧
      (((s.reg k).state ≠ 2 ∨ 0 < (s.reg k).inflight ∨ s.time.tick ≤ (s.reg k).marked) → exec (.revokeDrainComplete k) s = .next s)) ∧
    (∀ addr count, addr % 4096 = 0 → addr < 2 ^ 64 → count ≤ 1048576 → Claims.count s.rdma.ctxs = 0 →
      Claims.Does s h (.ctxBacking h addr count) (row 0x0503) 12 [] (fun u => { u with rdma := { u.rdma with backing := some (addr, count) } })) ∧
    (∀ n pd q (mode paths pmtu : Byte) pq (peer : List Byte) st i k, n < 4096 → pd < 65536 → q < 2 ^ 24 → mode.toNat ≤ 1 → 1 ≤ paths.toNat → paths.toNat ≤ 16 → 1 ≤ pmtu.toNat →
      pmtu.toNat ≤ 5 → s.ctx q = none → (mode = 0 ∨ st = true) → s.inst n = some i → (s.ctxsOf n).length < i.res.ctxs → s.freeSlot = some k →
      Claims.Does s h (.ctxCreate h n pd q mode paths pmtu pq peer st) (row 0x0504) 32 [obj .inst n, obj .ctx q]
        (fun u => u.tickFree.installCtx q (Ctx.make (pq % 2 ^ 24) n pd mode.toNat (if mode = 0 then 1 else paths.toNat) pmtu.toNat (padTo 16 peer) k))) ∧
    (∀ q (new : Byte) sp rp c, q < 2 ^ 24 → sp < 2 ^ 24 → rp < 2 ^ 24 → s.ctx q = some c →
      (new = 0 ∨ new = 4 ∨ (new = 1 ∧ c.state ≤ 1) ∨ (new = 2 ∧ c.state = 1) ∨ (new = 3 ∧ (c.state = 2 ∨ c.state = 3))) →
      Claims.Does s h (.ctxModify h q new sp rp) (row 0x0505) 16 [obj .ctx q] (fun u =>
        if new = 4 then (if c.state = 4 then u else u.errorCtx q 0)
        else if new = 0 then ((u.errorCtx q 1).modCtx q Ctx.clear).cacheCtx q
        else ((u.setCtx q (some (if new = 2 then { c with state := 2, rqPsn := rp } else if new = 3 ∧ c.state = 2 then { c with state := 3, sqPsn := sp, sqUna := sp } else { c with state := new.toNat }))).cacheCtx q).startWork q)) ∧
    (∀ q, q < 2 ^ 24 → s.ctx q ≠ none →
      Claims.Does s h (.ctxDestroy h q) (row 0x0506) 4 [obj .ctx q] (fun u => u.destroyCtx q))

/-- O28. Backends and namespaces as the host manager handles them (R227, R231, R239, R317, R318, R320). BACKEND_ADD makes a backend that is DOWN, asks
it to connect, and runs until it is up; NS_CREATE asks the backend for the remote Identify, runs until it is there, and takes the format that it reports; NS_DETACH waits for the outstanding commands of the namespace. -/
def Obligations.StorageAdminCommandsAct : Prop :=
  ∀ (s : State) (h : MbHdr),
    (∀ n (tr : Byte) port (addr nqn : List Byte), n < 65536 → (tr = 1 ∨ tr = 2) → port < 65536 → (0 : Byte) ∈ padTo 224 nqn → s.backend n = none → Claims.count s.sto.backends < 1024 →
      Claims.Starts s h (.backendAdd h n tr port addr nqn) (row 0x0601) 248 [obj .backend n]
        (fun u => (u.setBackend n (some { transport := tr.toNat, port := port, addr := padTo 16 addr, subnqn := padTo 224 nqn, up := false, lostAt := none, tries := 0, queues := [], keepAlives := 0 })).toBackend n 0 (connectCapsule 0 (padTo 224 nqn)))) ∧
    (∀ n, n < 65536 → s.backend n ≠ none → (∀ e ∈ s.sto.nss, ∀ v, e.2 = some v → v.backend ≠ n) →
      Claims.Does s h (.backendRemove h n) (row 0x0602) 2 [obj .backend n] (fun u => u.setBackend n none)) ∧
    (∀ n b rid (given : Option RemoteNs) v ptr len, n < 2 ^ 32 → b < 65536 → rid < 2 ^ 32 → s.ns n = none → s.backend b = some v → v.up = true →
      Claims.count s.sto.nss < 65536 → s.holding [obj .ns n, obj .backend b] = none → s.Taken h (row 0x0603) ptr len → 80 ≤ len →
      let u := s.read h (row 0x0603) ptr
      let ref := u.sto.nextBref
      let w : Running := { Claims.long u h (.nsCreate h n b rid given) (row 0x0603) ptr len [obj .ns n, obj .backend b] with stage := 1 + ref }
      let asked := State.toBackend { u with mbadel := { u.mbadel with running := u.mbadel.running ++ [w] }, sto := { u.sto with nextBref := ref % 0xFFFFFFFF + 1 } } b 0
        (padTo 64 ([0x06, 0] ++ leBytes 2 (ref % 65536) ++ leBytes 4 rid))
      exec (.nsCreate h n b rid given) s = .next (match given with | some remote => asked.nsAnswer w remote | none => asked)) ∧
    (∀ (w : Running) n b rid given (remote : RemoteNs), w.cmd = .nsCreate h n b rid given →
      let good := (remote.block = 512 ∨ remote.block = 4096) ∧ remote.metaOrPi = false
      (¬ good → s.nsAnswer w remote = s.endLong w (vOwn 0x0F 1) [] 0) ∧
      (good → h.checkOnly = true → s.nsAnswer w remote = s.endLong w vOk [] 0) ∧
      (good → h.checkOnly = false → s.nsAnswer w remote =
        (s.setNs n (some { backend := b, remote := rid, block := remote.block, blocks := remote.blocks })).endLong w vOk
          (leBytes 4 remote.block ++ zeros 4 ++ leBytes 8 remote.blocks) 16)) ∧
    (∀ n, n < 2 ^ 32 → s.ns n ≠ none → (∀ e ∈ s.sto.attach, e.2 ≠ some n) →
      Claims.Does s h (.nsDestroy h n) (row 0x0606) 4 [obj .ns n] (fun u => u.setNs n none)) ∧
    (∀ n nsid, n < 4096 → 1 ≤ nsid → nsid ≤ 256 → s.inst n ≠ none → FMap.get none s.sto.attach (n * 512 + nsid) ≠ none →
      Claims.Starts s h (.nsDetach h n nsid) (row 0x0605) 12 [obj .inst n] State.settleDetaches)

/-! ### Tenant instances -/

/-- O29. Commands on tenant instances, and the loading of programs (R45, R53, R234, R236, R275, R276, R280, R283, R284, R286, R288 to R292). A reset or a
destruction starts at once, or waits while a class W command holds the instance; a save runs until the instance is quiescent, which
writes its image if it still fits; a
restore whose image fails a check ends with that check's status; a harvest runs until the commit. -/
def Obligations.InstanceCommandsAct : Prop :=
  ∀ (s : State) (h : MbHdr) (n : Nat), n < 4096 →
    (∀ (mode flags : Byte) tenant r ptr len, mode.toNat ≤ 1 → flags.toNat < 8 → tenant < 4096 → resBad r (flags.getLsbD 1) (flags.getLsbD 2) = none → s.inst n = none →
      s.resShort n r = none → s.holding [obj .inst n] = none → s.Acts h (row 0x0201) ptr len 32 →
      let t := (s.read h (row 0x0201) ptr).createInst n mode flags tenant r
      exec (.instanceCreate h n mode flags tenant r) s = .next (t.finish h ptr len (t.genResult n))) ∧
    (∀ i, s.inst n = some i →
      ((i.st = .running ∨ i.st = .frozen) →
        Claims.Starts s h (.instanceReset h n) (row 0x0203) 2 [obj .inst n] (fun u => u.startReset n)) ∧
      (∀ p ∈ [(Instr.instanceReset h n, row 0x0203), (.instanceDestroy h n, row 0x0204)], ∀ ptr len, s.Acts h p.2 ptr len 2 → s.holding [obj .inst n] ≠ none →
        let u := s.read h p.2 ptr
        exec p.1 s = .next { u with mbadel := { u.mbadel with running := u.mbadel.running ++ [{ Claims.long u h p.1 p.2 ptr len [obj .inst n] with stage := 0 }] } }) ∧
      (i.st ≠ .destroying →
        Claims.Starts s h (.instanceDestroy h n) (row 0x0204) 2 [obj .inst n] (fun u => ((u.modInst n (fun j => { j with st := .destroying })).resetInst n).destroyDone n)) ∧
      (∀ (clear : Byte) addr room, clear.toNat ≤ 2 → i.st ≠ .destroying → i.st ≠ .restoring →
        (∀ w ∈ s.mbadel.running, obj .inst n ∈ w.objs → w.stage ≠ 0 → w.opcode = 0x0203 ∨ w.opcode = 0x0206) → ∀ ptr len, s.Acts h (row 0x0209) ptr len 20 →
        let u := s.read h (row 0x0209) ptr
        exec (.dirtyHarvest h n clear addr room) s = .next { u with mbadel := { u.mbadel with running := u.mbadel.running ++ [Claims.long u h (.dirtyHarvest h n clear addr room) (row 0x0209) ptr len [obj .inst n]] } }) ∧
      (i.st = .frozen →
        (∀ (addr : DWord) room, addr.toNat % 4096 = 0 → (s.saveImage n).length ≤ room →
          Claims.Starts s h (.instanceSave h n addr room) (row 0x0206) 20 [obj .inst n] (fun u => u.modInst n (fun j => { j with st := .saving }))) ∧
        (∀ (addr : DWord) room (image : List Byte),
          (s.restoreCheck n (image.take room) room = none → Claims.Starts s h (.instanceRestore h n addr room image) (row 0x0207) 20 [obj .inst n] (fun u => u.startRestore n)) ∧
          (∀ v, s.restoreCheck n (image.take room) room = some v → ∀ ptr len, s.Taken h (row 0x0207) ptr len → 84 ≤ len → s.holding [obj .inst n] = none →
            exec (.instanceRestore h n addr room image) s = .next ((s.read h (row 0x0207) ptr).endCmd h.hm.val ptr len h.v2 v))))) ∧
    (∀ w h' (addr : DWord) room, s.runningInst 0x0206 n = some w → w.cmd = .instanceSave h' n addr room →
      (s.quiescent n = true → room < (s.saveImage n).length →
        exec (.quiescence n) s = .next ((s.modInst n (fun i => { i with st := .frozen })).endLong w (vPre 2) [] (s.saveImage n).length)) ∧
      (s.quiescent n = true → (s.saveImage n).length ≤ room → exec (.quiescence n) s = .next (((s.hostWrite 0 addr.toNat (s.saveImage n)).modInst n (fun i => { i with st := .frozen })).endLong w vOk (leBytes 4 (s.saveImage n).length) 4)) ∧
      (s.quiescent n = false → exec (.quiescence n) s = .next s)) ∧
    (∀ (set : List Nat) (boundary : Byte) (image : List Byte), (∀ e ∈ set, e < 256) → (∀ e ∈ set, s.peng e ≠ none) → boundary.toNat ≤ 32 → 64 ≤ image.length → image.length ≤ 16384 →
      headerOk image = true → (∀ pe ∈ s.engset set, (s.eng pe).pendSwitch = false) →
      Claims.Does s h (.programLoad h set boundary image) (rowH 0x040D) (136 + image.length) [] (fun u =>
        let v := (u.engset set).foldl (fun (w : State) (pe : Nat) => w.setEng pe ((w.eng pe).loadIdle (bankOf image))) u
        if boundary = 0 then v else ((u.engset set).map (fun (pe : Nat) => pe / 32)).dedup.foldl (fun (w : State) (y : Nat) => w.setYard y { w.yard y with boundaryNext := 0x100000 + 65536 * boundary.toNat }) v))

/-! ### Tables, staged and read -/

/-- A STAGE command puts changes into a batch whose commit has not been requested, one after another while the commit shadow has room: it ends with the
status of `stageAll` and answers the batch's number (R133, R135, R236). -/
def Claims.Stages (s : State) (h : MbHdr) (c : Instr) (opcode need batch : Nat) (cs : List Change) : Prop :=
  ∀ ptr len, s.Acts h (row opcode) ptr len need → let u := s.read h (row opcode) ptr
    exec c s = .next ((u.stageAll batch cs).1.writeResult h.hm.val ptr len h.v2 (u.stageAll batch cs).2 [Claims.b batch] 1)

/-- O30. Staging, reading and abandoning (R102, R103, R109, R114, R117, R118, R133, R135, R136, R138, R236): a batch gathers changes, entry by entry or in one
piece, and ABANDON drops it; READ and TABLE_PLAN change nothing now; the oldest clean-up after a commit ends when no
frame of an earlier version waits, or can still be arriving (4 µs of a frame's arrival: log 63), and takes those versions with it. -/
def Obligations.StagedChangesGatherInBatches : Prop :=
  ∀ (s : State) (h : MbHdr),
    (∀ batch, 1 ≤ batch → batch ≤ 255 → s.batchRequested batch = false →
      (∀ table (es : List StagedEntry) ptr len, table < 64 → s.cls.cur.table table ≠ none → (∀ b, s.tableBatch table = some b → s.batchRequested b = false) →
        s.Acts h (rowH 0x0403) ptr len (8 + 112 * es.length) → let u := s.read h (rowH 0x0403) ptr
        let b := (s.tableBatch table).getD batch
        let x := u.stageEntries b table 0 es
        exec (.stageEntries h batch table es) s = .next (x.1.writeResult h.hm.val ptr len h.v2 (if x.2.2 = 0 then vOk else { status := x.2.2, kind := 2, value := 72 + 112 * x.2.1 })
          ([Claims.b b, 0, 0, 0] ++ leBytes 4 x.2.1) 8)) ∧
      (∀ first (ds : List (List Byte)), (∀ d ∈ ds, d.length = 64) → first < 12 → first + ds.length ≤ 12 → itemsBad stageBad 64 8 ds = none →
        (∀ n ∈ (ds.map stageTables).flatten, s.cls.cur.table n ≠ none) → itemsBad (stageTableBad s.cls.cur) 64 8 ds = none →
        Claims.Stages s h (.stageStages h batch first ds) 0x0404 (8 + 64 * ds.length) batch (ds.zipIdx.map (fun p => Change.stage (first + p.2) p.1))) ∧
      (∀ first (start : List Nat) (ns : List (List Byte)), (∀ d ∈ ns, d.length = 64) → start.length = 20 → (∀ n ∈ start, n < 256 ∨ n = 0xFFFF) → first < 256 → first + ns.length ≤ 256 →
        itemsBad nodeBad 64 48 ns = none →
        Claims.Stages s h (.stageGraph h batch first start ns) 0x0405 (48 + 64 * ns.length) batch
          (ns.zipIdx.map (fun p => Change.node (first + p.2) p.1) ++ (if ∀ n ∈ start, n = 0xFFFF then [] else [Change.starts start]))) ∧
      (∀ pf nm : List Word, pf.length = 20 → nm.length = 20 → (∀ a ∈ pf ++ nm, defaultOk a = true) →
        Claims.Stages s h (.stageDefaults h batch pf nm) 0x0406 168 batch (if ∀ a ∈ pf ++ nm, a = 0xFFFFFFFF then [] else [Change.defaults pf nm])) ∧
      (∀ (seedset : Byte) first seed (ps : List Byte) (es : List Nat), seedset.toNat ≤ 1 → ps.length = 28 → (∀ p ∈ ps, p.toNat < 4 ∨ p = 0xFF) → (∀ v ∈ es, v < 1024) → first + es.length ≤ 4096 →
        Claims.Stages s h (.stageSpread h batch seedset first seed ps es) 0x0407 (40 + 2 * es.length) batch
          ((if seedset = 1 then [Change.spreadSeed seed] else []) ++ (if ∀ p ∈ ps, p = 0xFF then [] else [Change.profiles ps]) ++ es.zipIdx.map (fun p => Change.spreadEntry (first + p.2) p.1))) ∧
      Claims.Does s h (.abandon h batch) (row 0x0409) 1 [] (fun u => { u with cls := { u.cls with batches := u.cls.batches.filter (fun b => decide (b.num ≠ batch)) } })) ∧
    (∀ (what : Byte) table first count (key : List Byte), 1 ≤ what.toNat → what.toNat ≤ 5 → (what = 1 → table < 64 ∧ s.cls.cur.table table ≠ none) →
      (what = 2 → first + count ≤ 256) → (what = 3 → first + count ≤ 12) → (what = 4 → first + count ≤ 4096) →
      Claims.Answers s h (.read h what table first count key) (row 0x040A) 48 (fun u => u.readTables what.toNat table first count key)) ∧
    (∀ sizes : List Nat, sizes.length = 9 → sizes.foldl (· + ·) 0 = 40960 →
      Claims.Does s h (.tablePlan h sizes) (row 0x040C) 36 [] (fun u => { u with cls := { u.cls with tablePlanNext := sizes } })) ∧
    (s.cls.cleaning = [] → exec .commitCleanupComplete s = .next s) ∧
    (∀ c rest, s.cls.cleaning = c :: rest →
      let since := if s.cls.cur.ver = c.ver then s.cls.curFrom else ((s.cls.former.find? (fun v => decide (v.1.ver = c.ver))).map Prod.snd).getD 0
      let waits := (∃ f ∈ s.cls.queueA ++ s.cls.queueB, f.ver < c.ver) ∨ fineTime s.time.sec s.time.ns s.time.frac < since + 4000 * 65536
      (waits → exec .commitCleanupComplete s = .next s) ∧
      (¬ waits → exec .commitCleanupComplete s =
        .next { s with cls := { s.cls with former := s.cls.former.filter (fun v => decide (c.ver ≤ v.1.ver)), cleaning := rest } }))

/-! ### Mbadel commands of class T -/

/-- A class T command as it is armed at its take. -/
def Claims.armed (u : State) (h : MbHdr) (c : Instr) (r : CmdRow) (ptr len tick : Nat) : Armed :=
  { opcode := r.opcode, cmd := c, hm := h.hm.val, ptr := ptr, len := len, v2 := h.v2, ready := u.readyTick (len - 64), due := u.dueTick tick }

/-- A class T command (R230, R232). At its take it is judged against the device as the armed commands before it will leave it (`ok` of that), and armed
for its turn. At a turn, if `ok` still holds, it takes effect and ends OK with its result. -/
def Claims.Arms (s : State) (h : MbHdr) (c : Instr) (r : CmdRow) (need tick : Nat) (objs : List (Nat × Nat)) (ok : State → Prop) (eff : State → State) (res : State → List Byte) : Prop :=
  (∀ ptr len, s.Acts h r ptr len need → s.holding objs = none → ok s.projected → let u := s.read h r ptr
    exec c s = .next { u with mbadel := { u.mbadel with armed := u.mbadel.armed ++ [Claims.armed u h c r ptr len tick] } }) ∧
  (∀ (v : State) (start : Nat) (a : Armed), a.cmd = c → ok v → v.applyArmed start a = (eff v).endArmed a vOk (res v))

/-- An instance exists in a state. -/
def Claims.instIn (v : State) (n : Nat) (l : List InstState) : Prop := ∃ i, v.inst n = some i ∧ i.st ∈ l

/-- O31. Class T commands on instances, queues, tables and namespaces, and their effects at the turn (R120, R121, R142, R160, R233 to R236, R239, R265, R279,
R285, R287). -/
def Obligations.TurnCommandsOnTenantsAndTables : Prop :=
  ∀ (s : State) (h : MbHdr),
    (∀ pool : Byte, ((1 ≤ pool.toNat ∧ pool.toNat ≤ 7) ∨ pool = 0xFF) →
      Claims.Arms s h (.poolCounters h pool) (rowH 0x0104) 1 0 [] (fun _ => True) (fun v => v.poolCounters pool |>.1) (fun v => v.poolCounters pool |>.2)) ∧
    (∀ n, n < 4096 →
      (∀ r, resBad r (s.absentVfs n).1 (s.absentVfs n).2 = none → Claims.Arms s h (.instanceResize h n r) (row 0x0202) 32 0 [obj .inst n]
        (fun v => ∃ i, v.inst n = some i ∧ (i.st = .running ∨ i.st = .frozen) ∧ i.elastic = true ∧ resBelow r (v.resUse n) = false ∧ v.resShort n r = none)
        (fun v => v.modInst n (fun i => { i with res := r })) (fun _ => [])) ∧
      Claims.Arms s h (.instanceFreeze h n) (row 0x0205) 2 0 [obj .inst n] (fun v => Claims.instIn v n [.running]) (fun v => v.modInst n (fun i => { i with st := .frozen })) (fun _ => []) ∧
      Claims.Arms s h (.instanceThaw h n) (row 0x0208) 2 0 [obj .inst n] (fun v => Claims.instIn v n [.frozen])
        (fun v => ((v.modInst n (fun i => { i with st := .running })).modCtl (vfSto n) (fun c => { c with katoFrom := v.time.tick })).nvFlush (vfSto n)) (fun _ => []) ∧
      (∀ count (macs : List Nat), count ≤ 16 → (∀ m ∈ macs, m < 2 ^ 48) →
        Claims.Arms s h (.macSet h n count macs) (row 0x020B) 136 0 [obj .inst n] (fun v => Claims.instIn v n [.running, .frozen]) (fun v => v.modInst n (fun i => { i with macs := macs.take count })) (fun _ => [])) ∧
      (∀ ns nsid, ns < 2 ^ 32 → 1 ≤ nsid → nsid ≤ 256 →
        Claims.Arms s h (.nsAttach h n ns nsid) (row 0x0604) 12 0 [obj .inst n, obj .ns ns]
          (fun v => (∃ i, v.inst n = some i ∧ (v.attachedTo n).length < i.res.ns) ∧ v.ns ns ≠ none ∧ FMap.get none v.sto.attach (n * 512 + nsid) = none)
          (fun v => { v with sto := { v.sto with attach := FMap.set none v.sto.attach (n * 512 + nsid) (some ns) } }) (fun _ => []))) ∧
    (∀ n (pf : Byte) q, (n < 4096 ∨ n = 0xFFFF) → (pf = 1 ∨ pf = 2) → let objs := if n = 0xFFFF then [] else [obj .inst n]
      (q ≠ 0 → Claims.Arms s h (.queueDestroy h n pf q) (row 0x0302) 6 0 objs (fun v => (n = 0xFFFF ∨ v.inst n ≠ none) ∧ v.hasQueue (queueFn n pf) q = true) (fun v => v.queueDestroy (queueFn n pf) q) (fun _ => [])) ∧
      (pf = 1 → ∀ tmq (wake : Byte), Claims.Arms s h (.ringBind h n pf q tmq wake) (row 0x0303) 9 0 objs
        (fun v => ∃ x t, v.queue (qKey (queueFn n 1) q) = some x ∧ v.hasQueue (queueFn n 1) q = true ∧ (x.type = 1 ∨ x.type = 2) ∧ v.tmq tmq = some t ∧
          (n = 0xFFFF ∨ v.inst n ≠ none) ∧ ∀ i, v.inst n = some i → t.tenant = i.tenant)
        (fun v => v.modQueue (qKey (queueFn n 1) q) (fun x => { x with tmq := some tmq, wake := wake.getLsbD 0 })) (fun _ => []))) ∧
    (∀ t (ty kl fl : Byte) cap seed nf fs, (tableJudge t ty kl fl cap seed nf fs).bad = none →
      Claims.Arms s h (.tableCreate h t ty kl fl cap seed nf fs) (rowH 0x0401) 32 0 [] (fun v => v.cls.cur.table t = none ∧ v.tableFits (newTable ty kl fl cap seed nf fs) = true)
        (fun v => v.tableCreate t (newTable ty kl fl cap seed nf fs)) (fun _ => [])) ∧
    (∀ t, t < 64 →
      Claims.Arms s h (.tableDestroy h t) (rowH 0x0402) 1 0 []
        (fun v => v.cls.cur.table t ≠ none ∧ (∀ e ∈ v.cls.cur.stages, t ∉ stageTables e.2) ∧ ∀ b ∈ v.cls.batches, ∀ c ∈ b.changes, t ∉ c.staged ∧ ∀ op e, c ≠ .entry t op e)
        (fun v => v.dropTable t) (fun _ => []) ∧
      Claims.Arms s h (.tableCounters h t) (row 0x040B) 1 0 [] (fun v => v.cls.cur.table t ≠ none) (fun v => v) (fun v => v.tableSix t))

/-- O32. Class T commands on lanes, groups, the traffic manager, edit templates, the clock, power, the stack and the monitor, and their effects at the turn
(R19, R29, R90, R98, R139, R162 to R164, R173, R174, R240, R241, R244 to R247, R445, R446, R460). -/
def Obligations.TurnCommandsOnPortsAndDevice : Prop :=
  ∀ (s : State) (h : MbHdr),
    (∀ lane (mode : Byte) mf (rx tx : Int) (adj : Byte), lane < 20 → (mode = 0xFF ∨ mode.toNat ∈ laneModes lane) → (mf = 0 ∨ (1518 ≤ mf ∧ mf ≤ 9728)) → -16000 ≤ rx → rx ≤ 16000 →
      -16000 ≤ tx → tx ≤ 16000 → adj.toNat < 4 →
      Claims.Arms s h (.laneSet h lane mode mf rx tx adj) (rowH 0x0701) 9 0 []
        (fun v => (mode ≠ 0xFF → v.splitsGroup lane mode.toNat = false) ∧ ∀ l, v.lane? lane = some l → l.st ≠ .failed) (fun v => v.laneSet lane mode mf rx tx adj) (fun _ => [])) ∧
    (∀ g (mode : Byte) (ms : Word), g < 8 → mode.toNat ≤ 1 → ms.toNat < 65536 → (maskLanes ms).length ≤ 8 →
      Claims.Arms s h (.agSet h g mode ms) (row 0x0702) 8 0 [] (fun v => (agJudge g mode ms).pre v = none) (fun v => v.formGroup g (decide (mode = 1)) (maskLanes ms) (maskLanes ms)) (fun _ => [])) ∧
    (∀ g seed (pr : Byte), g < 8 → (pr.toNat ≤ 3 ∨ pr = 0xFF) →
      Claims.Arms s h (.agHash h g seed pr) (row 0x0703) 9 0 [] (fun _ => True)
        (fun v => let c := v.cls.cur
          { v with ports := { v.ports with groups := modifyAt v.ports.groups g (fun x => { x with seed := seed }) },
                   cls := { v.cls with cur := { c with profiles := if pr = 0xFF then c.profiles else FMap.set 2 c.profiles (20 + g) pr } } }) (fun _ => [])) ∧
    (∀ q d c t qu mx sp, q < 65536 → (d < 16 ∨ (0x20 ≤ d ∧ d < 0x28)) → c < 8 → t < 4096 → (qu = 0 ∨ (256 ≤ qu ∧ qu ≤ 1048576)) → (mx = 0 ∨ (2048 ≤ mx ∧ mx < 2 ^ 32)) →
      (sp = 0 ∨ (2048 ≤ sp ∧ sp ≤ if mx = 0 then 1048576 else mx)) →
      Claims.Arms s h (.tmqCreate h q d c t qu mx sp) (row 0x0704) 20 0 [] (fun v => (tmqJudge q d c t qu mx sp).pre v = none)
        (fun v => v.setTmq q (some { dest := d, cls := c, tenant := t, quantum := if qu = 0 then 16384 else qu, maxBytes := if mx = 0 then 1048576 else mx, spill := sp, leaves := v.newLeaves d, closed := [] })) (fun _ => [])) ∧
    (∀ q, Claims.Arms s h (.tmqDestroy h q) (row 0x0705) 2 0 [] (fun v => v.tmq q ≠ none) (fun v => v.tmqDestroy q) (fun _ => [])) ∧
    (∀ (k : Byte) i a, (tmAttrJudge k i a).bad = none →
      Claims.Arms s h (.tmAttr h k i a) (row 0x0706) (if k = 1 then 41 else if k = 2 then 11 else 16) 0 [] (fun _ => True) (fun v => v.tmAttr k i a) (fun _ => [])) ∧
    (∀ t (raw : List Byte), 1 ≤ t → t ≤ 4095 → raw.length = 128 → templateOk raw = true →
      Claims.Arms s h (.editLoad h t raw) (row 0x0707) 136 0 [] (fun _ => True) (fun v => { v with tm := { v.tm with templates := FMap.set [] v.tm.templates t raw } }) (fun _ => [])) ∧
    (∀ (sc : Byte) (i : Word), 1 ≤ sc.toNat → sc.toNat ≤ 7 →
      Claims.Arms s h (.portCounters h sc i) (rowH 0x0708) 8 0 [] (fun v => v.counterObj sc.toNat i = true) (fun v => v) (fun v => v.portCounters sc.toNat i)) ∧
    (∀ lane a b d, (lane < 16 ∨ lane = 0xFF) → (a = 2 ∧ b = 3 ∨ a = 3 ∧ b = 2) → 24 ≤ d → d ≤ 43 →
      Claims.Arms s h (.sourcePriority h lane a b d) (row 0x0802) 4 0 [] (fun _ => True) (fun v => v.setPrio lane a b d) (fun _ => [])) ∧
    (∀ src : Byte, (src = 2 ∨ src = 3) →
      Claims.Arms s h (.sourceSelect h src) (row 0x0803) 1 0 [] (fun v => v.time.qualified src.toNat = true)
        (fun v => if v.time.qualStack && v.sourceOk 1 then v else v.clockTo .acquiring src.toNat) (fun _ => [])) ∧
    (∀ g tick, 218 ≤ g → g ≤ 248 →
      Claims.Arms s h (.setGate h g tick) (row 0x0804) 16 tick [] (fun _ => True) (fun v => { v with time := { v.time with gate := g } }) (fun _ => [])) ∧
    (∀ g (mode : Byte) (ms : List Half), g < 8 → mode.toNat ≤ 1 → ((ms.take 8).map (fun m => (maskLanes (m.zeroExtend 32)).length)).sum ≤ 8 →
      Claims.Arms s h (.stackGroup h g mode ms) (row 0x0B02) 20 0 [] (fun v => v.isMaster = true ∧ v.elsewhere g (v.ownLanes ms) = false ∧ v.mixedModes (v.ownLanes ms) = false ∧
        v.leavesOver g (v.ownLanes ms) = false) (fun v => v.stackGroup g mode ms) (fun _ => [])) ∧
    (∀ p e n, p < 65536 → e < 256 → n < 8 →
      Claims.Arms s h (.stackStage h p e n) (row 0x0B03) 4 0 [] (fun _ => True)
        (fun v => { v with stack := { v.stack with stages := (let others := v.stack.stages.filter (fun b => !(decide (b.1 = p) && decide (b.2.1 = e))); if n = v.position then others else others ++ [(p, e, n)]) } }) (fun _ => [])) ∧
    (∀ cap, (cap = 0 ∨ (20000 ≤ cap ∧ cap ≤ 85000)) →
      Claims.Arms s h (.powerCap h cap) (row 0x0C02) 4 0 [] (fun _ => True) (fun v => { v with power := { v.power with capCfg := cap } }) (fun _ => [])) ∧
    (∀ p (m : Half), p < 65536 →
      Claims.Arms s h (.urgentMask h p m) (row 0x0C03) 4 0 [] (fun _ => True) (fun v => { v with erg := { v.erg with urgent := FMap.set 1 v.erg.urgent p (m ||| 1) } }) (fun _ => [])) ∧
    (∀ ys : Word, Claims.Arms s h (.monitorRelock h ys) (row 0x0D02) 4 0 [] (fun _ => True) (fun v => v.relock ys) (fun _ => []))

/-- O33. COMMIT and BANK_SWITCH (R54, R134 to R136, R236). From its acceptance a batch's commit is requested and a bank switch is pending on its engines.
At its turn a COMMIT outside a stack applies its batch whole, unless TESTING or an earlier commit makes it wait: one that still holds former values in the
shadow, or whose clean-up one of the batch's tables awaits. The former version stays until the clean-up. A bank switch turns every engine of its set to its
other bank. -/
def Obligations.CommitsAndBankSwitchesWaitForTheirTurn : Prop :=
  ∀ (s : State) (h : MbHdr),
    (∀ b tick ptr len, 1 ≤ b → b ≤ 255 → s.batchRequested b = false → s.boot.straps.stackEn = false → s.projected.stacked = false → s.projected.changesOf b ≠ [] →
      s.Acts h (rowH 0x0408) ptr len 16 → let u := s.read h (rowH 0x0408) ptr
      exec (.commit h b tick) s = .next ((State.requestBatch { u with mbadel := { u.mbadel with armed := u.mbadel.armed ++ [Claims.armed u h (.commit h b tick) (rowH 0x0408) ptr len tick] } } b true).tickFree)) ∧
    (∀ (v : State) start b a,
      (v.commitWaits b = true ↔ ∃ c ∈ v.cls.cleaning, 0 < c.blocks ∨ ∃ t ∈ c.tables, t ∈ entryTables (v.changesOf b)) ∧
      ((v.commitWaits b = true ∨ v.dev.state = 1) → v.applyCommit start b a = v) ∧
      (v.commitWaits b = false → v.dev.state ≠ 1 →
        v.applyCommit start b a = (v.applyBatch b start).endArmed a vOk [] ∧
        (v.applyBatch b start).cls.cur = commitConfig v.cls.cur (v.changesOf b) ∧ (v.applyBatch b start).cls.former = (v.cls.cur, v.cls.curFrom) :: v.cls.former ∧
        (v.applyBatch b start).cls.curFrom = start ∧ ∀ x ∈ (v.applyBatch b start).cls.batches, x.num ≠ b)) ∧
    (∀ (set : List Nat) tick, (∀ n ∈ set, n < 1024) →
      (∀ ptr len, (∀ n ∈ set, s.projected.peng n ≠ none) → (∀ pe ∈ s.projected.engset set, (s.projected.eng pe).holdEng = false) → s.Acts h (row 0x040E) ptr len 136 →
        let u := s.read h (row 0x040E) ptr
        exec (.bankSwitch h set tick) s = .next (State.pendBanks { u with mbadel := { u.mbadel with armed := u.mbadel.armed ++ [Claims.armed u h (.bankSwitch h set tick) (row 0x040E) ptr len tick] } } set true)) ∧
      (∀ (v : State) start a, a.cmd = .bankSwitch h set tick → (∀ n ∈ set, v.peng n ≠ none) → (∀ pe ∈ v.engset set, (v.eng pe).holdEng = false) →
        v.applyArmed start a = (v.switchBanks set).endArmed a vOk []))

/-! ### Repair and wear -/

/-- What ends a class W command that has reached its bound (R230): the device after it. -/
def Claims.BoundEnds (s : State) (r : Running) (t : State) : Prop :=
  (∀ h n, r.cmd = .instanceReset h n → t = s.endLong r (vPlain 3) [] 0) ∧
  (∀ h n, r.cmd = .instanceDestroy h n → t = s.endLong r (vPlain 3) [] 0) ∧
  (∀ h n a l, r.cmd = .instanceSave h n a l → t = (s.modInst n (fun i => { i with st := .frozen })).endLong r (vPlain 3) [] 0) ∧
  (∀ h n a l i, r.cmd = .instanceRestore h n a l i → t = (s.modInst n (fun i => { i with st := .frozen })).endLong r (vPlain 3) [] 0) ∧
  (∀ h k, r.cmd = .regRevoke h k → t = (s.log 0x0A01 k.toNat (s.reg (k.toNat / 256)).inflight).endLong r (vPlain 3) [] 0) ∧
  (∀ h n nsid, r.cmd = .nsDetach h n nsid → t = (s.detach n nsid).endLong r vOk [] 0) ∧
  (∀ h o i w, r.cmd = .rotateNow h o i w → t = s.cancelRotate r) ∧
  (∀ h k a, r.cmd = .mpSwitch h k a → t = State.endLong { s with repair := { s.repair with mpSwitch := none } } r (vPlain 3) [] 0) ∧
  (∀ h n b k c, r.cmd = .nsCreate h n b k c → t = s.endLong r (vPlain 3) [] 0) ∧
  (∀ h n a b c d, r.cmd = .backendAdd h n a b c d → t = s.endLong r (vPlain 3) [] 0)

/-- O34. ROTATE_NOW and FARRIER_RELOAD start (R242, R390, R408); a class W command that reaches its bound, in the ticks that count, ends TIMEOUT, except
NS_DETACH, which detaches (R230, R320); the monitor's unlock expires, and ends at a turn (R247); a recovery load that is taken in the window stages its image and runs it when it passes (R433). -/
def Obligations.LongCommandsStartAndTimeOut : Prop :=
  ∀ (s : State) (h : MbHdr),
    (∀ out inn wait, (out < 34 ∨ out = 0xFF) → (inn < 34 ∨ inn = 0xFF) → let p := s.rotatePair out inn
      s.logicalYard p.1 ≠ none → p.2 ∈ s.resting → s.power.warn = false →
      Claims.Starts s h (.rotateNow h out inn wait) (rowF 0x0903) 8 [obj .yard p.1, obj .yard p.2] (fun u => u.startRotate p.1 p.2 true)) ∧
    (∀ k, k < 2 → s.repair.farrierActive = 1 - k → s.repair.farrierUp.getD (1 - k) false = true →
      Claims.Starts s h (.farrierReload h k) (rowF 0x0906) 1 [obj .farrier k] (fun u =>
        let x := u.reloadFarrier k true
        if x.1 then (match x.2.runningOn 0x0906 (obj .farrier k) with | some r => x.2.endLong r vOk [] 0 | none => x.2) else x.2)) ∧
    (∀ hm : Fin 64,
      ((∀ r ∈ s.mbadel.running, r.hm = hm.val → s.cmdTick < r.start + s.msTicks (boundMs r)) → exec (.commandTimeout hm) s = .next s) ∧
      (∀ r a b, s.mbadel.running = a ++ r :: b → (∀ x ∈ a, x.hm = hm.val → s.cmdTick < x.start + s.msTicks (boundMs x)) → r.hm = hm.val →
        r.start + s.msTicks (boundMs r) ≤ s.time.tick - s.mbadel.idle → ∃ t, exec (.commandTimeout hm) s = .next t ∧ Claims.BoundEnds s r t)) ∧
    ((s.monitor.unlockYards ≠ 0 → s.monitor.unlockUntil ≤ s.time.sec → exec .unlockExpiry s = .next { s with monitor := { s.monitor with expiring := true } }) ∧
      ((s.monitor.unlockYards = 0 ∨ s.time.sec < s.monitor.unlockUntil) → exec .unlockExpiry s = .next s) ∧
      (s.monitor.expiring = false → s.turnUnlock = s) ∧
      (s.monitor.expiring = true → let u : State := { s with monitor := { s.monitor with expiring := false } }
        (s.monitor.unlockUntil ≤ s.time.sec → s.turnUnlock = u.relock s.monitor.unlockYards) ∧ (s.time.sec < s.monitor.unlockUntil → s.turnUnlock = u))) ∧
    (∀ (addr : DWord) len (image : List Byte) ptr blen, FMap.get none s.mbadel.taken 0 = some (ptr, blen) → h.hm.val = 0 → s.boot.window = true →
      let v : State := { s with mbadel := { s.mbadel with taken := FMap.set none s.mbadel.taken 0 none, order := s.mbadel.order.filter (· ≠ 0) } }
      let st := v.loadStatus (padTo len image)
      (s.monitor.load ≠ none → exec (.recoveryLoad h addr len image) s = .next (v.endCmd 0 ptr blen false (vPlain 0x0F))) ∧
      (s.monitor.load = none → (h.readStatus ≠ 0 ∨ ptr % 64 ≠ 0 ∨ h.length ≠ blen ∨ blen < 76 ∨ addr.toNat % 4096 ≠ 0 ∨ len < 8192 ∨ 50331648 < len) →
        exec (.recoveryLoad h addr len image) s = .next (v.endCmd 0 ptr blen false (vPlain 0x0A))) ∧
      (s.monitor.load = none → h.readStatus = 0 → ptr % 64 = 0 → h.length = blen → 76 ≤ blen → addr.toNat % 4096 = 0 → 8192 ≤ len → len ≤ 50331648 →
        let t := (v.stageImage (padTo len image)).endCmd 0 ptr blen false (vPlain st)
        exec (.recoveryLoad h addr len image) s = .next (if h.checkOnly = true then v.endCmd 0 ptr blen false (vPlain st) else if st = 0 then t.runLoaded (padTo len image) else t)))

/-- O35. Wear is measured and weak rows are repaired (R366, R387 to R392, R396, R413, R415 to R417): what patrols, corrected bursts, the stress counts,
rotations, yard tests and the journal do. -/
def Obligations.WearAndRotationAct : Prop :=
  ∀ (s : State),
    (∀ r weak endsPass,
      (s.dev.unmanaged = false → rowExists r = true → s.rowInService r = true → (s.repair.patrolOn = true ∨ ∃ a ∈ s.repair.reported, inRow r a = true) →
        let u : State := { s with repair := { s.repair with reported := s.repair.reported.filter (fun a => !inRow r a) } }
        let v := if weak = true then u.weak r else u
        exec (.patrolTest r weak endsPass) s = .next (if endsPass = true ∧ s.repair.patrolOn = true then v.logRepair 5 0 0 0 else v)) ∧
      ((s.dev.unmanaged = true ∨ rowExists r = false ∨ s.rowInService r = false ∨ (s.repair.patrolOn = false ∧ ∀ a ∈ s.repair.reported, inRow r a = false)) →
        exec (.patrolTest r weak endsPass) s = .next s) ∧
      (∀ mac n, let u : State := { s with repair := { s.repair with corrected := bump s.repair.corrected mac n } }
        (n < 16 → exec (.correctedBurst mac n r weak) s = .next u) ∧
        (16 ≤ n → weak = false → exec (.correctedBurst mac n r weak) s = .next (u.log 0x0803 mac n)) ∧
        (16 ≤ n → weak = true → s.dev.unmanaged = false → rowExists r = true → exec (.correctedBurst mac n r weak) s = .next ((u.log 0x0803 mac n).weak r)))) ∧
    (∀ w : YardWear, let grown := { s with repair := { s.repair with stress := bump s.repair.stress w.yard.val (Config.stressGrowth w.tjMilliK w.used w.avail) } }
      (s.dev.unmanaged = false → s.yardUse w.yard.val = .active → exec (.stressUpdate [w]) s = .next grown) ∧
      (s.yardUse w.yard.val ≠ .active → exec (.stressUpdate [w]) s = .next s)) ∧
    exec .stressSave s = .next ((List.range 34).foldl (fun (u : State) (y : Nat) => u.requestAppend 5 (y * 2 ^ 32 + u.stress y / 2 ^ 20 % 2 ^ 32)) s) ∧
    exec .consumedRecompute s = .next { s with repair := { s.repair with consumed := Config.consumed ((List.range 11).map (FMap.get 0 s.repair.used)) ((List.range 34).map s.stress) } } ∧
    (∀ a r l, s.dev.unmanaged = false → s.repair.rotationOn = true → s.power.warn = false → s.highestActive = some a → s.lowestRest = some r →
      (s.stress r < s.stress a → s.leaving a = false → s.logicalYard a = some l →
        (s.repair.swap = none → exec .restRotationDue s = .next (s.startSwap a r l false)) ∧
        (s.repair.swap ≠ none → exec .restRotationDue s = .next { s with repair := { s.repair with forcedWait := s.repair.forcedWait ++
          [{ out := a, inn := r, logical := l, stage := .waiting, forced := false, asked := false, due := 0, saved := [], settled := false }] } })) ∧
      ((s.stress a ≤ s.stress r ∨ s.leaving a = true) → exec .restRotationDue s = .next s)) ∧
    ((s.dev.unmanaged = true ∨ s.repair.rotationOn = false ∨ s.power.warn = true ∨ s.highestActive = none ∨ s.lowestRest = none) → exec .restRotationDue s = .next s) ∧
    (∀ (y : Fin 34) w, s.repair.swap = some w → w.inn = y.val →
      (w.stage = .testing → s.dev.unmanaged = false → exec (.yardTestComplete y true) s =
        .next { s with repair := { s.repair with swap := some { w with stage := if w.forced then .mirrored else .mirroring, due := s.turnFrom } } }) ∧
      (w.stage = .testing → s.dev.unmanaged = false → ∀ z, (s.dropSwap.retireRest w.inn).lowestRest = some z → exec (.yardTestComplete y false) s =
        .next { s.dropSwap.retireRest w.inn with repair := { (s.dropSwap.retireRest w.inn).repair with swap := some { w with inn := z } } }) ∧
      (w.stage = .mirroring → exec (.mirrorComplete y) s = .next { s with repair := { s.repair with swap := some { w with stage := .mirrored, due := s.turnFrom } } }) ∧
      (w.stage ≠ .mirroring → exec (.mirrorComplete y) s = .next s)) ∧
    (∀ (y : Fin 34) k l, s.logicalYard y.val = some l → s.failing y.val k = true → (∀ x ∈ s.repair.forcedWait, x.out ≠ y.val) → (∀ x, s.repair.swap = some x → x.out ≠ y.val) →
      exec (.yardFaultDetected y k) s = .next (State.addRecover { s with repair := { s.repair with forcedWait := s.repair.forcedWait ++
        [{ out := y.val, inn := 0, logical := l, stage := .waiting, forced := true, asked := false, due := 0, saved := [], settled := false }] } } (.yard y.val))) ∧
    (∀ k v rest, s.repair.appends = (k, v) :: rest → s.power.warn = false → s.boot.mpRunning = true → s.nv.bankUsed < 16384 →
      exec (.journalAppend false) s = .next (State.jAppend { s with repair := { s.repair with appends := rest } } k v) ∧
      exec (.journalAppend true) s = .next { s with repair := { s.repair with appends := rest }, nv := { s.nv with bankUsed := s.nv.bankUsed + 1 } }) ∧
    ((s.repair.appends = [] ∨ s.power.warn = true) → ∀ torn, exec (.journalAppend torn) s = .next s) ∧
    (12288 ≤ s.nv.bankUsed → s.power.warn = false → s.power.pwrGood = true → let js := inForce s.nv.journal s.nv.journal
      exec (.journalCompaction false) s = .next { s with nv := { s.nv with journal := js, jseq := s.nv.jseq + 1, bankGen := s.nv.bankGen + 1, bankUsed := js.length + 1 } } ∧
      exec (.journalCompaction true) s = .next s) ∧
    (s.power.pwrGood = true → exec .powerOnHours s = .next (s.requestAppend 7 (s.jLast 7 + 1)))

/-- O36. Failing units give way to their spares (R93, R156, R397, R398, R401, R403 to R409): lasers, electrical lanes, DRAM channels, buffer lists, the
management processors and the Farriers. -/
def Obligations.SparesServe : Prop :=
  ∀ (s : State),
    (∀ (lane : Fin 20) bias temp, let n := laneGroup lane.val * 5 + s.laneUnit 1 lane.val
      let u : State := { s with repair := { s.repair with bias := FMap.set 0 s.repair.bias n bias, laserTemp := FMap.set 0 s.repair.laserTemp (laneGroup lane.val) temp } }
      (3 * Config.laserBiasAtBuild n < 2 * bias → exec (.laserBiasCheck lane bias temp) s = .next (u.planLane 1 lane.val)) ∧
      (2 * bias ≤ 3 * Config.laserBiasAtBuild n → exec (.laserBiasCheck lane bias temp) s = .next u) ∧
      (s.laneFailed lane.val = true → exec (.laserFailure lane) s = .next s) ∧
      (s.laneFailed lane.val = false → exec (.laserFailure lane) s = .next (if s.dev.unmanaged then s.failLane 1 lane.val else s.replaceLane 1 lane.val)) ∧
      (s.dev.unmanaged = false → exec (.electricalLaneReplacement lane) s = .next (s.planLane 2 lane.val)) ∧
      (s.dev.unmanaged = true → exec (.electricalLaneReplacement lane) s = .next (s.loseLane 2 lane.val))) ∧
    (∀ c : Fin 4, (s.dev.unmanaged = false → s.repair.channels.getD c.val false = true → s.repair.moving = none →
        exec (.dramChannelRetirement c) s = .next (State.addRecover { s with repair := { s.repair with moving := some c.val, moveDone := false } } .channel)) ∧
      ((s.repair.channels.getD c.val false = false ∨ s.repair.moving ≠ none) → exec (.dramChannelRetirement c) s = .next s)) ∧
    (s.repair.moving ≠ none → exec .channelMoveComplete s = .next { s with repair := { s.repair with moveDone := true } }) ∧
    (s.repair.moving = none → exec .channelMoveComplete s = .next s) ∧
    (∀ (p : Fin 7) q, s.pool? (p.val + 1) = some q → (q.rebuilding = true → exec (.freeListRebuildComplete p) s = .next (s.rebuildPool (p.val + 1))) ∧
      (q.rebuilding = false → exec (.freeListRebuildComplete p) s = .next s)) ∧
    (s.boot.mpRunning = true → s.dev.unmanaged = false → s.repair.mpFail = none →
      exec .mpHeartbeatLoss s = .next (State.addRecover { s with repair := { s.repair with mps := modifyAt s.repair.mps s.repair.mpActive (fun _ => false), mpFail := some s.repair.mpActive } } .mp)) ∧
    ((s.boot.mpRunning = false ∨ s.repair.mpFail ≠ none) → exec .mpHeartbeatLoss s = .next s) ∧
    (s.repair.mpReloading = none → ∀ ok, exec (.mpReloadComplete ok) s = .next s) ∧
    (∀ m, s.repair.mpReloading = some m → let u := s.epochBump (srcMp m)
      (u.boot.mpRunning = true → exec (.mpReloadComplete true) s = .next { u with repair := { u.repair with mps := modifyAt u.repair.mps m (fun _ => true), mpReloading := none, mpReloads := 0 }, boot := { u.boot with standby := u.selectSlot.map (fun x => (x, hdrSeq (u.slotHdr x), fieldLe (u.slotHdr x) 12 4)) } }) ∧
      (u.repair.mpReloads + 1 < 3 → exec (.mpReloadComplete false) s = .next { u with repair := { u.repair with mpReloads := u.repair.mpReloads + 1 } })) ∧
    (∀ missed, let a := s.repair.farrierActive
      ((missed < 4 ∨ s.repair.farrierUp.getD (1 - a) false = false ∨ s.dev.unmanaged = true) → exec (.farrierTakeover missed) s = .next s) ∧
      (4 ≤ missed → s.repair.farrierUp.getD (1 - a) false = true → s.dev.unmanaged = false → ∃ u : State, u.repair.farrierActive = 1 - a ∧
        exec (.farrierTakeover missed) s = .next ((u.log 0x0B01 (1 - a) missed).logRepair 6 0 0 0 |>.reloadFarrier a false |>.2))) ∧
    (s.dev.unmanaged = true → exec .repairUnmanaged s = .next s) ∧
    (s.dev.unmanaged = false → ∃ t : State, exec .repairUnmanaged s = .next (t.log 0x0B02 0 0) ∧ t.dev.unmanaged = true ∧ t.repair.farrierUp = [false, false] ∧ t.repair.farriers = [false, false])

/-! ### RDMA packets -/

/-- A packet row and its BTH opcode. -/
def Claims.PacketRow (p : RdmaPkt) (sh : SprayHdr) (x : Instr × Nat) : Prop :=
  x ∈ [(.rdmaWriteFirst p, 0x06), (.rdmaWriteMiddle p, 0x07), (.rdmaWriteLast p, 0x08), (.rdmaWriteOnly p, 0x0A), (.rdmaReadRequest p, 0x0C), (.rdmaReadResponseFirst p, 0x0D),
   (.rdmaReadResponseMiddle p, 0x0E), (.rdmaReadResponseLast p, 0x0F), (.rdmaReadResponseOnly p, 0x10), (.acknowledge p, 0x11), (.sprayWrite p sh, 0xC0), (.sprayReadReq p sh, 0xC1),
   (.sprayReadResp p sh, 0xC2), (.sprayAck p sh, 0xC3), (.spraySack p sh, 0xC4), (.sprayNak p sh, 0xC5)]

/-- The opcodes of request packets. -/
def Claims.requestOps : List Nat := [0x06, 0x07, 0x08, 0x0A, 0x0C, 0xC0, 0xC1]

/-- A packet passes steps 1 to 3 of R332 on a cached context `c` of its own generation and, for a request, an instance that is not frozen. -/
def Claims.Admitted (s : State) (p : RdmaPkt) (c : Ctx) (request : Bool) : Prop :=
  p.icrcBad = false ∧ p.ctxBad = false ∧ s.ctx p.qpn = some c ∧ c.cached = true ∧ (c.state = 3 ∨ (request = true ∧ c.state = 2)) ∧ p.inst.toNat = c.inst ∧ s.staleGen p.inst p.gen = false ∧
    (request = true → ((s.endPkt p).touchCtx p.qpn).isFrozen c.inst = false)

/-- The context as a request packet leaves it once admitted: the reply route is the packet's (R328). -/
def Claims.routed (s : State) (p : RdmaPkt) (c : Ctx) : Ctx := { c with respQueue := bits p.c0.toNat 0 16, respEdit := bits p.c0.toNat 16 12, usedTick := ((s.endPkt p).touchCtx p.qpn).time.tick }

/-- The state in which an admitted request is judged further, and the one in which a response is. -/
def Claims.requestIn (s : State) (p : RdmaPkt) (c : Ctx) : State := ((s.endPkt p).touchCtx p.qpn).setCtx p.qpn (some (Claims.routed s p c))
def Claims.responseIn (s : State) (p : RdmaPkt) : State := (s.endPkt p).touchCtx p.qpn

/-- O37. Steps 1 to 4 of R332 for every packet row: a packet with a bad ICRC, on a context that does not exist or is not ready for it, or of a stale
generation is dropped and counted; one on a context that is not cached waits for the fill (R339), and a cached line that fails its check moves the context to ERROR (R365); a request on a context of the other mode draws a NAK. -/
def Obligations.PacketsAreAdmitted : Prop :=
  ∀ (s : State) (p : RdmaPkt) (sh : SprayHdr) (x : Instr × Nat), Claims.PacketRow p sh x →
    let req := Claims.requestOps.contains x.2
    let spray := decide (0xC0 ≤ x.2)
    let drop := fun (i : Nat) => exec x.1 s = .next ((s.endPkt p).rdmaCount p.inst.toNat i 1)
    let hdr := if 0xC0 ≤ x.2 then sh else noSpray
    (p.icrcBad = true → drop 0) ∧
    (p.icrcBad = false → s.ctx p.qpn = none → drop 1) ∧
    (∀ c, p.icrcBad = false → s.ctx p.qpn = some c →
      (c.cached = false → s.rdma.misses.length < 16384 → exec x.1 s = .next (s.missWaits p.qpn c.inst (.packet x.2 p hdr))) ∧
      (c.cached = false → 16384 ≤ s.rdma.misses.length → drop 18) ∧
      (c.cached = true → p.ctxBad = true → exec x.1 s = .next (((s.endPkt p).log 0x0804 p.qpn c.slotNo).errorCtx p.qpn 0x0E)) ∧
      (c.cached = true → p.ctxBad = false → (c.state < 2 ∨ 3 < c.state ∨ (req = false ∧ c.state = 2)) → drop 1) ∧
      (c.cached = true → p.ctxBad = false → (c.state = 3 ∨ (req = true ∧ c.state = 2)) → (p.inst.toNat ≠ c.inst ∨ s.staleGen p.inst p.gen = true) → drop 2)) ∧
    (∀ c, Claims.Admitted s p c req → c.spray ≠ spray → exec x.1 s = .next (if req then (Claims.requestIn s p c).nakError p.qpn 0x61 p.psn p.psn 0 else Claims.responseIn s p))

/-- O38. Packets of a standard context, once admitted (R326, R332 to R334, R340, R341, R350). A WRITE packet in sequence is placed, and moves RQ_PSN on;
one ahead draws one NAK, one behind an acknowledgement, a malformed one a NAK and ERROR, one without access likewise. A READ is answered, an
acknowledgement completes what it covers, a response is placed in order. -/
def Obligations.StandardPacketsAct : Prop :=
  ∀ (s : State) (p : RdmaPkt) (c : Ctx), c.spray = false →
    (Claims.Admitted s p c true → let u := Claims.requestIn s p c
      let d := Claims.routed s p c
      let ahead := if c.nakSent then u else ((u.setCtx p.qpn (some { d with nakSent := true })).sendAck p.qpn 0x60 c.rqPsn).rdmaCount c.inst 5 1
      (∀ x ∈ [(Instr.rdmaWriteFirst p, true, false), (.rdmaWriteMiddle p, false, false), (.rdmaWriteLast p, false, true), (.rdmaWriteOnly p, true, true)],
        (0 < psnDist c.rqPsn p.psn → psnDist c.rqPsn p.psn < 2 ^ 23 → exec x.1 s = .next ahead) ∧
        (2 ^ 23 ≤ psnDist c.rqPsn p.psn → exec x.1 s = .next (u.sendAck p.qpn 0x1F (c.rqPsn + 2 ^ 24 - 1))) ∧
        (psnDist c.rqPsn p.psn = 0 → writeFits d p x.2.1 x.2.2 = false → exec x.1 s = .next (u.nakError p.qpn 0x61 p.psn 0 0)) ∧
        (psnDist c.rqPsn p.psn = 0 → writeFits d p x.2.1 x.2.2 = true → let va := if x.2.1 then p.va.toNat else c.rwVa
          let key := if x.2.1 then p.rkey else c.rwRkey
          (u.regOk d key va p.payload.length true = false → exec x.1 s = .next (u.nakError p.qpn 0x62 p.psn 0 0)) ∧
          (u.regOk d key va p.payload.length true = true → ∀ v, u.place d.fn (key.toNat / 256) va p.payload (if p.ackReq then .ack p.qpn p.psn else .nothing) = some v →
            exec x.1 s = .next (v.modCtx p.qpn (fun e => { e with rqPsn := (e.rqPsn + 1) % 2 ^ 24, nakSent := false, writeOpen := !x.2.2, rwVa := va + p.payload.length, rwRkey := key, rwLeft := (if x.2.1 then p.dmaLen else c.rwLeft) - p.payload.length }))))) ∧
      (0 < psnDist c.rqPsn p.psn → psnDist c.rqPsn p.psn < 2 ^ 23 → exec (.rdmaReadRequest p) s = .next ahead) ∧
      (psnDist c.rqPsn p.psn = 0 → 0 < p.dmaLen → p.dmaLen ≤ 2147483648 → c.reads.length < 8 →
        (u.regOk d p.rkey p.va.toNat p.dmaLen false = false → exec (.rdmaReadRequest p) s = .next (u.nakError p.qpn 0x62 p.psn 0 0)) ∧
        (u.regOk d p.rkey p.va.toNat p.dmaLen false = true →
          (∀ v, u.startServe p.qpn p p.psn p.dmaLen = some v → exec (.rdmaReadRequest p) s = .next (v.modCtx p.qpn (fun e => { e with rqPsn := (e.rqPsn + packets e.pmtu p.dmaLen) % 2 ^ 24, nakSent := false }))) ∧
          (u.startServe p.qpn p p.psn p.dmaLen = none → exec (.rdmaReadRequest p) s = .next (u.rdmaCount c.inst 3 1)))) ∧
      (p.opcode.toNat < 32 → exec (.unsupportedOpcodePacket p) s = .next (u.nakError p.qpn 0x61 p.psn p.psn 0))) ∧
    (32 ≤ p.opcode.toNat → exec (.unsupportedOpcodePacket p) s = .next (s.endPkt p)) ∧
    (Claims.Admitted s p c false → let u := Claims.responseIn s p
      (p.syndrome.toNat < 0x20 → c.awaits p.psn = true → exec (.acknowledge p) s = .next (((u.setCtx p.qpn (some (c.acked p.psn u.time.tick))).completeTo p.qpn c p.psn).pump p.qpn)) ∧
      (p.syndrome.toNat < 0x20 → c.awaits p.psn = false → exec (.acknowledge p) s = .next u) ∧
      (p.syndrome.toNat = 0x60 → exec (.acknowledge p) s = .next ((u.rdmaCount c.inst 9 1).resendFrom p.qpn p.psn)) ∧
      (0x20 ≤ p.syndrome.toNat → p.syndrome.toNat ≠ 0x60 → exec (.acknowledge p) s = .next ((u.rdmaCount c.inst 9 1).nakReceived p.qpn (c.wqeAt p.psn) p.syndrome.toNat)) ∧
      (∀ x ∈ [Instr.rdmaReadResponseFirst p, .rdmaReadResponseMiddle p, .rdmaReadResponseLast p, .rdmaReadResponseOnly p],
        (c.wqes.find? (fun w => w.isRead && w.sent) = none → exec x s = .next u) ∧
        (∀ w, c.wqes.find? (fun w => w.isRead && w.sent) = some w → let gap := psnDist (w.psn + w.next / pmtuBytes c.pmtu) p.psn
          (2 ^ 23 ≤ gap → exec x s = .next u) ∧
          (0 < gap → gap < 2 ^ 23 → exec x s = .next ((u.modCtx p.qpn (fun e => { e with lastAckTick := u.time.tick })).sendReadReq p.qpn c w true)) ∧
          (gap = 0 → (u.holds c.fn = false ∨ u.holdFull = false) → let bs := p.payload.take (w.len - w.next)
            let v := ((u.setCtx p.qpn (some (c.acked p.psn u.time.tick))).completeTo p.qpn c p.psn).setWqe p.qpn { w with next := w.next + bs.length }
            exec x s = .next ((placeSegs c.fn (if w.len ≤ w.next + bs.length then .readDone p.qpn w.op else .nothing) (segPart w.segs w.next bs.length) bs v).pump p.qpn)))))

/-- O39. Packets of a spray context, once admitted (R342 to R345, R350). A SPRAY_WRITE packet within the window is placed at its offset; a message already
done is acknowledged again, a packet already held only counted, a malformed one or one without access drawn a NAK. A SPRAY_READ_REQ is answered; a
response goes to its READ's segments; an acknowledgement ends its message, a SACK asks for its missing packets, a NAK ends its work request. -/
def Obligations.SprayPacketsAct : Prop :=
  ∀ (s : State) (p : RdmaPkt) (sh : SprayHdr) (c : Ctx), c.spray = true →
    (Claims.Admitted s p c true → let u := Claims.requestIn s p c
      let d := Claims.routed s p c
      let nak := fun (syn : Nat) => u.nakError p.qpn syn sh.msg sh.msg sh.mlen
      (c.window sh.msg = .above → exec (.sprayWrite p sh) s = .next u ∧ exec (.sprayReadReq p sh) s = .next u) ∧
      (c.window sh.msg = .done → exec (.sprayWrite p sh) s = .next (u.sendSprayAck p.qpn sh.msg sh.mlen) ∧ exec (.sprayReadReq p sh) s = .next u) ∧
      (c.window sh.msg = .inside → (∀ r, c.slot? sh.msg = some r → r.bitmap.getD (sh.offset / pmtuBytes c.pmtu) false = false) →
        ((sprayFits d sh p.payload.length = false ∨ p.dmaLen ≠ sh.mlen ∨ ∃ r, c.slot? sh.msg = some r ∧ r.mlen ≠ sh.mlen) → exec (.sprayWrite p sh) s = .next (nak 0x61)) ∧
        (sprayFits d sh p.payload.length = true → p.dmaLen = sh.mlen → (∀ r, c.slot? sh.msg = some r → r.mlen = sh.mlen) →
          (u.regOk d p.rkey (p.va.toNat + sh.offset) p.payload.length true = false → exec (.sprayWrite p sh) s = .next (nak 0x62)) ∧
          (u.regOk d p.rkey (p.va.toNat + sh.offset) p.payload.length true = true →
            (c.slot? sh.msg = none → 4096 ≤ u.slotsUsed → exec (.sprayWrite p sh) s = .next (u.rdmaCount c.inst 4 1)) ∧
            ((c.slot? sh.msg ≠ none ∨ u.slotsUsed < 4096) → let e := d.noteWrite sh p u.time.tick
              let put := u.place d.fn (p.rkey.toNat / 256) (p.va.toNat + sh.offset) p.payload (if (e.slot? sh.msg).isNone then .sprayAck p.qpn sh.msg sh.mlen else .nothing)
              (put = none → exec (.sprayWrite p sh) s = .next u) ∧
              ∀ v, put = some v → exec (.sprayWrite p sh) s = .next (v.modCtx p.qpn (fun x => { x with reasms := e.reasms, msgDone := e.msgDone, doneMap := e.doneMap })))))) ∧
      (∀ r, c.window sh.msg = .inside → c.slot? sh.msg = some r → r.bitmap.getD (sh.offset / pmtuBytes c.pmtu) false = true → exec (.sprayWrite p sh) s = .next (u.rdmaCount c.inst 13 1)) ∧
      (c.window sh.msg = .inside → c.read? sh.msg = none → sh.offset = 0 → 1 ≤ sh.mlen → sh.mlen ≤ 1048576 → p.dmaLen = sh.mlen → p.payload = [] → c.reads.length < 8 →
        (u.regOk d p.rkey p.va.toNat sh.mlen false = false → exec (.sprayReadReq p sh) s = .next (nak 0x62)) ∧
        (u.regOk d p.rkey p.va.toNat sh.mlen false = true → (∀ v, u.startServe p.qpn p sh.msg sh.mlen = some v → exec (.sprayReadReq p sh) s = .next v) ∧
          (u.startServe p.qpn p sh.msg sh.mlen = none → exec (.sprayReadReq p sh) s = .next (u.rdmaCount c.inst 3 1))))) ∧
    (Claims.Admitted s p c false → let u := Claims.responseIn s p
      (c.wqeMsg sh.msg true = none → exec (.sprayReadResp p sh) s = .next u) ∧
      (∀ w, c.wqeMsg sh.msg true = some w → w.slot = true → sprayFits c sh p.payload.length = true → sh.mlen = w.len → let k := sh.offset / pmtuBytes c.pmtu
        (w.bitmap.getD k false = true → exec (.sprayReadResp p sh) s = .next (u.rdmaCount c.inst 13 1)) ∧
        (w.bitmap.getD k false = false → (u.holds c.fn = false ∨ u.holdFull = false) → let b := modifyAt w.bitmap k (fun _ => true)
          exec (.sprayReadResp p sh) s = .next ((placeSegs c.fn (if bitmapFull b then .readDone p.qpn w.op else .nothing) (segPart w.segs sh.offset p.payload.length) p.payload
            (u.setWqe p.qpn { w with bitmap := b, slot := !bitmapFull b, next := w.next + p.payload.length })).pump p.qpn))) ∧
      (∀ w, c.wqeMsg sh.msg false = some w → exec (.sprayAck p sh) s = .next ((u.endWqe p.qpn w.op 0).pump p.qpn) ∧
        (min (sh.span * pmtuBytes c.pmtu) (w.len - sh.offset) ≠ 0 → exec (.spraySack p sh) s = .next (u.readPayload p.qpn c w sh.offset (min (sh.span * pmtuBytes c.pmtu) (w.len - sh.offset)) 1))) ∧
      (c.wqeMsg sh.msg false = none → c.read? sh.msg = none → exec (.sprayAck p sh) s = .next u ∧ exec (.spraySack p sh) s = .next u) ∧
      (∀ r, c.wqeMsg sh.msg false = none → c.read? sh.msg = some r → exec (.sprayAck p sh) s = .next ((u.freeRead p.qpn sh.msg).modCtx p.qpn (fun e => e.finishMsg sh.msg))) ∧
      (∀ r, c.wqeMsg sh.msg false = none → c.read? sh.msg = some r → let n := min (sh.span * pmtuBytes c.pmtu) (r.len - sh.offset)
        (n = 0 → exec (.spraySack p sh) s = .next u) ∧
        (n ≠ 0 → u.regOk c r.rkey (r.va + sh.offset) n false = false → exec (.spraySack p sh) s = .next (u.nakError p.qpn 0x62 sh.msg sh.msg r.len)) ∧
        (n ≠ 0 → u.regOk c r.rkey (r.va + sh.offset) n false = true → exec (.spraySack p sh) s = .next ((u.inflight (r.rkey.toNat / 256) (· + 1)).startRead c.fn p.inst ((u.gen c.inst).getD 0)
          (.responder p.qpn (r.rkey.toNat / 256) sh.msg sh.offset 1) [(r.va + sh.offset, n)]))) ∧
      exec (.sprayNak p sh) s = .next ((u.rdmaCount c.inst 9 1).nakReceived p.qpn ((c.wqes.find? (fun w => w.sent && decide (w.msg = sh.msg))).map (fun (w : Wqe) => w.op)) p.syndrome.toNat))

/-- O40. The transport's timers, context fills and counter records (R338, R340, R343 to R345, R350, R351, R372). Before its time a timer row changes nothing;
at it, the oldest work request or the message is sent again, or ends TIMEOUT when its retries are spent. -/
def Obligations.RdmaTimersAct : Prop :=
  ∀ (s : State) (q : Nat),
    (s.ctx q = none → exec (.ackTimeout q) s = .next s ∧ (∀ m, exec (.sprayMessageTimeout q m) s = .next s) ∧ (∀ m, exec (.reassemblyLimit q m) s = .next s) ∧
      (∀ n, exec (.readRecordTimeout q n) s = .next s) ∧ ∀ b f, exec (.contextFill q b f) s = .next s) ∧
    (∀ c, s.ctx q = some c →
      ((c.state ≠ 3 ∨ c.spray = true ∨ s.time.tick < c.lastAckTick + c.ackTimeout) → exec (.ackTimeout q) s = .next s) ∧
      (∀ w, c.state = 3 → c.spray = false → c.lastAckTick + c.ackTimeout ≤ s.time.tick → c.cached = true → c.wqes.find? (fun x => x.sent) = some w → let u := (s.touchCtx q).rdmaCount c.inst 11 1
        (c.retriesLeft = 0 → exec (.ackTimeout q) s = .next (u.endWqe q w.op 3)) ∧
        (c.retriesLeft ≠ 0 → exec (.ackTimeout q) s = .next ((u.modCtx q (fun e => { e with retriesLeft := e.retriesLeft - 1 })).resendFrom q c.sqUna))) ∧
      (∀ m w, c.wqes.find? (fun x => x.sent && decide (x.msg = m)) = some w → c.state = 3 → c.spray = true → c.cached = true → let u := (s.touchCtx q).rdmaCount c.inst 11 1
        (s.time.tick < w.lastSent + c.ackTimeout → exec (.sprayMessageTimeout q m) s = .next s) ∧
        (w.lastSent + c.ackTimeout ≤ s.time.tick → (c.retry ≤ w.retries → exec (.sprayMessageTimeout q m) s = .next (u.endWqe q w.op 3)) ∧
          (w.retries < c.retry → let x := { w with retries := w.retries + 1, lastSent := s.time.tick }
            exec (.sprayMessageTimeout q m) s = .next (if w.isRead then (u.setWqe q x).sendReadReq q c x true else (u.setWqe q x).readPayload q c x 0 w.len 2)))) ∧
      (∀ m r, c.reasms.find? (fun x => decide (x.msg = m) && decide (x.since + c.reasm ≤ s.time.tick)) = some r → let rest := c.reasms.filter (fun x => decide (x.msg ≠ m))
        (c.retry + 1 ≤ r.rounds → exec (.reassemblyLimit q m) s = .next ((s.setCtx q (some { c with reasms := rest })).rdmaCount c.inst 14 1)) ∧
        (r.rounds < c.retry + 1 → exec (.reassemblyLimit q m) s = .next ((s.setCtx q (some { c with reasms := rest ++ [{ r with rounds := r.rounds + 1, since := s.time.tick }] })).sendSacks q c m r.mlen r.bitmap))) ∧
      (∀ n r, c.reads[n]? = some r →
        (c.spray = true → 0 < r.sent → r.lastTick + c.ackTimeout ≤ s.time.tick → exec (.readRecordTimeout q n) s = .next ((s.freeRead q r.psn).modCtx q (fun e => e.finishMsg r.psn))) ∧
        ((c.spray = false ∨ r.sent = 0 ∨ s.time.tick < r.lastTick + c.ackTimeout) → exec (.readRecordTimeout q n) s = .next s)) ∧
      (∀ m w, c.reasms.find? (fun x => decide (x.msg = m) && decide (x.since + c.reasm ≤ s.time.tick)) = none →
        c.wqes.find? (fun x => x.slot && decide (x.msg = m) && decide (x.slotTick + c.reasm ≤ s.time.tick)) = some w →
        (w.rounds < c.retry + 1 → exec (.reassemblyLimit q m) s = .next ((s.setWqe q { w with rounds := w.rounds + 1, slotTick := s.time.tick }).sendSacks q c m w.len w.bitmap)) ∧
        (c.retry + 1 ≤ w.rounds → c.retry ≤ w.retries → exec (.reassemblyLimit q m) s = .next ((s.rdmaCount c.inst 14 1).endWqe q w.op 3)) ∧
        (c.retry + 1 ≤ w.rounds → w.retries < c.retry → let x := { w with retries := w.retries + 1, rounds := 0, slotTick := s.time.tick, lastSent := s.time.tick, next := 0, bitmap := List.replicate w.bitmap.length false }
          exec (.reassemblyLimit q m) s = .next (((s.rdmaCount c.inst 14 1).setWqe q x).sendReadReq q c x true))) ∧
      (∀ b f, ((c.filling = false ∨ s.holds 1 = true) → exec (.contextFill q b f) s = .next s) ∧
        (c.filling = true → s.holds 1 = false → let e := { c with filling := false, cached := true, filled := b }
          let u := (s.indexRead q f).2
          ((s.indexRead q f).1 = none → exec (.contextFill q b f) s = .next (((u.setCtx q (some e)).errorCtx q 0x0E).replayMisses q false).retryFills) ∧
          ((s.indexRead q f).1 ≠ none → ctxBytesOk q c.slotNo b = false → exec (.contextFill q b f) s = .next ((((u.setCtx q (some e)).errorCtx q 0x0E).log 0x0804 q c.slotNo).replayMisses q false).retryFills) ∧
          ((s.indexRead q f).1 ≠ none → ctxBytesOk q c.slotNo b = true → let d := ctxOfBytes e b
            exec (.contextFill q b f) s = .next (((u.setCtx q (some (if c.state = 4 then { d with state := 4, errStatus := c.errStatus } else d))).touchCtx q).replayMisses q true).retryFills)))) ∧
    (∀ k v, s.rdma.counters = [(k, v)] → v ≠ 0 → FMap.get 0 s.rdma.logged k ≠ v → ∃ t, exec .rdmaCounters s = .next t ∧ FMap.get 0 t.rdma.logged k = v ∧
      t = { s.log 0x0E01 (k / 32 * 65536 + k % 32) v with rdma := t.rdma }) ∧
    ((∀ e ∈ s.rdma.counters, FMap.get 0 s.rdma.logged e.1 = e.2) → exec .rdmaCounters s = .next s)

/-! ### Accelerators -/

/-- The head request `r` of an accelerator's queue, whose bytes its unit has processed, is taken, which leaves `u` (R354). -/
def Claims.Pops (s : State) (unit op : Nat) (r : PostReq) (u : State) : Prop :=
  ∃ a rest, s.accel.queues.getD unit [] = a :: rest ∧ a.ready = true ∧ a.req = r ∧ Claims.at r 4 1 = op ∧
    u = { s with accel := { s.accel with queues := modifyAt s.accel.queues unit (fun _ => rest) } }

/-- No request with this OP stands at the head of an accelerator's queue with its bytes processed. -/
def Claims.Idle (s : State) (unit op : Nat) : Prop := ∀ a rest, s.accel.queues.getD unit [] = a :: rest → a.ready = true → Claims.at a.req 4 1 ≠ op

/-- A request that succeeds has its result record and output in a new buffer of its unit, and a finished request (R355, R356); nothing without a buffer. -/
def Claims.output (u : State) (unit : Nat) (r : PostReq) (most : Nat) (out : List Byte) (hdr : Byte) (ctx seq : Nat) : Option State :=
  match u.alloc (16 + most) false (ownUnit (3 + unit)) with
  | (none, _) => none
  | (some h, v) => some ((v.bufWrite h 0 (leBytes 4 out.length ++ [hdr, 0] ++ leBytes 2 ctx ++ leBytes 8 seq ++ out)).accelDone unit r 0 h out.length)

/-- How a request ends that has passed its checks (R355, R363): NO_RESOURCE without a buffer for its output, CONTROL_CHECK when its context fails its
check, else as `go` leaves it. -/
def Claims.Ends (e : Host.Outcome State Fault Refusal) (u : State) (unit : Nat) (r : PostReq) (bad : Bool) (most : Nat) (out : List Byte) (hdr : Byte) (ctx seq : Nat) (go : State → State) : Prop :=
  let taken := Claims.output u unit r most out hdr ctx seq
  (taken = none → e = .next ((u.alloc (16 + most) false (ownUnit (3 + unit))).2.accelFail unit r 0x09)) ∧
  (∀ v, taken = some v → (bad = true → e = .next (u.keyLineFailed.accelFail unit r 0x0E)) ∧ (bad = false → e = .next (go v)))

/-- The data operations of a crypto unit, with their OP, the MODE they need and what they do with a context and the input (R360). -/
def Claims.CryptoRow (k b : Bool) (r : PostReq) (q : Instr × Nat × Nat × (KeyCtx → List Byte → CryptoEnd)) : Prop :=
  let iv := slice r.block 0x20 12
  let p5 := BitVec.ofNat 8 (Claims.at r 5 1)
  q ∈ [(Instr.macsecProtect k b, 0x10, 1, fun (c : KeyCtx) (i : List Byte) => macsecProtect c iv i), (.macsecValidate k b, 0x11, 2, fun c i => macsecValidate c iv i),
    (.espEncrypt k b, 0x12, 3, fun c i => espEncrypt c p5 i), (.espDecrypt k b, 0x13, 4, fun c i => espDecrypt c i),
    (.tlsSeal k b, 0x14, 5, fun c i => tlsSeal c p5 i), (.tlsOpen k b, 0x15, 6, fun c i => tlsOpen c i),
    (.gcmSeal k b, 0x16, 7, fun c i => gcmSealOp c iv (Claims.at r 0xA 2) i), (.gcmOpen k b, 0x17, 7, fun c i => gcmOpenOp c iv (Claims.at r 0xA 2) i)]

/-- O41. What the accelerators do with the request at the head of their queue (R354 to R363): the first applicable status, or the operation's output in a
buffer taken from pool 0; how a result is recorded; and how a tick's budget makes requests ready, in their order. -/
def Obligations.AcceleratorsAnswer : Prop :=
  ∀ (s : State) (k b : Bool),
    let n := if k then 1 else 0
    (∀ q ∈ [(Instr.keyLoad k b, n, 1), (.keyClear k b, n, 2), (.compress, 2, 0x20), (.decompress, 2, 0x21)], Claims.Idle s q.2.1 q.2.2 → exec q.1 s = .next s) ∧
    (∀ r q, Claims.CryptoRow k b r q → Claims.Idle s n q.2.1 → exec q.1 s = .next s) ∧
    (∀ r u q, Claims.CryptoRow k b r q → Claims.Pops s n q.2.1 r u →
      let c := u.keyCtx (Claims.at r 8 2)
      let fails := fun (c : KeyCtx) (st : Byte) => exec q.1 s = .next ((u.setKey (Claims.at r 8 2) c).accelFail n r st)
      let shaped := cryptoReserved r.block = true ∧ Claims.at r 8 2 / 32768 = n ∧ u.aInput r = true ∧ opMost q.2.1 (Claims.at r 0x14 4) c ≤ 65504
      (¬ shaped → fails c 0x0A) ∧ (shaped → c.state ≠ 0 → c.mode ≠ q.2.2.1 → fails c 0x0A) ∧
      (shaped → (c.state = 0 ∨ (c.state = 2 ∧ c.mode = q.2.2.1)) → fails c 0x0D) ∧
      (shaped → c.mode = q.2.2.1 → (c.state = 1 ∨ c.state = 3) → r.inst ≠ 0xFFFF → c.inst ≠ r.inst → fails c 0x08) ∧
      (shaped → c.mode = q.2.2.1 → (r.inst = 0xFFFF ∨ c.inst = r.inst) →
        (c.state = 3 → fails c 0x0F) ∧
        (c.state = 1 → let e := q.2.2.2 c (u.aBytes r)
          (e.status ≠ 0 → fails e.ctx e.status) ∧
          (e.status = 0 → Claims.Ends (exec q.1 s) u n r b (opMost q.2.1 (Claims.at r 0x14 4) e.ctx) e.out e.hdr (Claims.at r 8 2) e.seq (fun v =>
            let t := (v.setKey (Claims.at r 8 2) e.ctx).dropInput n r
            if (q.2.1 = 0x10 ∨ q.2.1 = 0x12 ∨ q.2.1 = 0x14) ∧ e.ctx.last + 1 - e.ctx.next = 2 ^ 20 then t.log 0x0A04 (Claims.at r 8 2) 0 else t))))) ∧
    (∀ r u, Claims.Pops s n 1 r u →
      let bytes := u.aBytes r
      let shaped := cryptoReserved r.block = true ∧ Claims.at r 8 2 / 32768 = n ∧ u.aInput r = true ∧ Claims.at r 0x14 4 = 64 ∧ recordOk bytes = true
      (¬ shaped → exec (.keyLoad k b) s = .next (u.accelFail n r 0x0A)) ∧
      (shaped → mayUse r.inst (u.keyCtx (Claims.at r 8 2)) true = false → exec (.keyLoad k b) s = .next (u.accelFail n r 0x08)) ∧
      (shaped → mayUse r.inst (u.keyCtx (Claims.at r 8 2)) true = true → Claims.Ends (exec (.keyLoad k b) s) u n r b 0 [] 0 (Claims.at r 8 2) 0 (fun v =>
        ((v.setKey (Claims.at r 8 2) (keyOfRecord bytes r.inst)).bufWrite (aHandle r) (Claims.at r 0x10 4) (zeros 64)).dropInput n r))) ∧
    (∀ r u, Claims.Pops s n 2 r u →
      let shaped := cryptoReserved r.block = true ∧ Claims.at r 8 2 / 32768 = n ∧ aHandle r = 0
      (¬ shaped → exec (.keyClear k b) s = .next (u.accelFail n r 0x0A)) ∧
      (shaped → mayUse r.inst (u.keyCtx (Claims.at r 8 2)) true = false → exec (.keyClear k b) s = .next (u.accelFail n r 0x08)) ∧
      (shaped → mayUse r.inst (u.keyCtx (Claims.at r 8 2)) true = true →
        Claims.Ends (exec (.keyClear k b) s) u n r b 0 [] 0 (Claims.at r 8 2) 0 (fun v => v.setKey (Claims.at r 8 2) KeyCtx.reset))) ∧
    (∀ r u, Claims.Pops s 2 0x20 r u → let f := Claims.at r 5 1
      let shaped := compressReserved r.block = true ∧ f ≤ 1 ∧ u.aInput r = true ∧ Claims.at r 0x14 4 ≤ 65456
      (¬ shaped → exec .compress s = .next (u.accelFail 2 r 0x0A)) ∧
      (shaped → Claims.Ends (exec .compress s) u 2 r false (Claims.at r 0x14 4 + 48) ((Config.compressBytes f (u.aBytes r)).take (Claims.at r 0x14 4 + 48)) 0 0 0 (fun v => v.dropInput 2 r))) ∧
    (∀ r u, Claims.Pops s 2 0x21 r u → let f := Claims.at r 5 1
      let max := Claims.at r 0x18 4
      let shaped := compressReserved r.block = true ∧ f ≤ 1 ∧ 1 ≤ max ∧ max ≤ 65504 ∧ u.aInput r = true
      (¬ shaped → exec .decompress s = .next (u.accelFail 2 r 0x0A)) ∧
      (shaped →
        (Config.inflateBytes f (u.aBytes r) = .invalid → exec .decompress s = .next (u.accelFail 2 r 0x0A)) ∧
        (Config.inflateBytes f (u.aBytes r) = .unsupported → exec .decompress s = .next (u.accelFail 2 r 0x0B)) ∧
        (∀ out, Config.inflateBytes f (u.aBytes r) = .ok out →
          (max < out.length → exec .decompress s = .next (u.accelFail 2 r 0x09)) ∧
          (out.length ≤ max → Claims.Ends (exec .decompress s) u 2 r false max out 0 0 0 (fun v => v.dropInput 2 r))))) ∧
    (∀ (m : Fin 3), s.accel.done.getD m.val [] = [] →
      (∀ r u op, Claims.Pops s m.val op r u → exec (.acceleratorResult m) s = .next (if opKnown m.val op then s else (u.accelFail m.val r 0x0A).recordResult m.val)) ∧
      ((∀ op, Claims.Idle s m.val op) → exec (.acceleratorResult m) s = .next s)) ∧
    (∀ budget (done rest : List AccelReq) x, (done.map (fun y => y.left)).sum ≤ budget → budget - (done.map (fun y => y.left)).sum < x.left →
      spendOn budget (done ++ x :: rest) = done.map (fun y => { y with left := 0, ready := true }) ++ { x with left := x.left - (budget - (done.map (fun y => y.left)).sum) } :: rest) ∧
    (∀ (m : Fin 3) d rest, s.accel.done.getD m.val [] = d :: rest →
      let u := { s with accel := { s.accel with done := modifyAt s.accel.done m.val (fun _ => rest) } }
      (d.handle = 0 → exec (.acceleratorResult m) s = .next (u.reply d.req 4 0 0 d.status)) ∧
      (d.handle ≠ 0 → exec (.acceleratorResult m) s = .next ((u.swapOwner d.handle (ownUnit (3 + m.val)) ownRx).reply d.req 4 d.handle (16 + d.outLen) d.status)))

/-! ### NVMe commands -/

/-- A command of a submission queue is fetched: the queue becomes `q`, and an I/O command counts in the arbitration (R299, R309, R315). -/
def Claims.fetchedAs (s : State) (k : NvCmd) (q : NvSq) : State :=
  (s.nvMeetEntry k.ctl).modCtl k.ctl (fun c =>
    let d := if k.sqid = 0 then c else { c.arbitrated q.prio k.sqid with fetched := c.fetched + 1 }
    { d with sqs := FMap.set none c.sqs k.sqid (some q) })

/-- The head of a submission queue moves on. -/
def Claims.moveHead (q : NvSq) : NvSq := { q with head := (q.head + 1) % q.size }

/-- The operation of a fetched command. -/
def Claims.nvOperation (s : State) (k : NvCmd) : Operation :=
  { key := qKey k.ctl k.sqid, inst := fnInstHalf k.ctl, gen := s.fnGen k.ctl, arg := [], kind := 0, dead := false, handle := 0, len := 0 }

/-- A command is fetched, passes steps 1 and 2 of R305 and takes the operation `n`, which leaves `u`. -/
def Claims.Fetches (s : State) (k : NvCmd) (n : Nat) (u : State) : Prop :=
  ∃ q, s.nvFetchable k.ctl k.sqid = some q ∧ k.cid ∉ q.aborted ∧ s.opRoom (fnInstHalf k.ctl) = true ∧ s.freeOp = some n ∧ nvBasic (s.ctl k.ctl) k = none ∧
    u = (Claims.fetchedAs s k (Claims.moveHead q)).setOp n (some (Claims.nvOperation s k))

/-- The rows of NVMe commands that take an operation. -/
def Claims.NvRow (k : NvCmd) (data : List Byte) (x : Instr) : Prop :=
  x ∈ [Instr.createIoCompletionQueue k, .createIoSubmissionQueue k, .deleteIoSubmissionQueue k, .deleteIoCompletionQueue k, .nvmeAbort k, .nvmeIdentify k, .getLogPage k,
    .getFeatures k, .setFeatures k data, .keepAlive k, .firmwareImageDownload k data, .firmwareCommit k]

/-- O42. How NVMe commands are fetched (R10, R277, R299, R305, R311, R315): when nothing can be fetched, an aborted identifier, a full operation table, a
command that fails steps 1 and 2 of R305, an admin command on an I/O queue; no queue of another class is served while an urgent one has a command; and the commands on queues, aborts, events and the keep-alive timer (R303,
R306, R308, R309, R311). -/
def Obligations.NvmeCommandsAreFetched : Prop :=
  ∀ (s : State) (k : NvCmd) (data : List Byte),
    (∀ x, (Claims.NvRow k data x ∨ x ∈ [Instr.flush k, .nvmeWrite k, .nvmeRead k, .asynchronousEventRequest k]) → s.nvFetchable k.ctl k.sqid = none → exec x s = .next s) ∧
    (∀ q, s.nvFetchable k.ctl k.sqid = some q →
      (∀ x, (Claims.NvRow k data x ∨ x = .asynchronousEventRequest k) → k.cid ∈ q.aborted →
        exec x s = .next (Claims.fetchedAs s k { Claims.moveHead q with aborted := q.aborted.erase k.cid })) ∧
      (k.cid ∉ q.aborted → ∀ x, Claims.NvRow k data x →
        ((s.opRoom (fnInstHalf k.ctl) = false ∨ s.freeOp = none) → exec x s = .next (s.deferNv k.ctl)) ∧
        (s.opRoom (fnInstHalf k.ctl) = true → ∀ n st, s.freeOp = some n → nvBasic (s.ctl k.ctl) k = some st →
          exec x s = .next (((Claims.fetchedAs s k (Claims.moveHead q)).setOp n (some (Claims.nvOperation s k))).nvSettle k.ctl k.sqid k.cid (some n) st 0 0 k.nsid)))) ∧
    (nvBasic (s.ctl k.ctl) k = none ↔ (s.ctl k.ctl).cidUsed k.sqid k.cid = false ∧ k.fuse = 0 ∧ k.psdt = 0 ∧ k.reserved = false ∧ k.opcode = none) ∧
    (∀ q, (s.ctl k.ctl).sq k.sqid = some q → k.sqid ≠ 0 → q.prio ≠ 0 → (s.ctl k.ctl).waiting 0 ≠ [] → s.nvFetchable k.ctl k.sqid = none) ∧
    (∀ n u, Claims.Fetches s k n u →
      let c := u.ctl k.ctl
      let ends := fun (v : State) (st : Nat) (dw0 : Word) => Host.Outcome.next (φ := Fault) (ρ := Refusal) (v.nvSettle k.ctl k.sqid k.cid (some n) st dw0 0 k.nsid)
      let q := bits k.cdw10.toNat 0 16
      let size := bits k.cdw10.toNat 16 16 + 1
      let base := k.prp1.toNat
      (k.sqid ≠ 0 → ∀ x, Claims.NvRow k data x → exec x s = ends u nvBadOpcode 0) ∧
      (k.sqid = 0 →
        (∀ x ∈ [Instr.createIoCompletionQueue k, .createIoSubmissionQueue k], (k.cdw11.getLsbD 0 = false ∨ base % 4096 ≠ 0) → exec x s = ends u nvBadField 0) ∧
        (k.cdw11.getLsbD 0 = true → base % 4096 = 0 →
          let iv := bits k.cdw11.toNat 16 16
          let made : NvCq := NvCq.mk iv (k.cdw11.getLsbD 1) size base 0 0 c.coalTicks (bits c.coal.toNat 0 8 + 1) 0 0
          ((q = 0 ∨ c.ncq < q ∨ c.cq q ≠ none) → exec (.createIoCompletionQueue k) s = ends u nvBadQid 0) ∧
          (1 ≤ q → q ≤ c.ncq → c.cq q = none →
            ((size < 2 ∨ 4096 < size) → exec (.createIoCompletionQueue k) s = ends u (nvSt 1 2 true) 0) ∧
            (2 ≤ size → size ≤ 4096 → u.vectorsOf k.ctl ≤ iv → exec (.createIoCompletionQueue k) s = ends u (nvSt 1 8 true) 0) ∧
            (2 ≤ size → size ≤ 4096 → iv < u.vectorsOf k.ctl →
              exec (.createIoCompletionQueue k) s = ends (u.modCtl k.ctl (fun c => { c with cqs := FMap.set none c.cqs q (some made), everIo := true })) 0 0)) ∧
          ((q = 0 ∨ c.nsq < q ∨ c.sq q ≠ none) → exec (.createIoSubmissionQueue k) s = ends u nvBadQid 0) ∧
          (1 ≤ q → q ≤ c.nsq → c.sq q = none →
            ((size < 2 ∨ 4096 < size) → exec (.createIoSubmissionQueue k) s = ends u (nvSt 1 2 true) 0) ∧
            (2 ≤ size → size ≤ 4096 → (iv = 0 ∨ c.cq iv = none) → exec (.createIoSubmissionQueue k) s = ends u (nvSt 1 0 true) 0) ∧
            (2 ≤ size → size ≤ 4096 → iv ≠ 0 → c.cq iv ≠ none →
              exec (.createIoSubmissionQueue k) s = ends (u.modCtl k.ctl (fun c =>
                { c with sqs := FMap.set none c.sqs q (some (NvSq.mk iv (bits k.cdw11.toNat 1 2) size base 0 0 false [])), everIo := true })) 0 0))) ∧
        ((q = 0 ∨ c.sq q = none) → exec (.deleteIoSubmissionQueue k) s = ends u nvBadQid 0) ∧
        (q ≠ 0 → c.sq q ≠ none → exec (.deleteIoSubmissionQueue k) s = .next (u.modCtl k.ctl (fun c => { c with due := c.due ++ [.deleteSq k.cid n q] }))) ∧
        ((q = 0 ∨ c.cq q = none) → exec (.deleteIoCompletionQueue k) s = ends u nvBadQid 0) ∧
        (q ≠ 0 → c.cq q ≠ none →
          (∀ i v, (i, some v) ∈ c.sqs → v.cqid = q → exec (.deleteIoCompletionQueue k) s = ends u (nvSt 1 0x0C true) 0) ∧
          ((∀ i v, (i, some v) ∈ c.sqs → v.cqid ≠ q) → exec (.deleteIoCompletionQueue k) s = ends (u.modCtl k.ctl (fun c => { c with cqs := FMap.set none c.cqs q none })) 0 0)) ∧
        exec (.nvmeAbort k) s = .next (u.modCtl k.ctl (fun c => { c with due := c.due ++ [.abort k.cid n q (BitVec.ofNat 16 (bits k.cdw10.toNat 16 16))] })) ∧
        exec (.keepAlive k) s = ends (u.modCtl k.ctl (fun c => { c with katoFrom := u.time.tick })) 0 0)) ∧
    (∀ q, s.nvFetchable k.ctl k.sqid = some q → k.cid ∉ q.aborted →
      let u := Claims.fetchedAs s k (Claims.moveHead q)
      let c := u.ctl k.ctl
      (∀ st, nvBasic (s.ctl k.ctl) k = some st → exec (.asynchronousEventRequest k) s = .next (u.nvSettle k.ctl k.sqid k.cid none st 0 0 k.nsid)) ∧
      (nvBasic (s.ctl k.ctl) k = none →
        (k.sqid ≠ 0 → exec (.asynchronousEventRequest k) s = .next (u.nvSettle k.ctl k.sqid k.cid none nvBadOpcode 0 0 k.nsid)) ∧
        (k.sqid = 0 → ∀ e rest, c.events = e :: rest →
          exec (.asynchronousEventRequest k) s = .next (((u.setCtl k.ctl { c with events := rest }).nvSettle k.ctl 0 k.cid none 0 (BitVec.ofNat 32 e) 0 0).pme 2)) ∧
        (k.sqid = 0 → c.events = [] → 4 ≤ c.aers.length → exec (.asynchronousEventRequest k) s = .next (u.nvSettle k.ctl k.sqid k.cid none (nvSt 1 5 true) 0 0 k.nsid)) ∧
        (k.sqid = 0 → c.events = [] → c.aers.length < 4 → exec (.asynchronousEventRequest k) s = .next (u.setCtl k.ctl { c with aers := c.aers ++ [k.cid] })))) ∧
    (∀ ctl, let c := s.ctl ctl
      (c.enabled = true → c.kato ≠ 0 → (∀ n, fnInst ctl = some n → s.isFrozen n = false) → c.katoFrom + s.msTicks c.kato.toNat ≤ s.time.tick →
        exec (.keepAliveExpiry ctl) s = .next ((s.setCtl ctl { c with katoFrom := s.time.tick }).log 0x0A03 (fnInstHalf ctl).toNat 0)) ∧
      ((c.enabled = false ∨ c.kato = 0 ∨ (∃ n, fnInst ctl = some n ∧ s.isFrozen n = true) ∨ s.time.tick < c.katoFrom + s.msTicks c.kato.toNat) →
        exec (.keepAliveExpiry ctl) s = .next s))

/-- An NVMe command that returns `bs` at its PRPs: no PRP after the first may have an offset (R305). -/
def Claims.nvReturns (u : State) (k : NvCmd) (n : Nat) (bs : List Byte) : State :=
  if ∃ p ∈ k.prps, p.toNat % 4096 ≠ 0 then u.nvSettle k.ctl k.sqid k.cid (some n) nvBadPrp 0 0 k.nsid else (u.nvData k bs).nvSettle k.ctl k.sqid k.cid (some n) 0 0 0 k.nsid

/-- O43. What the NVMe admin commands that read or set something answer (R301, R302, R305 to R307, R314, R322). -/
def Obligations.NvmeAdminCommandsAnswer : Prop :=
  ∀ (s : State) (k : NvCmd) (data : List Byte) (n : Nat) (u : State), Claims.Fetches s k n u → k.sqid = 0 →
    let c := u.ctl k.ctl
    let ends := fun (v : State) (st : Nat) (dw0 : Word) => Host.Outcome.next (φ := Fault) (ρ := Refusal) (v.nvSettle k.ctl k.sqid k.cid (some n) st dw0 0 k.nsid)
    let gives := fun (bs : List Byte) => Host.Outcome.next (φ := Fault) (ρ := Refusal) (Claims.nvReturns u k n bs)
    let what := bits k.cdw10.toNat 0 8
    let v := k.cdw11
    let part := fun (lo n : Nat) => bits v.toNat lo n
    let nsid := k.nsid.toNat
    (what = 0 → (∀ ns, u.nsAt k.ctl nsid = some ns → exec (.nvmeIdentify k) s = gives (u.nvIdNamespace ns)) ∧
      (u.nsAt k.ctl nsid = none → exec (.nvmeIdentify k) s = if 1 ≤ nsid ∧ nsid ≤ 256 then gives (zeros 4096) else ends u nvBadNs 0)) ∧
    (what = 1 → exec (.nvmeIdentify k) s = gives (nvIdController k.ctl)) ∧
    (what = 2 → exec (.nvmeIdentify k) s = if 0xFFFFFFFE ≤ nsid then ends u nvBadNs 0 else gives (padTo 4096 (((u.nsidsAbove k.ctl nsid).map (leBytes 4)).flatten))) ∧
    (what = 3 → (∀ ns, u.nsAt k.ctl nsid = some ns → exec (.nvmeIdentify k) s = gives (padTo 4096 ([2, 16, 0, 0] ++ nguid ns))) ∧
      (u.nsAt k.ctl nsid = none → exec (.nvmeIdentify k) s = ends u nvBadNs 0)) ∧
    (4 ≤ what → exec (.nvmeIdentify k) s = ends u nvBadField 0) ∧
    (∀ page, ((what = 1 ∧ page = padTo 4096 ((c.errors.zipIdx.map (fun e => nvErrBytes (c.errCount - e.2) e.1)).flatten)) ∨
        (what = 2 ∧ (k.nsid = 0 ∨ k.nsid = 0xFFFFFFFF) ∧ page = u.nvSmart k.ctl) ∨ (what = 3 ∧ page = u.nvSlots) ∨ (what = 5 ∧ page = nvEffects k.ctl)) →
      let len := 4 * (bits k.cdw10.toNat 16 16 + 65536 * part 0 16 + 1)
      let off := k.cdw12.toNat + 2 ^ 32 * k.cdw13.toNat
      exec (.getLogPage k) s = if bits k.cdw10.toNat 8 7 ≠ 0 ∨ 1048576 < len ∨ off % 4 ≠ 0 ∨ page.length ≤ off then ends u nvBadField 0 else gives (slice page off len)) ∧
    (what = 2 → k.nsid ≠ 0 → k.nsid ≠ 0xFFFFFFFF → exec (.getLogPage k) s = ends u nvBadField 0) ∧
    (what ∉ [1, 2, 3, 5] → exec (.getLogPage k) s = ends u (nvSt 1 9 true) 0) ∧
    (bits k.cdw10.toNat 8 3 ≠ 0 → exec (.getFeatures k) s = ends u nvBadField 0) ∧
    (bits k.cdw10.toNat 8 3 = 0 →
      (∀ x, ((what = 1 ∧ x = c.arb.toNat) ∨ (what = 2 ∧ x = c.ps) ∨ (what = 7 ∧ x = (c.nsq + 65535) % 65536 + 65536 * ((c.ncq + 65535) % 65536)) ∨ (what = 8 ∧ x = c.coal.toNat) ∨
          (what = 0x0B ∧ x = c.aec.toNat) ∨ (what = 0x0F ∧ x = c.kato.toNat) ∨
          (what = 4 ∧ ((part 16 4 = 0 ∧ part 20 2 = 0 ∧ x = c.tempOver.toNat) ∨ (part 16 4 = 0 ∧ part 20 2 = 1 ∧ x = c.tempUnder.toNat) ∨
            (part 16 4 = 1 ∧ part 20 2 = 0 ∧ x = c.tempOver1.toNat) ∨ (part 16 4 = 1 ∧ part 20 2 = 1 ∧ x = c.tempUnder1.toNat)))) →
        exec (.getFeatures k) s = ends u 0 (BitVec.ofNat 32 x)) ∧
      (what = 0x0C → exec (.getFeatures k) s = ends (u.nvData k (padTo 256 c.apstTable)) 0 (BitVec.ofNat 32 (if c.apste then 1 else 0))) ∧
      (what ∉ [1, 2, 4, 7, 8, 0x0B, 0x0C, 0x0F] → exec (.getFeatures k) s = ends u nvBadField 0)) ∧
    (k.cdw10.getLsbD 31 = true → exec (.setFeatures k data) s = ends u (nvSt 1 0x0D true) 0) ∧
    (k.cdw10.getLsbD 31 = false → let sets := fun (f : NvCtl → NvCtl) => exec (.setFeatures k data) s = ends (u.modCtl k.ctl f) 0 0
      let t := BitVec.ofNat 32 (part 0 16)
      (what = 1 → sets (fun c => { c with arb := v &&& 0xFFFFFF07 })) ∧
      (what = 2 → exec (.setFeatures k data) s = .next (u.nvSetPower k (some n))) ∧
      (what = 4 → part 16 4 = 0 → part 20 2 = 0 → sets (fun c => { c with tempOver := t })) ∧
      (what = 4 → part 16 4 = 0 → part 20 2 = 1 → sets (fun c => { c with tempUnder := t })) ∧
      (what = 4 → part 16 4 = 1 → part 20 2 = 0 → sets (fun c => { c with tempOver1 := t })) ∧
      (what = 4 → part 16 4 = 1 → part 20 2 = 1 → sets (fun c => { c with tempUnder1 := t })) ∧
      (what = 7 → (c.everIo = true → exec (.setFeatures k data) s = ends u nvBadSeq 0) ∧
        (c.everIo = false → (part 0 16 = 65535 ∨ part 16 16 = 65535) → exec (.setFeatures k data) s = ends u nvBadField 0) ∧
        (c.everIo = false → part 0 16 ≠ 65535 → part 16 16 ≠ 65535 →
          let m := u.nvmeqOf k.ctl
          let a := min (part 0 16) ((m + 65535) % 65536)
          let b := min (part 16 16) ((m + 65535) % 65536)
          exec (.setFeatures k data) s = ends (u.modCtl k.ctl (fun c => { c with nsq := min m (a + 1), ncq := min m (b + 1) })) 0 (BitVec.ofNat 32 (a + 65536 * b)))) ∧
      (what = 8 → sets (fun c => c.coalesce t (min 1024 (ticksOf u.time.period (part 8 8 * 100000))))) ∧
      (what = 0x0B → sets (fun c => { c with aec := v })) ∧
      (what = 0x0C → sets (fun c => { c with apste := v.getLsbD 0, apst := padTo 256 data })) ∧
      (what = 0x0F → sets (fun c => { c with kato := BitVec.ofNat 32 ((v.toNat + 99) / 100 * 100), katoFrom := u.time.tick })) ∧
      (what ∉ [1, 2, 4, 7, 8, 0x0B, 0x0C, 0x0F] → exec (.setFeatures k data) s = ends u nvBadField 0)) ∧
    (k.ctl ≠ 2 → exec (.firmwareImageDownload k data) s = ends u nvBadOpcode 0 ∧ exec (.firmwareCommit k) s = ends u nvBadOpcode 0) ∧
    (k.ctl = 2 → let slot := u.otherSlot
      let len := 4 * (k.cdw10.toNat + 1)
      let off := 4 * k.cdw11.toNat
      let busy := fun (slot : Nat) => u.holding [obj .slot slot] ≠ none
      ((len % 4096 ≠ 0 ∨ off % 4096 ≠ 0 ∨ 1048576 < len ∨ imageEnd < off + len) → exec (.firmwareImageDownload k data) s = ends u nvBadField 0) ∧
      (len % 4096 = 0 → off % 4096 = 0 → len ≤ 1048576 → off + len ≤ imageEnd → (∀ p ∈ k.prps, p.toNat % 4096 = 0) →
        ((busy slot ∨ u.chipUsable slot = false) → exec (.firmwareImageDownload k data) s = ends u nvBadSeq 0) ∧
        (¬ busy slot → u.chipUsable slot = true → u.power.warn = false → exec (.firmwareImageDownload k data) s = ends (u.slotWrite slot off (padTo len data)) 0 0)) ∧
      (3 ≤ bits k.cdw10.toNat 0 3 → exec (.firmwareCommit k) s = ends u (nvSt 1 6 true) 0) ∧
      (∀ z, ((bits k.cdw10.toNat 0 3 = 0 ∧ z = slot) ∨ (bits k.cdw10.toNat 0 3 = 1 ∧ z = 0) ∨ (bits k.cdw10.toNat 0 3 = 2 ∧ z = 1)) → let ca := bits k.cdw10.toNat 3 3
        (busy z → exec (.firmwareCommit k) s = ends u nvBadSeq 0) ∧
        (¬ busy z → ca = 2 → exec (.firmwareCommit k) s = ends u (if u.nextSlot = some z then 0 else nvSt 1 6 true) 0) ∧
        (¬ busy z → ca ∉ [0, 1, 2, 3] → exec (.firmwareCommit k) s = ends u nvBadField 0) ∧
        (¬ busy z → ca ∈ [0, 1, 3] → u.boot.runSlot = some z → exec (.firmwareCommit k) s = ends u (nvSt 1 6 true) 0) ∧
        (¬ busy z → ca ∈ [0, 1, 3] → u.boot.runSlot ≠ some z → u.power.warn = false → (u.chipUsable z = false ∨ u.validateStatus z ≠ 0) →
          exec (.firmwareCommit k) s = ends u (nvSt 1 7 true) 0) ∧
        (¬ busy z → ca ∈ [0, 1, 3] → u.boot.runSlot ≠ some z → u.power.warn = false → u.chipUsable z = true → u.validateStatus z = 0 → let w := u.writeMarker z
          (ca ≠ 3 → exec (.firmwareCommit k) s = ends w 0 0) ∧
          (ca = 3 → w.standbyUsable = true → w.slotValid z = true → (w.dev.state = 2 ∨ w.dev.state = 3) → w.repair.mpSwitch = none →
            let x := if (w.ctl 2).aec.getLsbD 9 then w.nvEvent 2 evtActivation true else w
            let y : State := { x with repair := { x.repair with mpSwitch := some (z, x.time.tick, hdrSeq (x.slotHdr z)) } }
            exec (.firmwareCommit k) s = .next (y.modCtl 2 (fun c => { c with fwWait := some (k.cid, n) }))))))

/-- The commands of the NVM command set that reach a namespace, with their opcodes (R304). -/
def Claims.NvIoRow (k : NvCmd) (x : Instr × Nat) : Prop := x ∈ [(Instr.flush k, 0), (.nvmeWrite k, 1), (.nvmeRead k, 2)]

/-- The status of an I/O command's checks, in the order of R305: protection information (R304), the namespace, the length, the range, the PRPs. -/
def Claims.NvIoStatus (u : State) (k : NvCmd) (opc st : Nat) : Prop :=
  let blocks := bits k.cdw12.toNat 0 16 + 1
  let prinfo := bits k.cdw12.toNat 26 4
  (opc ≠ 0 → prinfo ≠ 0 → st = nvBadField) ∧
  ((opc = 0 ∨ prinfo = 0) → u.nsAt k.ctl k.nsid.toNat = none → st = nvBadNs) ∧
  (∀ d, (opc = 0 ∨ prinfo = 0) → u.nsAt k.ctl k.nsid.toNat = some d → (u.ns d = none → st = nvBadNs) ∧
    (∀ x, u.ns d = some x → (opc = 0 → st = 0) ∧
      (opc ≠ 0 → (1048576 < blocks * x.block → st = nvBadField) ∧
        (blocks * x.block ≤ 1048576 → (x.blocks < k.cdw10.toNat + 2 ^ 32 * k.cdw11.toNat + blocks → st = nvBadLba) ∧
          (k.cdw10.toNat + 2 ^ 32 * k.cdw11.toNat + blocks ≤ x.blocks → ((∃ p ∈ k.prps, p.toNat % 4096 ≠ 0) → st = nvBadPrp) ∧ ((∀ p ∈ k.prps, p.toNat % 4096 = 0) → st = 0))))))

/-- The submission entry of a fetched I/O command is put into the buffer `h`, and its operation bears free ARG words (R305; log 14). -/
def Claims.nvCarried (v : State) (k : NvCmd) (opc n : Nat) (h : Word) : State :=
  let w := v.freshNat.2.bufWrite h 0 (nvSqe opc k v.freshNat.1)
  let a := (freeWords 8 w).2
  match a.op n with | some p => a.setOp n (some { p with arg := (freeWords 8 w).1 }) | none => a

/-- The command is outstanding; it waits with its buffer when `waits` says so (R315). -/
def Claims.nvOutstanding (o : State) (k : NvCmd) (opc n : Nat) (waits : Option Word) : State :=
  o.modCtl k.ctl (fun c => { c with outs := c.outs ++ [NvOut.mk k.sqid k.cid n k.nsid opc (k.cdw10.toNat + 2 ^ 32 * k.cdw11.toNat) (o.nvBytes opc k) [] waits] })

/-- O44. What the I/O commands do (R154, R299, R304, R305, R315), and how power states change (R314, R315). -/
def Obligations.NvmeCommandsRunAndPowerChanges : Prop :=
  ∀ (s : State) (k : NvCmd),
    (∀ x, Claims.NvIoRow k x → ∀ q, s.nvFetchable k.ctl k.sqid = some q →
      ((s.alloc 64 false ownHost).1 = none → exec x.1 s = .next (s.allocWaits ownHost)) ∧
      ((s.alloc 64 false ownHost).1 ≠ none →
        (k.cid ∈ q.aborted → exec x.1 s = .next (Claims.fetchedAs s k { Claims.moveHead q with aborted := q.aborted.erase k.cid })) ∧
        (k.cid ∉ q.aborted → (s.opRoom (fnInstHalf k.ctl) = false ∨ s.freeOp = none) → exec x.1 s = .next (s.deferNv k.ctl)) ∧
        (∀ n u, Claims.Fetches s k n u →
          let fails := fun (st : Nat) => exec x.1 s = .next (u.nvSettle k.ctl k.sqid k.cid (some n) st 0 (if x.2 = 0 then 0 else k.cdw10.toNat + 2 ^ 32 * k.cdw11.toNat) k.nsid)
          (k.sqid = 0 → fails nvBadOpcode) ∧
          (k.sqid ≠ 0 → ∀ st, Claims.NvIoStatus u k x.2 st → (st ≠ 0 → fails st) ∧
            (st = 0 → ∀ h v, u.alloc 64 false ownHost = (some h, v) → let o := Claims.nvCarried v k x.2 n h
              ((o.ctl k.ctl).trans = none → exec x.1 s = .next ((Claims.nvOutstanding o k x.2 n none).nvOffer k.ctl n h)) ∧
              ((o.ctl k.ctl).trans ≠ none → exec x.1 s = .next (Claims.nvOutstanding o k x.2 n (some h)))))))) ∧
    (∀ i, let c := s.ctl i
      let rule := fieldLe c.apstTable (8 * c.ps) 8
      let idle := bits rule 8 24
      let next := bits rule 3 5
      let goes := c.enabled = true ∧ c.apste = true ∧ c.busy = false ∧ c.trans = none ∧ idle ≠ 0 ∧ c.ps < next ∧ next ≤ 3 ∧ c.idleSince + s.msTicks idle ≤ s.time.tick
      (goes → exec (.apstTransition i) s = .next (s.setCtl i { c with trans := some (NvTrans.mk c.ps next (s.time.tick + s.usTicks (psEnlat next) - 1) false) })) ∧
      (¬ goes → exec (.apstTransition i) s = .next s) ∧
      (c.trans = none → exec (.powerStateTransitionEnd i) s = .next s) ∧
      (∀ t, c.trans = some t → (s.time.tick < t.endTick → exec (.powerStateTransitionEnd i) s = .next s) ∧
        (t.endTick ≤ s.time.tick →
          let oper := if t.target < 3 then t.target else if t.source < 3 then t.source else c.lastOper
          let ended := { c with ps := t.target, trans := none, lastOper := oper, idleSince := s.time.tick + 1 }
          let u := (s.setCtl i ended).nvPowerSet i
          (t.leaving = true → exec (.powerStateTransitionEnd i) s = .next (u.nvRelease i).pumpBackends) ∧
          (t.leaving = false → (∃ o ∈ c.outs, o.waits ≠ none) →
            exec (.powerStateTransitionEnd i) s = .next (u.modCtl i (fun c => { c with trans := some (NvTrans.mk t.target t.source (s.time.tick + s.usTicks (psExlat t.target)) true) }))) ∧
          (t.leaving = false → (∀ o ∈ c.outs, o.waits = none) →
            ((∃ e ∈ c.sqs, ∃ q, e.2 = some q ∧ q.head ≠ q.tail) → exec (.powerStateTransitionEnd i) s = .next (u.nvWake i)) ∧
            ((∀ e ∈ c.sqs, ∀ q, e.2 = some q → q.head = q.tail) → exec (.powerStateTransitionEnd i) s = .next u)))))

/-! ### Start-up -/

/-- The selection of an image has run (R423, R432): the slot that is selected, with its BOOT_TRY record when its SEQ is above the floor; else RECOVERY_WAIT
with its recovery window. -/
def Claims.Selected (s t : State) : Prop :=
  let u := s.noImage
  (u.selectSlot = none →
    t = State.openWindow { u with boot := { u.boot with recoveryPers := true }, dev := { u.dev with recoveryWait := true } }) ∧
  (∀ n, u.selectSlot = some n → let h := u.slotHdr n
    let v := if u.floor < hdrSeq h then u.jAppend 3 (hdrSeq h % 2 ^ 32 + n * 2 ^ 32) else u
    t = { v with boot := { v.boot with stage := .selected, runSlot := some n, runSeq := hdrSeq h, runVersion := fieldLe h 12 4, recoveryPers := false }, pcie := if v.boot.recoveryPers then { v.pcie with linkUp := false } else v.pcie, dev := { v.dev with recoveryWait := false } })

/-- A round of selection has started (R431): it counts, and with BOOT_MODE 11 its recovery window opens first. -/
def Claims.RoundStarted (s t : State) : Prop :=
  let u : State := { s.noImage with boot := { s.noImage.boot with rounds := s.boot.rounds + 1 } }
  (s.boot.straps.bootMode = 3#2 → t = { u with boot := { u.boot with window := true, windowHeld := false, preSelect := true } }) ∧
  (s.boot.straps.bootMode ≠ 3#2 → Claims.Selected u t)

/-- O45. What the events of start-up do (R386, R409, R421, R423, R427, R428, R430 to R432, R455, R11): the repair map, the release of the SP, selection in rounds,
stage 1 and the release event, the release of the yards, the end of the built-in test and of a recovery window; which processors have started, and where
(R414). -/
def Obligations.StartUpGoesInOrder : Prop :=
  ∀ (s : State),
    let waits := s.power.pwrGood = true ∧ s.boot.stage = .waitRepair ∧ s.boot.straps.compatBoot = false
    (∀ b, (waits → let u := s.applyMap
        exec (.repairApplied b) s = .next { u with repair := { u.repair with farrierActive := if b then 1 else 0 } }) ∧
      (¬ waits → exec (.repairApplied b) s = .next s)) ∧
    (waits → let a := s.applyMap.reloadFarrier 0 false
      let b := a.2.reloadFarrier 1 false
      (a.1 = true → exec .lastResortRepair s = .next { a.2 with repair := { a.2.repair with farrierActive := 0, farrierUp := [true, false] } }) ∧
      (a.1 = false → b.1 = true → exec .lastResortRepair s = .next { b.2 with repair := { b.2.repair with farrierActive := 1 } }) ∧
      (a.1 = false → b.1 = false → exec .lastResortRepair s = .next (State.log { b.2 with dev := { b.2.dev with unmanaged := true } } 0x0B02 0 0))) ∧
    (¬ waits → exec .lastResortRepair s = .next s) ∧
    (let due := s.power.pwrGood = true ∧ s.power.warn = false ∧ s.boot.rounds = 0 ∧ s.boot.stage = (if s.boot.straps.compatBoot then .waitRepair else .repaired)
      let u := (if s.boot.straps.compatBoot then s.applyMap else s).start [0]
      (¬ due → exec .spRelease s = .next s) ∧
      (due → u.nv.lifecycle = 3 → exec .spRelease s = .next u.decommissioned) ∧
      (due → u.nv.lifecycle ≠ 3 → ∃ t, exec .spRelease s = .next t ∧ Claims.RoundStarted u.spAppends t)) ∧
    (s.boot.stage = .selected → let ok := partOk s.runHdr s.runBody 1 = true ∧ partOk s.runHdr s.runBody 2 = true
      (s.boot.straps.safeHold = true → exec .releaseEvent s = .next s) ∧
      (s.boot.straps.safeHold = false → ok →
        let spare := if ∀ m ∈ s.repair.mps, m = true then s.boot.runSlot.map (fun n => (n, s.boot.runSeq, s.boot.runVersion)) else none
        let u := { s with boot := { s.boot with stage := .released, mpRunning := true, fenced := true, standby := spare }, repair := { s.repair with mpActive := if s.repair.mps.getD 0 false then 0 else 1 } }
        let v := (u.start [1, 2]).start (if s.boot.straps.compatBoot then [3, 4] else [])
        exec .releaseEvent s = .next ((v.loadNotice 136).loadNotice 144)) ∧
      (s.boot.straps.safeHold = false → ¬ ok → s.power.warn = true → exec .releaseEvent s = .next s) ∧
      (s.boot.straps.safeHold = false → ¬ ok → s.power.warn = false →
        let u : State := { s with boot := { s.boot with tried := match s.boot.runSlot with | some n => s.boot.tried ++ [n] | none => s.boot.tried } }
        ∃ t, exec .releaseEvent s = .next t ∧ Claims.Selected (u.resetDomains.start [0]) t)) ∧
    (s.boot.stage ≠ .selected → exec .releaseEvent s = .next s) ∧
    (s.boot.mpRunning = true → s.boot.stage = .released → ∃ g, exec .yardRelease s = .next { s with boot := { s.boot with stage := .yards }, dev := { s.dev with starting := false, testing := true }, cls := { s.cls with cur := { s.cls.cur with graph := g } } } ∧
      g = Config.defaultGraph.foldl (fun (m : FMap (List Byte)) n => FMap.set [] m n.1 n.2) s.cls.cur.graph) ∧
    ((s.boot.mpRunning = false ∨ s.boot.stage ≠ .released) → exec .yardRelease s = .next s) ∧
    (∀ p, exec (.builtInTestEnd p) s = .next { s with dev := { s.dev with testing := false } }) ∧
    ((s.boot.window = false ∨ s.boot.windowHeld = true ∨ s.monitor.load ≠ none ∨ s.power.warn = true) → exec .recoveryWindowExpiry s = .next s) ∧
    (s.boot.window = true → s.boot.windowHeld = false → s.monitor.load = none → s.power.warn = false →
      (s.boot.preSelect = true → ∃ t, exec .recoveryWindowExpiry s = .next t ∧ Claims.Selected s t) ∧
      (s.boot.preSelect = false → ∃ t, exec .recoveryWindowExpiry s = .next t ∧ Claims.RoundStarted (s.resetDomains.start [0]) t)) ∧
    (∀ ps p, p ∈ (s.start ps).boot.started ↔ p ∈ s.boot.started ∨ p ∈ ps) ∧
    (∀ p, s.bootEntry p = if Config.bootVector p = 0 ∨ (s.boot.straps.compatBoot = true ∧ 3 ≤ p) then none else some (Config.bootVector p))

/-! ### Stacking -/

/-- The rest of a stack goes on without its master (R441): the device recovers, the clock leaves the stack, and the next turn has a new master. -/
def Claims.masterLost (s : State) (members : List Nat) : State :=
  let u := s.addRecover .master
  let v := if u.time.source = 1 then u.loseSource else { u with time := u.time.setQual 1 false }
  { v with stack := { v.stack with members := members, takeover := true, markers := 0, missed := 0, commit := v.stack.commit.map (fun (c : StackCommit) => { c with lost := true }) } }

/-- A member has been asked for a batch (R443): whether it has answered READY. -/
def Claims.promised (u : State) (batch tick : Nat) (ready : Bool) : State := { u with stack := { u.stack with prepared := u.stack.prepared ++ [(batch, tick, ready)] } }

/-- The MP firmware has heard a CONTROL message, with a stamp of class 6 (R208, R436). -/
def Claims.heard (s : State) (src code about : Nat) : State :=
  { s with stack := { s.stack with heard := if s.boot.straps.stackEn then some (s.stamp (srcPeer src), code, about) else s.stack.heard } }

/-- A frame for another position is sent on (R435, R436), unless that would be its 8th hop. -/
def Claims.relayed (s : State) (f : StackFrame) : State := if 8 ≤ f.hops + 1 then s else s.stackRoute 0 { f with hops := f.hops + 1 }

/-- O46. What the rows of a stack do (R29, R32, R436 to R446): joining, tick markers, the loss of the master, a split, the messages of a stack-wide commit, and
frames from other modules, which are taken here or sent on. -/
def Obligations.StackRowsAct : Prop :=
  ∀ (s : State),
    (let ends := s.boot.straps.stackEn = true ∧ s.stackLaneUp = true ∧ s.stack.joinAt = none
      ∀ (pos : Fin 8) tick, let known := s.stack.members.contains pos.val = true ∧ ¬ (pos.val = s.position ∧ s.stack.members.length = 1)
        let w := Claims.heard s pos.val ctlAdmit pos.val
        let u : State := { w with stack := { w.stack with joinAt := some (pos.val, tick, s.time.tick + 1000) } }
        (ends → ¬ known → s.isMaster = true → pos.val ≠ s.position → exec (.stackJoin pos tick) s = .next (u.controlAll ctlAdmit pos.val (leBytes 8 (s.time.number + 1000)))) ∧
        (ends → ¬ known → (s.isMaster = false ∨ pos.val = s.position) → exec (.stackJoin pos tick) s = .next u) ∧
        ((¬ ends ∨ known) → exec (.stackJoin pos tick) s = .next w)) ∧
    (∀ hops offset pend (unwell : List (Fin 8)), let counts := s.boot.straps.stackEn = true ∧ s.isMaster = false ∧ s.stack.isolated = false ∧ hops < 8
      let w : State := { s with stack := { s.stack with unwell := if s.boot.straps.stackEn then unwell.map (·.val) else s.stack.unwell } }
      let u : State := { w with stack := { w.stack with missed := 0, markers := s.stack.markers + 1 } }
      let v := if s.stack.takeover = true ∧ 15 ≤ s.stack.markers then State.dropRecover { u with stack := { u.stack with takeover := false } } .master else u
      let x := if v.time.source = 1 then v.measure offset else v
      (counts → pend = none → exec (.tickMarker hops offset pend unwell) s = .next { x with time := { x.time with pendPeriod := none } }) ∧
      (counts → ∀ p, pend = some p → (p.1 < 5 → exec (.tickMarker hops offset pend unwell) s = .next { x with time := { x.time with pendPeriod := some p } }) ∧
        (5 ≤ p.1 → exec (.tickMarker hops offset pend unwell) s = .next x)) ∧
      (¬ counts → exec (.tickMarker hops offset pend unwell) s = .next w)) ∧
    (s.boot.straps.stackEn = true → s.isMaster = false → 3 ≤ s.stack.missed →
      exec .masterLoss s = .next (Claims.masterLost s (s.stack.members.filter (fun p => decide (p ≠ s.stack.master))))) ∧
    ((s.boot.straps.stackEn = false ∨ s.isMaster = true ∨ s.stack.missed < 3) → exec .masterLoss s = .next s) ∧
    (∀ reach : List (Fin 8), let part := s.stack.members.filter (fun p => decide (p = s.position) || (reach.map (·.val)).contains p)
      let goesOn := s.stack.members.length < 2 * part.length ∨ (s.stack.members.length = 2 * part.length ∧ lowestOf s.stack.members ∈ part)
      ((s.boot.straps.stackEn = false ∨ part.length = s.stack.members.length) → exec (.stackSplit reach) s = .next s) ∧
      (s.boot.straps.stackEn = true → part.length ≠ s.stack.members.length →
        (¬ goesOn → exec (.stackSplit reach) s = .next s.isolate) ∧
        (goesOn → s.stack.master ∈ part → exec (.stackSplit reach) s = .next { s with stack := { s.stack with members := part } }) ∧
        (goesOn → s.stack.master ∉ part → exec (.stackSplit reach) s = .next (Claims.masterLost s part)))) ∧
    (∀ (src : Fin 8) batch,
      (let takes := s.boot.straps.stackEn = true ∧ s.isMaster = false ∧ src.val = s.stack.master ∧ 1 ≤ batch ∧ batch ≤ 255 ∧ s.isPrepared batch = false
        let w := Claims.heard s src.val ctlPrepare batch
        let u := w.requestBatch batch true
        let v := Claims.promised u batch s.time.tick
        (takes → s.commitWaits batch = true → exec (.prepare src batch) s = .next (v false)) ∧
        (takes → s.commitWaits batch = false → exec (.prepare src batch) s = .next ((v true).control src.val ctlReady batch [])) ∧
        (¬ takes → exec (.prepare src batch) s = .next w)) ∧
      (∀ tick, let fresh : Prop := s.boot.straps.stackEn = true ∧ s.stack.isolated = false ∧ (∀ g ∈ s.stack.going, g.1 ≠ batch);
        let w := Claims.heard s src.val ctlGo batch
        (fresh → exec (.go src batch tick) s = .next (State.sendGo { w with stack := { w.stack with going := s.stack.going ++ [(batch, tick)], commit := s.stack.commit.map (fun (c : StackCommit) => if c.batch = batch then { c with goTick := some tick } else c) } } batch tick)) ∧
        (¬ fresh → exec (.go src batch tick) s = .next w)) ∧
      ((s.boot.straps.stackEn = false ∨ s.stack.isolated = true) → exec (.stackAbandon src batch) s = .next (Claims.heard s src.val ctlAbandon batch)) ∧
      (s.boot.straps.stackEn = true → s.stack.isolated = false → let w := Claims.heard s src.val ctlAbandon batch
        (∀ c, s.stack.commit = some c → c.lost = true → ∃ u : State, u = { w with freeCtr := u.freeCtr } ∧ exec (.stackAbandon src batch) s = .next (u.stackAbandoned batch (vOwn 1 3))) ∧
        ((∀ c, s.stack.commit = some c → c.lost = false) → ∃ (u : State) (v : CmdEnd), u = { w with freeCtr := u.freeCtr } ∧ v.kind = 3 ∧ v.value < 8 ∧ (v.status = 0x0F ∨ v.status = 9) ∧
          exec (.stackAbandon src batch) s = .next (u.stackAbandoned batch v)))) ∧
    (∀ missing : Fin 8, (s.stack.commit = none → exec (.prepareTimeout missing) s = .next s) ∧
      (∀ c, s.stack.commit = some c →
        let times := s.isMaster = true ∧ c.goTick = none ∧ c.start + 16 ≤ s.time.tick ∧ missing.val ∈ s.stack.members ∧ missing.val ∉ c.ready
        (times → exec (.prepareTimeout missing) s = .next ((s.controlAll ctlAbandon c.batch []).stackAbandoned c.batch (CmdEnd.mk 3 3 missing.val))) ∧
        (¬ times → exec (.prepareTimeout missing) s = .next s))) ∧
    (let undecided : Prop := s.boot.straps.stackEn = true ∧ s.isMaster = false ∧ (∃ e ∈ s.stack.prepared, ∀ g ∈ s.stack.going, g.1 ≠ e.1);
      (undecided → exec .stackDecisionDeadline s = .next s.isolate) ∧
      (¬ undecided → exec .stackDecisionDeadline s = .next s)) ∧
    (∀ (src dst : Fin 8) hops lane entry (block frame hv : List Byte) (carries : List Word),
      let mem := exec (.member src hops lane block frame dst) s
      let stg := exec (.stage src hops frame hv carries dst entry) s
      ((s.boot.straps.stackEn = false ∨ 8 ≤ hops ∨ s.dataplane = false) → mem = .next s ∧ stg = .next s) ∧
      (s.boot.straps.stackEn = true → hops < 8 → s.dataplane = true → dst.val ≠ s.position →
        mem = .next (Claims.relayed s { kind := 2, src := src.val, dst := dst.val, hops := hops, index := lane, aux := 0, body := padTo 16 block ++ frame }) ∧
        stg = .next (Claims.relayed s { kind := 3, src := src.val, dst := dst.val, hops := hops, index := entry, aux := 0, body := stageBody frame hv carries })) ∧
      (s.boot.straps.stackEn = true → hops < 8 → s.dataplane = true → dst.val = s.position →
        (s.tmq (fieldLe block 0 2) = none → mem = .next s) ∧
        (∀ q, s.tmq (fieldLe block 0 2) = some q → ∀ h u, s.alloc frame.length false ownTm = (h, u) →
          (h = none → mem = .next u) ∧
          (∀ x, h = some x → mem = .next ((u.bufWrite x 0 frame).appendLeaf (fieldLe block 0 2) lane q (memberFrame block x)))) ∧
        (∀ h u, s.alloc frame.length false ownRx = (h, u) →
          let v := match h with | some x => u.bufWrite x 0 frame | none => u
          let vec := Mem.ofBytes (padTo 512 hv)
          stg = .next (v.classifyWith (PFrame.mk (Mem.rd vec 0).toNat vec frame (h.getD 0) h.isNone v.cls.cur.ver true) (some ((carries ++ List.replicate 32 0).take 32)) []))))

/-! ### SMBus, MCTP and the TAP -/

/-- An MCTP control message is answered with bytes while an MP runs (R477). -/
def Claims.mctpAnswered (s : State) (bs : List Byte) : State := { s with power := { s.power with mctpReply := some bs } }

/-- A TAP instruction is selected: `x` drives the contacts, `k` opens the Criek channel (R479, R487). -/
def Claims.tapSelected (s : State) (ir : Nat) (x k : Bool) : State := { s with power := { s.power with tapIr := ir, extest := x }, monitor := { s.monitor with tapCriek := k } }

/-- O47. What the SMBus, MCTP and TAP rows answer (R477 to R479, R487). The layout of the MCTP answers is that of DSP0236 and presumed, its version and the
TAP's instruction numbers are the model's (log 55). -/
def Obligations.SideInterfacesAnswer : Prop :=
  ∀ (s : State),
    (∀ code, (s.power.st = PowerState.down → exec (.smbusReadWord code) s = .next { s with power := { s.power with smbus := none } }) ∧
      (s.power.st ≠ PowerState.down → let reads := fun (v : Option Half) => exec (.smbusReadWord code) s = .next { s with power := { s.power with smbus := v } }
        (code = 1 → reads (some (BitVec.ofInt 16 s.power.plate))) ∧ (code = 2 → reads (some (BitVec.ofInt 16 s.power.junction))) ∧
        (code = 3 → reads (some (BitVec.ofNat 16 (s.power.vinMv / 10)))) ∧ (code = 4 → reads (some (BitVec.ofNat 16 (s.power.holdupMv / 10)))) ∧
        (code = 5 → reads (some (BitVec.ofNat 16 (s.dev.state + (if s.power.thermAlert then 256 else 0) + (if s.events.faultN then 0 else 512) + (if s.power.warn then 1024 else 0) +
          (if s.power.st = .tripped then 2048 else 0))))) ∧
        (code = 6 → reads (some (BitVec.ofNat 16 (s.power.estimate / 10)))) ∧ (code = 0 → reads none) ∧ (6 < code.toNat → reads none))) ∧
    (let low := s.power.st ≠ PowerState.down ∧ (s.power.thermAlert = true ∨ s.events.faultN = false ∨ s.power.warn = true);
      (low → exec .alertResponse s = .next { s with power := { s.power with smbus := some (BitVec.ofNat 16 (2 * (0x68 + s.boot.straps.pos.val))) } }) ∧
      (¬ low → exec .alertResponse s = .next { s with power := { s.power with smbus := none } })) ∧
    ((s.boot.mpRunning = false ∨ s.power.pwrGood = false) → ∀ eid, ∀ x ∈ [Instr.setEndpointId eid, .getEndpointId, .getMctpVersionSupport, .getMessageTypeSupport],
      exec x s = .next { s with power := { s.power with mctpReply := none } }) ∧
    (s.boot.mpRunning = true → s.power.pwrGood = true →
      (∀ eid, ((eid = 0 ∨ eid = 0xFF) → exec (.setEndpointId eid) s = .next (Claims.mctpAnswered s [2])) ∧
        (eid ≠ 0 → eid ≠ 0xFF → exec (.setEndpointId eid) s = .next (Claims.mctpAnswered { s with power := { s.power with mctpEid := eid } } [0, 0, eid, 0]))) ∧
      exec .getEndpointId s = .next (Claims.mctpAnswered s [0, s.power.mctpEid, 0, 0]) ∧
      (∃ v, exec .getMctpVersionSupport s = .next (Claims.mctpAnswered s.tickFree ([0, 1] ++ leBytes 4 v))) ∧
      exec .getMessageTypeSupport s = .next (Claims.mctpAnswered s [0, 0])) ∧
    (let selects := Claims.tapSelected s;
      exec .bypass s = .next (selects 0 false false) ∧ exec .idcode s = .next (selects 1 false false) ∧ tapData (selects 1 false false).power = 0x15A109E7 ∧
      (∀ bs, let u := selects 2 false false
        exec (.samplePreload bs) s = .next { u with power := { u.power with boundary := bs } }) ∧
      exec .extest s = .next (selects 3 true false) ∧
      (s.nv.lifecycle ≤ 1 → exec .criek s = .next (selects 4 false true)) ∧ (1 < s.nv.lifecycle → exec .criek s = .next (selects 0 false false)))

/-! ### The Criek monitor -/

/-- The monitor's commands on a path, with the kind by which R488 and R489 permit them. -/
def Claims.MonRow (m : MonPath) (x : Instr) (k : MonKind) : Prop :=
  (k = .basic ∧ (x = .help m ∨ x = .id m ∨ x = .state m ∨ (∃ r, x = .baud m r) ∨ x = .quit m)) ∨ (k = .look ∧ (x = .time m ∨ ∃ a b, x = .log m a b)) ∨
  (k = .fuse ∧ ((∃ i a b, x = .keyprog m i a b) ∨ ∃ i b, x = .revoke m i b)) ∨ (k = .advance ∧ ∃ b, x = .lcadv m b) ∨ (k = .rom ∧ (x = .release m ∨ ∃ n, x = .monitorLoad m n)) ∨
  (k = .engine ∧ ((∃ e b, x = .dbg m e b) ∨ (∃ e t, x = .hold m e t) ∨ (∃ e t, x = .resume m e t) ∨ (∃ e t, x = .step m e t) ∨ (∃ e t, x = .kill m e t) ∨ (∃ e t, x = .regs m e t) ∨
    (∃ e t r v, x = .setreg m e t r v) ∨ (∃ e a n, x = .rdmem m e a n) ∨ ∃ e a v, x = .wrmem m e a v))

/-- The monitor reads a line on this path (R485, R487). -/
def Claims.MonReads (s : State) (m : MonPath) : Prop :=
  s.power.pwrGood = true ∧ s.monitor.load = none ∧ (m = .tap → s.monitor.tapCriek = true ∧ s.nv.lifecycle ≤ 1)

/-- The lifecycle state permits a kind of command (R488): MANUFACTURE 0, DEVELOPMENT 1, FIELD 2, DECOMMISSIONED 3. -/
def Claims.MonPermits (life : Nat) (k : MonKind) : Prop :=
  (k = .look → life < 3) ∧ (k = .engine → life < 3) ∧ (k = .fuse → life < 2) ∧ (k = .advance → life = 0) ∧ (k = .rom → life < 3)

/-- A command runs with its path's session open, which leaves `u`. -/
def Claims.MonRuns (s : State) (m : MonPath) (k : MonKind) (u : State) : Prop :=
  Claims.MonReads s m ∧ (s.monitor.session = none ∨ s.monitor.session = some m) ∧ ((k = .look ∨ k = .engine) → s.monitor.criek = true) ∧ Claims.MonPermits s.nv.lifecycle k ∧
    u = { s with monitor := { s.monitor with session := some m } }

/-- O48. Who may use the monitor and when (R485 to R489), and what its commands do that concern no engine (R484, R486, R487, R489, R493). Its text is
structured (log 18); which arguments are malformed is partly the model's choice (log 56). -/
def Obligations.MonitorServesItsPaths : Prop :=
  ∀ (s : State) (m : MonPath),
    (∀ x k, Claims.MonRow m x k → let opened : State := { s with monitor := { s.monitor with session := some m } }
      (¬ Claims.MonReads s m → exec x s = .next s) ∧
      (Claims.MonReads s m → (∀ p, s.monitor.session = some p → p ≠ m → exec x s = .next (s.errLine 0x0F)) ∧
        ((s.monitor.session = none ∨ s.monitor.session = some m) →
          ((k = .look ∨ k = .engine) → s.monitor.criek = false → exec x s = .next (opened.errLine 0x0B)) ∧
          ((k = .look ∨ k = .engine → s.monitor.criek = true) → ¬ Claims.MonPermits s.nv.lifecycle k → exec x s = .next (opened.errLine 0x0F))))) ∧
    (∀ u, Claims.MonRuns s m .basic u →
      exec (.help m) s = .next ((monWords u.monitor.criek).foldl (fun (u : State) w => u.text w []) u).okLine ∧
      exec (.id m) s = .next { u with monitor := { u.monitor with out := u.monitor.out ++ [MonLine.text "PART" (partBytes.map (·.toNat)), .text "FWREL" [u.fwRel], .text "MBADEL" [0x00030001], .text "HIVIA" [0x00020004], .text "LIFECYCLE" [u.nv.lifecycle], .text "POSITION" [u.boot.straps.pos.val], .text "PERIOD" [u.time.period], .text "SERIAL" [Config.serial.toNat], .ok] } } ∧
      exec (.state m) s = .next { u with monitor := { u.monitor with out := u.monitor.out ++ [MonLine.text "STATE" [u.dev.state], .text "LIFECYCLE" [u.nv.lifecycle], .text "CLOCK" [u.time.clock.code], .text "COUNTS" [u.yardsInService, u.lanesInService, u.channelsInService], .ok] } } ∧
      (∀ rate, (rate ∈ [115200, 230400, 460800, 921600, 1000000, 2000000, 3000000] → exec (.baud m rate) s = .next { u with monitor := { u.monitor with out := u.monitor.out ++ [.ok], baudNext := some rate } }) ∧
        (rate ∉ [115200, 230400, 460800, 921600, 1000000, 2000000, 3000000] → exec (.baud m rate) s = .next (u.errLine 0x0F))) ∧
      exec (.quit m) s = .next { u with monitor := { u.monitor with out := u.monitor.out ++ [.ok], session := none } }) ∧
    (∀ u, Claims.MonRuns s m .look u →
      (∀ a n, (64 < n → exec (.log m a n) s = .next (u.errLine 0x0A)) ∧
        (n ≤ 64 → exec (.log m a n) s = .next ((u.eventsFrom a n).foldl (fun (u : State) e => u.text "EVENT" ((e.bytes false).map (·.toNat))) u).okLine)) ∧
      (let pend := match u.time.pendPeriod with | some p => [p.1, p.2] | none => [0xFF, 0]
       exec (.time m) s = .next (u.text "TIME" ([u.time.sec, u.time.ns, u.time.clock.code, u.time.source, (BitVec.ofInt 32 u.time.delta).toNat, u.time.gate] ++ pend)).okLine)) ∧
    (∀ u, Claims.MonRuns s m .fuse u → (∀ i a b, (u.power.warn = true → exec (.keyprog m i a b) s = .next (u.errLine 0x0F)) ∧
        (u.power.warn = false → 4 ≤ i → exec (.keyprog m i a b) s = .next (u.errLine 0x0A)) ∧
        (u.power.warn = false → i < 4 → u.keyProgrammed i = true → exec (.keyprog m i a b) s = .next (u.errLine 0x0F)) ∧
        (u.power.warn = false → i < 4 → u.keyProgrammed i = false → exec (.keyprog m i a b) s = .next (State.okLine { u with nv := { u.nv with keys := FMap.set none u.nv.keys i (some (a.toNat, b.toNat)) } }))) ∧
      (∀ i c, (u.power.warn = true → exec (.revoke m i c) s = .next (u.errLine 0x0F)) ∧
        (u.power.warn = false → (4 ≤ i ∨ c = false) → exec (.revoke m i c) s = .next (u.errLine 0x0A)) ∧
        (u.power.warn = false → i < 4 → c = true → ∃ r, (∀ j, j ∈ r ↔ j = i ∨ j ∈ u.nv.revoked) ∧ exec (.revoke m i c) s = .next (State.okLine { u with nv := { u.nv with revoked := r } })))) ∧
    (∀ u, Claims.MonRuns s m .advance u → ∀ c, (u.power.warn = true → exec (.lcadv m c) s = .next (u.errLine 0x0F)) ∧ (u.power.warn = false → c = false → exec (.lcadv m c) s = .next (u.errLine 0x0A)) ∧
      (u.power.warn = false → c = true → exec (.lcadv m c) s = .next (State.okLine { u with nv := { u.nv with lifecycle := 1 } }))) ∧
    (∀ u, Claims.MonRuns s m .rom u →
      let held := u.boot.straps.safeHold = true ∧ u.boot.stage = .selected ∧ u.boot.mpRunning = false
      (u.monitor.criek = false → held → exec (.release m) s = .next u.okLine.stage1Done) ∧ ((u.monitor.criek = true ∨ ¬ held) → exec (.release m) s = .next (u.errLine 0x0F)) ∧
      (∀ n, ((u.monitor.criek = true ∨ (u.boot.window = false ∧ ¬ held)) → exec (.monitorLoad m n) s = .next (u.errLine 0x0F)) ∧
        (u.monitor.criek = false → (u.boot.window = true ∨ held) → (n < 8192 ∨ 50331648 < n) → exec (.monitorLoad m n) s = .next (u.errLine 0x0A)) ∧
        (u.monitor.criek = false → (u.boot.window = true ∨ held) → 8192 ≤ n → n ≤ 50331648 → let v := u.text "READY" []
          exec (.monitorLoad m n) s = .next { v with monitor := { v.monitor with load := some (MonLoad.mk n [] 0 (!u.boot.window)) }, boot := { v.boot with windowHeld := u.boot.window } }))) ∧
    (s.monitor.load = none → (∀ d c, exec (.loadBlock d c) s = .next s) ∧ exec .loadGapTimeout s = .next s ∧ exec .serialLoadLimit s = .next s ∧ exec .sessionTimeout s = .next { s with monitor := { s.monitor with session := none } }) ∧
    (∀ l, s.monitor.load = some l → exec .sessionTimeout s = .next s ∧ exec .loadGapTimeout s = .next (s.endLoad.errLine 3) ∧ exec .serialLoadLimit s = .next (s.endLoad.errLine 3) ∧
      (∀ d c, ((d.length ≠ min 4096 (l.len - l.data.length) ∨ crc 0 d ≠ c) → exec (.loadBlock d c) s = .next (s.text "NAK" [l.block])) ∧
        (d.length = min 4096 (l.len - l.data.length) → crc 0 d = c → let u := s.text "ACK" [l.block]
          let got := { l with data := l.data ++ d, block := l.block + 1 }
          ((l.data ++ d).length < l.len → exec (.loadBlock d c) s = .next { u with monitor := { u.monitor with load := some got } }) ∧
          (l.len ≤ (l.data ++ d).length → let v := u.endLoad.stageImage (l.data ++ d)
            let st := v.loadStatus (l.data ++ d)
            exec (.loadBlock d c) s = .next (if st ≠ 0 then v.errLine st else if l.safeHold then v.okLine else v.okLine.runLoaded (l.data ++ d)))))) ∧
    ((∀ r, s.monitor.baudNext = some r → exec .baudSwitch s = .next { s with monitor := { s.monitor with baud := r, baudNext := none } }) ∧ (s.monitor.baudNext = none → exec .baudSwitch s = .next s)) ∧
    ((s.power.pwrGood = false ∨ (s.boot.mpRunning = false ∧ s.monitor.criek = false)) → exec .serverChange s = .next s) ∧
    (s.power.pwrGood = true → (s.boot.mpRunning = true ∨ s.monitor.criek = true) → let u := s.epochBump srcMonitor
      let v : State := { u with monitor := { u.monitor with criek := s.boot.mpRunning, load := none, baud := 115200, baudNext := none }, boot := { u.boot with windowHeld := false } }
      exec .serverChange s = .next (if s.boot.mpRunning then v.text "CRIEK" [v.fwRel, v.dev.state] else v.text "CRIEK-ROM" [v.dev.state]))

/-- O49. What the monitor's engine commands do (R88, R489 to R492): in service and allowed, on a held thread where R491 asks for one. -/
def Obligations.MonitorReachesEngines : Prop :=
  ∀ (s : State) (m : MonPath) (u : State) (e : Fin 1088) (k : Fin 8), Claims.MonRuns s m .engine u →
    let allowed := u.engActive e.val = true ∧ u.debugAllowed (e.val / 32) = true
    let th := u.thr e.val k.val
    (∀ on reg v a n, ∀ x ∈ [Instr.dbg m e on, .hold m e k, .resume m e k, .step m e k, .kill m e k, .regs m e k, .setreg m e k reg v, .rdmem m e a n, .wrmem m e a v],
      (u.engActive e.val = false → exec x s = .next (u.errLine 0x10)) ∧ (u.engActive e.val = true → u.debugAllowed (e.val / 32) = false → exec x s = .next (u.errLine 0x0F))) ∧
    (allowed →
      (∀ on, exec (.dbg m e on) s = .next (u.setEng e.val { u.eng e.val with dbgen := on }).okLine) ∧
      (k.val = 0 → exec (.hold m e k) s = .next (u.errLine 0x0F)) ∧
      (k.val ≠ 0 → th.st = .free → exec (.hold m e k) s = .next (u.errLine 0x11)) ∧
      (k.val ≠ 0 → th.st ≠ .free → let v := if th.held then u else u.holdThread e.val k.val 0
        (∀ it, (u.eng e.val).itemOf k.val = some it → exec (.hold m e k) s = .next (v.text "HELD" [th.pc.toNat, it.tick]).okLine) ∧
        ((u.eng e.val).itemOf k.val = none → exec (.hold m e k) s = .next (v.text "HELD" [th.pc.toNat, u.time.number]).okLine)) ∧
      (th.held = false → ∀ reg v, ∀ x ∈ [Instr.resume m e k, .step m e k, .kill m e k, .setreg m e k reg v], exec x s = .next (u.errLine 0x11)) ∧
      (th.held = true →
        exec (.resume m e k) s = .next (u.modThr e.val k.val (fun t => { t with held := false, stepping := false })).okLine ∧
        exec (.step m e k) s = .next (u.modThr e.val k.val (fun t => { t with held := false, stepping := true })).okLine ∧
        exec (.kill m e k) s = .next (u.endOther e.val k.val 0x0C false).okLine ∧
        (∀ (reg : Fin 33) v, (reg.val = 32 → exec (.setreg m e k reg v) s = .next (u.modThr e.val k.val (fun t => { t with pc := v })).okLine) ∧
          (reg.val ≠ 32 → exec (.setreg m e k reg v) s = .next (u.modThr e.val k.val (fun t => t.setReg reg.val v)).okLine))) ∧
      (∃ tick sel : Nat, (∀ it, (u.eng e.val).itemOf k.val = some it → tick = it.tick) ∧ ((u.eng e.val).itemOf k.val = none → tick = 0) ∧ (∀ i, th.sel = some i → sel = i) ∧
        (th.sel = none → sel = 0xFFFFFFFF) ∧
        exec (.regs m e k) s = .next ((((u.text "X" ((List.range 31).map (fun i => (th.reg (i + 1)).toNat))).text "PC" [th.pc.toNat]).text "SXTICK" [tick]).text "SXARR" [sel]).okLine) ∧
      (∀ a n, (256 < n → exec (.rdmem m e a n) s = .next (u.errLine 0x0A)) ∧
        (n ≤ 256 → (∃ i, i < n ∧ u.monWord e.val (a + 4 * i) = none) → exec (.rdmem m e a n) s = .next (u.errLine 8)) ∧
        (n ≤ 256 → ∀ ws : List Nat, ws.length = n → (∀ i, i < n → u.monWord e.val (a + 4 * i) = some (ws.getD i 0)) → exec (.rdmem m e a n) s = .next (u.text "MEM" ws).okLine)) ∧
      (∀ a v, ((u.eng e.val).holdEng = false → exec (.wrmem m e a v) s = .next (u.errLine 0x0F)) ∧
        ((u.eng e.val).holdEng = true → (∀ b, u.locate e.val 0 a 4 = .store b → exec (.wrmem m e a v) s = .next (u.writePlace e.val 0 (.store b) (leBytes 4 v.toNat)).okLine) ∧
          (∀ b, u.locate e.val 0 a 4 = .shared b → exec (.wrmem m e a v) s = .next (u.writePlace e.val 0 (.shared b) (leBytes 4 v.toNat)).okLine) ∧
          ((∀ b, u.locate e.val 0 a 4 ≠ .store b ∧ u.locate e.val 0 a 4 ≠ .shared b) → exec (.wrmem m e a v) s = .next (u.errLine 8)))))

/-! ### The queue and the invariants -/

/-- O50. One sender's commands are taken from the front of the queue (log 1). For every command and state, a step with the command in front is
the command's effect on the state with the queue's rest; on an empty queue the block idles. -/
def Obligations.StepRunsTheFrontCommand : Prop :=
  ∀ (s : State), (∀ c l, s.pending = c :: l → step s = exec c { s with pending := l }) ∧ (s.pending = [] → step s = .next s)

/-- O51. No command stops: every command answers a next state in every state, and leaves the queue as it is. -/
def Obligations.EveryCommandAnswers : Prop := ∀ (c : Instr) (s : State), ∃ t, exec c s = .next t ∧ t.pending = s.pending

/-- O52. Two invariants that every step keeps, from every state that meets them. DRAM and host memory keep their one canonical form. The tick period,
in force and pending, stays one of the five of R17, and the gate constant stays in the range of R19. -/
def Obligations.StepsKeepTheInvariants : Prop :=
  ∀ (s t : State), step s = .next t → (s.MemoriesCanonical → t.MemoriesCanonical) ∧ (s.LegalTime → t.LegalTime)

/-- O53. Fuses are blown once and never restored (R414, R420, R421): over every step, whatever the command, the lifecycle state never goes back, a
revoked key slot stays revoked, and a programmed key slot keeps its hashes. -/
def Obligations.FusesAreNeverRestored : Prop :=
  ∀ (s t : State), step s = .next t → s.nv.lifecycle ≤ t.nv.lifecycle ∧ (∀ k ∈ s.nv.revoked, k ∈ t.nv.revoked) ∧
    ∀ k h, FMap.get none s.nv.keys k = some h → FMap.get none t.nv.keys k = some h

/-- O54. What a write of bytes leaves. In a memory, every byte outside those written reads as before; a canonical memory stays canonical, and the
bytes written read back. A place that an engine writes (R42 to R44, R51) is the data store, the yard's shared store, the header vector of the selected
arrival, its buffer, or the control region, and of the state only that memory is written. -/
def Obligations.WritesChangeOnlyTheirBytes : Prop :=
  (∀ (m : Mem) (a : Nat) (bs : List Byte), (∀ x, (x < a ∨ a + bs.length ≤ x) → Mem.rd (Mem.wrN m a bs) x = Mem.rd m x) ∧
    (FMap.wf 0 m = true → FMap.wf 0 (Mem.wrN m a bs) = true ∧ Mem.rdN (Mem.wrN m a bs) a bs.length = bs)) ∧
  FMap.wf 0 ([] : Mem) = true ∧
  (∀ (s : State) (pe k : Nat) (bs : List Byte), (s.eng pe).cyc ≠ 0 →
    (∀ a, let t := s.writePlace pe k (.store a) bs
      t.eng pe = { s.eng pe with store := Mem.wrN (s.eng pe).store a bs } ∧ (∀ pe', pe' ≠ pe → t.eng pe' = s.eng pe') ∧ s.SameButEngines t) ∧
    (∀ a, s.writePlace pe k (.shared a) bs = s.setYard (pe / 32) { s.yard (pe / 32) with shared := Mem.wrN (s.yard (pe / 32)).shared a bs }) ∧
    (∀ off, let t := s.writePlace pe k (.hv off) bs
      t.eng pe = (s.eng pe).modSelected k (fun a => { a with hv := Mem.wrN a.hv off bs }) ∧ (∀ pe', pe' ≠ pe → t.eng pe' = s.eng pe') ∧ s.SameButEngines t) ∧
    (∀ h off, let a := s.bufAddr (hPool h) (hIdx h) + off
      s.writePlace pe k (.buf h off) bs =
        (if hPool h ≤ 4 then { s with pools := { s.pools with pkt := Mem.wrN s.pools.pkt a bs } } else { s with dram := Mem.wrN s.dram a bs })) ∧
    (∀ a, s.writePlace pe k (.dram a) bs = { s with dram := Mem.wrN s.dram a bs }))

/-- O55. The invariants of O52 hold at reset, where no command waits. -/
def Obligations.ResetMeetsTheInvariants : Prop := State.reset.MemoriesCanonical ∧ State.reset.LegalTime ∧ State.reset.pending = []

/-! ### Blocks and results -/

/-- The header of an Mbadel command's block; RECOVERY_LOAD, which the SP ROM reads (R433), is none of the firmware's. -/
def Claims.header : Instr → Option MbHdr
  | .identify h | .deviceState h | .poolCarve h _ _ | .poolCounters h _ | .controlRegion h _ | .deviceReset h _ | .instanceCreate h _ _ _ _ _
  | .instanceResize h _ _ | .instanceReset h _ | .instanceDestroy h _ | .instanceFreeze h _ | .instanceSave h _ _ _ | .instanceRestore h _ _ _ _
  | .instanceThaw h _ | .dirtyHarvest h _ _ _ _ | .instanceQuery h _ | .macSet h _ _ _ | .queueQuery h _ _ _ | .queueDestroy h _ _ _
  | .ringBind h _ _ _ _ _ | .tableCreate h _ _ _ _ _ _ _ _ | .tableDestroy h _ | .stageEntries h _ _ _ | .stageStages h _ _ _ | .stageGraph h _ _ _ _
  | .stageDefaults h _ _ _ | .stageSpread h _ _ _ _ _ _ | .commit h _ _ | .abandon h _ | .read h _ _ _ _ _ | .tableCounters h _ | .tablePlan h _
  | .programLoad h _ _ _ | .bankSwitch h _ _ | .programQuery h _ | .regCreate h _ _ _ _ _ | .regRevoke h _ | .ctxBacking h _ _
  | .ctxCreate h _ _ _ _ _ _ _ _ _ | .ctxModify h _ _ _ _ | .ctxDestroy h _ | .ctxQuery h _ | .backendAdd h _ _ _ _ _ | .backendRemove h _
  | .nsCreate h _ _ _ _ | .nsAttach h _ _ _ | .nsDetach h _ _ | .nsDestroy h _ | .backendQuery h _ | .laneSet h _ _ _ _ _ _ | .agSet h _ _ _
  | .agHash h _ _ _ | .tmqCreate h _ _ _ _ _ _ _ | .tmqDestroy h _ | .tmAttr h _ _ _ | .editLoad h _ _ | .portCounters h _ _ | .opticsQuery h _
  | .timeQuery h | .sourcePriority h _ _ _ _ | .sourceSelect h _ | .setGate h _ _ | .periodChange h _ _ | .periodCancel h | .holdoverSet h _
  | .sparesQuery h | .rotationSet h _ _ | .rotateNow h _ _ _ | .patrolSet h _ _ | .repairLog h _ _ | .farrierReload h _ | .wearQuery h
  | .imageWrite h _ _ _ | .imageValidate h _ | .imageQuery h | .mpSwitch h _ _ | .imageConfirm h | .keyRevoke h _ | .keyQuery h
  | .lifecycleAdvance h _ _ | .stackQuery h | .stackGroup h _ _ _ | .stackStage h _ _ _ | .powerQuery h | .powerCap h _ | .urgentMask h _ _
  | .domainQuery h | .monitorUnlock h _ _ | .monitorRelock h _ | .debugQuery h | .eventRingSet h _ _ _ | .eventMask h _ | .logRead h _ _ _ => some h
  | _ => none

/-- `t` is `s` with a taken block read and ended with some status and no result: nothing else has happened. -/
def Claims.OnlyEnds (s : State) (h : MbHdr) (ptr len : Nat) (t : State) : Prop :=
  ∃ op v need, t = (s.consume h.hm.val ptr op).writeResult h.hm.val ptr len h.v2 v [] need

/-- The address of the message of MSI-X vector `k` of PF0. -/
def Claims.messageAt (s : State) (k : Nat) : Nat := Mem.rdLe (s.fn 0).msix (k * 16) 8

/-- O56. A block that only checks (R227), of those taken the next to start (R231): whatever the command, it ends with a status and nothing else happens; NS_CREATE, whose check needs its
backend's answer (R239), makes no namespace. Where PF0's writes are issued at once,
no reset of PF0 came between, and the notice's message lies outside the block, DONE_TICK reads the tick of the completion. -/
def Obligations.CheckOnlyCommandsOnlyEnd : Prop :=
  ∀ (s : State) (c : Instr) (h : MbHdr) (ptr len : Nat), Claims.header c = some h → h.checkOnly = true → h.readStatus = 0 →
    FMap.get none s.mbadel.taken h.hm.val = some (ptr, len) → s.mbadel.order.head? = some h.hm.val → ∃ t, exec c s = .next t ∧
      ((∃ n b rn rem, c = .nsCreate h n b rn rem) → t.sto.nss = s.sto.nss) ∧ ((∀ n b rn rem, c ≠ .nsCreate h n b rn rem) → Claims.OnlyEnds s h ptr len t ∧
      (h.v2 = false → s.holds 0 = false → s.preReset? h.hm.val ptr = none → FMap.wf 0 s.hostMem = true →
        (Claims.messageAt s h.hm.val + 4 ≤ ptr ∨ ptr + 64 ≤ Claims.messageAt s h.hm.val) → Mem.rdN t.hostMem (ptr + 0x18) 8 = leBytes 8 s.time.number))

/-- O57. How the firmware begins with a block, whatever the command (R14, R225, R229): one whose message it has not taken, or that another taken before it
still precedes (R231), does nothing (log 2); a failed read of the block is logged and ends it ACCESS_DENIED; a misplaced block and one whose LENGTH is not LEN or is below 64 end it BAD_DESCRIPTOR with
the offset; one of an OPCODE that no row has is UNSUPPORTED, and so is every block in the recovery personality and window. -/
def Obligations.BlocksAreCheckedFirst : Prop :=
  ∀ (s : State) (c : Instr) (h : MbHdr), Claims.header c = some h →
    (FMap.get none s.mbadel.taken h.hm.val = none → exec c s = .next s) ∧
    (s.mbadel.order.head? ≠ some h.hm.val → exec c s = .next s) ∧
    (∀ ptr len, FMap.get none s.mbadel.taken h.hm.val = some (ptr, len) → s.mbadel.order.head? = some h.hm.val → ∃ op, let u := s.consume h.hm.val ptr op
      let stop : State → CmdEnd → Answer := fun v e => .next (v.endCmd h.hm.val ptr len h.v2 e)
      (h.readStatus ≠ 0 → exec c s = stop (u.log 0x0407 h.hm.val h.readStatus.toNat) { status := 8, kind := 0, value := 0 }) ∧
      (h.readStatus = 0 → ptr % 64 ≠ 0 → exec c s = stop u { status := 0x0A, kind := 2, value := 0 }) ∧
      (h.readStatus = 0 → ptr % 64 = 0 → h.length ≠ len ∨ len < 64 → exec c s = stop u { status := 0x0A, kind := 2, value := 4 }) ∧
      (h.readStatus = 0 → ptr % 64 = 0 → h.length = len → 64 ≤ len →
        (s.boot.recoveryPers = true ∨ s.boot.window = true ∨ ∃ o, h.opcode = some o ∧ implemented o = false) →
        exec c s = stop u { status := 0x0B, kind := 0, value := 0 }))

/-- The header fields that the firmware writes from +0x10 (R226): STATUS, DETAIL, DONE_TICK, RESULT_LEN and RESULT_NEED. -/
def Claims.headerFields (s : State) (v2 : Bool) (v : CmdEnd) (got need : Nat) : List Byte :=
  [v.status, 0, 0, 0] ++ leBytes 3 v.value ++ [BitVec.ofNat 8 v.kind] ++ leBytes 8 (if v2 then 0 else s.time.number) ++ leBytes 4 got ++ leBytes 4 need

/-- O58. What the firmware writes when a command ends (R225, R226, R228, R229), while PF0's writes are issued at once: the header fields at
+0x10, as much of the result as fits at +0x40, and, when the notice is posted and its vector is not masked, the 4 bytes of its message; every other
byte of host memory is as before. The notice is posted in MHk, or waits while MHk is FULL. -/
def Obligations.ResultsAreWrittenInTheBlock : Prop :=
  ∀ (s : State) (k ptr len : Nat) (v2 : Bool) (v : CmdEnd) (res : List Byte) (need : Nat), FMap.wf 0 s.hostMem = true → s.holds 0 = false →
    s.preReset? k ptr = none → 64 ≤ len → v.kind < 256 → v.value < 2 ^ 24 →
    let t := s.writeResult k ptr len v2 v res need
    let n := min (len - 64) res.length
    let full := (s.mb (mhNo k)).full
    let m := Claims.messageAt s k
    let sent := full = false ∧ s.msixMasked 0 k = false
    ((¬sent ∨ m + 4 ≤ ptr ∨ ptr + len ≤ m) → Mem.rdN t.hostMem (ptr + 0x10) 24 = Claims.headerFields s v2 v n need ∧
      Mem.rdN t.hostMem (ptr + 0x40) n = res.take n) ∧
    (sent → Mem.rdN t.hostMem m 4 = leBytes 4 (Mem.rdLe (s.fn 0).msix (k * 16 + 8) 4)) ∧
    (∀ a, (a < ptr + 0x10 ∨ ptr + 0x28 ≤ a) → (a < ptr + 0x40 ∨ ptr + 0x40 + n ≤ a) → (¬sent ∨ a < m ∨ m + 4 ≤ a) → Mem.rd t.hostMem a = Mem.rd s.hostMem a) ∧
    (full = true → t.mbadel.notices = s.mbadel.notices ++ [(k, ptr, len)] ∧ t.mb (mhNo k) = s.mb (mhNo k)) ∧
    (full = false → (t.mb (mhNo k)).full = true ∧ (t.mb (mhNo k)).ptr = BitVec.ofNat 64 ptr ∧ (t.mb (mhNo k)).len = BitVec.ofNat 32 len)

/-! ### Events and faults -/

/-- O59. Logging an event (R373, R374, R376): it takes the next sequence number and stands in front of the entries that the log still holds, and waits for
the ring where the ring is enabled and its class is not masked; nothing else changes. An entry's 32 bytes hold its fields at the offsets of R374. -/
def Obligations.EventsTakeTheNextNumber : Prop :=
  (∀ (s : State) (stamp : Word) (code obj detail : Nat), let t := s.logFrom stamp code obj detail
    ∃ e : Event, e.seq = s.events.nextSeq ∧ e.tick = s.time.number ∧ e.code = BitVec.ofNat 16 code ∧ e.stamp = stamp ∧ e.object = BitVec.ofNat 32 obj ∧
      e.detail = BitVec.ofNat 32 detail ∧ t.events.nextSeq = s.events.nextSeq + 1 ∧ t.events.log[0]? = some e ∧
      (∀ i, i + 1 < 3145728 → t.events.log[i + 1]? = s.events.log[i]?) ∧ t.events.log.length ≤ 3145728 ∧
      (s.events.ringEnabled = true ∧ s.events.mask.getLsbD (code / 256) = false → t.events.pendingRing = s.events.pendingRing ++ [e]) ∧
      (s.events.ringEnabled = false ∨ s.events.mask.getLsbD (code / 256) = true → t.events.pendingRing = s.events.pendingRing) ∧
      t = { s with events := { s.events with log := t.events.log, nextSeq := t.events.nextSeq, pendingRing := t.events.pendingRing } }) ∧
  (∀ (e : Event) (phase : Bool), e.severity < 4 → (e.bytes phase).length = 32 ∧ (e.bytes phase).take 8 = leBytes 8 e.seq ∧
    slice (e.bytes phase) 8 8 = leBytes 8 e.tick ∧ slice (e.bytes phase) 16 2 = leBytes 2 e.code.toNat ∧
    (∃ f, (e.bytes phase)[18]? = some f ∧ f.getLsbD 0 = phase ∧ (f.toNat / 2) % 4 = e.severity) ∧ slice (e.bytes phase) 20 4 = leBytes 4 e.stamp.toNat ∧
    slice (e.bytes phase) 24 4 = leBytes 4 e.object.toNat ∧ slice (e.bytes phase) 28 4 = leBytes 4 e.detail.toNat)

/-- O60. A fault of R38 of a worker without children (R62, R69, R81, R82): its item ends CONTROL_CHECK for cause CHECK and ABORTED for the others, the
context is freed with that status kept, and its groom receives one record of 8 words, or loses it with OVF set when the fault channel is full. The
engine's other contexts, its stores and its banks are as before. -/
def Obligations.FaultsFreeTheContextAndLeaveARecord : Prop :=
  ∀ (s : State) (pe k cause : Nat) (addr : Word) (it : Item), 1 ≤ k → k < 8 → 1 ≤ cause → cause ≤ 9 → (s.eng pe).itemOf k = some it → (s.eng pe).kids k = [] →
    let t := s.fault pe k cause addr
    let st : Byte := if cause = 7 then 0x0E else 1
    let th := s.thr pe k
    (t.thr pe k).st = .free ∧ (t.thr pe k).kept = st ∧ (t.thr pe k).item = none ∧ (∀ k', k' ≠ k → t.thr pe k' = s.thr pe k') ∧
    (8 ≤ (s.eng pe).faultCh.length → (t.eng pe).faultCh = (s.eng pe).faultCh ∧ (t.eng pe).ovf = true) ∧
    ((s.eng pe).faultCh.length < 8 → (t.eng pe).ovf = (s.eng pe).ovf ∧ ∃ w : List Word, (t.eng pe).faultCh = (s.eng pe).faultCh ++
        [{ msg := { dst := 0, stamp := s.time.number, words := w }, read := 0 }] ∧ w.length = 8 ∧
      (w.getD 0 0).toNat = 1 + 256 * cause + 65536 * st.toNat + 16777216 * k ∧ w.getD 1 0 = BitVec.ofNat 32 it.tick ∧ w.getD 2 0 = th.pc ∧ w.getD 3 0 = addr ∧
      w.getD 4 0 = opWord it.op ∧ (w.getD 5 0).toNat = it.inst.toNat + 65536 * it.gen.toNat ∧
      (w.getD 6 0).toNat = it.program.toNat + 65536 * (it.entry % 256) + 16777216 * (it.arrivals.length % 256) ∧
      (w.getD 7 0).toNat = min th.charged 65535) ∧
    (t.eng pe).store = (s.eng pe).store ∧ (t.eng pe).bankA = (s.eng pe).bankA ∧ (t.eng pe).bankB = (s.eng pe).bankB ∧ (∀ pe', pe' ≠ pe → t.eng pe' = s.eng pe')
end

