-- ==== Sys2Proof/Laws/Maps.lean ====
section
/-!
SUPPORT. Laws of sparse maps and memories: read after write, writes elsewhere, and that every operation keeps the canonical form.
-/

namespace Sys2Proof

set_option Elab.async false

variable {α : Type}

/-- An unlisted map reads as the default. -/
@[simp] theorem FMap.get_nil (d : α) (k : Nat) : FMap.get d [] k = d := rfl

/-- A value other than the default is read back. -/
theorem FMap.get_set_of_ne [DecidableEq α] (d : α) (m : FMap α) (k : Nat) (v : α) (hv : v ≠ d) : FMap.get d (FMap.set d m k v) k = v := by
  induction m with
  | nil => simp [FMap.set, hv, FMap.get]
  | cons e m ih =>
    obtain ⟨k', v'⟩ := e
    simp only [FMap.set, hv, if_false]
    split
    · simp [FMap.get]
    · split
      · simp [FMap.get]
      · rename_i h
        simp [FMap.get, h, ih]

/-- A write at one key leaves every other key. -/
@[simp] theorem FMap.get_set_other [DecidableEq α] (d : α) (m : FMap α) (k j : Nat) (v : α) (h : j ≠ k) :
    FMap.get d (FMap.set d m k v) j = FMap.get d m j := by
  induction m with
  | nil =>
    by_cases hv : v = d
    · simp [FMap.set, hv]
    · simp [FMap.set, hv, FMap.get, h]
  | cons e m ih =>
    obtain ⟨k', v'⟩ := e
    simp only [FMap.set]
    split
    · split
      · rfl
      · simp [FMap.get, h]
    · split
      · rename_i hk
        subst hk
        split <;> simp [FMap.get, h]
      · simp [FMap.get, ih]

/-- Keys below the bound of a sorted map read as the default. -/
theorem FMap.get_of_sortedFrom (d : α) (m : FMap α) (lo k : Nat) (h : FMap.sortedFrom lo m = true) (hk : k < lo) : FMap.get d m k = d := by
  induction m generalizing lo with
  | nil => rfl
  | cons e m ih =>
    obtain ⟨k', v'⟩ := e
    simp only [FMap.sortedFrom, Bool.and_eq_true, decide_eq_true_eq] at h
    have : k ≠ k' := by omega
    simp only [FMap.get, this, if_false]
    exact ih (k' + 1) h.2 (by omega)

/-- In a sorted map every value is read back, the default too. -/
theorem FMap.get_set_sorted [DecidableEq α] (d : α) (m : FMap α) (lo k : Nat) (v : α) (h : FMap.sortedFrom lo m = true) :
    FMap.get d (FMap.set d m k v) k = v := by
  by_cases hv : v = d
  · subst hv
    induction m generalizing lo with
    | nil => simp [FMap.set]
    | cons e m ih =>
      obtain ⟨k', v'⟩ := e
      simp only [FMap.sortedFrom, Bool.and_eq_true, decide_eq_true_eq] at h
      simp only [FMap.set, if_true]
      split
      · rename_i hlt
        have hne : k ≠ k' := by omega
        simp only [FMap.get, hne, if_false]
        exact FMap.get_of_sortedFrom v m (k' + 1) k h.2 (by omega)
      · split
        · rename_i _ hk
          exact FMap.get_of_sortedFrom v m (k' + 1) k h.2 (by omega)
        · rename_i _ hk
          simp only [FMap.get, hk, if_false]
          exact ih (k' + 1) h.2
  · exact FMap.get_set_of_ne d m k v hv

/-- A sorted map is sorted from any lower bound. -/
theorem FMap.sortedFrom_mono (m : FMap α) (lo lo' : Nat) (hl : lo' ≤ lo) (h : FMap.sortedFrom lo m = true) : FMap.sortedFrom lo' m = true := by
  cases m with
  | nil => rfl
  | cons e m =>
    obtain ⟨k', v'⟩ := e
    simp only [FMap.sortedFrom, Bool.and_eq_true, decide_eq_true_eq] at h ⊢
    exact ⟨by omega, h.2⟩

/-- A write keeps a map sorted. -/
theorem FMap.sortedFrom_set [DecidableEq α] (d : α) (m : FMap α) (lo k : Nat) (v : α) (hk : lo ≤ k) (h : FMap.sortedFrom lo m = true) :
    FMap.sortedFrom lo (FMap.set d m k v) = true := by
  induction m generalizing lo with
  | nil =>
    by_cases hv : v = d
    · simp [FMap.set, hv, FMap.sortedFrom]
    · simp [FMap.set, hv, FMap.sortedFrom, hk]
  | cons e m ih =>
    obtain ⟨k', v'⟩ := e
    have hs := h
    simp only [FMap.sortedFrom, Bool.and_eq_true, decide_eq_true_eq] at h
    simp only [FMap.set]
    split
    · rename_i hlt
      split
      · exact hs
      · simp only [FMap.sortedFrom, Bool.and_eq_true, decide_eq_true_eq]
        exact ⟨hk, by omega, h.2⟩
    · split
      · rename_i _ heq
        split
        · exact FMap.sortedFrom_mono m (k' + 1) lo (by omega) h.2
        · simp only [FMap.sortedFrom, Bool.and_eq_true, decide_eq_true_eq]
          exact ⟨hk, heq ▸ h.2⟩
      · simp only [FMap.sortedFrom, Bool.and_eq_true, decide_eq_true_eq]
        exact ⟨h.1, ih (k' + 1) (by omega) h.2⟩

/-- A write keeps out entries that equal the default. -/
theorem FMap.all_set [DecidableEq α] (d : α) (m : FMap α) (k : Nat) (v : α) (h : m.all (fun e => decide (e.2 ≠ d)) = true) :
    (FMap.set d m k v).all (fun e => decide (e.2 ≠ d)) = true := by
  induction m with
  | nil =>
    by_cases hv : v = d
    · simp [FMap.set, hv]
    · simp [FMap.set, hv]
  | cons e m ih =>
    obtain ⟨k', v'⟩ := e
    simp only [List.all_cons, Bool.and_eq_true] at h
    simp only [FMap.set]
    split
    · split
      · simp only [List.all_cons, Bool.and_eq_true]; exact h
      · rename_i hv
        simp only [List.all_cons, Bool.and_eq_true]
        exact ⟨by simpa using hv, h⟩
    · split
      · split
        · exact h.2
        · rename_i hv
          simp only [List.all_cons, Bool.and_eq_true]
          exact ⟨by simpa using hv, h.2⟩
      · simp only [List.all_cons, Bool.and_eq_true]
        exact ⟨h.1, ih h.2⟩

/-- A write keeps the canonical form. -/
@[simp] theorem FMap.wf_set [DecidableEq α] (d : α) (m : FMap α) (k : Nat) (v : α) (h : FMap.wf d m = true) : FMap.wf d (FMap.set d m k v) = true := by
  simp only [FMap.wf, Bool.and_eq_true] at h ⊢
  exact ⟨FMap.sortedFrom_set d m 0 k v (Nat.zero_le k) h.1, FMap.all_set d m k v h.2⟩

/-- The empty map is in canonical form. -/
@[simp] theorem FMap.wf_nil [DecidableEq α] (d : α) : FMap.wf d ([] : FMap α) = true := rfl

/-- In canonical form every value is read back. -/
theorem FMap.get_set_wf [DecidableEq α] (d : α) (m : FMap α) (k : Nat) (v : α) (h : FMap.wf d m = true) : FMap.get d (FMap.set d m k v) k = v := by
  simp only [FMap.wf, Bool.and_eq_true] at h
  exact FMap.get_set_sorted d m 0 k v h.1

/-- What a map that drops entries keeps sorted. -/
theorem FMap.sortedFrom_filter (m : FMap α) (p : Nat × α → Bool) (lo : Nat) (h : FMap.sortedFrom lo m = true) : FMap.sortedFrom lo (m.filter p) = true := by
  induction m generalizing lo with
  | nil => rfl
  | cons e m ih =>
    obtain ⟨k', v'⟩ := e
    simp only [FMap.sortedFrom, Bool.and_eq_true, decide_eq_true_eq] at h
    by_cases hp : p (k', v') = true
    · simp only [List.filter_cons, hp, if_true, FMap.sortedFrom, Bool.and_eq_true, decide_eq_true_eq]
      exact ⟨h.1, ih (k' + 1) h.2⟩
    · simp only [List.filter_cons, hp]
      exact FMap.sortedFrom_mono _ (k' + 1) lo (by omega) (ih (k' + 1) h.2)

/-- Dropping entries keeps the canonical form. -/
theorem FMap.wf_filter [DecidableEq α] (d : α) (m : FMap α) (p : Nat × α → Bool) (h : FMap.wf d m = true) : FMap.wf d (m.filter p) = true := by
  simp only [FMap.wf, Bool.and_eq_true] at h ⊢
  refine ⟨FMap.sortedFrom_filter m p 0 h.1, ?_⟩
  rw [List.all_eq_true] at h ⊢
  intro e he
  exact h.2 e (List.mem_of_mem_filter he)

end Sys2Proof

namespace Sys2Proof.Machine

set_option Elab.async false

/-- A byte that was written is read back. -/
theorem Mem.rd_wr (m : Mem) (a : Nat) (b : Byte) (h : FMap.wf 0 m = true) : Mem.rd (Mem.wr m a b) a = b := FMap.get_set_wf 0 m a b h

/-- A byte elsewhere is as before. -/
theorem Mem.rd_wr_other (m : Mem) (a x : Nat) (b : Byte) (h : x ≠ a) : Mem.rd (Mem.wr m a b) x = Mem.rd m x := FMap.get_set_other 0 m a x b h

/-- A write keeps the canonical form. -/
theorem Mem.wf_wr (m : Mem) (a : Nat) (b : Byte) (h : FMap.wf 0 m = true) : FMap.wf 0 (Mem.wr m a b) = true := FMap.wf_set 0 m a b h

/-- A write of bytes keeps the canonical form. -/
@[simp] theorem Mem.wf_wrN (m : Mem) (a : Nat) (bs : List Byte) (h : FMap.wf 0 m = true) : FMap.wf 0 (Mem.wrN m a bs) = true := by
  induction bs generalizing m a with
  | nil => exact h
  | cons b bs ih => exact ih _ _ (Mem.wf_wr m a b h)

/-- Bytes outside those written are as before. -/
theorem Mem.rd_wrN_other (m : Mem) (a x : Nat) (bs : List Byte) (h : x < a ∨ a + bs.length ≤ x) : Mem.rd (Mem.wrN m a bs) x = Mem.rd m x := by
  induction bs generalizing m a with
  | nil => rfl
  | cons b bs ih =>
    simp only [List.length_cons] at h
    rw [Mem.wrN, ih _ _ (by omega), Mem.rd_wr_other m a x b (by omega)]

/-- Byte `i` of those written is read back. -/
theorem Mem.rd_wrN (m : Mem) (a i : Nat) (bs : List Byte) (hi : i < bs.length) (h : FMap.wf 0 m = true) : Mem.rd (Mem.wrN m a bs) (a + i) = bs[i] := by
  induction bs generalizing m a i with
  | nil => simp at hi
  | cons b bs ih =>
    cases i with
    | zero => simp only [Mem.wrN, Nat.add_zero, List.getElem_cons_zero]; rw [Mem.rd_wrN_other _ _ _ _ (by omega)]; exact Mem.rd_wr m a b h
    | succ i =>
      have := ih (Mem.wr m a b) (a + 1) i (by simpa using hi) (Mem.wf_wr m a b h)
      simp only [Mem.wrN, List.getElem_cons_succ]
      rw [← this]; congr 1; omega

/-- The bytes written are read back. -/
theorem Mem.rdN_wrN (m : Mem) (a : Nat) (bs : List Byte) (h : FMap.wf 0 m = true) : Mem.rdN (Mem.wrN m a bs) a bs.length = bs := by
  induction bs generalizing m a with
  | nil => rfl
  | cons b bs ih =>
    simp only [List.length_cons, Mem.rdN, Mem.wrN]
    rw [ih _ _ (Mem.wf_wr m a b h), Mem.rd_wrN_other _ _ _ _ (by omega), Mem.rd_wr m a b h]

/-- Bytes read outside those written are as before. -/
theorem Mem.rdN_wrN_other (m : Mem) (a x n : Nat) (bs : List Byte) (h : x + n ≤ a ∨ a + bs.length ≤ x) : Mem.rdN (Mem.wrN m a bs) x n = Mem.rdN m x n := by
  induction n generalizing x with
  | zero => rfl
  | succ n ih => simp only [Mem.rdN]; rw [Mem.rd_wrN_other _ _ _ _ (by omega), ih _ (by omega)]

/-- A list changed at a place has its old length. -/
@[simp] theorem length_modifyAt {α : Type} (l : List α) (i : Nat) (f : α → α) : (modifyAt l i f).length = l.length := by
  induction l generalizing i with
  | nil => cases i <;> rfl
  | cons x xs ih => cases i <;> simp [modifyAt, ih]

/-- The changed element. -/
theorem getD_modifyAt {α : Type} (l : List α) (i : Nat) (f : α → α) (d : α) (h : i < l.length) : (modifyAt l i f).getD i d = f (l.getD i d) := by
  induction l generalizing i with
  | nil => simp at h
  | cons x xs ih =>
    cases i with
    | zero => simp [modifyAt]
    | succ i => simpa [modifyAt] using ih i (by simpa using h)

/-- The other elements. -/
theorem getD_modifyAt_other {α : Type} (l : List α) (i j : Nat) (f : α → α) (d : α) (h : j ≠ i) : (modifyAt l i f).getD j d = l.getD j d := by
  induction l generalizing i j with
  | nil => cases i <;> rfl
  | cons x xs ih =>
    cases i with
    | zero => cases j with
      | zero => exact absurd rfl h
      | succ j => simp [modifyAt]
    | succ i => cases j with
      | zero => simp [modifyAt]
      | succ j => simpa [modifyAt] using ih i j (by omega)

/-- `n` bytes of a number are `n` bytes. -/
@[simp] theorem length_leBytes (n v : Nat) : (leBytes n v).length = n := by
  induction n generalizing v with
  | zero => rfl
  | succ n ih => simp [leBytes, ih]

/-- The number that its own bytes hold. -/
theorem ofLe_leBytes (n v : Nat) (h : v < 256 ^ n) : ofLe (leBytes n v) = v := by
  induction n generalizing v with
  | zero => simp at h; simp [leBytes, ofLe, h]
  | succ n ih =>
    simp only [leBytes, ofLe, BitVec.toNat_ofNat]
    rw [ih (v / 256) (by rw [Nat.div_lt_iff_lt_mul (by decide)]; rwa [Nat.pow_succ] at h)]
    have : (2 : Nat) ^ 8 = 256 := by decide
    rw [this]
    omega

end Sys2Proof.Machine
end

