-- ==== Sys2Proof/Laws/Commands.lean ====
section
/-!
SUPPORT. What the shared operations behind the firmware's commands, the units' rows, the transport and the monitor do, said once each.
-/

namespace Sys2Proof.Machine

open Sys2Proof

set_option Elab.async false

/-- A device state that serves a group (R13) passes the firmware's check of step 3. -/
theorem serves_iff {st g : Nat} {f : Bool} (h : Serves st g f) : servesGroup st g f = true := by
  unfold Serves at h
  unfold servesGroup
  rcases h with h | h | ⟨h, h1⟩ | ⟨h, h1⟩ | ⟨h, h1⟩ <;> rw [h] <;> simp_all <;> omega

/-- What a taken command of the firmware runs on (R229, steps 1 to 3). -/
theorem taken_run {s : State} {h : MbHdr} {r : CmdRow} {ptr len : Nat} {run : State → Nat → Nat → State} (H : s.Taken h r ptr len) :
    s.takenCmd h r run = run (s.read h r ptr) ptr len := by
  obtain ⟨h1, h0, h2, h3, h4, h5, h6, h7, h8, ho, h9⟩ := H
  unfold State.takenCmd
  simp only []
  rw [h1]; dsimp only
  have eo : h.opcode.any (fun o => !implemented o) = false := by
    cases e : h.opcode with
    | none => rfl
    | some o => simp [ho o e]
  have e1 : ((s.consume h.hm.val ptr r.opcode).boot.recoveryPers || (s.consume h.hm.val ptr r.opcode).boot.window || h.v2 && !r.hivia ||
      h.opcode.any (fun o => !implemented o)) = false := by
    show (s.boot.recoveryPers || s.boot.window || h.v2 && !r.hivia || h.opcode.any (fun o => !implemented o)) = false
    rw [h6, h7, eo]; rcases h8 with h8 | h8 <;> simp [h8]
  rw [if_neg (by simp [h0]), if_neg (by simp [h2]), if_neg (by omega), if_neg (by omega), e1, serves_iff h9]
  rfl

/-- A command whose checks all hold is not ended by them (R229, steps 4 to 7). -/
theorem judge_none {s p : State} {len : Nat} {j : Judge} (h1 : 64 + j.need ≤ len) (h2 : j.bad = none) (h3 : j.missing p = none) (h4 : s.holding j.objs = none) (h5 : j.pre p = none) :
    s.judgeCmd p len j = none := by
  unfold State.judgeCmd; rw [if_neg (by omega), h2, h3, h4, h5]

/-- No command holds an empty set of objects. -/
theorem holding_nil (s : State) : s.holding [] = none := by
  unfold State.holding
  have : (List.find? (fun (r : Running) => r.objs.any (fun o => ([] : List (Nat × Nat)).contains o)) s.mbadel.running) = none := by simp
  rw [this]; dsimp only; split <;> simp

/-- What a class Q command does when its checks hold (R230). -/
theorem now_run {s : State} {h : MbHdr} {r : CmdRow} {ptr len : Nat} {j : Judge} {act : State → State × CmdEnd × List Byte} (H : s.Acts h r ptr len j.need)
    (h2 : j.bad = none) (h3 : j.missing s = none) (h4 : s.holding j.objs = none) (h5 : j.pre s = none) (hm : j.missing (s.read h r ptr) = j.missing s) (hp : j.pre (s.read h r ptr) = j.pre s) :
    s.runNow h r j act = (act (s.read h r ptr)).1.writeResult h.hm.val ptr len h.v2 (act (s.read h r ptr)).2.1 (act (s.read h r ptr)).2.2 (act (s.read h r ptr)).2.2.length := by
  obtain ⟨H1, H2, H3⟩ := H
  unfold State.runNow; rw [taken_run H1]; dsimp only
  rw [judge_none (s := s.read h r ptr) H3 h2 (by rw [hm, h3]) h4 (by rw [hp, h5])]; dsimp only
  rw [H2]; rfl

/-- What a query does when its checks hold. -/
theorem query_run {s : State} {h : MbHdr} {r : CmdRow} {ptr len : Nat} {j : Judge} {res : State → List Byte} (H : s.Acts h r ptr len j.need)
    (h2 : j.bad = none) (h3 : j.missing s = none) (h4 : s.holding j.objs = none) (h5 : j.pre s = none) (hm : j.missing (s.read h r ptr) = j.missing s) (hp : j.pre (s.read h r ptr) = j.pre s) :
    s.runQuery h r j res = (s.read h r ptr).finish h ptr len (res (s.read h r ptr)) := now_run H h2 h3 h4 h5 hm hp

/-- What a class Q command without a result does when its checks hold. -/
theorem do_run {s : State} {h : MbHdr} {r : CmdRow} {ptr len : Nat} {j : Judge} {act : State → State} (H : s.Acts h r ptr len j.need)
    (h2 : j.bad = none) (h3 : j.missing s = none) (h4 : s.holding j.objs = none) (h5 : j.pre s = none) (hm : j.missing (s.read h r ptr) = j.missing s) (hp : j.pre (s.read h r ptr) = j.pre s) :
    s.runDo h r j act = (act (s.read h r ptr)).finish h ptr len [] := now_run H h2 h3 h4 h5 hm hp

/-- A class W command whose checks hold starts, and holds its objects (R230, R231). -/
theorem long_run {s : State} {h : MbHdr} {r : CmdRow} {ptr len : Nat} {j : Judge} {c : Instr} {waits : Bool} {start : State → State} (H : s.Acts h r ptr len j.need)
    (h2 : j.bad = none) (h3 : j.missing s = none) (h4 : s.holding j.objs = none) (h5 : j.pre s = none) (hm : j.missing (s.read h r ptr) = j.missing s) (hp : j.pre (s.read h r ptr) = j.pre s) :
    s.runLong h r j c waits start = start { s.read h r ptr with mbadel := { (s.read h r ptr).mbadel with running := (s.read h r ptr).mbadel.running ++ [{ cmd := c, hm := h.hm.val, ptr := ptr, len := len, v2 := h.v2, opcode := r.opcode, objs := j.objs, start := (s.read h r ptr).cmdTick, stage := 1 }] } } := by
  obtain ⟨H1, H2, H3⟩ := H
  unfold State.runLong; rw [taken_run H1]; dsimp only
  have h4' : (s.read h r ptr).holding j.objs = none := h4
  have hb : (waits && ((s.read h r ptr).holding j.objs).isSome) = false := by rw [h4']; cases waits <;> rfl
  rw [hb, if_neg (by decide), judge_none (s := s.read h r ptr) H3 h2 (by rw [hm, h3]) h4' (by rw [hp, h5])]
  dsimp only; rw [H2]; rfl

/-- A failed precondition that does not fail. -/
theorem fail_false {v : CmdEnd} {b : Bool} (h : b = false) : failIf b v = none := by rw [h]; rfl

/-- A class T command whose checks hold on the projected state is armed (R230). -/
theorem turn_run {s p : State} {h : MbHdr} {r : CmdRow} {ptr len tick : Nat} {j : Judge} {c : Instr} (H : s.Acts h r ptr len j.need)
    (h2 : j.bad = none) (h3 : j.missing p = none) (h4 : s.holding j.objs = none) (h5 : j.pre p = none) :
    s.runTurn p h r j c tick = { s.read h r ptr with mbadel := { (s.read h r ptr).mbadel with armed := (s.read h r ptr).mbadel.armed ++ [{ cmd := c, hm := h.hm.val, ptr := ptr, len := len, v2 := h.v2, opcode := r.opcode, ready := (s.read h r ptr).readyTick (len - 64), due := (s.read h r ptr).dueTick tick }] } } := by
  obtain ⟨H1, H2, H3⟩ := H
  unfold State.runTurn; rw [taken_run H1]; dsimp only
  rw [judge_none (s := s.read h r ptr) H3 h2 h3 h4 h5]; dsimp only; rw [H2]; rfl

/-- An armed command whose checks still hold at its turn takes effect there (R231). -/
theorem armed_apply {v : State} {start : Nat} {a : Armed} {c : Instr} (hc : a.cmd = c) (h3 : (v.judgeT c).missing v = none) (h5 : (v.judgeT c).pre v = none) :
    v.applyArmed start a = (applyT start c v).1.endArmed a vOk (applyT start c v).2 := by
  subst hc; unfold State.applyArmed Judge.late; rw [h3]; dsimp only; rw [h5]

/-- A unit that finds no request it can serve. -/
theorem takeFirst_none {f : PostReq → Bool} {l : List PostReq} (h : ∀ r ∈ l, f r = false) : takeFirst f l = none := by
  induction l with
  | nil => rfl
  | cons a l ih => simp [takeFirst, h a (by simp), ih (fun r hr => h r (by simp [hr]))]

/-- A unit takes the oldest request that it can serve. -/
theorem takeFirst_some {f : PostReq → Bool} {a l : List PostReq} {r : PostReq} (h : ∀ x ∈ a, f x = false) (hr : f r = true) : takeFirst f (a ++ r :: l) = some (r, a ++ l) := by
  induction a with
  | nil => simp [takeFirst, hr]
  | cons b a ih => simp [takeFirst, h b (by simp), ih (fun x hx => h x (by simp [hx]))]

/-- With no request to serve, a unit does nothing. -/
theorem serve_none {s : State} {f : PostReq → Bool} {act : PostReq → State → State} (h : ∀ r ∈ s.erg.posted, f r = false) : s.serve f act = s := by
  unfold State.serve; rw [takeFirst_none h]

/-- An NVMe command that cannot be fetched. -/
theorem nvFetch_none {s : State} {k : NvCmd} {t : Bool} {run : State → Option Nat → State} (h : s.nvFetchable k.ctl k.sqid = none) : s.nvFetch k t run = s := by
  unfold State.nvFetch; rw [h]

/-- A packet that passes steps 1 to 4 of R332. -/
theorem admit_body {s : State} {m : Miss} {p : RdmaPkt} {ok : Nat → Bool} {body : Ctx → State → State} {c : Ctx} (h1 : p.icrcBad = false) (h1' : p.ctxBad = false) (h2 : s.ctx p.qpn = some c) (h3 : c.cached = true)
    (h4 : ok c.state = true) (h5 : p.inst.toNat = c.inst) (h6 : s.staleGen p.inst p.gen = false) : s.acceptPkt m p ok body = body c ((s.endPkt p).touchCtx p.qpn) := by
  unfold State.acceptPkt; dsimp only; rw [if_neg (by simp [h1]), h2]; dsimp only; rw [if_neg (by simp [h3]), if_neg (by simp [h1']), if_neg (by simp [h4]), if_neg (by simp [h5, h6])]

/-- Which of the two monitors serves a kind of command (R486, R489). -/
theorem mon_serves (s : State) (k : MonKind) : s.monServes k = true ↔ (k = .look ∨ k = .engine → s.monitor.criek = true) := by
  unfold State.monServes
  cases k <;> simp

end Sys2Proof.Machine
end

