-- ==== Sys2Proof/Laws/Engine.lean ====
section
/-!
SUPPORT. Laws of the engines' shared operations: reading back an engine or context that was replaced, what an issue does, and what a retired
instruction leaves unchanged.
-/

namespace Sys2Proof.Machine

set_option Elab.async false

variable {s t : State}

/-- An engine that was replaced, when it differs from an engine at reset. -/
theorem eng_setEng (s : State) (pe : Nat) (e : Engine) (h : e ≠ Engine.reset) : (s.setEng pe e).eng pe = e :=
  FMap.get_set_of_ne _ _ _ _ h

/-- Another engine. -/
theorem eng_setEng_other (s : State) (pe pe' : Nat) (e : Engine) (h : pe' ≠ pe) : (s.setEng pe e).eng pe' = s.eng pe' :=
  FMap.get_set_other _ _ _ _ _ h

/-- A context that was replaced, when it differs from a free one. -/
theorem thr_setThr (e : Engine) (k : Nat) (t : Thread) (h : t ≠ Thread.reset) : (e.setThr k t).thr k = t :=
  FMap.get_set_of_ne _ _ _ _ h

/-- Another context. -/
theorem thr_setThr_other (e : Engine) (k k' : Nat) (t : Thread) (h : k' ≠ k) : (e.setThr k t).thr k' = e.thr k' :=
  FMap.get_set_other _ _ _ _ _ h

/-- Replacing an engine changes nothing but the engines. -/
theorem setEng_same (s : State) (pe : Nat) (e : Engine) : s.SameButEngines (s.setEng pe e) := rfl

/-- Differing in the engines alone is transitive. -/
theorem SameButEngines.trans {a b c : State} (h : a.SameButEngines b) (h' : b.SameButEngines c) : a.SameButEngines c := by
  unfold State.SameButEngines at *
  rw [h', h]

/-- An engine that has counted an issue cycle is not one at reset. -/
theorem engine_ne_reset (e : Engine) (h : e.cyc ≠ 0) : e ≠ Engine.reset := fun he => h (by rw [he]; rfl)

/-- A context that has been charged is not a free one. -/
theorem thread_ne_reset (t : Thread) (h : t.charged ≠ 0 ∨ t.instret ≠ 0 ∨ t.st ≠ .free) : t ≠ Thread.reset := by
  intro ht
  subst ht
  rcases h with h | h | h <;> exact h rfl

/-- The engine after an issue cycle. -/
theorem eng_takeCycle (s : State) (pe k c lend : Nat) :
    (s.takeCycle pe k c lend).eng pe = { s.eng pe with cyc := c + 1, lend := lend }.setThr k ((s.thr pe k).charge c) := by
  unfold State.takeCycle
  exact eng_setEng _ _ _ (engine_ne_reset _ (Nat.succ_ne_zero c))

/-- The context after its issue cycle. -/
theorem thr_takeCycle (s : State) (pe k c lend : Nat) : (s.takeCycle pe k c lend).thr pe k = (s.thr pe k).charge c := by
  unfold State.thr
  rw [eng_takeCycle]
  exact thr_setThr _ _ _ (thread_ne_reset _ (Or.inl (Nat.succ_ne_zero _)))

/-- The other contexts of the engine. -/
theorem thr_takeCycle_other (s : State) (pe k k' c lend : Nat) (h : k' ≠ k) : (s.takeCycle pe k c lend).thr pe k' = s.thr pe k' := by
  unfold State.thr
  rw [eng_takeCycle]
  exact thr_setThr_other _ _ _ _ h

/-- The other engines. -/
theorem eng_takeCycle_other (s : State) (pe pe' k c lend : Nat) (h : pe' ≠ pe) : (s.takeCycle pe k c lend).eng pe' = s.eng pe' :=
  eng_setEng_other _ _ _ _ h

/-- The cycle changes nothing but the engines. -/
theorem takeCycle_same (s : State) (pe k c lend : Nat) : s.SameButEngines (s.takeCycle pe k c lend) := rfl

/-- An instruction that issues runs its body at its issue cycle. -/
theorem issue_eq {i : Issue} {c lend : Nat} (h : s.Issues i c lend) (body : State → Nat → Nat → Nat → State) :
    s.issue i body = body (s.takeCycle i.eng.val i.thr.val c lend) i.eng.val i.thr.val c := by
  obtain ⟨h1, h2, h3, h4, h5, h6⟩ := h
  unfold State.issue
  simp only [h1]
  have hpc : ((s.takeCycle i.eng.val i.thr.val c lend).thr i.eng.val i.thr.val).pc = (s.thr i.eng.val i.thr.val).pc := by
    rw [thr_takeCycle]; rfl
  have hst : (s.thr i.eng.val i.thr.val).stepping = false := h6
  simp only [hst, Bool.false_eq_true, if_false]
  unfold State.fetched
  simp only [hpc]
  rw [if_neg (by omega), if_neg (by omega), if_neg, if_neg]
  · simp [h5]
  · rcases h4 with h4 | h4
    · simp [h4]
    · simp [h4]

/-- What an instruction that only retires its context leaves: the context alone differs. -/
theorem retire_only (s : State) (i : Issue) (c lend lat : Nat) (pc : Word) (f : Thread → Thread) :
    s.OnlyContext ((s.takeCycle i.eng.val i.thr.val c lend).retire i c lat pc f) i.eng.val i.thr.val
      { f ((s.running i).charge c) with instret := (s.running i).instret + 1, pc := pc, ready := c + lat } := by
  have hth : (s.takeCycle i.eng.val i.thr.val c lend).thr i.eng.val i.thr.val = (s.running i).charge c := thr_takeCycle _ _ _ _ _
  have hcyc : ((s.takeCycle i.eng.val i.thr.val c lend).eng i.eng.val).cyc = c + 1 := by rw [eng_takeCycle]; rfl
  refine ⟨rfl, ?_, ?_, ?_, ?_⟩
  · intro pe' hpe
    unfold State.retire State.modThr
    rw [eng_setEng_other _ _ _ _ hpe, eng_takeCycle_other _ _ _ _ _ _ hpe]
  · intro k' hk
    unfold State.retire State.modThr State.thr
    rw [eng_setEng _ _ _ (engine_ne_reset _ (by unfold Engine.setThr; simp only; rw [hcyc]; exact Nat.succ_ne_zero c)), thr_setThr_other _ _ _ _ hk]
    exact thr_takeCycle_other s _ _ _ _ _ hk
  · unfold State.retire State.modThr State.thr
    rw [eng_setEng _ _ _ (engine_ne_reset _ (by unfold Engine.setThr; simp only; rw [hcyc]; exact Nat.succ_ne_zero c)),
      thr_setThr _ _ _ (thread_ne_reset _ (Or.inr (Or.inl (Nat.succ_ne_zero _))))]
    have : ((s.takeCycle i.eng.val i.thr.val c lend).eng i.eng.val).thr i.thr.val = (s.running i).charge c := hth
    rw [this]; rfl
  · unfold State.retire State.modThr
    rw [eng_setEng _ _ _ (engine_ne_reset _ (by unfold Engine.setThr; simp only; rw [hcyc]; exact Nat.succ_ne_zero c))]
    rw [eng_takeCycle]
    rfl

/-- An instruction that writes a register and goes on in sequence leaves its context alone changed: the register, and that it was retired. -/
theorem writeBack_only (s : State) (i : Issue) (c lend lat rd : Nat) (v : Word) :
    s.OnlyContext ((s.takeCycle i.eng.val i.thr.val c lend).writeBack i c lat rd v) i.eng.val i.thr.val (((s.running i).done i c lat).setReg rd v) := by
  have h := retire_only s i c lend lat ((s.takeCycle i.eng.val i.thr.val c lend).nextPc i) (fun t => t.setReg rd v)
  have hpc : (s.takeCycle i.eng.val i.thr.val c lend).nextPc i = (s.running i).pc + (if i.compressed then 2 else 4) := by
    unfold State.nextPc
    rw [thr_takeCycle]
    rfl
  rw [hpc] at h
  have e : ∀ x : Thread, ({ (x.charge c).setReg rd v with instret := x.instret + 1, pc := x.pc + (if i.compressed then 2 else 4), ready := c + lat } : Thread) = (x.done i c lat).setReg rd v := by
    intro x
    unfold Thread.setReg
    split <;> rfl
  rw [← e]
  unfold State.writeBack
  rw [hpc]
  exact h

/-- A register that was written; x0 stays as it is. -/
theorem reg_setReg (t : Thread) (r : Nat) (v : Word) (h : FMap.wf 0 t.regs = true) : (t.setReg r v).reg r = if r = 0 then 0 else v := by
  unfold Thread.setReg Thread.reg
  split
  · rfl
  · exact FMap.get_set_wf 0 t.regs r v h

/-- Every other register. -/
theorem reg_setReg_other (t : Thread) (r q : Nat) (v : Word) (h : q ≠ r) : (t.setReg r v).reg q = t.reg q := by
  unfold Thread.setReg
  split
  · rfl
  · unfold Thread.reg
    split
    · rfl
    · exact FMap.get_set_other 0 t.regs r q v h

/-- The arrival that a context's windows show is the same after an issue cycle. -/
theorem selected_take (s : State) (pe k c lend : Nat) : ((s.takeCycle pe k c lend).eng pe).selected k = (s.eng pe).selected k := by
  have hk : ((s.takeCycle pe k c lend).eng pe).thr k = (s.thr pe k).charge c := thr_takeCycle _ _ _ _ _
  have hi : ((s.takeCycle pe k c lend).eng pe).itemOf k = (s.eng pe).itemOf k := by
    unfold Engine.itemOf
    rw [hk]
    show (match (s.thr pe k).item with | some i => some i | none => (((s.takeCycle pe k c lend).eng pe).thr (s.thr pe k).root).item) = _
    by_cases hr : (s.thr pe k).root = k
    · rw [hr, hk]; unfold State.thr at hr ⊢; rw [hr]; rfl
    · have := thr_takeCycle_other s pe k (s.thr pe k).root c lend hr
      unfold State.thr at this ⊢; rw [this]; try (cases ((s.eng pe).thr k).item <;> rfl)
  have hc : ((s.takeCycle pe k c lend).eng pe).chosen k = (s.eng pe).chosen k := by
    unfold Engine.chosen; rw [hk, hi]; rfl
  have hf : ∀ h, ((s.takeCycle pe k c lend).eng pe).freedOwn k h = (s.eng pe).freedOwn k h := by
    intro h; unfold Engine.freedOwn; rw [hi, hk]; rfl
  unfold Engine.selected
  rw [hc]; simp only [hf]

/-- An access lies where it did. -/
theorem locate_take (s : State) (pe k c lend a n : Nat) : (s.takeCycle pe k c lend).locate pe k a n = s.locate pe k a n := by
  unfold State.locate
  dsimp only
  rw [selected_take]
  have : ((s.takeCycle pe k c lend).eng pe).dwin = (s.eng pe).dwin := by rw [eng_takeCycle]; rfl
  rw [this]; rfl

/-- The header vector is the same. -/
theorem hv_take (s : State) (pe k c lend) : ((s.takeCycle pe k c lend).eng pe).hv k = (s.eng pe).hv k := by
  unfold Engine.hv; rw [selected_take]

/-- A place reads as before. -/
theorem readPlace_take (s : State) (pe k c lend n : Nat) (p) : (s.takeCycle pe k c lend).readPlace pe k p n = s.readPlace pe k p n := by
  cases p <;> simp only [State.readPlace]
  · rw [eng_takeCycle]; rfl
  · rfl
  · rw [hv_take]
  · rfl
  · rfl

/-- What is checked is the same. -/
theorem checked_take (s : State) (pe k c lend : Nat) (p) : (s.takeCycle pe k c lend).checked pe p = s.checked pe p := by
  cases p <;> rfl

/-- The pc after the instruction in sequence. -/
theorem nextPc_take (s : State) (i : Issue) (c lend : Nat) : (s.takeCycle i.eng.val i.thr.val c lend).nextPc i = (s.running i).pc + (if i.compressed then 2 else 4) := by
  unfold State.nextPc; rw [thr_takeCycle]; rfl

/-- An instruction that writes an owed result leaves its context alone changed. -/
theorem owed_only (s : State) (i : Issue) (c lend lat rd : Nat) (v : Word) :
    s.OnlyContext ((s.takeCycle i.eng.val i.thr.val c lend).writeOwed i c lat rd v) i.eng.val i.thr.val ({((s.running i).done i c lat).setReg rd v with owed := true}) := by
  have h := retire_only s i c lend lat ((s.running i).pc + (if i.compressed then 2 else 4)) (fun t => { t.setReg rd v with owed := true })
  have e : ∀ x : Thread, ({ (fun t : Thread => { t.setReg rd v with owed := true }) (x.charge c) with instret := x.instret + 1, pc := x.pc + (if i.compressed then 2 else 4), ready := c + lat } : Thread) = { (x.done i c lat).setReg rd v with owed := true } := by
    intro x; unfold Thread.setReg; split <;> rfl
  rw [← e]; unfold State.writeOwed; rw [nextPc_take]; exact h

/-- A load's latency is the same. -/
theorem loadLat_take (s : State) (pe k c lend) (p) : (s.takeCycle pe k c lend).loadLat p = ((s.loadLat p).1, (s.loadLat p).2.takeCycle pe k c lend) := by
  cases p <;> simp only [State.loadLat] <;> try rfl
  split <;> rfl

/-- Asking for a latency changes no context. -/
theorem loadLat_running (s : State) (p) (i) : (s.loadLat p).2.running i = s.running i := by
  cases p <;> simp only [State.loadLat] <;> try rfl
  split <;> rfl

/-- An instruction that is retired and goes to a pc leaves its context alone changed. -/
theorem retire_goes (s : State) (i : Issue) (c lend lat : Nat) (pc : Word) (f : Thread → Thread) (hf : ∀ x : Thread, f (x.done i c lat) = { f (x.charge c) with instret := x.instret + 1, pc := x.pc + (if i.compressed then 2 else 4), ready := c + lat }) :
   s.OnlyContext ((s.takeCycle i.eng.val i.thr.val c lend).retire i c lat pc f) i.eng.val i.thr.val { f ((s.running i).done i c lat) with pc := pc } := by
  have h := retire_only s i c lend lat pc f
  rw [hf]
  exact h

/-- Retiring and writing a register, in either order. -/
theorem done_setReg (i : Issue) (c lat r v) : ∀ x : Thread, (x.done i c lat).setReg r v = ({ (x.charge c).setReg r v with instret := x.instret + 1, pc := x.pc + (if i.compressed then 2 else 4), ready := c + lat } : Thread) := by
  intro x; unfold Thread.setReg; split <;> rfl

/-- The cycle changes the issuing context alone. -/
theorem takeCycle_only (s : State) (pe k c lend : Nat) : s.OnlyContext (s.takeCycle pe k c lend) pe k ((s.thr pe k).charge c) := by
  refine ⟨rfl, fun pe' h => eng_takeCycle_other s _ _ _ _ _ h, fun k' h => thr_takeCycle_other s _ _ _ _ _ h, thr_takeCycle s pe k c lend, ?_⟩
  rw [eng_takeCycle]
  rfl

/-- The engine has counted a cycle. -/
theorem cyc_takeCycle (s : State) (pe k c lend : Nat) : ((s.takeCycle pe k c lend).eng pe).cyc ≠ 0 := by
  rw [eng_takeCycle]
  exact Nat.succ_ne_zero c

/-- A further change of the one context that differs. -/
theorem only_modThr {s t : State} {pe k : Nat} {th : Thread} (h : s.OnlyContext t pe k th) (f : Thread → Thread) (hc : (t.eng pe).cyc ≠ 0)
    (hf : f th ≠ Thread.reset) : s.OnlyContext (t.modThr pe k f) pe k (f th) ∧ ((t.modThr pe k f).eng pe).cyc ≠ 0 := by
  obtain ⟨h1, h2, h3, h4, h5⟩ := h
  have he : (t.modThr pe k f).eng pe = (t.eng pe).setThr k (f ((t.eng pe).thr k)) := by
    unfold State.modThr
    exact eng_setEng _ _ _ (engine_ne_reset _ hc)
  have ht : (t.eng pe).thr k = th := h4
  refine ⟨⟨SameButEngines.trans h1 rfl, fun pe' hp => ?_, fun k' hk => ?_, ?_, ?_⟩, by rw [he]; exact hc⟩
  · rw [← h2 pe' hp]
    exact eng_setEng_other _ _ _ _ hp
  · unfold State.thr
    rw [he, thr_setThr_other _ _ _ _ hk]
    exact h3 k' hk
  · unfold State.thr
    rw [he, ht, thr_setThr _ _ _ hf]
  · rw [he, ← h5]
    rfl

/-- The item that a context runs is the same after the cycle. -/
theorem itemOf_take (s : State) (pe k c lend : Nat) : ((s.takeCycle pe k c lend).eng pe).itemOf k = (s.eng pe).itemOf k := by
  have hk := thr_takeCycle s pe k c lend
  unfold State.thr at hk
  unfold Engine.itemOf
  rw [hk]
  show (match ((s.eng pe).thr k).item with | some i => some i | none => (((s.takeCycle pe k c lend).eng pe).thr ((s.eng pe).thr k).root).item) = _
  cases h : ((s.eng pe).thr k).item with
  | some _ => rfl
  | none =>
    dsimp only
    by_cases hr : ((s.eng pe).thr k).root = k
    · rw [hr, hk]
      rfl
    · have := thr_takeCycle_other s pe k _ c lend hr
      unfold State.thr at this
      rw [this]

/-- The context that lending names is READY. -/
theorem lendTo_ready {e : Engine} {c : Nat} : ∀ {n u t : Nat}, lendTo e c u n = some t → (e.thr t).readyAt c = true
  | 0, _, _, h => nomatch h
  | n + 1, u, t, h => by
    unfold lendTo at h
    split at h
    · rename_i g; cases h; simp only [Bool.and_eq_true] at g; exact g.1
    · exact lendTo_ready h

/-- The context that R63 names in a cycle is READY there. -/
theorem issuer_ready {e : Engine} {base c lend t l : Nat} (h : issuer e base c lend = (some t, l)) : (e.thr t).readyAt c = true := by
  unfold issuer at h
  dsimp only at h
  split at h
  · cases h; assumption
  · split at h
    · rename_i g; cases h; exact lendTo_ready g
    · cases h

/-- The next issue is of a context that is READY in its cycle. -/
theorem nextIssue_ready {e : Engine} {base : Nat} : ∀ {n c lend t c' l : Nat}, nextIssue e base n c lend = some (t, c', l) → (e.thr t).readyAt c' = true
  | 0, _, _, _, _, _, h => nomatch h
  | n + 1, c, lend, t, c', l, h => by
    unfold nextIssue at h
    split at h
    · rename_i g; cases h; exact issuer_ready g
    · exact nextIssue_ready h

/-- A context that issues is running and not held. -/
theorem issues_run {s : State} {i : Issue} {c lend : Nat} (h : s.Issues i c lend) : (s.thr i.eng.val i.thr.val).st = .run ∧ (s.thr i.eng.val i.thr.val).held = false := by
  have g := h.1
  unfold State.issueAt at g
  dsimp only at g
  split at g
  · cases g
  · split at g
    · rename_i t c' l' q
      split at g
      · rename_i w
        have := nextIssue_ready q
        rw [w.1] at this
        simp only [Thread.readyAt, Bool.and_eq_true, decide_eq_true_eq, Bool.not_eq_true'] at this
        exact ⟨this.1.1, this.1.2⟩
      · cases g
    · cases g

end Sys2Proof.Machine
end

