-- ==== Sys2Proof/Laws/Ends.lean ====
section
/-!
SUPPORT. What the end of an item leaves of the engines.
-/

namespace Sys2Proof.Machine

open Sys2Proof

set_option Elab.async false

/-- Pools hold no engine. -/
theorem modPool_erg (s : State) (c : Nat) (f : Pool → Pool) : (s.modPool c f).erg = s.erg := by
  unfold State.modPool
  split <;> rfl

/-- Returning a buffer leaves the engines. -/
theorem returnBuf_erg (s : State) (c i : Nat) : (s.returnBuf c i).erg = s.erg := by
  unfold State.returnBuf
  split
  · rfl
  · dsimp only
    rw [modPool_erg]
    unfold State.poolWrite
    split <;> rfl

/-- Owner names leave the engines. -/
theorem setOwners_erg (s : State) (h : Word) (o : List Half) : (s.setOwners h o).erg = s.erg := by
  unfold State.setOwners
  split
  · exact returnBuf_erg _ _ _
  · exact modPool_erg _ _ _

/-- Dropping a name in one pool leaves the engines. -/
theorem dropNameIn_erg (name : Half) (code : Nat) (s : State) (l : List Nat) : (dropNameIn name code s l).erg = s.erg := by
  induction l generalizing s with
  | nil => unfold dropNameIn; rfl
  | cons i l ih =>
    unfold dropNameIn
    split
    · rfl
    · dsimp only
      split
      · rw [ih, setOwners_erg]
      · exact ih _

/-- Dropping a name leaves the engines. -/
theorem dropName_erg (s : State) (name : Half) : (s.dropName name).erg = s.erg := by
  unfold State.dropName
  have : ∀ (l : List Nat) (u : State), (l.foldl (fun s c => match s.pool? c with | some p => dropNameIn name c s (FMap.keys p.entries) | none => s) u).erg = u.erg := by
    intro l; induction l with
    | nil => intro u; rfl
    | cons c l ih =>
      intro u
      refine (ih _).trans ?_
      dsimp only
      split
      · exact dropNameIn_erg _ _ _ _
      · rfl
  exact this _ s

/-- Dropping a name in some buffers leaves the engines. -/
theorem dropNameOn_erg (s : State) (name : Half) (hs : List Word) : (s.dropNameOn name hs).erg = s.erg := by
  unfold State.dropNameOn
  induction hs generalizing s with
  | nil => rfl
  | cons h hs ih =>
    refine (ih _).trans ?_
    dsimp only
    split
    · split
      · exact setOwners_erg _ _ _
      · rfl
    · rfl

/-- Dropping an ended item's name leaves the engines. -/
theorem dropOwn_erg (s : State) (k : Nat) (name : Half) (took : List Word) : (s.dropOwn k name took).erg = s.erg := by
  unfold State.dropOwn
  split
  · exact dropNameOn_erg _ _ _
  · exact dropName_erg _ _

/-- An item that fails leaves the engines. -/
theorem failItem_engines (s : State) (it : Item) (st : Byte) : (s.failItem it st).erg.engines = s.erg.engines := by
  unfold State.failItem State.dropPackets
  split
  · rfl
  · dsimp only; split <;> rfl

/-- Counting a control check leaves the engines. -/
theorem countCheck_engines (s : State) (y n : Nat) (st : Byte) : (s.countCheck y n st).erg.engines = s.erg.engines := by
  unfold State.countCheck; split <;> rfl

/-- Moving a context leaves the engines. -/
theorem moved_engines (s : State) (pe k : Nat) : (s.moved pe k).erg.engines = s.erg.engines := by
  unfold State.moved; split <;> rfl

/-- What an ending that the overrun policy does not cover leaves of the engines, for a worker without children (R62, R68). -/
theorem endOther_engines (s : State) (pe k : Nat) (st : Byte) (hk : k ≠ 0) (hc : (s.eng pe).kids k = []) (ho : overruns st = false) :
    (s.endOther pe k st false).erg.engines = (s.setEng pe ((s.eng pe).setThr k (((s.eng pe).thr k).freed st))).erg.engines := by
  have he : (s.eng pe).endKids k st = s.eng pe := by unfold Engine.endKids; rw [hc]; rfl
  unfold State.endOther
  simp only [Bool.false_eq_true, if_false]
  rw [he]
  generalize s.setEng pe ((s.eng pe).setThr k (((s.eng pe).thr k).freed st)) = u
  split
  · rw [moved_engines, countCheck_engines]
  · split
    · rw [dropOwn_erg, moved_engines, countCheck_engines]
    · rw [ho]; simp only [Bool.false_and, Bool.false_eq_true, if_false]
      rw [failItem_engines, dropName_erg, moved_engines, countCheck_engines]

/-- A context freed with a status differs from one at reset. -/
theorem freed_ne {t : Thread} {st : Byte} (h : st ≠ 0) : t.freed st ≠ Thread.reset := by
  intro q; have := congrArg Thread.kept q; exact h this

/-- An engine with a context that is not at reset is not at reset. -/
theorem engine_ne {e : Engine} {k : Nat} (h : e.thr k ≠ Thread.reset) : e ≠ Engine.reset := by
  intro q; exact h (by rw [q]; rfl)

end Sys2Proof.Machine
end

