-- ==== Sys2Proof/Laws/HostWrites.lean ====
section
/-!
SUPPORT. What writes of PF0, vectors and notices do to host memory and to the mailboxes.
-/

namespace Sys2Proof.Machine

open Sys2Proof

set_option Elab.async false

/-- A replaced function leaves host memory. -/
theorem setFn_host (s : State) (a : Nat) (f : Fn) : (s.setFn a f).hostMem = s.hostMem := rfl

/-- A pending bit leaves host memory. -/
theorem setPending_host (s : State) (a b : Nat) : (s.setPending a b).hostMem = s.hostMem := by unfold State.setPending; dsimp only; split <;> rfl

/-- A held request leaves host memory. -/
theorem hold_host (s : State) (a : Nat) (b : Held) : (s.hold a b).hostMem = s.hostMem := rfl

/-- A power management event leaves host memory. -/
theorem pme_host (s : State) (a : Nat) : (s.pme a).hostMem = s.hostMem := by
  unfold State.pme; dsimp only
  split
  · split
    · rfl
    · split <;> rfl
  · rfl

/-- Host memory after a vector of PF0 is requested while PF0's requests are issued at once (R190, R199). -/
theorem msix_host {u : State} {k : Nat} (hh : u.holds 0 = false) : (u.msix 0 k).hostMem =
    if u.msixMasked 0 k = false then Mem.wrN u.hostMem (Mem.rdLe (u.fn 0).msix (k * 16) 8) (leBytes 4 (Mem.rdLe (u.fn 0).msix (k * 16 + 8) 4)) else u.hostMem := by
  unfold State.msix
  cases m : u.msixMasked 0 k with
  | true => rw [if_pos rfl, if_neg (by simp), setPending_host]
  | false => rw [if_neg (by simp), hh, if_neg (by simp), if_pos rfl]; rfl

/-- The posting of a notice changes at most the time of a full reset (R233). -/
theorem noticeReset_dev (w : State) (k ptr : Nat) : ∃ d, w.noticeReset k ptr = { w with dev := d } := by
  unfold State.noticeReset; split
  · exact ⟨_, rfl⟩
  · exact ⟨w.dev, rfl⟩

/-- Host memory after a notice is posted while PF0's requests are issued at once (R217). -/
theorem postNotice_host {s : State} {k ptr len : Nat} (hh : s.holds 0 = false) : (s.postNotice k ptr len).hostMem =
    if (s.mb (mhNo k)).full = false ∧ s.msixMasked 0 k = false then Mem.wrN s.hostMem (Mem.rdLe (s.fn 0).msix (k * 16) 8) (leBytes 4 (Mem.rdLe (s.fn 0).msix (k * 16 + 8) 4)) else s.hostMem := by
  unfold State.postNotice
  dsimp only
  cases f : (s.mb (mhNo k)).full with
  | true => rw [if_pos (by simp), if_neg (by simp)]
  | false =>
    rw [if_neg (by simp), pme_host]
    obtain ⟨d, e⟩ := noticeReset_dev { s.setMb (mhNo k) ((s.mb (mhNo k)).post ptr len (s.stamp (if s.boot.mpRunning = true then srcMp s.repair.mpActive else srcSp))) with
      mbadel := { s.mbadel with posted := FMap.set none s.mbadel.posted k (some (ptr, len)) } } k ptr
    refine (congrArg (fun u : State => (u.msix 0 k).hostMem) e).trans ((msix_host (k := k) (by exact hh)).trans ?_)
    show (if s.msixMasked 0 k = false then Mem.wrN s.hostMem (Mem.rdLe (s.fn 0).msix (k * 16) 8) (leBytes 4 (Mem.rdLe (s.fn 0).msix (k * 16 + 8) 4)) else s.hostMem) = _
    cases s.msixMasked 0 k <;> simp

/-- A replaced function leaves the mailboxes and the firmware's state. -/
theorem setFn_boxes (s : State) (a : Nat) (f : Fn) : (s.setFn a f).boxes = s.boxes ∧ (s.setFn a f).mbadel = s.mbadel := ⟨rfl, rfl⟩

/-- A power management event leaves them. -/
theorem pme_boxes (s : State) (a : Nat) : (s.pme a).boxes = s.boxes ∧ (s.pme a).mbadel = s.mbadel := by
  unfold State.pme; dsimp only
  split
  · split
    · exact ⟨rfl, rfl⟩
    · split <;> exact ⟨rfl, rfl⟩
  · exact ⟨rfl, rfl⟩

/-- A pending bit leaves them. -/
theorem setPending_boxes (s : State) (a b : Nat) : (s.setPending a b).boxes = s.boxes ∧ (s.setPending a b).mbadel = s.mbadel := by
  unfold State.setPending; dsimp only; split <;> exact ⟨rfl, rfl⟩

/-- A requested vector leaves them. -/
theorem msix_boxes (s : State) (a b : Nat) : (s.msix a b).boxes = s.boxes ∧ (s.msix a b).mbadel = s.mbadel := by
  unfold State.msix
  split
  · exact setPending_boxes s a b
  · split
    · dsimp only
      have q : (((s.setPending a b).hold a (.msix b)).boxes = s.boxes) ∧ ((s.setPending a b).hold a (.msix b)).mbadel = s.mbadel := setPending_boxes s a b
      split
      · exact ⟨(pme_boxes _ _).1.trans q.1, (pme_boxes _ _).2.trans q.2⟩
      · exact q
    · exact ⟨rfl, rfl⟩

/-- A notice waits while its mailbox is FULL (R217). -/
theorem postNotice_full {s : State} {k ptr len : Nat} (f : (s.mb (mhNo k)).full = true) : s.postNotice k ptr len = { s with mbadel := { s.mbadel with notices := s.mbadel.notices ++ [(k, ptr, len)] } } := by
  unfold State.postNotice; dsimp only; rw [f, if_pos (by simp)]

/-- A posted notice fills its mailbox (R217). -/
theorem postNotice_mb {s : State} {k ptr len : Nat} (f : (s.mb (mhNo k)).full = false) : ((s.postNotice k ptr len).mb (mhNo k)) =
    (s.mb (mhNo k)).post ptr len (s.stamp (if s.boot.mpRunning then srcMp s.repair.mpActive else srcSp)) := by
  unfold State.postNotice; dsimp only; rw [f, if_neg (by simp)]
  unfold State.mb
  rw [(pme_boxes _ _).1, (msix_boxes _ _ _).1]
  have e : ∀ w : State, (w.noticeReset k ptr).boxes = w.boxes := fun w => by unfold State.noticeReset; split <;> rfl
  rw [e]
  show FMap.get Mailbox.reset (FMap.set _ _ _ _) _ = _
  exact FMap.get_set_of_ne _ _ _ _ (by intro q; have := congrArg Mailbox.full q; cases this)

/-- A write of PF0 that is issued: host memory holds the bytes, and its requests have left (R191). -/
def wrote (s : State) (a : Nat) (b : List Byte) : State :=
  { s with hostMem := Mem.wrN s.hostMem a b, pcie := { s.pcie with writes := s.pcie.writes ++ s.sentParts 0 a b false } }

/-- An issued write of PF0. -/
theorem issueWrite_zero (s : State) (a : Nat) (b : List Byte) : s.issueWrite 0 a b false = wrote s a b := rfl

/-- A write of PF0 while its requests are issued at once. -/
theorem hostWrite_zero {s : State} (a : Nat) (b : List Byte) (hh : s.holds 0 = false) : s.hostWrite 0 a b = wrote s a b := by
  unfold State.hostWrite State.anyWrite; rw [hh, if_neg (by simp), issueWrite_zero]

/-- A write does not decide whether PF0 holds its requests. -/
theorem holds_wrote (s : State) (a : Nat) (b : List Byte) : (wrote s a b).holds 0 = s.holds 0 := rfl

end Sys2Proof.Machine
end

