-- ==== Sys2Proof/Laws/Keeps.lean ====
section
/-!
SUPPORT. What no command undoes: `State.Keeps s t` says it of a state `s` and a later one `t`. The files KeepsOps to KeepsSteps hold one lemma
for each operation of the machine, `<operation>_keeps`.
-/

namespace Sys2Proof.Machine
open Sys2Proof

/-- What holds of a later state: the queue is the same, memories stay canonical and times legal, the lifecycle does not go back, no key comes back
and no key slot is written again. -/
structure State.Keeps (s t : State) : Prop where
  pending : t.pending = s.pending
  dram : FMap.wf 0 s.dram = true → FMap.wf 0 t.dram = true
  host : FMap.wf 0 s.hostMem = true → FMap.wf 0 t.hostMem = true
  time : s.LegalTime → t.LegalTime
  life : s.nv.lifecycle ≤ t.nv.lifecycle
  revoked : ∀ k ∈ s.nv.revoked, k ∈ t.nv.revoked
  keys : ∀ k h, FMap.get none s.nv.keys k = some h → FMap.get none t.nv.keys k = some h

/-- `State.Keeps` of the state that an option holds. -/
def State.KeepsSome (s : State) (o : Option State) : Prop := ∀ t, o = some t → s.Keeps t
/-- `State.Keeps` of the state that a sum may hold. -/
def State.KeepsLeft (s : State) {α : Type} (o : State ⊕ α) : Prop := ∀ t, o = .inl t → s.Keeps t
/-- `State.Keeps` of a command's answer. -/
def State.KeepsNext (s : State) (a : Answer) : Prop := ∀ t, a = .next t → s.Keeps t

theorem State.Keeps.refl (s : State) : s.Keeps s := ⟨rfl, id, id, id, Nat.le_refl _, fun _ h => h, fun _ _ h => h⟩
theorem State.Keeps.trans {s t u : State} (h : s.Keeps t) (g : t.Keeps u) : s.Keeps u :=
  ⟨g.1.trans h.1, g.2 ∘ h.2, g.3 ∘ h.3, g.4 ∘ h.4, Nat.le_trans h.5 g.5, fun k a => g.6 k (h.6 k a), fun k x a => g.7 k x (h.7 k x a)⟩

/-- A state written out from another one, of which it keeps the parts that count. -/
theorem State.Keeps.lit {s u : State} {a1 a2 a3 a4 a5 a6 a7 a8 a9 a10 a11 a12 a13 a14 a15 a16 a17 a18 a19 a20 a21 a22 a23 a24 a25 a26} (h : s.Keeps u) (e1 : a1 = u.pending := by rfl)
    (e2 : a25 = u.dram := by rfl) (e3 : a26 = u.hostMem := by rfl) (e4 : a3.period = u.time.period := by rfl) (e5 : a3.gate = u.time.gate := by rfl) (e6 : a3.pendPeriod = u.time.pendPeriod := by rfl)
    (e7 : a20.lifecycle = u.nv.lifecycle := by rfl) (e8 : a20.revoked = u.nv.revoked := by rfl) (e9 : a20.keys = u.nv.keys := by rfl) :
    s.Keeps (State.mk a1 a2 a3 a4 a5 a6 a7 a8 a9 a10 a11 a12 a13 a14 a15 a16 a17 a18 a19 a20 a21 a22 a23 a24 a25 a26) := by
  refine ⟨e1.trans h.1, fun x => ?_, fun x => ?_, fun x => ?_, ?_, fun k x => ?_, fun k v x => ?_⟩
  · show FMap.wf 0 a25 = true; rw [e2]; exact h.2 x
  · show FMap.wf 0 a26 = true; rw [e3]; exact h.3 x
  · have := h.4 x; unfold State.LegalTime at this ⊢; dsimp only; rw [e4, e5, e6]; exact this
  · show _ ≤ a20.lifecycle; rw [e7]; exact h.5
  · show k ∈ a20.revoked; rw [e8]; exact h.6 k x
  · show FMap.get none a20.keys k = some v; rw [e9]; exact h.7 k v x

theorem State.Keeps.of1 {s t : State} {α : Type} {p : State × α} {x : α} (e : p = (t, x)) (h : s.Keeps p.1) : s.Keeps t := by rw [e] at h; exact h
theorem State.Keeps.of2 {s t : State} {α : Type} {p : α × State} {x : α} (e : p = (x, t)) (h : s.Keeps p.2) : s.Keeps t := by rw [e] at h; exact h
theorem State.Keeps.of22 {s t : State} {α β : Type} {p : α × β × State} {x : α} {y : β} (e : p = (x, y, t)) (h : s.Keeps p.2.2) : s.Keeps t := by rw [e] at h; exact h
theorem State.Keeps.of222 {s t : State} {α β γ : Type} {p : α × β × γ × State} {x : α} {y : β} {z : γ} (e : p = (x, y, z, t)) (h : s.Keeps p.2.2.2) : s.Keeps t := by rw [e] at h; exact h
theorem State.Keeps.ofSome {s t : State} {o : Option State} (e : o = some t) (h : s.KeepsSome o) : s.Keeps t := h t e

theorem State.Keeps.none (s : State) : s.KeepsSome none := fun _ h => nomatch h
theorem State.Keeps.some {s u : State} (h : s.Keeps u) : s.KeepsSome (some u) := fun _ e => by injection e with e; exact e ▸ h
theorem State.Keeps.ofLeft {s t : State} {α : Type} {o : State ⊕ α} (e : o = .inl t) (h : s.KeepsLeft o) : s.Keeps t := h t e
theorem State.Keeps.inl {s u : State} {α : Type} (h : s.Keeps u) : s.KeepsLeft (.inl u : State ⊕ α) := fun _ e => by injection e with e; exact e ▸ h
theorem State.Keeps.inr {α : Type} (s : State) (a : α) : s.KeepsLeft (.inr a) := fun _ e => nomatch e
theorem State.Keeps.next {s u : State} (h : s.Keeps u) : s.KeepsNext (.next u) := fun _ e => by injection e with e; exact e ▸ h

theorem State.Keeps.getD {s u : State} {o : Option State} (h : s.Keeps u) (g : s.KeepsSome o) : s.Keeps (o.getD u) := by
  cases o with
  | none => exact h
  | some t => exact g t rfl
theorem State.Keeps.times {s u : State} {t : Time} (h : s.Keeps u) (e : t.period = u.time.period ∧ t.gate = u.time.gate ∧ t.pendPeriod = u.time.pendPeriod) :
    s.Keeps { u with time := t } :=
  State.Keeps.lit h rfl rfl rfl e.1 e.2.1 e.2.2
theorem Time.setQual_same (t : Time) (n : Nat) (b : Bool) :
    (t.setQual n b).period = t.period ∧ (t.setQual n b).gate = t.gate ∧ (t.setQual n b).pendPeriod = t.pendPeriod := by
  unfold Time.setQual; split <;> exact ⟨rfl, rfl, rfl⟩
theorem State.Keeps.setQual {s u : State} {n : Nat} {b : Bool} (h : s.Keeps u) : s.Keeps { u with time := u.time.setQual n b } :=
  State.Keeps.times h (Time.setQual_same _ _ _)

theorem State.Keeps.foldl {s : State} {α : Type} {f : State → α → State} {l : List α} {u : State} (h : s.Keeps u) (hf : ∀ u a, s.Keeps u → s.Keeps (f u a)) : s.Keeps (l.foldl f u) := by
  induction l generalizing u with
  | nil => exact h
  | cons a l ih => exact ih (hf u a h)
theorem State.Keeps.foldl1 {s : State} {α β : Type} {f : State × β → α → State × β} {l : List α} {p : State × β} (h : s.Keeps p.1) (hf : ∀ p a, s.Keeps p.1 → s.Keeps (f p a).1) : s.Keeps (l.foldl f p).1 := by
  induction l generalizing p with
  | nil => exact h
  | cons a l ih => exact ih (hf p a h)
theorem State.Keeps.foldl2 {s : State} {α β : Type} {f : β × State → α → β × State} {l : List α} {p : β × State} (h : s.Keeps p.2) (hf : ∀ p a, s.Keeps p.2 → s.Keeps (f p a).2) : s.Keeps (l.foldl f p).2 := by
  induction l generalizing p with
  | nil => exact h
  | cons a l ih => exact ih (hf p a h)


end Sys2Proof.Machine
end

