-- ==== Sys2Proof/Laws/KeepsOps.lean ====
section
/-!
SUPPORT. What no command undoes (Keeps.lean): the shared operations over engines, queues, memories and packets.
-/

namespace Sys2Proof.Machine
open Sys2Proof

-- These many short proofs are checked one after another: side by side they take more memory than they save time.
set_option Elab.async false

/-! ### Ops -/

theorem State.setFn_keeps {s u : State} {x1 x2} (h : s.Keeps u) : State.Keeps s (State.setFn u x1 x2) := by
  unfold State.setFn
  repeat' first | with_reducible assumption | dsimp only | (with_reducible refine State.Keeps.lit ?_)
theorem State.hold_keeps {s u : State} {x1 x2} (h : s.Keeps u) : State.Keeps s (State.hold u x1 x2) := by
  unfold State.hold
  repeat' first | with_reducible assumption | with_reducible apply State.setFn_keeps
theorem State.setInst_keeps {s u : State} {x1 x2} (h : s.Keeps u) : State.Keeps s (State.setInst u x1 x2) := by
  unfold State.setInst
  repeat' first | with_reducible assumption | dsimp only | (with_reducible refine State.Keeps.lit ?_)
theorem State.markDirty_keeps {s u : State} {x1 x2 x3} (h : s.Keeps u) : State.Keeps s (State.markDirty u x1 x2 x3) := by
  unfold State.markDirty
  repeat' first | with_reducible assumption | with_reducible apply State.setInst_keeps | split
theorem State.issueWrite_keeps {s u : State} {x1 x2 x3 x4} (h : s.Keeps u) : s.Keeps (u.issueWrite x1 x2 x3 x4) := by
  have g : s.Keeps (u.markDirty x1 x2 x3.length) := State.markDirty_keeps h
  exact ⟨g.1, g.2, fun a => Mem.wf_wrN _ _ _ (g.3 a), g.4, g.5, g.6, g.7⟩
theorem State.anyWrite_keeps {s u : State} {x1 x2 x3 x4} (h : s.Keeps u) : State.Keeps s (State.anyWrite u x1 x2 x3 x4) := by
  unfold State.anyWrite
  repeat' first | with_reducible assumption | with_reducible apply State.hold_keeps | with_reducible apply State.issueWrite_keeps | with_reducible apply State.Keeps.foldl | with_reducible intro _ | split
theorem State.hostWrite_keeps {s u : State} {x1 x2 x3} (h : s.Keeps u) : State.Keeps s (State.hostWrite u x1 x2 x3) := by
  unfold State.hostWrite
  repeat' first | with_reducible assumption | with_reducible apply State.anyWrite_keeps
theorem State.setMb_keeps {s u : State} {x1 x2} (h : s.Keeps u) : State.Keeps s (State.setMb u x1 x2) := by
  unfold State.setMb
  repeat' first | with_reducible assumption | dsimp only | (with_reducible refine State.Keeps.lit ?_)
theorem State.pme_keeps {s u : State} {x1} (h : s.Keeps u) : State.Keeps s (State.pme u x1) := by
  unfold State.pme
  repeat' first | with_reducible assumption | with_reducible apply State.setFn_keeps | split | dsimp only | (with_reducible refine State.Keeps.lit ?_)
theorem State.setPending_keeps {s u : State} {x1 x2} (h : s.Keeps u) : State.Keeps s (State.setPending u x1 x2) := by
  unfold State.setPending
  repeat' first | with_reducible assumption | with_reducible apply State.setFn_keeps | split | dsimp only
theorem State.sendMsix_keeps {s u : State} {x1 x2} (h : s.Keeps u) : s.Keeps (u.sendMsix x1 x2) :=
  ⟨h.1, h.2, fun a => Mem.wf_wrN _ _ _ (h.3 a), h.4, h.5, h.6, h.7⟩
theorem State.msix_keeps {s u : State} {x1 x2} (h : s.Keeps u) : State.Keeps s (State.msix u x1 x2) := by
  unfold State.msix
  repeat' first | with_reducible assumption | with_reducible apply State.setPending_keeps | with_reducible apply State.hold_keeps | with_reducible apply State.pme_keeps | with_reducible apply State.sendMsix_keeps | split
theorem State.noticeReset_keeps {s u : State} {x1 x2} (h : s.Keeps u) : State.Keeps s (State.noticeReset u x1 x2) := by
  unfold State.noticeReset
  repeat' first | with_reducible assumption | split | dsimp only | (with_reducible refine State.Keeps.lit ?_)
theorem State.postNotice_keeps {s u : State} {x1 x2 x3} (h : s.Keeps u) : State.Keeps s (State.postNotice u x1 x2 x3) := by
  unfold State.postNotice
  repeat' first | with_reducible assumption | with_reducible apply State.setMb_keeps | with_reducible apply State.pme_keeps | with_reducible apply State.msix_keeps | with_reducible apply State.noticeReset_keeps | split | dsimp only | (with_reducible refine State.Keeps.lit ?_)
theorem State.logFrom_keeps {s u : State} {x1 x2 x3 x4} (h : s.Keeps u) : State.Keeps s (State.logFrom u x1 x2 x3 x4) := by
  unfold State.logFrom
  repeat' first | with_reducible assumption | split | dsimp only | (with_reducible refine State.Keeps.lit ?_)
theorem State.log_keeps {s u : State} {x1 x2 x3} (h : s.Keeps u) : State.Keeps s (State.log u x1 x2 x3) := by
  unfold State.log
  repeat' first | with_reducible assumption | with_reducible apply State.logFrom_keeps
theorem State.modInst_keeps {s u : State} {x1 x2} (h : s.Keeps u) : State.Keeps s (State.modInst u x1 x2) := by
  unfold State.modInst
  repeat' first | with_reducible assumption | with_reducible apply State.setInst_keeps | split
theorem State.modInstCtr_keeps {s u : State} {x1 x2} (h : s.Keeps u) : State.Keeps s (State.modInstCtr u x1 x2) := by
  unfold State.modInstCtr
  repeat' first | with_reducible assumption | with_reducible apply State.modInst_keeps
theorem State.reportRow_keeps {s u : State} {x1 x2} (h : s.Keeps u) : State.Keeps s (State.reportRow u x1 x2) := by
  unfold State.reportRow
  repeat' first | with_reducible assumption | dsimp only | (with_reducible refine State.Keeps.lit ?_)
theorem State.tickFree_keeps {s u : State} (h : s.Keeps u) : State.Keeps s (State.tickFree u) := State.Keeps.lit h
theorem State.freshNat_keeps {s u : State} (h : s.Keeps u) : State.Keeps s (State.freshNat u).2 := by
  unfold State.freshNat
  repeat' first | with_reducible assumption | with_reducible apply State.tickFree_keeps
theorem freeLocks_keeps {s u : State} {x1 x2} (h : s.Keeps u) : State.Keeps s (freeLocks x1 u x2) := by
  induction x2 generalizing u x1 with
  | nil => unfold freeLocks; repeat' first | with_reducible assumption
  | cons a l ih => unfold freeLocks; repeat' first | with_reducible assumption | with_reducible apply ih | with_reducible apply State.log_keeps | split | dsimp only | (with_reducible refine State.Keeps.lit ?_)
theorem State.epochBump_keeps {s u : State} {x1} (h : s.Keeps u) : State.Keeps s (State.epochBump u x1) := by
  unfold State.epochBump
  repeat' first | with_reducible assumption | with_reducible apply freeLocks_keeps | split | (with_reducible refine State.Keeps.lit ?_)
theorem State.freshBit_keeps {s u : State} (h : s.Keeps u) : State.Keeps s (State.freshBit u).2 := by
  unfold State.freshBit
  repeat' first | with_reducible assumption | with_reducible apply State.tickFree_keeps
theorem State.dataWrite_keeps {s u : State} {x1 x2 x3} (h : s.Keeps u) : State.Keeps s (State.dataWrite u x1 x2 x3) := by
  unfold State.dataWrite
  repeat' first | with_reducible assumption | with_reducible apply State.anyWrite_keeps
theorem State.hostUse_keeps {s u : State} {x1} (h : s.Keeps u) : State.Keeps s (State.hostUse u x1) := by
  unfold State.hostUse
  repeat' first | with_reducible assumption | with_reducible apply State.setFn_keeps | dsimp only | (with_reducible refine State.Keeps.lit ?_)
theorem State.wordFailed_keeps {s u : State} {x1 x2} (h : s.Keeps u) : State.Keeps s (State.wordFailed u x1 x2) := by
  unfold State.wordFailed
  repeat' first | with_reducible assumption | with_reducible apply State.log_keeps
theorem State.sramFailed_keeps {s u : State} (h : s.Keeps u) : State.Keeps s (State.sramFailed u) := by
  unfold State.sramFailed
  repeat' first | with_reducible assumption | with_reducible apply State.freshNat_keeps | with_reducible apply State.wordFailed_keeps
theorem State.refreshState_keeps {s u : State} {x1} (h : s.Keeps u) : State.Keeps s (State.refreshState u x1) := by
  unfold State.refreshState
  repeat' first | with_reducible assumption | with_reducible apply State.log_keeps | split | dsimp only | (with_reducible refine State.Keeps.lit ?_)
theorem State.aerNote_keeps {s u : State} {x1 x2 x3} (h : s.Keeps u) : State.Keeps s (State.aerNote u x1 x2 x3) := by
  unfold State.aerNote
  repeat' first | with_reducible assumption | with_reducible apply State.tickFree_keeps | with_reducible apply State.setFn_keeps
theorem State.errMsg_keeps {s u : State} {x1 x2} (h : s.Keeps u) : State.Keeps s (State.errMsg u x1 x2) := by
  unfold State.errMsg
  repeat' first | with_reducible assumption | with_reducible apply State.setFn_keeps | split | dsimp only | (with_reducible refine State.Keeps.lit ?_)
theorem State.aerUncor_keeps {s u : State} {x1 x2} (h : s.Keeps u) : State.Keeps s (State.aerUncor u x1 x2) := by
  unfold State.aerUncor
  repeat' first | with_reducible assumption | with_reducible apply State.aerNote_keeps | with_reducible apply State.errMsg_keeps | split
theorem State.aerCorr_keeps {s u : State} {x1 x2} (h : s.Keeps u) : State.Keeps s (State.aerCorr u x1 x2) := by
  unfold State.aerCorr
  repeat' first | with_reducible assumption | with_reducible apply State.setFn_keeps | with_reducible apply State.errMsg_keeps | split
theorem State.aerAdvisory_keeps {s u : State} {x1 x2} (h : s.Keeps u) : State.Keeps s (State.aerAdvisory u x1 x2) := by
  unfold State.aerAdvisory
  repeat' first | with_reducible assumption | with_reducible apply State.aerUncor_keeps | with_reducible apply State.aerCorr_keeps | with_reducible apply State.aerNote_keeps | split
theorem State.advanceGen_keeps {s u : State} {x1} (h : s.Keeps u) : State.Keeps s (State.advanceGen u x1) := by
  unfold State.advanceGen
  repeat' first | with_reducible assumption | dsimp only | (with_reducible refine State.Keeps.lit ?_)
theorem State.freshInt_keeps {s u : State} (h : s.Keeps u) : State.Keeps s (State.freshInt u).2 := by
  unfold State.freshInt
  repeat' first | with_reducible assumption | with_reducible apply State.freshNat_keeps | with_reducible apply State.freshBit_keeps
theorem State.measure_keeps {s u : State} {x1} (h : s.Keeps u) : State.Keeps s (State.measure u x1) := by
  unfold State.measure
  repeat' first | with_reducible assumption | with_reducible apply State.freshInt_keeps | split | dsimp only | (with_reducible refine State.Keeps.of2 (by with_reducible assumption) ?_) | (with_reducible refine State.Keeps.lit ?_)

/-! ### Buffers -/

theorem State.poolWrite_keeps {s u : State} {x1 x2 x3} (h : s.Keeps u) : s.Keeps (u.poolWrite x1 x2 x3) := by
  unfold State.poolWrite
  split
  · exact ⟨h.1, h.2, h.3, h.4, h.5, h.6, h.7⟩
  · exact ⟨h.1, fun a => Mem.wf_wrN _ _ _ (h.2 a), h.3, h.4, h.5, h.6, h.7⟩
theorem State.modPool_keeps {s u : State} {x1 x2} (h : s.Keeps u) : State.Keeps s (State.modPool u x1 x2) := by
  unfold State.modPool
  repeat' first | with_reducible assumption | split | dsimp only | (with_reducible refine State.Keeps.lit ?_)
theorem State.returnBuf_keeps {s u : State} {x1 x2} (h : s.Keeps u) : State.Keeps s (State.returnBuf u x1 x2) := by
  unfold State.returnBuf
  repeat' first | with_reducible assumption | with_reducible apply State.poolWrite_keeps | with_reducible apply State.modPool_keeps | split
theorem State.setOwners_keeps {s u : State} {x1 x2} (h : s.Keeps u) : State.Keeps s (State.setOwners u x1 x2) := by
  unfold State.setOwners
  repeat' first | with_reducible assumption | with_reducible apply State.returnBuf_keeps | with_reducible apply State.modPool_keeps | split
theorem State.removeOwner_keeps {s u : State} {x1 x2} (h : s.Keeps u) : State.Keeps s (State.removeOwner u x1 x2) := by
  unfold State.removeOwner
  repeat' first | with_reducible assumption | with_reducible apply State.setOwners_keeps | with_reducible apply State.log_keeps | with_reducible apply State.modPool_keeps | split
theorem State.takeHead_keeps {s u : State} {x1 x2} (h : s.Keeps u) : State.Keeps s (State.takeHead u x1 x2).2 := by
  unfold State.takeHead
  repeat' first | with_reducible assumption | with_reducible apply State.poolWrite_keeps | with_reducible apply State.modPool_keeps | with_reducible apply State.log_keeps | with_reducible apply State.reportRow_keeps | split
theorem allocFrom_keeps {s u : State} {x1 x2} (h : s.Keeps u) : State.Keeps s (allocFrom x1 u x2).2 := by
  induction x2 generalizing u x1 with
  | nil => unfold allocFrom; repeat' first | with_reducible assumption
  | cons a l ih => unfold allocFrom; repeat' first | with_reducible assumption | with_reducible apply ih | with_reducible apply State.takeHead_keeps | with_reducible apply State.modPool_keeps | split | dsimp only | (with_reducible refine State.Keeps.of2 (by with_reducible assumption) ?_)
theorem State.alloc_keeps {s u : State} {x1 x2 x3} (h : s.Keeps u) : State.Keeps s (State.alloc u x1 x2 x3).2 := by
  unfold State.alloc
  repeat' first | with_reducible assumption | with_reducible apply allocFrom_keeps | with_reducible apply State.modPool_keeps | split | dsimp only | (with_reducible refine State.Keeps.of2 (by with_reducible assumption) ?_)
theorem State.allocWaits_keeps {s u : State} {x1} (h : s.Keeps u) : State.Keeps s (State.allocWaits u x1) := by
  unfold State.allocWaits
  repeat' first | with_reducible assumption | dsimp only | (with_reducible refine State.Keeps.lit ?_)
theorem State.swapOwner_keeps {s u : State} {x1 x2 x3} (h : s.Keeps u) : State.Keeps s (State.swapOwner u x1 x2 x3) := by
  unfold State.swapOwner
  repeat' first | with_reducible assumption | with_reducible apply State.setOwners_keeps | split
theorem State.bufWrite_keeps {s u : State} {x1 x2 x3} (h : s.Keeps u) : State.Keeps s (State.bufWrite u x1 x2 x3) := by
  unfold State.bufWrite
  repeat' first | with_reducible assumption | with_reducible apply State.poolWrite_keeps
theorem State.dropNameOn_keeps {s u : State} {x1 x2} (h : s.Keeps u) : State.Keeps s (State.dropNameOn u x1 x2) := by
  unfold State.dropNameOn
  repeat' first | with_reducible assumption | with_reducible apply State.setOwners_keeps | with_reducible apply State.Keeps.foldl | with_reducible intro _ | split
theorem dropNameIn_keeps {s u : State} {x1 x2 x3} (h : s.Keeps u) : State.Keeps s (dropNameIn x1 x2 u x3) := by
  induction x3 generalizing u x1 x2 with
  | nil => unfold dropNameIn; repeat' first | with_reducible assumption
  | cons a l ih => unfold dropNameIn; repeat' first | with_reducible assumption | with_reducible apply ih | with_reducible apply State.setOwners_keeps | split | dsimp only
theorem State.dropName_keeps {s u : State} {x1} (h : s.Keeps u) : State.Keeps s (State.dropName u x1) := by
  unfold State.dropName
  repeat' first | with_reducible assumption | with_reducible apply dropNameIn_keeps | with_reducible apply State.Keeps.foldl | with_reducible intro _ | split
theorem threadLinks_keeps {s u : State} {x1 x2 x3} (h : s.Keeps u) : s.Keeps (threadLinks x1 x2 u x3) := by
  induction x3 generalizing u with
  | nil => exact h
  | cons a l ih =>
    cases l with
    | nil => exact State.poolWrite_keeps h
    | cons b l => exact ih (State.poolWrite_keeps h)
theorem State.withdraw_keeps {s u : State} {x1 x2} (h : s.Keeps u) : State.Keeps s (State.withdraw u x1 x2) := by
  unfold State.withdraw
  repeat' first | with_reducible assumption | with_reducible apply State.modPool_keeps | with_reducible apply State.log_keeps | with_reducible apply threadLinks_keeps | split | dsimp only
theorem State.rebuildPool_keeps {s u : State} {x1} (h : s.Keeps u) : State.Keeps s (State.rebuildPool u x1) := by
  unfold State.rebuildPool
  repeat' first | with_reducible assumption | with_reducible apply State.modPool_keeps | with_reducible apply threadLinks_keeps | split
theorem State.addOwner_keeps {s u : State} {x1 x2} (h : s.Keeps u) : State.KeepsSome s (State.addOwner u x1 x2) := by
  unfold State.addOwner
  repeat' first | with_reducible assumption | with_reducible apply State.setOwners_keeps | with_reducible apply State.Keeps.some | with_reducible exact State.Keeps.none _ | split
theorem State.loseEntry_keeps {s u : State} {x1} (h : s.Keeps u) : State.Keeps s (State.loseEntry u x1) := by
  unfold State.loseEntry
  repeat' first | with_reducible assumption | with_reducible apply State.withdraw_keeps
theorem State.giveTo_keeps {s u : State} {x1 x2 x3} (h : s.Keeps u) : State.KeepsSome s (State.giveTo u x1 x2 x3) := by
  unfold State.giveTo
  repeat' first | with_reducible assumption | with_reducible apply State.setOwners_keeps | with_reducible apply State.addOwner_keeps | with_reducible apply State.Keeps.some | with_reducible exact State.Keeps.none _ | split
theorem State.rxNoBuffer_keeps {s u : State} {x1 x2} (h : s.Keeps u) : State.Keeps s (State.rxNoBuffer u x1 x2) := by
  unfold State.rxNoBuffer
  repeat' first | with_reducible assumption | dsimp only | (with_reducible refine State.Keeps.lit ?_)
theorem State.loseHead_keeps {s u : State} {x1 x2} (h : s.Keeps u) : State.Keeps s (State.loseHead u x1 x2) := by
  unfold State.loseHead
  repeat' first | with_reducible assumption | with_reducible apply State.withdraw_keeps | split
theorem State.allocChecked_keeps {s u : State} {x1 x2 x3 x4} (h : s.Keeps u) : State.Keeps s (State.allocChecked u x1 x2 x3 x4).2 := by
  unfold State.allocChecked
  repeat' first | with_reducible assumption | with_reducible apply State.alloc_keeps | with_reducible apply State.loseHead_keeps | split

/-! ### Dma -/

theorem State.dropGroup_keeps {s u : State} {x1} (h : s.Keeps u) : State.Keeps s (State.dropGroup u x1) := by
  unfold State.dropGroup
  repeat' first | with_reducible assumption | dsimp only | (with_reducible refine State.Keeps.lit ?_)
theorem State.arrive_keeps {s u : State} {x1 x2} (h : s.Keeps u) : State.Keeps s (State.arrive u x1 x2) := by
  unfold State.arrive
  repeat' first | with_reducible assumption | dsimp only | (with_reducible refine State.Keeps.lit ?_)
theorem State.reply_keeps {s u : State} {x1 x2 x3 x4 x5} (h : s.Keeps u) : State.Keeps s (State.reply u x1 x2 x3 x4 x5) := by
  unfold State.reply
  repeat' first | with_reducible assumption | with_reducible apply State.removeOwner_keeps | with_reducible apply State.arrive_keeps | split
theorem State.issueRead_keeps {s u : State} {x1} (h : s.Keeps u) : State.Keeps s (State.issueRead u x1) := by
  unfold State.issueRead
  repeat' first | with_reducible assumption | with_reducible apply State.hold_keeps | split | dsimp only | (with_reducible refine State.Keeps.lit ?_)
theorem State.startRead_keeps {s u : State} {x1 x2 x3 x4 x5} (h : s.Keeps u) : State.Keeps s (State.startRead u x1 x2 x3 x4 x5) := by
  unfold State.startRead
  repeat' first | with_reducible assumption | with_reducible apply State.issueRead_keeps | with_reducible apply State.Keeps.foldl | with_reducible intro _ | dsimp only | (with_reducible refine State.Keeps.lit ?_)
theorem freeWords_keeps {s u : State} {x1} (h : s.Keeps u) : State.Keeps s (freeWords x1 u).2 := by
  induction x1 generalizing u with
  | zero => unfold freeWords; repeat' first | with_reducible assumption
  | succ k ih => unfold freeWords; repeat' first | with_reducible assumption | with_reducible apply ih | with_reducible apply State.freshNat_keeps
theorem State.freeEngine_keeps {s u : State} (h : s.Keeps u) : State.Keeps s (State.freeEngine u).2 := by
  unfold State.freeEngine
  repeat' first | with_reducible assumption | with_reducible apply State.freshNat_keeps

/-! ### QueueOps -/

theorem State.dropHostName_keeps {s u : State} {x1} (h : s.Keeps u) : State.Keeps s (State.dropHostName u x1) := by
  unfold State.dropHostName
  repeat' first | with_reducible assumption | with_reducible apply State.removeOwner_keeps | split
theorem State.setQueue_keeps {s u : State} {x1 x2} (h : s.Keeps u) : State.Keeps s (State.setQueue u x1 x2) := by
  unfold State.setQueue
  repeat' first | with_reducible assumption | dsimp only | (with_reducible refine State.Keeps.lit ?_)
theorem State.setOp_keeps {s u : State} {x1 x2} (h : s.Keeps u) : State.Keeps s (State.setOp u x1 x2) := by
  unfold State.setOp
  repeat' first | with_reducible assumption | dsimp only | (with_reducible refine State.Keeps.lit ?_)
theorem State.killOp_keeps {s u : State} {x1} (h : s.Keeps u) : State.Keeps s (State.killOp u x1) := by
  unfold State.killOp
  repeat' first | with_reducible assumption | with_reducible apply State.dropHostName_keeps | with_reducible apply State.setOp_keeps | split | dsimp only
theorem State.setCtx_keeps {s u : State} {x1 x2} (h : s.Keeps u) : State.Keeps s (State.setCtx u x1 x2) := by
  unfold State.setCtx
  repeat' first | with_reducible assumption | dsimp only | (with_reducible refine State.Keeps.lit ?_)
theorem State.endRead_keeps {s u : State} {x1} (h : s.Keeps u) : State.Keeps s (State.endRead u x1) := by
  unfold State.endRead
  repeat' first | with_reducible assumption | with_reducible apply State.setOp_keeps
theorem State.errorCtx_keeps {s u : State} {x1 x2} (h : s.Keeps u) : State.Keeps s (State.errorCtx u x1 x2) := by
  unfold State.errorCtx
  repeat' first | with_reducible assumption | with_reducible apply State.setCtx_keeps | with_reducible apply State.reply_keeps | with_reducible apply State.endRead_keeps | with_reducible apply State.Keeps.foldl | with_reducible intro _ | split
theorem State.endCaravan_keeps {s u : State} {x1 x2} (h : s.Keeps u) : State.Keeps s (State.endCaravan u x1 x2) := by
  unfold State.endCaravan
  repeat' first | with_reducible assumption | with_reducible apply State.killOp_keeps | with_reducible apply State.errorCtx_keeps | split
theorem State.forgetQueue_keeps {s u : State} {x1} (h : s.Keeps u) : State.Keeps s (State.forgetQueue u x1) := by
  unfold State.forgetQueue
  repeat' first | with_reducible assumption | with_reducible apply State.setQueue_keeps | with_reducible apply State.endCaravan_keeps | with_reducible apply State.Keeps.foldl | with_reducible intro _ | split
theorem State.forgetRings_keeps {s u : State} {x1} (h : s.Keeps u) : State.Keeps s (State.forgetRings u x1) := by
  unfold State.forgetRings
  repeat' first | with_reducible assumption | with_reducible apply State.forgetQueue_keeps | with_reducible apply State.Keeps.foldl | with_reducible intro _ | dsimp only | (with_reducible refine State.Keeps.lit ?_)
theorem State.serve_keeps {s u : State} {x1} {f : PostReq → State → State} (h : s.Keeps u) (hf : ∀ r u, s.Keeps u → s.Keeps (f r u)) : State.Keeps s (State.serve u x1 f) := by
  unfold State.serve
  repeat' first | with_reducible assumption | with_reducible apply hf | split | dsimp only | (with_reducible refine State.Keeps.lit ?_)
theorem State.putCompletion_keeps {s u : State} {x1 x2 x3 x4} (h : s.Keeps u) : State.Keeps s (State.putCompletion u x1 x2 x3 x4).1 := by
  unfold State.putCompletion
  repeat' first | with_reducible assumption | with_reducible apply State.hostWrite_keeps | with_reducible apply State.hostUse_keeps | dsimp only | (with_reducible refine State.Keeps.lit ?_)
theorem drainQueue_keeps {s u : State} {x1 x2} (h : s.Keeps u) : State.Keeps s (drainQueue x1 x2 u) := by
  induction x2 generalizing u x1 with
  | zero => unfold drainQueue; repeat' first | with_reducible assumption
  | succ k ih => unfold drainQueue; repeat' first | with_reducible assumption | with_reducible apply ih | with_reducible apply State.putCompletion_keeps | with_reducible apply State.setQueue_keeps | with_reducible apply State.killOp_keeps | split
theorem State.drain_keeps {s u : State} {x1} (h : s.Keeps u) : State.Keeps s (State.drain u x1) := by
  unfold State.drain
  repeat' first | with_reducible assumption | with_reducible apply drainQueue_keeps | split
theorem State.modQueue_keeps {s u : State} {x1 x2} (h : s.Keeps u) : State.Keeps s (State.modQueue u x1 x2) := by
  unfold State.modQueue
  repeat' first | with_reducible assumption | with_reducible apply State.setQueue_keeps | split
theorem State.finishOp_keeps {s u : State} {x1 x2 x3} (h : s.Keeps u) : State.Keeps s (State.finishOp u x1 x2 x3) := by
  unfold State.finishOp
  repeat' first | with_reducible assumption | with_reducible apply State.drain_keeps | with_reducible apply State.modQueue_keeps | split
theorem State.dropOp_keeps {s u : State} {x1} (h : s.Keeps u) : State.Keeps s (State.dropOp u x1) := by
  unfold State.dropOp
  repeat' first | with_reducible assumption | with_reducible apply State.drain_keeps | with_reducible apply State.killOp_keeps | with_reducible apply State.modQueue_keeps | split
theorem State.moderate_keeps {s u : State} (h : s.Keeps u) : State.Keeps s (State.moderate u) := by
  unfold State.moderate
  repeat' first | with_reducible assumption | with_reducible apply State.msix_keeps | with_reducible apply State.setQueue_keeps | with_reducible apply State.Keeps.foldl | with_reducible intro _ | split
theorem State.sweepOps_keeps {s u : State} (h : s.Keeps u) : State.Keeps s (State.sweepOps u) := by
  unfold State.sweepOps
  repeat' first | with_reducible assumption | with_reducible apply State.setOp_keeps | with_reducible apply State.Keeps.foldl | with_reducible intro _ | split

/-! ### Integrity -/

theorem State.lineFailed_keeps {s u : State} {x1} (h : s.Keeps u) : State.Keeps s (State.lineFailed u x1) := by
  unfold State.lineFailed
  repeat' first | with_reducible assumption | with_reducible apply State.freshNat_keeps | with_reducible apply State.reportRow_keeps | with_reducible apply State.log_keeps
theorem State.ctlWrite_keeps {s u : State} {x1 x2} (h : s.Keeps u) : s.Keeps (u.ctlWrite x1 x2) := by
  unfold State.ctlWrite
  refine iteInduction (motive := fun t => s.Keeps t) (fun _ => ?_) (fun _ => State.lineFailed_keeps h)
  exact ⟨h.1, fun a => Mem.wf_wrN _ _ _ (Mem.wf_wrN _ _ _ (h.2 a)), h.3, h.4, h.5, h.6, h.7⟩
theorem State.ctlRead_keeps {s u : State} {x1 x2} (h : s.Keeps u) : State.Keeps s (State.ctlRead u x1 x2).2 := by
  unfold State.ctlRead
  repeat' first | with_reducible assumption | with_reducible apply State.lineFailed_keeps | split | dsimp only

/-! ### Accel -/

theorem State.acceptAccel_keeps {s u : State} {x1 x2} (h : s.Keeps u) : State.Keeps s (State.acceptAccel u x1 x2) := by
  unfold State.acceptAccel
  repeat' first | with_reducible assumption | dsimp only | (with_reducible refine State.Keeps.lit ?_)
theorem State.serveAccel_keeps {s u : State} {x1 x2} {f : PostReq → State → State} (h : s.Keeps u) (hf : ∀ r u, s.Keeps u → s.Keeps (f r u)) : State.Keeps s (State.serveAccel u x1 x2 f) := by
  unfold State.serveAccel
  repeat' first | with_reducible assumption | with_reducible apply hf | split | dsimp only | (with_reducible refine State.Keeps.lit ?_)
theorem State.accelDone_keeps {s u : State} {x1 x2 x3 x4 x5} (h : s.Keeps u) : State.Keeps s (State.accelDone u x1 x2 x3 x4 x5) := by
  unfold State.accelDone
  repeat' first | with_reducible assumption | dsimp only | (with_reducible refine State.Keeps.lit ?_)
theorem State.dropInput_keeps {s u : State} {x1 x2} (h : s.Keeps u) : State.Keeps s (State.dropInput u x1 x2) := by
  unfold State.dropInput
  repeat' first | with_reducible assumption | with_reducible apply State.removeOwner_keeps | split | dsimp only
theorem State.accelFail_keeps {s u : State} {x1 x2 x3} (h : s.Keeps u) : State.Keeps s (State.accelFail u x1 x2 x3) := by
  unfold State.accelFail
  repeat' first | with_reducible assumption | with_reducible apply State.accelDone_keeps | with_reducible apply State.dropInput_keeps
theorem State.keyLineFailed_keeps {s u : State} (h : s.Keeps u) : State.Keeps s (State.keyLineFailed u) := by
  unfold State.keyLineFailed
  repeat' first | with_reducible assumption | with_reducible apply State.freshNat_keeps | with_reducible apply State.lineFailed_keeps
theorem State.accelOut_keeps {s u : State} {x1 x2 x3 x4 x5 x6 x7 x8} {f : State → State} (h : s.Keeps u) (hf : ∀ u, s.Keeps u → s.Keeps (f u)) : State.Keeps s (State.accelOut u x1 x2 x3 x4 x5 x6 x7 x8 f) := by
  unfold State.accelOut
  repeat' first | with_reducible assumption | with_reducible apply hf | with_reducible apply State.alloc_keeps | with_reducible apply State.accelFail_keeps | with_reducible apply State.keyLineFailed_keeps | with_reducible apply State.accelDone_keeps | with_reducible apply State.bufWrite_keeps | split | (with_reducible refine State.Keeps.of2 (by with_reducible assumption) ?_)
theorem State.compressReq_keeps {s u : State} {x1} (h : s.Keeps u) : State.Keeps s (State.compressReq u x1) := by
  unfold State.compressReq
  repeat' first | with_reducible assumption | with_reducible apply State.accelFail_keeps | with_reducible apply State.accelOut_keeps | with_reducible apply State.dropInput_keeps | with_reducible intro _ | split | dsimp only
theorem execCompress_keeps {s u : State} (h : s.Keeps u) : State.KeepsNext s (execCompress u) := by
  unfold execCompress
  repeat' first | with_reducible assumption | with_reducible apply State.serveAccel_keeps | with_reducible apply State.compressReq_keeps | with_reducible apply State.Keeps.next | with_reducible intro _
theorem State.setKey_keeps {s u : State} {x1 x2} (h : s.Keeps u) : State.Keeps s (State.setKey u x1 x2) := by
  unfold State.setKey
  repeat' first | with_reducible assumption | dsimp only | (with_reducible refine State.Keeps.lit ?_)
theorem State.cryptoReq_keeps {s u : State} {x1 x2 x3 x4} (h : s.Keeps u) : State.Keeps s (State.cryptoReq u x1 x2 x3 x4) := by
  unfold State.cryptoReq
  repeat' first | with_reducible assumption | with_reducible apply State.accelFail_keeps | with_reducible apply State.setKey_keeps | with_reducible apply State.accelOut_keeps | with_reducible apply State.dropInput_keeps | with_reducible apply State.log_keeps | with_reducible intro _ | split | dsimp only
theorem State.keyClearReq_keeps {s u : State} {x1 x2 x3} (h : s.Keeps u) : State.Keeps s (State.keyClearReq u x1 x2 x3) := by
  unfold State.keyClearReq
  repeat' first | with_reducible assumption | with_reducible apply State.accelFail_keeps | with_reducible apply State.accelOut_keeps | with_reducible apply State.setKey_keeps | with_reducible intro _ | split | dsimp only
theorem execKeyClear_keeps {s u : State} {x1 x2} (h : s.Keeps u) : State.KeepsNext s (execKeyClear x1 x2 u) := by
  unfold execKeyClear
  repeat' first | with_reducible assumption | with_reducible apply State.serveAccel_keeps | with_reducible apply State.keyClearReq_keeps | with_reducible apply State.Keeps.next | with_reducible intro _
theorem State.cryptoRow_keeps {s u : State} {x1 x2 x3} (h : s.Keeps u) : State.Keeps s (State.cryptoRow u x1 x2 x3) := by
  unfold State.cryptoRow
  repeat' first | with_reducible assumption | with_reducible apply State.serveAccel_keeps | with_reducible apply State.cryptoReq_keeps | with_reducible intro _
theorem execTlsSeal_keeps {s u : State} {x1 x2} (h : s.Keeps u) : State.KeepsNext s (execTlsSeal x1 x2 u) := by
  unfold execTlsSeal
  repeat' first | with_reducible assumption | with_reducible apply State.cryptoRow_keeps | with_reducible apply State.Keeps.next
theorem State.recordResult_keeps {s u : State} {x1} (h : s.Keeps u) : State.Keeps s (State.recordResult u x1) := by
  unfold State.recordResult
  repeat' first | with_reducible assumption | with_reducible apply State.reply_keeps | with_reducible apply State.swapOwner_keeps | split | dsimp only | (with_reducible refine State.Keeps.lit ?_)
theorem State.decompressReq_keeps {s u : State} {x1} (h : s.Keeps u) : State.Keeps s (State.decompressReq u x1) := by
  unfold State.decompressReq
  repeat' first | with_reducible assumption | with_reducible apply State.accelFail_keeps | with_reducible apply State.accelOut_keeps | with_reducible apply State.dropInput_keeps | with_reducible intro _ | split | dsimp only
theorem State.keyLoadReq_keeps {s u : State} {x1 x2 x3} (h : s.Keeps u) : State.Keeps s (State.keyLoadReq u x1 x2 x3) := by
  unfold State.keyLoadReq
  repeat' first | with_reducible assumption | with_reducible apply State.accelFail_keeps | with_reducible apply State.accelOut_keeps | with_reducible apply State.dropInput_keeps | with_reducible apply State.bufWrite_keeps | with_reducible apply State.setKey_keeps | with_reducible intro _ | split | dsimp only
theorem State.runAccel_keeps {s u : State} {x1 x2} (h : s.Keeps u) : State.Keeps s (State.runAccel u x1 x2) := by
  unfold State.runAccel
  repeat' first | with_reducible assumption | with_reducible apply State.accelFail_keeps | with_reducible apply State.compressReq_keeps | with_reducible apply State.decompressReq_keeps | with_reducible apply State.keyLoadReq_keeps | with_reducible apply State.keyClearReq_keeps | with_reducible apply State.cryptoReq_keeps | split
theorem finishUnit_keeps {s u : State} {x1 x2} (h : s.Keeps u) : State.Keeps s (finishUnit x1 x2 u) := by
  induction x2 generalizing u x1 with
  | zero => unfold finishUnit; repeat' first | with_reducible assumption
  | succ k ih => unfold finishUnit; repeat' first | with_reducible assumption | with_reducible apply ih | with_reducible apply State.recordResult_keeps | with_reducible apply State.runAccel_keeps | split | dsimp only | (with_reducible refine State.Keeps.lit ?_)
theorem State.finishAccel_keeps {s u : State} (h : s.Keeps u) : State.Keeps s (State.finishAccel u) := by
  unfold State.finishAccel
  repeat' first | with_reducible assumption | with_reducible apply finishUnit_keeps | with_reducible apply State.Keeps.foldl | with_reducible intro _
theorem State.spendAccel_keeps {s u : State} (h : s.Keeps u) : State.Keeps s (State.spendAccel u) := by
  unfold State.spendAccel
  repeat' first | with_reducible assumption | dsimp only | (with_reducible refine State.Keeps.lit ?_)
theorem execTlsOpen_keeps {s u : State} {x1 x2} (h : s.Keeps u) : State.KeepsNext s (execTlsOpen x1 x2 u) := by
  unfold execTlsOpen
  repeat' first | with_reducible assumption | with_reducible apply State.cryptoRow_keeps | with_reducible apply State.Keeps.next
theorem execGcmSeal_keeps {s u : State} {x1 x2} (h : s.Keeps u) : State.KeepsNext s (execGcmSeal x1 x2 u) := by
  unfold execGcmSeal
  repeat' first | with_reducible assumption | with_reducible apply State.cryptoRow_keeps | with_reducible apply State.Keeps.next
theorem execEspDecrypt_keeps {s u : State} {x1 x2} (h : s.Keeps u) : State.KeepsNext s (execEspDecrypt x1 x2 u) := by
  unfold execEspDecrypt
  repeat' first | with_reducible assumption | with_reducible apply State.cryptoRow_keeps | with_reducible apply State.Keeps.next
theorem execDecompress_keeps {s u : State} (h : s.Keeps u) : State.KeepsNext s (execDecompress u) := by
  unfold execDecompress
  repeat' first | with_reducible assumption | with_reducible apply State.serveAccel_keeps | with_reducible apply State.decompressReq_keeps | with_reducible apply State.Keeps.next | with_reducible intro _
theorem State.failUnknown_keeps {s u : State} {x1} (h : s.Keeps u) : State.Keeps s (State.failUnknown u x1) := by
  unfold State.failUnknown
  repeat' first | with_reducible assumption | with_reducible apply State.accelFail_keeps | split | dsimp only | (with_reducible refine State.Keeps.lit ?_)
theorem execMacsecProtect_keeps {s u : State} {x1 x2} (h : s.Keeps u) : State.KeepsNext s (execMacsecProtect x1 x2 u) := by
  unfold execMacsecProtect
  repeat' first | with_reducible assumption | with_reducible apply State.cryptoRow_keeps | with_reducible apply State.Keeps.next
theorem execGcmOpen_keeps {s u : State} {x1 x2} (h : s.Keeps u) : State.KeepsNext s (execGcmOpen x1 x2 u) := by
  unfold execGcmOpen
  repeat' first | with_reducible assumption | with_reducible apply State.cryptoRow_keeps | with_reducible apply State.Keeps.next
theorem execKeyLoad_keeps {s u : State} {x1 x2} (h : s.Keeps u) : State.KeepsNext s (execKeyLoad x1 x2 u) := by
  unfold execKeyLoad
  repeat' first | with_reducible assumption | with_reducible apply State.serveAccel_keeps | with_reducible apply State.keyLoadReq_keeps | with_reducible apply State.Keeps.next | with_reducible intro _
theorem execEspEncrypt_keeps {s u : State} {x1 x2} (h : s.Keeps u) : State.KeepsNext s (execEspEncrypt x1 x2 u) := by
  unfold execEspEncrypt
  repeat' first | with_reducible assumption | with_reducible apply State.cryptoRow_keeps | with_reducible apply State.Keeps.next
theorem execAcceleratorResult_keeps {s u : State} {x1} (h : s.Keeps u) : State.KeepsNext s (execAcceleratorResult x1 u) := by
  unfold execAcceleratorResult
  repeat' first | with_reducible assumption | with_reducible apply State.failUnknown_keeps | with_reducible apply State.recordResult_keeps | with_reducible apply State.Keeps.next | split
theorem execMacsecValidate_keeps {s u : State} {x1 x2} (h : s.Keeps u) : State.KeepsNext s (execMacsecValidate x1 x2 u) := by
  unfold execMacsecValidate
  repeat' first | with_reducible assumption | with_reducible apply State.cryptoRow_keeps | with_reducible apply State.Keeps.next

/-! ### ErgOps -/

theorem State.setEng_keeps {s u : State} {x1 x2} (h : s.Keeps u) : State.Keeps s (State.setEng u x1 x2) := by
  unfold State.setEng
  repeat' first | with_reducible assumption | dsimp only | (with_reducible refine State.Keeps.lit ?_)
theorem State.setYard_keeps {s u : State} {x1 x2} (h : s.Keeps u) : State.Keeps s (State.setYard u x1 x2) := by
  unfold State.setYard
  repeat' first | with_reducible assumption | dsimp only | (with_reducible refine State.Keeps.lit ?_)
theorem State.countCheck_keeps {s u : State} {x1 x2 x3} (h : s.Keeps u) : State.Keeps s (State.countCheck u x1 x2 x3) := by
  unfold State.countCheck
  repeat' first | with_reducible assumption | split | dsimp only | (with_reducible refine State.Keeps.lit ?_)
theorem State.moved_keeps {s u : State} {x1 x2} (h : s.Keeps u) : State.Keeps s (State.moved u x1 x2) := by
  unfold State.moved
  repeat' first | with_reducible assumption | with_reducible apply State.setYard_keeps | split
theorem State.dropOwn_keeps {s u : State} {x1 x2 x3} (h : s.Keeps u) : State.Keeps s (State.dropOwn u x1 x2 x3) := by
  unfold State.dropOwn
  repeat' first | with_reducible assumption | with_reducible apply State.dropNameOn_keeps | with_reducible apply State.dropName_keeps | split
theorem State.retryItem_keeps {s u : State} {x1 x2 x3} (h : s.Keeps u) : State.Keeps s (State.retryItem u x1 x2 x3) := by
  unfold State.retryItem
  repeat' first | with_reducible assumption | with_reducible apply State.swapOwner_keeps | with_reducible apply State.dropName_keeps | with_reducible apply State.setEng_keeps | with_reducible apply State.Keeps.foldl | with_reducible intro _ | split
theorem State.dropPackets_keeps {s u : State} {x1} (h : s.Keeps u) : State.Keeps s (State.dropPackets u x1) := by
  unfold State.dropPackets
  repeat' first | with_reducible assumption | split | dsimp only | (with_reducible refine State.Keeps.lit ?_)
theorem State.failItem_keeps {s u : State} {x1 x2} (h : s.Keeps u) : State.Keeps s (State.failItem u x1 x2) := by
  unfold State.failItem
  repeat' first | with_reducible assumption | with_reducible apply State.dropPackets_keeps | split | dsimp only | (with_reducible refine State.Keeps.lit ?_)
theorem State.endOther_keeps {s u : State} {x1 x2 x3 x4} (h : s.Keeps u) : State.Keeps s (State.endOther u x1 x2 x3 x4) := by
  unfold State.endOther
  repeat' first | with_reducible assumption | with_reducible apply State.countCheck_keeps | with_reducible apply State.setEng_keeps | with_reducible apply State.moved_keeps | with_reducible apply State.dropOwn_keeps | with_reducible apply State.retryItem_keeps | with_reducible apply State.failItem_keeps | with_reducible apply State.dropName_keeps | split | dsimp only
theorem State.faultRecord_keeps {s u : State} {x1 x2} (h : s.Keeps u) : State.Keeps s (State.faultRecord u x1 x2) := by
  unfold State.faultRecord
  repeat' first | with_reducible assumption | with_reducible apply State.setEng_keeps | split | dsimp only
theorem State.modThr_keeps {s u : State} {x1 x2 x3} (h : s.Keeps u) : State.Keeps s (State.modThr u x1 x2 x3) := by
  unfold State.modThr
  repeat' first | with_reducible assumption | with_reducible apply State.setEng_keeps
theorem State.groomFault_keeps {s u : State} {x1 x2 x3} (h : s.Keeps u) : State.Keeps s (State.groomFault u x1 x2 x3) := by
  unfold State.groomFault
  repeat' first | with_reducible assumption | with_reducible apply State.logFrom_keeps | with_reducible apply State.setMb_keeps | split | dsimp only | (with_reducible refine State.Keeps.lit ?_)
theorem State.faultAt_keeps {s u : State} {x1 x2 x3 x4 x5} (h : s.Keeps u) : State.Keeps s (State.faultAt u x1 x2 x3 x4 x5) := by
  unfold State.faultAt
  repeat' first | with_reducible assumption | with_reducible apply State.groomFault_keeps | with_reducible apply State.faultRecord_keeps | with_reducible apply State.endOther_keeps | split | dsimp only
theorem State.staleDiscard_keeps {s u : State} {x1 x2 x3} (h : s.Keeps u) : State.Keeps s (State.staleDiscard u x1 x2 x3) := by
  unfold State.staleDiscard
  repeat' first | with_reducible assumption | with_reducible apply State.setEng_keeps | split | dsimp only
theorem State.fault_keeps {s u : State} {x1 x2 x3 x4} (h : s.Keeps u) : State.Keeps s (State.fault u x1 x2 x3 x4) := by
  unfold State.fault
  repeat' first | with_reducible assumption | with_reducible apply State.faultAt_keeps
theorem State.checkFault_keeps {s u : State} {x1 x2 x3} (h : s.Keeps u) : State.Keeps s (State.checkFault u x1 x2 x3) := by
  unfold State.checkFault
  repeat' first | with_reducible assumption | with_reducible apply State.freshNat_keeps | with_reducible apply State.fault_keeps | with_reducible apply State.log_keeps
theorem State.fetched_keeps {s u : State} {x1 x2 x3 x4} {f : State → Nat → Nat → Nat → State} (h : s.Keeps u) (hf : ∀ u a b c, s.Keeps u → s.Keeps (f u a b c)) : State.Keeps s (State.fetched u x1 x2 x3 x4 f) := by
  unfold State.fetched
  repeat' first | with_reducible assumption | with_reducible apply hf | with_reducible apply State.faultAt_keeps | with_reducible apply State.checkFault_keeps | split | dsimp only
theorem State.takeCycle_keeps {s u : State} {x1 x2 x3 x4} (h : s.Keeps u) : State.Keeps s (State.takeCycle u x1 x2 x3 x4) := by
  unfold State.takeCycle
  repeat' first | with_reducible assumption | with_reducible apply State.setEng_keeps
theorem State.holdThread_keeps {s u : State} {x1 x2 x3} (h : s.Keeps u) : State.Keeps s (State.holdThread u x1 x2 x3) := by
  unfold State.holdThread
  repeat' first | with_reducible assumption | with_reducible apply State.freshNat_keeps | with_reducible apply State.modThr_keeps | with_reducible apply State.moved_keeps | with_reducible apply State.faultRecord_keeps | split | dsimp only | (with_reducible refine State.Keeps.of2 (by with_reducible assumption) ?_)
theorem State.issue_keeps {s u : State} {x1} {f : State → Nat → Nat → Nat → State} (h : s.Keeps u) (hf : ∀ u a b c, s.Keeps u → s.Keeps (f u a b c)) : State.Keeps s (State.issue u x1 f) := by
  unfold State.issue
  repeat' first | with_reducible assumption | with_reducible apply State.fetched_keeps | with_reducible apply State.takeCycle_keeps | with_reducible apply State.holdThread_keeps | split | dsimp only
theorem State.faultFree_keeps {s u : State} {x1 x2 x3} (h : s.Keeps u) : State.Keeps s (State.faultFree u x1 x2 x3) := by
  unfold State.faultFree
  repeat' first | with_reducible assumption | with_reducible apply State.freshNat_keeps | with_reducible apply State.fault_keeps
theorem State.retire_keeps {s u : State} {x1 x2 x3 x4 x5} (h : s.Keeps u) : State.Keeps s (State.retire u x1 x2 x3 x4 x5) := by
  unfold State.retire
  repeat' first | with_reducible assumption | with_reducible apply State.modThr_keeps
theorem State.writeBack_keeps {s u : State} {x1 x2 x3 x4 x5} (h : s.Keeps u) : State.Keeps s (State.writeBack u x1 x2 x3 x4 x5) := by
  unfold State.writeBack
  repeat' first | with_reducible assumption | with_reducible apply State.retire_keeps
theorem State.writeOwed_keeps {s u : State} {x1 x2 x3 x4 x5} (h : s.Keeps u) : State.Keeps s (State.writeOwed u x1 x2 x3 x4 x5) := by
  unfold State.writeOwed
  repeat' first | with_reducible assumption | with_reducible apply State.retire_keeps
theorem State.writePlace_keeps {s u : State} {x1 x2 x3 x4} (h : s.Keeps u) : s.Keeps (u.writePlace x1 x2 x3 x4) := by
  unfold State.writePlace
  split
  · exact State.setEng_keeps h
  · exact State.setYard_keeps h
  · exact State.setEng_keeps h
  · exact State.bufWrite_keeps h
  · exact ⟨h.1, fun a => Mem.wf_wrN _ _ _ (h.2 a), h.3, h.4, h.5, h.6, h.7⟩
  · exact h
theorem State.dramLat_keeps {s u : State} (h : s.Keeps u) : State.Keeps s (State.dramLat u).2 := by
  unfold State.dramLat
  repeat' first | with_reducible assumption | with_reducible apply State.freshNat_keeps
theorem State.loadLat_keeps {s u : State} {x1} (h : s.Keeps u) : State.Keeps s (State.loadLat u x1).2 := by
  unfold State.loadLat
  repeat' first | with_reducible assumption | with_reducible apply State.dramLat_keeps | split
theorem State.yieldStatus_keeps {s u : State} {x1} (h : s.Keeps u) : State.Keeps s (State.yieldStatus u x1).2 := by
  unfold State.yieldStatus
  repeat' first | with_reducible assumption | with_reducible apply State.tickFree_keeps | split
theorem State.yieldItem_keeps {s u : State} {x1 x2 x3} (h : s.Keeps u) : State.Keeps s (State.yieldItem u x1 x2 x3) := by
  unfold State.yieldItem
  repeat' first | with_reducible assumption | with_reducible apply State.yieldStatus_keeps | with_reducible apply State.setEng_keeps | with_reducible apply State.moved_keeps | with_reducible apply State.dropName_keeps | split | dsimp only | (with_reducible refine State.Keeps.of2 (by with_reducible assumption) ?_) | (with_reducible refine State.Keeps.lit ?_)

/-! ### Access -/

theorem State.loadOp_keeps {s u : State} {x1 x2 x3 x4 x5 x6} (h : s.Keeps u) : State.Keeps s (State.loadOp u x1 x2 x3 x4 x5 x6) := by
  unfold State.loadOp
  repeat' first | with_reducible assumption | with_reducible apply State.issue_keeps | with_reducible apply State.fault_keeps | with_reducible apply State.checkFault_keeps | with_reducible apply State.loadLat_keeps | with_reducible apply State.writeOwed_keeps | with_reducible intro _ | split | dsimp only
theorem execLoad_keeps {s u : State} {x1 x2 x3 x4 x5 x6} (h : s.Keeps u) : State.KeepsNext s (execLoad x1 x2 x3 x4 x5 x6 u) := by
  unfold execLoad
  repeat' first | with_reducible assumption | with_reducible apply State.loadOp_keeps | with_reducible apply State.Keeps.next
theorem State.storeOp_keeps {s u : State} {x1 x2 x3 x4 x5 x6} (h : s.Keeps u) : State.Keeps s (State.storeOp u x1 x2 x3 x4 x5 x6) := by
  unfold State.storeOp
  repeat' first | with_reducible assumption | with_reducible apply State.issue_keeps | with_reducible apply State.fault_keeps | with_reducible apply State.checkFault_keeps | with_reducible apply State.retire_keeps | with_reducible apply State.writePlace_keeps | with_reducible intro _ | split | dsimp only
theorem State.atomicOp_keeps {s u : State} {x1 x2 x3 x4 x5 x6} (h : s.Keeps u) : State.Keeps s (State.atomicOp u x1 x2 x3 x4 x5 x6) := by
  unfold State.atomicOp
  repeat' first | with_reducible assumption | with_reducible apply State.issue_keeps | with_reducible apply State.fault_keeps | with_reducible apply State.checkFault_keeps | with_reducible apply State.writeOwed_keeps | with_reducible apply State.writePlace_keeps | with_reducible intro _ | split | dsimp only
theorem execSamax_keeps {s u : State} {x1 x2 x3 x4 x5} (h : s.Keeps u) : State.KeepsNext s (execSamax x1 x2 x3 x4 x5 u) := by
  unfold execSamax
  repeat' first | with_reducible assumption | with_reducible apply State.atomicOp_keeps | with_reducible apply State.Keeps.next
theorem execStore_keeps {s u : State} {x1 x2 x3 x4 x5 x6} (h : s.Keeps u) : State.KeepsNext s (execStore x1 x2 x3 x4 x5 x6 u) := by
  unfold execStore
  repeat' first | with_reducible assumption | with_reducible apply State.storeOp_keeps | with_reducible apply State.Keeps.next
theorem execSaadd_keeps {s u : State} {x1 x2 x3 x4 x5} (h : s.Keeps u) : State.KeepsNext s (execSaadd x1 x2 x3 x4 x5 u) := by
  unfold execSaadd
  repeat' first | with_reducible assumption | with_reducible apply State.atomicOp_keeps | with_reducible apply State.Keeps.next
theorem execSaswap_keeps {s u : State} {x1 x2 x3 x4 x5} (h : s.Keeps u) : State.KeepsNext s (execSaswap x1 x2 x3 x4 x5 u) := by
  unfold execSaswap
  repeat' first | with_reducible assumption | with_reducible apply State.atomicOp_keeps | with_reducible apply State.Keeps.next
theorem execSacas_keeps {s u : State} {x1 x2 x3 x4 x5} (h : s.Keeps u) : State.KeepsNext s (execSacas x1 x2 x3 x4 x5 u) := by
  unfold execSacas
  repeat' first | with_reducible assumption | with_reducible apply State.atomicOp_keeps | with_reducible apply State.Keeps.next
theorem execSamin_keeps {s u : State} {x1 x2 x3 x4 x5} (h : s.Keeps u) : State.KeepsNext s (execSamin x1 x2 x3 x4 x5 u) := by
  unfold execSamin
  repeat' first | with_reducible assumption | with_reducible apply State.atomicOp_keeps | with_reducible apply State.Keeps.next
theorem execSaand_keeps {s u : State} {x1 x2 x3 x4 x5} (h : s.Keeps u) : State.KeepsNext s (execSaand x1 x2 x3 x4 x5 u) := by
  unfold execSaand
  repeat' first | with_reducible assumption | with_reducible apply State.atomicOp_keeps | with_reducible apply State.Keeps.next
theorem execSaor_keeps {s u : State} {x1 x2 x3 x4 x5} (h : s.Keeps u) : State.KeepsNext s (execSaor x1 x2 x3 x4 x5 u) := by
  unfold execSaor
  repeat' first | with_reducible assumption | with_reducible apply State.atomicOp_keeps | with_reducible apply State.Keeps.next
theorem execSaxor_keeps {s u : State} {x1 x2 x3 x4 x5} (h : s.Keeps u) : State.KeepsNext s (execSaxor x1 x2 x3 x4 x5 u) := by
  unfold execSaxor
  repeat' first | with_reducible assumption | with_reducible apply State.atomicOp_keeps | with_reducible apply State.Keeps.next
theorem execSainc64_keeps {s u : State} {x1 x2 x3 x4} (h : s.Keeps u) : State.KeepsNext s (execSainc64 x1 x2 x3 x4 u) := by
  unfold execSainc64
  repeat' first | with_reducible assumption | with_reducible apply State.issue_keeps | with_reducible apply State.fault_keeps | with_reducible apply State.checkFault_keeps | with_reducible apply State.retire_keeps | with_reducible apply State.writePlace_keeps | with_reducible apply State.Keeps.next | with_reducible intro _ | split | dsimp only

/-! ### HostOps -/

theorem State.unsupported_keeps {s u : State} {x1 x2} (h : s.Keeps u) : State.Keeps s (State.unsupported u x1 x2) := by
  unfold State.unsupported
  repeat' first | with_reducible assumption | with_reducible apply State.aerAdvisory_keeps | with_reducible apply State.aerUncor_keeps | split
theorem State.doorbellWrite_keeps {s u : State} {x1 x2} (h : s.Keeps u) : State.Keeps s (State.doorbellWrite u x1 x2) := by
  unfold State.doorbellWrite
  repeat' first | with_reducible assumption | with_reducible apply State.unsupported_keeps | with_reducible apply State.log_keeps | with_reducible apply State.hostUse_keeps | with_reducible apply State.setFn_keeps | split | dsimp only
theorem State.adminBaseWord_keeps {s u : State} {x1 x2 x3} (h : s.Keeps u) : State.Keeps s (State.adminBaseWord u x1 x2 x3) := by
  unfold State.adminBaseWord
  repeat' first | with_reducible assumption | with_reducible apply State.setFn_keeps
theorem State.badDoorbell_keeps {s u : State} {x1 x2 x3} (h : s.Keeps u) : State.Keeps s (State.badDoorbell u x1 x2 x3) := by
  unfold State.badDoorbell
  repeat' first | with_reducible assumption | with_reducible apply State.log_keeps | with_reducible apply State.setFn_keeps
theorem State.headWrite_keeps {s u : State} {x1 x2 x3} (h : s.Keeps u) : State.Keeps s (State.headWrite u x1 x2 x3) := by
  unfold State.headWrite
  repeat' first | with_reducible assumption | with_reducible apply State.badDoorbell_keeps | with_reducible apply State.log_keeps | with_reducible apply State.drain_keeps | with_reducible apply State.setQueue_keeps | split | dsimp only
theorem State.adminCtl_keeps {s u : State} {x1 x2} (h : s.Keeps u) : State.Keeps s (State.adminCtl u x1 x2) := by
  unfold State.adminCtl
  repeat' first | with_reducible assumption | with_reducible apply State.log_keeps | with_reducible apply State.forgetQueue_keeps | split | dsimp only | (with_reducible refine State.Keeps.lit ?_)
theorem State.tailWrite_keeps {s u : State} {x1 x2 x3} (h : s.Keeps u) : State.Keeps s (State.tailWrite u x1 x2 x3) := by
  unfold State.tailWrite
  repeat' first | with_reducible assumption | with_reducible apply State.badDoorbell_keeps | with_reducible apply State.log_keeps | with_reducible apply State.setQueue_keeps | split | dsimp only
theorem State.applyDoorbell_keeps {s u : State} {x1 x2 x3} (h : s.Keeps u) : State.Keeps s (State.applyDoorbell u x1 x2 x3) := by
  unfold State.applyDoorbell
  repeat' first | with_reducible assumption | with_reducible apply State.tailWrite_keeps | with_reducible apply State.headWrite_keeps | with_reducible apply State.adminBaseWord_keeps | with_reducible apply State.adminCtl_keeps | with_reducible apply State.badDoorbell_keeps | split

/-! ### NvmeOps -/

theorem State.cancelFor_keeps {s u : State} {x1} (h : s.Keeps u) : State.Keeps s (State.cancelFor u x1) := by
  unfold State.cancelFor
  repeat' first | with_reducible assumption | dsimp only | (with_reducible refine State.Keeps.lit ?_)
theorem State.nvFreeOp_keeps {s u : State} {x1} (h : s.Keeps u) : State.Keeps s (State.nvFreeOp u x1) := by
  unfold State.nvFreeOp
  repeat' first | with_reducible assumption | with_reducible apply State.killOp_keeps | split
theorem State.setCtl_keeps {s u : State} {x1 x2} (h : s.Keeps u) : State.Keeps s (State.setCtl u x1 x2) := by
  unfold State.setCtl
  repeat' first | with_reducible assumption | dsimp only | (with_reducible refine State.Keeps.lit ?_)
theorem State.nvReset_keeps {s u : State} {x1} (h : s.Keeps u) : State.Keeps s (State.nvReset u x1) := by
  unfold State.nvReset
  repeat' first | with_reducible assumption | with_reducible apply State.removeOwner_keeps | with_reducible apply State.cancelFor_keeps | with_reducible apply State.killOp_keeps | with_reducible apply State.nvFreeOp_keeps | with_reducible apply State.setCtl_keeps | with_reducible apply State.Keeps.foldl | with_reducible intro _ | split
theorem State.modCtl_keeps {s u : State} {x1 x2} (h : s.Keeps u) : State.Keeps s (State.modCtl u x1 x2) := by
  unfold State.modCtl
  repeat' first | with_reducible assumption | with_reducible apply State.setCtl_keeps
theorem State.nvSettle_keeps {s u : State} {x1 x2 x3 x4 x5 x6 x7 x8} (h : s.Keeps u) : State.Keeps s (State.nvSettle u x1 x2 x3 x4 x5 x6 x7 x8) := by
  unfold State.nvSettle
  repeat' first | with_reducible assumption | with_reducible apply State.tickFree_keeps | with_reducible apply State.modCtl_keeps
theorem State.nvFinishOut_keeps {s u : State} {x1 x2 x3} (h : s.Keeps u) : State.Keeps s (State.nvFinishOut u x1 x2 x3) := by
  unfold State.nvFinishOut
  repeat' first | with_reducible assumption | with_reducible apply State.modCtl_keeps | with_reducible apply State.nvSettle_keeps
theorem State.nvComplete_keeps {s u : State} {x1 x2} (h : s.Keeps u) : State.Keeps s (State.nvComplete u x1 x2) := by
  unfold State.nvComplete
  repeat' first | with_reducible assumption | with_reducible apply State.nvFinishOut_keeps | split
theorem State.nvPowerSet_keeps {s u : State} {x1} (h : s.Keeps u) : State.Keeps s (State.nvPowerSet u x1) := by
  unfold State.nvPowerSet
  repeat' first | with_reducible assumption | with_reducible apply State.nvSettle_keeps | with_reducible apply State.modCtl_keeps | split
theorem State.nvMeetEntry_keeps {s u : State} {x1} (h : s.Keeps u) : State.Keeps s (State.nvMeetEntry u x1) := by
  unfold State.nvMeetEntry
  repeat' first | with_reducible assumption | with_reducible apply State.nvPowerSet_keeps | with_reducible apply State.modCtl_keeps | split
theorem State.deferNv_keeps {s u : State} {x1} (h : s.Keeps u) : State.Keeps s (State.deferNv u x1) := by
  unfold State.deferNv
  repeat' first | with_reducible assumption | with_reducible apply State.modInstCtr_keeps | split
theorem State.nvFetch_keeps {s u : State} {x1 x2} {f : State → Option Nat → State} (h : s.Keeps u) (hf : ∀ u o, s.Keeps u → s.Keeps (f u o)) : State.Keeps s (State.nvFetch u x1 x2 f) := by
  unfold State.nvFetch
  repeat' first | with_reducible assumption | with_reducible apply hf | with_reducible apply State.modCtl_keeps | with_reducible apply State.nvMeetEntry_keeps | with_reducible apply State.nvSettle_keeps | with_reducible apply State.deferNv_keeps | with_reducible apply State.setOp_keeps | split
theorem State.nvEndOut_keeps {s u : State} {x1 x2 x3} (h : s.Keeps u) : State.Keeps s (State.nvEndOut u x1 x2 x3) := by
  unfold State.nvEndOut
  repeat' first | with_reducible assumption | with_reducible apply State.removeOwner_keeps | with_reducible apply State.cancelFor_keeps | with_reducible apply State.nvFinishOut_keeps | with_reducible apply State.setOp_keeps | split | dsimp only
theorem State.nvEnable_keeps {s u : State} {x1 x2} (h : s.Keeps u) : State.Keeps s (State.nvEnable u x1 x2) := by
  unfold State.nvEnable
  repeat' first | with_reducible assumption | with_reducible apply State.modCtl_keeps
theorem State.nvModerate_keeps {s u : State} {x1} (h : s.Keeps u) : State.Keeps s (State.nvModerate u x1) := by
  unfold State.nvModerate
  repeat' first | with_reducible assumption | with_reducible apply State.msix_keeps | with_reducible apply State.modCtl_keeps | with_reducible apply State.Keeps.foldl | with_reducible intro _ | split
theorem State.nvWrite_keeps {s u : State} {x1 x2} (h : s.Keeps u) : State.Keeps s (State.nvWrite u x1 x2) := by
  unfold State.nvWrite
  repeat' first | with_reducible assumption | with_reducible apply State.nvFreeOp_keeps | with_reducible apply State.setCtl_keeps | with_reducible apply State.hostUse_keeps | with_reducible apply State.hostWrite_keeps | split | dsimp only
theorem State.nvDrain_keeps {s u : State} {x1} (h : s.Keeps u) : State.Keeps s (State.nvDrain u x1) := by
  unfold State.nvDrain
  repeat' first | with_reducible assumption | with_reducible apply State.nvWrite_keeps | with_reducible apply State.setCtl_keeps | with_reducible apply State.Keeps.foldl | with_reducible intro _ | split | dsimp only
theorem State.nvWake_keeps {s u : State} {x1} (h : s.Keeps u) : State.Keeps s (State.nvWake u x1) := by
  unfold State.nvWake
  repeat' first | with_reducible assumption | with_reducible apply State.setCtl_keeps | split | dsimp only
theorem State.nvEvent_keeps {s u : State} {x1 x2 x3} (h : s.Keeps u) : State.Keeps s (State.nvEvent u x1 x2 x3) := by
  unfold State.nvEvent
  repeat' first | with_reducible assumption | with_reducible apply State.setCtl_keeps | with_reducible apply State.pme_keeps | with_reducible apply State.nvSettle_keeps | split | dsimp only
theorem State.nvHead_keeps {s u : State} {x1 x2 x3} (h : s.Keeps u) : State.Keeps s (State.nvHead u x1 x2 x3) := by
  unfold State.nvHead
  repeat' first | with_reducible assumption | with_reducible apply State.nvEvent_keeps | with_reducible apply State.badDoorbell_keeps | with_reducible apply State.log_keeps | with_reducible apply State.setCtl_keeps | split | dsimp only
theorem State.nvFlush_keeps {s u : State} {x1} (h : s.Keeps u) : State.Keeps s (State.nvFlush u x1) := by
  unfold State.nvFlush
  repeat' first | with_reducible assumption | with_reducible apply State.nvEvent_keeps | with_reducible apply State.setCtl_keeps | with_reducible apply State.Keeps.foldl | with_reducible intro _
theorem State.nvDropOut_keeps {s u : State} {x1 x2} (h : s.Keeps u) : State.Keeps s (State.nvDropOut u x1 x2) := by
  unfold State.nvDropOut
  repeat' first | with_reducible assumption | with_reducible apply State.removeOwner_keeps | with_reducible apply State.cancelFor_keeps | with_reducible apply State.killOp_keeps | with_reducible apply State.modCtl_keeps | split
theorem State.nvTail_keeps {s u : State} {x1 x2 x3} (h : s.Keeps u) : State.Keeps s (State.nvTail u x1 x2 x3) := by
  unfold State.nvTail
  repeat' first | with_reducible assumption | with_reducible apply State.nvEvent_keeps | with_reducible apply State.badDoorbell_keeps | with_reducible apply State.log_keeps | with_reducible apply State.setCtl_keeps | with_reducible apply State.nvWake_keeps | split | dsimp only
theorem State.nvAdminCtl_keeps {s u : State} {x1 x2} (h : s.Keeps u) : State.Keeps s (State.nvAdminCtl u x1 x2) := by
  unfold State.nvAdminCtl
  repeat' first | with_reducible assumption | with_reducible apply State.log_keeps | split | dsimp only | (with_reducible refine State.Keeps.lit ?_)
theorem State.applyNvDoorbell_keeps {s u : State} {x1 x2 x3} (h : s.Keeps u) : State.Keeps s (State.applyNvDoorbell u x1 x2 x3) := by
  unfold State.applyNvDoorbell
  repeat' first | with_reducible assumption | with_reducible apply State.nvTail_keeps | with_reducible apply State.nvHead_keeps | with_reducible apply State.adminBaseWord_keeps | with_reducible apply State.nvAdminCtl_keeps | with_reducible apply State.nvEvent_keeps | with_reducible apply State.badDoorbell_keeps | split
theorem prpWrite_keeps {s u : State} {x1 x2 x3} (h : s.Keeps u) : State.Keeps s (prpWrite x1 u x2 x3) := by
  induction x2 generalizing u x1 x3 with
  | nil => unfold prpWrite; repeat' first | with_reducible assumption
  | cons a l ih => unfold prpWrite; repeat' first | with_reducible assumption | with_reducible apply ih | with_reducible apply State.dataWrite_keeps | split
theorem State.nvData_keeps {s u : State} {x1 x2} (h : s.Keeps u) : State.Keeps s (State.nvData u x1 x2) := by
  unfold State.nvData
  repeat' first | with_reducible assumption | with_reducible apply prpWrite_keeps

/-! ### Tables -/

theorem State.lookupCheck_keeps {s u : State} {x1 x2 x3} (h : s.Keeps u) : State.Keeps s (State.lookupCheck u x1 x2 x3).2.2.2 := by
  unfold State.lookupCheck
  repeat' first | with_reducible assumption | with_reducible apply State.wordFailed_keeps | with_reducible apply State.lineFailed_keeps | split | dsimp only | (with_reducible refine State.Keeps.lit ?_)
theorem State.touchLine_keeps {s u : State} {x1} (h : s.Keeps u) : State.Keeps s (State.touchLine u x1).2 := by
  unfold State.touchLine
  repeat' first | with_reducible assumption | split | dsimp only | (with_reducible refine State.Keeps.lit ?_)
theorem serveLines_keeps {s u : State} {x1 x2} (h : s.Keeps u) : State.Keeps s (serveLines x1 x2 u).2 := by
  induction x2 generalizing u x1 with
  | nil => unfold serveLines; repeat' first | with_reducible assumption
  | cons a l ih => unfold serveLines; repeat' first | with_reducible assumption | with_reducible apply ih | with_reducible apply State.touchLine_keeps | split | (with_reducible refine State.Keeps.of2 (by with_reducible assumption) ?_) | (with_reducible refine State.Keeps.lit ?_)
theorem State.lookup_keeps {s u : State} {x1 x2 x3} (h : s.Keeps u) : State.Keeps s (State.lookup u x1 x2 x3).2.2 := by
  unfold State.lookup
  repeat' first | with_reducible assumption | with_reducible apply serveLines_keeps | split | dsimp only | (with_reducible refine State.Keeps.of2 (by with_reducible assumption) ?_) | (with_reducible refine State.Keeps.lit ?_)
theorem State.lookupChecked_keeps {s u : State} {x1 x2 x3 x4} (h : s.Keeps u) : State.Keeps s (State.lookupChecked u x1 x2 x3 x4).2.2.2 := by
  unfold State.lookupChecked
  repeat' first | with_reducible assumption | with_reducible apply State.lookup_keeps | with_reducible apply State.lookupCheck_keeps | split | dsimp only | (with_reducible refine State.Keeps.of22 (by with_reducible assumption) ?_) | (with_reducible refine State.Keeps.of222 (by with_reducible assumption) ?_) | (with_reducible refine State.Keeps.lit ?_)

/-! ### Packet -/

theorem execBffree_keeps {s u : State} {x1 x2 x3 x4 x5} (h : s.Keeps u) : State.KeepsNext s (execBffree x1 x2 x3 x4 u x5) := by
  unfold execBffree
  repeat' first | with_reducible assumption | with_reducible apply State.issue_keeps | with_reducible apply State.checkFault_keeps | with_reducible apply State.loseEntry_keeps | with_reducible apply State.faultFree_keeps | with_reducible apply State.log_keeps | with_reducible apply State.modPool_keeps | with_reducible apply State.writeBack_keeps | with_reducible apply State.modThr_keeps | with_reducible apply State.Keeps.next | with_reducible intro _ | split | dsimp only
theorem execBfown_keeps {s u : State} {x1 x2 x3 x4} (h : s.Keeps u) : State.KeepsNext s (execBfown x1 x2 x3 x4 u) := by
  unfold execBfown
  repeat' first | with_reducible assumption | with_reducible apply State.issue_keeps | with_reducible apply State.faultFree_keeps | with_reducible apply State.addOwner_keeps | with_reducible apply State.writeBack_keeps | with_reducible apply State.Keeps.next | with_reducible intro _ | split | dsimp only | (with_reducible refine State.Keeps.ofSome (by with_reducible assumption) ?_)
theorem dramReadsLat_keeps {s u : State} {x1} (h : s.Keeps u) : State.Keeps s (dramReadsLat x1 u).2 := by
  induction x1 generalizing u with
  | zero => unfold dramReadsLat; repeat' first | with_reducible assumption
  | succ k ih => unfold dramReadsLat; repeat' first | with_reducible assumption | with_reducible apply ih | with_reducible apply State.dramLat_keeps
theorem execTlkp_keeps {s u : State} {x1 x2 x3 x4 x5} (h : s.Keeps u) : State.KeepsNext s (execTlkp x1 x2 x3 x4 u x5) := by
  unfold execTlkp
  repeat' first | with_reducible assumption | with_reducible apply State.issue_keeps | with_reducible apply State.fault_keeps | with_reducible apply State.writeOwed_keeps | with_reducible apply State.lookupChecked_keeps | with_reducible apply dramReadsLat_keeps | with_reducible apply State.writePlace_keeps | with_reducible apply State.Keeps.next | with_reducible intro _ | split | dsimp only
theorem execPksel_keeps {s u : State} {x1 x2} (h : s.Keeps u) : State.KeepsNext s (execPksel x1 x2 u) := by
  unfold execPksel
  repeat' first | with_reducible assumption | with_reducible apply State.issue_keeps | with_reducible apply State.faultFree_keeps | with_reducible apply State.retire_keeps | with_reducible apply State.Keeps.next | with_reducible intro _ | split | dsimp only
theorem execBfalloc_keeps {s u : State} {x1 x2 x3 x4} (h : s.Keeps u) : State.KeepsNext s (execBfalloc x1 x2 x3 u x4) := by
  unfold execBfalloc
  repeat' first | with_reducible assumption | with_reducible apply State.issue_keeps | with_reducible apply State.allocChecked_keeps | with_reducible apply State.writeBack_keeps | with_reducible apply State.modThr_keeps | with_reducible apply State.Keeps.next | with_reducible intro _ | split | dsimp only | (with_reducible refine State.Keeps.of2 (by with_reducible assumption) ?_) | (with_reducible refine State.Keeps.lit ?_)
theorem execPost_keeps {s u : State} {x1 x2 x3 x4} (h : s.Keeps u) : State.KeepsNext s (execPost x1 x2 x3 x4 u) := by
  unfold execPost
  repeat' first | with_reducible assumption | with_reducible apply State.issue_keeps | with_reducible apply State.fault_keeps | with_reducible apply State.writeBack_keeps | with_reducible apply State.modThr_keeps | with_reducible apply State.Keeps.next | with_reducible intro _ | split | dsimp only
theorem execEnq_keeps {s u : State} {x1 x2 x3 x4} (h : s.Keeps u) : State.KeepsNext s (execEnq x1 x2 x3 x4 u) := by
  unfold execEnq
  repeat' first | with_reducible assumption | with_reducible apply State.issue_keeps | with_reducible apply State.fault_keeps | with_reducible apply State.faultFree_keeps | with_reducible apply State.writeBack_keeps | with_reducible apply State.modThr_keeps | with_reducible apply State.Keeps.next | with_reducible intro _ | split | dsimp only

end Sys2Proof.Machine
end

