-- ==== Sys2Proof/Laws/KeepsTraffic.lean ====
section
/-!
SUPPORT. What no command undoes (Keeps.lean): host queues, backends, classification, frames, egress, channels, mailboxes and Mbadel's shared operations.
-/

namespace Sys2Proof.Machine
open Sys2Proof

-- These many short proofs are checked one after another: side by side they take more memory than they save time.
set_option Elab.async false

/-! ### QueueCmds -/

theorem State.deferOffer_keeps {s u : State} {x1} (h : s.Keeps u) : State.Keeps s (State.deferOffer u x1) := by
  unfold State.deferOffer
  repeat' first | with_reducible assumption | with_reducible apply State.modInstCtr_keeps | split
theorem State.badCaravan_keeps {s u : State} {x1 x2 x3 x4 x5} (h : s.Keeps u) : State.Keeps s (State.badCaravan u x1 x2 x3 x4 x5) := by
  unfold State.badCaravan
  repeat' first | with_reducible assumption | with_reducible apply State.drain_keeps | with_reducible apply State.setQueue_keeps | with_reducible apply State.setOp_keeps
theorem State.adminOp_keeps {s u : State} {x1 x2 x3} {f : State → Nat → Nat → State} (h : s.Keeps u) (hf : ∀ u a b, s.Keeps u → s.Keeps (f u a b)) : State.Keeps s (State.adminOp u x1 x2 x3 f) := by
  unfold State.adminOp
  repeat' first | with_reducible assumption | with_reducible apply hf | with_reducible apply State.deferOffer_keeps | with_reducible apply State.badCaravan_keeps | with_reducible apply State.setQueue_keeps | with_reducible apply State.setOp_keeps | split
theorem State.adminDue_keeps {s u : State} {x1} (h : s.Keeps u) : State.Keeps s (State.adminDue u x1) := by
  unfold State.adminDue
  repeat' first | with_reducible assumption | dsimp only | (with_reducible refine State.Keeps.lit ?_)
theorem State.adminChange_keeps {s u : State} {x1} (h : s.Keeps u) : State.Keeps s (State.adminChange u x1) := by
  unfold State.adminChange
  repeat' first | with_reducible assumption | dsimp only | (with_reducible refine State.Keeps.lit ?_)
theorem State.endQueueOp_keeps {s u : State} {x1 x2 x3 x4 x5} (h : s.Keeps u) : State.Keeps s (State.endQueueOp u x1 x2 x3 x4 x5) := by
  unfold State.endQueueOp
  repeat' first | with_reducible assumption | with_reducible apply State.adminOp_keeps | with_reducible apply State.adminDue_keeps | with_reducible apply State.adminChange_keeps | with_reducible intro _ | split | dsimp only
theorem execModerationExpiry_keeps {s u : State} {x1 x2} (h : s.Keeps u) : State.KeepsNext s (execModerationExpiry x1 x2 u) := by
  unfold execModerationExpiry
  repeat' first | with_reducible assumption | with_reducible apply State.msix_keeps | with_reducible apply State.setQueue_keeps | with_reducible apply State.Keeps.next | split
theorem State.queueFailed_keeps {s u : State} {x1 x2} (h : s.Keeps u) : State.Keeps s (State.queueFailed u x1 x2) := by
  unfold State.queueFailed
  repeat' first | with_reducible assumption | with_reducible apply State.sramFailed_keeps | with_reducible apply State.log_keeps | with_reducible apply State.setQueue_keeps | split
theorem execDoorbell_keeps {s u : State} {x1 x2 x3} (h : s.Keeps u) : State.KeepsNext s (execDoorbell x1 x2 u x3) := by
  unfold execDoorbell
  repeat' first | with_reducible assumption | with_reducible apply State.doorbellWrite_keeps | with_reducible apply State.queueFailed_keeps | with_reducible apply State.Keeps.next | split
theorem execSetModeration_keeps {s u : State} {x1 x2 x3} (h : s.Keeps u) : State.KeepsNext s (execSetModeration x1 x2 x3 u) := by
  unfold execSetModeration
  repeat' first | with_reducible assumption | with_reducible apply State.adminOp_keeps | with_reducible apply State.adminDue_keeps | with_reducible apply State.adminChange_keeps | with_reducible apply State.Keeps.next | with_reducible intro _ | split | dsimp only
theorem execDestroyQueue_keeps {s u : State} {x1 x2 x3} (h : s.Keeps u) : State.KeepsNext s (execDestroyQueue x1 x2 x3 u) := by
  unfold execDestroyQueue
  repeat' first | with_reducible assumption | with_reducible apply State.endQueueOp_keeps | with_reducible apply State.Keeps.next
theorem execCompletionHeadDoorbell_keeps {s u : State} {x1 x2} (h : s.Keeps u) : State.KeepsNext s (execCompletionHeadDoorbell x1 x2 u) := by
  unfold execCompletionHeadDoorbell
  repeat' first | with_reducible assumption | with_reducible apply State.doorbellWrite_keeps | with_reducible apply State.Keeps.next
theorem State.fetchOne_keeps {s u : State} {x1 x2 x3 x4} (h : s.Keeps u) : State.Keeps s (State.fetchOne u x1 x2 x3 x4) := by
  unfold State.fetchOne
  repeat' first | with_reducible assumption | with_reducible apply State.deferOffer_keeps | with_reducible apply State.badCaravan_keeps | with_reducible apply State.alloc_keeps | with_reducible apply State.allocWaits_keeps | with_reducible apply freeWords_keeps | with_reducible apply State.setQueue_keeps | with_reducible apply State.setOp_keeps | with_reducible apply State.startRead_keeps | with_reducible apply State.swapOwner_keeps | with_reducible apply State.bufWrite_keeps | with_reducible apply State.freeEngine_keeps | with_reducible apply State.arrive_keeps | split | dsimp only | (with_reducible refine State.Keeps.of2 (by with_reducible assumption) ?_)
theorem fetchEach_keeps {s u : State} {x1 x2 x3 x4} (h : s.Keeps u) : State.Keeps s (fetchEach x1 x2 x3 x4 u) := by
  induction x4 generalizing u x1 x2 x3 with
  | nil => unfold fetchEach; repeat' first | with_reducible assumption
  | cons a l ih => unfold fetchEach; repeat' first | with_reducible assumption | with_reducible apply ih | with_reducible apply State.fetchOne_keeps | split | dsimp only
theorem State.fetchCaravan_keeps {s u : State} {x1 x2 x3 x4} (h : s.Keeps u) : State.Keeps s (State.fetchCaravan u x1 x2 x3 x4) := by
  unfold State.fetchCaravan
  repeat' first | with_reducible assumption | with_reducible apply fetchEach_keeps
theorem execRdmaRead_keeps {s u : State} {x1 x2 x3} (h : s.Keeps u) : State.KeepsNext s (execRdmaRead x1 x2 x3 u) := by
  unfold execRdmaRead
  repeat' first | with_reducible assumption | with_reducible apply State.fetchCaravan_keeps | with_reducible apply State.Keeps.next
theorem execCompressJob_keeps {s u : State} {x1 x2 x3} (h : s.Keeps u) : State.KeepsNext s (execCompressJob x1 x2 x3 u) := by
  unfold execCompressJob
  repeat' first | with_reducible assumption | with_reducible apply State.fetchCaravan_keeps | with_reducible apply State.Keeps.next
theorem execGcmSealJob_keeps {s u : State} {x1 x2 x3} (h : s.Keeps u) : State.KeepsNext s (execGcmSealJob x1 x2 x3 u) := by
  unfold execGcmSealJob
  repeat' first | with_reducible assumption | with_reducible apply State.fetchCaravan_keeps | with_reducible apply State.Keeps.next
theorem execAbort_keeps {s u : State} {x1 x2 x3} (h : s.Keeps u) : State.KeepsNext s (execAbort x1 x2 x3 u) := by
  unfold execAbort
  repeat' first | with_reducible assumption | with_reducible apply State.adminOp_keeps | with_reducible apply State.adminDue_keeps | with_reducible apply State.Keeps.next | with_reducible intro _ | split | dsimp only
theorem State.postRx_keeps {s u : State} {x1 x2 x3} (h : s.Keeps u) : State.Keeps s (State.postRx x1 x2 u x3) := by
  unfold State.postRx
  repeat' first | with_reducible assumption | with_reducible apply State.drain_keeps | with_reducible apply State.setQueue_keeps | split
theorem execRxPost_keeps {s u : State} {x1 x2 x3} (h : s.Keeps u) : State.KeepsNext s (execRxPost x1 x2 x3 u) := by
  unfold execRxPost
  repeat' first | with_reducible assumption | with_reducible apply State.postRx_keeps | with_reducible apply State.Keeps.next | with_reducible apply State.Keeps.foldl | with_reducible intro _
theorem execTx_keeps {s u : State} {x1 x2 x3} (h : s.Keeps u) : State.KeepsNext s (execTx x1 x2 x3 u) := by
  unfold execTx
  repeat' first | with_reducible assumption | with_reducible apply State.fetchCaravan_keeps | with_reducible apply State.Keeps.next
theorem execAdminCtlEnable_keeps {s u : State} {x1 x2} (h : s.Keeps u) : State.KeepsNext s (execAdminCtlEnable x1 x2 u) := by
  unfold execAdminCtlEnable
  repeat' first | with_reducible assumption | with_reducible apply State.doorbellWrite_keeps | with_reducible apply State.Keeps.next
theorem execAdminCtlDisable_keeps {s u : State} {x1 x2} (h : s.Keeps u) : State.KeepsNext s (execAdminCtlDisable x1 x2 u) := by
  unfold execAdminCtlDisable
  repeat' first | with_reducible assumption | with_reducible apply State.doorbellWrite_keeps | with_reducible apply State.Keeps.next
theorem execRdmaWrite_keeps {s u : State} {x1 x2 x3} (h : s.Keeps u) : State.KeepsNext s (execRdmaWrite x1 x2 x3 u) := by
  unfold execRdmaWrite
  repeat' first | with_reducible assumption | with_reducible apply State.fetchCaravan_keeps | with_reducible apply State.Keeps.next
theorem execDecompressJob_keeps {s u : State} {x1 x2 x3} (h : s.Keeps u) : State.KeepsNext s (execDecompressJob x1 x2 x3 u) := by
  unfold execDecompressJob
  repeat' first | with_reducible assumption | with_reducible apply State.fetchCaravan_keeps | with_reducible apply State.Keeps.next
theorem execQueryQueue_keeps {s u : State} {x1 x2 x3} (h : s.Keeps u) : State.KeepsNext s (execQueryQueue x1 x2 x3 u) := by
  unfold execQueryQueue
  repeat' first | with_reducible assumption | with_reducible apply State.adminOp_keeps | with_reducible apply State.adminDue_keeps | with_reducible apply State.Keeps.next | with_reducible intro _ | split | dsimp only
theorem execAdminBaseWrite_keeps {s u : State} {x1 x2} (h : s.Keeps u) : State.KeepsNext s (execAdminBaseWrite x1 x2 u) := by
  unfold execAdminBaseWrite
  repeat' first | with_reducible assumption | with_reducible apply State.doorbellWrite_keeps | with_reducible apply State.Keeps.next
theorem execCreateQueue_keeps {s u : State} {x1 x2 x3} (h : s.Keeps u) : State.KeepsNext s (execCreateQueue x1 x2 x3 u) := by
  unfold execCreateQueue
  repeat' first | with_reducible assumption | with_reducible apply State.adminOp_keeps | with_reducible apply State.adminDue_keeps | with_reducible apply State.adminChange_keeps | with_reducible apply State.Keeps.next | with_reducible intro _ | split | dsimp only
theorem execGcmOpenJob_keeps {s u : State} {x1 x2 x3} (h : s.Keeps u) : State.KeepsNext s (execGcmOpenJob x1 x2 x3 u) := by
  unfold execGcmOpenJob
  repeat' first | with_reducible assumption | with_reducible apply State.fetchCaravan_keeps | with_reducible apply State.Keeps.next
theorem execResetQueue_keeps {s u : State} {x1 x2 x3} (h : s.Keeps u) : State.KeepsNext s (execResetQueue x1 x2 x3 u) := by
  unfold execResetQueue
  repeat' first | with_reducible assumption | with_reducible apply State.endQueueOp_keeps | with_reducible apply State.Keeps.next

/-! ### Backends -/

theorem State.setBcmd_keeps {s u : State} {x1 x2} (h : s.Keeps u) : State.Keeps s (State.setBcmd u x1 x2) := by
  unfold State.setBcmd
  repeat' first | with_reducible assumption | dsimp only | (with_reducible refine State.Keeps.lit ?_)
theorem State.toBackend_keeps {s u : State} {x1 x2 x3} (h : s.Keeps u) : State.Keeps s (State.toBackend u x1 x2 x3) := by
  unfold State.toBackend
  repeat' first | with_reducible assumption | dsimp only | (with_reducible refine State.Keeps.lit ?_)
theorem State.setBackend_keeps {s u : State} {x1 x2} (h : s.Keeps u) : State.Keeps s (State.setBackend u x1 x2) := by
  unfold State.setBackend
  repeat' first | with_reducible assumption | dsimp only | (with_reducible refine State.Keeps.lit ?_)
theorem State.useQueue_keeps {s u : State} {x1 x2 x3} (h : s.Keeps u) : State.Keeps s (State.useQueue u x1 x2 x3) := by
  unfold State.useQueue
  repeat' first | with_reducible assumption | with_reducible apply State.toBackend_keeps | with_reducible apply State.setBackend_keeps | split
theorem State.trySend_keeps {s u : State} {x1} (h : s.Keeps u) : State.Keeps s (State.trySend u x1) := by
  unfold State.trySend
  repeat' first | with_reducible assumption | with_reducible apply State.setBcmd_keeps | with_reducible apply State.toBackend_keeps | with_reducible apply State.useQueue_keeps | split | dsimp only
theorem State.pumpBackends_keeps {s u : State} (h : s.Keeps u) : State.Keeps s (State.pumpBackends u) := by
  unfold State.pumpBackends
  repeat' first | with_reducible assumption | with_reducible apply State.trySend_keeps | with_reducible apply State.Keeps.foldl | with_reducible intro _
theorem State.backendAnswer_keeps {s u : State} {x1 x2 x3 x4 x5 x6} (h : s.Keeps u) : State.Keeps s (State.backendAnswer u x1 x2 x3 x4 x5 x6).2 := by
  unfold State.backendAnswer
  repeat' first | with_reducible assumption | with_reducible apply State.alloc_keeps | with_reducible apply State.reply_keeps | with_reducible apply State.bufWrite_keeps | split | dsimp only | (with_reducible refine State.Keeps.of2 (by with_reducible assumption) ?_)
theorem State.backendSubmitReq_keeps {s u : State} {x1} (h : s.Keeps u) : State.Keeps s (State.backendSubmitReq u x1) := by
  unfold State.backendSubmitReq
  repeat' first | with_reducible assumption | with_reducible apply State.reply_keeps | with_reducible apply State.setBcmd_keeps | with_reducible apply State.trySend_keeps | split | dsimp only | (with_reducible refine State.Keeps.lit ?_)
theorem execBackendSubmit_keeps {s u : State} (h : s.Keeps u) : State.KeepsNext s (execBackendSubmit u) := by
  unfold execBackendSubmit
  repeat' first | with_reducible assumption | with_reducible apply State.serve_keeps | with_reducible apply State.backendSubmitReq_keeps | with_reducible apply State.Keeps.next | with_reducible intro _
theorem State.endBcmd_keeps {s u : State} {x1 x2 x3} (h : s.Keeps u) : State.Keeps s (State.endBcmd u x1 x2 x3) := by
  unfold State.endBcmd
  repeat' first | with_reducible assumption | with_reducible apply State.pumpBackends_keeps | with_reducible apply State.setBcmd_keeps | with_reducible apply State.backendAnswer_keeps | with_reducible apply State.reply_keeps | split | dsimp only
theorem execBackendCommandTimeout_keeps {s u : State} {x1} (h : s.Keeps u) : State.KeepsNext s (execBackendCommandTimeout x1 u) := by
  unfold execBackendCommandTimeout
  repeat' first | with_reducible assumption | with_reducible apply State.pumpBackends_keeps | with_reducible apply State.setBcmd_keeps | with_reducible apply State.endBcmd_keeps | with_reducible apply State.Keeps.next | split
theorem State.noteResponse_keeps {s u : State} {x1 x2} (h : s.Keeps u) : State.Keeps s (State.noteResponse u x1 x2) := by
  unfold State.noteResponse
  repeat' first | with_reducible assumption | with_reducible apply State.modCtl_keeps
theorem State.backendReplyIn_keeps {s u : State} {x1 x2 x3 x4 x5 x6} (h : s.Keeps u) : State.Keeps s (State.backendReplyIn u x1 x2 x3 x4 x5 x6) := by
  unfold State.backendReplyIn
  repeat' first | with_reducible assumption | with_reducible apply State.pumpBackends_keeps | with_reducible apply State.setBcmd_keeps | with_reducible apply State.backendAnswer_keeps | with_reducible apply State.rxNoBuffer_keeps | with_reducible apply State.noteResponse_keeps | split | (with_reducible refine State.Keeps.of2 (by with_reducible assumption) ?_)
theorem State.backendAck_keeps {s u : State} {x1 x2} (h : s.Keeps u) : State.Keeps s (State.backendAck u x1 x2) := by
  unfold State.backendAck
  repeat' first | with_reducible assumption | with_reducible apply State.reply_keeps | split
theorem State.backendDataReq_keeps {s u : State} {x1} (h : s.Keeps u) : State.Keeps s (State.backendDataReq u x1) := by
  unfold State.backendDataReq
  repeat' first | with_reducible assumption | with_reducible apply State.removeOwner_keeps | with_reducible apply State.backendAck_keeps | with_reducible apply State.toBackend_keeps | split
theorem execBackendData_keeps {s u : State} (h : s.Keeps u) : State.KeepsNext s (execBackendData u) := by
  unfold execBackendData
  repeat' first | with_reducible assumption | with_reducible apply State.serve_keeps | with_reducible apply State.backendDataReq_keeps | with_reducible apply State.Keeps.next | with_reducible intro _
theorem execBackendKeepAlive_keeps {s u : State} {x1} (h : s.Keeps u) : State.KeepsNext s (execBackendKeepAlive x1 u) := by
  unfold execBackendKeepAlive
  repeat' first | with_reducible assumption | with_reducible apply State.toBackend_keeps | with_reducible apply State.setBackend_keeps | with_reducible apply State.Keeps.next | split
theorem State.backendCancelReq_keeps {s u : State} {x1} (h : s.Keeps u) : State.Keeps s (State.backendCancelReq u x1) := by
  unfold State.backendCancelReq
  repeat' first | with_reducible assumption | with_reducible apply State.backendAck_keeps | with_reducible apply State.endBcmd_keeps | split | dsimp only
theorem execBackendConnectionLost_keeps {s u : State} {x1} (h : s.Keeps u) : State.KeepsNext s (execBackendConnectionLost x1 u) := by
  unfold execBackendConnectionLost
  repeat' first | with_reducible assumption | with_reducible apply State.log_keeps | with_reducible apply State.setBackend_keeps | with_reducible apply State.Keeps.next | split
theorem execBackendQueueIdleClose_keeps {s u : State} {x1 x2} (h : s.Keeps u) : State.KeepsNext s (execBackendQueueIdleClose x1 x2 u) := by
  unfold execBackendQueueIdleClose
  repeat' first | with_reducible assumption | with_reducible apply State.setBackend_keeps | with_reducible apply State.Keeps.next | split
theorem execBackendReconnect_keeps {s u : State} {x1 x2} (h : s.Keeps u) : State.KeepsNext s (execBackendReconnect x1 x2 u) := by
  unfold execBackendReconnect
  repeat' first | with_reducible assumption | with_reducible apply State.toBackend_keeps | with_reducible apply State.pumpBackends_keeps | with_reducible apply State.log_keeps | with_reducible apply State.setBackend_keeps | with_reducible apply State.Keeps.next | split
theorem execCancel_keeps {s u : State} (h : s.Keeps u) : State.KeepsNext s (execCancel u) := by
  unfold execCancel
  repeat' first | with_reducible assumption | with_reducible apply State.serve_keeps | with_reducible apply State.backendCancelReq_keeps | with_reducible apply State.Keeps.next | with_reducible intro _

/-! ### BootOps -/

theorem State.jAppend_keeps {s u : State} {x1 x2} (h : s.Keeps u) : State.Keeps s (State.jAppend u x1 x2) := by
  unfold State.jAppend
  repeat' first | with_reducible assumption | dsimp only | (with_reducible refine State.Keeps.lit ?_)
theorem State.requestAppend_keeps {s u : State} {x1 x2} (h : s.Keeps u) : State.Keeps s (State.requestAppend u x1 x2) := by
  unfold State.requestAppend
  repeat' first | with_reducible assumption | split | dsimp only | (with_reducible refine State.Keeps.lit ?_)
theorem State.setChip_keeps {s u : State} {x1 x2} (h : s.Keeps u) : State.Keeps s (State.setChip u x1 x2) := by
  unfold State.setChip
  repeat' first | with_reducible assumption | split | dsimp only | (with_reducible refine State.Keeps.lit ?_)
theorem State.clearMarker_keeps {s u : State} {x1} (h : s.Keeps u) : State.Keeps s (State.clearMarker u x1) := by
  unfold State.clearMarker
  repeat' first | with_reducible assumption | with_reducible apply State.setChip_keeps
theorem State.slotWrite_keeps {s u : State} {x1 x2 x3} (h : s.Keeps u) : State.Keeps s (State.slotWrite u x1 x2 x3) := by
  unfold State.slotWrite
  repeat' first | with_reducible assumption | with_reducible apply State.clearMarker_keeps | with_reducible apply State.setChip_keeps
theorem State.writeMarker_keeps {s u : State} {x1} (h : s.Keeps u) : State.Keeps s (State.writeMarker u x1) := by
  unfold State.writeMarker
  repeat' first | with_reducible assumption | with_reducible apply State.setChip_keeps

/-! ### Classify -/

theorem State.laneCtr_keeps {s u : State} {x1 x2 x3} (h : s.Keeps u) : State.Keeps s (State.laneCtr u x1 x2 x3) := by
  unfold State.laneCtr
  repeat' first | with_reducible assumption | dsimp only | (with_reducible refine State.Keeps.lit ?_)
theorem State.stackLane_keeps {s u : State} {x1} (h : s.Keeps u) : State.Keeps s (State.stackLane u x1).2 := by
  unfold State.stackLane
  repeat' first | with_reducible assumption | with_reducible apply State.freshBit_keeps | split | dsimp only | (with_reducible refine State.Keeps.of2 (by with_reducible assumption) ?_)
theorem State.stackOut_keeps {s u : State} {x1 x2 x3} (h : s.Keeps u) : State.Keeps s (State.stackOut u x1 x2 x3) := by
  unfold State.stackOut
  repeat' first | with_reducible assumption | with_reducible apply State.stackLane_keeps | split | dsimp only | (with_reducible refine State.Keeps.of2 (by with_reducible assumption) ?_) | (with_reducible refine State.Keeps.lit ?_)
theorem State.stackRoute_keeps {s u : State} {x1 x2} (h : s.Keeps u) : State.Keeps s (State.stackRoute u x1 x2) := by
  unfold State.stackRoute
  repeat' first | with_reducible assumption | with_reducible apply State.stackOut_keeps | split
theorem State.stackSend_keeps {s u : State} {x1 x2 x3 x4 x5 x6} (h : s.Keeps u) : State.Keeps s (State.stackSend u x1 x2 x3 x4 x5 x6) := by
  unfold State.stackSend
  repeat' first | with_reducible assumption | with_reducible apply State.stackRoute_keeps
theorem State.control_keeps {s u : State} {x1 x2 x3 x4} (h : s.Keeps u) : State.Keeps s (State.control u x1 x2 x3 x4) := by
  unfold State.control
  repeat' first | with_reducible assumption | with_reducible apply State.stackSend_keeps
theorem State.controlAll_keeps {s u : State} {x1 x2 x3} (h : s.Keeps u) : State.Keeps s (State.controlAll u x1 x2 x3) := by
  unfold State.controlAll
  repeat' first | with_reducible assumption | with_reducible apply State.control_keeps | with_reducible apply State.Keeps.foldl | with_reducible intro _
theorem State.dispatchTo_keeps {s u : State} {x1 x2 x3} (h : s.Keeps u) : State.Keeps s (State.dispatchTo u x1 x2 x3) := by
  unfold State.dispatchTo
  repeat' first | with_reducible assumption | with_reducible apply State.stackSend_keeps | with_reducible apply State.swapOwner_keeps | with_reducible apply State.arrive_keeps | split
theorem State.dispatchSpread_keeps {s u : State} {x1} (h : s.Keeps u) : State.Keeps s (State.dispatchSpread u x1) := by
  unfold State.dispatchSpread
  repeat' first | with_reducible assumption | with_reducible apply State.dispatchTo_keeps
theorem State.verdictEffect_keeps {s u : State} {x1} (h : s.Keeps u) : State.Keeps s (State.verdictEffect u x1) := by
  unfold State.verdictEffect
  repeat' first | with_reducible assumption | with_reducible apply State.dispatchSpread_keeps | with_reducible apply State.dispatchTo_keeps | with_reducible apply State.swapOwner_keeps | with_reducible apply State.removeOwner_keeps | split | dsimp only | (with_reducible refine State.Keeps.lit ?_)
theorem runStage_keeps {s : State} {c hv l} {p : Run × State} {n} (h : s.Keeps p.2) : s.Keeps (runStage c hv l p n).2 := by
  obtain ⟨r, t⟩ := p
  have h : s.Keeps t := h
  unfold runStage
  dsimp only
  split
  · exact h
  · split
    · exact State.Keeps.lit h
    · split
      · exact h
      · rename_i tb _
        have l : ∀ a b d e, s.Keeps (t.lookupChecked a b d e).2.2.2 := fun _ _ _ _ => State.lookupChecked_keeps h
        split
        · exact l _ _ _ _
        · split
          · exact l _ _ _ _
          · exact l _ _ _ _

theorem runStages_keeps {s u : State} {x1 x2 x3 x4} (h : s.Keeps u) : State.Keeps s (runStages x1 x2 x3 u x4).2 :=
  State.Keeps.foldl2 h (fun _ _ g => runStage_keeps g)
theorem State.dropNoBuffer_keeps {s u : State} {x1} (h : s.Keeps u) : State.Keeps s (State.dropNoBuffer u x1) := by
  unfold State.dropNoBuffer
  repeat' first | with_reducible assumption | with_reducible apply State.rxNoBuffer_keeps
theorem State.settle_keeps {s u : State} {x1 x2 x3 x4 x5} (h : s.Keeps u) : State.Keeps s (State.settle u x1 x2 x3 x4 x5) := by
  unfold State.settle
  repeat' first | with_reducible assumption | with_reducible apply State.laneCtr_keeps | with_reducible apply State.dropNoBuffer_keeps | with_reducible apply State.verdictEffect_keeps | split
theorem State.classifyWith_keeps {s u : State} {x1 x2 x3} (h : s.Keeps u) : State.Keeps s (State.classifyWith u x1 x2 x3) := by
  unfold State.classifyWith
  repeat' first | with_reducible assumption | with_reducible apply State.settle_keeps | with_reducible apply runStages_keeps | split | dsimp only
theorem State.classify_keeps {s u : State} {x1 x2} (h : s.Keeps u) : State.Keeps s (State.classify u x1 x2) := by
  unfold State.classify
  repeat' first | with_reducible assumption | with_reducible apply State.classifyWith_keeps

/-! ### Frames -/

theorem State.modLane_keeps {s u : State} {x1 x2} (h : s.Keeps u) : State.Keeps s (State.modLane u x1 x2) := by
  unfold State.modLane
  repeat' first | with_reducible assumption | dsimp only | (with_reducible refine State.Keeps.lit ?_)
theorem State.setLaneCut_keeps {s u : State} {x1 x2 x3} (h : s.Keeps u) : State.Keeps s (State.setLaneCut u x1 x2 x3) := by
  unfold State.setLaneCut
  repeat' first | with_reducible assumption | with_reducible apply State.modLane_keeps | with_reducible apply State.log_keeps | with_reducible apply State.laneCtr_keeps | split
theorem execLacpTimeout_keeps {s u : State} {x1} (h : s.Keeps u) : State.KeepsNext s (execLacpTimeout x1 u) := by
  unfold execLacpTimeout
  repeat' first | with_reducible assumption | with_reducible apply State.modLane_keeps | with_reducible apply State.Keeps.next | split
theorem State.setLane_keeps {s u : State} {x1 x2} (h : s.Keeps u) : State.Keeps s (State.setLane u x1 x2) := by
  unfold State.setLane
  repeat' first | with_reducible assumption | with_reducible apply State.freshBit_keeps | with_reducible apply State.setLaneCut_keeps
theorem State.fecCount_keeps {s u : State} {x1 x2 x3 x4} (h : s.Keeps u) : State.Keeps s (State.fecCount u x1 x2 x3 x4) := by
  unfold State.fecCount
  repeat' first | with_reducible assumption | with_reducible apply State.laneCtr_keeps | split
theorem State.noteWants_keeps {s u : State} (h : s.Keeps u) : State.Keeps s (State.noteWants u) := by
  unfold State.noteWants
  repeat' first | with_reducible assumption | dsimp only | (with_reducible refine State.Keeps.lit ?_)
theorem State.mpSend_keeps {s u : State} {x1 x2} (h : s.Keeps u) : State.Keeps s (State.mpSend u x1 x2) := by
  unfold State.mpSend
  repeat' first | with_reducible assumption | dsimp only | (with_reducible refine State.Keeps.lit ?_)
theorem State.lanesTrain_keeps {s u : State} (h : s.Keeps u) : State.Keeps s (State.lanesTrain u) := by
  unfold State.lanesTrain
  repeat' first | with_reducible assumption | with_reducible apply State.setLane_keeps | with_reducible apply State.Keeps.foldl | with_reducible intro _ | split
theorem execLaneUp_keeps {s u : State} {x1 x2} (h : s.Keeps u) : State.KeepsNext s (execLaneUp x1 u x2) := by
  unfold execLaneUp
  repeat' first | with_reducible assumption | with_reducible apply State.modLane_keeps | with_reducible apply State.setLane_keeps | with_reducible apply State.Keeps.next | split
theorem State.redistribute_keeps {s u : State} (h : s.Keeps u) : State.Keeps s (State.redistribute u) := by
  unfold State.redistribute
  repeat' first | with_reducible assumption | dsimp only | (with_reducible refine State.Keeps.lit ?_)
theorem execLaneDown_keeps {s u : State} {x1 x2} (h : s.Keeps u) : State.KeepsNext s (execLaneDown x1 x2 u) := by
  unfold execLaneDown
  repeat' first | with_reducible assumption | with_reducible apply State.setLaneCut_keeps | with_reducible apply State.Keeps.next | split
theorem State.seeLacp_keeps {s u : State} {x1 x2} (h : s.Keeps u) : State.Keeps s (State.seeLacp u x1 x2) := by
  unfold State.seeLacp
  repeat' first | with_reducible assumption | with_reducible apply State.modLane_keeps | split
theorem State.parseCounters_keeps {s u : State} {x1 x2} (h : s.Keeps u) : State.Keeps s (State.parseCounters u x1 x2) := by
  unfold State.parseCounters
  repeat' first | with_reducible assumption | with_reducible apply State.laneCtr_keeps | split | dsimp only | (with_reducible refine State.Keeps.lit ?_)
theorem State.setClsQueue_keeps {s u : State} {x1 x2} (h : s.Keeps u) : State.Keeps s (State.setClsQueue u x1 x2) := by
  unfold State.setClsQueue
  repeat' first | with_reducible assumption | split | dsimp only | (with_reducible refine State.Keeps.lit ?_)
theorem State.parseIn_keeps {s u : State} {x1 x2 x3 x4 x5 x6} (h : s.Keeps u) : State.Keeps s (State.parseIn u x1 x2 x3 x4 x5 x6) := by
  unfold State.parseIn
  repeat' first | with_reducible assumption | with_reducible apply State.seeLacp_keeps | with_reducible apply State.parseCounters_keeps | with_reducible apply State.allocChecked_keeps | with_reducible apply State.bufWrite_keeps | with_reducible apply State.setClsQueue_keeps | with_reducible apply State.classify_keeps | split | dsimp only | (with_reducible refine State.Keeps.lit ?_)
theorem State.seePtp_keeps {s u : State} {x1 x2} (h : s.Keeps u) : State.Keeps s (State.seePtp u x1 x2) := by
  unfold State.seePtp
  repeat' first | with_reducible assumption | with_reducible apply State.freshInt_keeps | with_reducible apply State.measure_keeps | split
theorem execClassificationDequeue_keeps {s u : State} {x1 x2} (h : s.Keeps u) : State.KeepsNext s (execClassificationDequeue x1 u x2) := by
  unfold execClassificationDequeue
  repeat' first | with_reducible assumption | with_reducible apply State.classify_keeps | with_reducible apply State.setClsQueue_keeps | with_reducible apply State.Keeps.next | split
theorem State.macIn_keeps {s u : State} {x1 x2 x3 x4 x5 x6 x7} (h : s.Keeps u) : State.Keeps s (State.macIn u x1 x2 x3 x4 x5 x6 x7) := by
  unfold State.macIn
  repeat' first | with_reducible assumption | with_reducible apply State.laneCtr_keeps | with_reducible apply State.parseIn_keeps | with_reducible apply State.seePtp_keeps | split
theorem execLacpPeriodicTransmit_keeps {s u : State} {x1} (h : s.Keeps u) : State.KeepsNext s (execLacpPeriodicTransmit x1 u) := by
  unfold execLacpPeriodicTransmit
  repeat' first | with_reducible assumption | with_reducible apply State.mpSend_keeps | with_reducible apply State.tickFree_keeps | with_reducible apply State.Keeps.next | split
theorem execFrameReceive_keeps {s u : State} {x1 x2 x3 x4 x5 x6 x7 x8 x9 x10} (h : s.Keeps u) : State.KeepsNext s (execFrameReceive x1 x2 x3 x4 x5 x6 x7 u x8 x9 x10) := by
  unfold execFrameReceive
  repeat' first | with_reducible assumption | with_reducible apply State.macIn_keeps | with_reducible apply State.fecCount_keeps | with_reducible apply State.Keeps.next | split

/-! ### Egress -/

theorem State.sendMember_keeps {s u : State} {x1 x2 x3} (h : s.Keeps u) : State.Keeps s (State.sendMember u x1 x2 x3) := by
  unfold State.sendMember
  repeat' first | with_reducible assumption | with_reducible apply State.stackSend_keeps
theorem State.releaseTm_keeps {s u : State} {x1} (h : s.Keeps u) : State.Keeps s (State.releaseTm u x1) := by
  unfold State.releaseTm
  repeat' first | with_reducible assumption | with_reducible apply State.removeOwner_keeps | split
theorem State.setLeaf_keeps {s u : State} {x1 x2} (h : s.Keeps u) : State.Keeps s (State.setLeaf u x1 x2) := by
  unfold State.setLeaf
  repeat' first | with_reducible assumption | dsimp only | (with_reducible refine State.Keeps.lit ?_)
theorem State.spill_keeps {s u : State} {x1 x2 x3 x4} (h : s.Keeps u) : State.Keeps s (State.spill u x1 x2 x3 x4) := by
  unfold State.spill
  repeat' first | with_reducible assumption | with_reducible apply allocFrom_keeps | with_reducible apply State.bufWrite_keeps | with_reducible apply State.modPool_keeps | with_reducible apply State.removeOwner_keeps | with_reducible apply State.setLeaf_keeps | split | dsimp only | (with_reducible refine State.Keeps.of2 (by with_reducible assumption) ?_) | (with_reducible refine State.Keeps.lit ?_)
theorem State.activate_keeps {s u : State} {x1 x2 x3 x4} (h : s.Keeps u) : State.Keeps s (State.activate u x1 x2 x3 x4) := by
  unfold State.activate
  repeat' first | with_reducible assumption | dsimp only | (with_reducible refine State.Keeps.lit ?_)
theorem State.appendLeaf_keeps {s u : State} {x1 x2 x3 x4} (h : s.Keeps u) : State.Keeps s (State.appendLeaf u x1 x2 x3 x4) := by
  unfold State.appendLeaf
  repeat' first | with_reducible assumption | with_reducible apply State.laneCtr_keeps | with_reducible apply State.releaseTm_keeps | with_reducible apply State.setLeaf_keeps | with_reducible apply State.spill_keeps | with_reducible apply State.activate_keeps | split | dsimp only
theorem State.publishEnq_keeps {s u : State} {x1 x2 x3} (h : s.Keeps u) : State.Keeps s (State.publishEnq u x1 x2 x3) := by
  unfold State.publishEnq
  repeat' first | with_reducible assumption | with_reducible apply State.removeOwner_keeps | with_reducible apply State.bufWrite_keeps | with_reducible apply State.laneCtr_keeps | with_reducible apply State.sendMember_keeps | with_reducible apply State.appendLeaf_keeps | split | dsimp only
theorem State.setTmq_keeps {s u : State} {x1 x2} (h : s.Keeps u) : State.Keeps s (State.setTmq u x1 x2) := by
  unfold State.setTmq
  repeat' first | with_reducible assumption | dsimp only | (with_reducible refine State.Keeps.lit ?_)
theorem State.publishMp_keeps {s u : State} (h : s.Keeps u) : State.Keeps s (State.publishMp u) := by
  unfold State.publishMp
  repeat' first | with_reducible assumption | with_reducible apply State.setTmq_keeps | with_reducible apply State.appendLeaf_keeps | with_reducible apply State.releaseTm_keeps | with_reducible apply State.Keeps.foldl | with_reducible intro _ | split | dsimp only | (with_reducible refine State.Keeps.lit ?_)
theorem State.deactivate_keeps {s u : State} {x1 x2 x3 x4} (h : s.Keeps u) : State.Keeps s (State.deactivate u x1 x2 x3 x4) := by
  unfold State.deactivate
  repeat' first | with_reducible assumption | split | dsimp only | (with_reducible refine State.Keeps.lit ?_)
theorem State.clearLeaf_keeps {s u : State} {x1 x2} (h : s.Keeps u) : State.Keeps s (State.clearLeaf u x1 x2).2 := by
  unfold State.clearLeaf
  repeat' first | with_reducible assumption | with_reducible apply State.deactivate_keeps | with_reducible apply State.setLeaf_keeps | split | dsimp only
theorem State.countGone_keeps {s u : State} {x1 x2} (h : s.Keeps u) : State.Keeps s (State.countGone u x1 x2) := by
  unfold State.countGone
  repeat' first | with_reducible assumption | dsimp only | (with_reducible refine State.Keeps.lit ?_)
theorem State.freeQueued_keeps {s u : State} {x1 x2} (h : s.Keeps u) : State.Keeps s (State.freeQueued u x1 x2).2 := by
  unfold State.freeQueued
  repeat' first | with_reducible assumption | with_reducible apply State.releaseTm_keeps | with_reducible apply State.countGone_keeps | with_reducible apply State.Keeps.foldl
theorem State.pruneLeaves_keeps {s u : State} {x1} (h : s.Keeps u) : State.Keeps s (State.pruneLeaves u x1) := by
  unfold State.pruneLeaves
  repeat' first | with_reducible assumption | with_reducible apply State.setTmq_keeps | split | dsimp only
theorem State.purgeLeaf_keeps {s u : State} {x1 x2 x3} (h : s.Keeps u) : State.Keeps s (State.purgeLeaf u x1 x2 x3) := by
  unfold State.purgeLeaf
  repeat' first | with_reducible assumption | with_reducible apply State.setLeaf_keeps | with_reducible apply State.countGone_keeps | with_reducible apply State.pruneLeaves_keeps | with_reducible apply State.deactivate_keeps | split | dsimp only
theorem State.purgePort_keeps {s u : State} {x1} (h : s.Keeps u) : State.Keeps s (State.purgePort u x1) := by
  unfold State.purgePort
  repeat' first | with_reducible assumption | with_reducible apply State.purgeLeaf_keeps | with_reducible apply State.Keeps.foldl | with_reducible intro _ | split
theorem State.setTenant_keeps {s u : State} {x1 x2} (h : s.Keeps u) : State.Keeps s (State.setTenant u x1 x2) := by
  unfold State.setTenant
  repeat' first | with_reducible assumption | dsimp only | (with_reducible refine State.Keeps.lit ?_)
theorem State.takeHeadFrame_keeps {s u : State} {x1 x2} (h : s.Keeps u) : State.Keeps s (State.takeHeadFrame u x1 x2) := by
  unfold State.takeHeadFrame
  repeat' first | with_reducible assumption | with_reducible apply State.setTenant_keeps | with_reducible apply State.setLeaf_keeps | with_reducible apply State.deactivate_keeps | with_reducible apply State.pruneLeaves_keeps | with_reducible apply State.Keeps.foldl | with_reducible intro _ | split | dsimp only | (with_reducible refine State.Keeps.lit ?_)
theorem State.countSent_keeps {s u : State} {x1 x2 x3} (h : s.Keeps u) : State.Keeps s (State.countSent u x1 x2 x3) := by
  unfold State.countSent
  repeat' first | with_reducible assumption | with_reducible apply State.setTenant_keeps | split | dsimp only | (with_reducible refine State.Keeps.lit ?_)
theorem State.startFrame_keeps {s u : State} {x1 x2 x3 x4} (h : s.Keeps u) : State.Keeps s (State.startFrame u x1 x2 x3 x4) := by
  unfold State.startFrame
  repeat' first | with_reducible assumption | with_reducible apply State.takeHeadFrame_keeps | with_reducible apply State.releaseTm_keeps | with_reducible apply State.countSent_keeps | split | dsimp only | (with_reducible refine State.Keeps.lit ?_)
theorem State.select_keeps {s u : State} {x1 x2 x3 x4} (h : s.Keeps u) : State.Keeps s (State.select u x1 x2 x3 x4) := by
  unfold State.select
  repeat' first | with_reducible assumption | with_reducible apply State.purgePort_keeps | with_reducible apply State.startFrame_keeps | split | dsimp only
theorem execSchedulerSelect_keeps {s u : State} {x1 x2 x3 x4} (h : s.Keeps u) : State.KeepsNext s (execSchedulerSelect x1 x2 x3 x4 u) := by
  unfold execSchedulerSelect
  repeat' first | with_reducible assumption | with_reducible apply State.select_keeps | with_reducible apply State.Keeps.next
theorem State.doneWith_keeps {s u : State} {x1 x2} (h : s.Keeps u) : State.Keeps s (State.doneWith u x1 x2) := by
  unfold State.doneWith
  repeat' first | with_reducible assumption | with_reducible apply State.loseEntry_keeps | with_reducible apply State.removeOwner_keeps | split
theorem execTransmitComplete_keeps {s u : State} {x1 x2} (h : s.Keeps u) : State.KeepsNext s (execTransmitComplete x1 u x2) := by
  unfold execTransmitComplete
  repeat' first | with_reducible assumption | with_reducible apply State.doneWith_keeps | with_reducible apply State.laneCtr_keeps | with_reducible apply State.Keeps.next | split | dsimp only | (with_reducible refine State.Keeps.lit ?_)
theorem State.flushDown_keeps {s u : State} (h : s.Keeps u) : State.Keeps s (State.flushDown u) := by
  unfold State.flushDown
  repeat' first | with_reducible assumption | with_reducible apply State.clearLeaf_keeps | with_reducible apply State.freeQueued_keeps | with_reducible apply State.pruneLeaves_keeps | with_reducible apply State.laneCtr_keeps | with_reducible apply State.Keeps.foldl | with_reducible intro _ | split

/-! ### Channels -/

theorem State.staleFirst_keeps {s u : State} {x1 x2 x3} (h : s.Keeps u) : State.Keeps s (State.staleFirst u x1 x2 x3) := by
  unfold State.staleFirst
  repeat' first | with_reducible assumption | with_reducible apply State.staleDiscard_keeps | split
theorem execChpoll_keeps {s u : State} {x1 x2 x3} (h : s.Keeps u) : State.KeepsNext s (execChpoll x1 x2 x3 u) := by
  unfold execChpoll
  repeat' first | with_reducible assumption | with_reducible apply State.issue_keeps | with_reducible apply State.faultFree_keeps | with_reducible apply State.staleFirst_keeps | with_reducible apply State.writeBack_keeps | with_reducible apply State.Keeps.next | with_reducible intro _ | split | dsimp only
theorem freeRegs_keeps {s u : State} {x1 x2} (h : s.Keeps u) : State.Keeps s (freeRegs x1 u x2).2 := by
  induction x1 generalizing u x2 with
  | nil => unfold freeRegs; repeat' first | with_reducible assumption
  | cons a l ih => unfold freeRegs; repeat' first | with_reducible assumption | with_reducible apply ih | with_reducible apply State.freshNat_keeps
theorem execFork_keeps {s u : State} {x1 x2 x3 x4} (h : s.Keeps u) : State.KeepsNext s (execFork x1 x2 x3 x4 u) := by
  unfold execFork
  repeat' first | with_reducible assumption | with_reducible apply State.issue_keeps | with_reducible apply State.fault_keeps | with_reducible apply State.writeBack_keeps | with_reducible apply freeRegs_keeps | with_reducible apply State.moved_keeps | with_reducible apply State.setEng_keeps | with_reducible apply State.Keeps.next | with_reducible intro _ | split | dsimp only | (with_reducible refine State.Keeps.of2 (by with_reducible assumption) ?_)
theorem execMessageDelivery_keeps {s u : State} {x1 x2 x3} (h : s.Keeps u) : State.KeepsNext s (execMessageDelivery x1 x2 u x3) := by
  unfold execMessageDelivery
  repeat' first | with_reducible assumption | with_reducible apply State.modThr_keeps | with_reducible apply State.sramFailed_keeps | with_reducible apply State.setEng_keeps | with_reducible apply State.Keeps.next | split | dsimp only
theorem State.sendOp_keeps {s u : State} {x1 x2 x3 x4} (h : s.Keeps u) : State.Keeps s (State.sendOp u x1 x2 x3 x4) := by
  unfold State.sendOp
  repeat' first | with_reducible assumption | with_reducible apply State.issue_keeps | with_reducible apply State.fault_keeps | with_reducible apply State.faultFree_keeps | with_reducible apply State.moved_keeps | with_reducible apply State.modThr_keeps | with_reducible apply State.retire_keeps | with_reducible intro _ | split | dsimp only
theorem execChsend_keeps {s u : State} {x1 x2 x3} (h : s.Keeps u) : State.KeepsNext s (execChsend x1 x2 x3 u) := by
  unfold execChsend
  repeat' first | with_reducible assumption | with_reducible apply State.sendOp_keeps | with_reducible apply State.Keeps.next
theorem State.setChan_keeps {s u : State} {x1 x2 x3 x4} (h : s.Keeps u) : State.Keeps s (State.setChan u x1 x2 x3 x4) := by
  unfold State.setChan
  repeat' first | with_reducible assumption | with_reducible apply State.setEng_keeps | with_reducible apply State.modThr_keeps | split
theorem State.unblock_keeps {s u : State} {x1 x2 x3 x4} (h : s.Keeps u) : State.Keeps s (State.unblock u x1 x2 x3 x4) := by
  unfold State.unblock
  repeat' first | with_reducible assumption | with_reducible apply State.freshNat_keeps | with_reducible apply State.moved_keeps | with_reducible apply State.modThr_keeps
theorem execJoinUnblock_keeps {s u : State} {x1 x2} (h : s.Keeps u) : State.KeepsNext s (execJoinUnblock x1 x2 u) := by
  unfold execJoinUnblock
  repeat' first | with_reducible assumption | with_reducible apply State.unblock_keeps | with_reducible apply State.Keeps.next | split | dsimp only
theorem execChsendUnblock_keeps {s u : State} {x1 x2} (h : s.Keeps u) : State.KeepsNext s (execChsendUnblock x1 x2 u) := by
  unfold execChsendUnblock
  repeat' first | with_reducible assumption | with_reducible apply State.unblock_keeps | with_reducible apply State.Keeps.next | split | dsimp only
theorem execChrecv_keeps {s u : State} {x1 x2 x3} (h : s.Keeps u) : State.KeepsNext s (execChrecv x1 x2 x3 u) := by
  unfold execChrecv
  repeat' first | with_reducible assumption | with_reducible apply State.issue_keeps | with_reducible apply State.faultFree_keeps | with_reducible apply State.staleFirst_keeps | with_reducible apply State.writeBack_keeps | with_reducible apply State.setChan_keeps | with_reducible apply State.moved_keeps | with_reducible apply State.modThr_keeps | with_reducible apply State.Keeps.next | with_reducible intro _ | split | dsimp only
theorem execJoin_keeps {s u : State} {x1 x2 x3} (h : s.Keeps u) : State.KeepsNext s (execJoin x1 x2 x3 u) := by
  unfold execJoin
  repeat' first | with_reducible assumption | with_reducible apply State.issue_keeps | with_reducible apply State.fault_keeps | with_reducible apply State.faultFree_keeps | with_reducible apply State.writeBack_keeps | with_reducible apply State.moved_keeps | with_reducible apply State.modThr_keeps | with_reducible apply State.Keeps.next | with_reducible intro _ | split | dsimp only
theorem execChsendl_keeps {s u : State} {x1 x2 x3} (h : s.Keeps u) : State.KeepsNext s (execChsendl x1 x2 x3 u) := by
  unfold execChsendl
  repeat' first | with_reducible assumption | with_reducible apply State.sendOp_keeps | with_reducible apply State.Keeps.next
theorem execChrecvUnblock_keeps {s u : State} {x1 x2} (h : s.Keeps u) : State.KeepsNext s (execChrecvUnblock x1 x2 u) := by
  unfold execChrecvUnblock
  repeat' first | with_reducible assumption | with_reducible apply State.staleFirst_keeps | with_reducible apply State.unblock_keeps | with_reducible apply State.setChan_keeps | with_reducible apply State.moved_keeps | with_reducible apply State.modThr_keeps | with_reducible apply State.Keeps.next | split | dsimp only

/-! ### Groom -/

theorem State.reportWait_keeps {s u : State} {x1 x2 x3 x4} (h : s.Keeps u) : State.Keeps s (State.reportWait x1 x2 x3 u x4) := by
  unfold State.reportWait
  repeat' first | with_reducible assumption | with_reducible apply State.faultRecord_keeps | with_reducible apply State.setEng_keeps | with_reducible apply State.endOther_keeps | with_reducible apply State.Keeps.foldl | with_reducible intro _ | split | dsimp only
theorem execMutualWaitReport_keeps {s u : State} {x1} (h : s.Keeps u) : State.KeepsNext s (execMutualWaitReport x1 u) := by
  unfold execMutualWaitReport
  repeat' first | with_reducible assumption | with_reducible apply State.setYard_keeps | with_reducible apply State.reportWait_keeps | with_reducible apply State.Keeps.next | with_reducible apply State.Keeps.foldl | with_reducible intro _ | split | dsimp only
theorem State.startGroom_keeps {s u : State} {x1} (h : s.Keeps u) : State.Keeps s (State.startGroom u x1) := by
  unfold State.startGroom
  repeat' first | with_reducible assumption | with_reducible apply freeRegs_keeps | with_reducible apply State.setEng_keeps
theorem State.groomStart_keeps {s u : State} {x1} (h : s.Keeps u) : State.Keeps s (State.groomStart u x1) := by
  unfold State.groomStart
  repeat' first | with_reducible assumption | with_reducible apply State.startGroom_keeps | split | dsimp only
theorem execGroomStart_keeps {s u : State} {x1} (h : s.Keeps u) : State.KeepsNext s (execGroomStart x1 u) := by
  unfold execGroomStart
  repeat' first | with_reducible assumption | with_reducible apply State.groomStart_keeps | with_reducible apply State.Keeps.next

/-! ### Mailboxes -/

theorem State.setLock_keeps {s u : State} {x1 x2} (h : s.Keeps u) : State.Keeps s (State.setLock u x1 x2) := by
  unfold State.setLock
  repeat' first | with_reducible assumption | dsimp only | (with_reducible refine State.Keeps.lit ?_)
theorem State.lockWrite_keeps {s u : State} {x1 x2 x3} (h : s.Keeps u) : State.Keeps s (State.lockWrite u x1 x2 x3) := by
  unfold State.lockWrite
  repeat' first | with_reducible assumption | with_reducible apply State.setLock_keeps | with_reducible apply State.log_keeps | split
theorem execLockRelease_keeps {s u : State} {x1 x2 x3} (h : s.Keeps u) : State.KeepsNext s (execLockRelease x1 x2 x3 u) := by
  unfold execLockRelease
  repeat' first | with_reducible assumption | with_reducible apply State.lockWrite_keeps | with_reducible apply State.Keeps.next
theorem State.erHead_keeps {s u : State} {x1} (h : s.Keeps u) : State.Keeps s (State.erHead u x1) := by
  unfold State.erHead
  repeat' first | with_reducible assumption | with_reducible apply State.log_keeps | split | dsimp only | (with_reducible refine State.Keeps.lit ?_)
theorem execErHeadWrite_keeps {s u : State} {x1} (h : s.Keeps u) : State.KeepsNext s (execErHeadWrite x1 u) := by
  unfold execErHeadWrite
  repeat' first | with_reducible assumption | with_reducible apply State.erHead_keeps | with_reducible apply State.Keeps.next
theorem State.misuse_keeps {s u : State} {x1 x2} (h : s.Keeps u) : State.Keeps s (State.misuse u x1 x2) := by
  unfold State.misuse
  repeat' first | with_reducible assumption | with_reducible apply State.log_keeps
theorem State.mbWrite_keeps {s u : State} {x1 x2 x3 x4} (h : s.Keeps u) : State.Keeps s (State.mbWrite u x1 x2 x3 x4) := by
  unfold State.mbWrite
  repeat' first | with_reducible assumption | with_reducible apply State.misuse_keeps | with_reducible apply State.setMb_keeps | split | dsimp only
theorem State.mbStatus_keeps {s u : State} {x1 x2 x3} (h : s.Keeps u) : State.Keeps s (State.mbStatus u x1 x2 x3) := by
  unfold State.mbStatus
  repeat' first | with_reducible assumption | with_reducible apply State.misuse_keeps | with_reducible apply State.setMb_keeps | split
theorem State.mbRetract_keeps {s u : State} {x1 x2} (h : s.Keeps u) : State.Keeps s (State.mbRetract u x1 x2) := by
  unfold State.mbRetract
  repeat' first | with_reducible assumption | with_reducible apply State.misuse_keeps | with_reducible apply State.setMb_keeps | split | dsimp only
theorem State.mbSend_keeps {s u : State} {x1 x2} (h : s.Keeps u) : State.Keeps s (State.mbSend u x1 x2) := by
  unfold State.mbSend
  repeat' first | with_reducible assumption | with_reducible apply State.misuse_keeps | with_reducible apply State.setMb_keeps | split | dsimp only
theorem State.erStatus_keeps {s u : State} {x1} (h : s.Keeps u) : State.Keeps s (State.erStatus u x1) := by
  unfold State.erStatus
  repeat' first | with_reducible assumption | dsimp only | (with_reducible refine State.Keeps.lit ?_)
theorem State.boxFailed_keeps {s u : State} {x1} (h : s.Keeps u) : State.Keeps s (State.boxFailed u x1) := by
  unfold State.boxFailed
  repeat' first | with_reducible assumption | with_reducible apply State.sramFailed_keeps | with_reducible apply State.setMb_keeps | split
theorem State.answer_keeps {s u : State} {x1} (h : s.Keeps u) : State.Keeps s (State.answer u x1) := by
  unfold State.answer
  repeat' first | with_reducible assumption | dsimp only | (with_reducible refine State.Keeps.lit ?_)
theorem State.nextNotice_keeps {s u : State} {x1} (h : s.Keeps u) : State.Keeps s (State.nextNotice u x1) := by
  unfold State.nextNotice
  repeat' first | with_reducible assumption | with_reducible apply State.postNotice_keeps | split | dsimp only | (with_reducible refine State.Keeps.lit ?_)
theorem State.releaseNotices_keeps {s u : State} (h : s.Keeps u) : State.Keeps s (State.releaseNotices u) := by
  unfold State.releaseNotices
  repeat' first | with_reducible assumption | with_reducible apply State.nextNotice_keeps | with_reducible apply State.Keeps.foldl
theorem State.nextFault_keeps {s u : State} {x1} (h : s.Keeps u) : State.Keeps s (State.nextFault u x1) := by
  unfold State.nextFault
  repeat' first | with_reducible assumption | with_reducible apply State.setMb_keeps | split | dsimp only | (with_reducible refine State.Keeps.lit ?_)
theorem State.afterTake_keeps {s u : State} {x1 x2 x3} (h : s.Keeps u) : State.Keeps s (State.afterTake u x1 x2 x3) := by
  unfold State.afterTake
  repeat' first | with_reducible assumption | with_reducible apply State.nextNotice_keeps | with_reducible apply State.nextFault_keeps | split | dsimp only | (with_reducible refine State.Keeps.lit ?_)
theorem State.mbTake_keeps {s u : State} {x1 x2 x3} (h : s.Keeps u) : State.Keeps s (State.mbTake u x1 x2 x3) := by
  unfold State.mbTake
  repeat' first | with_reducible assumption | with_reducible apply State.answer_keeps | with_reducible apply State.misuse_keeps | with_reducible apply State.afterTake_keeps | with_reducible apply State.log_keeps | with_reducible apply State.setMb_keeps | split | dsimp only | (with_reducible refine State.Keeps.lit ?_)
theorem State.lockRead_keeps {s u : State} {x1 x2} (h : s.Keeps u) : State.Keeps s (State.lockRead u x1 x2) := by
  unfold State.lockRead
  repeat' first | with_reducible assumption | with_reducible apply State.answer_keeps | with_reducible apply State.setLock_keeps | split
theorem State.forgetEventRing_keeps {s u : State} (h : s.Keeps u) : State.Keeps s (State.forgetEventRing u) := by
  unfold State.forgetEventRing
  repeat' first | with_reducible assumption | dsimp only | (with_reducible refine State.Keeps.lit ?_)
theorem State.placeEvent_keeps {s u : State} {x1} (h : s.Keeps u) : State.Keeps s (State.placeEvent u x1) := by
  unfold State.placeEvent
  repeat' first | with_reducible assumption | with_reducible apply State.hostWrite_keeps | split | dsimp only | (with_reducible refine State.Keeps.lit ?_)
theorem State.placeEvents_keeps {s u : State} (h : s.Keeps u) : State.Keeps s (State.placeEvents u) := by
  unfold State.placeEvents
  repeat' first | with_reducible assumption | with_reducible apply State.placeEvent_keeps | with_reducible apply State.pme_keeps | with_reducible apply State.msix_keeps | with_reducible apply State.Keeps.foldl | split | dsimp only | (with_reducible refine State.Keeps.lit ?_)
theorem execMailboxStatusClear_keeps {s u : State} {x1 x2 x3} (h : s.Keeps u) : State.KeepsNext s (execMailboxStatusClear x1 x2 x3 u) := by
  unfold execMailboxStatusClear
  repeat' first | with_reducible assumption | with_reducible apply State.mbStatus_keeps | with_reducible apply State.Keeps.next
theorem State.erLost_keeps {s u : State} (h : s.Keeps u) : State.Keeps s (State.erLost u) := by
  unfold State.erLost
  repeat' first | with_reducible assumption | with_reducible apply State.answer_keeps | dsimp only | (with_reducible refine State.Keeps.lit ?_)
theorem execErLostRead_keeps {s u : State} (h : s.Keeps u) : State.KeepsNext s (execErLostRead u) := by
  unfold execErLostRead
  repeat' first | with_reducible assumption | with_reducible apply State.erLost_keeps | with_reducible apply State.Keeps.next
theorem execMailboxTake_keeps {s u : State} {x1 x2 x3 x4} (h : s.Keeps u) : State.KeepsNext s (execMailboxTake x1 x2 x3 u x4) := by
  unfold execMailboxTake
  repeat' first | with_reducible assumption | with_reducible apply State.boxFailed_keeps | with_reducible apply State.mbTake_keeps | with_reducible apply State.Keeps.next | split
theorem execMailboxRetract_keeps {s u : State} {x1 x2} (h : s.Keeps u) : State.KeepsNext s (execMailboxRetract x1 x2 u) := by
  unfold execMailboxRetract
  repeat' first | with_reducible assumption | with_reducible apply State.mbRetract_keeps | with_reducible apply State.Keeps.next
theorem execErStatusClear_keeps {s u : State} {x1} (h : s.Keeps u) : State.KeepsNext s (execErStatusClear x1 u) := by
  unfold execErStatusClear
  repeat' first | with_reducible assumption | with_reducible apply State.erStatus_keeps | with_reducible apply State.Keeps.next
theorem execMailboxSend_keeps {s u : State} {x1 x2 x3} (h : s.Keeps u) : State.KeepsNext s (execMailboxSend x1 x2 x3 u) := by
  unfold execMailboxSend
  repeat' first | with_reducible assumption | with_reducible apply State.mbSend_keeps | with_reducible apply State.mbWrite_keeps | with_reducible apply State.Keeps.next | split
theorem execLockAcquire_keeps {s u : State} {x1 x2 x3} (h : s.Keeps u) : State.KeepsNext s (execLockAcquire x1 x2 u x3) := by
  unfold execLockAcquire
  repeat' first | with_reducible assumption | with_reducible apply State.lockRead_keeps | with_reducible apply State.sramFailed_keeps | with_reducible apply State.setLock_keeps | with_reducible apply State.Keeps.next | split

/-! ### MbadelOps -/

theorem State.consume_keeps {s u : State} {x1 x2 x3} (h : s.Keeps u) : State.Keeps s (State.consume u x1 x2 x3) := by
  unfold State.consume
  repeat' first | with_reducible assumption | dsimp only | (with_reducible refine State.Keeps.lit ?_)
theorem State.deliverResult_keeps {s u : State} {x1 x2 x3 x4 x5 x6 x7} (h : s.Keeps u) : State.Keeps s (State.deliverResult u x1 x2 x3 x4 x5 x6 x7) := by
  unfold State.deliverResult
  repeat' first | with_reducible assumption | with_reducible apply State.hostWrite_keeps | with_reducible apply State.postNotice_keeps | split | dsimp only | (with_reducible refine State.Keeps.lit ?_)
theorem State.dropPreReset_keeps {s u : State} {x1 x2} (h : s.Keeps u) : State.Keeps s (State.dropPreReset u x1 x2) := by
  unfold State.dropPreReset
  repeat' first | with_reducible assumption | dsimp only | (with_reducible refine State.Keeps.lit ?_)
theorem State.writeResult_keeps {s u : State} {x1 x2 x3 x4 x5 x6 x7} (h : s.Keeps u) : State.Keeps s (State.writeResult u x1 x2 x3 x4 x5 x6 x7) := by
  unfold State.writeResult
  repeat' first | with_reducible assumption | with_reducible apply State.deliverResult_keeps | with_reducible apply State.dropPreReset_keeps | with_reducible apply State.log_keeps | split
theorem State.endCmd_keeps {s u : State} {x1 x2 x3 x4 x5} (h : s.Keeps u) : State.Keeps s (State.endCmd u x1 x2 x3 x4 x5) := by
  unfold State.endCmd
  repeat' first | with_reducible assumption | with_reducible apply State.writeResult_keeps
theorem State.takenCmd_keeps {s u : State} {x1 x2} {f : State → Nat → Nat → State} (h : s.Keeps u) (hf : ∀ u a b, s.Keeps u → s.Keeps (f u a b)) : State.Keeps s (State.takenCmd u x1 x2 f) := by
  unfold State.takenCmd
  repeat' first | with_reducible assumption | with_reducible apply hf | with_reducible apply State.consume_keeps | with_reducible apply State.endCmd_keeps | with_reducible apply State.log_keeps | split | dsimp only
theorem State.runNow_keeps {s u : State} {x1 x2 x3} {f : State → State × CmdEnd × List Byte} (h : s.Keeps u) (hf : ∀ u, s.Keeps u → s.Keeps (f u).1) : State.Keeps s (State.runNow u x1 x2 x3 f) := by
  unfold State.runNow
  repeat' first | with_reducible assumption | with_reducible apply hf | with_reducible apply State.takenCmd_keeps | with_reducible apply State.endCmd_keeps | with_reducible apply State.writeResult_keeps | with_reducible intro _ | split
theorem State.endLong_keeps {s u : State} {x1 x2 x3 x4} (h : s.Keeps u) : State.Keeps s (State.endLong u x1 x2 x3 x4) := by
  unfold State.endLong
  repeat' first | with_reducible assumption | with_reducible apply State.writeResult_keeps | dsimp only | (with_reducible refine State.Keeps.lit ?_)
theorem State.runDo_keeps {s u : State} {x1 x2 x3} {f : State → State} (h : s.Keeps u) (hf : ∀ u, s.Keeps u → s.Keeps (f u)) : State.Keeps s (State.runDo u x1 x2 x3 f) := by
  unfold State.runDo
  repeat' first | with_reducible assumption | with_reducible apply State.runNow_keeps

/-- A command whose effect keeps what counts when its checks pass. -/
theorem State.runDo_keepsOk {s u : State} {k r j} {f : State → State} (h : s.Keeps u) (hf : ∀ v, s.Keeps v → j.bad = none → j.late v = none → s.Keeps (f v)) :
    s.Keeps (u.runDo k r j f) := by
  unfold State.runDo State.runNow
  refine State.takenCmd_keeps h (fun v a b g => ?_)
  dsimp only
  split
  · exact State.endCmd_keeps g
  · rename_i e
    split
    · exact State.endCmd_keeps g
    · refine State.writeResult_keeps (hf v g ?_ ?_)
      · unfold State.judgeCmd at e; split at e
        · cases e
        · split at e
          · cases e
          · assumption
      · unfold State.judgeCmd at e
        cases m : j.missing v with
        | some n => rw [m] at e; simp only [] at e; split at e <;> [cases e; (split at e <;> cases e)]
        | none =>
          rw [m] at e; simp only [] at e
          have q : j.pre v = none := by
            split at e
            · cases e
            · split at e
              · cases e
              · split at e
                · cases e
                · exact e
          unfold Judge.late; rw [m]; exact q

theorem failIf_none {c : Bool} {v : CmdEnd} (e : failIf c v = none) : c = false := by
  unfold failIf at e
  cases c with
  | true => simp at e
  | false => rfl
theorem firstOf_none {o : Option CmdEnd} {l : List (Option CmdEnd)} (e : firstOf (o :: l) = none) : o = none := by
  cases o with
  | none => rfl
  | some v => simp [firstOf] at e
theorem State.runLong_keeps {s u : State} {x1 x2 x3 x4 x5} {f : State → State} (h : s.Keeps u) (hf : ∀ u, s.Keeps u → s.Keeps (f u)) : State.Keeps s (State.runLong u x1 x2 x3 x4 x5 f) := by
  unfold State.runLong
  repeat' first | with_reducible assumption | with_reducible apply hf | with_reducible apply State.takenCmd_keeps | with_reducible apply State.endCmd_keeps | with_reducible intro _ | split | dsimp only | (with_reducible refine State.Keeps.lit ?_)
theorem State.runTurn_keeps {s u p : State} {x1 x2 x3 x4 x5} (h : s.Keeps u) : State.Keeps s (State.runTurn u p x1 x2 x3 x4 x5) := by
  unfold State.runTurn
  repeat' first | with_reducible assumption | with_reducible apply State.takenCmd_keeps | with_reducible apply State.endCmd_keeps | with_reducible intro _ | split | dsimp only | (with_reducible refine State.Keeps.lit ?_)
theorem State.runQuery_keeps {s u : State} {x1 x2 x3 x4} (h : s.Keeps u) : State.Keeps s (State.runQuery u x1 x2 x3 x4) := by
  unfold State.runQuery
  repeat' first | with_reducible assumption | with_reducible apply State.runNow_keeps | with_reducible intro _
theorem State.setStage_keeps {s u : State} {x1 x2} (h : s.Keeps u) : State.Keeps s (State.setStage u x1 x2) := by
  unfold State.setStage
  repeat' first | with_reducible assumption | dsimp only | (with_reducible refine State.Keeps.lit ?_)

end Sys2Proof.Machine
end

