-- ==== Sys2Proof/Laws/KeepsUnits.lean ====
section
/-!
SUPPORT. What no command undoes (Keeps.lean): repair, NVMe, RDMA, resets, instances, the endpoint and start-up.
-/

namespace Sys2Proof.Machine
open Sys2Proof

-- These many short proofs are checked one after another: side by side they take more memory than they save time.
set_option Elab.async false

/-! ### RepairOps -/

theorem State.writeSpread_keeps {s u : State} {x1} (h : s.Keeps u) : State.Keeps s (State.writeSpread u x1) := by
  unfold State.writeSpread
  repeat' first | with_reducible assumption | dsimp only | (with_reducible refine State.Keeps.lit ?_)
theorem State.dropUntaken_keeps {s u : State} {x1} (h : s.Keeps u) : State.Keeps s (State.dropUntaken u x1) := by
  unfold State.dropUntaken
  repeat' first | with_reducible assumption | with_reducible apply State.setEng_keeps | with_reducible apply State.setYard_keeps | with_reducible apply State.Keeps.foldl | with_reducible intro _
theorem State.killHeld_keeps {s u : State} {x1 x2 x3} (h : s.Keeps u) : State.Keeps s (State.killHeld u x1 x2 x3) := by
  unfold State.killHeld
  repeat' first | with_reducible assumption | with_reducible apply State.endOther_keeps | with_reducible apply State.log_keeps | split
theorem State.killYard_keeps {s u : State} {x1 x2} (h : s.Keeps u) : State.Keeps s (State.killYard u x1 x2) := by
  unfold State.killYard
  repeat' first | with_reducible assumption | with_reducible apply State.killHeld_keeps | with_reducible apply State.Keeps.foldl | with_reducible intro _
theorem State.logRepair_keeps {s u : State} {x1 x2 x3 x4} (h : s.Keeps u) : State.Keeps s (State.logRepair u x1 x2 x3 x4) := by
  unfold State.logRepair
  repeat' first | with_reducible assumption | dsimp only | (with_reducible refine State.Keeps.lit ?_)
theorem State.addEntry_keeps {s u : State} {x1 x2} (h : s.Keeps u) : State.Keeps s (State.addEntry u x1 x2) := by
  unfold State.addEntry
  repeat' first | with_reducible assumption | with_reducible apply State.logRepair_keeps | with_reducible apply State.requestAppend_keeps | dsimp only | (with_reducible refine State.Keeps.lit ?_)
theorem State.setYardUse_keeps {s u : State} {x1 x2} (h : s.Keeps u) : State.Keeps s (State.setYardUse u x1 x2) := by
  unfold State.setYardUse
  repeat' first | with_reducible assumption | dsimp only | (with_reducible refine State.Keeps.lit ?_)
theorem State.dropRecover_keeps {s u : State} {x1} (h : s.Keeps u) : State.Keeps s (State.dropRecover u x1) := by
  unfold State.dropRecover
  repeat' first | with_reducible assumption | dsimp only | (with_reducible refine State.Keeps.lit ?_)
theorem State.retireUnit_keeps {s u : State} {x1} (h : s.Keeps u) : State.Keeps s (State.retireUnit u x1) := by
  unfold State.retireUnit
  repeat' first | with_reducible assumption | dsimp only | (with_reducible refine State.Keeps.lit ?_)
theorem State.forceStep1_keeps {s u : State} {x1} (h : s.Keeps u) : State.Keeps s (State.forceStep1 u x1).1 := by
  unfold State.forceStep1
  repeat' first | with_reducible assumption | with_reducible apply State.writeSpread_keeps | with_reducible apply State.dropUntaken_keeps | with_reducible apply State.killYard_keeps | with_reducible apply State.epochBump_keeps | with_reducible apply State.addEntry_keeps | with_reducible apply State.setYardUse_keeps | with_reducible apply State.dropRecover_keeps | with_reducible apply State.retireUnit_keeps | with_reducible apply State.Keeps.foldl | with_reducible intro _ | split | dsimp only | (with_reducible refine State.Keeps.lit ?_)
theorem State.forceOne_keeps {s u : State} {x1} (h : s.Keeps u) : State.Keeps s (State.forceOne u x1).1 := by
  unfold State.forceOne
  repeat' first | with_reducible assumption | with_reducible apply State.forceStep1_keeps | split
theorem State.swapImages_keeps {s u : State} (h : s.Keeps u) : State.Keeps s (State.swapImages u) := by
  unfold State.swapImages
  repeat' first | with_reducible assumption | split | dsimp only | (with_reducible refine State.Keeps.lit ?_)
theorem State.abortTaken_keeps {s u : State} (h : s.Keeps u) : State.Keeps s (State.abortTaken u) := by
  unfold State.abortTaken
  repeat' first | with_reducible assumption | with_reducible apply State.endCmd_keeps | with_reducible apply State.Keeps.foldl | with_reducible intro _ | split | dsimp only | (with_reducible refine State.Keeps.lit ?_)
theorem State.startSwap_keeps {s u : State} {x1 x2 x3 x4} (h : s.Keeps u) : State.Keeps s (State.startSwap u x1 x2 x3 x4) := by
  unfold State.startSwap
  repeat' first | with_reducible assumption | dsimp only | (with_reducible refine State.Keeps.lit ?_)
theorem State.useSpare_keeps {s u : State} {x1} (h : s.Keeps u) : State.Keeps s (State.useSpare u x1) := by
  unfold State.useSpare
  repeat' first | with_reducible assumption | dsimp only | (with_reducible refine State.Keeps.lit ?_)
theorem State.withdrawSpan_keeps {s u : State} {x1 x2} (h : s.Keeps u) : State.Keeps s (State.withdrawSpan u x1 x2) := by
  unfold State.withdrawSpan
  repeat' first | with_reducible assumption | with_reducible apply State.withdraw_keeps | with_reducible apply State.Keeps.foldl | with_reducible intro _ | split
theorem State.addRecover_keeps {s u : State} {x1} (h : s.Keeps u) : State.Keeps s (State.addRecover u x1) := by
  unfold State.addRecover
  repeat' first | with_reducible assumption | split | dsimp only | (with_reducible refine State.Keeps.lit ?_)
theorem State.failLane_keeps {s u : State} {x1 x2} (h : s.Keeps u) : State.Keeps s (State.failLane u x1 x2) := by
  unfold State.failLane
  repeat' first | with_reducible assumption | with_reducible apply State.log_keeps | with_reducible apply State.setLane_keeps | with_reducible apply State.addEntry_keeps | with_reducible apply State.retireUnit_keeps | split | dsimp only | (with_reducible refine State.Keeps.lit ?_)
theorem State.replaceLane_keeps {s u : State} {x1 x2} (h : s.Keeps u) : State.Keeps s (State.replaceLane u x1 x2) := by
  unfold State.replaceLane
  repeat' first | with_reducible assumption | with_reducible apply State.failLane_keeps | with_reducible apply State.addEntry_keeps | with_reducible apply State.useSpare_keeps | with_reducible apply State.setLane_keeps | split | dsimp only | (with_reducible refine State.Keeps.lit ?_)
theorem State.planLane_keeps {s u : State} {x1 x2} (h : s.Keeps u) : State.Keeps s (State.planLane u x1 x2) := by
  unfold State.planLane
  repeat' first | with_reducible assumption | with_reducible apply State.failLane_keeps | with_reducible apply State.modLane_keeps | with_reducible apply State.replaceLane_keeps | split | dsimp only | (with_reducible refine State.Keeps.lit ?_)
theorem State.loseLane_keeps {s u : State} {x1 x2} (h : s.Keeps u) : State.Keeps s (State.loseLane u x1 x2) := by
  unfold State.loseLane
  repeat' first | with_reducible assumption | with_reducible apply State.failLane_keeps | with_reducible apply State.replaceLane_keeps | split
theorem State.freshNotices_keeps {s u : State} (h : s.Keeps u) : State.Keeps s (State.freshNotices u) := by
  unfold State.freshNotices
  repeat' first | with_reducible assumption | with_reducible apply State.Keeps.foldl | with_reducible intro _ | split | dsimp only | (with_reducible refine State.Keeps.lit ?_)
theorem State.endSwitch_keeps {s u : State} {x1 x2} (h : s.Keeps u) : State.Keeps s (State.endSwitch u x1 x2) := by
  unfold State.endSwitch
  repeat' first | with_reducible assumption | with_reducible apply State.endLong_keeps | with_reducible apply State.nvSettle_keeps | with_reducible apply State.modCtl_keeps | split | dsimp only
theorem State.abandonMpSwitch_keeps {s u : State} (h : s.Keeps u) : State.Keeps s (State.abandonMpSwitch u) := by
  unfold State.abandonMpSwitch
  repeat' first | with_reducible assumption | with_reducible apply State.endSwitch_keeps | with_reducible apply State.log_keeps | split | dsimp only | (with_reducible refine State.Keeps.lit ?_)
theorem State.switchImage_keeps {s u : State} (h : s.Keeps u) : State.Keeps s (State.switchImage u) := by
  unfold State.switchImage
  repeat' first | with_reducible assumption | split | dsimp only | (with_reducible refine State.Keeps.lit ?_)
theorem State.nextSwap_keeps {s u : State} (h : s.Keeps u) : State.Keeps s (State.nextSwap u) := by
  unfold State.nextSwap
  repeat' first | with_reducible assumption | split | dsimp only | (with_reducible refine State.Keeps.lit ?_)
theorem State.urgentRotation_keeps {s u : State} {x1} (h : s.Keeps u) : State.Keeps s (State.urgentRotation u x1) := by
  unfold State.urgentRotation
  repeat' first | with_reducible assumption | with_reducible apply State.nextSwap_keeps | split | dsimp only | (with_reducible refine State.Keeps.lit ?_)
theorem State.sramWeak_keeps {s u : State} {x1 x2 x3} (h : s.Keeps u) : State.Keeps s (State.sramWeak u x1 x2 x3) := by
  unfold State.sramWeak
  repeat' first | with_reducible assumption | with_reducible apply State.logRepair_keeps | with_reducible apply State.addEntry_keeps | with_reducible apply State.useSpare_keeps | with_reducible apply State.retireUnit_keeps | with_reducible apply State.urgentRotation_keeps | with_reducible apply State.withdrawSpan_keeps | with_reducible apply State.Keeps.foldl | with_reducible intro _ | split | dsimp only | (with_reducible refine State.Keeps.lit ?_)
theorem State.retireChannel_keeps {s u : State} {x1} (h : s.Keeps u) : State.Keeps s (State.retireChannel u x1) := by
  unfold State.retireChannel
  repeat' first | with_reducible assumption | with_reducible apply State.addRecover_keeps | split | dsimp only | (with_reducible refine State.Keeps.lit ?_)
theorem State.dramWeak_keeps {s u : State} {x1 x2 x3 x4} (h : s.Keeps u) : State.Keeps s (State.dramWeak u x1 x2 x3 x4) := by
  unfold State.dramWeak
  repeat' first | with_reducible assumption | with_reducible apply State.logRepair_keeps | with_reducible apply State.addEntry_keeps | with_reducible apply State.useSpare_keeps | with_reducible apply State.retireUnit_keeps | with_reducible apply State.withdrawSpan_keeps | with_reducible apply State.retireChannel_keeps | with_reducible apply State.Keeps.foldl | with_reducible intro _ | split | dsimp only | (with_reducible refine State.Keeps.lit ?_)
theorem State.weak_keeps {s u : State} {x1} (h : s.Keeps u) : State.Keeps s (State.weak u x1) := by
  unfold State.weak
  repeat' first | with_reducible assumption | with_reducible apply State.sramWeak_keeps | with_reducible apply State.dramWeak_keeps | split
theorem State.moveYard_keeps {s u : State} {x1 x2 x3} (h : s.Keeps u) : State.Keeps s (State.moveYard u x1 x2 x3) := by
  unfold State.moveYard
  repeat' first | with_reducible assumption | with_reducible apply State.dropUntaken_keeps | with_reducible apply State.setEng_keeps | with_reducible apply State.setYard_keeps | with_reducible apply State.Keeps.foldl | with_reducible intro _
theorem State.dropSwap_keeps {s u : State} (h : s.Keeps u) : State.Keeps s (State.dropSwap u) := by
  unfold State.dropSwap
  repeat' first | with_reducible assumption | dsimp only | (with_reducible refine State.Keeps.lit ?_)
theorem State.bindYard_keeps {s u : State} {x1} (h : s.Keeps u) : State.Keeps s (State.bindYard u x1) := by
  unfold State.bindYard
  repeat' first | with_reducible assumption | with_reducible apply State.moveYard_keeps | with_reducible apply State.setYardUse_keeps | with_reducible apply State.log_keeps | with_reducible apply State.addEntry_keeps | dsimp only | (with_reducible refine State.Keeps.lit ?_)
theorem State.endRotate_keeps {s u : State} {x1 x2 x3} (h : s.Keeps u) : State.Keeps s (State.endRotate u x1 x2 x3) := by
  unfold State.endRotate
  repeat' first | with_reducible assumption | with_reducible apply State.endLong_keeps | split
theorem State.applySwap_keeps {s u : State} (h : s.Keeps u) : State.Keeps s (State.applySwap u) := by
  unfold State.applySwap
  repeat' first | with_reducible assumption | with_reducible apply State.writeSpread_keeps | with_reducible apply State.useSpare_keeps | with_reducible apply State.bindYard_keeps | with_reducible apply State.dropSwap_keeps | with_reducible apply State.nextSwap_keeps | with_reducible apply State.dropRecover_keeps | with_reducible apply State.endRotate_keeps | split
theorem forceAll_keeps {s u : State} {x1} (h : s.Keeps u) : State.Keeps s (forceAll u x1).1 := by
  unfold forceAll
  repeat' first | with_reducible assumption | with_reducible apply State.forceOne_keeps | with_reducible apply State.Keeps.foldl1 | with_reducible intro _
theorem State.turnChannel_keeps {s u : State} (h : s.Keeps u) : State.Keeps s (State.turnChannel u) := by
  unfold State.turnChannel
  repeat' first | with_reducible assumption | with_reducible apply State.useSpare_keeps | with_reducible apply State.retireUnit_keeps | with_reducible apply State.dropRecover_keeps | with_reducible apply State.addEntry_keeps | split | dsimp only | (with_reducible refine State.Keeps.lit ?_)
theorem State.turnMpSwitch_keeps {s u : State} (h : s.Keeps u) : State.Keeps s (State.turnMpSwitch u) := by
  unfold State.turnMpSwitch
  repeat' first | with_reducible assumption | with_reducible apply State.endSwitch_keeps | with_reducible apply State.log_keeps | with_reducible apply State.abortTaken_keeps | split | dsimp only | (with_reducible refine State.Keeps.lit ?_)
theorem State.turnFailover_keeps {s u : State} (h : s.Keeps u) : State.Keeps s (State.turnFailover u) := by
  unfold State.turnFailover
  repeat' first | with_reducible assumption | with_reducible apply State.swapImages_keeps | with_reducible apply State.switchImage_keeps | with_reducible apply State.dropRecover_keeps | with_reducible apply State.logRepair_keeps | with_reducible apply State.freshNotices_keeps | with_reducible apply State.abortTaken_keeps | with_reducible apply State.epochBump_keeps | with_reducible apply State.endSwitch_keeps | split | dsimp only | (with_reducible refine State.Keeps.lit ?_)
theorem State.turnSwaps_keeps {s u : State} (h : s.Keeps u) : State.Keeps s (State.turnSwaps u) := by
  unfold State.turnSwaps
  repeat' first | with_reducible assumption | with_reducible apply forceAll_keeps | with_reducible apply State.nextSwap_keeps | with_reducible apply State.applySwap_keeps | dsimp only | (with_reducible refine State.Keeps.lit ?_)
theorem State.abandonSwap_keeps {s u : State} (h : s.Keeps u) : State.Keeps s (State.abandonSwap u) := by
  unfold State.abandonSwap
  repeat' first | with_reducible assumption | with_reducible apply State.nextSwap_keeps | with_reducible apply State.endRotate_keeps | with_reducible apply State.dropSwap_keeps | split
theorem State.retireRest_keeps {s u : State} {x1} (h : s.Keeps u) : State.Keeps s (State.retireRest u x1) := by
  unfold State.retireRest
  repeat' first | with_reducible assumption | with_reducible apply State.addEntry_keeps | with_reducible apply State.retireUnit_keeps | with_reducible apply State.setYardUse_keeps
theorem State.abandonWaiting_keeps {s u : State} (h : s.Keeps u) : State.Keeps s (State.abandonWaiting u) := by
  unfold State.abandonWaiting
  repeat' first | with_reducible assumption | with_reducible apply State.endRotate_keeps | with_reducible apply State.Keeps.foldl | with_reducible intro _ | dsimp only | (with_reducible refine State.Keeps.lit ?_)

/-! ### NvmeCmds -/

theorem execApstTransition_keeps {s u : State} {x1} (h : s.Keeps u) : State.KeepsNext s (execApstTransition x1 u) := by
  unfold execApstTransition
  repeat' first | with_reducible assumption | with_reducible apply State.setCtl_keeps | with_reducible apply State.Keeps.next | split | dsimp only
theorem State.nvOffer_keeps {s u : State} {x1 x2 x3} (h : s.Keeps u) : State.Keeps s (State.nvOffer u x1 x2 x3) := by
  unfold State.nvOffer
  repeat' first | with_reducible assumption | with_reducible apply State.freeEngine_keeps | with_reducible apply State.arrive_keeps | with_reducible apply State.swapOwner_keeps | split
theorem State.nvIo_keeps {s u : State} {x1 x2} (h : s.Keeps u) : State.Keeps s (State.nvIo u x1 x2) := by
  unfold State.nvIo
  repeat' first | with_reducible assumption | with_reducible apply State.alloc_keeps | with_reducible apply State.allocWaits_keeps | with_reducible apply State.nvFetch_keeps | with_reducible apply State.nvSettle_keeps | with_reducible apply State.freshNat_keeps | with_reducible apply State.bufWrite_keeps | with_reducible apply freeWords_keeps | with_reducible apply State.setOp_keeps | with_reducible apply State.modCtl_keeps | with_reducible apply State.nvOffer_keeps | with_reducible intro _ | split | dsimp only | (with_reducible refine State.Keeps.of2 (by with_reducible assumption) ?_)
theorem execFlush_keeps {s u : State} {x1} (h : s.Keeps u) : State.KeepsNext s (execFlush x1 u) := by
  unfold execFlush
  repeat' first | with_reducible assumption | with_reducible apply State.nvIo_keeps | with_reducible apply State.Keeps.next
theorem State.nvAbortOne_keeps {s u : State} {x1 x2 x3} (h : s.Keeps u) : State.Keeps s (State.nvAbortOne u x1 x2 x3).2 := by
  unfold State.nvAbortOne
  repeat' first | with_reducible assumption | with_reducible apply State.nvEndOut_keeps | with_reducible apply State.nvSettle_keeps | with_reducible apply State.modCtl_keeps | split | dsimp only
theorem State.nvDueOne_keeps {s u : State} {x1 x2} (h : s.Keeps u) : State.Keeps s (State.nvDueOne x1 u x2) := by
  unfold State.nvDueOne
  repeat' first | with_reducible assumption | with_reducible apply State.nvAbortOne_keeps | with_reducible apply State.nvSettle_keeps | with_reducible apply State.nvEndOut_keeps | with_reducible apply State.modCtl_keeps | with_reducible apply State.Keeps.foldl | with_reducible intro _ | split
theorem State.nvAdminDone_keeps {s u : State} {x1 x2 x3 x4} (h : s.Keeps u) : State.Keeps s (State.nvAdminDone u x1 x2 x3 x4) := by
  unfold State.nvAdminDone
  repeat' first | with_reducible assumption | with_reducible apply State.nvSettle_keeps
theorem State.nvAdmin_keeps {s u : State} {x1} {f : State → Option Nat → State} (h : s.Keeps u) (hf : ∀ u o, s.Keeps u → s.Keeps (f u o)) : State.Keeps s (State.nvAdmin u x1 f) := by
  unfold State.nvAdmin
  repeat' first | with_reducible assumption | with_reducible apply hf | with_reducible apply State.nvFetch_keeps | with_reducible apply State.nvAdminDone_keeps | with_reducible intro _ | split
theorem execFirmwareImageDownload_keeps {s u : State} {x1 x2} (h : s.Keeps u) : State.KeepsNext s (execFirmwareImageDownload x1 x2 u) := by
  unfold execFirmwareImageDownload
  repeat' first | with_reducible assumption | with_reducible apply State.nvAdmin_keeps | with_reducible apply State.nvAdminDone_keeps | with_reducible apply State.slotWrite_keeps | with_reducible apply State.Keeps.next | with_reducible intro _ | split | dsimp only
theorem State.nvDueAll_keeps {s u : State} {x1} (h : s.Keeps u) : State.Keeps s (State.nvDueAll u x1) := by
  unfold State.nvDueAll
  repeat' first | with_reducible assumption | with_reducible apply State.nvDueOne_keeps | with_reducible apply State.modCtl_keeps | with_reducible apply State.Keeps.foldl | with_reducible intro _
theorem execNvmeWrite_keeps {s u : State} {x1} (h : s.Keeps u) : State.KeepsNext s (execNvmeWrite x1 u) := by
  unfold execNvmeWrite
  repeat' first | with_reducible assumption | with_reducible apply State.nvIo_keeps | with_reducible apply State.Keeps.next
theorem State.nvRelease_keeps {s u : State} {x1} (h : s.Keeps u) : State.Keeps s (State.nvRelease u x1) := by
  unfold State.nvRelease
  repeat' first | with_reducible assumption | with_reducible apply State.modCtl_keeps | with_reducible apply State.nvOffer_keeps | with_reducible apply State.Keeps.foldl | with_reducible intro _ | split
theorem State.nvReturn_keeps {s u : State} {x1 x2 x3} (h : s.Keeps u) : State.Keeps s (State.nvReturn u x1 x2 x3) := by
  unfold State.nvReturn
  repeat' first | with_reducible assumption | with_reducible apply State.nvAdminDone_keeps | with_reducible apply State.nvData_keeps | split
theorem execGetLogPage_keeps {s u : State} {x1} (h : s.Keeps u) : State.KeepsNext s (execGetLogPage x1 u) := by
  unfold execGetLogPage
  repeat' first | with_reducible assumption | with_reducible apply State.nvAdmin_keeps | with_reducible apply State.nvReturn_keeps | with_reducible apply State.Keeps.next | with_reducible intro _
theorem execPowerStateTransitionEnd_keeps {s u : State} {x1} (h : s.Keeps u) : State.KeepsNext s (execPowerStateTransitionEnd x1 u) := by
  unfold execPowerStateTransitionEnd
  repeat' first | with_reducible assumption | with_reducible apply State.nvPowerSet_keeps | with_reducible apply State.setCtl_keeps | with_reducible apply State.pumpBackends_keeps | with_reducible apply State.nvRelease_keeps | with_reducible apply State.modCtl_keeps | with_reducible apply State.nvWake_keeps | with_reducible apply State.Keeps.next | split | dsimp only
theorem execDeleteIoSubmissionQueue_keeps {s u : State} {x1} (h : s.Keeps u) : State.KeepsNext s (execDeleteIoSubmissionQueue x1 u) := by
  unfold execDeleteIoSubmissionQueue
  repeat' first | with_reducible assumption | with_reducible apply State.nvAdmin_keeps | with_reducible apply State.nvAdminDone_keeps | with_reducible apply State.modCtl_keeps | with_reducible apply State.Keeps.next | with_reducible intro _ | split | dsimp only
theorem State.nvSetPower_keeps {s u : State} {x1 x2} (h : s.Keeps u) : State.Keeps s (State.nvSetPower u x1 x2) := by
  unfold State.nvSetPower
  repeat' first | with_reducible assumption | with_reducible apply State.nvAdminDone_keeps | with_reducible apply State.nvPowerSet_keeps | with_reducible apply State.setCtl_keeps | split | dsimp only
theorem execAsynchronousEventRequest_keeps {s u : State} {x1} (h : s.Keeps u) : State.KeepsNext s (execAsynchronousEventRequest x1 u) := by
  unfold execAsynchronousEventRequest
  repeat' first | with_reducible assumption | with_reducible apply State.nvFetch_keeps | with_reducible apply State.nvAdminDone_keeps | with_reducible apply State.pme_keeps | with_reducible apply State.nvSettle_keeps | with_reducible apply State.setCtl_keeps | with_reducible apply State.Keeps.next | with_reducible intro _ | split | dsimp only
theorem execCreateIoCompletionQueue_keeps {s u : State} {x1} (h : s.Keeps u) : State.KeepsNext s (execCreateIoCompletionQueue x1 u) := by
  unfold execCreateIoCompletionQueue
  repeat' first | with_reducible assumption | with_reducible apply State.nvAdmin_keeps | with_reducible apply State.nvAdminDone_keeps | with_reducible apply State.modCtl_keeps | with_reducible apply State.Keeps.next | with_reducible intro _ | split | dsimp only
theorem execGetFeatures_keeps {s u : State} {x1} (h : s.Keeps u) : State.KeepsNext s (execGetFeatures x1 u) := by
  unfold execGetFeatures
  repeat' first | with_reducible assumption | with_reducible apply State.nvAdmin_keeps | with_reducible apply State.nvAdminDone_keeps | with_reducible apply State.nvData_keeps | with_reducible apply State.Keeps.next | with_reducible intro _ | split
theorem execDeleteIoCompletionQueue_keeps {s u : State} {x1} (h : s.Keeps u) : State.KeepsNext s (execDeleteIoCompletionQueue x1 u) := by
  unfold execDeleteIoCompletionQueue
  repeat' first | with_reducible assumption | with_reducible apply State.nvAdmin_keeps | with_reducible apply State.nvAdminDone_keeps | with_reducible apply State.modCtl_keeps | with_reducible apply State.Keeps.next | with_reducible intro _ | split | dsimp only
theorem execNvmeAbort_keeps {s u : State} {x1} (h : s.Keeps u) : State.KeepsNext s (execNvmeAbort x1 u) := by
  unfold execNvmeAbort
  repeat' first | with_reducible assumption | with_reducible apply State.nvAdmin_keeps | with_reducible apply State.modCtl_keeps | with_reducible apply State.Keeps.next | with_reducible intro _
theorem execFirmwareCommit_keeps {s u : State} {x1} (h : s.Keeps u) : s.KeepsNext (execFirmwareCommit x1 u) := by
  refine State.Keeps.next (State.nvAdmin_keeps h (fun v op g => ?_))
  have w : ∀ n, s.Keeps (v.writeMarker n) := fun n => State.writeMarker_keeps g
  have d : ∀ {t : State} {a b c e}, s.Keeps t → s.Keeps (t.nvAdminDone a b c e) := fun q => State.nvAdminDone_keeps q
  refine iteInduction (motive := fun t => s.Keeps t) (fun _ => d g) (fun _ => ?_)
  generalize v.fsSlot (dw x1.cdw10 0 3) = o
  cases o with
  | none => exact d g
  | some slot =>
    refine iteInduction (motive := fun t => s.Keeps t) (fun _ => d g) (fun _ => ?_)
    refine iteInduction (motive := fun t => s.Keeps t) (fun _ => d g) (fun _ => ?_)
    refine iteInduction (motive := fun t => s.Keeps t) (fun _ => d g) (fun _ => ?_)
    refine iteInduction (motive := fun t => s.Keeps t) (fun _ => d g) (fun _ => ?_)
    refine iteInduction (motive := fun t => s.Keeps t) (fun _ => d g) (fun _ => ?_)
    refine iteInduction (motive := fun t => s.Keeps t) (fun _ => d g) (fun _ => ?_)
    refine iteInduction (motive := fun t => s.Keeps t) (fun _ => d (w _)) (fun _ => ?_)
    refine iteInduction (motive := fun t => s.Keeps t) (fun _ => d (w _)) (fun _ => ?_)
    have q : s.Keeps (if ((v.writeMarker slot).ctl 2).aec.getLsbD 9 then (v.writeMarker slot).nvEvent 2 evtActivation true else v.writeMarker slot) :=
      iteInduction (motive := fun t => s.Keeps t) (fun _ => State.nvEvent_keeps (w _)) (fun _ => w _)
    dsimp only
    generalize (if ((v.writeMarker slot).ctl 2).aec.getLsbD 9 then (v.writeMarker slot).nvEvent 2 evtActivation true else v.writeMarker slot) = t at q ⊢
    with_reducible refine State.modCtl_keeps ?_
    with_reducible refine State.Keeps.lit ?_
    with_reducible exact q
theorem execSetFeatures_keeps {s u : State} {x1 x2} (h : s.Keeps u) : State.KeepsNext s (execSetFeatures x1 x2 u) := by
  unfold execSetFeatures
  repeat' first | with_reducible assumption | with_reducible apply State.nvAdmin_keeps | with_reducible apply State.nvAdminDone_keeps | with_reducible apply State.modCtl_keeps | with_reducible apply State.nvSetPower_keeps | with_reducible apply State.Keeps.next | with_reducible intro _ | split | dsimp only
theorem execNvmeIdentify_keeps {s u : State} {x1} (h : s.Keeps u) : State.KeepsNext s (execNvmeIdentify x1 u) := by
  unfold execNvmeIdentify
  repeat' first | with_reducible assumption | with_reducible apply State.nvAdmin_keeps | with_reducible apply State.nvReturn_keeps | with_reducible apply State.Keeps.next | with_reducible intro _
theorem execKeepAliveExpiry_keeps {s u : State} {x1} (h : s.Keeps u) : State.KeepsNext s (execKeepAliveExpiry x1 u) := by
  unfold execKeepAliveExpiry
  repeat' first | with_reducible assumption | with_reducible apply State.log_keeps | with_reducible apply State.setCtl_keeps | with_reducible apply State.Keeps.next | split | dsimp only
theorem execKeepAlive_keeps {s u : State} {x1} (h : s.Keeps u) : State.KeepsNext s (execKeepAlive x1 u) := by
  unfold execKeepAlive
  repeat' first | with_reducible assumption | with_reducible apply State.nvAdmin_keeps | with_reducible apply State.nvAdminDone_keeps | with_reducible apply State.modCtl_keeps | with_reducible apply State.Keeps.next | with_reducible intro _
theorem execNvmeRead_keeps {s u : State} {x1} (h : s.Keeps u) : State.KeepsNext s (execNvmeRead x1 u) := by
  unfold execNvmeRead
  repeat' first | with_reducible assumption | with_reducible apply State.nvIo_keeps | with_reducible apply State.Keeps.next
theorem execCreateIoSubmissionQueue_keeps {s u : State} {x1} (h : s.Keeps u) : State.KeepsNext s (execCreateIoSubmissionQueue x1 u) := by
  unfold execCreateIoSubmissionQueue
  repeat' first | with_reducible assumption | with_reducible apply State.nvAdmin_keeps | with_reducible apply State.nvAdminDone_keeps | with_reducible apply State.modCtl_keeps | with_reducible apply State.Keeps.next | with_reducible intro _ | split | dsimp only

/-! ### RdmaOps -/

theorem State.setReg_keeps {s u : State} {x1 x2} (h : s.Keeps u) : State.Keeps s (State.setReg u x1 x2) := by
  unfold State.setReg
  repeat' first | with_reducible assumption | dsimp only | (with_reducible refine State.Keeps.lit ?_)
theorem State.inflight_keeps {s u : State} {x1 x2} (h : s.Keeps u) : State.Keeps s (State.inflight u x1 x2) := by
  unfold State.inflight
  repeat' first | with_reducible assumption | with_reducible apply State.setReg_keeps | split
theorem State.endSubmit_keeps {s u : State} {x1} (h : s.Keeps u) : State.Keeps s (State.endSubmit u x1) := by
  unfold State.endSubmit
  repeat' first | with_reducible assumption | with_reducible apply State.removeOwner_keeps | split | dsimp only
theorem State.rdmaCount_keeps {s u : State} {x1 x2 x3} (h : s.Keeps u) : State.Keeps s (State.rdmaCount u x1 x2 x3) := by
  unfold State.rdmaCount
  repeat' first | with_reducible assumption | split | dsimp only | (with_reducible refine State.Keeps.lit ?_)
theorem State.modCtx_keeps {s u : State} {x1 x2} (h : s.Keeps u) : State.Keeps s (State.modCtx u x1 x2) := by
  unfold State.modCtx
  repeat' first | with_reducible assumption | with_reducible apply State.setCtx_keeps | split
theorem State.spillCtx_keeps {s u : State} {x1} (h : s.Keeps u) : State.Keeps s (State.spillCtx u x1) := by
  unfold State.spillCtx
  repeat' first | with_reducible assumption | with_reducible apply State.rdmaCount_keeps | with_reducible apply State.hostWrite_keeps | with_reducible apply State.setCtx_keeps | split
theorem State.startFill_keeps {s u : State} {x1} (h : s.Keeps u) : State.Keeps s (State.startFill u x1) := by
  unfold State.startFill
  repeat' first | with_reducible assumption | with_reducible apply State.rdmaCount_keeps | with_reducible apply State.modCtx_keeps | with_reducible apply State.spillCtx_keeps | split | dsimp only
theorem State.missWaits_keeps {s u : State} {x1 x2 x3} (h : s.Keeps u) : State.Keeps s (State.missWaits u x1 x2 x3) := by
  unfold State.missWaits
  repeat' first | with_reducible assumption | with_reducible apply State.rdmaCount_keeps | with_reducible apply State.startFill_keeps | split | dsimp only | (with_reducible refine State.Keeps.lit ?_)
theorem State.touchCtx_keeps {s u : State} {x1} (h : s.Keeps u) : State.Keeps s (State.touchCtx u x1) := by
  unfold State.touchCtx
  repeat' first | with_reducible assumption | with_reducible apply State.modCtx_keeps | dsimp only | (with_reducible refine State.Keeps.lit ?_)
theorem State.keepUnsent_keeps {s u : State} {x1} (h : s.Keeps u) : State.Keeps s (State.keepUnsent u x1) := by
  unfold State.keepUnsent
  repeat' first | with_reducible assumption | dsimp only | (with_reducible refine State.Keeps.lit ?_)
theorem State.sendUnsent_keeps {s u : State} {x1} (h : s.Keeps u) : State.Keeps s (State.sendUnsent u x1) := by
  induction x1 generalizing u with
  | nil => unfold State.sendUnsent; repeat' first | with_reducible assumption
  | cons a l ih => unfold State.sendUnsent; repeat' first | with_reducible assumption | with_reducible apply ih | with_reducible apply State.alloc_keeps | with_reducible apply State.keepUnsent_keeps | with_reducible apply State.allocWaits_keeps | with_reducible apply State.swapOwner_keeps | with_reducible apply State.bufWrite_keeps | split | dsimp only | (with_reducible refine State.Keeps.of2 (by with_reducible assumption) ?_) | (with_reducible refine State.Keeps.lit ?_)
theorem State.sendPacket_keeps {s u : State} {x1 x2 x3 x4 x5 x6} (h : s.Keeps u) : State.Keeps s (State.sendPacket u x1 x2 x3 x4 x5 x6) := by
  unfold State.sendPacket
  repeat' first | with_reducible assumption | with_reducible apply State.rdmaCount_keeps | with_reducible apply State.sendUnsent_keeps | with_reducible apply State.keepUnsent_keeps | split
theorem State.sendReq_keeps {s u : State} {x1 x2 x3 x4} (h : s.Keeps u) : State.Keeps s (State.sendReq u x1 x2 x3 x4) := by
  unfold State.sendReq
  repeat' first | with_reducible assumption | with_reducible apply State.sendPacket_keeps
theorem State.sendReadReq_keeps {s u : State} {x1 x2 x3 x4} (h : s.Keeps u) : State.Keeps s (State.sendReadReq u x1 x2 x3 x4) := by
  unfold State.sendReadReq
  repeat' first | with_reducible assumption | with_reducible apply State.sendReq_keeps | with_reducible apply State.rdmaCount_keeps | split
theorem sendPayload_keeps {s u : State} {x1 x2 x3 x4 x5 x6 x7} (h : s.Keeps u) : State.Keeps s (sendPayload x1 x2 x3 x4 x5 x6 x7 u) := by
  induction x5 generalizing u x1 x2 x3 x4 x6 x7 with
  | zero => unfold sendPayload; repeat' first | with_reducible assumption
  | succ k ih => unfold sendPayload; repeat' first | with_reducible assumption | with_reducible apply ih | with_reducible apply State.sendReq_keeps | with_reducible apply State.rdmaCount_keeps | split
theorem State.sendWqe_keeps {s u : State} {x1 x2 x3} (h : s.Keeps u) : State.Keeps s (State.sendWqe u x1 x2 x3) := by
  unfold State.sendWqe
  repeat' first | with_reducible assumption | with_reducible apply State.setCtx_keeps | with_reducible apply State.sendReadReq_keeps | with_reducible apply sendPayload_keeps | split
theorem pumpCtx_keeps {s u : State} {x1 x2} (h : s.Keeps u) : State.Keeps s (pumpCtx x1 x2 u) := by
  induction x2 generalizing u x1 with
  | zero => unfold pumpCtx; repeat' first | with_reducible assumption
  | succ k ih => unfold pumpCtx; repeat' first | with_reducible assumption | with_reducible apply ih | with_reducible apply State.sendWqe_keeps | split
theorem State.pump_keeps {s u : State} {x1} (h : s.Keeps u) : State.Keeps s (State.pump u x1) := by
  unfold State.pump
  repeat' first | with_reducible assumption | with_reducible apply pumpCtx_keeps | split
theorem State.readPayload_keeps {s u : State} {x1 x2 x3 x4 x5 x6} (h : s.Keeps u) : State.Keeps s (State.readPayload u x1 x2 x3 x4 x5 x6) := by
  unfold State.readPayload
  repeat' first | with_reducible assumption | with_reducible apply State.startRead_keeps
theorem State.aeth_keeps {s u : State} {x1} (h : s.Keeps u) : State.Keeps s (State.aeth u x1).2 := by
  unfold State.aeth
  repeat' first | with_reducible assumption | with_reducible apply State.freshNat_keeps
theorem State.sendReply_keeps {s u : State} {x1 x2 x3 x4} (h : s.Keeps u) : State.Keeps s (State.sendReply u x1 x2 x3 x4) := by
  unfold State.sendReply
  repeat' first | with_reducible assumption | with_reducible apply State.sendPacket_keeps
theorem State.sendAck_keeps {s u : State} {x1 x2 x3} (h : s.Keeps u) : State.Keeps s (State.sendAck u x1 x2 x3) := by
  unfold State.sendAck
  repeat' first | with_reducible assumption | with_reducible apply State.aeth_keeps | with_reducible apply State.sendReply_keeps | split
theorem State.nakError_keeps {s u : State} {x1 x2 x3 x4 x5} (h : s.Keeps u) : State.Keeps s (State.nakError u x1 x2 x3 x4 x5) := by
  unfold State.nakError
  repeat' first | with_reducible assumption | with_reducible apply State.aeth_keeps | with_reducible apply State.sendReply_keeps | with_reducible apply State.sendAck_keeps | with_reducible apply State.errorCtx_keeps | with_reducible apply State.rdmaCount_keeps | split
theorem State.sendSprayAck_keeps {s u : State} {x1 x2 x3} (h : s.Keeps u) : State.Keeps s (State.sendSprayAck u x1 x2 x3) := by
  unfold State.sendSprayAck
  repeat' first | with_reducible assumption | with_reducible apply State.sendReply_keeps | split
theorem State.endWqe_keeps {s u : State} {x1 x2 x3} (h : s.Keeps u) : State.Keeps s (State.endWqe u x1 x2 x3) := by
  unfold State.endWqe
  repeat' first | with_reducible assumption | with_reducible apply State.reply_keeps | with_reducible apply State.setCtx_keeps | with_reducible apply State.errorCtx_keeps | split
theorem State.afterPlace_keeps {s u : State} {x1} (h : s.Keeps u) : State.Keeps s (State.afterPlace u x1) := by
  unfold State.afterPlace
  repeat' first | with_reducible assumption | with_reducible apply State.reply_keeps | with_reducible apply State.sendAck_keeps | with_reducible apply State.sendSprayAck_keeps | with_reducible apply State.endWqe_keeps | split
theorem State.holdPlace_keeps {s u : State} {x1 x2 x3 x4 x5} (h : s.Keeps u) : State.Keeps s (State.holdPlace u x1 x2 x3 x4 x5) := by
  unfold State.holdPlace
  repeat' first | with_reducible assumption | with_reducible apply State.hold_keeps | with_reducible apply State.inflight_keeps | with_reducible apply State.afterPlace_keeps | with_reducible apply State.Keeps.foldl | with_reducible intro _ | split | dsimp only
theorem State.place_keeps {s u : State} {x1 x2 x3 x4 x5} (h : s.Keeps u) : State.KeepsSome s (State.place u x1 x2 x3 x4 x5) := by
  unfold State.place
  repeat' first | with_reducible assumption | with_reducible apply State.holdPlace_keeps | with_reducible apply State.afterPlace_keeps | with_reducible apply State.issueWrite_keeps | with_reducible apply State.Keeps.some | with_reducible exact State.Keeps.none _ | split
theorem State.endPkt_keeps {s u : State} {x1} (h : s.Keeps u) : State.Keeps s (State.endPkt u x1) := by
  unfold State.endPkt
  repeat' first | with_reducible assumption | with_reducible apply State.removeOwner_keeps | split | dsimp only | (with_reducible refine State.Keeps.lit ?_)
theorem State.setWqe_keeps {s u : State} {x1 x2} (h : s.Keeps u) : State.Keeps s (State.setWqe u x1 x2) := by
  unfold State.setWqe
  repeat' first | with_reducible assumption | with_reducible apply State.modCtx_keeps
theorem State.resendFrom_keeps {s u : State} {x1 x2} (h : s.Keeps u) : State.Keeps s (State.resendFrom u x1 x2) := by
  unfold State.resendFrom
  repeat' first | with_reducible assumption | with_reducible apply State.sendReadReq_keeps | with_reducible apply State.readPayload_keeps | with_reducible apply State.setCtx_keeps | with_reducible apply State.Keeps.foldl | with_reducible intro _ | split | dsimp only
theorem State.freeRead_keeps {s u : State} {x1 x2} (h : s.Keeps u) : State.Keeps s (State.freeRead u x1 x2) := by
  unfold State.freeRead
  repeat' first | with_reducible assumption | with_reducible apply State.setCtx_keeps | with_reducible apply State.endRead_keeps | split
theorem State.freeReg_keeps {s u : State} {x1} (h : s.Keeps u) : State.Keeps s (State.freeReg u x1) := by
  unfold State.freeReg
  repeat' first | with_reducible assumption | with_reducible apply State.setReg_keeps
theorem State.indexSlot_keeps {s u : State} {x1 x2} (h : s.Keeps u) : State.Keeps s (State.indexSlot u x1 x2) := by
  unfold State.indexSlot
  repeat' first | with_reducible assumption | with_reducible apply State.ctlWrite_keeps
theorem State.dropMiss_keeps {s u : State} {x1} (h : s.Keeps u) : State.Keeps s (State.dropMiss u x1) := by
  unfold State.dropMiss
  repeat' first | with_reducible assumption | with_reducible apply State.rdmaCount_keeps | with_reducible apply State.endPkt_keeps | with_reducible apply State.reply_keeps | with_reducible apply State.endSubmit_keeps | split
theorem State.payloadRead_keeps {s u : State} {x1 x2 x3 x4 x5 x6} (h : s.Keeps u) : State.Keeps s (State.payloadRead u x1 x2 x3 x4 x5 x6) := by
  unfold State.payloadRead
  repeat' first | with_reducible assumption | with_reducible apply State.endWqe_keeps | with_reducible apply sendPayload_keeps | with_reducible apply State.modCtx_keeps | with_reducible apply State.setWqe_keeps | with_reducible apply State.pump_keeps | split
theorem sendResponse_keeps {s u : State} {x1 x2 x3 x4 x5 x6 x7} (h : s.Keeps u) : State.Keeps s (sendResponse x1 x2 x3 x4 x5 x6 x7 u) := by
  induction x5 generalizing u x1 x2 x3 x4 x6 x7 with
  | zero => unfold sendResponse; repeat' first | with_reducible assumption
  | succ k ih => unfold sendResponse; repeat' first | with_reducible assumption | with_reducible apply ih | with_reducible apply State.sendReply_keeps | with_reducible apply State.aeth_keeps | with_reducible apply State.rdmaCount_keeps | split
theorem flushReads_keeps {s u : State} {x1 x2} (h : s.Keeps u) : State.Keeps s (flushReads x1 x2 u) := by
  induction x2 generalizing u x1 with
  | zero => unfold flushReads; repeat' first | with_reducible assumption
  | succ k ih => unfold flushReads; repeat' first | with_reducible assumption | with_reducible apply ih | with_reducible apply State.endRead_keeps | with_reducible apply State.modCtx_keeps | with_reducible apply sendResponse_keeps | split
theorem State.readServed_keeps {s u : State} {x1 x2 x3 x4 x5 x6 x7} (h : s.Keeps u) : State.Keeps s (State.readServed u x1 x2 x3 x4 x5 x6 x7) := by
  unfold State.readServed
  repeat' first | with_reducible assumption | with_reducible apply State.inflight_keeps | with_reducible apply State.nakError_keeps | with_reducible apply sendResponse_keeps | with_reducible apply State.modCtx_keeps | with_reducible apply flushReads_keeps | with_reducible apply State.setCtx_keeps | split | dsimp only
theorem State.startWork_keeps {s u : State} {x1} (h : s.Keeps u) : State.Keeps s (State.startWork u x1) := by
  unfold State.startWork
  repeat' first | with_reducible assumption | with_reducible apply State.pump_keeps | with_reducible apply State.readPayload_keeps | with_reducible apply State.Keeps.foldl | with_reducible intro _ | split
theorem scatterWrite_keeps {s u : State} {x1 x2 x3 x4} (h : s.Keeps u) : State.Keeps s (scatterWrite x1 u x2 x3 x4) := by
  induction x2 generalizing u x1 x3 x4 with
  | nil => unfold scatterWrite; repeat' first | with_reducible assumption
  | cons a l ih => unfold scatterWrite; repeat' first | with_reducible assumption | with_reducible apply ih | with_reducible apply State.dataWrite_keeps | split
theorem State.indexRead_keeps {s u : State} {x1 x2} (h : s.Keeps u) : State.Keeps s (State.indexRead u x1 x2).2 := by
  unfold State.indexRead
  repeat' first | with_reducible assumption | with_reducible apply State.lineFailed_keeps | with_reducible apply State.ctlRead_keeps | split | dsimp only
theorem State.retryFills_keeps {s u : State} (h : s.Keeps u) : State.Keeps s (State.retryFills u) := by
  unfold State.retryFills
  repeat' first | with_reducible assumption | with_reducible apply State.startFill_keeps | with_reducible apply State.Keeps.foldl | with_reducible intro _
theorem State.retryUnsent_keeps {s u : State} (h : s.Keeps u) : State.Keeps s (State.retryUnsent u) := by
  unfold State.retryUnsent
  repeat' first | with_reducible assumption | with_reducible apply State.sendUnsent_keeps | dsimp only | (with_reducible refine State.Keeps.lit ?_)

/-! ### Resets -/

theorem State.unissued_keeps {s u : State} {x1} (h : s.Keeps u) : State.Keeps s (State.unissued u x1) := by
  unfold State.unissued
  repeat' first | with_reducible assumption | split | dsimp only | (with_reducible refine State.Keeps.lit ?_)
theorem State.discardHeld_keeps {s u : State} {x1} (h : s.Keeps u) : State.Keeps s (State.discardHeld u x1) := by
  unfold State.discardHeld
  repeat' first | with_reducible assumption | with_reducible apply State.unissued_keeps | with_reducible apply State.inflight_keeps | split
theorem State.closeDead_keeps {s u : State} {x1 x2} (h : s.Keeps u) : State.Keeps s (State.closeDead u x1 x2) := by
  unfold State.closeDead
  repeat' first | with_reducible assumption | with_reducible apply State.dropGroup_keeps | with_reducible apply State.dropHostName_keeps | with_reducible apply State.inflight_keeps | split
theorem State.orphanReads_keeps {s u : State} {x1} (h : s.Keeps u) : State.Keeps s (State.orphanReads u x1) := by
  unfold State.orphanReads
  repeat' first | with_reducible assumption | with_reducible apply State.unissued_keeps | with_reducible apply State.closeDead_keeps | with_reducible apply State.Keeps.foldl | with_reducible intro _ | split | dsimp only | (with_reducible refine State.Keeps.lit ?_)
theorem State.resetFn_keeps {s u : State} {x1} (h : s.Keeps u) : State.Keeps s (State.resetFn u x1) := by
  unfold State.resetFn
  repeat' first | with_reducible assumption | with_reducible apply State.discardHeld_keeps | with_reducible apply State.orphanReads_keeps | with_reducible apply State.forgetRings_keeps | with_reducible apply State.nvReset_keeps | with_reducible apply State.setFn_keeps | with_reducible apply State.Keeps.foldl | split
theorem State.resetPf0_keeps {s u : State} (h : s.Keeps u) : State.Keeps s (State.resetPf0 u) := by
  unfold State.resetPf0
  repeat' first | with_reducible assumption | with_reducible apply State.epochBump_keeps | with_reducible apply State.resetFn_keeps | dsimp only | (with_reducible refine State.Keeps.lit ?_)
theorem State.revoking_keeps {s u : State} {x1} (h : s.Keeps u) : State.Keeps s (State.revoking u x1) := by
  unfold State.revoking
  repeat' first | with_reducible assumption | with_reducible apply State.setReg_keeps | split | dsimp only
theorem State.settleReg_keeps {s u : State} {x1} (h : s.Keeps u) : State.Keeps s (State.settleReg u x1) := by
  unfold State.settleReg
  repeat' first | with_reducible assumption | with_reducible apply State.freeReg_keeps | split | dsimp only
theorem State.destroyCtx_keeps {s u : State} {x1} (h : s.Keeps u) : State.Keeps s (State.destroyCtx u x1) := by
  unfold State.destroyCtx
  repeat' first | with_reducible assumption | with_reducible apply State.indexSlot_keeps | with_reducible apply State.setCtx_keeps | with_reducible apply State.errorCtx_keeps | with_reducible apply State.dropMiss_keeps | with_reducible apply State.Keeps.foldl | with_reducible intro _ | dsimp only | (with_reducible refine State.Keeps.lit ?_)
theorem State.detach_keeps {s u : State} {x1 x2} (h : s.Keeps u) : State.Keeps s (State.detach u x1 x2) := by
  unfold State.detach
  repeat' first | with_reducible assumption | with_reducible apply State.nvEndOut_keeps | with_reducible apply State.Keeps.foldl | with_reducible intro _ | dsimp only | (with_reducible refine State.Keeps.lit ?_)
theorem State.clearKeys_keeps {s u : State} {x1} (h : s.Keeps u) : State.Keeps s (State.clearKeys u x1) := by
  unfold State.clearKeys
  repeat' first | with_reducible assumption | dsimp only | (with_reducible refine State.Keeps.lit ?_)
theorem State.destroyOn_keeps {s u : State} {x1} (h : s.Keeps u) : State.Keeps s (State.destroyOn u x1) := by
  unfold State.destroyOn
  repeat' first | with_reducible assumption | with_reducible apply State.revoking_keeps | with_reducible apply State.settleReg_keeps | with_reducible apply State.destroyCtx_keeps | with_reducible apply State.detach_keeps | with_reducible apply State.modInst_keeps | with_reducible apply State.setInst_keeps | with_reducible apply State.clearKeys_keeps | with_reducible apply State.Keeps.foldl | with_reducible intro _ | split | dsimp only
theorem State.destroyDone_keeps {s u : State} {x1} (h : s.Keeps u) : State.Keeps s (State.destroyDone u x1) := by
  unfold State.destroyDone
  repeat' first | with_reducible assumption | with_reducible apply State.destroyOn_keeps | with_reducible apply State.endLong_keeps | with_reducible apply State.log_keeps | split | dsimp only
theorem State.resetDone_keeps {s u : State} {x1} (h : s.Keeps u) : State.Keeps s (State.resetDone u x1) := by
  unfold State.resetDone
  repeat' first | with_reducible assumption | with_reducible apply State.modInst_keeps | with_reducible apply State.endLong_keeps | split | dsimp only
theorem State.errorCtxs_keeps {s u : State} {x1} (h : s.Keeps u) : State.Keeps s (State.errorCtxs u x1) := by
  unfold State.errorCtxs
  repeat' first | with_reducible assumption | with_reducible apply State.errorCtx_keeps | with_reducible apply State.Keeps.foldl | with_reducible intro _ | split
theorem State.resetInst_keeps {s u : State} {x1} (h : s.Keeps u) : State.Keeps s (State.resetInst u x1) := by
  unfold State.resetInst
  repeat' first | with_reducible assumption | with_reducible apply State.modInst_keeps | with_reducible apply State.advanceGen_keeps | with_reducible apply State.errorCtxs_keeps | with_reducible apply State.resetFn_keeps | with_reducible apply State.Keeps.foldl | split
theorem State.settleRevokes_keeps {s u : State} (h : s.Keeps u) : State.Keeps s (State.settleRevokes u) := by
  unfold State.settleRevokes
  repeat' first | with_reducible assumption | with_reducible apply State.settleReg_keeps | with_reducible apply State.endLong_keeps | with_reducible apply State.Keeps.foldl | with_reducible intro _ | split | dsimp only
theorem State.abortSave_keeps {s u : State} {x1} (h : s.Keeps u) : State.Keeps s (State.abortSave u x1) := by
  unfold State.abortSave
  repeat' first | with_reducible assumption | with_reducible apply State.endLong_keeps | split
theorem State.flrVf_keeps {s u : State} {x1} (h : s.Keeps u) : State.Keeps s (State.flrVf u x1) := by
  unfold State.flrVf
  repeat' first | with_reducible assumption | with_reducible apply State.resetFn_keeps | with_reducible apply State.modInst_keeps | with_reducible apply State.abortSave_keeps | with_reducible apply State.advanceGen_keeps | with_reducible apply State.errorCtxs_keeps | split
theorem State.resetVfs_keeps {s u : State} {x1} (h : s.Keeps u) : State.Keeps s (State.resetVfs u x1) := by
  unfold State.resetVfs
  repeat' first | with_reducible assumption | with_reducible apply State.flrVf_keeps | with_reducible apply State.Keeps.foldl
theorem State.flrPf_keeps {s u : State} {x1} (h : s.Keeps u) : State.Keeps s (State.flrPf u x1) := by
  unfold State.flrPf
  repeat' first | with_reducible assumption | with_reducible apply State.resetPf0_keeps | with_reducible apply State.resetFn_keeps | with_reducible apply State.resetVfs_keeps | split

/-! ### Instances -/

theorem State.resizeInst_keeps {s u : State} {x1 x2} (h : s.Keeps u) : State.Keeps s (State.resizeInst u x1 x2) := by
  unfold State.resizeInst
  repeat' first | with_reducible assumption | with_reducible apply State.modInst_keeps
theorem State.restoreCtl_keeps {s u : State} {x1 x2 x3} (h : s.Keeps u) : State.Keeps s (State.restoreCtl u x1 x2 x3) := by
  unfold State.restoreCtl
  repeat' first | with_reducible assumption | with_reducible apply freeWords_keeps | with_reducible apply State.nvEnable_keeps | with_reducible apply State.modCtl_keeps | split
theorem State.installCtx_keeps {s u : State} {x1 x2} (h : s.Keeps u) : State.Keeps s (State.installCtx u x1 x2) := by
  unfold State.installCtx
  repeat' first | with_reducible assumption | with_reducible apply State.indexSlot_keeps | with_reducible apply State.touchCtx_keeps | with_reducible apply State.setCtx_keeps | with_reducible apply State.spillCtx_keeps | split | dsimp only
theorem State.installImage_keeps {s u : State} {x1 x2} (h : s.Keeps u) : State.Keeps s (State.installImage u x1 x2) := by
  unfold State.installImage
  repeat' first | with_reducible assumption | with_reducible apply State.setFn_keeps | with_reducible apply State.setQueue_keeps | with_reducible apply State.restoreCtl_keeps | with_reducible apply State.setReg_keeps | with_reducible apply State.installCtx_keeps | with_reducible apply State.modInst_keeps | with_reducible apply State.Keeps.foldl | with_reducible intro _ | split
theorem State.restoreDone_keeps {s u : State} {x1} (h : s.Keeps u) : State.Keeps s (State.restoreDone u x1) := by
  unfold State.restoreDone
  repeat' first | with_reducible assumption | with_reducible apply State.endLong_keeps | with_reducible apply State.modInst_keeps | with_reducible apply State.installImage_keeps | split
theorem State.startDestroy_keeps {s u : State} {x1} (h : s.Keeps u) : State.Keeps s (State.startDestroy u x1) := by
  unfold State.startDestroy
  repeat' first | with_reducible assumption | with_reducible apply State.destroyDone_keeps | with_reducible apply State.resetInst_keeps | with_reducible apply State.modInst_keeps
theorem execInstanceDestroy_keeps {s u : State} {x1 x2} (h : s.Keeps u) : State.KeepsNext s (execInstanceDestroy x1 x2 u) := by
  unfold execInstanceDestroy
  repeat' first | with_reducible assumption | with_reducible apply State.runLong_keeps | with_reducible apply State.startDestroy_keeps | with_reducible apply State.Keeps.next | with_reducible intro _
theorem State.startReset_keeps {s u : State} {x1} (h : s.Keeps u) : State.Keeps s (State.startReset u x1) := by
  unfold State.startReset
  repeat' first | with_reducible assumption | with_reducible apply State.resetDone_keeps | with_reducible apply State.resetInst_keeps | with_reducible apply State.modInst_keeps
theorem State.startHarvest_keeps {s u : State} {x1 x2 x3 x4} (h : s.Keeps u) : State.Keeps s (State.startHarvest u x1 x2 x3 x4) := by
  unfold State.startHarvest
  repeat' first | with_reducible assumption | with_reducible apply State.takenCmd_keeps | with_reducible apply State.endCmd_keeps | with_reducible intro _ | split | dsimp only | (with_reducible refine State.Keeps.lit ?_)
theorem execDirtyHarvest_keeps {s u : State} {x1 x2 x3 x4 x5} (h : s.Keeps u) : State.KeepsNext s (execDirtyHarvest x1 x2 x3 x4 x5 u) := by
  unfold execDirtyHarvest
  repeat' first | with_reducible assumption | with_reducible apply State.startHarvest_keeps | with_reducible apply State.Keeps.next
theorem State.startRestore_keeps {s u : State} {x1} (h : s.Keeps u) : State.Keeps s (State.startRestore u x1) := by
  unfold State.startRestore
  repeat' first | with_reducible assumption | with_reducible apply State.restoreDone_keeps | with_reducible apply State.resetInst_keeps | with_reducible apply State.modInst_keeps
theorem execInstanceRestore_keeps {s u : State} {x1 x2 x3 x4 x5} (h : s.Keeps u) : State.KeepsNext s (execInstanceRestore x1 x2 x3 x4 x5 u) := by
  unfold execInstanceRestore
  repeat' first | with_reducible assumption | with_reducible apply State.runLong_keeps | with_reducible apply State.startRestore_keeps | with_reducible apply State.Keeps.next | with_reducible intro _
theorem State.startWaiting_keeps {s u : State} (h : s.Keeps u) : State.Keeps s (State.startWaiting u) := by
  unfold State.startWaiting
  repeat' first | with_reducible assumption | with_reducible apply State.setStage_keeps | with_reducible apply State.endLong_keeps | with_reducible apply State.startReset_keeps | with_reducible apply State.startDestroy_keeps | with_reducible apply State.Keeps.foldl | with_reducible intro _ | split | dsimp only
theorem State.setMacs_keeps {s u : State} {x1 x2 x3} (h : s.Keeps u) : State.Keeps s (State.setMacs u x1 x2 x3) := by
  unfold State.setMacs
  repeat' first | with_reducible assumption | with_reducible apply State.modInst_keeps
theorem State.harvest_keeps {s u : State} {x1} (h : s.Keeps u) : State.Keeps s (State.harvest u x1) := by
  unfold State.harvest
  repeat' first | with_reducible assumption | with_reducible apply State.endLong_keeps | with_reducible apply State.hostWrite_keeps | with_reducible apply State.modInst_keeps | split
theorem State.finishSave_keeps {s u : State} {x1} (h : s.Keeps u) : State.Keeps s (State.finishSave u x1) := by
  unfold State.finishSave
  repeat' first | with_reducible assumption | with_reducible apply State.endLong_keeps | with_reducible apply State.modInst_keeps | with_reducible apply State.hostWrite_keeps | split | dsimp only
theorem execQuiescence_keeps {s u : State} {x1} (h : s.Keeps u) : State.KeepsNext s (execQuiescence x1 u) := by
  unfold execQuiescence
  repeat' first | with_reducible assumption | with_reducible apply State.finishSave_keeps | with_reducible apply State.Keeps.next
theorem State.freezeInst_keeps {s u : State} {x1} (h : s.Keeps u) : State.Keeps s (State.freezeInst u x1) := by
  unfold State.freezeInst
  repeat' first | with_reducible assumption | with_reducible apply State.modInst_keeps
theorem State.thawInst_keeps {s u : State} {x1} (h : s.Keeps u) : State.Keeps s (State.thawInst u x1) := by
  unfold State.thawInst
  repeat' first | with_reducible assumption | with_reducible apply State.nvFlush_keeps | with_reducible apply State.modCtl_keeps | with_reducible apply State.modInst_keeps
theorem State.takeCtrs_keeps {s u : State} (h : s.Keeps u) : State.Keeps s (State.takeCtrs u) := by
  unfold State.takeCtrs
  repeat' first | with_reducible assumption | dsimp only | (with_reducible refine State.Keeps.lit ?_)
theorem State.startSave_keeps {s u : State} {x1 x2 x3 x4 x5} (h : s.Keeps u) : State.Keeps s (State.startSave u x1 x2 x3 x4 x5) := by
  unfold State.startSave
  repeat' first | with_reducible assumption | with_reducible apply State.takenCmd_keeps | with_reducible apply State.writeResult_keeps | with_reducible apply State.endCmd_keeps | with_reducible apply State.modInst_keeps | with_reducible intro _ | split | dsimp only | (with_reducible refine State.Keeps.lit ?_)
theorem execInstanceSave_keeps {s u : State} {x1 x2 x3 x4} (h : s.Keeps u) : State.KeepsNext s (execInstanceSave x1 x2 x3 x4 u) := by
  unfold execInstanceSave
  repeat' first | with_reducible assumption | with_reducible apply State.startSave_keeps | with_reducible apply State.Keeps.next
theorem execInstanceQuery_keeps {s u : State} {x1 x2} (h : s.Keeps u) : State.KeepsNext s (execInstanceQuery x1 x2 u) := by
  unfold execInstanceQuery
  repeat' first | with_reducible assumption | with_reducible apply State.runQuery_keeps | with_reducible apply State.Keeps.next
theorem State.createInst_keeps {s u : State} {x1 x2 x3 x4 x5} (h : s.Keeps u) : State.Keeps s (State.createInst u x1 x2 x3 x4 x5) := by
  unfold State.createInst
  repeat' first | with_reducible assumption | with_reducible apply State.setInst_keeps | with_reducible apply State.advanceGen_keeps | with_reducible apply State.modCtl_keeps | split | dsimp only | (with_reducible refine State.Keeps.lit ?_)
theorem execInstanceReset_keeps {s u : State} {x1 x2} (h : s.Keeps u) : State.KeepsNext s (execInstanceReset x1 x2 u) := by
  unfold execInstanceReset
  repeat' first | with_reducible assumption | with_reducible apply State.runLong_keeps | with_reducible apply State.startReset_keeps | with_reducible apply State.Keeps.next | with_reducible intro _
theorem State.harvestAll_keeps {s u : State} (h : s.Keeps u) : State.Keeps s (State.harvestAll u) := by
  unfold State.harvestAll
  repeat' first | with_reducible assumption | with_reducible apply State.harvest_keeps | with_reducible apply State.Keeps.foldl
theorem execInstanceCreate_keeps {s u : State} {x1 x2 x3 x4 x5 x6} (h : s.Keeps u) : State.KeepsNext s (execInstanceCreate x1 x2 x3 x4 x5 x6 u) := by
  unfold execInstanceCreate
  repeat' first | with_reducible assumption | with_reducible apply State.runNow_keeps | with_reducible apply State.createInst_keeps | with_reducible apply State.Keeps.next | with_reducible intro _

/-! ### Endpoint -/

theorem State.lateCompletion_keeps {s u : State} {x1} (h : s.Keeps u) : State.Keeps s (State.lateCompletion u x1) := by
  unfold State.lateCompletion
  repeat' first | with_reducible assumption | with_reducible apply State.log_keeps | with_reducible apply State.aerAdvisory_keeps | split
theorem State.afterFlr_keeps {s u : State} {x1} (h : s.Keeps u) : State.Keeps s (State.afterFlr u x1) := by
  unfold State.afterFlr
  repeat' first | with_reducible assumption | with_reducible apply State.destroyDone_keeps | with_reducible apply State.restoreDone_keeps | with_reducible apply State.resetDone_keeps
theorem State.issueWaiting_keeps {s u : State} (h : s.Keeps u) : State.Keeps s (State.issueWaiting u) := by
  unfold State.issueWaiting
  repeat' first | with_reducible assumption | with_reducible apply State.issueRead_keeps | split | dsimp only | (with_reducible refine State.Keeps.lit ?_)
theorem State.unitRead_keeps {s u : State} {x1 x2} (h : s.Keeps u) : State.Keeps s (State.unitRead u x1 x2) := by
  unfold State.unitRead
  repeat' first | with_reducible assumption | with_reducible apply State.bufWrite_keeps | with_reducible apply State.reply_keeps | with_reducible apply State.swapOwner_keeps | split
theorem State.txArrive_keeps {s u : State} {x1 x2} (h : s.Keeps u) : State.Keeps s (State.txArrive u x1 x2) := by
  unfold State.txArrive
  repeat' first | with_reducible assumption | with_reducible apply State.finishOp_keeps | with_reducible apply State.setOp_keeps | with_reducible apply State.dropHostName_keeps | with_reducible apply State.swapOwner_keeps | with_reducible apply State.bufWrite_keeps | with_reducible apply State.freeEngine_keeps | with_reducible apply State.arrive_keeps | split
theorem State.deliverRead_keeps {s u : State} {x1 x2} (h : s.Keeps u) : State.Keeps s (State.deliverRead u x1 x2) := by
  unfold State.deliverRead
  repeat' first | with_reducible assumption | with_reducible apply State.closeDead_keeps | with_reducible apply State.dropGroup_keeps | with_reducible apply State.unitRead_keeps | with_reducible apply State.txArrive_keeps | with_reducible apply State.payloadRead_keeps | with_reducible apply State.readServed_keeps | split
theorem State.requestEnded_keeps {s u : State} {x1 x2 x3} (h : s.Keeps u) : State.Keeps s (State.requestEnded u x1 x2 x3) := by
  unfold State.requestEnded
  repeat' first | with_reducible assumption | with_reducible apply State.deliverRead_keeps | split | dsimp only | (with_reducible refine State.Keeps.lit ?_)
theorem State.keepPme_keeps {s u p : State} {x1} (h : s.Keeps u) : State.Keeps s (State.keepPme p u x1) := by
  unfold State.keepPme
  repeat' first | with_reducible assumption | with_reducible apply State.setFn_keeps
theorem State.barDiscard_keeps {s u : State} {x1 x2} (h : s.Keeps u) : State.Keeps s (State.barDiscard u x1 x2) := by
  unfold State.barDiscard
  repeat' first | with_reducible assumption | with_reducible apply State.log_keeps
theorem State.tableWrite_keeps {s u : State} {x1 x2 x3} (h : s.Keeps u) : State.Keeps s (State.tableWrite u x1 x2 x3) := by
  unfold State.tableWrite
  repeat' first | with_reducible assumption | with_reducible apply State.barDiscard_keeps | with_reducible apply State.setFn_keeps | with_reducible apply State.sendMsix_keeps | split | dsimp only
theorem State.writePf0_keeps {s u : State} {x1 x2} (h : s.Keeps u) : State.Keeps s (State.writePf0 u x1 x2) := by
  unfold State.writePf0
  repeat' first | with_reducible assumption | with_reducible apply State.mbWrite_keeps | with_reducible apply State.mbStatus_keeps | with_reducible apply State.mbRetract_keeps | with_reducible apply State.misuse_keeps | with_reducible apply State.mbSend_keeps | with_reducible apply State.barDiscard_keeps | with_reducible apply State.lockWrite_keeps | with_reducible apply State.erHead_keeps | with_reducible apply State.erStatus_keeps | with_reducible apply State.tableWrite_keeps | split | dsimp only
theorem State.barWrite_keeps {s u : State} {x1 x2 x3 x4} (h : s.Keeps u) : State.Keeps s (State.barWrite u x1 x2 x3 x4) := by
  unfold State.barWrite
  repeat' first | with_reducible assumption | with_reducible apply State.unsupported_keeps | with_reducible apply State.barDiscard_keeps | with_reducible apply State.writePf0_keeps | with_reducible apply State.doorbellWrite_keeps | with_reducible apply State.tableWrite_keeps | split
theorem State.releaseHeld_keeps {s u : State} {x1 x2} (h : s.Keeps u) : State.Keeps s (State.releaseHeld x1 u x2) := by
  unfold State.releaseHeld
  repeat' first | with_reducible assumption | with_reducible apply State.issueRead_keeps | with_reducible apply State.issueWrite_keeps | with_reducible apply State.afterPlace_keeps | with_reducible apply State.inflight_keeps | split
theorem State.sendPending_keeps {s u : State} {x1 x2} (h : s.Keeps u) : State.Keeps s (State.sendPending x1 u x2) := by
  unfold State.sendPending
  repeat' first | with_reducible assumption | with_reducible apply State.sendMsix_keeps | with_reducible apply State.setFn_keeps | split
theorem State.release_keeps {s u : State} {x1} (h : s.Keeps u) : State.Keeps s (State.release u x1) := by
  unfold State.release
  repeat' first | with_reducible assumption | with_reducible apply State.setFn_keeps | with_reducible apply State.releaseHeld_keeps | with_reducible apply State.sendPending_keeps | with_reducible apply State.Keeps.foldl | with_reducible intro _ | split
theorem State.dropTag_keeps {s u : State} {x1} (h : s.Keeps u) : State.Keeps s (State.dropTag u x1) := by
  unfold State.dropTag
  repeat' first | with_reducible assumption | dsimp only | (with_reducible refine State.Keeps.lit ?_)
theorem State.completion_keeps {s u : State} {x1 x2} (h : s.Keeps u) : State.Keeps s (State.completion u x1 x2) := by
  unfold State.completion
  repeat' first | with_reducible assumption | with_reducible apply State.requestEnded_keeps | with_reducible apply State.dropTag_keeps | with_reducible apply State.lateCompletion_keeps | with_reducible apply State.aerAdvisory_keeps | split
theorem State.returnD0_keeps {s u : State} {x1} (h : s.Keeps u) : State.Keeps s (State.returnD0 u x1) := by
  unfold State.returnD0
  repeat' first | with_reducible assumption | with_reducible apply State.setFn_keeps | with_reducible apply State.release_keeps | with_reducible apply State.Keeps.foldl | split
theorem execBusMasterEnableSet_keeps {s u : State} {x1} (h : s.Keeps u) : State.KeepsNext s (execBusMasterEnableSet x1 u) := by
  unfold execBusMasterEnableSet
  repeat' first | with_reducible assumption | with_reducible apply State.release_keeps | with_reducible apply State.setFn_keeps | with_reducible apply State.Keeps.next | split
theorem State.enterD3_keeps {s u : State} {x1} (h : s.Keeps u) : State.Keeps s (State.enterD3 u x1) := by
  unfold State.enterD3
  repeat' first | with_reducible assumption | with_reducible apply State.setFn_keeps | with_reducible apply State.pme_keeps | split
theorem execLateCompletion_keeps {s u : State} {x1} (h : s.Keeps u) : State.KeepsNext s (execLateCompletion x1 u) := by
  unfold execLateCompletion
  repeat' first | with_reducible assumption | with_reducible apply State.lateCompletion_keeps | with_reducible apply State.Keeps.next
theorem State.mmioFail_keeps {s u : State} {x1} (h : s.Keeps u) : State.Keeps s (State.mmioFail u x1) := by
  unfold State.mmioFail
  repeat' first | with_reducible assumption | dsimp only | (with_reducible refine State.Keeps.lit ?_)
theorem State.mmioAnswer_keeps {s u : State} {x1} (h : s.Keeps u) : State.Keeps s (State.mmioAnswer u x1) := by
  unfold State.mmioAnswer
  repeat' first | with_reducible assumption | dsimp only | (with_reducible refine State.Keeps.lit ?_)
theorem readLocks_keeps {s u : State} {x1 x2} (h : s.Keeps u) : State.Keeps s (readLocks x1 x2 u).2 := by
  induction x2 generalizing u x1 with
  | zero => unfold readLocks; repeat' first | with_reducible assumption
  | succ k ih => unfold readLocks; repeat' first | with_reducible assumption | with_reducible apply ih | with_reducible apply State.lockRead_keeps
theorem State.readPf0_keeps {s u : State} {x1 x2} (h : s.Keeps u) : s.Keeps (u.readPf0 x1 x2) := by
  unfold State.readPf0
  refine iteInduction (motive := fun t => s.Keeps t) (fun _ => State.mmioAnswer_keeps (State.mbTake_keeps h)) (fun _ => ?_)
  refine iteInduction (motive := fun t => s.Keeps t) (fun _ => ?_) (fun _ => ?_)
  · extract_lets k
    have g : ∀ n, s.Keeps (readLocks k n u).2 := fun _ => readLocks_keeps h
    clear_value k
    generalize (x1 - 0x3000 + x2 - 1) / 4 - k + 1 = n
    have g := g n
    generalize readLocks k n u = p at g
    obtain ⟨bs, t⟩ := p
    exact State.mmioAnswer_keeps g
  · dsimp only
    refine iteInduction (motive := fun t => s.Keeps t) (fun _ => State.Keeps.lit (State.mmioAnswer_keeps h)) (fun _ => State.mmioAnswer_keeps h)
theorem State.barRead_keeps {s u : State} {x1 x2 x3 x4} (h : s.Keeps u) : State.Keeps s (State.barRead u x1 x2 x3 x4) := by
  unfold State.barRead
  repeat' first | with_reducible assumption | with_reducible apply State.mmioFail_keeps | with_reducible apply State.unsupported_keeps | with_reducible apply State.aerUncor_keeps | with_reducible apply State.readPf0_keeps | with_reducible apply State.mmioAnswer_keeps | split
theorem State.endQuarantine_keeps {s u : State} {x1} (h : s.Keeps u) : State.Keeps s (State.endQuarantine u x1) := by
  unfold State.endQuarantine
  repeat' first | with_reducible assumption | split | dsimp only | (with_reducible refine State.Keeps.lit ?_)
theorem State.retrain_keeps {s u : State} {x1 x2 x3} (h : s.Keeps u) : State.Keeps s (State.retrain u x1 x2 x3) := by
  unfold State.retrain
  repeat' first | with_reducible assumption | with_reducible apply State.log_keeps | split | dsimp only | (with_reducible refine State.Keeps.lit ?_)
theorem execPcieLinkRetrain_keeps {s u : State} {x1 x2 x3} (h : s.Keeps u) : State.KeepsNext s (execPcieLinkRetrain x1 x2 x3 u) := by
  unfold execPcieLinkRetrain
  repeat' first | with_reducible assumption | with_reducible apply State.retrain_keeps | with_reducible apply State.Keeps.next
theorem execPmeTurnOff_keeps {s u : State} (h : s.Keeps u) : State.KeepsNext s (execPmeTurnOff u) := by
  unfold execPmeTurnOff
  repeat' first | with_reducible assumption | with_reducible apply State.Keeps.next | split | dsimp only | (with_reducible refine State.Keeps.lit ?_)
theorem State.flrComplete_keeps {s u : State} {x1} (h : s.Keeps u) : State.Keeps s (State.flrComplete u x1) := by
  unfold State.flrComplete
  repeat' first | with_reducible assumption | with_reducible apply State.setFn_keeps | with_reducible apply State.afterFlr_keeps | split | dsimp only
theorem execFlrComplete_keeps {s u : State} {x1} (h : s.Keeps u) : State.KeepsNext s (execFlrComplete x1 u) := by
  unfold execFlrComplete
  repeat' first | with_reducible assumption | with_reducible apply State.flrComplete_keeps | with_reducible apply State.Keeps.next
theorem execDmaReadCompletion_keeps {s u : State} {x1 x2} (h : s.Keeps u) : State.KeepsNext s (execDmaReadCompletion x1 x2 u) := by
  unfold execDmaReadCompletion
  repeat' first | with_reducible assumption | with_reducible apply State.completion_keeps | with_reducible apply State.Keeps.next
theorem execPfFunctionLevelReset_keeps {s u : State} {x1} (h : s.Keeps u) : State.KeepsNext s (execPfFunctionLevelReset x1 u) := by
  unfold execPfFunctionLevelReset
  repeat' first | with_reducible assumption | with_reducible apply State.flrPf_keeps | with_reducible apply State.Keeps.next | split
theorem execD0Return_keeps {s u : State} {x1} (h : s.Keeps u) : State.KeepsNext s (execD0Return x1 u) := by
  unfold execD0Return
  repeat' first | with_reducible assumption | with_reducible apply State.returnD0_keeps | with_reducible apply State.Keeps.next
theorem execBarWrite_keeps {s u : State} {x1 x2 x3 x4} (h : s.Keeps u) : State.KeepsNext s (execBarWrite x1 x2 x3 x4 u) := by
  unfold execBarWrite
  repeat' first | with_reducible assumption | with_reducible apply State.barWrite_keeps | with_reducible apply State.Keeps.next
theorem State.afterCfg_keeps {s u p : State} {x1 x2 x3} (h : s.Keeps u) : State.Keeps s (State.afterCfg u p x1 x2 x3) := by
  unfold State.afterCfg
  repeat' first | with_reducible assumption | with_reducible apply State.flrVf_keeps | with_reducible apply State.release_keeps | with_reducible apply State.enterD3_keeps | with_reducible apply State.returnD0_keeps | with_reducible apply State.sendPending_keeps | with_reducible apply State.Keeps.foldl | with_reducible intro _ | split
theorem State.configWrite_keeps {s u : State} {x1 x2 x3 x4 x5 x6} (h : s.Keeps u) : s.Keeps (u.configWrite x1 x2 x3 x4 x5 x6) := by
  have g : s.Keeps { u with pcie := { u.pcie with bus := x5.toNat } } := State.Keeps.lit h
  unfold State.configWrite
  refine iteInduction (motive := fun t => s.Keeps t) (fun _ => h) (fun _ => ?_)
  refine iteInduction (motive := fun t => s.Keeps t) (fun _ => State.mmioFail_keeps (State.unsupported_keeps g)) (fun _ => ?_)
  refine iteInduction (motive := fun t => s.Keeps t) (fun _ => State.mmioFail_keeps g) (fun _ => ?_)
  refine iteInduction (motive := fun t => s.Keeps t) (fun _ => State.mmioFail_keeps ?_) (fun _ => ?_)
  · exact iteInduction (motive := fun t => s.Keeps t) (fun _ => State.flrPf_keeps g) (fun _ => State.flrVf_keeps g)
  · exact State.mmioFail_keeps (State.afterCfg_keeps (State.setFn_keeps g))
theorem State.cplExpired_keeps {s u : State} {x1} (h : s.Keeps u) : State.Keeps s (State.cplExpired u x1) := by
  unfold State.cplExpired
  repeat' first | with_reducible assumption | with_reducible apply State.requestEnded_keeps | with_reducible apply State.dropTag_keeps | with_reducible apply State.log_keeps | with_reducible apply State.aerUncor_keeps | split | dsimp only | (with_reducible refine State.Keeps.lit ?_)
theorem execCompletionTimeout_keeps {s u : State} {x1} (h : s.Keeps u) : State.KeepsNext s (execCompletionTimeout x1 u) := by
  unfold execCompletionTimeout
  repeat' first | with_reducible assumption | with_reducible apply State.cplExpired_keeps | with_reducible apply State.Keeps.next
theorem execBusMasterEnableClear_keeps {s u : State} {x1} (h : s.Keeps u) : State.KeepsNext s (execBusMasterEnableClear x1 u) := by
  unfold execBusMasterEnableClear
  repeat' first | with_reducible assumption | with_reducible apply State.setFn_keeps | with_reducible apply State.Keeps.next | split
theorem execUnsupportedRequest_keeps {s u : State} {x1 x2 x3} (h : s.Keeps u) : State.KeepsNext s (execUnsupportedRequest x1 x2 x3 u) := by
  unfold execUnsupportedRequest
  repeat' first | with_reducible assumption | with_reducible apply State.aerUncor_keeps | with_reducible apply State.unsupported_keeps | with_reducible apply State.mmioFail_keeps | with_reducible apply State.Keeps.next | split
theorem execD3hotEntry_keeps {s u : State} {x1} (h : s.Keeps u) : State.KeepsNext s (execD3hotEntry x1 u) := by
  unfold execD3hotEntry
  repeat' first | with_reducible assumption | with_reducible apply State.enterD3_keeps | with_reducible apply State.Keeps.next
theorem State.conventionalReset_keeps {s u : State} {x1} (h : s.Keeps u) : s.Keeps (u.conventionalReset x1) := by
  have g : s.Keeps ([1, 2, 0].foldl State.flrPf u) := State.Keeps.foldl h (fun _ _ g => State.flrPf_keeps g)
  have k : s.Keeps ([0, 1, 2].foldl (State.keepPme u) ([1, 2, 0].foldl State.flrPf u)) := State.Keeps.foldl g (fun _ _ g => State.keepPme_keeps g)
  unfold State.conventionalReset
  dsimp only
  generalize [0, 1, 2].foldl (State.keepPme u) ([1, 2, 0].foldl State.flrPf u) = t at k ⊢
  with_reducible refine State.log_keeps ?_
  with_reducible refine State.Keeps.lit ?_
  with_reducible exact k
theorem execWaitingReadIssue_keeps {s u : State} (h : s.Keeps u) : State.KeepsNext s (execWaitingReadIssue u) := by
  unfold execWaitingReadIssue
  repeat' first | with_reducible assumption | with_reducible apply State.issueWaiting_keeps | with_reducible apply State.Keeps.next
theorem execLtrIdleReport_keeps {s u : State} (h : s.Keeps u) : State.KeepsNext s (execLtrIdleReport u) := by
  unfold execLtrIdleReport
  repeat' first | with_reducible assumption | with_reducible apply State.Keeps.next | split | dsimp only | (with_reducible refine State.Keeps.lit ?_)
theorem State.aspm_keeps {s u : State} {x1} (h : s.Keeps u) : State.Keeps s (State.aspm u x1) := by
  unfold State.aspm
  repeat' first | with_reducible assumption | split | dsimp only | (with_reducible refine State.Keeps.lit ?_)
theorem execFunctionLevelReset_keeps {s u : State} {x1 x2} (h : s.Keeps u) : State.KeepsNext s (execFunctionLevelReset x1 x2 u) := by
  unfold execFunctionLevelReset
  repeat' first | with_reducible assumption | with_reducible apply State.flrVf_keeps | with_reducible apply State.Keeps.next | split
theorem execPmeSignal_keeps {s u : State} {x1} (h : s.Keeps u) : State.KeepsNext s (execPmeSignal x1 u) := by
  unfold execPmeSignal
  repeat' first | with_reducible assumption | with_reducible apply State.pme_keeps | with_reducible apply State.Keeps.next
theorem execAspmEntry_keeps {s u : State} {x1} (h : s.Keeps u) : State.KeepsNext s (execAspmEntry x1 u) := by
  unfold execAspmEntry
  repeat' first | with_reducible assumption | with_reducible apply State.aspm_keeps | with_reducible apply State.Keeps.next
theorem execBarRead_keeps {s u : State} {x1 x2 x3 x4} (h : s.Keeps u) : State.KeepsNext s (execBarRead x1 x2 x3 x4 u) := by
  unfold execBarRead
  repeat' first | with_reducible assumption | with_reducible apply State.barRead_keeps | with_reducible apply State.Keeps.next
theorem State.linkFatal_keeps {s u : State} {x1} (h : s.Keeps u) : State.Keeps s (State.linkFatal u x1) := by
  unfold State.linkFatal
  repeat' first | with_reducible assumption | with_reducible apply State.aerUncor_keeps | dsimp only | (with_reducible refine State.Keeps.lit ?_)
theorem execMalformedTlp_keeps {s u : State} {x1} (h : s.Keeps u) : State.KeepsNext s (execMalformedTlp x1 u) := by
  unfold execMalformedTlp
  repeat' first | with_reducible assumption | with_reducible apply State.linkFatal_keeps | with_reducible apply State.aerCorr_keeps | with_reducible apply State.Keeps.next | split
theorem execConfigWrite_keeps {s u : State} {x1 x2 x3 x4 x5 x6} (h : s.Keeps u) : State.KeepsNext s (execConfigWrite x1 x2 x3 x4 u x5 x6) := by
  unfold execConfigWrite
  repeat' first | with_reducible assumption | with_reducible apply State.configWrite_keeps | with_reducible apply State.Keeps.next
theorem execQuarantineEnd_keeps {s u : State} {x1} (h : s.Keeps u) : State.KeepsNext s (execQuarantineEnd x1 u) := by
  unfold execQuarantineEnd
  repeat' first | with_reducible assumption | with_reducible apply State.endQuarantine_keeps | with_reducible apply State.Keeps.next
theorem execConventionalReset_keeps {s u : State} {x1} (h : s.Keeps u) : State.KeepsNext s (execConventionalReset x1 u) := by
  unfold execConventionalReset
  repeat' first | with_reducible assumption | with_reducible apply State.conventionalReset_keeps | with_reducible apply State.Keeps.next
theorem execPerstDeassert_keeps {s u : State} (h : s.Keeps u) : State.KeepsNext s (execPerstDeassert u) := by
  unfold execPerstDeassert
  repeat' first | with_reducible assumption | with_reducible apply State.Keeps.next | dsimp only | (with_reducible refine State.Keeps.lit ?_)

/-! ### Repair -/

theorem State.reloadFarrier_keeps {s u : State} {x1 x2} (h : s.Keeps u) : State.Keeps s (State.reloadFarrier u x1 x2).2 := by
  unfold State.reloadFarrier
  repeat' first | with_reducible assumption | with_reducible apply State.freshBit_keeps | with_reducible apply State.epochBump_keeps | with_reducible apply State.addEntry_keeps | with_reducible apply State.useSpare_keeps | with_reducible apply State.retireUnit_keeps | split | dsimp only | (with_reducible refine State.Keeps.of2 (by with_reducible assumption) ?_) | (with_reducible refine State.Keeps.lit ?_)
theorem execElectricalLaneReplacement_keeps {s u : State} {x1} (h : s.Keeps u) : State.KeepsNext s (execElectricalLaneReplacement x1 u) := by
  unfold execElectricalLaneReplacement
  repeat' first | with_reducible assumption | with_reducible apply State.planLane_keeps | with_reducible apply State.loseLane_keeps | with_reducible apply State.Keeps.next | split
theorem State.rotate_keeps {s u : State} {x1 x2 x3} (h : s.Keeps u) : State.Keeps s (State.rotate u x1 x2 x3) := by
  unfold State.rotate
  repeat' first | with_reducible assumption | with_reducible apply State.startSwap_keeps | split
theorem State.startRotate_keeps {s u : State} {x1 x2 x3} (h : s.Keeps u) : State.Keeps s (State.startRotate u x1 x2 x3) := by
  unfold State.startRotate
  repeat' first | with_reducible assumption | with_reducible apply State.rotate_keeps | split | dsimp only | (with_reducible refine State.Keeps.lit ?_)
theorem execRestRotationDue_keeps {s u : State} (h : s.Keeps u) : State.KeepsNext s (execRestRotationDue u) := by
  unfold execRestRotationDue
  repeat' first | with_reducible assumption | with_reducible apply State.startRotate_keeps | with_reducible apply State.Keeps.next | split
theorem execPowerStageFault_keeps {s u : State} {x1} (h : s.Keeps u) : State.KeepsNext s (execPowerStageFault x1 u) := by
  unfold execPowerStageFault
  repeat' first | with_reducible assumption | with_reducible apply State.useSpare_keeps | with_reducible apply State.retireUnit_keeps | with_reducible apply State.addEntry_keeps | with_reducible apply State.Keeps.next | split | dsimp only | (with_reducible refine State.Keeps.lit ?_)
theorem execYardFaultDetected_keeps {s u : State} {x1 x2} (h : s.Keeps u) : State.KeepsNext s (execYardFaultDetected x1 x2 u) := by
  unfold execYardFaultDetected
  repeat' first | with_reducible assumption | with_reducible apply State.abandonSwap_keeps | with_reducible apply State.addRecover_keeps | with_reducible apply State.Keeps.next | split | dsimp only | (with_reducible refine State.Keeps.lit ?_)
theorem execStressSave_keeps {s u : State} (h : s.Keeps u) : State.KeepsNext s (execStressSave u) := by
  unfold execStressSave
  repeat' first | with_reducible assumption | with_reducible apply State.requestAppend_keeps | with_reducible apply State.Keeps.next | with_reducible apply State.Keeps.foldl | with_reducible intro _
theorem execPatrolTest_keeps {s u : State} {x1 x2 x3} (h : s.Keeps u) : State.KeepsNext s (execPatrolTest x1 x2 u x3) := by
  unfold execPatrolTest
  repeat' first | with_reducible assumption | with_reducible apply State.weak_keeps | with_reducible apply State.logRepair_keeps | with_reducible apply State.Keeps.next | split | dsimp only | (with_reducible refine State.Keeps.lit ?_)
theorem execMirrorComplete_keeps {s u : State} {x1} (h : s.Keeps u) : State.KeepsNext s (execMirrorComplete x1 u) := by
  unfold execMirrorComplete
  repeat' first | with_reducible assumption | with_reducible apply State.Keeps.next | split | dsimp only | (with_reducible refine State.Keeps.lit ?_)
theorem State.forsake_keeps {s u : State} {x1} (h : s.Keeps u) : State.Keeps s (State.forsake u x1) := by
  unfold State.forsake
  repeat' first | with_reducible assumption | with_reducible apply State.dropRecover_keeps | with_reducible apply State.addEntry_keeps | with_reducible apply State.retireUnit_keeps | split
theorem State.dropSwaps_keeps {s u : State} (h : s.Keeps u) : State.Keeps s (State.dropSwaps u) := by
  unfold State.dropSwaps
  repeat' first | with_reducible assumption | with_reducible apply State.forsake_keeps | with_reducible apply State.endRotate_keeps | with_reducible apply State.Keeps.foldl | with_reducible intro _ | split | dsimp only | (with_reducible refine State.Keeps.lit ?_)
theorem execRepairUnmanaged_keeps {s u : State} (h : s.Keeps u) : State.KeepsNext s (execRepairUnmanaged u) := by
  unfold execRepairUnmanaged
  repeat' first | with_reducible assumption | with_reducible apply State.dropSwaps_keeps | with_reducible apply State.log_keeps | with_reducible apply State.Keeps.next | split | dsimp only | (with_reducible refine State.Keeps.lit ?_)
theorem execFreeListRebuildComplete_keeps {s u : State} {x1} (h : s.Keeps u) : State.KeepsNext s (execFreeListRebuildComplete x1 u) := by
  unfold execFreeListRebuildComplete
  repeat' first | with_reducible assumption | with_reducible apply State.rebuildPool_keeps | with_reducible apply State.Keeps.next | split
theorem execMpReloadComplete_keeps {s u : State} {x1} (h : s.Keeps u) : State.KeepsNext s (execMpReloadComplete x1 u) := by
  unfold execMpReloadComplete
  repeat' first | with_reducible assumption | with_reducible apply State.epochBump_keeps | with_reducible apply State.dropRecover_keeps | with_reducible apply State.swapImages_keeps | with_reducible apply State.useSpare_keeps | with_reducible apply State.retireUnit_keeps | with_reducible apply State.addEntry_keeps | with_reducible apply State.Keeps.next | split | dsimp only | (with_reducible refine State.Keeps.lit ?_)
theorem execFarrierTakeover_keeps {s u : State} {x1} (h : s.Keeps u) : State.KeepsNext s (execFarrierTakeover x1 u) := by
  unfold execFarrierTakeover
  repeat' first | with_reducible assumption | with_reducible apply State.reloadFarrier_keeps | with_reducible apply State.logRepair_keeps | with_reducible apply State.log_keeps | with_reducible apply State.Keeps.next | split | dsimp only | (with_reducible refine State.Keeps.lit ?_)
theorem execLaserFailure_keeps {s u : State} {x1} (h : s.Keeps u) : State.KeepsNext s (execLaserFailure x1 u) := by
  unfold execLaserFailure
  repeat' first | with_reducible assumption | with_reducible apply State.loseLane_keeps | with_reducible apply State.Keeps.next
theorem execConsumedRecompute_keeps {s u : State} (h : s.Keeps u) : State.KeepsNext s (execConsumedRecompute u) := by
  unfold execConsumedRecompute
  repeat' first | with_reducible assumption | with_reducible apply State.Keeps.next | dsimp only | (with_reducible refine State.Keeps.lit ?_)
theorem execStressUpdate_keeps {s u : State} {x1} (h : s.Keeps u) : State.KeepsNext s (execStressUpdate x1 u) := by
  unfold execStressUpdate
  repeat' first | with_reducible assumption | with_reducible apply State.Keeps.next | with_reducible apply State.Keeps.foldl | with_reducible intro _ | split | dsimp only | (with_reducible refine State.Keeps.lit ?_)
theorem execYardTestComplete_keeps {s u : State} {x1 x2} (h : s.Keeps u) : State.KeepsNext s (execYardTestComplete x1 x2 u) := by
  unfold execYardTestComplete
  repeat' first | with_reducible assumption | with_reducible apply State.retireRest_keeps | with_reducible apply State.dropSwap_keeps | with_reducible apply State.nextSwap_keeps | with_reducible apply State.dropRecover_keeps | with_reducible apply State.addEntry_keeps | with_reducible apply State.retireUnit_keeps | with_reducible apply State.endRotate_keeps | with_reducible apply State.Keeps.next | split | dsimp only | (with_reducible refine State.Keeps.lit ?_)
theorem execDramChannelRetirement_keeps {s u : State} {x1} (h : s.Keeps u) : State.KeepsNext s (execDramChannelRetirement x1 u) := by
  unfold execDramChannelRetirement
  repeat' first | with_reducible assumption | with_reducible apply State.retireChannel_keeps | with_reducible apply State.Keeps.next | split
theorem execCorrectedBurst_keeps {s u : State} {x1 x2 x3 x4} (h : s.Keeps u) : State.KeepsNext s (execCorrectedBurst x1 x2 x3 x4 u) := by
  unfold execCorrectedBurst
  repeat' first | with_reducible assumption | with_reducible apply State.log_keeps | with_reducible apply State.weak_keeps | with_reducible apply State.Keeps.next | split | dsimp only | (with_reducible refine State.Keeps.lit ?_)
theorem execMpHeartbeatLoss_keeps {s u : State} (h : s.Keeps u) : State.KeepsNext s (execMpHeartbeatLoss u) := by
  unfold execMpHeartbeatLoss
  repeat' first | with_reducible assumption | with_reducible apply State.addRecover_keeps | with_reducible apply State.Keeps.next | split | dsimp only | (with_reducible refine State.Keeps.lit ?_)
theorem execMemberQueuesDrained_keeps {s u : State} {x1} (h : s.Keeps u) : s.KeepsNext (execMemberQueuesDrained x1 u) := by
  unfold execMemberQueuesDrained
  refine State.Keeps.next ?_
  dsimp only
  generalize (match u.lane? x1.val with | some l => l.removal && !l.distributing | none => false) = o
  refine iteInduction (motive := fun t => s.Keeps t) (fun _ => State.replaceLane_keeps h) (fun _ => h)
theorem execLaserBiasCheck_keeps {s u : State} {x1 x2 x3} (h : s.Keeps u) : State.KeepsNext s (execLaserBiasCheck x1 x2 x3 u) := by
  unfold execLaserBiasCheck
  repeat' first | with_reducible assumption | with_reducible apply State.planLane_keeps | with_reducible apply State.Keeps.next | split | dsimp only | (with_reducible refine State.Keeps.lit ?_)
theorem execChannelMoveComplete_keeps {s u : State} (h : s.Keeps u) : State.KeepsNext s (execChannelMoveComplete u) := by
  unfold execChannelMoveComplete
  repeat' first | with_reducible assumption | with_reducible apply State.Keeps.next | split | dsimp only | (with_reducible refine State.Keeps.lit ?_)

/-! ### Boot -/

theorem State.coldBoot_keeps {s u : State} {x1} (h : s.Keeps u) : s.Keeps (u.coldBoot x1) :=
  ⟨h.1, fun _ => rfl, h.3, fun _ => (by unfold State.LegalTime; decide : State.reset.LegalTime), h.5, h.6, h.7⟩
theorem State.losePower_keeps {s u : State} (h : s.Keeps u) : State.Keeps s (State.losePower u) := by
  unfold State.losePower
  repeat' first | with_reducible assumption | with_reducible apply State.coldBoot_keeps | dsimp only | (with_reducible refine State.Keeps.lit ?_)
theorem State.start_keeps {s u : State} {x1} (h : s.Keeps u) : State.Keeps s (State.start u x1) := by
  unfold State.start
  repeat' first | with_reducible assumption | dsimp only | (with_reducible refine State.Keeps.lit ?_)
theorem State.badMapWord_keeps {s u : State} (h : s.Keeps u) : State.Keeps s (State.badMapWord u) := by
  unfold State.badMapWord
  repeat' first | with_reducible assumption | with_reducible apply State.freshNat_keeps | with_reducible apply State.log_keeps
theorem State.readEntry_keeps {s u : State} {x1} (h : s.Keeps u) : State.Keeps s (State.readEntry u x1) := by
  unfold State.readEntry
  repeat' first | with_reducible assumption | split | dsimp only | (with_reducible refine State.Keeps.lit ?_)
theorem State.readWord_keeps {s u : State} {x1} (h : s.Keeps u) : s.Keeps (u.readWord x1) := by
  unfold State.readWord
  generalize mapOfWord x1 = o
  cases o with
  | none => exact State.badMapWord_keeps h
  | some e => exact State.readEntry_keeps h
theorem State.readMap_keeps {s u : State} {x1} (h : s.Keeps u) : State.Keeps s (State.readMap x1 u) := by
  unfold State.readMap
  repeat' first | with_reducible assumption | with_reducible apply State.readWord_keeps | with_reducible apply State.Keeps.foldl
theorem State.loadStress_keeps {s u : State} (h : s.Keeps u) : State.Keeps s (State.loadStress u) := by
  unfold State.loadStress
  repeat' first | with_reducible assumption | with_reducible apply State.Keeps.foldl | with_reducible intro _ | dsimp only | (with_reducible refine State.Keeps.lit ?_)
theorem State.applyYards_keeps {s u : State} (h : s.Keeps u) : State.Keeps s (State.applyYards u) := by
  unfold State.applyYards
  repeat' first | with_reducible assumption | with_reducible apply State.writeSpread_keeps | with_reducible apply State.Keeps.foldl | with_reducible intro _ | split | dsimp only | (with_reducible refine State.Keeps.lit ?_)
theorem State.oneLost_keeps {s u : State} {x1 x2} (h : s.Keeps u) : State.Keeps s (State.oneLost u x1 x2) := by
  unfold State.oneLost
  repeat' first | with_reducible assumption | with_reducible apply State.useSpare_keeps | with_reducible apply State.retireUnit_keeps | split
theorem State.applyMapEntry_keeps {s u : State} {x1} (h : s.Keeps u) : State.Keeps s (State.applyMapEntry u x1) := by
  unfold State.applyMapEntry
  repeat' first | with_reducible assumption | with_reducible apply State.withdrawSpan_keeps | with_reducible apply State.retireUnit_keeps | with_reducible apply State.useSpare_keeps | with_reducible apply State.setLaneCut_keeps | with_reducible apply State.oneLost_keeps | with_reducible apply State.Keeps.foldl | with_reducible intro _ | split | dsimp only | (with_reducible refine State.Keeps.lit ?_)
theorem State.applyMap_keeps {s u : State} (h : s.Keeps u) : State.Keeps s (State.applyMap u) := by
  unfold State.applyMap
  repeat' first | with_reducible assumption | with_reducible apply State.readMap_keeps | with_reducible apply State.loadStress_keeps | with_reducible apply State.applyYards_keeps | with_reducible apply State.applyMapEntry_keeps | with_reducible apply State.logRepair_keeps | with_reducible apply State.Keeps.foldl | with_reducible intro _ | dsimp only | (with_reducible refine State.Keeps.lit ?_)
theorem execRepairApplied_keeps {s u : State} {x1} (h : s.Keeps u) : State.KeepsNext s (execRepairApplied x1 u) := by
  unfold execRepairApplied
  repeat' first | with_reducible assumption | with_reducible apply State.applyMap_keeps | with_reducible apply State.Keeps.next | split | dsimp only | (with_reducible refine State.Keeps.lit ?_)
theorem State.resetDomains_keeps {s u : State} (h : s.Keeps u) : State.Keeps s (State.resetDomains u) := by
  unfold State.resetDomains
  repeat' first | with_reducible assumption | with_reducible apply State.epochBump_keeps | dsimp only | (with_reducible refine State.Keeps.lit ?_)
theorem State.stageImage_keeps {s u : State} {x1} (h : s.Keeps u) : s.Keeps (u.stageImage x1) :=
  ⟨h.1, fun a => Mem.wf_wrN _ _ _ (h.2 a), h.3, h.4, h.5, h.6, h.7⟩
theorem State.runLoaded_keeps {s u : State} {x1} (h : s.Keeps u) : State.Keeps s (State.runLoaded u x1) := by
  unfold State.runLoaded
  repeat' first | with_reducible assumption | split | dsimp only | (with_reducible refine State.Keeps.lit ?_)
theorem State.noImage_keeps {s u : State} (h : s.Keeps u) : State.Keeps s (State.noImage u) := by
  unfold State.noImage
  repeat' first | with_reducible assumption | dsimp only | (with_reducible refine State.Keeps.lit ?_)
theorem execPowerOnHours_keeps {s u : State} (h : s.Keeps u) : State.KeepsNext s (execPowerOnHours u) := by
  unfold execPowerOnHours
  repeat' first | with_reducible assumption | with_reducible apply State.requestAppend_keeps | with_reducible apply State.Keeps.next | split
theorem State.openWindow_keeps {s u : State} (h : s.Keeps u) : State.Keeps s (State.openWindow u) := by
  unfold State.openWindow
  repeat' first | with_reducible assumption | dsimp only | (with_reducible refine State.Keeps.lit ?_)
theorem State.selectImage_keeps {s u : State} (h : s.Keeps u) : State.Keeps s (State.selectImage u) := by
  unfold State.selectImage
  repeat' first | with_reducible assumption | with_reducible apply State.noImage_keeps | with_reducible apply State.jAppend_keeps | with_reducible apply State.openWindow_keeps | split | dsimp only | (with_reducible refine State.Keeps.lit ?_)
theorem State.spAppends_keeps {s u : State} (h : s.Keeps u) : State.Keeps s (State.spAppends u) := by
  unfold State.spAppends
  repeat' first | with_reducible assumption | with_reducible apply State.jAppend_keeps | split | dsimp only | (with_reducible refine State.Keeps.lit ?_)
theorem execDramChannelUnresponsive_keeps {s u : State} {x1} (h : s.Keeps u) : State.KeepsNext s (execDramChannelUnresponsive x1 u) := by
  unfold execDramChannelUnresponsive
  repeat' first | with_reducible assumption | with_reducible apply State.coldBoot_keeps | with_reducible apply State.jAppend_keeps | with_reducible apply State.Keeps.next | split
theorem State.loadNotice_keeps {s u : State} {x1} (h : s.Keeps u) : State.Keeps s (State.loadNotice u x1) := by
  unfold State.loadNotice
  repeat' first | with_reducible assumption | with_reducible apply State.freshNat_keeps | with_reducible apply State.setMb_keeps
theorem State.stage1Done_keeps {s u : State} (h : s.Keeps u) : State.Keeps s (State.stage1Done u) := by
  unfold State.stage1Done
  repeat' first | with_reducible assumption | with_reducible apply State.loadNotice_keeps | with_reducible apply State.start_keeps | with_reducible apply State.selectImage_keeps | with_reducible apply State.resetDomains_keeps | split | dsimp only | (with_reducible refine State.Keeps.lit ?_)
theorem execYardRelease_keeps {s u : State} (h : s.Keeps u) : State.KeepsNext s (execYardRelease u) := by
  unfold execYardRelease
  repeat' first | with_reducible assumption | with_reducible apply State.Keeps.next | split | dsimp only | (with_reducible refine State.Keeps.lit ?_)
theorem execJournalAppend_keeps {s u : State} {x1} (h : s.Keeps u) : State.KeepsNext s (execJournalAppend x1 u) := by
  unfold execJournalAppend
  repeat' first | with_reducible assumption | with_reducible apply State.jAppend_keeps | with_reducible apply State.Keeps.next | split | dsimp only | (with_reducible refine State.Keeps.lit ?_)
theorem State.noteFirstRun_keeps {s u : State} (h : s.Keeps u) : State.Keeps s (State.noteFirstRun u) := by
  unfold State.noteFirstRun
  repeat' first | with_reducible assumption | with_reducible apply State.requestAppend_keeps | split | dsimp only | (with_reducible refine State.Keeps.lit ?_)
theorem execJournalCompaction_keeps {s u : State} {x1} (h : s.Keeps u) : State.KeepsNext s (execJournalCompaction x1 u) := by
  unfold execJournalCompaction
  repeat' first | with_reducible assumption | with_reducible apply State.Keeps.next | split | dsimp only | (with_reducible refine State.Keeps.lit ?_)
theorem State.decommissioned_keeps {s u : State} (h : s.Keeps u) : State.Keeps s (State.decommissioned u) := by
  unfold State.decommissioned
  repeat' first | with_reducible assumption | with_reducible apply State.noImage_keeps | dsimp only | (with_reducible refine State.Keeps.lit ?_)
theorem execLastResortRepair_keeps {s u : State} (h : s.Keeps u) : State.KeepsNext s (execLastResortRepair u) := by
  unfold execLastResortRepair
  repeat' first | with_reducible assumption | with_reducible apply State.reloadFarrier_keeps | with_reducible apply State.applyMap_keeps | with_reducible apply State.log_keeps | with_reducible apply State.Keeps.next | split | dsimp only | (with_reducible refine State.Keeps.of2 (by with_reducible assumption) ?_) | (with_reducible refine State.Keeps.lit ?_)
theorem execFullDeviceReset_keeps {s u : State} (h : s.Keeps u) : State.KeepsNext s (execFullDeviceReset u) := by
  unfold execFullDeviceReset
  repeat' first | with_reducible assumption | with_reducible apply State.coldBoot_keeps | with_reducible apply State.Keeps.next | split
theorem execBuiltInTestEnd_keeps {s u : State} {x1} (h : s.Keeps u) : State.KeepsNext s (execBuiltInTestEnd x1 u) := by
  unfold execBuiltInTestEnd
  repeat' first | with_reducible assumption | with_reducible apply State.Keeps.next | dsimp only | (with_reducible refine State.Keeps.lit ?_)
theorem execReleaseEvent_keeps {s u : State} (h : s.Keeps u) : State.KeepsNext s (execReleaseEvent u) := by
  unfold execReleaseEvent
  repeat' first | with_reducible assumption | with_reducible apply State.stage1Done_keeps | with_reducible apply State.Keeps.next | split
theorem State.startRound_keeps {s u : State} (h : s.Keeps u) : State.Keeps s (State.startRound u) := by
  unfold State.startRound
  repeat' first | with_reducible assumption | with_reducible apply State.noImage_keeps | with_reducible apply State.openWindow_keeps | with_reducible apply State.selectImage_keeps | split | dsimp only | (with_reducible refine State.Keeps.lit ?_)
theorem execRecoveryWindowExpiry_keeps {s u : State} (h : s.Keeps u) : State.KeepsNext s (execRecoveryWindowExpiry u) := by
  unfold execRecoveryWindowExpiry
  repeat' first | with_reducible assumption | with_reducible apply State.selectImage_keeps | with_reducible apply State.startRound_keeps | with_reducible apply State.start_keeps | with_reducible apply State.resetDomains_keeps | with_reducible apply State.Keeps.next | split
theorem execSpRelease_keeps {s u : State} (h : s.Keeps u) : State.KeepsNext s (execSpRelease u) := by
  unfold execSpRelease
  repeat' first | with_reducible assumption | with_reducible apply State.start_keeps | with_reducible apply State.applyMap_keeps | with_reducible apply State.decommissioned_keeps | with_reducible apply State.startRound_keeps | with_reducible apply State.spAppends_keeps | with_reducible apply State.Keeps.next | split | dsimp only
theorem execRecoveryLoad_keeps {s u : State} {x1 x2 x3 x4} (h : s.Keeps u) : State.KeepsNext s (execRecoveryLoad x1 x2 x3 x4 u) := by
  unfold execRecoveryLoad
  repeat' first | with_reducible assumption | with_reducible apply State.endCmd_keeps | with_reducible apply State.stageImage_keeps | with_reducible apply State.runLoaded_keeps | with_reducible apply State.Keeps.next | split | dsimp only | (with_reducible refine State.Keeps.lit ?_)

end Sys2Proof.Machine
end

