-- ==== Sys2Proof/Laws/KeepsCommands.lean ====
section
/-!
SUPPORT. What no command undoes (Keeps.lean): the engines' instructions, the commit sequence, the gate and Mbadel's commands.
-/

namespace Sys2Proof.Machine
open Sys2Proof

-- These many short proofs are checked one after another: side by side they take more memory than they save time.
set_option Elab.async false

/-! ### Control -/

theorem execFence_keeps {s u : State} {x1} (h : s.Keeps u) : State.KeepsNext s (execFence x1 u) := by
  unfold execFence
  repeat' first | with_reducible assumption | with_reducible apply State.issue_keeps | with_reducible apply State.freshNat_keeps | with_reducible apply State.retire_keeps | with_reducible apply State.Keeps.next | with_reducible intro _
theorem execJal_keeps {s u : State} {x1 x2 x3} (h : s.Keeps u) : State.KeepsNext s (execJal x1 x2 x3 u) := by
  unfold execJal
  repeat' first | with_reducible assumption | with_reducible apply State.issue_keeps | with_reducible apply State.retire_keeps | with_reducible apply State.Keeps.next | with_reducible intro _
theorem execEbreak_keeps {s u : State} {x1} (h : s.Keeps u) : State.KeepsNext s (execEbreak x1 u) := by
  unfold execEbreak
  repeat' first | with_reducible assumption | with_reducible apply State.issue_keeps | with_reducible apply State.holdThread_keeps | with_reducible apply State.faultFree_keeps | with_reducible apply State.Keeps.next | with_reducible intro _ | split
theorem execBranch_keeps {s u : State} {x1 x2 x3 x4 x5} (h : s.Keeps u) : State.KeepsNext s (execBranch x1 x2 x3 x4 x5 u) := by
  unfold execBranch
  repeat' first | with_reducible assumption | with_reducible apply State.issue_keeps | with_reducible apply State.retire_keeps | with_reducible apply State.Keeps.next | with_reducible intro _ | split | dsimp only
theorem execEcall_keeps {s u : State} {x1} (h : s.Keeps u) : State.KeepsNext s (execEcall x1 u) := by
  unfold execEcall
  repeat' first | with_reducible assumption | with_reducible apply State.issue_keeps | with_reducible apply State.faultFree_keeps | with_reducible apply State.Keeps.next | with_reducible intro _
theorem execWfi_keeps {s u : State} {x1} (h : s.Keeps u) : State.KeepsNext s (execWfi x1 u) := by
  unfold execWfi
  repeat' first | with_reducible assumption | with_reducible apply State.issue_keeps | with_reducible apply State.fault_keeps | with_reducible apply State.Keeps.next | with_reducible intro _
theorem execJalr_keeps {s u : State} {x1 x2 x3 x4} (h : s.Keeps u) : State.KeepsNext s (execJalr x1 x2 x3 x4 u) := by
  unfold execJalr
  repeat' first | with_reducible assumption | with_reducible apply State.issue_keeps | with_reducible apply State.retire_keeps | with_reducible apply State.Keeps.next | with_reducible intro _
theorem execYieldt_keeps {s u : State} {x1 x2} (h : s.Keeps u) : State.KeepsNext s (execYieldt x1 x2 u) := by
  unfold execYieldt
  repeat' first | with_reducible assumption | with_reducible apply State.issue_keeps | with_reducible apply State.yieldItem_keeps | with_reducible apply State.modThr_keeps | with_reducible apply State.Keeps.next | with_reducible intro _
theorem execFenceI_keeps {s u : State} {x1} (h : s.Keeps u) : State.KeepsNext s (execFenceI x1 u) := by
  unfold execFenceI
  repeat' first | with_reducible assumption | with_reducible apply State.issue_keeps | with_reducible apply State.fault_keeps | with_reducible apply State.Keeps.next | with_reducible intro _

/-! ### Csr -/

theorem State.endMasked_keeps {s u : State} {x1 x2 x3} (h : s.Keeps u) : State.Keeps s (State.endMasked u x1 x2 x3) := by
  unfold State.endMasked
  repeat' first | with_reducible assumption | with_reducible apply State.endOther_keeps | split | dsimp only
theorem State.writeGctl_keeps {s u : State} {x1 x2} (h : s.Keeps u) : State.Keeps s (State.writeGctl u x1 x2) := by
  unfold State.writeGctl
  repeat' first | with_reducible assumption | with_reducible apply State.setEng_keeps | with_reducible apply State.endMasked_keeps | with_reducible apply State.Keeps.foldl | with_reducible intro _ | split | dsimp only
theorem State.csrStore_keeps {s u : State} {x1 x2 x3 x4} (h : s.Keeps u) : State.Keeps s (State.csrStore u x1 x2 x3 x4) := by
  unfold State.csrStore
  repeat' first | with_reducible assumption | with_reducible apply State.setEng_keeps | with_reducible apply State.writeGctl_keeps | split
theorem State.csrOp_keeps {s u : State} {x1 x2 x3 x4 x5} (h : s.Keeps u) : State.Keeps s (State.csrOp u x1 x2 x3 x4 x5) := by
  unfold State.csrOp
  repeat' first | with_reducible assumption | with_reducible apply State.issue_keeps | with_reducible apply State.fault_keeps | with_reducible apply State.faultFree_keeps | with_reducible apply State.setEng_keeps | with_reducible apply State.writeBack_keeps | with_reducible apply State.csrStore_keeps | with_reducible intro _ | split | dsimp only
theorem execSxdwinWrite_keeps {s u : State} {x1 x2 x3 x4} (h : s.Keeps u) : State.KeepsNext s (execSxdwinWrite x1 x2 x3 x4 u) := by
  unfold execSxdwinWrite
  repeat' first | with_reducible assumption | with_reducible apply State.csrOp_keeps | with_reducible apply State.Keeps.next
theorem execCsrWrite_keeps {s u : State} {x1 x2 x3 x4 x5} (h : s.Keeps u) : State.KeepsNext s (execCsrWrite x1 x2 x3 x4 x5 u) := by
  unfold execCsrWrite
  repeat' first | with_reducible assumption | with_reducible apply State.csrOp_keeps | with_reducible apply State.Keeps.next
theorem execOvfClear_keeps {s u : State} {x1 x2 x3 x4} (h : s.Keeps u) : State.KeepsNext s (execOvfClear x1 x2 x3 x4 u) := by
  unfold execOvfClear
  repeat' first | with_reducible assumption | with_reducible apply State.csrOp_keeps | with_reducible apply State.Keeps.next
theorem execDismiss_keeps {s u : State} {x1 x2 x3 x4} (h : s.Keeps u) : State.KeepsNext s (execDismiss x1 x2 x3 x4 u) := by
  unfold execDismiss
  repeat' first | with_reducible assumption | with_reducible apply State.csrOp_keeps | with_reducible apply State.Keeps.next
theorem execDbgenWrite_keeps {s u : State} {x1 x2 x3 x4} (h : s.Keeps u) : State.KeepsNext s (execDbgenWrite x1 x2 x3 x4 u) := by
  unfold execDbgenWrite
  repeat' first | with_reducible assumption | with_reducible apply State.csrOp_keeps | with_reducible apply State.Keeps.next
theorem execSxslotWrite_keeps {s u : State} {x1 x2 x3 x4 x5} (h : s.Keeps u) : State.KeepsNext s (execSxslotWrite x1 x2 x3 x4 x5 u) := by
  unfold execSxslotWrite
  repeat' first | with_reducible assumption | with_reducible apply State.csrOp_keeps | with_reducible apply State.Keeps.next
theorem execEndmask_keeps {s u : State} {x1 x2 x3 x4} (h : s.Keeps u) : State.KeepsNext s (execEndmask x1 x2 x3 x4 u) := by
  unfold execEndmask
  repeat' first | with_reducible assumption | with_reducible apply State.csrOp_keeps | with_reducible apply State.Keeps.next
theorem execSxstaleRead_keeps {s u : State} {x1 x2} (h : s.Keeps u) : State.KeepsNext s (execSxstaleRead x1 x2 u) := by
  unfold execSxstaleRead
  repeat' first | with_reducible assumption | with_reducible apply State.csrOp_keeps | with_reducible apply State.Keeps.next

/-! ### CommitOps -/

theorem State.endQueue_keeps {s u : State} {x1 x2 x3 x4} (h : s.Keeps u) : State.Keeps s (State.endQueue u x1 x2 x3 x4) := by
  unfold State.endQueue
  repeat' first | with_reducible assumption | with_reducible apply State.endCaravan_keeps | with_reducible apply State.errorCtx_keeps | with_reducible apply State.setQueue_keeps | with_reducible apply State.Keeps.foldl | with_reducible intro _ | split | dsimp only | (with_reducible refine State.Keeps.lit ?_)
theorem State.nvCommit_keeps {s u : State} (h : s.Keeps u) : State.Keeps s (State.nvCommit u) := by
  unfold State.nvCommit
  repeat' first | with_reducible assumption | with_reducible apply State.nvModerate_keeps | with_reducible apply State.nvDrain_keeps | with_reducible apply State.nvDueAll_keeps | with_reducible apply State.Keeps.foldl | with_reducible intro _
theorem skipAborted_keeps {s u : State} {x1 x2} (h : s.Keeps u) : State.Keeps s (skipAborted x1 x2 u) := by
  induction x2 generalizing u x1 with
  | zero => unfold skipAborted; repeat' first | with_reducible assumption
  | succ k ih => unfold skipAborted; repeat' first | with_reducible assumption | with_reducible apply ih | with_reducible apply State.drain_keeps | with_reducible apply State.setQueue_keeps | split
theorem State.skipAll_keeps {s u : State} (h : s.Keeps u) : State.Keeps s (State.skipAll u) := by
  unfold State.skipAll
  repeat' first | with_reducible assumption | with_reducible apply skipAborted_keeps | with_reducible apply State.Keeps.foldl | with_reducible intro _ | split
theorem State.abortTarget_keeps {s u : State} {x1 x2} (h : s.Keeps u) : State.Keeps s (State.abortTarget u x1 x2).1 := by
  unfold State.abortTarget
  repeat' first | with_reducible assumption | with_reducible apply State.endCaravan_keeps | with_reducible apply State.drain_keeps | with_reducible apply State.modQueue_keeps | with_reducible apply State.setQueue_keeps | with_reducible apply skipAborted_keeps | with_reducible apply State.errorCtx_keeps | split
theorem State.settleDue_keeps {s u : State} {x1} (h : s.Keeps u) : State.Keeps s (State.settleDue u x1) := by
  unfold State.settleDue
  repeat' first | with_reducible assumption | with_reducible apply State.finishOp_keeps | with_reducible apply State.hostWrite_keeps | with_reducible apply State.abortTarget_keeps | split
theorem State.settleAllDue_keeps {s u : State} (h : s.Keeps u) : State.Keeps s (State.settleAllDue u) := by
  unfold State.settleAllDue
  repeat' first | with_reducible assumption | with_reducible apply State.settleDue_keeps | with_reducible apply State.Keeps.foldl | dsimp only | (with_reducible refine State.Keeps.lit ?_)
theorem writeEnded_keeps {s u : State} {x1 x2 x3} (h : s.Keeps u) : State.Keeps s (writeEnded x1 u x2 x3).1 := by
  induction x3 generalizing u x1 x2 with
  | nil => unfold writeEnded; repeat' first | with_reducible assumption
  | cons a l ih => unfold writeEnded; repeat' first | with_reducible assumption | with_reducible apply ih | with_reducible apply State.killOp_keeps | with_reducible apply State.putCompletion_keeps | with_reducible apply State.Keeps.foldl | with_reducible intro _ | split
theorem State.settleEnding_keeps {s u : State} {x1} (h : s.Keeps u) : State.Keeps s (State.settleEnding u x1) := by
  unfold State.settleEnding
  repeat' first | with_reducible assumption | with_reducible apply writeEnded_keeps | with_reducible apply State.finishOp_keeps | with_reducible apply State.msix_keeps | with_reducible apply State.drain_keeps | with_reducible apply State.setQueue_keeps | split
theorem State.settleEndings_keeps {s u : State} (h : s.Keeps u) : State.Keeps s (State.settleEndings u) := by
  unfold State.settleEndings
  repeat' first | with_reducible assumption | with_reducible apply State.settleEnding_keeps | with_reducible apply State.Keeps.foldl | dsimp only | (with_reducible refine State.Keeps.lit ?_)
theorem State.endCommit_keeps {s u : State} (h : s.Keeps u) : State.Keeps s (State.endCommit u) := by
  unfold State.endCommit
  repeat' first | with_reducible assumption | with_reducible apply State.sweepOps_keeps | with_reducible apply State.moderate_keeps | with_reducible apply State.nvCommit_keeps | with_reducible apply State.skipAll_keeps | with_reducible apply State.settleAllDue_keeps | with_reducible apply State.settleEndings_keeps
theorem State.queueChange_keeps {s u : State} {x1} (h : s.Keeps u) : State.Keeps s (State.queueChange u x1) := by
  unfold State.queueChange
  repeat' first | with_reducible assumption | with_reducible apply State.nvEnable_keeps | with_reducible apply State.setQueue_keeps | with_reducible apply State.finishOp_keeps | with_reducible apply State.endQueue_keeps | with_reducible apply State.modQueue_keeps | with_reducible apply State.nvReset_keeps | split
theorem State.queueChanges_keeps {s u : State} (h : s.Keeps u) : State.Keeps s (State.queueChanges u) := by
  unfold State.queueChanges
  repeat' first | with_reducible assumption | with_reducible apply State.queueChange_keeps | with_reducible apply State.Keeps.foldl | dsimp only | (with_reducible refine State.Keeps.lit ?_)

/-! ### Gate -/

theorem publishAll_keeps {s u : State} {x1 x2} (h : s.Keeps u) : s.Keeps (publishAll u x1 x2) := by
  induction x2 generalizing u x1 with
  | nil => unfold publishAll; exact h
  | cons a l ih =>
    cases a with
    | enq q f => exact ih (State.publishEnq_keeps h)
    | post r =>
      refine ih ?_
      dsimp only
      split
      · exact State.Keeps.lit h
      · exact State.Keeps.lit h
    | free a b => exact ih h
theorem State.staleOp_keeps {s u : State} {x1} (h : s.Keeps u) : State.Keeps s (State.staleOp u x1) := by
  unfold State.staleOp
  repeat' first | with_reducible assumption | with_reducible apply State.nvDropOut_keeps | with_reducible apply State.dropOp_keeps | split
theorem State.transfer_keeps {s u : State} {x1 x2} (h : s.Keeps u) : State.Keeps s (State.transfer u x1 x2).1 := by
  unfold State.transfer
  repeat' first | with_reducible assumption | with_reducible apply State.giveTo_keeps | with_reducible apply State.staleOp_keeps | with_reducible apply State.modInstCtr_keeps | with_reducible apply State.reply_keeps | split | dsimp only | (with_reducible refine State.Keeps.ofSome (by with_reducible assumption) ?_) | (with_reducible refine State.Keeps.lit ?_)
theorem State.gateHeld_keeps {s u : State} {x1 x2} (h : s.Keeps u) : State.Keeps s (State.gateHeld u x1 x2) := by
  unfold State.gateHeld
  repeat' first | with_reducible assumption | with_reducible apply State.setEng_keeps | with_reducible apply State.failItem_keeps | with_reducible apply State.dropName_keeps | split | dsimp only
theorem State.gateLive_keeps {s u : State} {x1 x2 x3 x4} (h : s.Keeps u) : State.Keeps s (State.gateLive u x1 x2 x3 x4) := by
  unfold State.gateLive
  repeat' first | with_reducible assumption | with_reducible apply State.freshNat_keeps | with_reducible apply State.endOther_keeps | with_reducible apply State.faultRecord_keeps | split | dsimp only | (with_reducible refine State.Keeps.of2 (by with_reducible assumption) ?_)
theorem State.gateEngine_keeps {s u : State} {x1} (h : s.Keeps u) : State.Keeps s (State.gateEngine u x1) := by
  unfold State.gateEngine
  repeat' first | with_reducible assumption | with_reducible apply State.gateHeld_keeps | with_reducible apply State.gateLive_keeps | with_reducible apply State.Keeps.foldl | with_reducible intro _
theorem State.failOp_keeps {s u : State} {x1} (h : s.Keeps u) : State.Keeps s (State.failOp u x1) := by
  unfold State.failOp
  repeat' first | with_reducible assumption | with_reducible apply State.nvComplete_keeps | with_reducible apply State.finishOp_keeps | split
theorem transferAll_keeps {s u : State} {x1 x2} (h : s.Keeps u) : State.Keeps s (transferAll x1 u x2).1 := by
  induction x2 generalizing u x1 with
  | nil => unfold transferAll; repeat' first | with_reducible assumption
  | cons a l ih => unfold transferAll; repeat' first | with_reducible assumption | with_reducible apply ih | with_reducible apply State.transfer_keeps
theorem State.freeOne_keeps {s u : State} {x1} (h : s.Keeps u) : State.Keeps s (State.freeOne u x1) := by
  unfold State.freeOne
  repeat' first | with_reducible assumption | with_reducible apply State.removeOwner_keeps | split
theorem State.commitOwner_keeps {s u : State} {x1 x2} (h : s.Keeps u) : State.Keeps s (State.commitOwner u x1 x2) := by
  unfold State.commitOwner
  repeat' first | with_reducible assumption | with_reducible apply transferAll_keeps | with_reducible apply State.freeOne_keeps | with_reducible apply State.dropOwn_keeps | with_reducible apply publishAll_keeps | with_reducible apply State.Keeps.foldl | split | dsimp only
theorem State.commitAll_keeps {s u : State} (h : s.Keeps u) : State.Keeps s (State.commitAll u) := by
  unfold State.commitAll
  repeat' first | with_reducible assumption | with_reducible apply State.failOp_keeps | with_reducible apply State.commitOwner_keeps | with_reducible apply State.flushDown_keeps | with_reducible apply State.publishMp_keeps | with_reducible apply State.publishEnq_keeps | with_reducible apply State.Keeps.foldl | with_reducible intro _ | dsimp only | (with_reducible refine State.Keeps.lit ?_)
theorem State.gateAll_keeps {s u : State} (h : s.Keeps u) : State.Keeps s (State.gateAll u) := by
  unfold State.gateAll
  repeat' first | with_reducible assumption | with_reducible apply State.gateEngine_keeps | with_reducible apply State.Keeps.foldl | with_reducible intro _ | split
theorem execGate_keeps {s u : State} {x1} (h : s.Keeps u) : State.KeepsNext s (execGate x1 u) := by
  unfold execGate
  repeat' first | with_reducible assumption | with_reducible apply State.noteWants_keeps | with_reducible apply State.harvestAll_keeps | with_reducible apply State.commitAll_keeps | with_reducible apply State.gateAll_keeps | with_reducible apply State.Keeps.next | split | dsimp only | (with_reducible refine State.Keeps.lit ?_)

/-! ### HostUnits -/

theorem State.endWrite_keeps {s u : State} {x1 x2 x3} (h : s.Keeps u) : State.Keeps s (State.endWrite u x1 x2 x3) := by
  unfold State.endWrite
  repeat' first | with_reducible assumption | with_reducible apply State.dropHostName_keeps | with_reducible apply State.reply_keeps | split
theorem State.hostWriteReq_keeps {s u : State} {x1} (h : s.Keeps u) : State.Keeps s (State.hostWriteReq u x1) := by
  unfold State.hostWriteReq
  repeat' first | with_reducible assumption | with_reducible apply State.dropHostName_keeps | with_reducible apply State.endWrite_keeps | with_reducible apply State.place_keeps | with_reducible apply State.reply_keeps | split | dsimp only | (with_reducible refine State.Keeps.ofSome (by with_reducible assumption) ?_)
theorem State.deliverFrame_keeps {s u : State} {x1 x2 x3 x4} (h : s.Keeps u) : State.Keeps s (State.deliverFrame u x1 x2 x3 x4) := by
  unfold State.deliverFrame
  repeat' first | with_reducible assumption | with_reducible apply State.dataWrite_keeps | with_reducible apply State.drain_keeps | with_reducible apply State.setQueue_keeps | with_reducible apply State.endWrite_keeps | with_reducible apply State.pme_keeps | with_reducible apply State.Keeps.foldl | with_reducible intro _ | split
theorem State.rxDeliver_keeps {s u : State} {x1} (h : s.Keeps u) : State.Keeps s (State.rxDeliver u x1) := by
  unfold State.rxDeliver
  repeat' first | with_reducible assumption | with_reducible apply State.dropHostName_keeps | with_reducible apply State.endWrite_keeps | with_reducible apply State.modInstCtr_keeps | with_reducible apply State.pme_keeps | with_reducible apply State.deliverFrame_keeps | split | dsimp only
theorem State.hostWriteAny_keeps {s u : State} {x1} (h : s.Keeps u) : State.Keeps s (State.hostWriteAny u x1) := by
  unfold State.hostWriteAny
  repeat' first | with_reducible assumption | with_reducible apply State.hostWriteReq_keeps | with_reducible apply State.rxDeliver_keeps | split
theorem State.serveWriter_keeps {s u : State} {x1} {f : PostReq → State → State} (h : s.Keeps u) (hf : ∀ r u, s.Keeps u → s.Keeps (f r u)) : State.Keeps s (State.serveWriter u x1 f) := by
  unfold State.serveWriter
  repeat' first | with_reducible assumption | with_reducible apply State.serve_keeps | with_reducible apply State.hostWriteAny_keeps | with_reducible apply State.Keeps.foldl | with_reducible intro _ | split
theorem State.entryFailed_keeps {s u : State} {x1 x2} (h : s.Keeps u) : State.Keeps s (State.entryFailed u x1 x2) := by
  unfold State.entryFailed
  repeat' first | with_reducible assumption | with_reducible apply State.sramFailed_keeps | with_reducible apply State.setOp_keeps | with_reducible apply State.nvComplete_keeps | with_reducible apply State.finishOp_keeps | split | dsimp only | (with_reducible refine State.Keeps.lit ?_)
theorem State.checkedReq_keeps {s u : State} {x1 x2} {f : State → State} (h : s.Keeps u) (hf : ∀ u, s.Keeps u → s.Keeps (f u)) : State.Keeps s (State.checkedReq u x1 x2 f) := by
  unfold State.checkedReq
  repeat' first | with_reducible assumption | with_reducible apply hf | with_reducible apply State.entryFailed_keeps | split
theorem State.saveReq_keeps {s u : State} {x1} (h : s.Keeps u) : State.Keeps s (State.saveReq u x1) := by
  unfold State.saveReq
  repeat' first | with_reducible assumption | with_reducible apply State.setOp_keeps | with_reducible apply State.reply_keeps | split
theorem execSave_keeps {s u : State} {x1} (h : s.Keeps u) : State.KeepsNext s (execSave u x1) := by
  unfold execSave
  repeat' first | with_reducible assumption | with_reducible apply State.serveWriter_keeps | with_reducible apply State.checkedReq_keeps | with_reducible apply State.saveReq_keeps | with_reducible apply State.Keeps.next | with_reducible intro _
theorem State.completeReq_keeps {s u : State} {x1} (h : s.Keeps u) : State.Keeps s (State.completeReq u x1) := by
  unfold State.completeReq
  repeat' first | with_reducible assumption | with_reducible apply State.nvComplete_keeps | with_reducible apply State.finishOp_keeps | with_reducible apply State.reply_keeps | split
theorem State.writerReq_keeps {s u : State} {x1} (h : s.Keeps u) : State.Keeps s (State.writerReq u x1) := by
  unfold State.writerReq
  repeat' first | with_reducible assumption | with_reducible apply State.completeReq_keeps | with_reducible apply State.saveReq_keeps | split
theorem State.serveRest_keeps {s u : State} (h : s.Keeps u) : State.Keeps s (State.serveRest u) := by
  unfold State.serveRest
  repeat' first | with_reducible assumption | with_reducible apply State.serveWriter_keeps | with_reducible apply State.writerReq_keeps | with_reducible apply State.Keeps.foldl | with_reducible intro _ | split
theorem execHostDmaWrite_keeps {s u : State} (h : s.Keeps u) : State.KeepsNext s (execHostDmaWrite u) := by
  unfold execHostDmaWrite
  repeat' first | with_reducible assumption | with_reducible apply State.serve_keeps | with_reducible apply State.hostWriteReq_keeps | with_reducible apply State.Keeps.next | with_reducible intro _
theorem execComplete_keeps {s u : State} {x1} (h : s.Keeps u) : State.KeepsNext s (execComplete u x1) := by
  unfold execComplete
  repeat' first | with_reducible assumption | with_reducible apply State.serveWriter_keeps | with_reducible apply State.checkedReq_keeps | with_reducible apply State.completeReq_keeps | with_reducible apply State.Keeps.next | with_reducible intro _
theorem execHostDmaWriteRx_keeps {s u : State} (h : s.Keeps u) : State.KeepsNext s (execHostDmaWriteRx u) := by
  unfold execHostDmaWriteRx
  repeat' first | with_reducible assumption | with_reducible apply State.serve_keeps | with_reducible apply State.rxDeliver_keeps | with_reducible apply State.Keeps.next | with_reducible intro _
theorem State.hostRead_keeps {s u : State} {x1} (h : s.Keeps u) : State.Keeps s (State.hostRead u x1) := by
  unfold State.hostRead
  repeat' first | with_reducible assumption | with_reducible apply State.dropHostName_keeps | with_reducible apply State.reply_keeps | with_reducible apply State.startRead_keeps | split
theorem execHostDmaRead_keeps {s u : State} (h : s.Keeps u) : State.KeepsNext s (execHostDmaRead u) := by
  unfold execHostDmaRead
  repeat' first | with_reducible assumption | with_reducible apply State.serve_keeps | with_reducible apply State.hostRead_keeps | with_reducible apply State.Keeps.next | with_reducible intro _

/-! ### Integer -/

theorem State.compute_keeps {s u : State} {x1 x2 x3 x4} (h : s.Keeps u) : State.Keeps s (State.compute u x1 x2 x3 x4) := by
  unfold State.compute
  repeat' first | with_reducible assumption | with_reducible apply State.issue_keeps | with_reducible apply State.writeBack_keeps | with_reducible intro _
theorem execBswap_keeps {s u : State} {x1 x2 x3} (h : s.Keeps u) : State.KeepsNext s (execBswap x1 x2 x3 u) := by
  unfold execBswap
  repeat' first | with_reducible assumption | with_reducible apply State.compute_keeps | with_reducible apply State.Keeps.next
theorem execAuipc_keeps {s u : State} {x1 x2 x3} (h : s.Keeps u) : State.KeepsNext s (execAuipc x1 x2 x3 u) := by
  unfold execAuipc
  repeat' first | with_reducible assumption | with_reducible apply State.compute_keeps | with_reducible apply State.Keeps.next
theorem execCsum16_keeps {s u : State} {x1 x2 x3 x4} (h : s.Keeps u) : State.KeepsNext s (execCsum16 x1 x2 x3 x4 u) := by
  unfold execCsum16
  repeat' first | with_reducible assumption | with_reducible apply State.compute_keeps | with_reducible apply State.Keeps.next
theorem execCrc32c_keeps {s u : State} {x1 x2 x3 x4} (h : s.Keeps u) : State.KeepsNext s (execCrc32c x1 x2 x3 x4 u) := by
  unfold execCrc32c
  repeat' first | with_reducible assumption | with_reducible apply State.compute_keeps | with_reducible apply State.Keeps.next
theorem execIntegerOp_keeps {s u : State} {x1 x2 x3 x4 x5} (h : s.Keeps u) : State.KeepsNext s (execIntegerOp x1 x2 x3 x4 x5 u) := by
  unfold execIntegerOp
  repeat' first | with_reducible assumption | with_reducible apply State.compute_keeps | with_reducible apply State.Keeps.next
theorem execLui_keeps {s u : State} {x1 x2 x3} (h : s.Keeps u) : State.KeepsNext s (execLui x1 x2 x3 u) := by
  unfold execLui
  repeat' first | with_reducible assumption | with_reducible apply State.compute_keeps | with_reducible apply State.Keeps.next
theorem execMul_keeps {s u : State} {x1 x2 x3 x4 x5} (h : s.Keeps u) : State.KeepsNext s (execMul x1 x2 x3 x4 x5 u) := by
  unfold execMul
  repeat' first | with_reducible assumption | with_reducible apply State.compute_keeps | with_reducible apply State.Keeps.next
theorem execDiv_keeps {s u : State} {x1 x2 x3 x4 x5} (h : s.Keeps u) : State.KeepsNext s (execDiv x1 x2 x3 x4 x5 u) := by
  unfold execDiv
  repeat' first | with_reducible assumption | with_reducible apply State.compute_keeps | with_reducible apply State.Keeps.next

/-! ### MbadelPrograms -/

theorem State.switchBanks_keeps {s u : State} {x1} (h : s.Keeps u) : State.Keeps s (State.switchBanks u x1) := by
  unfold State.switchBanks
  repeat' first | with_reducible assumption | with_reducible apply State.setEng_keeps | with_reducible apply State.setYard_keeps | with_reducible apply State.Keeps.foldl | with_reducible intro _ | split | dsimp only
theorem State.pendBanks_keeps {s u : State} {x1 x2} (h : s.Keeps u) : State.Keeps s (State.pendBanks u x1 x2) := by
  unfold State.pendBanks
  repeat' first | with_reducible assumption | with_reducible apply State.setEng_keeps | with_reducible apply State.Keeps.foldl | with_reducible intro _
theorem execProgramQuery_keeps {s u : State} {x1 x2} (h : s.Keeps u) : State.KeepsNext s (execProgramQuery x1 x2 u) := by
  unfold execProgramQuery
  repeat' first | with_reducible assumption | with_reducible apply State.runQuery_keeps | with_reducible apply State.Keeps.next
theorem execProgramLoad_keeps {s u : State} {x1 x2 x3 x4} (h : s.Keeps u) : State.KeepsNext s (execProgramLoad x1 x2 x3 x4 u) := by
  unfold execProgramLoad
  repeat' first | with_reducible assumption | with_reducible apply State.runDo_keeps | with_reducible apply State.setEng_keeps | with_reducible apply State.setYard_keeps | with_reducible apply State.Keeps.next | with_reducible apply State.Keeps.foldl | with_reducible intro _ | split

/-! ### MbadelDevice -/

theorem State.clockTo_keeps {s u : State} {x1 x2} (h : s.Keeps u) : State.Keeps s (State.clockTo u x1 x2) := by
  unfold State.clockTo
  repeat' first | with_reducible assumption | with_reducible apply State.log_keeps | split | dsimp only | (with_reducible refine State.Keeps.lit ?_)
theorem State.loseSource_keeps {s u : State} (h : s.Keeps u) : s.Keeps u.loseSource := by
  have q : ∀ b : Bool, s.Keeps { u with time := if b = true then u.time.setQual u.time.source false else (u.time.setQual u.time.source false).keepPhase } := by
    intro b
    have e := Time.setQual_same u.time u.time.source false
    cases b <;> exact State.Keeps.times h e
  have g : ∀ b c n, s.Keeps (State.clockTo { u with time := if b = true then u.time.setQual u.time.source false else (u.time.setQual u.time.source false).keepPhase } c n) :=
    fun b c n => State.clockTo_keeps (q b)
  unfold State.loseSource
  refine iteInduction (motive := fun t => s.Keeps t) (fun _ => h) (fun _ => ?_)
  dsimp only
  split
  · exact State.clockTo_keeps (g _ _ _)
  · exact g _ _ _
theorem State.setCap_keeps {s u : State} {x1} (h : s.Keeps u) : State.Keeps s (State.setCap u x1) := by
  unfold State.setCap
  repeat' first | with_reducible assumption | dsimp only | (with_reducible refine State.Keeps.lit ?_)
theorem State.clockStep_keeps {s u : State} (h : s.Keeps u) : State.Keeps s (State.clockStep u) := by
  unfold State.clockStep
  repeat' first | with_reducible assumption | split | dsimp only | (with_reducible refine State.Keeps.lit ?_)
theorem State.relock_keeps {s u : State} {x1} (h : s.Keeps u) : State.Keeps s (State.relock u x1) := by
  unfold State.relock
  repeat' first | with_reducible assumption | with_reducible apply State.setEng_keeps | with_reducible apply State.killYard_keeps | with_reducible apply State.Keeps.foldl | with_reducible intro _ | dsimp only | (with_reducible refine State.Keeps.lit ?_)
theorem State.turnUnlock_keeps {s u : State} (h : s.Keeps u) : State.Keeps s (State.turnUnlock u) := by
  unfold State.turnUnlock
  repeat' first | with_reducible assumption | with_reducible apply State.relock_keeps | split | dsimp only | (with_reducible refine State.Keeps.lit ?_)
theorem State.setPrio_keeps {s u : State} {x1 x2 x3 x4} (h : s.Keeps u) : State.Keeps s (State.setPrio u x1 x2 x3 x4) := by
  unfold State.setPrio
  repeat' first | with_reducible assumption | with_reducible apply State.loseSource_keeps | split | dsimp only | (with_reducible refine State.Keeps.lit ?_ rfl rfl rfl rfl rfl rfl rfl rfl rfl)
theorem State.selectSource_keeps {s u : State} {x1} (h : s.Keeps u) : State.Keeps s (State.selectSource u x1) := by
  unfold State.selectSource
  repeat' first | with_reducible assumption | with_reducible apply State.clockTo_keeps | split
theorem State.setGate_keeps {s u : State} {x1} (h : s.Keeps u) (a : 218 ≤ x1) (b : x1 ≤ 248) : s.Keeps (u.setGate x1) :=
  ⟨h.1, h.2, h.3, fun l => ⟨(h.4 l).1, a, b, (h.4 l).2.2.2⟩, h.5, h.6, h.7⟩
theorem State.setUrgent_keeps {s u : State} {x1 x2} (h : s.Keeps u) : State.Keeps s (State.setUrgent u x1 x2) := by
  unfold State.setUrgent
  repeat' first | with_reducible assumption | dsimp only | (with_reducible refine State.Keeps.lit ?_)
theorem execHoldoverSet_keeps {s u : State} {x1 x2} (h : s.Keeps u) : State.KeepsNext s (execHoldoverSet x1 x2 u) := by
  unfold execHoldoverSet
  repeat' first | with_reducible assumption | with_reducible apply State.runDo_keeps | with_reducible apply State.Keeps.next | with_reducible intro _ | dsimp only | (with_reducible refine State.Keeps.lit ?_)
theorem State.slewTick_keeps {s u : State} (h : s.Keeps u) : State.Keeps s (State.slewTick u) := by
  unfold State.slewTick
  repeat' first | with_reducible assumption | split | dsimp only | (with_reducible refine State.Keeps.lit ?_)
theorem execLogRead_keeps {s u : State} {x1 x2 x3 x4} (h : s.Keeps u) : State.KeepsNext s (execLogRead x1 x2 x3 x4 u) := by
  unfold execLogRead
  repeat' first | with_reducible assumption | with_reducible apply State.runQuery_keeps | with_reducible apply State.Keeps.next
theorem execDeviceReset_keeps {s u : State} {x1 x2} (h : s.Keeps u) : State.KeepsNext s (execDeviceReset x1 x2 u) := by
  unfold execDeviceReset
  repeat' first | with_reducible assumption | with_reducible apply State.runDo_keeps | with_reducible apply State.Keeps.next | with_reducible intro _ | dsimp only | (with_reducible refine State.Keeps.lit ?_)
theorem execDomainQuery_keeps {s u : State} {x1} (h : s.Keeps u) : State.KeepsNext s (execDomainQuery x1 u) := by
  unfold execDomainQuery
  repeat' first | with_reducible assumption | with_reducible apply State.runQuery_keeps | with_reducible apply State.Keeps.next
theorem execHoldoverExpiry_keeps {s u : State} (h : s.Keeps u) : State.KeepsNext s (execHoldoverExpiry u) := by
  unfold execHoldoverExpiry
  repeat' first | with_reducible assumption | with_reducible apply State.clockTo_keeps | with_reducible apply State.Keeps.next | split
theorem execPowerQuery_keeps {s u : State} {x1} (h : s.Keeps u) : State.KeepsNext s (execPowerQuery x1 u) := by
  unfold execPowerQuery
  repeat' first | with_reducible assumption | with_reducible apply State.runQuery_keeps | with_reducible apply State.Keeps.next
theorem execIdentify_keeps {s u : State} {x1} (h : s.Keeps u) : State.KeepsNext s (execIdentify x1 u) := by
  unfold execIdentify
  repeat' first | with_reducible assumption | with_reducible apply State.runQuery_keeps | with_reducible apply State.Keeps.next
theorem execPoolCarve_keeps {s u : State} {x1 x2 x3} (h : s.Keeps u) : State.KeepsNext s (execPoolCarve x1 x2 x3 u) := by
  unfold execPoolCarve
  repeat' first | with_reducible assumption | with_reducible apply State.runDo_keeps | with_reducible apply State.Keeps.next | with_reducible intro _ | dsimp only | (with_reducible refine State.Keeps.lit ?_)
theorem execTimeQuery_keeps {s u : State} {x1} (h : s.Keeps u) : State.KeepsNext s (execTimeQuery x1 u) := by
  unfold execTimeQuery
  repeat' first | with_reducible assumption | with_reducible apply State.runQuery_keeps | with_reducible apply State.Keeps.next
theorem execPpsInEdge_keeps {s u : State} {x1 x2} (h : s.Keeps u) : State.KeepsNext s (execPpsInEdge x1 x2 u) := by
  unfold execPpsInEdge
  repeat' first | with_reducible assumption | with_reducible apply State.measure_keeps | with_reducible apply State.Keeps.next | split | dsimp only | (with_reducible refine State.Keeps.lit ?_)
theorem execDebugQuery_keeps {s u : State} {x1} (h : s.Keeps u) : State.KeepsNext s (execDebugQuery x1 u) := by
  unfold execDebugQuery
  repeat' first | with_reducible assumption | with_reducible apply State.runQuery_keeps | with_reducible apply State.Keeps.next
theorem execEventMask_keeps {s u : State} {x1 x2} (h : s.Keeps u) : State.KeepsNext s (execEventMask x1 x2 u) := by
  unfold execEventMask
  repeat' first | with_reducible assumption | with_reducible apply State.runDo_keeps | with_reducible apply State.Keeps.next | with_reducible intro _ | dsimp only | (with_reducible refine State.Keeps.lit ?_)
theorem execRepairLog_keeps {s u : State} {x1 x2 x3} (h : s.Keeps u) : State.KeepsNext s (execRepairLog x1 x2 x3 u) := by
  unfold execRepairLog
  repeat' first | with_reducible assumption | with_reducible apply State.runQuery_keeps | with_reducible apply State.Keeps.next
theorem execDeviceState_keeps {s u : State} {x1} (h : s.Keeps u) : State.KeepsNext s (execDeviceState x1 u) := by
  unfold execDeviceState
  repeat' first | with_reducible assumption | with_reducible apply State.runQuery_keeps | with_reducible apply State.Keeps.next
theorem execEventRingSet_keeps {s u : State} {x1 x2 x3 x4} (h : s.Keeps u) : State.KeepsNext s (execEventRingSet x1 x2 x3 x4 u) := by
  unfold execEventRingSet
  repeat' first | with_reducible assumption | with_reducible apply State.runDo_keeps | with_reducible apply State.Keeps.next | with_reducible intro _ | dsimp only | (with_reducible refine State.Keeps.lit ?_)
theorem State.tellPeriod_keeps {s u : State} (h : s.Keeps u) : State.Keeps s (State.tellPeriod u) := by
  unfold State.tellPeriod
  repeat' first | with_reducible assumption | with_reducible apply State.controlAll_keeps | split
theorem execPeriodCancel_keeps {s u : State} {x1} (h : s.Keeps u) : s.KeepsNext (execPeriodCancel x1 u) := by
  refine State.Keeps.next (State.runDo_keepsOk h (fun v g _ _ => State.tellPeriod_keeps ⟨g.1, g.2, g.3, fun l => ⟨(g.4 l).1, (g.4 l).2.1, (g.4 l).2.2.1, ?_⟩, g.5, g.6, g.7⟩))
  intro p e; cases e
theorem execClockLocked_keeps {s u : State} (h : s.Keeps u) : State.KeepsNext s (execClockLocked u) := by
  unfold execClockLocked
  repeat' first | with_reducible assumption | with_reducible apply State.clockTo_keeps | with_reducible apply State.Keeps.next | split
theorem execUnlockExpiry_keeps {s u : State} (h : s.Keeps u) : State.KeepsNext s (execUnlockExpiry u) := by
  unfold execUnlockExpiry
  repeat' first | with_reducible assumption | with_reducible apply State.Keeps.next | split | dsimp only | (with_reducible refine State.Keeps.lit ?_)
theorem execPeriodChange_keeps {s u : State} {x1 x2 x3} (h : s.Keeps u) : s.KeepsNext (execPeriodChange x1 x2 x3 u) := by
  refine State.Keeps.next (State.runDo_keepsOk h (fun v g b _ => State.tellPeriod_keeps ⟨g.1, g.2, g.3, fun l => ⟨(g.4 l).1, (g.4 l).2.1, (g.4 l).2.2.1, ?_⟩, g.5, g.6, g.7⟩))
  intro p e
  cases e
  by_cases c : x2 < 5
  · exact c
  · simp [c] at b
theorem execControlRegion_keeps {s u : State} {x1 x2} (h : s.Keeps u) : State.KeepsNext s (execControlRegion x1 x2 u) := by
  unfold execControlRegion
  repeat' first | with_reducible assumption | with_reducible apply State.runDo_keeps | with_reducible apply State.Keeps.next | with_reducible intro _ | dsimp only | (with_reducible refine State.Keeps.lit ?_)
theorem execMonitorUnlock_keeps {s u : State} {x1 x2 x3} (h : s.Keeps u) : State.KeepsNext s (execMonitorUnlock x1 x2 x3 u) := by
  unfold execMonitorUnlock
  repeat' first | with_reducible assumption | with_reducible apply State.runNow_keeps | with_reducible apply State.Keeps.next | with_reducible intro _ | dsimp only | (with_reducible refine State.Keeps.lit ?_)
theorem execSourceQualified_keeps {s u : State} {x1} (h : s.Keeps u) : State.KeepsNext s (execSourceQualified x1 u) := by
  unfold execSourceQualified
  repeat' first | with_reducible assumption | with_reducible refine State.Keeps.setQual ?_ | with_reducible apply State.clockTo_keeps | with_reducible apply State.Keeps.next | split | dsimp only
theorem execSourceLost_keeps {s u : State} {x1} (h : s.Keeps u) : State.KeepsNext s (execSourceLost u x1) := by
  unfold execSourceLost
  repeat' first | with_reducible assumption | with_reducible refine State.Keeps.setQual ?_ | with_reducible apply State.loseSource_keeps | with_reducible apply State.Keeps.next | split | dsimp only

/-! ### MbadelRepair -/

theorem execFarrierReload_keeps {s u : State} {x1 x2} (h : s.Keeps u) : State.KeepsNext s (execFarrierReload x1 x2 u) := by
  unfold execFarrierReload
  repeat' first | with_reducible assumption | with_reducible apply State.runLong_keeps | with_reducible apply State.reloadFarrier_keeps | with_reducible apply State.endLong_keeps | with_reducible apply State.Keeps.next | with_reducible intro _ | split | (with_reducible refine State.Keeps.of2 (by with_reducible assumption) ?_)
theorem execPatrolSet_keeps {s u : State} {x1 x2 x3} (h : s.Keeps u) : State.KeepsNext s (execPatrolSet x1 x2 x3 u) := by
  unfold execPatrolSet
  repeat' first | with_reducible assumption | with_reducible apply State.runDo_keeps | with_reducible apply State.Keeps.next | with_reducible intro _ | dsimp only | (with_reducible refine State.Keeps.lit ?_)
theorem execRotateNow_keeps {s u : State} {x1 x2 x3 x4} (h : s.Keeps u) : State.KeepsNext s (execRotateNow x1 x2 x3 x4 u) := by
  unfold execRotateNow
  repeat' first | with_reducible assumption | with_reducible apply State.runLong_keeps | with_reducible apply State.startRotate_keeps | with_reducible apply State.Keeps.next | with_reducible intro _
theorem execRotationSet_keeps {s u : State} {x1 x2 x3} (h : s.Keeps u) : State.KeepsNext s (execRotationSet x1 x2 x3 u) := by
  unfold execRotationSet
  repeat' first | with_reducible assumption | with_reducible apply State.runDo_keeps | with_reducible apply State.Keeps.next | with_reducible intro _ | dsimp only | (with_reducible refine State.Keeps.lit ?_)
theorem execSparesQuery_keeps {s u : State} {x1} (h : s.Keeps u) : State.KeepsNext s (execSparesQuery x1 u) := by
  unfold execSparesQuery
  repeat' first | with_reducible assumption | with_reducible apply State.runQuery_keeps | with_reducible apply State.Keeps.next
theorem State.cancelRotate_keeps {s u : State} {x1} (h : s.Keeps u) : State.Keeps s (State.cancelRotate u x1) := by
  unfold State.cancelRotate
  repeat' first | with_reducible assumption | with_reducible apply State.endLong_keeps | with_reducible apply State.dropSwap_keeps | with_reducible apply State.nextSwap_keeps | split | dsimp only | (with_reducible refine State.Keeps.lit ?_)
theorem execWearQuery_keeps {s u : State} {x1} (h : s.Keeps u) : State.KeepsNext s (execWearQuery x1 u) := by
  unfold execWearQuery
  repeat' first | with_reducible assumption | with_reducible apply State.runQuery_keeps | with_reducible apply State.Keeps.next

/-! ### MbadelImages -/

theorem execLifecycleAdvance_keeps {s u : State} {x1 x2 x3} (h : s.Keeps u) : s.KeepsNext (execLifecycleAdvance x1 x2 x3 u) := by
  refine State.Keeps.next (State.runDo_keepsOk h (fun v g _ e => ⟨g.1, g.2, g.3, g.4, ?_, g.6, g.7⟩))
  have := failIf_none (firstOf_none (show firstOf [failIf (decide (x2 ≤ v.nv.lifecycle)) (vPre 1), failIf (decide (x3 ≠ 0x5A5AA5A5#32)) (vPre 2), noStep v] = none from e))
  simp at this
  exact Nat.le_trans g.5 (Nat.le_of_lt this)
theorem execImageWrite_keeps {s u : State} {x1 x2 x3 x4} (h : s.Keeps u) : State.KeepsNext s (execImageWrite x1 x2 x3 x4 u) := by
  unfold execImageWrite
  repeat' first | with_reducible assumption | with_reducible apply State.runDo_keeps | with_reducible apply State.slotWrite_keeps | with_reducible apply State.Keeps.next | with_reducible intro _
theorem execImageConfirm_keeps {s u : State} {x1} (h : s.Keeps u) : State.KeepsNext s (execImageConfirm x1 u) := by
  unfold execImageConfirm
  repeat' first | with_reducible assumption | with_reducible apply State.runNow_keeps | with_reducible apply State.jAppend_keeps | with_reducible apply State.Keeps.next | with_reducible intro _ | split
theorem execImageQuery_keeps {s u : State} {x1} (h : s.Keeps u) : State.KeepsNext s (execImageQuery x1 u) := by
  unfold execImageQuery
  repeat' first | with_reducible assumption | with_reducible apply State.runQuery_keeps | with_reducible apply State.Keeps.next
theorem execKeyRevoke_keeps {s u : State} {x1 x2} (h : s.Keeps u) : s.KeepsNext (execKeyRevoke x1 x2 u) := by
  refine State.Keeps.next (State.runDo_keeps h (fun v g => ?_))
  dsimp only
  split
  · exact g
  · exact ⟨g.1, g.2, g.3, g.4, g.5, fun k a => List.mem_append_left _ (g.6 k a), g.7⟩
theorem execImageValidate_keeps {s u : State} {x1 x2} (h : s.Keeps u) : State.KeepsNext s (execImageValidate x1 x2 u) := by
  unfold execImageValidate
  repeat' first | with_reducible assumption | with_reducible apply State.runNow_keeps | with_reducible apply State.writeMarker_keeps | with_reducible apply State.Keeps.next | with_reducible intro _
theorem execMpSwitch_keeps {s u : State} {x1 x2 x3} (h : s.Keeps u) : State.KeepsNext s (execMpSwitch x1 x2 x3 u) := by
  unfold execMpSwitch
  repeat' first | with_reducible assumption | with_reducible apply State.runLong_keeps | with_reducible apply State.Keeps.next | with_reducible intro _ | dsimp only | (with_reducible refine State.Keeps.lit ?_)
theorem execKeyQuery_keeps {s u : State} {x1} (h : s.Keeps u) : State.KeepsNext s (execKeyQuery x1 u) := by
  unfold execKeyQuery
  repeat' first | with_reducible assumption | with_reducible apply State.runQuery_keeps | with_reducible apply State.Keeps.next

/-! ### MbadelQueues -/

theorem State.ringBind_keeps {s u : State} {x1 x2 x3 x4} (h : s.Keeps u) : State.Keeps s (State.ringBind u x1 x2 x3 x4) := by
  unfold State.ringBind
  repeat' first | with_reducible assumption | with_reducible apply State.modQueue_keeps
theorem execQueueQuery_keeps {s u : State} {x1 x2 x3 x4} (h : s.Keeps u) : State.KeepsNext s (execQueueQuery x1 x2 x3 x4 u) := by
  unfold execQueueQuery
  repeat' first | with_reducible assumption | with_reducible apply State.runQuery_keeps | with_reducible apply State.Keeps.next
theorem State.queueDestroy_keeps {s u : State} {x1 x2} (h : s.Keeps u) : State.Keeps s (State.queueDestroy u x1 x2) := by
  unfold State.queueDestroy
  repeat' first | with_reducible assumption | with_reducible apply State.nvEndOut_keeps | with_reducible apply State.nvSettle_keeps | with_reducible apply State.modCtl_keeps | with_reducible apply State.endQueue_keeps | with_reducible apply State.Keeps.foldl | with_reducible intro _ | split

/-! ### RdmaCmds -/

theorem State.submitReq_keeps {s u : State} {x1} (h : s.Keeps u) : State.Keeps s (State.submitReq u x1) := by
  unfold State.submitReq
  repeat' first | with_reducible assumption | with_reducible apply State.reply_keeps | with_reducible apply State.endSubmit_keeps | with_reducible apply State.missWaits_keeps | with_reducible apply State.touchCtx_keeps | with_reducible apply State.setCtx_keeps | with_reducible apply State.pump_keeps | with_reducible apply State.readPayload_keeps | split | dsimp only
theorem execSubmit_keeps {s u : State} (h : s.Keeps u) : State.KeepsNext s (execSubmit u) := by
  unfold execSubmit
  repeat' first | with_reducible assumption | with_reducible apply State.serve_keeps | with_reducible apply State.submitReq_keeps | with_reducible apply State.Keeps.next | with_reducible intro _
theorem State.sprayMissing_keeps {s u : State} {x1 x2 x3} (h : s.Keeps u) : State.Keeps s (State.sprayMissing u x1 x2 x3) := by
  unfold State.sprayMissing
  repeat' first | with_reducible assumption | with_reducible apply State.readPayload_keeps | with_reducible apply State.nakError_keeps | with_reducible apply State.startRead_keeps | with_reducible apply State.inflight_keeps | split | dsimp only
theorem State.acceptPkt_keeps {s u : State} {x1 x2 x3} {f : Ctx → State → State} (h : s.Keeps u) (hf : ∀ c u, s.Keeps u → s.Keeps (f c u)) : State.Keeps s (State.acceptPkt u x1 x2 x3 f) := by
  unfold State.acceptPkt
  repeat' first | with_reducible assumption | with_reducible apply hf | with_reducible apply State.rdmaCount_keeps | with_reducible apply State.endPkt_keeps | with_reducible apply State.missWaits_keeps | with_reducible apply State.errorCtx_keeps | with_reducible apply State.log_keeps | with_reducible apply State.touchCtx_keeps | split
theorem State.request_keeps {s u : State} {x1 x2 x3} {f : Ctx → State → State} (h : s.Keeps u) (hf : ∀ c u, s.Keeps u → s.Keeps (f c u)) : State.Keeps s (State.request u x1 x2 x3 f) := by
  unfold State.request
  repeat' first | with_reducible assumption | with_reducible apply hf | with_reducible apply State.acceptPkt_keeps | with_reducible apply State.modInstCtr_keeps | with_reducible apply State.setCtx_keeps | with_reducible apply State.nakError_keeps | with_reducible intro _ | split | dsimp only
theorem State.aheadOf_keeps {s u : State} {x1 x2} (h : s.Keeps u) : State.Keeps s (State.aheadOf u x1 x2) := by
  unfold State.aheadOf
  repeat' first | with_reducible assumption | with_reducible apply State.rdmaCount_keeps | with_reducible apply State.sendAck_keeps | with_reducible apply State.setCtx_keeps | split
theorem State.writePkt_keeps {s u : State} {x1 x2 x3 x4} (h : s.Keeps u) : State.Keeps s (State.writePkt u x1 x2 x3 x4) := by
  unfold State.writePkt
  repeat' first | with_reducible assumption | with_reducible apply State.aheadOf_keeps | with_reducible apply State.sendAck_keeps | with_reducible apply State.nakError_keeps | with_reducible apply State.place_keeps | with_reducible apply State.modCtx_keeps | split | dsimp only | (with_reducible refine State.Keeps.ofSome (by with_reducible assumption) ?_)
theorem State.startServe_keeps {s u : State} {x1 x2 x3 x4} (h : s.Keeps u) : State.KeepsSome s (State.startServe u x1 x2 x3 x4) := by
  unfold State.startServe
  repeat' first | with_reducible assumption | with_reducible apply State.setCtx_keeps | with_reducible apply State.setOp_keeps | with_reducible apply State.startRead_keeps | with_reducible apply State.inflight_keeps | with_reducible apply State.Keeps.some | with_reducible exact State.Keeps.none _ | split
theorem State.readReq_keeps {s u : State} {x1 x2} (h : s.Keeps u) : State.Keeps s (State.readReq u x1 x2) := by
  unfold State.readReq
  repeat' first | with_reducible assumption | with_reducible apply State.aheadOf_keeps | with_reducible apply State.nakError_keeps | with_reducible apply State.startServe_keeps | with_reducible apply State.rdmaCount_keeps | with_reducible apply State.modCtx_keeps | split | dsimp only | (with_reducible refine State.Keeps.ofSome (by with_reducible assumption) ?_)
theorem State.response_keeps {s u : State} {x1 x2 x3} {f : Ctx → State → State} (h : s.Keeps u) (hf : ∀ c u, s.Keeps u → s.Keeps (f c u)) : State.Keeps s (State.response u x1 x2 x3 f) := by
  unfold State.response
  repeat' first | with_reducible assumption | with_reducible apply hf | with_reducible apply State.acceptPkt_keeps | with_reducible intro _ | split
theorem State.completeTo_keeps {s u : State} {x1 x2 x3} (h : s.Keeps u) : State.Keeps s (State.completeTo u x1 x2 x3) := by
  unfold State.completeTo
  repeat' first | with_reducible assumption | with_reducible apply State.endWqe_keeps | with_reducible apply State.Keeps.foldl | with_reducible intro _ | split
theorem placeSegs_keeps {s u : State} {x1 x2 x3 x4} (h : s.Keeps u) : s.Keeps (placeSegs x1 x2 x3 x4 u) := by
  induction x3 generalizing u x4 with
  | nil => exact h
  | cons a l ih =>
    cases l with
    | nil => exact State.Keeps.getD h (State.place_keeps h)
    | cons b l => exact ih (State.dataWrite_keeps h)
theorem State.readResp_keeps {s u : State} {x1 x2} (h : s.Keeps u) : State.Keeps s (State.readResp u x1 x2) := by
  unfold State.readResp
  repeat' first | with_reducible assumption | with_reducible apply State.sendReadReq_keeps | with_reducible apply State.modCtx_keeps | with_reducible apply State.completeTo_keeps | with_reducible apply State.setCtx_keeps | with_reducible apply State.setWqe_keeps | with_reducible apply State.pump_keeps | with_reducible apply placeSegs_keeps | split | dsimp only
theorem State.nakReceived_keeps {s u : State} {x1 x2 x3} (h : s.Keeps u) : State.Keeps s (State.nakReceived u x1 x2 x3) := by
  unfold State.nakReceived
  repeat' first | with_reducible assumption | with_reducible apply State.endWqe_keeps | with_reducible apply State.errorCtx_keeps | split
theorem State.ackPkt_keeps {s u : State} {x1 x2} (h : s.Keeps u) : State.Keeps s (State.ackPkt u x1 x2) := by
  unfold State.ackPkt
  repeat' first | with_reducible assumption | with_reducible apply State.pump_keeps | with_reducible apply State.completeTo_keeps | with_reducible apply State.setCtx_keeps | with_reducible apply State.resendFrom_keeps | with_reducible apply State.rdmaCount_keeps | with_reducible apply State.nakReceived_keeps | split | dsimp only
theorem State.sprayWritePkt_keeps {s u : State} {x1 x2 x3} (h : s.Keeps u) : State.Keeps s (State.sprayWritePkt u x1 x2 x3) := by
  unfold State.sprayWritePkt
  repeat' first | with_reducible assumption | with_reducible apply State.nakError_keeps | with_reducible apply State.sendSprayAck_keeps | with_reducible apply State.rdmaCount_keeps | with_reducible apply State.place_keeps | with_reducible apply State.modCtx_keeps | split | dsimp only | (with_reducible refine State.Keeps.ofSome (by with_reducible assumption) ?_)
theorem State.sprayReadPkt_keeps {s u : State} {x1 x2 x3} (h : s.Keeps u) : State.Keeps s (State.sprayReadPkt u x1 x2 x3) := by
  unfold State.sprayReadPkt
  repeat' first | with_reducible assumption | with_reducible apply State.nakError_keeps | with_reducible apply State.startRead_keeps | with_reducible apply State.inflight_keeps | with_reducible apply State.startServe_keeps | with_reducible apply State.rdmaCount_keeps | split | dsimp only | (with_reducible refine State.Keeps.ofSome (by with_reducible assumption) ?_)
theorem State.sprayRespPkt_keeps {s u : State} {x1 x2 x3} (h : s.Keeps u) : State.Keeps s (State.sprayRespPkt u x1 x2 x3) := by
  unfold State.sprayRespPkt
  repeat' first | with_reducible assumption | with_reducible apply State.rdmaCount_keeps | with_reducible apply State.setWqe_keeps | with_reducible apply State.pump_keeps | with_reducible apply placeSegs_keeps | split | dsimp only
theorem State.sprayAckPkt_keeps {s u : State} {x1 x2 x3} (h : s.Keeps u) : State.Keeps s (State.sprayAckPkt u x1 x2 x3) := by
  unfold State.sprayAckPkt
  repeat' first | with_reducible assumption | with_reducible apply State.pump_keeps | with_reducible apply State.endWqe_keeps | with_reducible apply State.modCtx_keeps | with_reducible apply State.freeRead_keeps | split
theorem State.sprayNakPkt_keeps {s u : State} {x1 x2 x3} (h : s.Keeps u) : State.Keeps s (State.sprayNakPkt u x1 x2 x3) := by
  unfold State.sprayNakPkt
  repeat' first | with_reducible assumption | with_reducible apply State.nakReceived_keeps | with_reducible apply State.rdmaCount_keeps
theorem State.unsupportedPkt_keeps {s u : State} {x1 x2} (h : s.Keeps u) : State.Keeps s (State.unsupportedPkt u x1 x2) := by
  unfold State.unsupportedPkt
  repeat' first | with_reducible assumption | with_reducible apply State.acceptPkt_keeps | with_reducible apply State.modInstCtr_keeps | with_reducible apply State.nakError_keeps | with_reducible apply State.setCtx_keeps | with_reducible apply State.endPkt_keeps | with_reducible intro _ | split
theorem State.rdmaHandle_keeps {s u : State} {x1 x2 x3} (h : s.Keeps u) : State.Keeps s (State.rdmaHandle u x1 x2 x3) := by
  unfold State.rdmaHandle
  repeat' first | with_reducible assumption | with_reducible apply State.request_keeps | with_reducible apply State.writePkt_keeps | with_reducible apply State.readReq_keeps | with_reducible apply State.response_keeps | with_reducible apply State.readResp_keeps | with_reducible apply State.ackPkt_keeps | with_reducible apply State.sprayWritePkt_keeps | with_reducible apply State.sprayReadPkt_keeps | with_reducible apply State.sprayRespPkt_keeps | with_reducible apply State.sprayAckPkt_keeps | with_reducible apply State.sprayMissing_keeps | with_reducible apply State.sprayNakPkt_keeps | with_reducible apply State.unsupportedPkt_keeps | with_reducible intro _ | split
theorem execSprayReadResp_keeps {s u : State} {x1 x2} (h : s.Keeps u) : State.KeepsNext s (execSprayReadResp x1 x2 u) := by
  unfold execSprayReadResp
  repeat' first | with_reducible assumption | with_reducible apply State.rdmaHandle_keeps | with_reducible apply State.Keeps.next
theorem State.tuneReq_keeps {s u : State} {x1} (h : s.Keeps u) : State.Keeps s (State.tuneReq u x1) := by
  unfold State.tuneReq
  repeat' first | with_reducible assumption | with_reducible apply State.reply_keeps | with_reducible apply State.missWaits_keeps | with_reducible apply State.touchCtx_keeps | with_reducible apply State.setCtx_keeps | split | dsimp only
theorem State.rdmaPost_keeps {s u : State} {x1} (h : s.Keeps u) : State.Keeps s (State.rdmaPost u x1) := by
  unfold State.rdmaPost
  repeat' first | with_reducible assumption | with_reducible apply State.submitReq_keeps | with_reducible apply State.tuneReq_keeps | split
theorem State.replayMisses_keeps {s u : State} {x1 x2} (h : s.Keeps u) : State.Keeps s (State.replayMisses u x1 x2) := by
  unfold State.replayMisses
  repeat' first | with_reducible assumption | with_reducible apply State.rdmaHandle_keeps | with_reducible apply State.rdmaPost_keeps | with_reducible apply State.reply_keeps | with_reducible apply State.endSubmit_keeps | with_reducible apply State.Keeps.foldl | with_reducible intro _ | split | dsimp only | (with_reducible refine State.Keeps.lit ?_)
theorem execRdmaReadResponseFirst_keeps {s u : State} {x1} (h : s.Keeps u) : State.KeepsNext s (execRdmaReadResponseFirst x1 u) := by
  unfold execRdmaReadResponseFirst
  repeat' first | with_reducible assumption | with_reducible apply State.rdmaHandle_keeps | with_reducible apply State.Keeps.next
theorem execAcknowledge_keeps {s u : State} {x1} (h : s.Keeps u) : State.KeepsNext s (execAcknowledge x1 u) := by
  unfold execAcknowledge
  repeat' first | with_reducible assumption | with_reducible apply State.rdmaHandle_keeps | with_reducible apply State.Keeps.next
theorem State.sendSacks_keeps {s u : State} {x1 x2 x3 x4 x5} (h : s.Keeps u) : State.Keeps s (State.sendSacks u x1 x2 x3 x4 x5) := by
  unfold State.sendSacks
  repeat' first | with_reducible assumption | with_reducible apply State.rdmaCount_keeps | with_reducible apply State.sendReply_keeps | with_reducible apply State.Keeps.foldl | with_reducible intro _
theorem State.reassemblyOf_keeps {s u : State} {x1 x2} (h : s.Keeps u) : State.Keeps s (State.reassemblyOf u x1 x2) := by
  unfold State.reassemblyOf
  repeat' first | with_reducible assumption | with_reducible apply State.rdmaCount_keeps | with_reducible apply State.setCtx_keeps | with_reducible apply State.sendSacks_keeps | with_reducible apply State.setWqe_keeps | with_reducible apply State.endWqe_keeps | with_reducible apply State.sendReadReq_keeps | split
theorem State.fillDone_keeps {s u : State} {x1 x2 x3} (h : s.Keeps u) : State.Keeps s (State.fillDone u x1 x2 x3) := by
  unfold State.fillDone
  repeat' first | with_reducible assumption | with_reducible apply State.indexRead_keeps | with_reducible apply State.retryFills_keeps | with_reducible apply State.replayMisses_keeps | with_reducible apply State.touchCtx_keeps | with_reducible apply State.setCtx_keeps | with_reducible apply State.errorCtx_keeps | with_reducible apply State.log_keeps | split | (with_reducible refine State.Keeps.of2 (by with_reducible assumption) ?_)
theorem execRdmaReadRequest_keeps {s u : State} {x1} (h : s.Keeps u) : State.KeepsNext s (execRdmaReadRequest x1 u) := by
  unfold execRdmaReadRequest
  repeat' first | with_reducible assumption | with_reducible apply State.rdmaHandle_keeps | with_reducible apply State.Keeps.next
theorem execSprayNak_keeps {s u : State} {x1 x2} (h : s.Keeps u) : State.KeepsNext s (execSprayNak x1 x2 u) := by
  unfold execSprayNak
  repeat' first | with_reducible assumption | with_reducible apply State.rdmaHandle_keeps | with_reducible apply State.Keeps.next
theorem State.ackTimeoutOf_keeps {s u : State} {x1} (h : s.Keeps u) : State.Keeps s (State.ackTimeoutOf u x1) := by
  unfold State.ackTimeoutOf
  repeat' first | with_reducible assumption | with_reducible apply State.startFill_keeps | with_reducible apply State.rdmaCount_keeps | with_reducible apply State.touchCtx_keeps | with_reducible apply State.endWqe_keeps | with_reducible apply State.resendFrom_keeps | with_reducible apply State.modCtx_keeps | split
theorem execRdmaReadResponseOnly_keeps {s u : State} {x1} (h : s.Keeps u) : State.KeepsNext s (execRdmaReadResponseOnly x1 u) := by
  unfold execRdmaReadResponseOnly
  repeat' first | with_reducible assumption | with_reducible apply State.rdmaHandle_keeps | with_reducible apply State.Keeps.next
theorem State.readRecordOf_keeps {s u : State} {x1 x2} (h : s.Keeps u) : State.Keeps s (State.readRecordOf u x1 x2) := by
  unfold State.readRecordOf
  repeat' first | with_reducible assumption | with_reducible apply State.modCtx_keeps | with_reducible apply State.freeRead_keeps | split
theorem execContextFill_keeps {s u : State} {x1 x2 x3} (h : s.Keeps u) : State.KeepsNext s (execContextFill x1 x2 u x3) := by
  unfold execContextFill
  repeat' first | with_reducible assumption | with_reducible apply State.fillDone_keeps | with_reducible apply State.Keeps.next
theorem execAckTimeout_keeps {s u : State} {x1} (h : s.Keeps u) : State.KeepsNext s (execAckTimeout x1 u) := by
  unfold execAckTimeout
  repeat' first | with_reducible assumption | with_reducible apply State.ackTimeoutOf_keeps | with_reducible apply State.Keeps.next
theorem execRdmaWriteMiddle_keeps {s u : State} {x1} (h : s.Keeps u) : State.KeepsNext s (execRdmaWriteMiddle x1 u) := by
  unfold execRdmaWriteMiddle
  repeat' first | with_reducible assumption | with_reducible apply State.rdmaHandle_keeps | with_reducible apply State.Keeps.next
theorem execRdmaWriteFirst_keeps {s u : State} {x1} (h : s.Keeps u) : State.KeepsNext s (execRdmaWriteFirst x1 u) := by
  unfold execRdmaWriteFirst
  repeat' first | with_reducible assumption | with_reducible apply State.rdmaHandle_keeps | with_reducible apply State.Keeps.next
theorem execReadRecordTimeout_keeps {s u : State} {x1 x2} (h : s.Keeps u) : State.KeepsNext s (execReadRecordTimeout x1 x2 u) := by
  unfold execReadRecordTimeout
  repeat' first | with_reducible assumption | with_reducible apply State.readRecordOf_keeps | with_reducible apply State.Keeps.next
theorem execRdmaReadResponseLast_keeps {s u : State} {x1} (h : s.Keeps u) : State.KeepsNext s (execRdmaReadResponseLast x1 u) := by
  unfold execRdmaReadResponseLast
  repeat' first | with_reducible assumption | with_reducible apply State.rdmaHandle_keeps | with_reducible apply State.Keeps.next
theorem execSprayReadReq_keeps {s u : State} {x1 x2} (h : s.Keeps u) : State.KeepsNext s (execSprayReadReq x1 x2 u) := by
  unfold execSprayReadReq
  repeat' first | with_reducible assumption | with_reducible apply State.rdmaHandle_keeps | with_reducible apply State.Keeps.next
theorem execRdmaWriteOnly_keeps {s u : State} {x1} (h : s.Keeps u) : State.KeepsNext s (execRdmaWriteOnly x1 u) := by
  unfold execRdmaWriteOnly
  repeat' first | with_reducible assumption | with_reducible apply State.rdmaHandle_keeps | with_reducible apply State.Keeps.next
theorem execRdmaReadResponseMiddle_keeps {s u : State} {x1} (h : s.Keeps u) : State.KeepsNext s (execRdmaReadResponseMiddle x1 u) := by
  unfold execRdmaReadResponseMiddle
  repeat' first | with_reducible assumption | with_reducible apply State.rdmaHandle_keeps | with_reducible apply State.Keeps.next
theorem execRdmaCounters_keeps {s u : State} (h : s.Keeps u) : State.KeepsNext s (execRdmaCounters u) := by
  unfold execRdmaCounters
  repeat' first | with_reducible assumption | with_reducible apply State.log_keeps | with_reducible apply State.Keeps.next | with_reducible apply State.Keeps.foldl | with_reducible intro _ | split | dsimp only | (with_reducible refine State.Keeps.lit ?_)
theorem State.sprayTimeoutOf_keeps {s u : State} {x1 x2} (h : s.Keeps u) : State.Keeps s (State.sprayTimeoutOf u x1 x2) := by
  unfold State.sprayTimeoutOf
  repeat' first | with_reducible assumption | with_reducible apply State.startFill_keeps | with_reducible apply State.rdmaCount_keeps | with_reducible apply State.touchCtx_keeps | with_reducible apply State.endWqe_keeps | with_reducible apply State.setWqe_keeps | with_reducible apply State.sendReadReq_keeps | with_reducible apply State.readPayload_keeps | split
theorem execSprayMessageTimeout_keeps {s u : State} {x1 x2} (h : s.Keeps u) : State.KeepsNext s (execSprayMessageTimeout x1 x2 u) := by
  unfold execSprayMessageTimeout
  repeat' first | with_reducible assumption | with_reducible apply State.sprayTimeoutOf_keeps | with_reducible apply State.Keeps.next
theorem execRdmaWriteLast_keeps {s u : State} {x1} (h : s.Keeps u) : State.KeepsNext s (execRdmaWriteLast x1 u) := by
  unfold execRdmaWriteLast
  repeat' first | with_reducible assumption | with_reducible apply State.rdmaHandle_keeps | with_reducible apply State.Keeps.next
theorem execSprayAck_keeps {s u : State} {x1 x2} (h : s.Keeps u) : State.KeepsNext s (execSprayAck x1 x2 u) := by
  unfold execSprayAck
  repeat' first | with_reducible assumption | with_reducible apply State.rdmaHandle_keeps | with_reducible apply State.Keeps.next
theorem execUnsupportedOpcodePacket_keeps {s u : State} {x1} (h : s.Keeps u) : State.KeepsNext s (execUnsupportedOpcodePacket x1 u) := by
  unfold execUnsupportedOpcodePacket
  repeat' first | with_reducible assumption | with_reducible apply State.rdmaHandle_keeps | with_reducible apply State.Keeps.next
theorem execReassemblyLimit_keeps {s u : State} {x1 x2} (h : s.Keeps u) : State.KeepsNext s (execReassemblyLimit x1 x2 u) := by
  unfold execReassemblyLimit
  repeat' first | with_reducible assumption | with_reducible apply State.reassemblyOf_keeps | with_reducible apply State.Keeps.next
theorem execSpraySack_keeps {s u : State} {x1 x2} (h : s.Keeps u) : State.KeepsNext s (execSpraySack x1 x2 u) := by
  unfold execSpraySack
  repeat' first | with_reducible assumption | with_reducible apply State.rdmaHandle_keeps | with_reducible apply State.Keeps.next
theorem execTune_keeps {s u : State} (h : s.Keeps u) : State.KeepsNext s (execTune u) := by
  unfold execTune
  repeat' first | with_reducible assumption | with_reducible apply State.serve_keeps | with_reducible apply State.tuneReq_keeps | with_reducible apply State.Keeps.next | with_reducible intro _
theorem execSprayWrite_keeps {s u : State} {x1 x2} (h : s.Keeps u) : State.KeepsNext s (execSprayWrite x1 x2 u) := by
  unfold execSprayWrite
  repeat' first | with_reducible assumption | with_reducible apply State.rdmaHandle_keeps | with_reducible apply State.Keeps.next

/-! ### MbadelRdma -/

theorem execCtxQuery_keeps {s u : State} {x1 x2} (h : s.Keeps u) : State.KeepsNext s (execCtxQuery x1 x2 u) := by
  unfold execCtxQuery
  repeat' first | with_reducible assumption | with_reducible apply State.runQuery_keeps | with_reducible apply State.Keeps.next
theorem State.cacheCtx_keeps {s u : State} {x1} (h : s.Keeps u) : State.Keeps s (State.cacheCtx u x1) := by
  unfold State.cacheCtx
  repeat' first | with_reducible assumption | with_reducible apply State.replayMisses_keeps | with_reducible apply State.installCtx_keeps | split
theorem State.modifyCtx_keeps {s u : State} {x1 x2 x3 x4} (h : s.Keeps u) : State.Keeps s (State.modifyCtx u x1 x2 x3 x4) := by
  unfold State.modifyCtx
  repeat' first | with_reducible assumption | with_reducible apply State.errorCtx_keeps | with_reducible apply State.cacheCtx_keeps | with_reducible apply State.modCtx_keeps | with_reducible apply State.startWork_keeps | with_reducible apply State.setCtx_keeps | split
theorem execCtxModify_keeps {s u : State} {x1 x2 x3 x4 x5} (h : s.Keeps u) : State.KeepsNext s (execCtxModify x1 x2 x3 x4 x5 u) := by
  unfold execCtxModify
  repeat' first | with_reducible assumption | with_reducible apply State.runDo_keeps | with_reducible apply State.modifyCtx_keeps | with_reducible apply State.Keeps.next | with_reducible intro _
theorem execRevokeDrainComplete_keeps {s u : State} {x1} (h : s.Keeps u) : State.KeepsNext s (execRevokeDrainComplete x1 u) := by
  unfold execRevokeDrainComplete
  repeat' first | with_reducible assumption | with_reducible apply State.settleReg_keeps | with_reducible apply State.endLong_keeps | with_reducible apply State.Keeps.next | split
theorem execCtxBacking_keeps {s u : State} {x1 x2 x3} (h : s.Keeps u) : State.KeepsNext s (execCtxBacking x1 x2 x3 u) := by
  unfold execCtxBacking
  repeat' first | with_reducible assumption | with_reducible apply State.runDo_keeps | with_reducible apply State.Keeps.next | with_reducible intro _ | dsimp only | (with_reducible refine State.Keeps.lit ?_)
theorem State.createReg_keeps {s u : State} {x1 x2 x3 x4 x5} (h : s.Keeps u) : State.Keeps s (State.createReg u x1 x2 x3 x4 x5).1 := by
  unfold State.createReg
  repeat' first | with_reducible assumption | with_reducible apply State.tickFree_keeps | with_reducible apply State.setReg_keeps | split | dsimp only
theorem execRegCreate_keeps {s u : State} {x1 x2 x3 x4 x5 x6} (h : s.Keeps u) : State.KeepsNext s (execRegCreate x1 x2 x3 x4 x5 x6 u) := by
  unfold execRegCreate
  repeat' first | with_reducible assumption | with_reducible apply State.runNow_keeps | with_reducible apply State.createReg_keeps | with_reducible apply State.Keeps.next | with_reducible intro _
theorem execRegRevoke_keeps {s u : State} {x1 x2} (h : s.Keeps u) : State.KeepsNext s (execRegRevoke x1 x2 u) := by
  unfold execRegRevoke
  repeat' first | with_reducible assumption | with_reducible apply State.runLong_keeps | with_reducible apply State.revoking_keeps | with_reducible apply State.Keeps.next | with_reducible intro _
theorem execCtxDestroy_keeps {s u : State} {x1 x2} (h : s.Keeps u) : State.KeepsNext s (execCtxDestroy x1 x2 u) := by
  unfold execCtxDestroy
  repeat' first | with_reducible assumption | with_reducible apply State.runDo_keeps | with_reducible apply State.destroyCtx_keeps | with_reducible apply State.Keeps.next | with_reducible intro _
theorem execCtxCreate_keeps {s u : State} {x1 x2 x3 x4 x5 x6 x7 x8 x9 x10} (h : s.Keeps u) : State.KeepsNext s (execCtxCreate x1 x2 x3 x4 x5 x6 x7 x8 x9 x10 u) := by
  unfold execCtxCreate
  repeat' first | with_reducible assumption | with_reducible apply State.runDo_keeps | with_reducible apply State.installCtx_keeps | with_reducible apply State.tickFree_keeps | with_reducible apply State.Keeps.next | with_reducible intro _ | split

/-! ### MbadelStorage -/

theorem State.settleAdd_keeps {s u : State} {x1} (h : s.Keeps u) : State.Keeps s (State.settleAdd u x1) := by
  unfold State.settleAdd
  repeat' first | with_reducible assumption | with_reducible apply State.endLong_keeps | split
theorem execBackendConnected_keeps {s u : State} {x1} (h : s.Keeps u) : State.KeepsNext s (execBackendConnected x1 u) := by
  unfold execBackendConnected
  repeat' first | with_reducible assumption | with_reducible apply State.settleAdd_keeps | with_reducible apply State.pumpBackends_keeps | with_reducible apply State.log_keeps | with_reducible apply State.setBackend_keeps | with_reducible apply State.Keeps.next | split
theorem execBackendRemove_keeps {s u : State} {x1 x2} (h : s.Keeps u) : State.KeepsNext s (execBackendRemove x1 x2 u) := by
  unfold execBackendRemove
  repeat' first | with_reducible assumption | with_reducible apply State.runDo_keeps | with_reducible apply State.setBackend_keeps | with_reducible apply State.Keeps.next | with_reducible intro _
theorem State.attachNs_keeps {s u : State} {x1 x2 x3} (h : s.Keeps u) : State.Keeps s (State.attachNs u x1 x2 x3) := by
  unfold State.attachNs
  repeat' first | with_reducible assumption | dsimp only | (with_reducible refine State.Keeps.lit ?_)
theorem State.setNs_keeps {s u : State} {x1 x2} (h : s.Keeps u) : State.Keeps s (State.setNs u x1 x2) := by
  unfold State.setNs
  repeat' first | with_reducible assumption | dsimp only | (with_reducible refine State.Keeps.lit ?_)
theorem State.nsAnswer_keeps {s u : State} {x1 x2} (h : s.Keeps u) : State.Keeps s (State.nsAnswer u x1 x2) := by
  unfold State.nsAnswer
  repeat' first | with_reducible assumption | with_reducible apply State.endLong_keeps | with_reducible apply State.setNs_keeps | split
theorem execNsCreate_keeps {s u : State} {x1 x2 x3 x4 x5} (h : s.Keeps u) : State.KeepsNext s (execNsCreate x1 x2 x3 x4 x5 u) := by
  unfold execNsCreate
  repeat' first | with_reducible assumption | with_reducible apply State.takenCmd_keeps | with_reducible apply State.endCmd_keeps | with_reducible apply State.toBackend_keeps | with_reducible apply State.nsAnswer_keeps | with_reducible apply State.Keeps.next | with_reducible intro _ | split | dsimp only | (with_reducible refine State.Keeps.lit ?_)
theorem execNsDestroy_keeps {s u : State} {x1 x2} (h : s.Keeps u) : State.KeepsNext s (execNsDestroy x1 x2 u) := by
  unfold execNsDestroy
  repeat' first | with_reducible assumption | with_reducible apply State.runDo_keeps | with_reducible apply State.setNs_keeps | with_reducible apply State.Keeps.next | with_reducible intro _
theorem State.endDetach_keeps {s u : State} {x1 x2 x3} (h : s.Keeps u) : State.Keeps s (State.endDetach u x1 x2 x3) := by
  unfold State.endDetach
  repeat' first | with_reducible assumption | with_reducible apply State.endLong_keeps | with_reducible apply State.detach_keeps
theorem State.settleDetaches_keeps {s u : State} (h : s.Keeps u) : State.Keeps s (State.settleDetaches u) := by
  unfold State.settleDetaches
  repeat' first | with_reducible assumption | with_reducible apply State.endDetach_keeps | with_reducible apply State.settleAdd_keeps | with_reducible apply State.Keeps.foldl | with_reducible intro _ | split
theorem execBackendReply_keeps {s u : State} {x1 x2 x3 x4 x5 x6 x7} (h : s.Keeps u) : State.KeepsNext s (execBackendReply x1 x2 x3 x4 x5 x6 u x7) := by
  unfold execBackendReply
  repeat' first | with_reducible assumption | with_reducible apply State.backendReplyIn_keeps | with_reducible apply State.nsAnswer_keeps | with_reducible apply State.Keeps.next | split
theorem execNsDetach_keeps {s u : State} {x1 x2 x3} (h : s.Keeps u) : State.KeepsNext s (execNsDetach x1 x2 x3 u) := by
  unfold execNsDetach
  repeat' first | with_reducible assumption | with_reducible apply State.runLong_keeps | with_reducible apply State.settleDetaches_keeps | with_reducible apply State.Keeps.next
theorem execBackendQuery_keeps {s u : State} {x1 x2} (h : s.Keeps u) : State.KeepsNext s (execBackendQuery x1 x2 u) := by
  unfold execBackendQuery
  repeat' first | with_reducible assumption | with_reducible apply State.runQuery_keeps | with_reducible apply State.Keeps.next
theorem execBackendAdd_keeps {s u : State} {x1 x2 x3 x4 x5 x6} (h : s.Keeps u) : State.KeepsNext s (execBackendAdd x1 x2 x3 x4 x5 x6 u) := by
  unfold execBackendAdd
  repeat' first | with_reducible assumption | with_reducible apply State.runLong_keeps | with_reducible apply State.toBackend_keeps | with_reducible apply State.setBackend_keeps | with_reducible apply State.Keeps.next | with_reducible intro _

/-! ### MbadelTables -/

theorem State.addChange_keeps {s u : State} {x1 x2} (h : s.Keeps u) : State.Keeps s (State.addChange u x1 x2) := by
  unfold State.addChange
  repeat' first | with_reducible assumption | split | dsimp only | (with_reducible refine State.Keeps.lit ?_)
theorem State.stageChange_keeps {s u : State} {x1 x2} (h : s.Keeps u) : State.KeepsSome s (State.stageChange u x1 x2) := by
  unfold State.stageChange
  repeat' first | with_reducible assumption | with_reducible apply State.addChange_keeps | with_reducible apply State.Keeps.some | with_reducible exact State.Keeps.none _ | split | dsimp only
theorem State.stageAll_keeps {s u : State} {x1 x2} (h : s.Keeps u) : State.Keeps s (State.stageAll u x1 x2).1 := by
  induction x2 generalizing u x1 with
  | nil => unfold State.stageAll; repeat' first | with_reducible assumption
  | cons a l ih => unfold State.stageAll; repeat' first | with_reducible assumption | with_reducible apply ih | with_reducible apply State.stageChange_keeps | split | (with_reducible refine State.Keeps.ofSome (by with_reducible assumption) ?_)
theorem State.runStage_keeps {s u : State} {x1 x2 x3 x4 x5} (h : s.Keeps u) : State.Keeps s (State.runStage u x1 x2 x3 x4 x5) := by
  unfold State.runStage
  repeat' first | with_reducible assumption | with_reducible apply State.runNow_keeps | with_reducible apply State.stageAll_keeps | with_reducible intro _
theorem execStageStages_keeps {s u : State} {x1 x2 x3 x4} (h : s.Keeps u) : State.KeepsNext s (execStageStages x1 x2 x3 x4 u) := by
  unfold execStageStages
  repeat' first | with_reducible assumption | with_reducible apply State.runStage_keeps | with_reducible apply State.Keeps.next
theorem State.setTable_keeps {s u : State} {x1 x2} (h : s.Keeps u) : State.Keeps s (State.setTable u x1 x2) := by
  unfold State.setTable
  repeat' first | with_reducible assumption | dsimp only | (with_reducible refine State.Keeps.lit ?_)
theorem State.dropTable_keeps {s u : State} {x1} (h : s.Keeps u) : State.Keeps s (State.dropTable u x1) := by
  unfold State.dropTable
  repeat' first | with_reducible assumption | with_reducible apply State.setTable_keeps | dsimp only | (with_reducible refine State.Keeps.lit ?_)
theorem State.tableCreate_keeps {s u : State} {x1 x2} (h : s.Keeps u) : State.Keeps s (State.tableCreate u x1 x2) := by
  unfold State.tableCreate
  repeat' first | with_reducible assumption | with_reducible apply State.setTable_keeps | dsimp only | (with_reducible refine State.Keeps.lit ?_)
theorem State.applyBatch_keeps {s u : State} {x1 x2} (h : s.Keeps u) : State.Keeps s (State.applyBatch u x1 x2) := by
  unfold State.applyBatch
  repeat' first | with_reducible assumption | dsimp only | (with_reducible refine State.Keeps.lit ?_)
theorem State.movePlaces_keeps {s u : State} {x1 x2} (h : s.Keeps u) : State.Keeps s (State.movePlaces u x1 x2) := by
  unfold State.movePlaces
  repeat' first | with_reducible assumption | split | dsimp only | (with_reducible refine State.Keeps.lit ?_)
theorem State.stageEntry_keeps {s u : State} {x1 x2 x3} (h : s.Keeps u) : State.KeepsLeft s (State.stageEntry u x1 x2 x3) := by
  unfold State.stageEntry
  repeat' first | with_reducible assumption | with_reducible apply State.stageChange_keeps | with_reducible apply State.movePlaces_keeps | with_reducible apply State.tickFree_keeps | with_reducible apply State.Keeps.inl | with_reducible exact State.Keeps.inr _ _ | split | dsimp only | (with_reducible refine State.Keeps.ofSome (by with_reducible assumption) ?_)
theorem State.requestBatch_keeps {s u : State} {x1 x2} (h : s.Keeps u) : State.Keeps s (State.requestBatch u x1 x2) := by
  unfold State.requestBatch
  repeat' first | with_reducible assumption | split | dsimp only | (with_reducible refine State.Keeps.lit ?_)
theorem State.stageEntries_keeps {s u : State} {x1 x2 x3 x4} (h : s.Keeps u) : State.Keeps s (State.stageEntries x1 x2 u x3 x4).1 := by
  induction x4 generalizing u x1 x2 x3 with
  | nil => unfold State.stageEntries; repeat' first | with_reducible assumption
  | cons a l ih => unfold State.stageEntries; repeat' first | with_reducible assumption | with_reducible apply ih | with_reducible apply State.stageEntry_keeps | split | (with_reducible refine State.Keeps.ofLeft (by with_reducible assumption) ?_)
theorem execStageEntries_keeps {s u : State} {x1 x2 x3 x4} (h : s.Keeps u) : State.KeepsNext s (execStageEntries x1 x2 x3 x4 u) := by
  unfold execStageEntries
  repeat' first | with_reducible assumption | with_reducible apply State.runNow_keeps | with_reducible apply State.stageEntries_keeps | with_reducible apply State.Keeps.next | with_reducible intro _
theorem execStageSpread_keeps {s u : State} {x1 x2 x3 x4 x5 x6 x7} (h : s.Keeps u) : State.KeepsNext s (execStageSpread x1 x2 x3 x4 x5 x6 x7 u) := by
  unfold execStageSpread
  repeat' first | with_reducible assumption | with_reducible apply State.runStage_keeps | with_reducible apply State.Keeps.next
theorem execStageGraph_keeps {s u : State} {x1 x2 x3 x4 x5} (h : s.Keeps u) : State.KeepsNext s (execStageGraph x1 x2 x3 x4 x5 u) := by
  unfold execStageGraph
  repeat' first | with_reducible assumption | with_reducible apply State.runStage_keeps | with_reducible apply State.Keeps.next
theorem execCommitCleanupComplete_keeps {s u : State} (h : s.Keeps u) : State.KeepsNext s (execCommitCleanupComplete u) := by
  unfold execCommitCleanupComplete
  repeat' first | with_reducible assumption | with_reducible apply State.Keeps.next | split | dsimp only | (with_reducible refine State.Keeps.lit ?_)
theorem execAbandon_keeps {s u : State} {x1 x2} (h : s.Keeps u) : State.KeepsNext s (execAbandon x1 x2 u) := by
  unfold execAbandon
  repeat' first | with_reducible assumption | with_reducible apply State.runDo_keeps | with_reducible apply State.Keeps.next | with_reducible intro _ | dsimp only | (with_reducible refine State.Keeps.lit ?_)
theorem execStageDefaults_keeps {s u : State} {x1 x2 x3 x4} (h : s.Keeps u) : State.KeepsNext s (execStageDefaults x1 x2 x3 x4 u) := by
  unfold execStageDefaults
  repeat' first | with_reducible assumption | with_reducible apply State.runStage_keeps | with_reducible apply State.Keeps.next
theorem execRead_keeps {s u : State} {x1 x2 x3 x4 x5 x6} (h : s.Keeps u) : State.KeepsNext s (execRead x1 x2 x3 x4 x5 x6 u) := by
  unfold execRead
  repeat' first | with_reducible assumption | with_reducible apply State.runQuery_keeps | with_reducible apply State.Keeps.next
theorem execTablePlan_keeps {s u : State} {x1 x2} (h : s.Keeps u) : State.KeepsNext s (execTablePlan x1 x2 u) := by
  unfold execTablePlan
  repeat' first | with_reducible assumption | with_reducible apply State.runDo_keeps | with_reducible apply State.Keeps.next | with_reducible intro _ | dsimp only | (with_reducible refine State.Keeps.lit ?_)

/-! ### MbadelTimeout -/

theorem State.timeOut_keeps {s u : State} {x1} (h : s.Keeps u) : State.Keeps s (State.timeOut u x1) := by
  unfold State.timeOut
  repeat' first | with_reducible assumption | with_reducible apply State.endLong_keeps | with_reducible apply State.modInst_keeps | with_reducible apply State.log_keeps | with_reducible apply State.endDetach_keeps | with_reducible apply State.cancelRotate_keeps | split | dsimp only | (with_reducible refine State.Keeps.lit ?_)
theorem execCommandTimeout_keeps {s u : State} {x1} (h : s.Keeps u) : State.KeepsNext s (execCommandTimeout x1 u) := by
  unfold execCommandTimeout
  repeat' first | with_reducible assumption | with_reducible apply State.timeOut_keeps | with_reducible apply State.Keeps.next | split

/-! ### MbadelTm -/

theorem State.agHash_keeps {s u : State} {x1 x2 x3} (h : s.Keeps u) : State.Keeps s (State.agHash u x1 x2 x3) := by
  unfold State.agHash
  repeat' first | with_reducible assumption | split | dsimp only | (with_reducible refine State.Keeps.lit ?_)
theorem State.tmqDestroy_keeps {s u : State} {x1} (h : s.Keeps u) : State.Keeps s (State.tmqDestroy u x1) := by
  unfold State.tmqDestroy
  repeat' first | with_reducible assumption | with_reducible apply State.clearLeaf_keeps | with_reducible apply State.freeQueued_keeps | with_reducible apply State.setLeaf_keeps | with_reducible apply State.setTmq_keeps | with_reducible apply State.Keeps.foldl | with_reducible intro _ | split | dsimp only | (with_reducible refine State.Keeps.of2 (by with_reducible assumption) ?_) | (with_reducible refine State.Keeps.lit ?_)
theorem State.tmAttr_keeps {s u : State} {x1 x2 x3} (h : s.Keeps u) : State.Keeps s (State.tmAttr u x1 x2 x3) := by
  unfold State.tmAttr
  repeat' first | with_reducible assumption | with_reducible apply State.setTenant_keeps | split | dsimp only | (with_reducible refine State.Keeps.lit ?_)
theorem State.rejoin_keeps {s u : State} {x1 x2} (h : s.Keeps u) : State.Keeps s (State.rejoin u x1 x2) := by
  unfold State.rejoin
  repeat' first | with_reducible assumption | with_reducible apply State.modLane_keeps | with_reducible apply State.Keeps.foldl | with_reducible intro _ | split
theorem State.regroupQueue_keeps {s u : State} {x1 x2} (h : s.Keeps u) : State.Keeps s (State.regroupQueue x1 u x2) := by
  unfold State.regroupQueue
  repeat' first | with_reducible assumption | with_reducible apply State.pruneLeaves_keeps | with_reducible apply State.setTmq_keeps | split
theorem State.formGroup_keeps {s u : State} {x1 x2 x3 x4} (h : s.Keeps u) : State.Keeps s (State.formGroup u x1 x2 x3 x4) := by
  unfold State.formGroup
  repeat' first | with_reducible assumption | with_reducible apply State.rejoin_keeps | with_reducible apply State.regroupQueue_keeps | with_reducible apply State.Keeps.foldl | with_reducible intro _ | dsimp only | (with_reducible refine State.Keeps.lit ?_)
theorem State.poolCounters_keeps {s u : State} {x1} (h : s.Keeps u) : State.Keeps s (State.poolCounters u x1).1 := by
  unfold State.poolCounters
  repeat' first | with_reducible assumption | dsimp only | (with_reducible refine State.Keeps.lit ?_)
theorem State.laneSet_keeps {s u : State} {x1 x2 x3 x4 x5 x6} (h : s.Keeps u) : State.Keeps s (State.laneSet u x1 x2 x3 x4 x5 x6) := by
  unfold State.laneSet
  repeat' first | with_reducible assumption | with_reducible apply State.modLane_keeps | with_reducible apply State.setLane_keeps | split
theorem State.agSet_keeps {s u : State} {x1 x2 x3} (h : s.Keeps u) : State.Keeps s (State.agSet u x1 x2 x3) := by
  unfold State.agSet
  repeat' first | with_reducible assumption | with_reducible apply State.formGroup_keeps
theorem State.tmqCreate_keeps {s u : State} {x1 x2 x3 x4 x5 x6 x7} (h : s.Keeps u) : State.Keeps s (State.tmqCreate u x1 x2 x3 x4 x5 x6 x7) := by
  unfold State.tmqCreate
  repeat' first | with_reducible assumption | with_reducible apply State.setTmq_keeps
theorem State.editLoad_keeps {s u : State} {x1 x2} (h : s.Keeps u) : State.Keeps s (State.editLoad u x1 x2) := by
  unfold State.editLoad
  repeat' first | with_reducible assumption | dsimp only | (with_reducible refine State.Keeps.lit ?_)
theorem execOpticsQuery_keeps {s u : State} {x1 x2} (h : s.Keeps u) : State.KeepsNext s (execOpticsQuery x1 x2 u) := by
  unfold execOpticsQuery
  repeat' first | with_reducible assumption | with_reducible apply State.runQuery_keeps | with_reducible apply State.Keeps.next

/-! ### Monitor -/

theorem State.say_keeps {s u : State} {x1} (h : s.Keeps u) : State.Keeps s (State.say u x1) := by
  unfold State.say
  repeat' first | with_reducible assumption | dsimp only | (with_reducible refine State.Keeps.lit ?_)
theorem State.errLine_keeps {s u : State} {x1} (h : s.Keeps u) : State.Keeps s (State.errLine u x1) := by
  unfold State.errLine
  repeat' first | with_reducible assumption | with_reducible apply State.say_keeps
theorem State.monCmd_keeps {s u : State} {x1 x2} {f : State → State} (h : s.Keeps u) (hf : ∀ u, s.Keeps u → s.Keeps (f u)) : State.Keeps s (State.monCmd u x1 x2 f) := by
  unfold State.monCmd
  repeat' first | with_reducible assumption | with_reducible apply hf | with_reducible apply State.errLine_keeps | split | dsimp only | (with_reducible refine State.Keeps.lit ?_)

/-- A monitor command whose effect keeps what counts where the lifecycle permits it. -/
theorem State.monCmd_keepsOk {s u : State} {m k} {f : State → State} (h : s.Keeps u) (hf : ∀ v, s.Keeps v → v.monPermits k = true → s.Keeps (f v)) :
    s.Keeps (u.monCmd m k f) := by
  have g : s.Keeps { u with monitor := { u.monitor with session := some m } } := State.Keeps.lit h
  unfold State.monCmd
  split
  · exact h
  · refine iteInduction (motive := fun t => s.Keeps t) (fun _ => State.errLine_keeps h) (fun _ => ?_)
    refine iteInduction (motive := fun t => s.Keeps t) (fun _ => State.errLine_keeps g) (fun _ => ?_)
    refine iteInduction (motive := fun t => s.Keeps t) (fun _ => State.errLine_keeps g) (fun q => ?_)
    exact hf _ g (by cases w : State.monPermits _ k with | true => rfl | false => exact absurd (by rw [w]; rfl) q)
theorem State.monEngine_keeps {s u : State} {x1 x2} {f : State → State} (h : s.Keeps u) (hf : ∀ u, s.Keeps u → s.Keeps (f u)) : State.Keeps s (State.monEngine u x1 x2 f) := by
  unfold State.monEngine
  repeat' first | with_reducible assumption | with_reducible apply hf | with_reducible apply State.monCmd_keeps | with_reducible apply State.errLine_keeps | with_reducible intro _ | split
theorem State.monHeld_keeps {s u : State} {x1 x2 x3} {f : State → State} (h : s.Keeps u) (hf : ∀ u, s.Keeps u → s.Keeps (f u)) : State.Keeps s (State.monHeld u x1 x2 x3 f) := by
  unfold State.monHeld
  repeat' first | with_reducible assumption | with_reducible apply hf | with_reducible apply State.monEngine_keeps | with_reducible apply State.errLine_keeps | with_reducible intro _ | split
theorem State.okLine_keeps {s u : State} (h : s.Keeps u) : State.Keeps s (State.okLine u) := by
  unfold State.okLine
  repeat' first | with_reducible assumption | with_reducible apply State.say_keeps
theorem execSetreg_keeps {s u : State} {x1 x2 x3 x4 x5} (h : s.Keeps u) : State.KeepsNext s (execSetreg x1 x2 x3 x4 x5 u) := by
  unfold execSetreg
  repeat' first | with_reducible assumption | with_reducible apply State.monHeld_keeps | with_reducible apply State.okLine_keeps | with_reducible apply State.modThr_keeps | with_reducible apply State.Keeps.next | with_reducible intro _
theorem State.text_keeps {s u : State} {x1 x2} (h : s.Keeps u) : State.Keeps s (State.text u x1 x2) := by
  unfold State.text
  repeat' first | with_reducible assumption | with_reducible apply State.say_keeps
theorem State.endLoad_keeps {s u : State} (h : s.Keeps u) : State.Keeps s (State.endLoad u) := by
  unfold State.endLoad
  repeat' first | with_reducible assumption | dsimp only | (with_reducible refine State.Keeps.lit ?_)
theorem State.loadDone_keeps {s u : State} {x1 x2} (h : s.Keeps u) : State.Keeps s (State.loadDone u x1 x2) := by
  unfold State.loadDone
  repeat' first | with_reducible assumption | with_reducible apply State.stageImage_keeps | with_reducible apply State.endLoad_keeps | with_reducible apply State.errLine_keeps | with_reducible apply State.okLine_keeps | with_reducible apply State.runLoaded_keeps | split | dsimp only
theorem execLoadBlock_keeps {s u : State} {x1 x2} (h : s.Keeps u) : State.KeepsNext s (execLoadBlock x1 x2 u) := by
  unfold execLoadBlock
  repeat' first | with_reducible assumption | with_reducible apply State.text_keeps | with_reducible apply State.loadDone_keeps | with_reducible apply State.Keeps.next | split | dsimp only | (with_reducible refine State.Keeps.lit ?_)
theorem execBaudSwitch_keeps {s u : State} (h : s.Keeps u) : State.KeepsNext s (execBaudSwitch u) := by
  unfold execBaudSwitch
  repeat' first | with_reducible assumption | with_reducible apply State.Keeps.next | split | dsimp only | (with_reducible refine State.Keeps.lit ?_)
theorem execLoadGapTimeout_keeps {s u : State} (h : s.Keeps u) : State.KeepsNext s (execLoadGapTimeout u) := by
  unfold execLoadGapTimeout
  repeat' first | with_reducible assumption | with_reducible apply State.errLine_keeps | with_reducible apply State.endLoad_keeps | with_reducible apply State.Keeps.next | split
theorem execSessionTimeout_keeps {s u : State} (h : s.Keeps u) : State.KeepsNext s (execSessionTimeout u) := by
  unfold execSessionTimeout
  repeat' first | with_reducible assumption | with_reducible apply State.Keeps.next | split | dsimp only | (with_reducible refine State.Keeps.lit ?_)
theorem execWrmem_keeps {s u : State} {x1 x2 x3 x4} (h : s.Keeps u) : State.KeepsNext s (execWrmem x1 x2 x3 x4 u) := by
  unfold execWrmem
  repeat' first | with_reducible assumption | with_reducible apply State.monEngine_keeps | with_reducible apply State.errLine_keeps | with_reducible apply State.okLine_keeps | with_reducible apply State.writePlace_keeps | with_reducible apply State.Keeps.next | with_reducible intro _ | split
theorem execQuit_keeps {s u : State} {x1} (h : s.Keeps u) : State.KeepsNext s (execQuit x1 u) := by
  unfold execQuit
  repeat' first | with_reducible assumption | with_reducible apply State.monCmd_keeps | with_reducible apply State.okLine_keeps | with_reducible apply State.Keeps.next | with_reducible intro _ | dsimp only | (with_reducible refine State.Keeps.lit ?_)
theorem execResume_keeps {s u : State} {x1 x2 x3} (h : s.Keeps u) : State.KeepsNext s (execResume x1 x2 x3 u) := by
  unfold execResume
  repeat' first | with_reducible assumption | with_reducible apply State.monHeld_keeps | with_reducible apply State.okLine_keeps | with_reducible apply State.modThr_keeps | with_reducible apply State.Keeps.next | with_reducible intro _
theorem execRelease_keeps {s u : State} {x1} (h : s.Keeps u) : State.KeepsNext s (execRelease x1 u) := by
  unfold execRelease
  repeat' first | with_reducible assumption | with_reducible apply State.monCmd_keeps | with_reducible apply State.stage1Done_keeps | with_reducible apply State.okLine_keeps | with_reducible apply State.errLine_keeps | with_reducible apply State.Keeps.next | with_reducible intro _ | split
theorem execDbg_keeps {s u : State} {x1 x2 x3} (h : s.Keeps u) : State.KeepsNext s (execDbg x1 x2 x3 u) := by
  unfold execDbg
  repeat' first | with_reducible assumption | with_reducible apply State.monEngine_keeps | with_reducible apply State.okLine_keeps | with_reducible apply State.setEng_keeps | with_reducible apply State.Keeps.next | with_reducible intro _
theorem execServerChange_keeps {s u : State} (h : s.Keeps u) : State.KeepsNext s (execServerChange u) := by
  unfold execServerChange
  repeat' first | with_reducible assumption | with_reducible apply State.epochBump_keeps | with_reducible apply State.text_keeps | with_reducible apply State.Keeps.next | split | dsimp only | (with_reducible refine State.Keeps.lit ?_)
theorem execBaud_keeps {s u : State} {x1 x2} (h : s.Keeps u) : State.KeepsNext s (execBaud x1 x2 u) := by
  unfold execBaud
  repeat' first | with_reducible assumption | with_reducible apply State.monCmd_keeps | with_reducible apply State.okLine_keeps | with_reducible apply State.errLine_keeps | with_reducible apply State.Keeps.next | with_reducible intro _ | split | dsimp only | (with_reducible refine State.Keeps.lit ?_)
theorem execId_keeps {s u : State} {x1} (h : s.Keeps u) : State.KeepsNext s (execId x1 u) := by
  unfold execId
  repeat' first | with_reducible assumption | with_reducible apply State.monCmd_keeps | with_reducible apply State.okLine_keeps | with_reducible apply State.text_keeps | with_reducible apply State.Keeps.next | with_reducible intro _
theorem execStep_keeps {s u : State} {x1 x2 x3} (h : s.Keeps u) : State.KeepsNext s (execStep x1 x2 x3 u) := by
  unfold execStep
  repeat' first | with_reducible assumption | with_reducible apply State.monHeld_keeps | with_reducible apply State.okLine_keeps | with_reducible apply State.modThr_keeps | with_reducible apply State.Keeps.next | with_reducible intro _
theorem execKill_keeps {s u : State} {x1 x2 x3} (h : s.Keeps u) : State.KeepsNext s (execKill x1 x2 x3 u) := by
  unfold execKill
  repeat' first | with_reducible assumption | with_reducible apply State.monHeld_keeps | with_reducible apply State.okLine_keeps | with_reducible apply State.endOther_keeps | with_reducible apply State.Keeps.next | with_reducible intro _
theorem execLcadv_keeps {s u : State} {x1 x2} (h : s.Keeps u) : s.KeepsNext (execLcadv x1 x2 u) := by
  refine State.Keeps.next (State.monCmd_keepsOk h (fun v g q => ?_))
  have z : v.nv.lifecycle = 0 := by simpa [State.monPermits] using q
  dsimp only
  split
  · exact State.errLine_keeps g
  · split
    · exact State.errLine_keeps g
    · exact State.okLine_keeps ⟨g.1, g.2, g.3, g.4, Nat.le_trans g.5 (by rw [z]; exact Nat.zero_le _), g.6, g.7⟩
theorem execState_keeps {s u : State} {x1} (h : s.Keeps u) : State.KeepsNext s (execState x1 u) := by
  unfold execState
  repeat' first | with_reducible assumption | with_reducible apply State.monCmd_keeps | with_reducible apply State.okLine_keeps | with_reducible apply State.text_keeps | with_reducible apply State.Keeps.next | with_reducible intro _
theorem execTime_keeps {s u : State} {x1} (h : s.Keeps u) : State.KeepsNext s (execTime x1 u) := by
  unfold execTime
  repeat' first | with_reducible assumption | with_reducible apply State.monCmd_keeps | with_reducible apply State.okLine_keeps | with_reducible apply State.text_keeps | with_reducible apply State.Keeps.next | with_reducible intro _
theorem execRegs_keeps {s u : State} {x1 x2 x3} (h : s.Keeps u) : State.KeepsNext s (execRegs x1 x2 x3 u) := by
  unfold execRegs
  repeat' first | with_reducible assumption | with_reducible apply State.monEngine_keeps | with_reducible apply State.okLine_keeps | with_reducible apply State.text_keeps | with_reducible apply State.Keeps.next | with_reducible intro _
theorem execKeyprog_keeps {s u : State} {x1 x2 x3 x4} (h : s.Keeps u) : s.KeepsNext (execKeyprog x1 x2 x3 x4 u) := by
  refine State.Keeps.next (State.monCmd_keeps h (fun v g => ?_))
  dsimp only
  split
  · exact State.errLine_keeps g
  · split
    · exact State.errLine_keeps g
    · rename_i lt
      split
      · exact State.errLine_keeps g
      · rename_i np
        refine State.okLine_keeps ⟨g.1, g.2, g.3, g.4, g.5, g.6, fun k x a => ?_⟩
        have b := g.7 k x a
        by_cases e : k = x2
        · subst e
          simp [State.keyProgrammed, State.keyHashes, b, Nat.lt_of_not_le lt] at np
        · exact (FMap.get_set_other _ _ _ _ _ e).trans b
theorem execSerialLoadLimit_keeps {s u : State} (h : s.Keeps u) : State.KeepsNext s (execSerialLoadLimit u) := by
  unfold execSerialLoadLimit
  repeat' first | with_reducible assumption | with_reducible apply State.errLine_keeps | with_reducible apply State.endLoad_keeps | with_reducible apply State.Keeps.next | split
theorem execMonitorLoad_keeps {s u : State} {x1 x2} (h : s.Keeps u) : State.KeepsNext s (execMonitorLoad x1 x2 u) := by
  unfold execMonitorLoad
  repeat' first | with_reducible assumption | with_reducible apply State.monCmd_keeps | with_reducible apply State.errLine_keeps | with_reducible apply State.text_keeps | with_reducible apply State.Keeps.next | with_reducible intro _ | split | dsimp only | (with_reducible refine State.Keeps.lit ?_)
theorem execLog_keeps {s u : State} {x1 x2 x3} (h : s.Keeps u) : State.KeepsNext s (execLog x1 x2 x3 u) := by
  unfold execLog
  repeat' first | with_reducible assumption | with_reducible apply State.monCmd_keeps | with_reducible apply State.errLine_keeps | with_reducible apply State.okLine_keeps | with_reducible apply State.text_keeps | with_reducible apply State.Keeps.next | with_reducible apply State.Keeps.foldl | with_reducible intro _ | split
theorem execRdmem_keeps {s u : State} {x1 x2 x3 x4} (h : s.Keeps u) : State.KeepsNext s (execRdmem x1 x2 x3 x4 u) := by
  unfold execRdmem
  repeat' first | with_reducible assumption | with_reducible apply State.monEngine_keeps | with_reducible apply State.errLine_keeps | with_reducible apply State.okLine_keeps | with_reducible apply State.text_keeps | with_reducible apply State.Keeps.next | with_reducible intro _ | split | dsimp only
theorem execRevoke_keeps {s u : State} {x1 x2 x3} (h : s.Keeps u) : s.KeepsNext (execRevoke x1 x2 x3 u) := by
  refine State.Keeps.next (State.monCmd_keeps h (fun v g => ?_))
  dsimp only
  split
  · exact State.errLine_keeps g
  · split
    · exact State.errLine_keeps g
    · refine State.okLine_keeps ⟨g.1, g.2, g.3, g.4, g.5, fun k a => ?_, g.7⟩
      dsimp only
      split
      · exact g.6 k a
      · exact List.mem_append_left _ (g.6 k a)
theorem execHelp_keeps {s u : State} {x1} (h : s.Keeps u) : State.KeepsNext s (execHelp x1 u) := by
  unfold execHelp
  repeat' first | with_reducible assumption | with_reducible apply State.monCmd_keeps | with_reducible apply State.okLine_keeps | with_reducible apply State.text_keeps | with_reducible apply State.Keeps.next | with_reducible apply State.Keeps.foldl | with_reducible intro _
theorem execHold_keeps {s u : State} {x1 x2 x3} (h : s.Keeps u) : State.KeepsNext s (execHold x1 x2 x3 u) := by
  unfold execHold
  repeat' first | with_reducible assumption | with_reducible apply State.monEngine_keeps | with_reducible apply State.errLine_keeps | with_reducible apply State.holdThread_keeps | with_reducible apply State.okLine_keeps | with_reducible apply State.text_keeps | with_reducible apply State.Keeps.next | with_reducible intro _ | split | dsimp only

/-! ### Words -/

theorem runErg_keeps {s u : State} {x1 x2} (h : s.Keeps u) : State.KeepsNext s (runErg x1 x2 u) := by
  unfold runErg
  repeat' first | with_reducible assumption | with_reducible apply execIntegerOp_keeps | with_reducible apply execLui_keeps | with_reducible apply execAuipc_keeps | with_reducible apply execBranch_keeps | with_reducible apply execJal_keeps | with_reducible apply execJalr_keeps | with_reducible apply execMul_keeps | with_reducible apply execDiv_keeps | with_reducible apply execLoad_keeps | with_reducible apply execStore_keeps | with_reducible apply execFence_keeps | with_reducible apply execEcall_keeps | with_reducible apply execEbreak_keeps | with_reducible apply execCsrWrite_keeps | with_reducible apply execYieldt_keeps | with_reducible apply execFork_keeps | with_reducible apply execJoin_keeps | with_reducible apply execPksel_keeps | with_reducible apply execPost_keeps | with_reducible apply execTlkp_keeps | with_reducible apply execChsend_keeps | with_reducible apply execChsendl_keeps | with_reducible apply execChrecv_keeps | with_reducible apply execChpoll_keeps | with_reducible apply execBfalloc_keeps | with_reducible apply execBfown_keeps | with_reducible apply execBffree_keeps | with_reducible apply execEnq_keeps | with_reducible apply execCrc32c_keeps | with_reducible apply execBswap_keeps | with_reducible apply execCsum16_keeps | with_reducible apply execSaadd_keeps | with_reducible apply execSaswap_keeps | with_reducible apply execSacas_keeps | with_reducible apply execSamin_keeps | with_reducible apply execSamax_keeps | with_reducible apply execSaand_keeps | with_reducible apply execSaor_keeps | with_reducible apply execSaxor_keeps | with_reducible apply execSainc64_keeps | split
theorem execIllegalEncoding_keeps {s u : State} {x1 x2} (h : s.Keeps u) : State.KeepsNext s (execIllegalEncoding x1 x2 u) := by
  unfold execIllegalEncoding
  repeat' first | with_reducible assumption | with_reducible apply State.issue_keeps | with_reducible apply State.fault_keeps | with_reducible apply runErg_keeps | with_reducible apply State.Keeps.next | with_reducible intro _ | split

end Sys2Proof.Machine
end

