-- ==== Sys2Proof/Laws/KeepsSteps.lean ====
section
/-!
SUPPORT. What no command undoes (Keeps.lean): power, the stack, ticks and turns; then every command and every step.
-/

namespace Sys2Proof.Machine
open Sys2Proof

-- These many short proofs are checked one after another: side by side they take more memory than they save time.
set_option Elab.async false

/-! ### Power -/

theorem execThermalTrip_keeps {s u : State} {x1} (h : s.Keeps u) : State.KeepsNext s (execThermalTrip x1 u) := by
  unfold execThermalTrip
  repeat' first | with_reducible assumption | with_reducible apply State.losePower_keeps | with_reducible apply State.jAppend_keeps | with_reducible apply State.Keeps.next | split | dsimp only | (with_reducible refine State.Keeps.lit ?_)
theorem State.mctp_keeps {s u : State} {f : State → List Byte × State} (h : s.Keeps u) (hf : ∀ u, s.Keeps u → s.Keeps (f u).2) : State.Keeps s (State.mctp u f) := by
  unfold State.mctp
  repeat' first | with_reducible assumption | with_reducible apply hf | split | dsimp only | (with_reducible refine State.Keeps.of2 (by with_reducible assumption) ?_) | (with_reducible refine State.Keeps.lit ?_)
theorem execResetInRelease_keeps {s u : State} {x1} (h : s.Keeps u) : State.KeepsNext s (execResetInRelease x1 u) := by
  unfold execResetInRelease
  repeat' first | with_reducible assumption | with_reducible apply State.coldBoot_keeps | with_reducible apply State.Keeps.next | split | dsimp only | (with_reducible refine State.Keeps.lit ?_)
theorem execSetEndpointId_keeps {s u : State} {x1} (h : s.Keeps u) : State.KeepsNext s (execSetEndpointId x1 u) := by
  unfold execSetEndpointId
  repeat' first | with_reducible assumption | with_reducible apply State.mctp_keeps | with_reducible apply State.Keeps.next | with_reducible intro _ | split | dsimp only | (with_reducible refine State.Keeps.lit ?_)
theorem State.tapSelect_keeps {s u : State} {x1} (h : s.Keeps u) : State.Keeps s (State.tapSelect u x1) := by
  unfold State.tapSelect
  repeat' first | with_reducible assumption | dsimp only | (with_reducible refine State.Keeps.lit ?_)
theorem execExtest_keeps {s u : State} (h : s.Keeps u) : State.KeepsNext s (execExtest u) := by
  unfold execExtest
  repeat' first | with_reducible assumption | with_reducible apply State.tapSelect_keeps | with_reducible apply State.Keeps.next
theorem execAlertResponse_keeps {s u : State} (h : s.Keeps u) : State.KeepsNext s (execAlertResponse u) := by
  unfold execAlertResponse
  repeat' first | with_reducible assumption | with_reducible apply State.Keeps.next | split | dsimp only | (with_reducible refine State.Keeps.lit ?_)
theorem execThermalCapUpdate_keeps {s u : State} {x1} (h : s.Keeps u) : State.KeepsNext s (execThermalCapUpdate x1 u) := by
  unfold execThermalCapUpdate
  repeat' first | with_reducible assumption | with_reducible apply State.Keeps.next | split | dsimp only | (with_reducible refine State.Keeps.lit ?_)
theorem execBankChargeMeasure_keeps {s u : State} {x1} (h : s.Keeps u) : State.KeepsNext s (execBankChargeMeasure x1 u) := by
  unfold execBankChargeMeasure
  repeat' first | with_reducible assumption | with_reducible apply State.Keeps.next | split | dsimp only | (with_reducible refine State.Keeps.lit ?_)
theorem execIdcode_keeps {s u : State} (h : s.Keeps u) : State.KeepsNext s (execIdcode u) := by
  unfold execIdcode
  repeat' first | with_reducible assumption | with_reducible apply State.tapSelect_keeps | with_reducible apply State.Keeps.next
theorem execCriek_keeps {s u : State} (h : s.Keeps u) : State.KeepsNext s (execCriek u) := by
  unfold execCriek
  repeat' first | with_reducible assumption | with_reducible apply State.tapSelect_keeps | with_reducible apply State.Keeps.next
theorem execHoldupExhausted_keeps {s u : State} (h : s.Keeps u) : State.KeepsNext s (execHoldupExhausted u) := by
  unfold execHoldupExhausted
  repeat' first | with_reducible assumption | with_reducible apply State.losePower_keeps | with_reducible apply State.Keeps.next | split | dsimp only | (with_reducible refine State.Keeps.lit ?_)
theorem State.logThermal_keeps {s u : State} {x1 x2} (h : s.Keeps u) : State.Keeps s (State.logThermal u x1 x2) := by
  unfold State.logThermal
  repeat' first | with_reducible assumption | with_reducible apply State.log_keeps
theorem execGetMctpVersionSupport_keeps {s u : State} (h : s.Keeps u) : State.KeepsNext s (execGetMctpVersionSupport u) := by
  unfold execGetMctpVersionSupport
  repeat' first | with_reducible assumption | with_reducible apply State.mctp_keeps | with_reducible apply State.freshNat_keeps | with_reducible apply State.Keeps.next
theorem execSmbusReadWord_keeps {s u : State} {x1} (h : s.Keeps u) : State.KeepsNext s (execSmbusReadWord x1 u) := by
  unfold execSmbusReadWord
  repeat' first | with_reducible assumption | with_reducible apply State.Keeps.next | split | dsimp only | (with_reducible refine State.Keeps.lit ?_)
theorem execThermalAlert_keeps {s u : State} {x1 x2} (h : s.Keeps u) : State.KeepsNext s (execThermalAlert x1 x2 u) := by
  unfold execThermalAlert
  repeat' first | with_reducible assumption | with_reducible apply State.logThermal_keeps | with_reducible apply State.Keeps.next | split | dsimp only | (with_reducible refine State.Keeps.lit ?_)
theorem execGetMessageTypeSupport_keeps {s u : State} (h : s.Keeps u) : State.KeepsNext s (execGetMessageTypeSupport u) := by
  unfold execGetMessageTypeSupport
  repeat' first | with_reducible assumption | with_reducible apply State.mctp_keeps | with_reducible apply State.Keeps.next | with_reducible intro _
theorem execFeedReturn_keeps {s u : State} {x1} (h : s.Keeps u) : State.KeepsNext s (execFeedReturn x1 u) := by
  unfold execFeedReturn
  repeat' first | with_reducible assumption | with_reducible apply State.jAppend_keeps | with_reducible apply State.Keeps.next | split | dsimp only | (with_reducible refine State.Keeps.lit ?_)
theorem execSamplePreload_keeps {s u : State} {x1} (h : s.Keeps u) : State.KeepsNext s (execSamplePreload x1 u) := by
  unfold execSamplePreload
  repeat' first | with_reducible assumption | with_reducible apply State.tapSelect_keeps | with_reducible apply State.Keeps.next | dsimp only | (with_reducible refine State.Keeps.lit ?_)
theorem execTripCooldown_keeps {s u : State} {x1 x2} (h : s.Keeps u) : State.KeepsNext s (execTripCooldown x1 x2 u) := by
  unfold execTripCooldown
  repeat' first | with_reducible assumption | with_reducible apply State.coldBoot_keeps | with_reducible apply State.Keeps.next | split | dsimp only | (with_reducible refine State.Keeps.lit ?_)
theorem execPwrGoodAssert_keeps {s u : State} {x1} (h : s.Keeps u) : State.KeepsNext s (execPwrGoodAssert x1 u) := by
  unfold execPwrGoodAssert
  repeat' first | with_reducible assumption | with_reducible apply State.coldBoot_keeps | with_reducible apply State.Keeps.next | split
theorem State.warnOn_keeps {s u : State} {x1} (h : s.Keeps u) : State.Keeps s (State.warnOn u x1) := by
  unfold State.warnOn
  repeat' first | with_reducible assumption | with_reducible apply State.abandonSwap_keeps | with_reducible apply State.abandonWaiting_keeps | with_reducible apply State.abandonMpSwitch_keeps | with_reducible apply State.log_keeps | dsimp only | (with_reducible refine State.Keeps.lit ?_)
theorem execPwrFailWarnAssert_keeps {s u : State} {x1} (h : s.Keeps u) : State.KeepsNext s (execPwrFailWarnAssert x1 u) := by
  unfold execPwrFailWarnAssert
  repeat' first | with_reducible assumption | with_reducible apply State.warnOn_keeps | with_reducible apply State.Keeps.next | split
theorem execSagBandEntry_keeps {s u : State} {x1} (h : s.Keeps u) : State.KeepsNext s (execSagBandEntry x1 u) := by
  unfold execSagBandEntry
  repeat' first | with_reducible assumption | with_reducible apply State.log_keeps | with_reducible apply State.Keeps.next | split | dsimp only | (with_reducible refine State.Keeps.lit ?_)
theorem execBypass_keeps {s u : State} (h : s.Keeps u) : State.KeepsNext s (execBypass u) := by
  unfold execBypass
  repeat' first | with_reducible assumption | with_reducible apply State.tapSelect_keeps | with_reducible apply State.Keeps.next
theorem execGetEndpointId_keeps {s u : State} (h : s.Keeps u) : State.KeepsNext s (execGetEndpointId u) := by
  unfold execGetEndpointId
  repeat' first | with_reducible assumption | with_reducible apply State.mctp_keeps | with_reducible apply State.Keeps.next | with_reducible intro _
theorem execVinRise_keeps {s u : State} {x1} (h : s.Keeps u) : State.KeepsNext s (execVinRise x1 u) := by
  unfold execVinRise
  repeat' first | with_reducible assumption | with_reducible apply State.Keeps.next | split | dsimp only | (with_reducible refine State.Keeps.lit ?_)
theorem execResetInAssert_keeps {s u : State} (h : s.Keeps u) : State.KeepsNext s (execResetInAssert u) := by
  unfold execResetInAssert
  repeat' first | with_reducible assumption | with_reducible apply State.coldBoot_keeps | with_reducible apply State.Keeps.next | split | dsimp only | (with_reducible refine State.Keeps.lit ?_)
theorem execFeedInterruption_keeps {s u : State} (h : s.Keeps u) : State.KeepsNext s (execFeedInterruption u) := by
  unfold execFeedInterruption
  repeat' first | with_reducible assumption | with_reducible apply State.freshNat_keeps | with_reducible apply State.jAppend_keeps | with_reducible apply State.warnOn_keeps | with_reducible apply State.Keeps.next | split | dsimp only | (with_reducible refine State.Keeps.of2 (by with_reducible assumption) ?_) | (with_reducible refine State.Keeps.lit ?_)

/-! ### StackOps -/

theorem State.stackStage_keeps {s u : State} {x1 x2 x3} (h : s.Keeps u) : State.Keeps s (State.stackStage u x1 x2 x3) := by
  unfold State.stackStage
  repeat' first | with_reducible assumption | split | dsimp only | (with_reducible refine State.Keeps.lit ?_)
theorem State.endArmed_keeps {s u : State} {x1 x2 x3} (h : s.Keeps u) : State.Keeps s (State.endArmed u x1 x2 x3) := by
  unfold State.endArmed
  repeat' first | with_reducible assumption | with_reducible apply State.writeResult_keeps | dsimp only | (with_reducible refine State.Keeps.lit ?_)
theorem State.stackGroup_keeps {s u : State} {x1 x2 x3} (h : s.Keeps u) : State.Keeps s (State.stackGroup u x1 x2 x3) := by
  unfold State.stackGroup
  repeat' first | with_reducible assumption | with_reducible apply State.formGroup_keeps | with_reducible apply State.controlAll_keeps | dsimp only | (with_reducible refine State.Keeps.lit ?_)
theorem State.endCommitCmd_keeps {s u : State} {x1 x2} (h : s.Keeps u) : State.Keeps s (State.endCommitCmd u x1 x2) := by
  unfold State.endCommitCmd
  repeat' first | with_reducible assumption | with_reducible apply State.endArmed_keeps | split
theorem State.noteOutcome_keeps {s u : State} {x1 x2 x3} (h : s.Keeps u) : State.Keeps s (State.noteOutcome u x1 x2 x3) := by
  unfold State.noteOutcome
  repeat' first | with_reducible assumption | dsimp only | (with_reducible refine State.Keeps.lit ?_)
theorem State.forgetStack_keeps {s u : State} {x1} (h : s.Keeps u) : State.Keeps s (State.forgetStack u x1) := by
  unfold State.forgetStack
  repeat' first | with_reducible assumption | split | dsimp only | (with_reducible refine State.Keeps.lit ?_)
theorem State.stackAbandoned_keeps {s u : State} {x1 x2} (h : s.Keeps u) : State.Keeps s (State.stackAbandoned u x1 x2) := by
  unfold State.stackAbandoned
  repeat' first | with_reducible assumption | with_reducible apply State.endCommitCmd_keeps | with_reducible apply State.noteOutcome_keeps | with_reducible apply State.requestBatch_keeps | with_reducible apply State.forgetStack_keeps
theorem State.isolate_keeps {s u : State} (h : s.Keeps u) : State.Keeps s (State.isolate u) := by
  unfold State.isolate
  repeat' first | with_reducible assumption | with_reducible apply State.endCommitCmd_keeps | with_reducible apply State.stackAbandoned_keeps | split | dsimp only | (with_reducible refine State.Keeps.lit ?_)
theorem State.applyGoing_keeps {s u : State} {x1} (h : s.Keeps u) : State.Keeps s (State.applyGoing u x1) := by
  unfold State.applyGoing
  repeat' first | with_reducible assumption | with_reducible apply State.endCommitCmd_keeps | with_reducible apply State.noteOutcome_keeps | with_reducible apply State.forgetStack_keeps | with_reducible apply State.applyBatch_keeps | with_reducible apply State.Keeps.foldl | with_reducible intro _
theorem State.notReadyStatus_keeps {s u : State} (h : s.Keeps u) : State.Keeps s (State.notReadyStatus u).2 := by
  unfold State.notReadyStatus
  repeat' first | with_reducible assumption | with_reducible apply State.freshBit_keeps
theorem State.sendGo_keeps {s u : State} {x1 x2} (h : s.Keeps u) : State.Keeps s (State.sendGo u x1 x2) := by
  unfold State.sendGo
  repeat' first | with_reducible assumption | with_reducible apply State.control_keeps
theorem State.startStackCommit_keeps {s u : State} (h : s.Keeps u) : State.Keeps s (State.startStackCommit u) := by
  unfold State.startStackCommit
  repeat' first | with_reducible assumption | with_reducible apply State.endArmed_keeps | with_reducible apply State.requestBatch_keeps | with_reducible apply State.controlAll_keeps | with_reducible apply State.control_keeps | split | dsimp only | (with_reducible refine State.Keeps.lit ?_)
theorem gatherAnswers_keeps {s u : State} {x1 x2} (h : s.Keeps u) : State.Keeps s (gatherAnswers x1 u x2).1 := by
  induction x1 generalizing u x2 with
  | nil => unfold gatherAnswers; repeat' first | with_reducible assumption
  | cons a l ih => unfold gatherAnswers; repeat' first | with_reducible assumption | with_reducible apply ih | with_reducible apply State.freshBit_keeps | with_reducible apply State.notReadyStatus_keeps | split | (with_reducible refine State.Keeps.of2 (by with_reducible assumption) ?_)
theorem State.masterTurn_keeps {s u : State} (h : s.Keeps u) : State.Keeps s (State.masterTurn u) := by
  unfold State.masterTurn
  repeat' first | with_reducible assumption | with_reducible apply gatherAnswers_keeps | with_reducible apply State.stackAbandoned_keeps | with_reducible apply State.controlAll_keeps | with_reducible apply State.sendGo_keeps | split | dsimp only | (with_reducible refine State.Keeps.lit ?_)
theorem State.answerPrepared_keeps {s u : State} (h : s.Keeps u) : State.Keeps s (State.answerPrepared u) := by
  unfold State.answerPrepared
  repeat' first | with_reducible assumption | with_reducible apply State.control_keeps | with_reducible apply State.Keeps.foldl | with_reducible intro _ | split | dsimp only | (with_reducible refine State.Keeps.lit ?_)
theorem State.stackTurn_keeps {s u : State} {x1} (h : s.Keeps u) : State.Keeps s (State.stackTurn u x1) := by
  unfold State.stackTurn
  repeat' first | with_reducible assumption | with_reducible apply State.startStackCommit_keeps | with_reducible apply State.masterTurn_keeps | with_reducible apply State.answerPrepared_keeps | with_reducible apply State.applyGoing_keeps | split

/-! ### StackCmds -/

theorem State.loseMaster_keeps {s u : State} {x1} (h : s.Keeps u) : State.Keeps s (State.loseMaster u x1) := by
  unfold State.loseMaster
  repeat' first | with_reducible assumption | with_reducible apply State.addRecover_keeps | with_reducible apply State.loseSource_keeps | split | dsimp only | (with_reducible refine State.Keeps.lit ?_ rfl rfl rfl rfl rfl rfl rfl rfl rfl)
theorem execMasterLoss_keeps {s u : State} (h : s.Keeps u) : State.KeepsNext s (execMasterLoss u) := by
  unfold execMasterLoss
  repeat' first | with_reducible assumption | with_reducible apply State.loseMaster_keeps | with_reducible apply State.Keeps.next | split
theorem joinedSet_keeps {s u : State} {x1 x2 x3} (h : s.Keeps u) : State.Keeps s (joinedSet x1 x2 u x3).2 := by
  induction x2 generalizing u x1 x3 with
  | zero => unfold joinedSet; repeat' first | with_reducible assumption
  | succ k ih => unfold joinedSet; repeat' first | with_reducible assumption | with_reducible apply ih | with_reducible apply State.freshBit_keeps | split | dsimp only | (with_reducible refine State.Keeps.of2 (by with_reducible assumption) ?_)
theorem State.relay_keeps {s u : State} {x1} (h : s.Keeps u) : State.Keeps s (State.relay u x1) := by
  unfold State.relay
  repeat' first | with_reducible assumption | with_reducible apply State.stackRoute_keeps | split
theorem State.countMarker_keeps {s u : State} (h : s.Keeps u) : State.Keeps s (State.countMarker u) := by
  unfold State.countMarker
  repeat' first | with_reducible assumption | with_reducible apply State.dropRecover_keeps | split | dsimp only | (with_reducible refine State.Keeps.lit ?_)
theorem execTickMarker_keeps {s u : State} {x1 x2 x3 x4} (h : s.Keeps u) : s.KeepsNext (execTickMarker x1 u x2 x3 x4) := by
  refine State.Keeps.next ?_
  have g : ∀ l, s.Keeps { u with stack := { u.stack with unwell := l } } := fun _ => State.Keeps.lit h
  refine iteInduction (motive := fun t => s.Keeps t) (fun _ => ?_) (fun _ => g _)
  have m := State.countMarker_keeps (g (if u.stacked then x4.map (·.val) else u.stack.unwell))
  have q : ∀ c : Prop, [Decidable c] → ∀ v, s.Keeps v → s.Keeps (if c then v.measure x2 else v) :=
    fun _ _ _ w => iteInduction (motive := fun t => s.Keeps t) (fun _ => State.measure_keeps w) (fun _ => w)
  have m := q ((State.countMarker { u with stack := { u.stack with unwell := if u.stacked then x4.map (·.val) else u.stack.unwell } }).time.source = 1) _ m
  cases x3 with
  | none => exact ⟨m.1, m.2, m.3, fun l => ⟨(m.4 l).1, (m.4 l).2.1, (m.4 l).2.2.1, fun p e => nomatch e⟩, m.5, m.6, m.7⟩
  | some p =>
    refine iteInduction (motive := fun t => s.Keeps t) (fun c => ?_) (fun _ => m)
    exact ⟨m.1, m.2, m.3, fun l => ⟨(m.4 l).1, (m.4 l).2.1, (m.4 l).2.2.1, fun p e => (by cases e; exact c)⟩, m.5, m.6, m.7⟩
theorem State.stepTick_keeps {s u : State} {x1} (h : s.Keeps u) : State.Keeps s (State.stepTick u x1) := by
  unfold State.stepTick
  repeat' first | with_reducible assumption | dsimp only | (with_reducible refine State.Keeps.lit ?_)
theorem State.hear_keeps {s u : State} {x1 x2 x3} (h : s.Keeps u) : State.Keeps s (State.hear u x1 x2 x3) := by
  unfold State.hear
  repeat' first | with_reducible assumption | split | dsimp only | (with_reducible refine State.Keeps.lit ?_)
theorem execStackJoin_keeps {s u : State} {x1 x2} (h : s.Keeps u) : State.KeepsNext s (execStackJoin x1 x2 u) := by
  unfold execStackJoin
  repeat' first | with_reducible assumption | with_reducible apply State.hear_keeps | with_reducible apply State.controlAll_keeps | with_reducible apply State.Keeps.next | split | dsimp only | (with_reducible refine State.Keeps.lit ?_)
theorem State.stackBoundary_keeps {s u : State} (h : s.Keeps u) : State.Keeps s (State.stackBoundary u) := by
  unfold State.stackBoundary
  repeat' first | with_reducible assumption | with_reducible apply State.control_keeps | with_reducible apply State.countMarker_keeps | split | dsimp only | (with_reducible refine State.Keeps.lit ?_)
theorem execStackDecisionDeadline_keeps {s u : State} (h : s.Keeps u) : State.KeepsNext s (execStackDecisionDeadline u) := by
  unfold execStackDecisionDeadline
  repeat' first | with_reducible assumption | with_reducible apply State.isolate_keeps | with_reducible apply State.Keeps.next | split
theorem execStackSplit_keeps {s u : State} {x1} (h : s.Keeps u) : State.KeepsNext s (execStackSplit x1 u) := by
  unfold execStackSplit
  repeat' first | with_reducible assumption | with_reducible apply State.isolate_keeps | with_reducible apply State.loseMaster_keeps | with_reducible apply State.Keeps.next | split | dsimp only | (with_reducible refine State.Keeps.lit ?_)
theorem State.decideBatches_keeps {s u : State} (h : s.Keeps u) : State.Keeps s (State.decideBatches u) := by
  unfold State.decideBatches
  repeat' first | with_reducible assumption | with_reducible apply State.controlAll_keeps | with_reducible apply State.sendGo_keeps | with_reducible apply State.freshBit_keeps | with_reducible apply State.freshNat_keeps | with_reducible apply State.stackAbandoned_keeps | with_reducible apply State.Keeps.foldl | with_reducible intro _ | split | dsimp only | (with_reducible refine State.Keeps.of2 (by with_reducible assumption) ?_) | (with_reducible refine State.Keeps.lit ?_)
theorem State.takeover_keeps {s u : State} (h : s.Keeps u) : State.Keeps s (State.takeover u) := by
  unfold State.takeover
  repeat' first | with_reducible assumption | with_reducible apply State.decideBatches_keeps | split | dsimp only | (with_reducible refine State.Keeps.lit ?_)
theorem State.settlePrepared_keeps {s u : State} {x1} (h : s.Keeps u) : State.Keeps s (State.settlePrepared u x1) := by
  unfold State.settlePrepared
  repeat' first | with_reducible assumption | with_reducible apply State.freshBit_keeps | with_reducible apply State.noteOutcome_keeps | with_reducible apply State.forgetStack_keeps | with_reducible apply State.applyBatch_keeps | with_reducible apply State.requestBatch_keeps | with_reducible apply State.Keeps.foldl | with_reducible intro _ | split | (with_reducible refine State.Keeps.of2 (by with_reducible assumption) ?_)
theorem State.admitJoin_keeps {s u : State} {x1} (h : s.Keeps u) : State.Keeps s (State.admitJoin u x1) := by
  unfold State.admitJoin
  repeat' first | with_reducible assumption | with_reducible apply State.settlePrepared_keeps | with_reducible apply State.stepTick_keeps | with_reducible apply joinedSet_keeps | split | dsimp only | (with_reducible refine State.Keeps.lit ?_)
theorem execStackAbandon_keeps {s u : State} {x1 x2} (h : s.Keeps u) : State.KeepsNext s (execStackAbandon x1 x2 u) := by
  unfold execStackAbandon
  repeat' first | with_reducible assumption | with_reducible apply State.hear_keeps | with_reducible apply State.notReadyStatus_keeps | with_reducible apply State.freshNat_keeps | with_reducible apply State.stackAbandoned_keeps | with_reducible apply State.Keeps.next | split
theorem execMember_keeps {s u : State} {x1 x2 x3 x4 x5 x6} (h : s.Keeps u) : State.KeepsNext s (execMember x1 x2 x3 x4 x5 u x6) := by
  unfold execMember
  repeat' first | with_reducible assumption | with_reducible apply State.relay_keeps | with_reducible apply State.alloc_keeps | with_reducible apply State.appendLeaf_keeps | with_reducible apply State.bufWrite_keeps | with_reducible apply State.Keeps.next | split | (with_reducible refine State.Keeps.of2 (by with_reducible assumption) ?_)
theorem execGo_keeps {s u : State} {x1 x2 x3} (h : s.Keeps u) : State.KeepsNext s (execGo x1 x2 x3 u) := by
  unfold execGo
  repeat' first | with_reducible assumption | with_reducible apply State.hear_keeps | with_reducible apply State.sendGo_keeps | with_reducible apply State.Keeps.next | split | dsimp only | (with_reducible refine State.Keeps.lit ?_)
theorem execStage_keeps {s u : State} {x1 x2 x3 x4 x5 x6 x7} (h : s.Keeps u) : State.KeepsNext s (execStage x1 x2 x3 x4 x5 u x6 x7) := by
  unfold execStage
  repeat' first | with_reducible assumption | with_reducible apply State.relay_keeps | with_reducible apply State.alloc_keeps | with_reducible apply State.bufWrite_keeps | with_reducible apply State.classifyWith_keeps | with_reducible apply State.Keeps.next | split
theorem execPrepare_keeps {s u : State} {x1 x2} (h : s.Keeps u) : State.KeepsNext s (execPrepare x1 x2 u) := by
  unfold execPrepare
  repeat' first | with_reducible assumption | with_reducible apply State.hear_keeps | with_reducible apply State.requestBatch_keeps | with_reducible apply State.control_keeps | with_reducible apply State.Keeps.next | split | dsimp only | (with_reducible refine State.Keeps.lit ?_)
theorem execPrepareTimeout_keeps {s u : State} {x1} (h : s.Keeps u) : State.KeepsNext s (execPrepareTimeout x1 u) := by
  unfold execPrepareTimeout
  repeat' first | with_reducible assumption | with_reducible apply State.stackAbandoned_keeps | with_reducible apply State.controlAll_keeps | with_reducible apply State.Keeps.next | split

/-! ### Ticks -/

theorem State.dropArrival_keeps {s u : State} {x1} (h : s.Keeps u) : State.Keeps s (State.dropArrival u x1) := by
  unfold State.dropArrival
  repeat' first | with_reducible assumption | with_reducible apply State.removeOwner_keeps | split
theorem State.dropStaleArrival_keeps {s u : State} {x1} (h : s.Keeps u) : State.Keeps s (State.dropStaleArrival u x1) := by
  unfold State.dropStaleArrival
  repeat' first | with_reducible assumption | with_reducible apply State.modInstCtr_keeps | with_reducible apply State.dropArrival_keeps
theorem State.ledgerTick_keeps {s u : State} (h : s.Keeps u) : State.Keeps s (State.ledgerTick u) := by
  unfold State.ledgerTick
  repeat' first | with_reducible assumption | dsimp only | (with_reducible refine State.Keeps.lit ?_)
theorem State.someYard_keeps {s u : State} (h : s.Keeps u) : State.Keeps s (State.someYard u).2 := by
  unfold State.someYard
  repeat' first | with_reducible assumption | with_reducible apply State.freshNat_keeps
theorem State.resolve_keeps {s u : State} {x1 x2} (h : s.Keeps u) : State.Keeps s (State.resolve u x1 x2) := by
  unfold State.resolve
  repeat' first | with_reducible assumption | with_reducible apply State.arrive_keeps | with_reducible apply State.someYard_keeps | split
theorem State.resolveAll_keeps {s u : State} (h : s.Keeps u) : State.Keeps s (State.resolveAll u) := by
  unfold State.resolveAll
  repeat' first | with_reducible assumption | with_reducible apply State.resolve_keeps | with_reducible apply State.Keeps.foldl | with_reducible intro _ | split | dsimp only | (with_reducible refine State.Keeps.lit ?_)
theorem siftRetries_keeps {s u : State} {x1 x2} (h : s.Keeps u) : State.Keeps s (siftRetries x1 u x2).1 := by
  induction x2 generalizing u x1 with
  | nil => unfold siftRetries; repeat' first | with_reducible assumption
  | cons a l ih => unfold siftRetries; repeat' first | with_reducible assumption | with_reducible apply ih | with_reducible apply State.dropStaleArrival_keeps | with_reducible apply State.dropArrival_keeps | with_reducible apply State.failItem_keeps | with_reducible apply State.Keeps.foldl | split
theorem siftArrivals_keeps {s u : State} {x1} (h : s.Keeps u) : State.Keeps s (siftArrivals u x1).1 := by
  induction x1 generalizing u with
  | nil => unfold siftArrivals; repeat' first | with_reducible assumption
  | cons a l ih => unfold siftArrivals; repeat' first | with_reducible assumption | with_reducible apply ih | with_reducible apply State.dropStaleArrival_keeps | with_reducible apply State.dropArrival_keeps | split
theorem State.startItem_keeps {s u : State} {x1 x2 x3 x4} (h : s.Keeps u) : State.Keeps s (State.startItem u x1 x2 x3 x4) := by
  unfold State.startItem
  repeat' first | with_reducible assumption | with_reducible apply State.swapOwner_keeps | with_reducible apply State.setEng_keeps | with_reducible apply State.Keeps.foldl | with_reducible intro _ | split
theorem startAll_keeps {s u : State} {x1 x2 x3} (h : s.Keeps u) : State.Keeps s (startAll x1 x2 u x3) := by
  induction x3 generalizing u x1 x2 with
  | nil => unfold startAll; repeat' first | with_reducible assumption
  | cons a l ih => unfold startAll; repeat' first | with_reducible assumption | with_reducible apply ih | with_reducible apply State.startItem_keeps
theorem State.dispatchEngine_keeps {s u : State} {x1} (h : s.Keeps u) : State.Keeps s (State.dispatchEngine u x1) := by
  unfold State.dispatchEngine
  repeat' first | with_reducible assumption | with_reducible apply siftRetries_keeps | with_reducible apply siftArrivals_keeps | with_reducible apply State.setEng_keeps | with_reducible apply startAll_keeps | with_reducible apply State.moved_keeps | split | dsimp only | (with_reducible refine State.Keeps.lit ?_)
theorem State.advance_keeps {s u : State} (h : s.Keeps u) : State.Keeps s (State.advance u) := by
  unfold State.advance
  repeat' first | with_reducible assumption | with_reducible apply State.slewTick_keeps | split | dsimp only | (with_reducible refine State.Keeps.lit ?_)
theorem State.newPeriod_keeps {s u : State} {x1} (h : s.Keeps u) (hc : s.LegalTime → x1 < 5) : s.Keeps (u.newPeriod x1) := by
  unfold State.newPeriod
  refine State.log_keeps ⟨h.1, h.2, h.3, fun l => ⟨hc l, (h.4 l).2.1, (h.4 l).2.2.1, ?_⟩, h.5, h.6, h.7⟩
  intro p e; cases e

theorem State.periodDue_legal {s u : State} {c : Nat} (h : s.Keeps u) (e : u.periodDue = some c) (l : s.LegalTime) : c < 5 := by
  have := (h.4 l).2.2.2
  unfold State.periodDue at e
  split at e
  · rename_i code x q
    split at e
    · cases e; exact this _ q
    · cases e
  · cases e
theorem State.noteBacklog_keeps {s u : State} (h : s.Keeps u) : State.Keeps s (State.noteBacklog u) := by
  unfold State.noteBacklog
  repeat' first | with_reducible assumption | with_reducible apply State.setTenant_keeps | with_reducible apply State.Keeps.foldl | with_reducible intro _ | dsimp only | (with_reducible refine State.Keeps.lit ?_)
theorem State.newBudgets_keeps {s u : State} {x1} (h : s.Keeps u) : State.Keeps s (State.newBudgets u x1) := by
  unfold State.newBudgets
  repeat' first | with_reducible assumption | dsimp only | (with_reducible refine State.Keeps.lit ?_)
theorem State.sampleOne_keeps {s u : State} {x1 x2 x3} (h : s.Keeps u) : State.Keeps s (State.sampleOne u x1 x2 x3) := by
  unfold State.sampleOne
  repeat' first | with_reducible assumption | with_reducible apply State.badDoorbell_keeps | with_reducible apply State.applyNvDoorbell_keeps | with_reducible apply State.applyDoorbell_keeps | split
theorem State.sampleFn_keeps {s u : State} {x1} (h : s.Keeps u) : State.Keeps s (State.sampleFn u x1) := by
  unfold State.sampleFn
  repeat' first | with_reducible assumption | with_reducible apply State.sampleOne_keeps | with_reducible apply State.setFn_keeps | with_reducible apply State.Keeps.foldl | with_reducible intro _ | split
theorem State.sampleAll_keeps {s u : State} (h : s.Keeps u) : State.Keeps s (State.sampleAll u) := by
  unfold State.sampleAll
  repeat' first | with_reducible assumption | with_reducible apply State.sampleFn_keeps | with_reducible apply State.Keeps.foldl
theorem State.failRetries_keeps {s u : State} {x1} (h : s.Keeps u) : State.Keeps s (State.failRetries u x1) := by
  unfold State.failRetries
  repeat' first | with_reducible assumption | with_reducible apply State.failItem_keeps | with_reducible apply State.dropArrival_keeps | with_reducible apply State.setEng_keeps | with_reducible apply State.Keeps.foldl | with_reducible intro _ | split | dsimp only
theorem State.dispatch_keeps {s u : State} (h : s.Keeps u) : State.Keeps s (State.dispatch u) := by
  unfold State.dispatch
  repeat' first | with_reducible assumption | with_reducible apply State.resolveAll_keeps | with_reducible apply State.failRetries_keeps | with_reducible apply State.groomStart_keeps | with_reducible apply State.dispatchEngine_keeps | with_reducible apply State.Keeps.foldl | with_reducible intro _ | dsimp only | (with_reducible refine State.Keeps.lit ?_)
theorem State.nvTick_keeps {s u : State} {x1} (h : s.Keeps u) : State.Keeps s (State.nvTick u x1) := by
  unfold State.nvTick
  repeat' first | with_reducible assumption | with_reducible apply State.modCtl_keeps | with_reducible apply State.nvEvent_keeps | with_reducible apply State.Keeps.foldl | with_reducible intro _ | split | dsimp only
theorem State.nvTicks_keeps {s u : State} (h : s.Keeps u) : State.Keeps s (State.nvTicks u) := by
  unfold State.nvTicks
  repeat' first | with_reducible assumption | with_reducible apply State.nvTick_keeps | with_reducible apply State.Keeps.foldl
theorem State.tickOver_keeps {s u : State} (h : s.Keeps u) : State.Keeps s (State.tickOver u) := by
  unfold State.tickOver
  repeat' first | with_reducible assumption | (with_reducible refine State.newPeriod_keeps ?_ (State.periodDue_legal h (by with_reducible assumption))) | with_reducible apply State.advance_keeps | with_reducible apply State.finishAccel_keeps | with_reducible apply State.ledgerTick_keeps | with_reducible apply State.noteBacklog_keeps | with_reducible apply State.newBudgets_keeps | with_reducible apply State.startWaiting_keeps | with_reducible apply State.releaseNotices_keeps | with_reducible apply State.sampleAll_keeps | with_reducible apply State.settleDetaches_keeps | with_reducible apply State.settleRevokes_keeps | with_reducible apply State.destroyDone_keeps | with_reducible apply State.dispatch_keeps | with_reducible apply State.spendAccel_keeps | with_reducible apply State.retryUnsent_keeps | with_reducible apply State.retryFills_keeps | with_reducible apply State.nvTicks_keeps | with_reducible apply State.stackBoundary_keeps | with_reducible apply State.lanesTrain_keeps | with_reducible apply State.Keeps.foldl | split
theorem execPeriodChangeApply_keeps {s u : State} (h : s.Keeps u) : State.KeepsNext s (execPeriodChangeApply u) := by
  unfold execPeriodChangeApply
  repeat' first | with_reducible assumption | with_reducible apply State.tickOver_keeps | with_reducible apply State.Keeps.next | split
theorem execTickBoundary_keeps {s u : State} (h : s.Keeps u) : State.KeepsNext s (execTickBoundary u) := by
  unfold execTickBoundary
  repeat' first | with_reducible assumption | with_reducible apply State.tickOver_keeps | with_reducible apply State.Keeps.next | split

/-! ### TurnCmds -/

theorem State.takeT_keeps {s u : State} {x1 x2 x3 x4} (h : s.Keeps u) : s.Keeps (u.takeT x1 x2 x3 x4) := State.runTurn_keeps h
theorem execInstanceResize_keeps {s u : State} {x1 x2 x3} (h : s.Keeps u) : State.KeepsNext s (execInstanceResize x1 x2 x3 u) := by
  unfold execInstanceResize
  repeat' first | with_reducible assumption | with_reducible apply State.takeT_keeps | with_reducible apply State.Keeps.next
theorem execLaneSet_keeps {s u : State} {x1 x2 x3 x4 x5 x6 x7} (h : s.Keeps u) : State.KeepsNext s (execLaneSet x1 x2 x3 x4 x5 x6 x7 u) := by
  unfold execLaneSet
  repeat' first | with_reducible assumption | with_reducible apply State.takeT_keeps | with_reducible apply State.Keeps.next
theorem execSetGate_keeps {s u : State} {x1 x2 x3} (h : s.Keeps u) : State.KeepsNext s (execSetGate x1 x2 x3 u) := by
  unfold execSetGate
  repeat' first | with_reducible assumption | with_reducible apply State.takeT_keeps | with_reducible apply State.Keeps.next
theorem execInstanceFreeze_keeps {s u : State} {x1 x2} (h : s.Keeps u) : State.KeepsNext s (execInstanceFreeze x1 x2 u) := by
  unfold execInstanceFreeze
  repeat' first | with_reducible assumption | with_reducible apply State.takeT_keeps | with_reducible apply State.Keeps.next
theorem applyT_keeps {s u : State} {x1 x2} (h : s.Keeps u) (hc : ∀ a g t, x2 = .setGate a g t → 218 ≤ g ∧ g ≤ 248) : State.Keeps s (applyT x1 x2 u).1 := by
  unfold applyT
  repeat' first | with_reducible assumption | (with_reducible refine State.setGate_keeps ?_ (hc _ _ _ rfl).1 (hc _ _ _ rfl).2) | with_reducible apply State.poolCounters_keeps | with_reducible apply State.resizeInst_keeps | with_reducible apply State.freezeInst_keeps | with_reducible apply State.thawInst_keeps | with_reducible apply State.setMacs_keeps | with_reducible apply State.queueDestroy_keeps | with_reducible apply State.ringBind_keeps | with_reducible apply State.tableCreate_keeps | with_reducible apply State.dropTable_keeps | with_reducible apply State.applyBatch_keeps | with_reducible apply State.switchBanks_keeps | with_reducible apply State.attachNs_keeps | with_reducible apply State.laneSet_keeps | with_reducible apply State.agSet_keeps | with_reducible apply State.agHash_keeps | with_reducible apply State.tmqCreate_keeps | with_reducible apply State.tmqDestroy_keeps | with_reducible apply State.tmAttr_keeps | with_reducible apply State.editLoad_keeps | with_reducible apply State.setPrio_keeps | with_reducible apply State.selectSource_keeps | with_reducible apply State.stackGroup_keeps | with_reducible apply State.stackStage_keeps | with_reducible apply State.setCap_keeps | with_reducible apply State.setUrgent_keeps | with_reducible apply State.relock_keeps | split
theorem gateJudge_late {g : Nat} {u : State} (e : (gateJudge g).late u = none) : 218 ≤ g ∧ g ≤ 248 := by
  have e1 : failIf (decide (g < 218) || decide (248 < g)) (vPre 1) = none := e
  unfold failIf at e1
  by_cases c : (decide (g < 218) || decide (248 < g)) = true
  · rw [if_pos c] at e1; cases e1
  · simp at c; exact c

theorem State.applyArmed_keeps {s u : State} {x1 x2} (h : s.Keeps u) : State.Keeps s (State.applyArmed u x1 x2) := by
  unfold State.applyArmed
  split
  · exact State.endArmed_keeps h
  · rename_i e
    refine State.endArmed_keeps (applyT_keeps h (fun a g t q => ?_))
    rw [q] at e
    exact gateJudge_late e
theorem execEditLoad_keeps {s u : State} {x1 x2 x3} (h : s.Keeps u) : State.KeepsNext s (execEditLoad x1 x2 x3 u) := by
  unfold execEditLoad
  repeat' first | with_reducible assumption | with_reducible apply State.takeT_keeps | with_reducible apply State.Keeps.next
theorem execPowerCap_keeps {s u : State} {x1 x2} (h : s.Keeps u) : State.KeepsNext s (execPowerCap x1 x2 u) := by
  unfold execPowerCap
  repeat' first | with_reducible assumption | with_reducible apply State.takeT_keeps | with_reducible apply State.Keeps.next
theorem execInstanceThaw_keeps {s u : State} {x1 x2} (h : s.Keeps u) : State.KeepsNext s (execInstanceThaw x1 x2 u) := by
  unfold execInstanceThaw
  repeat' first | with_reducible assumption | with_reducible apply State.takeT_keeps | with_reducible apply State.Keeps.next
theorem execSourceSelect_keeps {s u : State} {x1 x2} (h : s.Keeps u) : State.KeepsNext s (execSourceSelect x1 x2 u) := by
  unfold execSourceSelect
  repeat' first | with_reducible assumption | with_reducible apply State.takeT_keeps | with_reducible apply State.Keeps.next
theorem execStackGroup_keeps {s u : State} {x1 x2 x3 x4} (h : s.Keeps u) : State.KeepsNext s (execStackGroup x1 x2 x3 x4 u) := by
  unfold execStackGroup
  repeat' first | with_reducible assumption | with_reducible apply State.takeT_keeps | with_reducible apply State.Keeps.next
theorem execTableDestroy_keeps {s u : State} {x1 x2} (h : s.Keeps u) : State.KeepsNext s (execTableDestroy x1 x2 u) := by
  unfold execTableDestroy
  repeat' first | with_reducible assumption | with_reducible apply State.takeT_keeps | with_reducible apply State.Keeps.next
theorem execStackQuery_keeps {s u : State} {x1} (h : s.Keeps u) : State.KeepsNext s (execStackQuery x1 u) := by
  unfold execStackQuery
  repeat' first | with_reducible assumption | with_reducible apply State.runQuery_keeps | with_reducible apply State.Keeps.next
theorem execAgHash_keeps {s u : State} {x1 x2 x3 x4} (h : s.Keeps u) : State.KeepsNext s (execAgHash x1 x2 x3 x4 u) := by
  unfold execAgHash
  repeat' first | with_reducible assumption | with_reducible apply State.takeT_keeps | with_reducible apply State.Keeps.next
theorem execTableCreate_keeps {s u : State} {x1 x2 x3 x4 x5 x6 x7 x8 x9} (h : s.Keeps u) : State.KeepsNext s (execTableCreate x1 x2 x3 x4 x5 x6 x7 x8 x9 u) := by
  unfold execTableCreate
  repeat' first | with_reducible assumption | with_reducible apply State.takeT_keeps | with_reducible apply State.Keeps.next
theorem State.settlePending_keeps {s u : State} (h : s.Keeps u) : State.Keeps s (State.settlePending u) := by
  unfold State.settlePending
  repeat' first | with_reducible assumption | with_reducible apply State.setEng_keeps | with_reducible apply State.Keeps.foldl | with_reducible intro _ | split
theorem State.applyCommit_keeps {s u : State} {x1 x2 x3} (h : s.Keeps u) : State.Keeps s (State.applyCommit u x1 x2 x3) := by
  unfold State.applyCommit
  repeat' first | with_reducible assumption | with_reducible apply State.endArmed_keeps | with_reducible apply State.applyBatch_keeps | split
theorem State.turnCommands_keeps {s u : State} {x1} (h : s.Keeps u) : State.Keeps s (State.turnCommands u x1) := by
  unfold State.turnCommands
  repeat' first | with_reducible assumption | with_reducible apply State.settlePending_keeps | with_reducible apply State.applyCommit_keeps | with_reducible apply State.applyArmed_keeps | with_reducible apply State.Keeps.foldl | with_reducible intro _ | split
theorem execBankSwitch_keeps {s u : State} {x1 x2 x3} (h : s.Keeps u) : State.KeepsNext s (execBankSwitch x1 x2 x3 u) := by
  unfold execBankSwitch
  repeat' first | with_reducible assumption | with_reducible apply State.takeT_keeps | with_reducible apply State.pendBanks_keeps | with_reducible apply State.Keeps.next | split
theorem execTmAttr_keeps {s u : State} {x1 x2 x3 x4} (h : s.Keeps u) : State.KeepsNext s (execTmAttr x1 x2 x3 x4 u) := by
  unfold execTmAttr
  repeat' first | with_reducible assumption | with_reducible apply State.takeT_keeps | with_reducible apply State.Keeps.next
theorem execTableCounters_keeps {s u : State} {x1 x2} (h : s.Keeps u) : State.KeepsNext s (execTableCounters x1 x2 u) := by
  unfold execTableCounters
  repeat' first | with_reducible assumption | with_reducible apply State.takeT_keeps | with_reducible apply State.Keeps.next
theorem execQueueDestroy_keeps {s u : State} {x1 x2 x3 x4} (h : s.Keeps u) : State.KeepsNext s (execQueueDestroy x1 x2 x3 x4 u) := by
  unfold execQueueDestroy
  repeat' first | with_reducible assumption | with_reducible apply State.takeT_keeps | with_reducible apply State.Keeps.next
theorem execMonitorRelock_keeps {s u : State} {x1 x2} (h : s.Keeps u) : State.KeepsNext s (execMonitorRelock x1 x2 u) := by
  unfold execMonitorRelock
  repeat' first | with_reducible assumption | with_reducible apply State.takeT_keeps | with_reducible apply State.Keeps.next
theorem execTmqDestroy_keeps {s u : State} {x1 x2} (h : s.Keeps u) : State.KeepsNext s (execTmqDestroy x1 x2 u) := by
  unfold execTmqDestroy
  repeat' first | with_reducible assumption | with_reducible apply State.takeT_keeps | with_reducible apply State.Keeps.next
theorem execPortCounters_keeps {s u : State} {x1 x2 x3} (h : s.Keeps u) : State.KeepsNext s (execPortCounters x1 x2 x3 u) := by
  unfold execPortCounters
  repeat' first | with_reducible assumption | with_reducible apply State.takeT_keeps | with_reducible apply State.Keeps.next
theorem execUrgentMask_keeps {s u : State} {x1 x2 x3} (h : s.Keeps u) : State.KeepsNext s (execUrgentMask x1 x2 x3 u) := by
  unfold execUrgentMask
  repeat' first | with_reducible assumption | with_reducible apply State.takeT_keeps | with_reducible apply State.Keeps.next
theorem execMacSet_keeps {s u : State} {x1 x2 x3 x4} (h : s.Keeps u) : State.KeepsNext s (execMacSet x1 x2 x3 x4 u) := by
  unfold execMacSet
  repeat' first | with_reducible assumption | with_reducible apply State.takeT_keeps | with_reducible apply State.Keeps.next
theorem execPoolCounters_keeps {s u : State} {x1 x2} (h : s.Keeps u) : State.KeepsNext s (execPoolCounters x1 x2 u) := by
  unfold execPoolCounters
  repeat' first | with_reducible assumption | with_reducible apply State.takeT_keeps | with_reducible apply State.Keeps.next
theorem execRingBind_keeps {s u : State} {x1 x2 x3 x4 x5 x6} (h : s.Keeps u) : State.KeepsNext s (execRingBind x1 x2 x3 x4 x5 x6 u) := by
  unfold execRingBind
  repeat' first | with_reducible assumption | with_reducible apply State.takeT_keeps | with_reducible apply State.Keeps.next
theorem execStackStage_keeps {s u : State} {x1 x2 x3 x4} (h : s.Keeps u) : State.KeepsNext s (execStackStage x1 x2 x3 x4 u) := by
  unfold execStackStage
  repeat' first | with_reducible assumption | with_reducible apply State.takeT_keeps | with_reducible apply State.Keeps.next
theorem execTmqCreate_keeps {s u : State} {x1 x2 x3 x4 x5 x6 x7 x8} (h : s.Keeps u) : State.KeepsNext s (execTmqCreate x1 x2 x3 x4 x5 x6 x7 x8 u) := by
  unfold execTmqCreate
  repeat' first | with_reducible assumption | with_reducible apply State.takeT_keeps | with_reducible apply State.Keeps.next
theorem execCommit_keeps {s u : State} {x1 x2 x3} (h : s.Keeps u) : s.KeepsNext (execCommit x1 x2 x3 u) := by
  unfold execCommit
  refine State.Keeps.next ?_
  split
  · exact State.tickFree_keeps (State.requestBatch_keeps (State.runTurn_keeps h))
  · exact State.runTurn_keeps h
theorem execNsAttach_keeps {s u : State} {x1 x2 x3 x4} (h : s.Keeps u) : State.KeepsNext s (execNsAttach x1 x2 x3 x4 u) := by
  unfold execNsAttach
  repeat' first | with_reducible assumption | with_reducible apply State.takeT_keeps | with_reducible apply State.Keeps.next
theorem execAgSet_keeps {s u : State} {x1 x2 x3 x4} (h : s.Keeps u) : State.KeepsNext s (execAgSet x1 x2 x3 x4 u) := by
  unfold execAgSet
  repeat' first | with_reducible assumption | with_reducible apply State.takeT_keeps | with_reducible apply State.Keeps.next
theorem execSourcePriority_keeps {s u : State} {x1 x2 x3 x4 x5} (h : s.Keeps u) : State.KeepsNext s (execSourcePriority x1 x2 x3 x4 x5 u) := by
  unfold execSourcePriority
  repeat' first | with_reducible assumption | with_reducible apply State.takeT_keeps | with_reducible apply State.Keeps.next

/-! ### Turn -/

theorem State.closeCommit_keeps {s u : State} (h : s.Keeps u) : State.Keeps s (State.closeCommit u) := by
  unfold State.closeCommit
  repeat' first | with_reducible assumption | with_reducible apply State.placeEvents_keeps | with_reducible apply State.settleDetaches_keeps | with_reducible apply State.endCommit_keeps | with_reducible apply State.serveRest_keeps
theorem State.groomLate_keeps {s u : State} {x1} (h : s.Keeps u) : State.Keeps s (State.groomLate u x1) := by
  unfold State.groomLate
  repeat' first | with_reducible assumption | with_reducible apply State.faultAt_keeps | split | dsimp only
theorem State.groomsLate_keeps {s u : State} (h : s.Keeps u) : State.Keeps s (State.groomsLate u) := by
  unfold State.groomsLate
  repeat' first | with_reducible assumption | with_reducible apply State.groomLate_keeps | with_reducible apply State.Keeps.foldl
theorem State.turnWork_keeps {s u : State} (h : s.Keeps u) : State.Keeps s (State.turnWork u) := by
  unfold State.turnWork
  repeat' first | with_reducible assumption | with_reducible apply State.clockStep_keeps | with_reducible apply State.queueChanges_keeps | with_reducible apply State.takeover_keeps | with_reducible apply State.admitJoin_keeps | with_reducible apply State.redistribute_keeps | with_reducible apply State.turnUnlock_keeps | with_reducible apply State.turnCommands_keeps | with_reducible apply State.stackTurn_keeps | with_reducible apply State.noteFirstRun_keeps | with_reducible apply State.refreshState_keeps | with_reducible apply State.turnMpSwitch_keeps | with_reducible apply State.turnFailover_keeps | with_reducible apply State.turnChannel_keeps | with_reducible apply State.turnSwaps_keeps
theorem State.levelTick_keeps {s u : State} (h : s.Keeps u) : State.Keeps s (State.levelTick u) := by
  unfold State.levelTick
  repeat' first | with_reducible assumption | dsimp only | (with_reducible refine State.Keeps.lit ?_)
theorem execTurn_keeps {s u : State} (h : s.Keeps u) : State.KeepsNext s (execTurn u) := by
  unfold execTurn
  repeat' first | with_reducible assumption | with_reducible apply State.closeCommit_keeps | with_reducible apply State.groomsLate_keeps | with_reducible apply State.turnWork_keeps | with_reducible apply State.takeCtrs_keeps | with_reducible apply State.levelTick_keeps | with_reducible apply State.Keeps.next | split | dsimp only | (with_reducible refine State.Keeps.lit ?_)

/-! ### Commands and steps -/

/-- No command undoes what `State.Keeps` says. -/
theorem exec_keeps {s u : State} (c : Instr) (h : s.Keeps u) : s.KeepsNext (exec c u) := by
  cases c with
  | vinRise => exact execVinRise_keeps h
  | pwrGoodAssert => exact execPwrGoodAssert_keeps h
  | sagBandEntry => exact execSagBandEntry_keeps h
  | feedInterruption => exact execFeedInterruption_keeps h
  | feedReturn => exact execFeedReturn_keeps h
  | pwrFailWarnAssert => exact execPwrFailWarnAssert_keeps h
  | holdupExhausted => exact execHoldupExhausted_keeps h
  | bankChargeMeasure => exact execBankChargeMeasure_keeps h
  | thermalAlert => exact execThermalAlert_keeps h
  | thermalCapUpdate => exact execThermalCapUpdate_keeps h
  | thermalTrip => exact execThermalTrip_keeps h
  | tripCooldown => exact execTripCooldown_keeps h
  | powerStageFault => exact execPowerStageFault_keeps h
  | resetInAssert => exact execResetInAssert_keeps h
  | resetInRelease => exact execResetInRelease_keeps h
  | conventionalReset => exact execConventionalReset_keeps h
  | perstDeassert => exact execPerstDeassert_keeps h
  | pcieLinkRetrain => exact execPcieLinkRetrain_keeps h
  | malformedTlp => exact execMalformedTlp_keeps h
  | unsupportedRequest => exact execUnsupportedRequest_keeps h
  | barRead => exact execBarRead_keeps h
  | barWrite => exact execBarWrite_keeps h
  | configWrite => exact execConfigWrite_keeps h
  | functionLevelReset => exact execFunctionLevelReset_keeps h
  | pfFunctionLevelReset => exact execPfFunctionLevelReset_keeps h
  | flrComplete => exact execFlrComplete_keeps h
  | busMasterEnableClear => exact execBusMasterEnableClear_keeps h
  | busMasterEnableSet => exact execBusMasterEnableSet_keeps h
  | d3hotEntry => exact execD3hotEntry_keeps h
  | d0Return => exact execD0Return_keeps h
  | pmeSignal => exact execPmeSignal_keeps h
  | pmeTurnOff => exact execPmeTurnOff_keeps h
  | aspmEntry => exact execAspmEntry_keeps h
  | ltrIdleReport => exact execLtrIdleReport_keeps h
  | tickBoundary => exact execTickBoundary_keeps h
  | gate => exact execGate_keeps h
  | turn => exact execTurn_keeps h
  | periodChangeApply => exact execPeriodChangeApply_keeps h
  | sourceQualified => exact execSourceQualified_keeps h
  | clockLocked => exact execClockLocked_keeps h
  | sourceLost => exact execSourceLost_keeps h
  | holdoverExpiry => exact execHoldoverExpiry_keeps h
  | ppsInEdge => exact execPpsInEdge_keeps h
  | integerOp => exact execIntegerOp_keeps h
  | lui => exact execLui_keeps h
  | auipc => exact execAuipc_keeps h
  | branch => exact execBranch_keeps h
  | jal => exact execJal_keeps h
  | jalr => exact execJalr_keeps h
  | mul => exact execMul_keeps h
  | div => exact execDiv_keeps h
  | load => exact execLoad_keeps h
  | store => exact execStore_keeps h
  | fence => exact execFence_keeps h
  | ecall => exact execEcall_keeps h
  | ebreak => exact execEbreak_keeps h
  | fenceI => exact execFenceI_keeps h
  | wfi => exact execWfi_keeps h
  | illegalEncoding => exact execIllegalEncoding_keeps h
  | csrWrite => exact execCsrWrite_keeps h
  | sxdwinWrite => exact execSxdwinWrite_keeps h
  | sxslotWrite => exact execSxslotWrite_keeps h
  | sxstaleRead => exact execSxstaleRead_keeps h
  | dbgenWrite => exact execDbgenWrite_keeps h
  | dismiss => exact execDismiss_keeps h
  | ovfClear => exact execOvfClear_keeps h
  | endmask => exact execEndmask_keeps h
  | yieldt => exact execYieldt_keeps h
  | fork => exact execFork_keeps h
  | join => exact execJoin_keeps h
  | joinUnblock => exact execJoinUnblock_keeps h
  | pksel => exact execPksel_keeps h
  | post => exact execPost_keeps h
  | tlkp => exact execTlkp_keeps h
  | chsend => exact execChsend_keeps h
  | chsendl => exact execChsendl_keeps h
  | chsendUnblock => exact execChsendUnblock_keeps h
  | chrecv => exact execChrecv_keeps h
  | chrecvUnblock => exact execChrecvUnblock_keeps h
  | chpoll => exact execChpoll_keeps h
  | messageDelivery => exact execMessageDelivery_keeps h
  | bfalloc => exact execBfalloc_keeps h
  | bfown => exact execBfown_keeps h
  | bffree => exact execBffree_keeps h
  | enq => exact execEnq_keeps h
  | crc32c => exact execCrc32c_keeps h
  | bswap => exact execBswap_keeps h
  | csum16 => exact execCsum16_keeps h
  | saadd => exact execSaadd_keeps h
  | saswap => exact execSaswap_keeps h
  | sacas => exact execSacas_keeps h
  | samin => exact execSamin_keeps h
  | samax => exact execSamax_keeps h
  | saand => exact execSaand_keeps h
  | saor => exact execSaor_keeps h
  | saxor => exact execSaxor_keeps h
  | sainc64 => exact execSainc64_keeps h
  | groomStart => exact execGroomStart_keeps h
  | mutualWaitReport => exact execMutualWaitReport_keeps h
  | frameReceive => exact execFrameReceive_keeps h
  | classificationDequeue => exact execClassificationDequeue_keeps h
  | laneUp => exact execLaneUp_keeps h
  | laneDown => exact execLaneDown_keeps h
  | lacpTimeout => exact execLacpTimeout_keeps h
  | lacpPeriodicTransmit => exact execLacpPeriodicTransmit_keeps h
  | memberQueuesDrained => exact execMemberQueuesDrained_keeps h
  | schedulerSelect => exact execSchedulerSelect_keeps h
  | transmitComplete => exact execTransmitComplete_keeps h
  | doorbell => exact execDoorbell_keeps h
  | completionHeadDoorbell => exact execCompletionHeadDoorbell_keeps h
  | adminBaseWrite => exact execAdminBaseWrite_keeps h
  | adminCtlEnable => exact execAdminCtlEnable_keeps h
  | adminCtlDisable => exact execAdminCtlDisable_keeps h
  | tx => exact execTx_keeps h
  | rxPost => exact execRxPost_keeps h
  | rdmaWrite => exact execRdmaWrite_keeps h
  | rdmaRead => exact execRdmaRead_keeps h
  | compressJob => exact execCompressJob_keeps h
  | decompressJob => exact execDecompressJob_keeps h
  | gcmSealJob => exact execGcmSealJob_keeps h
  | gcmOpenJob => exact execGcmOpenJob_keeps h
  | createQueue => exact execCreateQueue_keeps h
  | destroyQueue => exact execDestroyQueue_keeps h
  | resetQueue => exact execResetQueue_keeps h
  | abort => exact execAbort_keeps h
  | setModeration => exact execSetModeration_keeps h
  | queryQueue => exact execQueryQueue_keeps h
  | moderationExpiry => exact execModerationExpiry_keeps h
  | hostDmaRead => exact execHostDmaRead_keeps h
  | hostDmaWrite => exact execHostDmaWrite_keeps h
  | hostDmaWriteRx => exact execHostDmaWriteRx_keeps h
  | complete => exact execComplete_keeps h
  | save => exact execSave_keeps h
  | dmaReadCompletion => exact execDmaReadCompletion_keeps h
  | waitingReadIssue => exact execWaitingReadIssue_keeps h
  | completionTimeout => exact execCompletionTimeout_keeps h
  | quarantineEnd => exact execQuarantineEnd_keeps h
  | lateCompletion => exact execLateCompletion_keeps h
  | mailboxSend => exact execMailboxSend_keeps h
  | mailboxTake => exact execMailboxTake_keeps h
  | mailboxRetract => exact execMailboxRetract_keeps h
  | mailboxStatusClear => exact execMailboxStatusClear_keeps h
  | lockAcquire => exact execLockAcquire_keeps h
  | lockRelease => exact execLockRelease_keeps h
  | erHeadWrite => exact execErHeadWrite_keeps h
  | erLostRead => exact execErLostRead_keeps h
  | erStatusClear => exact execErStatusClear_keeps h
  | identify => exact execIdentify_keeps h
  | deviceState => exact execDeviceState_keeps h
  | poolCarve => exact execPoolCarve_keeps h
  | poolCounters => exact execPoolCounters_keeps h
  | controlRegion => exact execControlRegion_keeps h
  | deviceReset => exact execDeviceReset_keeps h
  | instanceCreate => exact execInstanceCreate_keeps h
  | instanceResize => exact execInstanceResize_keeps h
  | instanceReset => exact execInstanceReset_keeps h
  | instanceDestroy => exact execInstanceDestroy_keeps h
  | instanceFreeze => exact execInstanceFreeze_keeps h
  | instanceSave => exact execInstanceSave_keeps h
  | quiescence => exact execQuiescence_keeps h
  | instanceRestore => exact execInstanceRestore_keeps h
  | instanceThaw => exact execInstanceThaw_keeps h
  | dirtyHarvest => exact execDirtyHarvest_keeps h
  | instanceQuery => exact execInstanceQuery_keeps h
  | macSet => exact execMacSet_keeps h
  | queueQuery => exact execQueueQuery_keeps h
  | queueDestroy => exact execQueueDestroy_keeps h
  | ringBind => exact execRingBind_keeps h
  | tableCreate => exact execTableCreate_keeps h
  | tableDestroy => exact execTableDestroy_keeps h
  | stageEntries => exact execStageEntries_keeps h
  | stageStages => exact execStageStages_keeps h
  | stageGraph => exact execStageGraph_keeps h
  | stageDefaults => exact execStageDefaults_keeps h
  | stageSpread => exact execStageSpread_keeps h
  | commit => exact execCommit_keeps h
  | commitCleanupComplete => exact execCommitCleanupComplete_keeps h
  | abandon => exact execAbandon_keeps h
  | read => exact execRead_keeps h
  | tableCounters => exact execTableCounters_keeps h
  | tablePlan => exact execTablePlan_keeps h
  | programLoad => exact execProgramLoad_keeps h
  | bankSwitch => exact execBankSwitch_keeps h
  | programQuery => exact execProgramQuery_keeps h
  | regCreate => exact execRegCreate_keeps h
  | regRevoke => exact execRegRevoke_keeps h
  | revokeDrainComplete => exact execRevokeDrainComplete_keeps h
  | ctxBacking => exact execCtxBacking_keeps h
  | ctxCreate => exact execCtxCreate_keeps h
  | ctxModify => exact execCtxModify_keeps h
  | ctxDestroy => exact execCtxDestroy_keeps h
  | ctxQuery => exact execCtxQuery_keeps h
  | backendAdd => exact execBackendAdd_keeps h
  | backendRemove => exact execBackendRemove_keeps h
  | nsCreate => exact execNsCreate_keeps h
  | nsAttach => exact execNsAttach_keeps h
  | nsDetach => exact execNsDetach_keeps h
  | nsDestroy => exact execNsDestroy_keeps h
  | backendQuery => exact execBackendQuery_keeps h
  | laneSet => exact execLaneSet_keeps h
  | agSet => exact execAgSet_keeps h
  | agHash => exact execAgHash_keeps h
  | tmqCreate => exact execTmqCreate_keeps h
  | tmqDestroy => exact execTmqDestroy_keeps h
  | tmAttr => exact execTmAttr_keeps h
  | editLoad => exact execEditLoad_keeps h
  | portCounters => exact execPortCounters_keeps h
  | opticsQuery => exact execOpticsQuery_keeps h
  | timeQuery => exact execTimeQuery_keeps h
  | sourcePriority => exact execSourcePriority_keeps h
  | sourceSelect => exact execSourceSelect_keeps h
  | setGate => exact execSetGate_keeps h
  | periodChange => exact execPeriodChange_keeps h
  | periodCancel => exact execPeriodCancel_keeps h
  | holdoverSet => exact execHoldoverSet_keeps h
  | sparesQuery => exact execSparesQuery_keeps h
  | rotationSet => exact execRotationSet_keeps h
  | rotateNow => exact execRotateNow_keeps h
  | patrolSet => exact execPatrolSet_keeps h
  | repairLog => exact execRepairLog_keeps h
  | farrierReload => exact execFarrierReload_keeps h
  | wearQuery => exact execWearQuery_keeps h
  | imageWrite => exact execImageWrite_keeps h
  | imageValidate => exact execImageValidate_keeps h
  | imageQuery => exact execImageQuery_keeps h
  | mpSwitch => exact execMpSwitch_keeps h
  | imageConfirm => exact execImageConfirm_keeps h
  | keyRevoke => exact execKeyRevoke_keeps h
  | keyQuery => exact execKeyQuery_keeps h
  | lifecycleAdvance => exact execLifecycleAdvance_keeps h
  | stackQuery => exact execStackQuery_keeps h
  | stackGroup => exact execStackGroup_keeps h
  | stackStage => exact execStackStage_keeps h
  | powerQuery => exact execPowerQuery_keeps h
  | powerCap => exact execPowerCap_keeps h
  | urgentMask => exact execUrgentMask_keeps h
  | domainQuery => exact execDomainQuery_keeps h
  | monitorUnlock => exact execMonitorUnlock_keeps h
  | monitorRelock => exact execMonitorRelock_keeps h
  | unlockExpiry => exact execUnlockExpiry_keeps h
  | debugQuery => exact execDebugQuery_keeps h
  | eventRingSet => exact execEventRingSet_keeps h
  | eventMask => exact execEventMask_keeps h
  | logRead => exact execLogRead_keeps h
  | commandTimeout => exact execCommandTimeout_keeps h
  | recoveryLoad => exact execRecoveryLoad_keeps h
  | rdmaWriteFirst => exact execRdmaWriteFirst_keeps h
  | rdmaWriteMiddle => exact execRdmaWriteMiddle_keeps h
  | rdmaWriteLast => exact execRdmaWriteLast_keeps h
  | rdmaWriteOnly => exact execRdmaWriteOnly_keeps h
  | rdmaReadRequest => exact execRdmaReadRequest_keeps h
  | rdmaReadResponseFirst => exact execRdmaReadResponseFirst_keeps h
  | rdmaReadResponseMiddle => exact execRdmaReadResponseMiddle_keeps h
  | rdmaReadResponseLast => exact execRdmaReadResponseLast_keeps h
  | rdmaReadResponseOnly => exact execRdmaReadResponseOnly_keeps h
  | acknowledge => exact execAcknowledge_keeps h
  | unsupportedOpcodePacket => exact execUnsupportedOpcodePacket_keeps h
  | sprayWrite => exact execSprayWrite_keeps h
  | sprayReadReq => exact execSprayReadReq_keeps h
  | sprayReadResp => exact execSprayReadResp_keeps h
  | sprayAck => exact execSprayAck_keeps h
  | spraySack => exact execSpraySack_keeps h
  | sprayNak => exact execSprayNak_keeps h
  | ackTimeout => exact execAckTimeout_keeps h
  | sprayMessageTimeout => exact execSprayMessageTimeout_keeps h
  | reassemblyLimit => exact execReassemblyLimit_keeps h
  | readRecordTimeout => exact execReadRecordTimeout_keeps h
  | contextFill => exact execContextFill_keeps h
  | submit => exact execSubmit_keeps h
  | tune => exact execTune_keeps h
  | backendSubmit => exact execBackendSubmit_keeps h
  | backendData => exact execBackendData_keeps h
  | cancel => exact execCancel_keeps h
  | backendReply => exact execBackendReply_keeps h
  | backendConnectionLost => exact execBackendConnectionLost_keeps h
  | backendReconnect => exact execBackendReconnect_keeps h
  | backendCommandTimeout => exact execBackendCommandTimeout_keeps h
  | backendQueueIdleClose => exact execBackendQueueIdleClose_keeps h
  | keyLoad => exact execKeyLoad_keeps h
  | keyClear => exact execKeyClear_keeps h
  | macsecProtect => exact execMacsecProtect_keeps h
  | macsecValidate => exact execMacsecValidate_keeps h
  | espEncrypt => exact execEspEncrypt_keeps h
  | espDecrypt => exact execEspDecrypt_keeps h
  | tlsSeal => exact execTlsSeal_keeps h
  | tlsOpen => exact execTlsOpen_keeps h
  | gcmSeal => exact execGcmSeal_keeps h
  | gcmOpen => exact execGcmOpen_keeps h
  | compress => exact execCompress_keeps h
  | decompress => exact execDecompress_keeps h
  | acceleratorResult => exact execAcceleratorResult_keeps h
  | deleteIoSubmissionQueue => exact execDeleteIoSubmissionQueue_keeps h
  | deleteIoCompletionQueue => exact execDeleteIoCompletionQueue_keeps h
  | createIoSubmissionQueue => exact execCreateIoSubmissionQueue_keeps h
  | createIoCompletionQueue => exact execCreateIoCompletionQueue_keeps h
  | getLogPage => exact execGetLogPage_keeps h
  | nvmeIdentify => exact execNvmeIdentify_keeps h
  | nvmeAbort => exact execNvmeAbort_keeps h
  | setFeatures => exact execSetFeatures_keeps h
  | getFeatures => exact execGetFeatures_keeps h
  | asynchronousEventRequest => exact execAsynchronousEventRequest_keeps h
  | firmwareCommit => exact execFirmwareCommit_keeps h
  | firmwareImageDownload => exact execFirmwareImageDownload_keeps h
  | keepAlive => exact execKeepAlive_keeps h
  | flush => exact execFlush_keeps h
  | nvmeWrite => exact execNvmeWrite_keeps h
  | nvmeRead => exact execNvmeRead_keeps h
  | keepAliveExpiry => exact execKeepAliveExpiry_keeps h
  | apstTransition => exact execApstTransition_keeps h
  | powerStateTransitionEnd => exact execPowerStateTransitionEnd_keeps h
  | patrolTest => exact execPatrolTest_keeps h
  | correctedBurst => exact execCorrectedBurst_keeps h
  | stressUpdate => exact execStressUpdate_keeps h
  | restRotationDue => exact execRestRotationDue_keeps h
  | yardTestComplete => exact execYardTestComplete_keeps h
  | mirrorComplete => exact execMirrorComplete_keeps h
  | yardFaultDetected => exact execYardFaultDetected_keeps h
  | laserBiasCheck => exact execLaserBiasCheck_keeps h
  | laserFailure => exact execLaserFailure_keeps h
  | electricalLaneReplacement => exact execElectricalLaneReplacement_keeps h
  | dramChannelRetirement => exact execDramChannelRetirement_keeps h
  | channelMoveComplete => exact execChannelMoveComplete_keeps h
  | dramChannelUnresponsive => exact execDramChannelUnresponsive_keeps h
  | freeListRebuildComplete => exact execFreeListRebuildComplete_keeps h
  | mpHeartbeatLoss => exact execMpHeartbeatLoss_keeps h
  | mpReloadComplete => exact execMpReloadComplete_keeps h
  | farrierTakeover => exact execFarrierTakeover_keeps h
  | repairUnmanaged => exact execRepairUnmanaged_keeps h
  | journalAppend => exact execJournalAppend_keeps h
  | journalCompaction => exact execJournalCompaction_keeps h
  | repairApplied => exact execRepairApplied_keeps h
  | lastResortRepair => exact execLastResortRepair_keeps h
  | spRelease => exact execSpRelease_keeps h
  | releaseEvent => exact execReleaseEvent_keeps h
  | yardRelease => exact execYardRelease_keeps h
  | builtInTestEnd p => exact execBuiltInTestEnd_keeps (x1 := p) h
  | recoveryWindowExpiry => exact execRecoveryWindowExpiry_keeps h
  | stackJoin => exact execStackJoin_keeps h
  | tickMarker => exact execTickMarker_keeps h
  | masterLoss => exact execMasterLoss_keeps h
  | stackSplit => exact execStackSplit_keeps h
  | prepare => exact execPrepare_keeps h
  | go src b t => exact execGo_keeps (x1 := src) h
  | stackAbandon src b => exact execStackAbandon_keeps (x1 := src) h
  | prepareTimeout => exact execPrepareTimeout_keeps h
  | stackDecisionDeadline => exact execStackDecisionDeadline_keeps h
  | member src a b c d => exact execMember_keeps (x1 := src) h
  | stage src a b c d => exact execStage_keeps (x1 := src) h
  | smbusReadWord => exact execSmbusReadWord_keeps h
  | alertResponse => exact execAlertResponse_keeps h
  | setEndpointId => exact execSetEndpointId_keeps h
  | getEndpointId => exact execGetEndpointId_keeps h
  | getMctpVersionSupport => exact execGetMctpVersionSupport_keeps h
  | getMessageTypeSupport => exact execGetMessageTypeSupport_keeps h
  | bypass => exact execBypass_keeps h
  | idcode => exact execIdcode_keeps h
  | samplePreload => exact execSamplePreload_keeps h
  | extest => exact execExtest_keeps h
  | criek => exact execCriek_keeps h
  | help => exact execHelp_keeps h
  | id => exact execId_keeps h
  | state => exact execState_keeps h
  | baud => exact execBaud_keeps h
  | baudSwitch => exact execBaudSwitch_keeps h
  | quit => exact execQuit_keeps h
  | sessionTimeout => exact execSessionTimeout_keeps h
  | log => exact execLog_keeps h
  | time => exact execTime_keeps h
  | keyprog => exact execKeyprog_keeps h
  | revoke => exact execRevoke_keeps h
  | lcadv => exact execLcadv_keeps h
  | loadBlock => exact execLoadBlock_keeps h
  | loadGapTimeout => exact execLoadGapTimeout_keeps h
  | release => exact execRelease_keeps h
  | dbg => exact execDbg_keeps h
  | hold => exact execHold_keeps h
  | resume => exact execResume_keeps h
  | step => exact execStep_keeps h
  | kill => exact execKill_keeps h
  | regs => exact execRegs_keeps h
  | setreg => exact execSetreg_keeps h
  | rdmem => exact execRdmem_keeps h
  | wrmem => exact execWrmem_keeps h
  | serverChange => exact execServerChange_keeps h
  | monitorLoad => exact execMonitorLoad_keeps h
  | serialLoadLimit => exact execSerialLoadLimit_keeps h
  | fullDeviceReset => exact execFullDeviceReset_keeps h
  | backendConnected => exact execBackendConnected_keeps h
  | backendKeepAlive => exact execBackendKeepAlive_keeps h
  | rdmaCounters => exact execRdmaCounters_keeps h
  | stressSave => exact execStressSave_keeps h
  | powerOnHours => exact execPowerOnHours_keeps h
  | consumedRecompute => exact execConsumedRecompute_keeps h

/-- Every step keeps the rest of the queue and undoes nothing. -/
theorem step_keeps {s t : State} (h : step s = .next t) : { s with pending := s.pending.tail }.Keeps t := by
  unfold step at h
  cases q : s.pending with
  | nil => rw [q] at h; cases h; exact ⟨q, id, id, id, Nat.le_refl _, fun _ a => a, fun _ _ a => a⟩
  | cons c l => rw [q] at h; exact exec_keeps c (State.Keeps.refl _) t h

end Sys2Proof.Machine
end

