-- ==== Sys2Proof/Laws/Picks.lean ====
section
/-!
SUPPORT. Laws of the free choice of a number (log 6): it lies in its range, the list does not hold it, and there is one whenever the list leaves one.
-/

namespace Sys2Proof.Machine

open Sys2Proof

set_option Elab.async false

/-- A least number found lies in the range and is not in the list. -/
theorem leastNotIn_some {ks : List Nat} {n i j : Nat} (h : leastNotIn ks i n = some j) : i ≤ j ∧ j < i + n ∧ j ∉ ks := by
  induction n generalizing i with
  | zero => cases h
  | succ n ih =>
    unfold leastNotIn at h
    split at h
    · have := ih h
      exact ⟨by omega, by omega, this.2.2⟩
    · rename_i c
      cases h
      exact ⟨Nat.le_refl _, by omega, by simpa using c⟩

/-- None is found exactly when the list holds the whole range. -/
theorem leastNotIn_none {ks : List Nat} {n i : Nat} : leastNotIn ks i n = none ↔ ∀ j, i ≤ j → j < i + n → j ∈ ks := by
  induction n generalizing i with
  | zero => exact ⟨fun _ j h1 h2 => by omega, fun _ => rfl⟩
  | succ n ih =>
    unfold leastNotIn
    split
    · rename_i c
      rw [ih]
      have c' : i ∈ ks := by simpa using c
      constructor
      · intro h j h1 h2
        by_cases e : j = i
        · exact e ▸ c'
        · exact h j (by omega) (by omega)
      · exact fun h j h1 h2 => h j (by omega) (by omega)
    · rename_i c
      exact ⟨fun h => (by cases h), fun h => absurd (h i (Nat.le_refl _) (by omega)) (by simpa using c)⟩

/-- A number chosen lies in the range and is not in the list. -/
theorem pickFree_some {s : State} {kind lo n i : Nat} {ks : List Nat} (h : s.pickFree kind ks lo n = some i) : lo ≤ i ∧ i < lo + n ∧ i ∉ ks := by
  unfold State.pickFree at h
  dsimp only at h
  by_cases z : n = 0
  · subst z
    simp [leastNotIn] at h
  · rw [if_neg z] at h
    have hd : Config.pick kind s.freeCtr ks.length % n < n := Nat.mod_lt _ (by omega)
    revert h hd
    generalize Config.pick kind s.freeCtr ks.length % n = d
    intro h hd
    cases e : leastNotIn ks (lo + d) (n - d) with
    | some j =>
      rw [e] at h
      cases h
      have := leastNotIn_some e
      exact ⟨by omega, by omega, this.2.2⟩
    | none =>
      rw [e] at h
      have := leastNotIn_some h
      exact ⟨by omega, by omega, this.2.2⟩

/-- None is chosen exactly when the list holds the whole range. -/
theorem pickFree_none {s : State} {kind lo n : Nat} {ks : List Nat} : s.pickFree kind ks lo n = none ↔ ∀ j, lo ≤ j → j < lo + n → j ∈ ks := by
  unfold State.pickFree
  dsimp only
  by_cases z : n = 0
  · subst z
    exact ⟨fun _ j h1 h2 => by omega, fun _ => by simp [leastNotIn]⟩
  · rw [if_neg z]
    have hd : Config.pick kind s.freeCtr ks.length % n < n := Nat.mod_lt _ (by omega)
    revert hd
    generalize Config.pick kind s.freeCtr ks.length % n = d
    intro hd
    cases e : leastNotIn ks (lo + d) (n - d) with
    | some j =>
      have := leastNotIn_some e
      exact ⟨fun h => (by cases h), fun h => absurd (h j (by omega) (by omega)) this.2.2⟩
    | none =>
      rw [leastNotIn_none] at e
      show leastNotIn ks lo d = none ↔ _
      rw [leastNotIn_none]
      constructor
      · intro h j h1 h2
        by_cases c : j < lo + d
        · exact h j h1 c
        · exact e j (by omega) (by omega)
      · exact fun h j h1 h2 => h j h1 (by omega)

/-- A list that holds fewer numbers than the range has leaves one. -/
theorem pickFree_isSome {s : State} {kind lo n : Nat} {ks : List Nat} (h : ks.length < n) : ∃ i, s.pickFree kind ks lo n = some i := by
  cases e : s.pickFree kind ks lo n with
  | some i => exact ⟨i, rfl⟩
  | none =>
    rw [pickFree_none] at e
    have : List.range' lo n ⊆ ks := fun j hj => by
      have := List.mem_range'_1.mp hj
      exact e j this.1 this.2
    have := (List.subperm_of_subset List.nodup_range' this).length_le
    rw [List.length_range'] at this
    omega

end Sys2Proof.Machine
end

