-- ==== Sys2Proof/Laws/State.lean ====
section
/-!
SUPPORT. The small lemmas of State: what each shared update leaves as it was, one lemma per field, so that no proof unfolds a record update.
-/

namespace Sys2Proof.Machine

open Sys2Proof

set_option Elab.async false

/-! Replacing an engine. -/

@[simp] theorem State.setEng_pending (s : State) (pe : Nat) (e : Engine) : (s.setEng pe e).pending = s.pending := rfl
@[simp] theorem State.setEng_freeCtr (s : State) (pe : Nat) (e : Engine) : (s.setEng pe e).freeCtr = s.freeCtr := rfl
@[simp] theorem State.setEng_time (s : State) (pe : Nat) (e : Engine) : (s.setEng pe e).time = s.time := rfl
@[simp] theorem State.setEng_dev (s : State) (pe : Nat) (e : Engine) : (s.setEng pe e).dev = s.dev := rfl
@[simp] theorem State.setEng_ports (s : State) (pe : Nat) (e : Engine) : (s.setEng pe e).ports = s.ports := rfl
@[simp] theorem State.setEng_cls (s : State) (pe : Nat) (e : Engine) : (s.setEng pe e).cls = s.cls := rfl
@[simp] theorem State.setEng_pools (s : State) (pe : Nat) (e : Engine) : (s.setEng pe e).pools = s.pools := rfl
@[simp] theorem State.setEng_tm (s : State) (pe : Nat) (e : Engine) : (s.setEng pe e).tm = s.tm := rfl
@[simp] theorem State.setEng_pcie (s : State) (pe : Nat) (e : Engine) : (s.setEng pe e).pcie = s.pcie := rfl
@[simp] theorem State.setEng_boxes (s : State) (pe : Nat) (e : Engine) : (s.setEng pe e).boxes = s.boxes := rfl
@[simp] theorem State.setEng_mbadel (s : State) (pe : Nat) (e : Engine) : (s.setEng pe e).mbadel = s.mbadel := rfl
@[simp] theorem State.setEng_queues (s : State) (pe : Nat) (e : Engine) : (s.setEng pe e).queues = s.queues := rfl
@[simp] theorem State.setEng_ten (s : State) (pe : Nat) (e : Engine) : (s.setEng pe e).ten = s.ten := rfl
@[simp] theorem State.setEng_sto (s : State) (pe : Nat) (e : Engine) : (s.setEng pe e).sto = s.sto := rfl
@[simp] theorem State.setEng_rdma (s : State) (pe : Nat) (e : Engine) : (s.setEng pe e).rdma = s.rdma := rfl
@[simp] theorem State.setEng_accel (s : State) (pe : Nat) (e : Engine) : (s.setEng pe e).accel = s.accel := rfl
@[simp] theorem State.setEng_events (s : State) (pe : Nat) (e : Engine) : (s.setEng pe e).events = s.events := rfl
@[simp] theorem State.setEng_repair (s : State) (pe : Nat) (e : Engine) : (s.setEng pe e).repair = s.repair := rfl
@[simp] theorem State.setEng_nv (s : State) (pe : Nat) (e : Engine) : (s.setEng pe e).nv = s.nv := rfl
@[simp] theorem State.setEng_boot (s : State) (pe : Nat) (e : Engine) : (s.setEng pe e).boot = s.boot := rfl
@[simp] theorem State.setEng_stack (s : State) (pe : Nat) (e : Engine) : (s.setEng pe e).stack = s.stack := rfl
@[simp] theorem State.setEng_power (s : State) (pe : Nat) (e : Engine) : (s.setEng pe e).power = s.power := rfl
@[simp] theorem State.setEng_monitor (s : State) (pe : Nat) (e : Engine) : (s.setEng pe e).monitor = s.monitor := rfl
@[simp] theorem State.setEng_dram (s : State) (pe : Nat) (e : Engine) : (s.setEng pe e).dram = s.dram := rfl
@[simp] theorem State.setEng_hostMem (s : State) (pe : Nat) (e : Engine) : (s.setEng pe e).hostMem = s.hostMem := rfl

/-! Replacing a context. -/

@[simp] theorem State.modThr_pending (s : State) (pe k : Nat) (f : Thread → Thread) : (s.modThr pe k f).pending = s.pending := rfl
@[simp] theorem State.modThr_freeCtr (s : State) (pe k : Nat) (f : Thread → Thread) : (s.modThr pe k f).freeCtr = s.freeCtr := rfl
@[simp] theorem State.modThr_time (s : State) (pe k : Nat) (f : Thread → Thread) : (s.modThr pe k f).time = s.time := rfl
@[simp] theorem State.modThr_dev (s : State) (pe k : Nat) (f : Thread → Thread) : (s.modThr pe k f).dev = s.dev := rfl
@[simp] theorem State.modThr_ports (s : State) (pe k : Nat) (f : Thread → Thread) : (s.modThr pe k f).ports = s.ports := rfl
@[simp] theorem State.modThr_cls (s : State) (pe k : Nat) (f : Thread → Thread) : (s.modThr pe k f).cls = s.cls := rfl
@[simp] theorem State.modThr_pools (s : State) (pe k : Nat) (f : Thread → Thread) : (s.modThr pe k f).pools = s.pools := rfl
@[simp] theorem State.modThr_tm (s : State) (pe k : Nat) (f : Thread → Thread) : (s.modThr pe k f).tm = s.tm := rfl
@[simp] theorem State.modThr_pcie (s : State) (pe k : Nat) (f : Thread → Thread) : (s.modThr pe k f).pcie = s.pcie := rfl
@[simp] theorem State.modThr_boxes (s : State) (pe k : Nat) (f : Thread → Thread) : (s.modThr pe k f).boxes = s.boxes := rfl
@[simp] theorem State.modThr_mbadel (s : State) (pe k : Nat) (f : Thread → Thread) : (s.modThr pe k f).mbadel = s.mbadel := rfl
@[simp] theorem State.modThr_queues (s : State) (pe k : Nat) (f : Thread → Thread) : (s.modThr pe k f).queues = s.queues := rfl
@[simp] theorem State.modThr_ten (s : State) (pe k : Nat) (f : Thread → Thread) : (s.modThr pe k f).ten = s.ten := rfl
@[simp] theorem State.modThr_sto (s : State) (pe k : Nat) (f : Thread → Thread) : (s.modThr pe k f).sto = s.sto := rfl
@[simp] theorem State.modThr_rdma (s : State) (pe k : Nat) (f : Thread → Thread) : (s.modThr pe k f).rdma = s.rdma := rfl
@[simp] theorem State.modThr_accel (s : State) (pe k : Nat) (f : Thread → Thread) : (s.modThr pe k f).accel = s.accel := rfl
@[simp] theorem State.modThr_events (s : State) (pe k : Nat) (f : Thread → Thread) : (s.modThr pe k f).events = s.events := rfl
@[simp] theorem State.modThr_repair (s : State) (pe k : Nat) (f : Thread → Thread) : (s.modThr pe k f).repair = s.repair := rfl
@[simp] theorem State.modThr_nv (s : State) (pe k : Nat) (f : Thread → Thread) : (s.modThr pe k f).nv = s.nv := rfl
@[simp] theorem State.modThr_boot (s : State) (pe k : Nat) (f : Thread → Thread) : (s.modThr pe k f).boot = s.boot := rfl
@[simp] theorem State.modThr_stack (s : State) (pe k : Nat) (f : Thread → Thread) : (s.modThr pe k f).stack = s.stack := rfl
@[simp] theorem State.modThr_power (s : State) (pe k : Nat) (f : Thread → Thread) : (s.modThr pe k f).power = s.power := rfl
@[simp] theorem State.modThr_monitor (s : State) (pe k : Nat) (f : Thread → Thread) : (s.modThr pe k f).monitor = s.monitor := rfl
@[simp] theorem State.modThr_dram (s : State) (pe k : Nat) (f : Thread → Thread) : (s.modThr pe k f).dram = s.dram := rfl
@[simp] theorem State.modThr_hostMem (s : State) (pe k : Nat) (f : Thread → Thread) : (s.modThr pe k f).hostMem = s.hostMem := rfl

/-! Replacing a yard. -/

@[simp] theorem State.setYard_pending (s : State) (y : Nat) (v : Yard) : (s.setYard y v).pending = s.pending := rfl
@[simp] theorem State.setYard_freeCtr (s : State) (y : Nat) (v : Yard) : (s.setYard y v).freeCtr = s.freeCtr := rfl
@[simp] theorem State.setYard_time (s : State) (y : Nat) (v : Yard) : (s.setYard y v).time = s.time := rfl
@[simp] theorem State.setYard_dev (s : State) (y : Nat) (v : Yard) : (s.setYard y v).dev = s.dev := rfl
@[simp] theorem State.setYard_ports (s : State) (y : Nat) (v : Yard) : (s.setYard y v).ports = s.ports := rfl
@[simp] theorem State.setYard_cls (s : State) (y : Nat) (v : Yard) : (s.setYard y v).cls = s.cls := rfl
@[simp] theorem State.setYard_pools (s : State) (y : Nat) (v : Yard) : (s.setYard y v).pools = s.pools := rfl
@[simp] theorem State.setYard_tm (s : State) (y : Nat) (v : Yard) : (s.setYard y v).tm = s.tm := rfl
@[simp] theorem State.setYard_pcie (s : State) (y : Nat) (v : Yard) : (s.setYard y v).pcie = s.pcie := rfl
@[simp] theorem State.setYard_boxes (s : State) (y : Nat) (v : Yard) : (s.setYard y v).boxes = s.boxes := rfl
@[simp] theorem State.setYard_mbadel (s : State) (y : Nat) (v : Yard) : (s.setYard y v).mbadel = s.mbadel := rfl
@[simp] theorem State.setYard_queues (s : State) (y : Nat) (v : Yard) : (s.setYard y v).queues = s.queues := rfl
@[simp] theorem State.setYard_ten (s : State) (y : Nat) (v : Yard) : (s.setYard y v).ten = s.ten := rfl
@[simp] theorem State.setYard_sto (s : State) (y : Nat) (v : Yard) : (s.setYard y v).sto = s.sto := rfl
@[simp] theorem State.setYard_rdma (s : State) (y : Nat) (v : Yard) : (s.setYard y v).rdma = s.rdma := rfl
@[simp] theorem State.setYard_accel (s : State) (y : Nat) (v : Yard) : (s.setYard y v).accel = s.accel := rfl
@[simp] theorem State.setYard_events (s : State) (y : Nat) (v : Yard) : (s.setYard y v).events = s.events := rfl
@[simp] theorem State.setYard_repair (s : State) (y : Nat) (v : Yard) : (s.setYard y v).repair = s.repair := rfl
@[simp] theorem State.setYard_nv (s : State) (y : Nat) (v : Yard) : (s.setYard y v).nv = s.nv := rfl
@[simp] theorem State.setYard_boot (s : State) (y : Nat) (v : Yard) : (s.setYard y v).boot = s.boot := rfl
@[simp] theorem State.setYard_stack (s : State) (y : Nat) (v : Yard) : (s.setYard y v).stack = s.stack := rfl
@[simp] theorem State.setYard_power (s : State) (y : Nat) (v : Yard) : (s.setYard y v).power = s.power := rfl
@[simp] theorem State.setYard_monitor (s : State) (y : Nat) (v : Yard) : (s.setYard y v).monitor = s.monitor := rfl
@[simp] theorem State.setYard_dram (s : State) (y : Nat) (v : Yard) : (s.setYard y v).dram = s.dram := rfl
@[simp] theorem State.setYard_hostMem (s : State) (y : Nat) (v : Yard) : (s.setYard y v).hostMem = s.hostMem := rfl

/-! Replacing a function. -/

@[simp] theorem State.setFn_pending (s : State) (fn : Nat) (f : Fn) : (s.setFn fn f).pending = s.pending := rfl
@[simp] theorem State.setFn_freeCtr (s : State) (fn : Nat) (f : Fn) : (s.setFn fn f).freeCtr = s.freeCtr := rfl
@[simp] theorem State.setFn_time (s : State) (fn : Nat) (f : Fn) : (s.setFn fn f).time = s.time := rfl
@[simp] theorem State.setFn_dev (s : State) (fn : Nat) (f : Fn) : (s.setFn fn f).dev = s.dev := rfl
@[simp] theorem State.setFn_erg (s : State) (fn : Nat) (f : Fn) : (s.setFn fn f).erg = s.erg := rfl
@[simp] theorem State.setFn_ports (s : State) (fn : Nat) (f : Fn) : (s.setFn fn f).ports = s.ports := rfl
@[simp] theorem State.setFn_cls (s : State) (fn : Nat) (f : Fn) : (s.setFn fn f).cls = s.cls := rfl
@[simp] theorem State.setFn_pools (s : State) (fn : Nat) (f : Fn) : (s.setFn fn f).pools = s.pools := rfl
@[simp] theorem State.setFn_tm (s : State) (fn : Nat) (f : Fn) : (s.setFn fn f).tm = s.tm := rfl
@[simp] theorem State.setFn_boxes (s : State) (fn : Nat) (f : Fn) : (s.setFn fn f).boxes = s.boxes := rfl
@[simp] theorem State.setFn_mbadel (s : State) (fn : Nat) (f : Fn) : (s.setFn fn f).mbadel = s.mbadel := rfl
@[simp] theorem State.setFn_queues (s : State) (fn : Nat) (f : Fn) : (s.setFn fn f).queues = s.queues := rfl
@[simp] theorem State.setFn_ten (s : State) (fn : Nat) (f : Fn) : (s.setFn fn f).ten = s.ten := rfl
@[simp] theorem State.setFn_sto (s : State) (fn : Nat) (f : Fn) : (s.setFn fn f).sto = s.sto := rfl
@[simp] theorem State.setFn_rdma (s : State) (fn : Nat) (f : Fn) : (s.setFn fn f).rdma = s.rdma := rfl
@[simp] theorem State.setFn_accel (s : State) (fn : Nat) (f : Fn) : (s.setFn fn f).accel = s.accel := rfl
@[simp] theorem State.setFn_events (s : State) (fn : Nat) (f : Fn) : (s.setFn fn f).events = s.events := rfl
@[simp] theorem State.setFn_repair (s : State) (fn : Nat) (f : Fn) : (s.setFn fn f).repair = s.repair := rfl
@[simp] theorem State.setFn_nv (s : State) (fn : Nat) (f : Fn) : (s.setFn fn f).nv = s.nv := rfl
@[simp] theorem State.setFn_boot (s : State) (fn : Nat) (f : Fn) : (s.setFn fn f).boot = s.boot := rfl
@[simp] theorem State.setFn_stack (s : State) (fn : Nat) (f : Fn) : (s.setFn fn f).stack = s.stack := rfl
@[simp] theorem State.setFn_power (s : State) (fn : Nat) (f : Fn) : (s.setFn fn f).power = s.power := rfl
@[simp] theorem State.setFn_monitor (s : State) (fn : Nat) (f : Fn) : (s.setFn fn f).monitor = s.monitor := rfl
@[simp] theorem State.setFn_dram (s : State) (fn : Nat) (f : Fn) : (s.setFn fn f).dram = s.dram := rfl
@[simp] theorem State.setFn_hostMem (s : State) (fn : Nat) (f : Fn) : (s.setFn fn f).hostMem = s.hostMem := rfl

/-! Replacing an instance entry. -/

@[simp] theorem State.setInst_pending (s : State) (n : Nat) (i : Option Inst) : (s.setInst n i).pending = s.pending := rfl
@[simp] theorem State.setInst_freeCtr (s : State) (n : Nat) (i : Option Inst) : (s.setInst n i).freeCtr = s.freeCtr := rfl
@[simp] theorem State.setInst_time (s : State) (n : Nat) (i : Option Inst) : (s.setInst n i).time = s.time := rfl
@[simp] theorem State.setInst_dev (s : State) (n : Nat) (i : Option Inst) : (s.setInst n i).dev = s.dev := rfl
@[simp] theorem State.setInst_erg (s : State) (n : Nat) (i : Option Inst) : (s.setInst n i).erg = s.erg := rfl
@[simp] theorem State.setInst_ports (s : State) (n : Nat) (i : Option Inst) : (s.setInst n i).ports = s.ports := rfl
@[simp] theorem State.setInst_cls (s : State) (n : Nat) (i : Option Inst) : (s.setInst n i).cls = s.cls := rfl
@[simp] theorem State.setInst_pools (s : State) (n : Nat) (i : Option Inst) : (s.setInst n i).pools = s.pools := rfl
@[simp] theorem State.setInst_tm (s : State) (n : Nat) (i : Option Inst) : (s.setInst n i).tm = s.tm := rfl
@[simp] theorem State.setInst_pcie (s : State) (n : Nat) (i : Option Inst) : (s.setInst n i).pcie = s.pcie := rfl
@[simp] theorem State.setInst_boxes (s : State) (n : Nat) (i : Option Inst) : (s.setInst n i).boxes = s.boxes := rfl
@[simp] theorem State.setInst_mbadel (s : State) (n : Nat) (i : Option Inst) : (s.setInst n i).mbadel = s.mbadel := rfl
@[simp] theorem State.setInst_queues (s : State) (n : Nat) (i : Option Inst) : (s.setInst n i).queues = s.queues := rfl
@[simp] theorem State.setInst_sto (s : State) (n : Nat) (i : Option Inst) : (s.setInst n i).sto = s.sto := rfl
@[simp] theorem State.setInst_rdma (s : State) (n : Nat) (i : Option Inst) : (s.setInst n i).rdma = s.rdma := rfl
@[simp] theorem State.setInst_accel (s : State) (n : Nat) (i : Option Inst) : (s.setInst n i).accel = s.accel := rfl
@[simp] theorem State.setInst_events (s : State) (n : Nat) (i : Option Inst) : (s.setInst n i).events = s.events := rfl
@[simp] theorem State.setInst_repair (s : State) (n : Nat) (i : Option Inst) : (s.setInst n i).repair = s.repair := rfl
@[simp] theorem State.setInst_nv (s : State) (n : Nat) (i : Option Inst) : (s.setInst n i).nv = s.nv := rfl
@[simp] theorem State.setInst_boot (s : State) (n : Nat) (i : Option Inst) : (s.setInst n i).boot = s.boot := rfl
@[simp] theorem State.setInst_stack (s : State) (n : Nat) (i : Option Inst) : (s.setInst n i).stack = s.stack := rfl
@[simp] theorem State.setInst_power (s : State) (n : Nat) (i : Option Inst) : (s.setInst n i).power = s.power := rfl
@[simp] theorem State.setInst_monitor (s : State) (n : Nat) (i : Option Inst) : (s.setInst n i).monitor = s.monitor := rfl
@[simp] theorem State.setInst_dram (s : State) (n : Nat) (i : Option Inst) : (s.setInst n i).dram = s.dram := rfl
@[simp] theorem State.setInst_hostMem (s : State) (n : Nat) (i : Option Inst) : (s.setInst n i).hostMem = s.hostMem := rfl

/-! Replacing an instance entry. -/

@[simp] theorem State.modInst_pending (s : State) (n : Nat) (f : Inst → Inst) : (s.modInst n f).pending = s.pending := by unfold State.modInst; split <;> rfl
@[simp] theorem State.modInst_freeCtr (s : State) (n : Nat) (f : Inst → Inst) : (s.modInst n f).freeCtr = s.freeCtr := by unfold State.modInst; split <;> rfl
@[simp] theorem State.modInst_time (s : State) (n : Nat) (f : Inst → Inst) : (s.modInst n f).time = s.time := by unfold State.modInst; split <;> rfl
@[simp] theorem State.modInst_dev (s : State) (n : Nat) (f : Inst → Inst) : (s.modInst n f).dev = s.dev := by unfold State.modInst; split <;> rfl
@[simp] theorem State.modInst_erg (s : State) (n : Nat) (f : Inst → Inst) : (s.modInst n f).erg = s.erg := by unfold State.modInst; split <;> rfl
@[simp] theorem State.modInst_ports (s : State) (n : Nat) (f : Inst → Inst) : (s.modInst n f).ports = s.ports := by unfold State.modInst; split <;> rfl
@[simp] theorem State.modInst_cls (s : State) (n : Nat) (f : Inst → Inst) : (s.modInst n f).cls = s.cls := by unfold State.modInst; split <;> rfl
@[simp] theorem State.modInst_pools (s : State) (n : Nat) (f : Inst → Inst) : (s.modInst n f).pools = s.pools := by unfold State.modInst; split <;> rfl
@[simp] theorem State.modInst_tm (s : State) (n : Nat) (f : Inst → Inst) : (s.modInst n f).tm = s.tm := by unfold State.modInst; split <;> rfl
@[simp] theorem State.modInst_pcie (s : State) (n : Nat) (f : Inst → Inst) : (s.modInst n f).pcie = s.pcie := by unfold State.modInst; split <;> rfl
@[simp] theorem State.modInst_boxes (s : State) (n : Nat) (f : Inst → Inst) : (s.modInst n f).boxes = s.boxes := by unfold State.modInst; split <;> rfl
@[simp] theorem State.modInst_mbadel (s : State) (n : Nat) (f : Inst → Inst) : (s.modInst n f).mbadel = s.mbadel := by unfold State.modInst; split <;> rfl
@[simp] theorem State.modInst_queues (s : State) (n : Nat) (f : Inst → Inst) : (s.modInst n f).queues = s.queues := by unfold State.modInst; split <;> rfl
@[simp] theorem State.modInst_sto (s : State) (n : Nat) (f : Inst → Inst) : (s.modInst n f).sto = s.sto := by unfold State.modInst; split <;> rfl
@[simp] theorem State.modInst_rdma (s : State) (n : Nat) (f : Inst → Inst) : (s.modInst n f).rdma = s.rdma := by unfold State.modInst; split <;> rfl
@[simp] theorem State.modInst_accel (s : State) (n : Nat) (f : Inst → Inst) : (s.modInst n f).accel = s.accel := by unfold State.modInst; split <;> rfl
@[simp] theorem State.modInst_events (s : State) (n : Nat) (f : Inst → Inst) : (s.modInst n f).events = s.events := by unfold State.modInst; split <;> rfl
@[simp] theorem State.modInst_repair (s : State) (n : Nat) (f : Inst → Inst) : (s.modInst n f).repair = s.repair := by unfold State.modInst; split <;> rfl
@[simp] theorem State.modInst_nv (s : State) (n : Nat) (f : Inst → Inst) : (s.modInst n f).nv = s.nv := by unfold State.modInst; split <;> rfl
@[simp] theorem State.modInst_boot (s : State) (n : Nat) (f : Inst → Inst) : (s.modInst n f).boot = s.boot := by unfold State.modInst; split <;> rfl
@[simp] theorem State.modInst_stack (s : State) (n : Nat) (f : Inst → Inst) : (s.modInst n f).stack = s.stack := by unfold State.modInst; split <;> rfl
@[simp] theorem State.modInst_power (s : State) (n : Nat) (f : Inst → Inst) : (s.modInst n f).power = s.power := by unfold State.modInst; split <;> rfl
@[simp] theorem State.modInst_monitor (s : State) (n : Nat) (f : Inst → Inst) : (s.modInst n f).monitor = s.monitor := by unfold State.modInst; split <;> rfl
@[simp] theorem State.modInst_dram (s : State) (n : Nat) (f : Inst → Inst) : (s.modInst n f).dram = s.dram := by unfold State.modInst; split <;> rfl
@[simp] theorem State.modInst_hostMem (s : State) (n : Nat) (f : Inst → Inst) : (s.modInst n f).hostMem = s.hostMem := by unfold State.modInst; split <;> rfl

/-! Replacing a mailbox. -/

@[simp] theorem State.setMb_pending (s : State) (n : Nat) (m : Mailbox) : (s.setMb n m).pending = s.pending := rfl
@[simp] theorem State.setMb_freeCtr (s : State) (n : Nat) (m : Mailbox) : (s.setMb n m).freeCtr = s.freeCtr := rfl
@[simp] theorem State.setMb_time (s : State) (n : Nat) (m : Mailbox) : (s.setMb n m).time = s.time := rfl
@[simp] theorem State.setMb_dev (s : State) (n : Nat) (m : Mailbox) : (s.setMb n m).dev = s.dev := rfl
@[simp] theorem State.setMb_erg (s : State) (n : Nat) (m : Mailbox) : (s.setMb n m).erg = s.erg := rfl
@[simp] theorem State.setMb_ports (s : State) (n : Nat) (m : Mailbox) : (s.setMb n m).ports = s.ports := rfl
@[simp] theorem State.setMb_cls (s : State) (n : Nat) (m : Mailbox) : (s.setMb n m).cls = s.cls := rfl
@[simp] theorem State.setMb_pools (s : State) (n : Nat) (m : Mailbox) : (s.setMb n m).pools = s.pools := rfl
@[simp] theorem State.setMb_tm (s : State) (n : Nat) (m : Mailbox) : (s.setMb n m).tm = s.tm := rfl
@[simp] theorem State.setMb_pcie (s : State) (n : Nat) (m : Mailbox) : (s.setMb n m).pcie = s.pcie := rfl
@[simp] theorem State.setMb_mbadel (s : State) (n : Nat) (m : Mailbox) : (s.setMb n m).mbadel = s.mbadel := rfl
@[simp] theorem State.setMb_queues (s : State) (n : Nat) (m : Mailbox) : (s.setMb n m).queues = s.queues := rfl
@[simp] theorem State.setMb_ten (s : State) (n : Nat) (m : Mailbox) : (s.setMb n m).ten = s.ten := rfl
@[simp] theorem State.setMb_sto (s : State) (n : Nat) (m : Mailbox) : (s.setMb n m).sto = s.sto := rfl
@[simp] theorem State.setMb_rdma (s : State) (n : Nat) (m : Mailbox) : (s.setMb n m).rdma = s.rdma := rfl
@[simp] theorem State.setMb_accel (s : State) (n : Nat) (m : Mailbox) : (s.setMb n m).accel = s.accel := rfl
@[simp] theorem State.setMb_events (s : State) (n : Nat) (m : Mailbox) : (s.setMb n m).events = s.events := rfl
@[simp] theorem State.setMb_repair (s : State) (n : Nat) (m : Mailbox) : (s.setMb n m).repair = s.repair := rfl
@[simp] theorem State.setMb_nv (s : State) (n : Nat) (m : Mailbox) : (s.setMb n m).nv = s.nv := rfl
@[simp] theorem State.setMb_boot (s : State) (n : Nat) (m : Mailbox) : (s.setMb n m).boot = s.boot := rfl
@[simp] theorem State.setMb_stack (s : State) (n : Nat) (m : Mailbox) : (s.setMb n m).stack = s.stack := rfl
@[simp] theorem State.setMb_power (s : State) (n : Nat) (m : Mailbox) : (s.setMb n m).power = s.power := rfl
@[simp] theorem State.setMb_monitor (s : State) (n : Nat) (m : Mailbox) : (s.setMb n m).monitor = s.monitor := rfl
@[simp] theorem State.setMb_dram (s : State) (n : Nat) (m : Mailbox) : (s.setMb n m).dram = s.dram := rfl
@[simp] theorem State.setMb_hostMem (s : State) (n : Nat) (m : Mailbox) : (s.setMb n m).hostMem = s.hostMem := rfl

/-! Replacing a lock. -/

@[simp] theorem State.setLock_pending (s : State) (k owner : Nat) : (s.setLock k owner).pending = s.pending := rfl
@[simp] theorem State.setLock_freeCtr (s : State) (k owner : Nat) : (s.setLock k owner).freeCtr = s.freeCtr := rfl
@[simp] theorem State.setLock_time (s : State) (k owner : Nat) : (s.setLock k owner).time = s.time := rfl
@[simp] theorem State.setLock_dev (s : State) (k owner : Nat) : (s.setLock k owner).dev = s.dev := rfl
@[simp] theorem State.setLock_erg (s : State) (k owner : Nat) : (s.setLock k owner).erg = s.erg := rfl
@[simp] theorem State.setLock_ports (s : State) (k owner : Nat) : (s.setLock k owner).ports = s.ports := rfl
@[simp] theorem State.setLock_cls (s : State) (k owner : Nat) : (s.setLock k owner).cls = s.cls := rfl
@[simp] theorem State.setLock_pools (s : State) (k owner : Nat) : (s.setLock k owner).pools = s.pools := rfl
@[simp] theorem State.setLock_tm (s : State) (k owner : Nat) : (s.setLock k owner).tm = s.tm := rfl
@[simp] theorem State.setLock_pcie (s : State) (k owner : Nat) : (s.setLock k owner).pcie = s.pcie := rfl
@[simp] theorem State.setLock_mbadel (s : State) (k owner : Nat) : (s.setLock k owner).mbadel = s.mbadel := rfl
@[simp] theorem State.setLock_queues (s : State) (k owner : Nat) : (s.setLock k owner).queues = s.queues := rfl
@[simp] theorem State.setLock_ten (s : State) (k owner : Nat) : (s.setLock k owner).ten = s.ten := rfl
@[simp] theorem State.setLock_sto (s : State) (k owner : Nat) : (s.setLock k owner).sto = s.sto := rfl
@[simp] theorem State.setLock_rdma (s : State) (k owner : Nat) : (s.setLock k owner).rdma = s.rdma := rfl
@[simp] theorem State.setLock_accel (s : State) (k owner : Nat) : (s.setLock k owner).accel = s.accel := rfl
@[simp] theorem State.setLock_events (s : State) (k owner : Nat) : (s.setLock k owner).events = s.events := rfl
@[simp] theorem State.setLock_repair (s : State) (k owner : Nat) : (s.setLock k owner).repair = s.repair := rfl
@[simp] theorem State.setLock_nv (s : State) (k owner : Nat) : (s.setLock k owner).nv = s.nv := rfl
@[simp] theorem State.setLock_boot (s : State) (k owner : Nat) : (s.setLock k owner).boot = s.boot := rfl
@[simp] theorem State.setLock_stack (s : State) (k owner : Nat) : (s.setLock k owner).stack = s.stack := rfl
@[simp] theorem State.setLock_power (s : State) (k owner : Nat) : (s.setLock k owner).power = s.power := rfl
@[simp] theorem State.setLock_monitor (s : State) (k owner : Nat) : (s.setLock k owner).monitor = s.monitor := rfl
@[simp] theorem State.setLock_dram (s : State) (k owner : Nat) : (s.setLock k owner).dram = s.dram := rfl
@[simp] theorem State.setLock_hostMem (s : State) (k owner : Nat) : (s.setLock k owner).hostMem = s.hostMem := rfl

/-! Replacing an operation-table entry. -/

@[simp] theorem State.setOp_pending (s : State) (n : Nat) (o : Option Operation) : (s.setOp n o).pending = s.pending := rfl
@[simp] theorem State.setOp_freeCtr (s : State) (n : Nat) (o : Option Operation) : (s.setOp n o).freeCtr = s.freeCtr := rfl
@[simp] theorem State.setOp_time (s : State) (n : Nat) (o : Option Operation) : (s.setOp n o).time = s.time := rfl
@[simp] theorem State.setOp_dev (s : State) (n : Nat) (o : Option Operation) : (s.setOp n o).dev = s.dev := rfl
@[simp] theorem State.setOp_erg (s : State) (n : Nat) (o : Option Operation) : (s.setOp n o).erg = s.erg := rfl
@[simp] theorem State.setOp_ports (s : State) (n : Nat) (o : Option Operation) : (s.setOp n o).ports = s.ports := rfl
@[simp] theorem State.setOp_cls (s : State) (n : Nat) (o : Option Operation) : (s.setOp n o).cls = s.cls := rfl
@[simp] theorem State.setOp_pools (s : State) (n : Nat) (o : Option Operation) : (s.setOp n o).pools = s.pools := rfl
@[simp] theorem State.setOp_tm (s : State) (n : Nat) (o : Option Operation) : (s.setOp n o).tm = s.tm := rfl
@[simp] theorem State.setOp_pcie (s : State) (n : Nat) (o : Option Operation) : (s.setOp n o).pcie = s.pcie := rfl
@[simp] theorem State.setOp_boxes (s : State) (n : Nat) (o : Option Operation) : (s.setOp n o).boxes = s.boxes := rfl
@[simp] theorem State.setOp_mbadel (s : State) (n : Nat) (o : Option Operation) : (s.setOp n o).mbadel = s.mbadel := rfl
@[simp] theorem State.setOp_ten (s : State) (n : Nat) (o : Option Operation) : (s.setOp n o).ten = s.ten := rfl
@[simp] theorem State.setOp_sto (s : State) (n : Nat) (o : Option Operation) : (s.setOp n o).sto = s.sto := rfl
@[simp] theorem State.setOp_rdma (s : State) (n : Nat) (o : Option Operation) : (s.setOp n o).rdma = s.rdma := rfl
@[simp] theorem State.setOp_accel (s : State) (n : Nat) (o : Option Operation) : (s.setOp n o).accel = s.accel := rfl
@[simp] theorem State.setOp_events (s : State) (n : Nat) (o : Option Operation) : (s.setOp n o).events = s.events := rfl
@[simp] theorem State.setOp_repair (s : State) (n : Nat) (o : Option Operation) : (s.setOp n o).repair = s.repair := rfl
@[simp] theorem State.setOp_nv (s : State) (n : Nat) (o : Option Operation) : (s.setOp n o).nv = s.nv := rfl
@[simp] theorem State.setOp_boot (s : State) (n : Nat) (o : Option Operation) : (s.setOp n o).boot = s.boot := rfl
@[simp] theorem State.setOp_stack (s : State) (n : Nat) (o : Option Operation) : (s.setOp n o).stack = s.stack := rfl
@[simp] theorem State.setOp_power (s : State) (n : Nat) (o : Option Operation) : (s.setOp n o).power = s.power := rfl
@[simp] theorem State.setOp_monitor (s : State) (n : Nat) (o : Option Operation) : (s.setOp n o).monitor = s.monitor := rfl
@[simp] theorem State.setOp_dram (s : State) (n : Nat) (o : Option Operation) : (s.setOp n o).dram = s.dram := rfl
@[simp] theorem State.setOp_hostMem (s : State) (n : Nat) (o : Option Operation) : (s.setOp n o).hostMem = s.hostMem := rfl

/-! Replacing a queue. -/

@[simp] theorem State.setQueue_pending (s : State) (key : Nat) (q : Option Queue) : (s.setQueue key q).pending = s.pending := rfl
@[simp] theorem State.setQueue_freeCtr (s : State) (key : Nat) (q : Option Queue) : (s.setQueue key q).freeCtr = s.freeCtr := rfl
@[simp] theorem State.setQueue_time (s : State) (key : Nat) (q : Option Queue) : (s.setQueue key q).time = s.time := rfl
@[simp] theorem State.setQueue_dev (s : State) (key : Nat) (q : Option Queue) : (s.setQueue key q).dev = s.dev := rfl
@[simp] theorem State.setQueue_erg (s : State) (key : Nat) (q : Option Queue) : (s.setQueue key q).erg = s.erg := rfl
@[simp] theorem State.setQueue_ports (s : State) (key : Nat) (q : Option Queue) : (s.setQueue key q).ports = s.ports := rfl
@[simp] theorem State.setQueue_cls (s : State) (key : Nat) (q : Option Queue) : (s.setQueue key q).cls = s.cls := rfl
@[simp] theorem State.setQueue_pools (s : State) (key : Nat) (q : Option Queue) : (s.setQueue key q).pools = s.pools := rfl
@[simp] theorem State.setQueue_tm (s : State) (key : Nat) (q : Option Queue) : (s.setQueue key q).tm = s.tm := rfl
@[simp] theorem State.setQueue_pcie (s : State) (key : Nat) (q : Option Queue) : (s.setQueue key q).pcie = s.pcie := rfl
@[simp] theorem State.setQueue_boxes (s : State) (key : Nat) (q : Option Queue) : (s.setQueue key q).boxes = s.boxes := rfl
@[simp] theorem State.setQueue_mbadel (s : State) (key : Nat) (q : Option Queue) : (s.setQueue key q).mbadel = s.mbadel := rfl
@[simp] theorem State.setQueue_ten (s : State) (key : Nat) (q : Option Queue) : (s.setQueue key q).ten = s.ten := rfl
@[simp] theorem State.setQueue_sto (s : State) (key : Nat) (q : Option Queue) : (s.setQueue key q).sto = s.sto := rfl
@[simp] theorem State.setQueue_rdma (s : State) (key : Nat) (q : Option Queue) : (s.setQueue key q).rdma = s.rdma := rfl
@[simp] theorem State.setQueue_accel (s : State) (key : Nat) (q : Option Queue) : (s.setQueue key q).accel = s.accel := rfl
@[simp] theorem State.setQueue_events (s : State) (key : Nat) (q : Option Queue) : (s.setQueue key q).events = s.events := rfl
@[simp] theorem State.setQueue_repair (s : State) (key : Nat) (q : Option Queue) : (s.setQueue key q).repair = s.repair := rfl
@[simp] theorem State.setQueue_nv (s : State) (key : Nat) (q : Option Queue) : (s.setQueue key q).nv = s.nv := rfl
@[simp] theorem State.setQueue_boot (s : State) (key : Nat) (q : Option Queue) : (s.setQueue key q).boot = s.boot := rfl
@[simp] theorem State.setQueue_stack (s : State) (key : Nat) (q : Option Queue) : (s.setQueue key q).stack = s.stack := rfl
@[simp] theorem State.setQueue_power (s : State) (key : Nat) (q : Option Queue) : (s.setQueue key q).power = s.power := rfl
@[simp] theorem State.setQueue_monitor (s : State) (key : Nat) (q : Option Queue) : (s.setQueue key q).monitor = s.monitor := rfl
@[simp] theorem State.setQueue_dram (s : State) (key : Nat) (q : Option Queue) : (s.setQueue key q).dram = s.dram := rfl
@[simp] theorem State.setQueue_hostMem (s : State) (key : Nat) (q : Option Queue) : (s.setQueue key q).hostMem = s.hostMem := rfl

/-! Replacing a connection context. -/

@[simp] theorem State.setCtx_pending (s : State) (qpn : Nat) (c : Option Ctx) : (s.setCtx qpn c).pending = s.pending := rfl
@[simp] theorem State.setCtx_freeCtr (s : State) (qpn : Nat) (c : Option Ctx) : (s.setCtx qpn c).freeCtr = s.freeCtr := rfl
@[simp] theorem State.setCtx_time (s : State) (qpn : Nat) (c : Option Ctx) : (s.setCtx qpn c).time = s.time := rfl
@[simp] theorem State.setCtx_dev (s : State) (qpn : Nat) (c : Option Ctx) : (s.setCtx qpn c).dev = s.dev := rfl
@[simp] theorem State.setCtx_erg (s : State) (qpn : Nat) (c : Option Ctx) : (s.setCtx qpn c).erg = s.erg := rfl
@[simp] theorem State.setCtx_ports (s : State) (qpn : Nat) (c : Option Ctx) : (s.setCtx qpn c).ports = s.ports := rfl
@[simp] theorem State.setCtx_cls (s : State) (qpn : Nat) (c : Option Ctx) : (s.setCtx qpn c).cls = s.cls := rfl
@[simp] theorem State.setCtx_pools (s : State) (qpn : Nat) (c : Option Ctx) : (s.setCtx qpn c).pools = s.pools := rfl
@[simp] theorem State.setCtx_tm (s : State) (qpn : Nat) (c : Option Ctx) : (s.setCtx qpn c).tm = s.tm := rfl
@[simp] theorem State.setCtx_pcie (s : State) (qpn : Nat) (c : Option Ctx) : (s.setCtx qpn c).pcie = s.pcie := rfl
@[simp] theorem State.setCtx_boxes (s : State) (qpn : Nat) (c : Option Ctx) : (s.setCtx qpn c).boxes = s.boxes := rfl
@[simp] theorem State.setCtx_mbadel (s : State) (qpn : Nat) (c : Option Ctx) : (s.setCtx qpn c).mbadel = s.mbadel := rfl
@[simp] theorem State.setCtx_queues (s : State) (qpn : Nat) (c : Option Ctx) : (s.setCtx qpn c).queues = s.queues := rfl
@[simp] theorem State.setCtx_ten (s : State) (qpn : Nat) (c : Option Ctx) : (s.setCtx qpn c).ten = s.ten := rfl
@[simp] theorem State.setCtx_sto (s : State) (qpn : Nat) (c : Option Ctx) : (s.setCtx qpn c).sto = s.sto := rfl
@[simp] theorem State.setCtx_accel (s : State) (qpn : Nat) (c : Option Ctx) : (s.setCtx qpn c).accel = s.accel := rfl
@[simp] theorem State.setCtx_events (s : State) (qpn : Nat) (c : Option Ctx) : (s.setCtx qpn c).events = s.events := rfl
@[simp] theorem State.setCtx_repair (s : State) (qpn : Nat) (c : Option Ctx) : (s.setCtx qpn c).repair = s.repair := rfl
@[simp] theorem State.setCtx_nv (s : State) (qpn : Nat) (c : Option Ctx) : (s.setCtx qpn c).nv = s.nv := rfl
@[simp] theorem State.setCtx_boot (s : State) (qpn : Nat) (c : Option Ctx) : (s.setCtx qpn c).boot = s.boot := rfl
@[simp] theorem State.setCtx_stack (s : State) (qpn : Nat) (c : Option Ctx) : (s.setCtx qpn c).stack = s.stack := rfl
@[simp] theorem State.setCtx_power (s : State) (qpn : Nat) (c : Option Ctx) : (s.setCtx qpn c).power = s.power := rfl
@[simp] theorem State.setCtx_monitor (s : State) (qpn : Nat) (c : Option Ctx) : (s.setCtx qpn c).monitor = s.monitor := rfl
@[simp] theorem State.setCtx_dram (s : State) (qpn : Nat) (c : Option Ctx) : (s.setCtx qpn c).dram = s.dram := rfl
@[simp] theorem State.setCtx_hostMem (s : State) (qpn : Nat) (c : Option Ctx) : (s.setCtx qpn c).hostMem = s.hostMem := rfl

/-! Replacing a registration. -/

@[simp] theorem State.setReg_pending (s : State) (i : Nat) (r : Reg) : (s.setReg i r).pending = s.pending := rfl
@[simp] theorem State.setReg_freeCtr (s : State) (i : Nat) (r : Reg) : (s.setReg i r).freeCtr = s.freeCtr := rfl
@[simp] theorem State.setReg_time (s : State) (i : Nat) (r : Reg) : (s.setReg i r).time = s.time := rfl
@[simp] theorem State.setReg_dev (s : State) (i : Nat) (r : Reg) : (s.setReg i r).dev = s.dev := rfl
@[simp] theorem State.setReg_erg (s : State) (i : Nat) (r : Reg) : (s.setReg i r).erg = s.erg := rfl
@[simp] theorem State.setReg_ports (s : State) (i : Nat) (r : Reg) : (s.setReg i r).ports = s.ports := rfl
@[simp] theorem State.setReg_cls (s : State) (i : Nat) (r : Reg) : (s.setReg i r).cls = s.cls := rfl
@[simp] theorem State.setReg_pools (s : State) (i : Nat) (r : Reg) : (s.setReg i r).pools = s.pools := rfl
@[simp] theorem State.setReg_tm (s : State) (i : Nat) (r : Reg) : (s.setReg i r).tm = s.tm := rfl
@[simp] theorem State.setReg_pcie (s : State) (i : Nat) (r : Reg) : (s.setReg i r).pcie = s.pcie := rfl
@[simp] theorem State.setReg_boxes (s : State) (i : Nat) (r : Reg) : (s.setReg i r).boxes = s.boxes := rfl
@[simp] theorem State.setReg_mbadel (s : State) (i : Nat) (r : Reg) : (s.setReg i r).mbadel = s.mbadel := rfl
@[simp] theorem State.setReg_queues (s : State) (i : Nat) (r : Reg) : (s.setReg i r).queues = s.queues := rfl
@[simp] theorem State.setReg_ten (s : State) (i : Nat) (r : Reg) : (s.setReg i r).ten = s.ten := rfl
@[simp] theorem State.setReg_sto (s : State) (i : Nat) (r : Reg) : (s.setReg i r).sto = s.sto := rfl
@[simp] theorem State.setReg_accel (s : State) (i : Nat) (r : Reg) : (s.setReg i r).accel = s.accel := rfl
@[simp] theorem State.setReg_events (s : State) (i : Nat) (r : Reg) : (s.setReg i r).events = s.events := rfl
@[simp] theorem State.setReg_repair (s : State) (i : Nat) (r : Reg) : (s.setReg i r).repair = s.repair := rfl
@[simp] theorem State.setReg_nv (s : State) (i : Nat) (r : Reg) : (s.setReg i r).nv = s.nv := rfl
@[simp] theorem State.setReg_boot (s : State) (i : Nat) (r : Reg) : (s.setReg i r).boot = s.boot := rfl
@[simp] theorem State.setReg_stack (s : State) (i : Nat) (r : Reg) : (s.setReg i r).stack = s.stack := rfl
@[simp] theorem State.setReg_power (s : State) (i : Nat) (r : Reg) : (s.setReg i r).power = s.power := rfl
@[simp] theorem State.setReg_monitor (s : State) (i : Nat) (r : Reg) : (s.setReg i r).monitor = s.monitor := rfl
@[simp] theorem State.setReg_dram (s : State) (i : Nat) (r : Reg) : (s.setReg i r).dram = s.dram := rfl
@[simp] theorem State.setReg_hostMem (s : State) (i : Nat) (r : Reg) : (s.setReg i r).hostMem = s.hostMem := rfl

/-! Replacing a key context. -/

@[simp] theorem State.setKey_pending (s : State) (n : Nat) (c : KeyCtx) : (s.setKey n c).pending = s.pending := rfl
@[simp] theorem State.setKey_freeCtr (s : State) (n : Nat) (c : KeyCtx) : (s.setKey n c).freeCtr = s.freeCtr := rfl
@[simp] theorem State.setKey_time (s : State) (n : Nat) (c : KeyCtx) : (s.setKey n c).time = s.time := rfl
@[simp] theorem State.setKey_dev (s : State) (n : Nat) (c : KeyCtx) : (s.setKey n c).dev = s.dev := rfl
@[simp] theorem State.setKey_erg (s : State) (n : Nat) (c : KeyCtx) : (s.setKey n c).erg = s.erg := rfl
@[simp] theorem State.setKey_ports (s : State) (n : Nat) (c : KeyCtx) : (s.setKey n c).ports = s.ports := rfl
@[simp] theorem State.setKey_cls (s : State) (n : Nat) (c : KeyCtx) : (s.setKey n c).cls = s.cls := rfl
@[simp] theorem State.setKey_pools (s : State) (n : Nat) (c : KeyCtx) : (s.setKey n c).pools = s.pools := rfl
@[simp] theorem State.setKey_tm (s : State) (n : Nat) (c : KeyCtx) : (s.setKey n c).tm = s.tm := rfl
@[simp] theorem State.setKey_pcie (s : State) (n : Nat) (c : KeyCtx) : (s.setKey n c).pcie = s.pcie := rfl
@[simp] theorem State.setKey_boxes (s : State) (n : Nat) (c : KeyCtx) : (s.setKey n c).boxes = s.boxes := rfl
@[simp] theorem State.setKey_mbadel (s : State) (n : Nat) (c : KeyCtx) : (s.setKey n c).mbadel = s.mbadel := rfl
@[simp] theorem State.setKey_queues (s : State) (n : Nat) (c : KeyCtx) : (s.setKey n c).queues = s.queues := rfl
@[simp] theorem State.setKey_ten (s : State) (n : Nat) (c : KeyCtx) : (s.setKey n c).ten = s.ten := rfl
@[simp] theorem State.setKey_sto (s : State) (n : Nat) (c : KeyCtx) : (s.setKey n c).sto = s.sto := rfl
@[simp] theorem State.setKey_rdma (s : State) (n : Nat) (c : KeyCtx) : (s.setKey n c).rdma = s.rdma := rfl
@[simp] theorem State.setKey_events (s : State) (n : Nat) (c : KeyCtx) : (s.setKey n c).events = s.events := rfl
@[simp] theorem State.setKey_repair (s : State) (n : Nat) (c : KeyCtx) : (s.setKey n c).repair = s.repair := rfl
@[simp] theorem State.setKey_nv (s : State) (n : Nat) (c : KeyCtx) : (s.setKey n c).nv = s.nv := rfl
@[simp] theorem State.setKey_boot (s : State) (n : Nat) (c : KeyCtx) : (s.setKey n c).boot = s.boot := rfl
@[simp] theorem State.setKey_stack (s : State) (n : Nat) (c : KeyCtx) : (s.setKey n c).stack = s.stack := rfl
@[simp] theorem State.setKey_power (s : State) (n : Nat) (c : KeyCtx) : (s.setKey n c).power = s.power := rfl
@[simp] theorem State.setKey_monitor (s : State) (n : Nat) (c : KeyCtx) : (s.setKey n c).monitor = s.monitor := rfl
@[simp] theorem State.setKey_dram (s : State) (n : Nat) (c : KeyCtx) : (s.setKey n c).dram = s.dram := rfl
@[simp] theorem State.setKey_hostMem (s : State) (n : Nat) (c : KeyCtx) : (s.setKey n c).hostMem = s.hostMem := rfl

/-! Replacing a backend. -/

@[simp] theorem State.setBackend_pending (s : State) (b : Nat) (v : Option Backend) : (s.setBackend b v).pending = s.pending := rfl
@[simp] theorem State.setBackend_freeCtr (s : State) (b : Nat) (v : Option Backend) : (s.setBackend b v).freeCtr = s.freeCtr := rfl
@[simp] theorem State.setBackend_time (s : State) (b : Nat) (v : Option Backend) : (s.setBackend b v).time = s.time := rfl
@[simp] theorem State.setBackend_dev (s : State) (b : Nat) (v : Option Backend) : (s.setBackend b v).dev = s.dev := rfl
@[simp] theorem State.setBackend_erg (s : State) (b : Nat) (v : Option Backend) : (s.setBackend b v).erg = s.erg := rfl
@[simp] theorem State.setBackend_ports (s : State) (b : Nat) (v : Option Backend) : (s.setBackend b v).ports = s.ports := rfl
@[simp] theorem State.setBackend_cls (s : State) (b : Nat) (v : Option Backend) : (s.setBackend b v).cls = s.cls := rfl
@[simp] theorem State.setBackend_pools (s : State) (b : Nat) (v : Option Backend) : (s.setBackend b v).pools = s.pools := rfl
@[simp] theorem State.setBackend_tm (s : State) (b : Nat) (v : Option Backend) : (s.setBackend b v).tm = s.tm := rfl
@[simp] theorem State.setBackend_pcie (s : State) (b : Nat) (v : Option Backend) : (s.setBackend b v).pcie = s.pcie := rfl
@[simp] theorem State.setBackend_boxes (s : State) (b : Nat) (v : Option Backend) : (s.setBackend b v).boxes = s.boxes := rfl
@[simp] theorem State.setBackend_mbadel (s : State) (b : Nat) (v : Option Backend) : (s.setBackend b v).mbadel = s.mbadel := rfl
@[simp] theorem State.setBackend_queues (s : State) (b : Nat) (v : Option Backend) : (s.setBackend b v).queues = s.queues := rfl
@[simp] theorem State.setBackend_ten (s : State) (b : Nat) (v : Option Backend) : (s.setBackend b v).ten = s.ten := rfl
@[simp] theorem State.setBackend_rdma (s : State) (b : Nat) (v : Option Backend) : (s.setBackend b v).rdma = s.rdma := rfl
@[simp] theorem State.setBackend_accel (s : State) (b : Nat) (v : Option Backend) : (s.setBackend b v).accel = s.accel := rfl
@[simp] theorem State.setBackend_events (s : State) (b : Nat) (v : Option Backend) : (s.setBackend b v).events = s.events := rfl
@[simp] theorem State.setBackend_repair (s : State) (b : Nat) (v : Option Backend) : (s.setBackend b v).repair = s.repair := rfl
@[simp] theorem State.setBackend_nv (s : State) (b : Nat) (v : Option Backend) : (s.setBackend b v).nv = s.nv := rfl
@[simp] theorem State.setBackend_boot (s : State) (b : Nat) (v : Option Backend) : (s.setBackend b v).boot = s.boot := rfl
@[simp] theorem State.setBackend_stack (s : State) (b : Nat) (v : Option Backend) : (s.setBackend b v).stack = s.stack := rfl
@[simp] theorem State.setBackend_power (s : State) (b : Nat) (v : Option Backend) : (s.setBackend b v).power = s.power := rfl
@[simp] theorem State.setBackend_monitor (s : State) (b : Nat) (v : Option Backend) : (s.setBackend b v).monitor = s.monitor := rfl
@[simp] theorem State.setBackend_dram (s : State) (b : Nat) (v : Option Backend) : (s.setBackend b v).dram = s.dram := rfl
@[simp] theorem State.setBackend_hostMem (s : State) (b : Nat) (v : Option Backend) : (s.setBackend b v).hostMem = s.hostMem := rfl

/-! Replacing a backend command. -/

@[simp] theorem State.setBcmd_pending (s : State) (r : Nat) (v : Option BackendCmd) : (s.setBcmd r v).pending = s.pending := rfl
@[simp] theorem State.setBcmd_freeCtr (s : State) (r : Nat) (v : Option BackendCmd) : (s.setBcmd r v).freeCtr = s.freeCtr := rfl
@[simp] theorem State.setBcmd_time (s : State) (r : Nat) (v : Option BackendCmd) : (s.setBcmd r v).time = s.time := rfl
@[simp] theorem State.setBcmd_dev (s : State) (r : Nat) (v : Option BackendCmd) : (s.setBcmd r v).dev = s.dev := rfl
@[simp] theorem State.setBcmd_erg (s : State) (r : Nat) (v : Option BackendCmd) : (s.setBcmd r v).erg = s.erg := rfl
@[simp] theorem State.setBcmd_ports (s : State) (r : Nat) (v : Option BackendCmd) : (s.setBcmd r v).ports = s.ports := rfl
@[simp] theorem State.setBcmd_cls (s : State) (r : Nat) (v : Option BackendCmd) : (s.setBcmd r v).cls = s.cls := rfl
@[simp] theorem State.setBcmd_pools (s : State) (r : Nat) (v : Option BackendCmd) : (s.setBcmd r v).pools = s.pools := rfl
@[simp] theorem State.setBcmd_tm (s : State) (r : Nat) (v : Option BackendCmd) : (s.setBcmd r v).tm = s.tm := rfl
@[simp] theorem State.setBcmd_pcie (s : State) (r : Nat) (v : Option BackendCmd) : (s.setBcmd r v).pcie = s.pcie := rfl
@[simp] theorem State.setBcmd_boxes (s : State) (r : Nat) (v : Option BackendCmd) : (s.setBcmd r v).boxes = s.boxes := rfl
@[simp] theorem State.setBcmd_mbadel (s : State) (r : Nat) (v : Option BackendCmd) : (s.setBcmd r v).mbadel = s.mbadel := rfl
@[simp] theorem State.setBcmd_queues (s : State) (r : Nat) (v : Option BackendCmd) : (s.setBcmd r v).queues = s.queues := rfl
@[simp] theorem State.setBcmd_ten (s : State) (r : Nat) (v : Option BackendCmd) : (s.setBcmd r v).ten = s.ten := rfl
@[simp] theorem State.setBcmd_rdma (s : State) (r : Nat) (v : Option BackendCmd) : (s.setBcmd r v).rdma = s.rdma := rfl
@[simp] theorem State.setBcmd_accel (s : State) (r : Nat) (v : Option BackendCmd) : (s.setBcmd r v).accel = s.accel := rfl
@[simp] theorem State.setBcmd_events (s : State) (r : Nat) (v : Option BackendCmd) : (s.setBcmd r v).events = s.events := rfl
@[simp] theorem State.setBcmd_repair (s : State) (r : Nat) (v : Option BackendCmd) : (s.setBcmd r v).repair = s.repair := rfl
@[simp] theorem State.setBcmd_nv (s : State) (r : Nat) (v : Option BackendCmd) : (s.setBcmd r v).nv = s.nv := rfl
@[simp] theorem State.setBcmd_boot (s : State) (r : Nat) (v : Option BackendCmd) : (s.setBcmd r v).boot = s.boot := rfl
@[simp] theorem State.setBcmd_stack (s : State) (r : Nat) (v : Option BackendCmd) : (s.setBcmd r v).stack = s.stack := rfl
@[simp] theorem State.setBcmd_power (s : State) (r : Nat) (v : Option BackendCmd) : (s.setBcmd r v).power = s.power := rfl
@[simp] theorem State.setBcmd_monitor (s : State) (r : Nat) (v : Option BackendCmd) : (s.setBcmd r v).monitor = s.monitor := rfl
@[simp] theorem State.setBcmd_dram (s : State) (r : Nat) (v : Option BackendCmd) : (s.setBcmd r v).dram = s.dram := rfl
@[simp] theorem State.setBcmd_hostMem (s : State) (r : Nat) (v : Option BackendCmd) : (s.setBcmd r v).hostMem = s.hostMem := rfl

/-! Replacing a namespace. -/

@[simp] theorem State.setNs_pending (s : State) (n : Nat) (v : Option Namespace) : (s.setNs n v).pending = s.pending := rfl
@[simp] theorem State.setNs_freeCtr (s : State) (n : Nat) (v : Option Namespace) : (s.setNs n v).freeCtr = s.freeCtr := rfl
@[simp] theorem State.setNs_time (s : State) (n : Nat) (v : Option Namespace) : (s.setNs n v).time = s.time := rfl
@[simp] theorem State.setNs_dev (s : State) (n : Nat) (v : Option Namespace) : (s.setNs n v).dev = s.dev := rfl
@[simp] theorem State.setNs_erg (s : State) (n : Nat) (v : Option Namespace) : (s.setNs n v).erg = s.erg := rfl
@[simp] theorem State.setNs_ports (s : State) (n : Nat) (v : Option Namespace) : (s.setNs n v).ports = s.ports := rfl
@[simp] theorem State.setNs_cls (s : State) (n : Nat) (v : Option Namespace) : (s.setNs n v).cls = s.cls := rfl
@[simp] theorem State.setNs_pools (s : State) (n : Nat) (v : Option Namespace) : (s.setNs n v).pools = s.pools := rfl
@[simp] theorem State.setNs_tm (s : State) (n : Nat) (v : Option Namespace) : (s.setNs n v).tm = s.tm := rfl
@[simp] theorem State.setNs_pcie (s : State) (n : Nat) (v : Option Namespace) : (s.setNs n v).pcie = s.pcie := rfl
@[simp] theorem State.setNs_boxes (s : State) (n : Nat) (v : Option Namespace) : (s.setNs n v).boxes = s.boxes := rfl
@[simp] theorem State.setNs_mbadel (s : State) (n : Nat) (v : Option Namespace) : (s.setNs n v).mbadel = s.mbadel := rfl
@[simp] theorem State.setNs_queues (s : State) (n : Nat) (v : Option Namespace) : (s.setNs n v).queues = s.queues := rfl
@[simp] theorem State.setNs_ten (s : State) (n : Nat) (v : Option Namespace) : (s.setNs n v).ten = s.ten := rfl
@[simp] theorem State.setNs_rdma (s : State) (n : Nat) (v : Option Namespace) : (s.setNs n v).rdma = s.rdma := rfl
@[simp] theorem State.setNs_accel (s : State) (n : Nat) (v : Option Namespace) : (s.setNs n v).accel = s.accel := rfl
@[simp] theorem State.setNs_events (s : State) (n : Nat) (v : Option Namespace) : (s.setNs n v).events = s.events := rfl
@[simp] theorem State.setNs_repair (s : State) (n : Nat) (v : Option Namespace) : (s.setNs n v).repair = s.repair := rfl
@[simp] theorem State.setNs_nv (s : State) (n : Nat) (v : Option Namespace) : (s.setNs n v).nv = s.nv := rfl
@[simp] theorem State.setNs_boot (s : State) (n : Nat) (v : Option Namespace) : (s.setNs n v).boot = s.boot := rfl
@[simp] theorem State.setNs_stack (s : State) (n : Nat) (v : Option Namespace) : (s.setNs n v).stack = s.stack := rfl
@[simp] theorem State.setNs_power (s : State) (n : Nat) (v : Option Namespace) : (s.setNs n v).power = s.power := rfl
@[simp] theorem State.setNs_monitor (s : State) (n : Nat) (v : Option Namespace) : (s.setNs n v).monitor = s.monitor := rfl
@[simp] theorem State.setNs_dram (s : State) (n : Nat) (v : Option Namespace) : (s.setNs n v).dram = s.dram := rfl
@[simp] theorem State.setNs_hostMem (s : State) (n : Nat) (v : Option Namespace) : (s.setNs n v).hostMem = s.hostMem := rfl

/-! Replacing a controller. -/

@[simp] theorem State.setCtl_pending (s : State) (fn : Nat) (c : NvCtl) : (s.setCtl fn c).pending = s.pending := rfl
@[simp] theorem State.setCtl_freeCtr (s : State) (fn : Nat) (c : NvCtl) : (s.setCtl fn c).freeCtr = s.freeCtr := rfl
@[simp] theorem State.setCtl_time (s : State) (fn : Nat) (c : NvCtl) : (s.setCtl fn c).time = s.time := rfl
@[simp] theorem State.setCtl_dev (s : State) (fn : Nat) (c : NvCtl) : (s.setCtl fn c).dev = s.dev := rfl
@[simp] theorem State.setCtl_erg (s : State) (fn : Nat) (c : NvCtl) : (s.setCtl fn c).erg = s.erg := rfl
@[simp] theorem State.setCtl_ports (s : State) (fn : Nat) (c : NvCtl) : (s.setCtl fn c).ports = s.ports := rfl
@[simp] theorem State.setCtl_cls (s : State) (fn : Nat) (c : NvCtl) : (s.setCtl fn c).cls = s.cls := rfl
@[simp] theorem State.setCtl_pools (s : State) (fn : Nat) (c : NvCtl) : (s.setCtl fn c).pools = s.pools := rfl
@[simp] theorem State.setCtl_tm (s : State) (fn : Nat) (c : NvCtl) : (s.setCtl fn c).tm = s.tm := rfl
@[simp] theorem State.setCtl_pcie (s : State) (fn : Nat) (c : NvCtl) : (s.setCtl fn c).pcie = s.pcie := rfl
@[simp] theorem State.setCtl_boxes (s : State) (fn : Nat) (c : NvCtl) : (s.setCtl fn c).boxes = s.boxes := rfl
@[simp] theorem State.setCtl_mbadel (s : State) (fn : Nat) (c : NvCtl) : (s.setCtl fn c).mbadel = s.mbadel := rfl
@[simp] theorem State.setCtl_queues (s : State) (fn : Nat) (c : NvCtl) : (s.setCtl fn c).queues = s.queues := rfl
@[simp] theorem State.setCtl_ten (s : State) (fn : Nat) (c : NvCtl) : (s.setCtl fn c).ten = s.ten := rfl
@[simp] theorem State.setCtl_rdma (s : State) (fn : Nat) (c : NvCtl) : (s.setCtl fn c).rdma = s.rdma := rfl
@[simp] theorem State.setCtl_accel (s : State) (fn : Nat) (c : NvCtl) : (s.setCtl fn c).accel = s.accel := rfl
@[simp] theorem State.setCtl_events (s : State) (fn : Nat) (c : NvCtl) : (s.setCtl fn c).events = s.events := rfl
@[simp] theorem State.setCtl_repair (s : State) (fn : Nat) (c : NvCtl) : (s.setCtl fn c).repair = s.repair := rfl
@[simp] theorem State.setCtl_nv (s : State) (fn : Nat) (c : NvCtl) : (s.setCtl fn c).nv = s.nv := rfl
@[simp] theorem State.setCtl_boot (s : State) (fn : Nat) (c : NvCtl) : (s.setCtl fn c).boot = s.boot := rfl
@[simp] theorem State.setCtl_stack (s : State) (fn : Nat) (c : NvCtl) : (s.setCtl fn c).stack = s.stack := rfl
@[simp] theorem State.setCtl_power (s : State) (fn : Nat) (c : NvCtl) : (s.setCtl fn c).power = s.power := rfl
@[simp] theorem State.setCtl_monitor (s : State) (fn : Nat) (c : NvCtl) : (s.setCtl fn c).monitor = s.monitor := rfl
@[simp] theorem State.setCtl_dram (s : State) (fn : Nat) (c : NvCtl) : (s.setCtl fn c).dram = s.dram := rfl
@[simp] theorem State.setCtl_hostMem (s : State) (fn : Nat) (c : NvCtl) : (s.setCtl fn c).hostMem = s.hostMem := rfl

/-! Replacing a controller. -/

@[simp] theorem State.modCtl_pending (s : State) (fn : Nat) (f : NvCtl → NvCtl) : (s.modCtl fn f).pending = s.pending := rfl
@[simp] theorem State.modCtl_freeCtr (s : State) (fn : Nat) (f : NvCtl → NvCtl) : (s.modCtl fn f).freeCtr = s.freeCtr := rfl
@[simp] theorem State.modCtl_time (s : State) (fn : Nat) (f : NvCtl → NvCtl) : (s.modCtl fn f).time = s.time := rfl
@[simp] theorem State.modCtl_dev (s : State) (fn : Nat) (f : NvCtl → NvCtl) : (s.modCtl fn f).dev = s.dev := rfl
@[simp] theorem State.modCtl_erg (s : State) (fn : Nat) (f : NvCtl → NvCtl) : (s.modCtl fn f).erg = s.erg := rfl
@[simp] theorem State.modCtl_ports (s : State) (fn : Nat) (f : NvCtl → NvCtl) : (s.modCtl fn f).ports = s.ports := rfl
@[simp] theorem State.modCtl_cls (s : State) (fn : Nat) (f : NvCtl → NvCtl) : (s.modCtl fn f).cls = s.cls := rfl
@[simp] theorem State.modCtl_pools (s : State) (fn : Nat) (f : NvCtl → NvCtl) : (s.modCtl fn f).pools = s.pools := rfl
@[simp] theorem State.modCtl_tm (s : State) (fn : Nat) (f : NvCtl → NvCtl) : (s.modCtl fn f).tm = s.tm := rfl
@[simp] theorem State.modCtl_pcie (s : State) (fn : Nat) (f : NvCtl → NvCtl) : (s.modCtl fn f).pcie = s.pcie := rfl
@[simp] theorem State.modCtl_boxes (s : State) (fn : Nat) (f : NvCtl → NvCtl) : (s.modCtl fn f).boxes = s.boxes := rfl
@[simp] theorem State.modCtl_mbadel (s : State) (fn : Nat) (f : NvCtl → NvCtl) : (s.modCtl fn f).mbadel = s.mbadel := rfl
@[simp] theorem State.modCtl_queues (s : State) (fn : Nat) (f : NvCtl → NvCtl) : (s.modCtl fn f).queues = s.queues := rfl
@[simp] theorem State.modCtl_ten (s : State) (fn : Nat) (f : NvCtl → NvCtl) : (s.modCtl fn f).ten = s.ten := rfl
@[simp] theorem State.modCtl_rdma (s : State) (fn : Nat) (f : NvCtl → NvCtl) : (s.modCtl fn f).rdma = s.rdma := rfl
@[simp] theorem State.modCtl_accel (s : State) (fn : Nat) (f : NvCtl → NvCtl) : (s.modCtl fn f).accel = s.accel := rfl
@[simp] theorem State.modCtl_events (s : State) (fn : Nat) (f : NvCtl → NvCtl) : (s.modCtl fn f).events = s.events := rfl
@[simp] theorem State.modCtl_repair (s : State) (fn : Nat) (f : NvCtl → NvCtl) : (s.modCtl fn f).repair = s.repair := rfl
@[simp] theorem State.modCtl_nv (s : State) (fn : Nat) (f : NvCtl → NvCtl) : (s.modCtl fn f).nv = s.nv := rfl
@[simp] theorem State.modCtl_boot (s : State) (fn : Nat) (f : NvCtl → NvCtl) : (s.modCtl fn f).boot = s.boot := rfl
@[simp] theorem State.modCtl_stack (s : State) (fn : Nat) (f : NvCtl → NvCtl) : (s.modCtl fn f).stack = s.stack := rfl
@[simp] theorem State.modCtl_power (s : State) (fn : Nat) (f : NvCtl → NvCtl) : (s.modCtl fn f).power = s.power := rfl
@[simp] theorem State.modCtl_monitor (s : State) (fn : Nat) (f : NvCtl → NvCtl) : (s.modCtl fn f).monitor = s.monitor := rfl
@[simp] theorem State.modCtl_dram (s : State) (fn : Nat) (f : NvCtl → NvCtl) : (s.modCtl fn f).dram = s.dram := rfl
@[simp] theorem State.modCtl_hostMem (s : State) (fn : Nat) (f : NvCtl → NvCtl) : (s.modCtl fn f).hostMem = s.hostMem := rfl

/-! Replacing a traffic manager queue. -/

@[simp] theorem State.setTmq_pending (s : State) (q : Nat) (v : Option TmQueue) : (s.setTmq q v).pending = s.pending := rfl
@[simp] theorem State.setTmq_freeCtr (s : State) (q : Nat) (v : Option TmQueue) : (s.setTmq q v).freeCtr = s.freeCtr := rfl
@[simp] theorem State.setTmq_time (s : State) (q : Nat) (v : Option TmQueue) : (s.setTmq q v).time = s.time := rfl
@[simp] theorem State.setTmq_dev (s : State) (q : Nat) (v : Option TmQueue) : (s.setTmq q v).dev = s.dev := rfl
@[simp] theorem State.setTmq_erg (s : State) (q : Nat) (v : Option TmQueue) : (s.setTmq q v).erg = s.erg := rfl
@[simp] theorem State.setTmq_ports (s : State) (q : Nat) (v : Option TmQueue) : (s.setTmq q v).ports = s.ports := rfl
@[simp] theorem State.setTmq_cls (s : State) (q : Nat) (v : Option TmQueue) : (s.setTmq q v).cls = s.cls := rfl
@[simp] theorem State.setTmq_pools (s : State) (q : Nat) (v : Option TmQueue) : (s.setTmq q v).pools = s.pools := rfl
@[simp] theorem State.setTmq_pcie (s : State) (q : Nat) (v : Option TmQueue) : (s.setTmq q v).pcie = s.pcie := rfl
@[simp] theorem State.setTmq_boxes (s : State) (q : Nat) (v : Option TmQueue) : (s.setTmq q v).boxes = s.boxes := rfl
@[simp] theorem State.setTmq_mbadel (s : State) (q : Nat) (v : Option TmQueue) : (s.setTmq q v).mbadel = s.mbadel := rfl
@[simp] theorem State.setTmq_queues (s : State) (q : Nat) (v : Option TmQueue) : (s.setTmq q v).queues = s.queues := rfl
@[simp] theorem State.setTmq_ten (s : State) (q : Nat) (v : Option TmQueue) : (s.setTmq q v).ten = s.ten := rfl
@[simp] theorem State.setTmq_sto (s : State) (q : Nat) (v : Option TmQueue) : (s.setTmq q v).sto = s.sto := rfl
@[simp] theorem State.setTmq_rdma (s : State) (q : Nat) (v : Option TmQueue) : (s.setTmq q v).rdma = s.rdma := rfl
@[simp] theorem State.setTmq_accel (s : State) (q : Nat) (v : Option TmQueue) : (s.setTmq q v).accel = s.accel := rfl
@[simp] theorem State.setTmq_events (s : State) (q : Nat) (v : Option TmQueue) : (s.setTmq q v).events = s.events := rfl
@[simp] theorem State.setTmq_repair (s : State) (q : Nat) (v : Option TmQueue) : (s.setTmq q v).repair = s.repair := rfl
@[simp] theorem State.setTmq_nv (s : State) (q : Nat) (v : Option TmQueue) : (s.setTmq q v).nv = s.nv := rfl
@[simp] theorem State.setTmq_boot (s : State) (q : Nat) (v : Option TmQueue) : (s.setTmq q v).boot = s.boot := rfl
@[simp] theorem State.setTmq_stack (s : State) (q : Nat) (v : Option TmQueue) : (s.setTmq q v).stack = s.stack := rfl
@[simp] theorem State.setTmq_power (s : State) (q : Nat) (v : Option TmQueue) : (s.setTmq q v).power = s.power := rfl
@[simp] theorem State.setTmq_monitor (s : State) (q : Nat) (v : Option TmQueue) : (s.setTmq q v).monitor = s.monitor := rfl
@[simp] theorem State.setTmq_dram (s : State) (q : Nat) (v : Option TmQueue) : (s.setTmq q v).dram = s.dram := rfl
@[simp] theorem State.setTmq_hostMem (s : State) (q : Nat) (v : Option TmQueue) : (s.setTmq q v).hostMem = s.hostMem := rfl

/-! Replacing a scheduler leaf. -/

@[simp] theorem State.setLeaf_pending (s : State) (key : Nat) (l : Leaf) : (s.setLeaf key l).pending = s.pending := rfl
@[simp] theorem State.setLeaf_freeCtr (s : State) (key : Nat) (l : Leaf) : (s.setLeaf key l).freeCtr = s.freeCtr := rfl
@[simp] theorem State.setLeaf_time (s : State) (key : Nat) (l : Leaf) : (s.setLeaf key l).time = s.time := rfl
@[simp] theorem State.setLeaf_dev (s : State) (key : Nat) (l : Leaf) : (s.setLeaf key l).dev = s.dev := rfl
@[simp] theorem State.setLeaf_erg (s : State) (key : Nat) (l : Leaf) : (s.setLeaf key l).erg = s.erg := rfl
@[simp] theorem State.setLeaf_ports (s : State) (key : Nat) (l : Leaf) : (s.setLeaf key l).ports = s.ports := rfl
@[simp] theorem State.setLeaf_cls (s : State) (key : Nat) (l : Leaf) : (s.setLeaf key l).cls = s.cls := rfl
@[simp] theorem State.setLeaf_pools (s : State) (key : Nat) (l : Leaf) : (s.setLeaf key l).pools = s.pools := rfl
@[simp] theorem State.setLeaf_pcie (s : State) (key : Nat) (l : Leaf) : (s.setLeaf key l).pcie = s.pcie := rfl
@[simp] theorem State.setLeaf_boxes (s : State) (key : Nat) (l : Leaf) : (s.setLeaf key l).boxes = s.boxes := rfl
@[simp] theorem State.setLeaf_mbadel (s : State) (key : Nat) (l : Leaf) : (s.setLeaf key l).mbadel = s.mbadel := rfl
@[simp] theorem State.setLeaf_queues (s : State) (key : Nat) (l : Leaf) : (s.setLeaf key l).queues = s.queues := rfl
@[simp] theorem State.setLeaf_ten (s : State) (key : Nat) (l : Leaf) : (s.setLeaf key l).ten = s.ten := rfl
@[simp] theorem State.setLeaf_sto (s : State) (key : Nat) (l : Leaf) : (s.setLeaf key l).sto = s.sto := rfl
@[simp] theorem State.setLeaf_rdma (s : State) (key : Nat) (l : Leaf) : (s.setLeaf key l).rdma = s.rdma := rfl
@[simp] theorem State.setLeaf_accel (s : State) (key : Nat) (l : Leaf) : (s.setLeaf key l).accel = s.accel := rfl
@[simp] theorem State.setLeaf_events (s : State) (key : Nat) (l : Leaf) : (s.setLeaf key l).events = s.events := rfl
@[simp] theorem State.setLeaf_repair (s : State) (key : Nat) (l : Leaf) : (s.setLeaf key l).repair = s.repair := rfl
@[simp] theorem State.setLeaf_nv (s : State) (key : Nat) (l : Leaf) : (s.setLeaf key l).nv = s.nv := rfl
@[simp] theorem State.setLeaf_boot (s : State) (key : Nat) (l : Leaf) : (s.setLeaf key l).boot = s.boot := rfl
@[simp] theorem State.setLeaf_stack (s : State) (key : Nat) (l : Leaf) : (s.setLeaf key l).stack = s.stack := rfl
@[simp] theorem State.setLeaf_power (s : State) (key : Nat) (l : Leaf) : (s.setLeaf key l).power = s.power := rfl
@[simp] theorem State.setLeaf_monitor (s : State) (key : Nat) (l : Leaf) : (s.setLeaf key l).monitor = s.monitor := rfl
@[simp] theorem State.setLeaf_dram (s : State) (key : Nat) (l : Leaf) : (s.setLeaf key l).dram = s.dram := rfl
@[simp] theorem State.setLeaf_hostMem (s : State) (key : Nat) (l : Leaf) : (s.setLeaf key l).hostMem = s.hostMem := rfl

/-! Replacing a tenant. -/

@[simp] theorem State.setTenant_pending (s : State) (n : Nat) (t : Tenant) : (s.setTenant n t).pending = s.pending := rfl
@[simp] theorem State.setTenant_freeCtr (s : State) (n : Nat) (t : Tenant) : (s.setTenant n t).freeCtr = s.freeCtr := rfl
@[simp] theorem State.setTenant_time (s : State) (n : Nat) (t : Tenant) : (s.setTenant n t).time = s.time := rfl
@[simp] theorem State.setTenant_dev (s : State) (n : Nat) (t : Tenant) : (s.setTenant n t).dev = s.dev := rfl
@[simp] theorem State.setTenant_erg (s : State) (n : Nat) (t : Tenant) : (s.setTenant n t).erg = s.erg := rfl
@[simp] theorem State.setTenant_ports (s : State) (n : Nat) (t : Tenant) : (s.setTenant n t).ports = s.ports := rfl
@[simp] theorem State.setTenant_cls (s : State) (n : Nat) (t : Tenant) : (s.setTenant n t).cls = s.cls := rfl
@[simp] theorem State.setTenant_pools (s : State) (n : Nat) (t : Tenant) : (s.setTenant n t).pools = s.pools := rfl
@[simp] theorem State.setTenant_pcie (s : State) (n : Nat) (t : Tenant) : (s.setTenant n t).pcie = s.pcie := rfl
@[simp] theorem State.setTenant_boxes (s : State) (n : Nat) (t : Tenant) : (s.setTenant n t).boxes = s.boxes := rfl
@[simp] theorem State.setTenant_mbadel (s : State) (n : Nat) (t : Tenant) : (s.setTenant n t).mbadel = s.mbadel := rfl
@[simp] theorem State.setTenant_queues (s : State) (n : Nat) (t : Tenant) : (s.setTenant n t).queues = s.queues := rfl
@[simp] theorem State.setTenant_ten (s : State) (n : Nat) (t : Tenant) : (s.setTenant n t).ten = s.ten := rfl
@[simp] theorem State.setTenant_sto (s : State) (n : Nat) (t : Tenant) : (s.setTenant n t).sto = s.sto := rfl
@[simp] theorem State.setTenant_rdma (s : State) (n : Nat) (t : Tenant) : (s.setTenant n t).rdma = s.rdma := rfl
@[simp] theorem State.setTenant_accel (s : State) (n : Nat) (t : Tenant) : (s.setTenant n t).accel = s.accel := rfl
@[simp] theorem State.setTenant_events (s : State) (n : Nat) (t : Tenant) : (s.setTenant n t).events = s.events := rfl
@[simp] theorem State.setTenant_repair (s : State) (n : Nat) (t : Tenant) : (s.setTenant n t).repair = s.repair := rfl
@[simp] theorem State.setTenant_nv (s : State) (n : Nat) (t : Tenant) : (s.setTenant n t).nv = s.nv := rfl
@[simp] theorem State.setTenant_boot (s : State) (n : Nat) (t : Tenant) : (s.setTenant n t).boot = s.boot := rfl
@[simp] theorem State.setTenant_stack (s : State) (n : Nat) (t : Tenant) : (s.setTenant n t).stack = s.stack := rfl
@[simp] theorem State.setTenant_power (s : State) (n : Nat) (t : Tenant) : (s.setTenant n t).power = s.power := rfl
@[simp] theorem State.setTenant_monitor (s : State) (n : Nat) (t : Tenant) : (s.setTenant n t).monitor = s.monitor := rfl
@[simp] theorem State.setTenant_dram (s : State) (n : Nat) (t : Tenant) : (s.setTenant n t).dram = s.dram := rfl
@[simp] theorem State.setTenant_hostMem (s : State) (n : Nat) (t : Tenant) : (s.setTenant n t).hostMem = s.hostMem := rfl

/-! Replacing a lane. -/

@[simp] theorem State.modLane_pending (s : State) (n : Nat) (f : Lane → Lane) : (s.modLane n f).pending = s.pending := rfl
@[simp] theorem State.modLane_freeCtr (s : State) (n : Nat) (f : Lane → Lane) : (s.modLane n f).freeCtr = s.freeCtr := rfl
@[simp] theorem State.modLane_time (s : State) (n : Nat) (f : Lane → Lane) : (s.modLane n f).time = s.time := rfl
@[simp] theorem State.modLane_dev (s : State) (n : Nat) (f : Lane → Lane) : (s.modLane n f).dev = s.dev := rfl
@[simp] theorem State.modLane_erg (s : State) (n : Nat) (f : Lane → Lane) : (s.modLane n f).erg = s.erg := rfl
@[simp] theorem State.modLane_cls (s : State) (n : Nat) (f : Lane → Lane) : (s.modLane n f).cls = s.cls := rfl
@[simp] theorem State.modLane_pools (s : State) (n : Nat) (f : Lane → Lane) : (s.modLane n f).pools = s.pools := rfl
@[simp] theorem State.modLane_tm (s : State) (n : Nat) (f : Lane → Lane) : (s.modLane n f).tm = s.tm := rfl
@[simp] theorem State.modLane_pcie (s : State) (n : Nat) (f : Lane → Lane) : (s.modLane n f).pcie = s.pcie := rfl
@[simp] theorem State.modLane_boxes (s : State) (n : Nat) (f : Lane → Lane) : (s.modLane n f).boxes = s.boxes := rfl
@[simp] theorem State.modLane_mbadel (s : State) (n : Nat) (f : Lane → Lane) : (s.modLane n f).mbadel = s.mbadel := rfl
@[simp] theorem State.modLane_queues (s : State) (n : Nat) (f : Lane → Lane) : (s.modLane n f).queues = s.queues := rfl
@[simp] theorem State.modLane_ten (s : State) (n : Nat) (f : Lane → Lane) : (s.modLane n f).ten = s.ten := rfl
@[simp] theorem State.modLane_sto (s : State) (n : Nat) (f : Lane → Lane) : (s.modLane n f).sto = s.sto := rfl
@[simp] theorem State.modLane_rdma (s : State) (n : Nat) (f : Lane → Lane) : (s.modLane n f).rdma = s.rdma := rfl
@[simp] theorem State.modLane_accel (s : State) (n : Nat) (f : Lane → Lane) : (s.modLane n f).accel = s.accel := rfl
@[simp] theorem State.modLane_events (s : State) (n : Nat) (f : Lane → Lane) : (s.modLane n f).events = s.events := rfl
@[simp] theorem State.modLane_repair (s : State) (n : Nat) (f : Lane → Lane) : (s.modLane n f).repair = s.repair := rfl
@[simp] theorem State.modLane_nv (s : State) (n : Nat) (f : Lane → Lane) : (s.modLane n f).nv = s.nv := rfl
@[simp] theorem State.modLane_boot (s : State) (n : Nat) (f : Lane → Lane) : (s.modLane n f).boot = s.boot := rfl
@[simp] theorem State.modLane_stack (s : State) (n : Nat) (f : Lane → Lane) : (s.modLane n f).stack = s.stack := rfl
@[simp] theorem State.modLane_power (s : State) (n : Nat) (f : Lane → Lane) : (s.modLane n f).power = s.power := rfl
@[simp] theorem State.modLane_monitor (s : State) (n : Nat) (f : Lane → Lane) : (s.modLane n f).monitor = s.monitor := rfl
@[simp] theorem State.modLane_dram (s : State) (n : Nat) (f : Lane → Lane) : (s.modLane n f).dram = s.dram := rfl
@[simp] theorem State.modLane_hostMem (s : State) (n : Nat) (f : Lane → Lane) : (s.modLane n f).hostMem = s.hostMem := rfl

/-! Replacing a buffer pool. -/

@[simp] theorem State.modPool_pending (s : State) (code : Nat) (f : Pool → Pool) : (s.modPool code f).pending = s.pending := by unfold State.modPool; split <;> rfl
@[simp] theorem State.modPool_freeCtr (s : State) (code : Nat) (f : Pool → Pool) : (s.modPool code f).freeCtr = s.freeCtr := by unfold State.modPool; split <;> rfl
@[simp] theorem State.modPool_time (s : State) (code : Nat) (f : Pool → Pool) : (s.modPool code f).time = s.time := by unfold State.modPool; split <;> rfl
@[simp] theorem State.modPool_dev (s : State) (code : Nat) (f : Pool → Pool) : (s.modPool code f).dev = s.dev := by unfold State.modPool; split <;> rfl
@[simp] theorem State.modPool_erg (s : State) (code : Nat) (f : Pool → Pool) : (s.modPool code f).erg = s.erg := by unfold State.modPool; split <;> rfl
@[simp] theorem State.modPool_ports (s : State) (code : Nat) (f : Pool → Pool) : (s.modPool code f).ports = s.ports := by unfold State.modPool; split <;> rfl
@[simp] theorem State.modPool_cls (s : State) (code : Nat) (f : Pool → Pool) : (s.modPool code f).cls = s.cls := by unfold State.modPool; split <;> rfl
@[simp] theorem State.modPool_tm (s : State) (code : Nat) (f : Pool → Pool) : (s.modPool code f).tm = s.tm := by unfold State.modPool; split <;> rfl
@[simp] theorem State.modPool_pcie (s : State) (code : Nat) (f : Pool → Pool) : (s.modPool code f).pcie = s.pcie := by unfold State.modPool; split <;> rfl
@[simp] theorem State.modPool_boxes (s : State) (code : Nat) (f : Pool → Pool) : (s.modPool code f).boxes = s.boxes := by unfold State.modPool; split <;> rfl
@[simp] theorem State.modPool_mbadel (s : State) (code : Nat) (f : Pool → Pool) : (s.modPool code f).mbadel = s.mbadel := by unfold State.modPool; split <;> rfl
@[simp] theorem State.modPool_queues (s : State) (code : Nat) (f : Pool → Pool) : (s.modPool code f).queues = s.queues := by unfold State.modPool; split <;> rfl
@[simp] theorem State.modPool_ten (s : State) (code : Nat) (f : Pool → Pool) : (s.modPool code f).ten = s.ten := by unfold State.modPool; split <;> rfl
@[simp] theorem State.modPool_sto (s : State) (code : Nat) (f : Pool → Pool) : (s.modPool code f).sto = s.sto := by unfold State.modPool; split <;> rfl
@[simp] theorem State.modPool_rdma (s : State) (code : Nat) (f : Pool → Pool) : (s.modPool code f).rdma = s.rdma := by unfold State.modPool; split <;> rfl
@[simp] theorem State.modPool_accel (s : State) (code : Nat) (f : Pool → Pool) : (s.modPool code f).accel = s.accel := by unfold State.modPool; split <;> rfl
@[simp] theorem State.modPool_events (s : State) (code : Nat) (f : Pool → Pool) : (s.modPool code f).events = s.events := by unfold State.modPool; split <;> rfl
@[simp] theorem State.modPool_repair (s : State) (code : Nat) (f : Pool → Pool) : (s.modPool code f).repair = s.repair := by unfold State.modPool; split <;> rfl
@[simp] theorem State.modPool_nv (s : State) (code : Nat) (f : Pool → Pool) : (s.modPool code f).nv = s.nv := by unfold State.modPool; split <;> rfl
@[simp] theorem State.modPool_boot (s : State) (code : Nat) (f : Pool → Pool) : (s.modPool code f).boot = s.boot := by unfold State.modPool; split <;> rfl
@[simp] theorem State.modPool_stack (s : State) (code : Nat) (f : Pool → Pool) : (s.modPool code f).stack = s.stack := by unfold State.modPool; split <;> rfl
@[simp] theorem State.modPool_power (s : State) (code : Nat) (f : Pool → Pool) : (s.modPool code f).power = s.power := by unfold State.modPool; split <;> rfl
@[simp] theorem State.modPool_monitor (s : State) (code : Nat) (f : Pool → Pool) : (s.modPool code f).monitor = s.monitor := by unfold State.modPool; split <;> rfl
@[simp] theorem State.modPool_dram (s : State) (code : Nat) (f : Pool → Pool) : (s.modPool code f).dram = s.dram := by unfold State.modPool; split <;> rfl
@[simp] theorem State.modPool_hostMem (s : State) (code : Nat) (f : Pool → Pool) : (s.modPool code f).hostMem = s.hostMem := by unfold State.modPool; split <;> rfl

/-! Replacing a table. -/

@[simp] theorem State.setTable_pending (s : State) (n : Nat) (t : Option Table) : (s.setTable n t).pending = s.pending := rfl
@[simp] theorem State.setTable_freeCtr (s : State) (n : Nat) (t : Option Table) : (s.setTable n t).freeCtr = s.freeCtr := rfl
@[simp] theorem State.setTable_time (s : State) (n : Nat) (t : Option Table) : (s.setTable n t).time = s.time := rfl
@[simp] theorem State.setTable_dev (s : State) (n : Nat) (t : Option Table) : (s.setTable n t).dev = s.dev := rfl
@[simp] theorem State.setTable_erg (s : State) (n : Nat) (t : Option Table) : (s.setTable n t).erg = s.erg := rfl
@[simp] theorem State.setTable_ports (s : State) (n : Nat) (t : Option Table) : (s.setTable n t).ports = s.ports := rfl
@[simp] theorem State.setTable_pools (s : State) (n : Nat) (t : Option Table) : (s.setTable n t).pools = s.pools := rfl
@[simp] theorem State.setTable_tm (s : State) (n : Nat) (t : Option Table) : (s.setTable n t).tm = s.tm := rfl
@[simp] theorem State.setTable_pcie (s : State) (n : Nat) (t : Option Table) : (s.setTable n t).pcie = s.pcie := rfl
@[simp] theorem State.setTable_boxes (s : State) (n : Nat) (t : Option Table) : (s.setTable n t).boxes = s.boxes := rfl
@[simp] theorem State.setTable_mbadel (s : State) (n : Nat) (t : Option Table) : (s.setTable n t).mbadel = s.mbadel := rfl
@[simp] theorem State.setTable_queues (s : State) (n : Nat) (t : Option Table) : (s.setTable n t).queues = s.queues := rfl
@[simp] theorem State.setTable_ten (s : State) (n : Nat) (t : Option Table) : (s.setTable n t).ten = s.ten := rfl
@[simp] theorem State.setTable_sto (s : State) (n : Nat) (t : Option Table) : (s.setTable n t).sto = s.sto := rfl
@[simp] theorem State.setTable_rdma (s : State) (n : Nat) (t : Option Table) : (s.setTable n t).rdma = s.rdma := rfl
@[simp] theorem State.setTable_accel (s : State) (n : Nat) (t : Option Table) : (s.setTable n t).accel = s.accel := rfl
@[simp] theorem State.setTable_events (s : State) (n : Nat) (t : Option Table) : (s.setTable n t).events = s.events := rfl
@[simp] theorem State.setTable_repair (s : State) (n : Nat) (t : Option Table) : (s.setTable n t).repair = s.repair := rfl
@[simp] theorem State.setTable_nv (s : State) (n : Nat) (t : Option Table) : (s.setTable n t).nv = s.nv := rfl
@[simp] theorem State.setTable_boot (s : State) (n : Nat) (t : Option Table) : (s.setTable n t).boot = s.boot := rfl
@[simp] theorem State.setTable_stack (s : State) (n : Nat) (t : Option Table) : (s.setTable n t).stack = s.stack := rfl
@[simp] theorem State.setTable_power (s : State) (n : Nat) (t : Option Table) : (s.setTable n t).power = s.power := rfl
@[simp] theorem State.setTable_monitor (s : State) (n : Nat) (t : Option Table) : (s.setTable n t).monitor = s.monitor := rfl
@[simp] theorem State.setTable_dram (s : State) (n : Nat) (t : Option Table) : (s.setTable n t).dram = s.dram := rfl
@[simp] theorem State.setTable_hostMem (s : State) (n : Nat) (t : Option Table) : (s.setTable n t).hostMem = s.hostMem := rfl

/-! Replacing a flash chip. -/

@[simp] theorem State.setChip_pending (s : State) (n : Nat) (c : FMap Byte) : (s.setChip n c).pending = s.pending := rfl
@[simp] theorem State.setChip_freeCtr (s : State) (n : Nat) (c : FMap Byte) : (s.setChip n c).freeCtr = s.freeCtr := rfl
@[simp] theorem State.setChip_time (s : State) (n : Nat) (c : FMap Byte) : (s.setChip n c).time = s.time := rfl
@[simp] theorem State.setChip_dev (s : State) (n : Nat) (c : FMap Byte) : (s.setChip n c).dev = s.dev := rfl
@[simp] theorem State.setChip_erg (s : State) (n : Nat) (c : FMap Byte) : (s.setChip n c).erg = s.erg := rfl
@[simp] theorem State.setChip_ports (s : State) (n : Nat) (c : FMap Byte) : (s.setChip n c).ports = s.ports := rfl
@[simp] theorem State.setChip_cls (s : State) (n : Nat) (c : FMap Byte) : (s.setChip n c).cls = s.cls := rfl
@[simp] theorem State.setChip_pools (s : State) (n : Nat) (c : FMap Byte) : (s.setChip n c).pools = s.pools := rfl
@[simp] theorem State.setChip_tm (s : State) (n : Nat) (c : FMap Byte) : (s.setChip n c).tm = s.tm := rfl
@[simp] theorem State.setChip_pcie (s : State) (n : Nat) (c : FMap Byte) : (s.setChip n c).pcie = s.pcie := rfl
@[simp] theorem State.setChip_boxes (s : State) (n : Nat) (c : FMap Byte) : (s.setChip n c).boxes = s.boxes := rfl
@[simp] theorem State.setChip_mbadel (s : State) (n : Nat) (c : FMap Byte) : (s.setChip n c).mbadel = s.mbadel := rfl
@[simp] theorem State.setChip_queues (s : State) (n : Nat) (c : FMap Byte) : (s.setChip n c).queues = s.queues := rfl
@[simp] theorem State.setChip_ten (s : State) (n : Nat) (c : FMap Byte) : (s.setChip n c).ten = s.ten := rfl
@[simp] theorem State.setChip_sto (s : State) (n : Nat) (c : FMap Byte) : (s.setChip n c).sto = s.sto := rfl
@[simp] theorem State.setChip_rdma (s : State) (n : Nat) (c : FMap Byte) : (s.setChip n c).rdma = s.rdma := rfl
@[simp] theorem State.setChip_accel (s : State) (n : Nat) (c : FMap Byte) : (s.setChip n c).accel = s.accel := rfl
@[simp] theorem State.setChip_events (s : State) (n : Nat) (c : FMap Byte) : (s.setChip n c).events = s.events := rfl
@[simp] theorem State.setChip_repair (s : State) (n : Nat) (c : FMap Byte) : (s.setChip n c).repair = s.repair := rfl
@[simp] theorem State.setChip_boot (s : State) (n : Nat) (c : FMap Byte) : (s.setChip n c).boot = s.boot := rfl
@[simp] theorem State.setChip_stack (s : State) (n : Nat) (c : FMap Byte) : (s.setChip n c).stack = s.stack := rfl
@[simp] theorem State.setChip_power (s : State) (n : Nat) (c : FMap Byte) : (s.setChip n c).power = s.power := rfl
@[simp] theorem State.setChip_monitor (s : State) (n : Nat) (c : FMap Byte) : (s.setChip n c).monitor = s.monitor := rfl
@[simp] theorem State.setChip_dram (s : State) (n : Nat) (c : FMap Byte) : (s.setChip n c).dram = s.dram := rfl
@[simp] theorem State.setChip_hostMem (s : State) (n : Nat) (c : FMap Byte) : (s.setChip n c).hostMem = s.hostMem := rfl

/-! Replacing the power cap. -/

@[simp] theorem State.setCap_pending (s : State) (capMw : Nat) : (s.setCap capMw).pending = s.pending := rfl
@[simp] theorem State.setCap_freeCtr (s : State) (capMw : Nat) : (s.setCap capMw).freeCtr = s.freeCtr := rfl
@[simp] theorem State.setCap_time (s : State) (capMw : Nat) : (s.setCap capMw).time = s.time := rfl
@[simp] theorem State.setCap_dev (s : State) (capMw : Nat) : (s.setCap capMw).dev = s.dev := rfl
@[simp] theorem State.setCap_erg (s : State) (capMw : Nat) : (s.setCap capMw).erg = s.erg := rfl
@[simp] theorem State.setCap_ports (s : State) (capMw : Nat) : (s.setCap capMw).ports = s.ports := rfl
@[simp] theorem State.setCap_cls (s : State) (capMw : Nat) : (s.setCap capMw).cls = s.cls := rfl
@[simp] theorem State.setCap_pools (s : State) (capMw : Nat) : (s.setCap capMw).pools = s.pools := rfl
@[simp] theorem State.setCap_tm (s : State) (capMw : Nat) : (s.setCap capMw).tm = s.tm := rfl
@[simp] theorem State.setCap_pcie (s : State) (capMw : Nat) : (s.setCap capMw).pcie = s.pcie := rfl
@[simp] theorem State.setCap_boxes (s : State) (capMw : Nat) : (s.setCap capMw).boxes = s.boxes := rfl
@[simp] theorem State.setCap_mbadel (s : State) (capMw : Nat) : (s.setCap capMw).mbadel = s.mbadel := rfl
@[simp] theorem State.setCap_queues (s : State) (capMw : Nat) : (s.setCap capMw).queues = s.queues := rfl
@[simp] theorem State.setCap_ten (s : State) (capMw : Nat) : (s.setCap capMw).ten = s.ten := rfl
@[simp] theorem State.setCap_sto (s : State) (capMw : Nat) : (s.setCap capMw).sto = s.sto := rfl
@[simp] theorem State.setCap_rdma (s : State) (capMw : Nat) : (s.setCap capMw).rdma = s.rdma := rfl
@[simp] theorem State.setCap_accel (s : State) (capMw : Nat) : (s.setCap capMw).accel = s.accel := rfl
@[simp] theorem State.setCap_events (s : State) (capMw : Nat) : (s.setCap capMw).events = s.events := rfl
@[simp] theorem State.setCap_repair (s : State) (capMw : Nat) : (s.setCap capMw).repair = s.repair := rfl
@[simp] theorem State.setCap_nv (s : State) (capMw : Nat) : (s.setCap capMw).nv = s.nv := rfl
@[simp] theorem State.setCap_boot (s : State) (capMw : Nat) : (s.setCap capMw).boot = s.boot := rfl
@[simp] theorem State.setCap_stack (s : State) (capMw : Nat) : (s.setCap capMw).stack = s.stack := rfl
@[simp] theorem State.setCap_monitor (s : State) (capMw : Nat) : (s.setCap capMw).monitor = s.monitor := rfl
@[simp] theorem State.setCap_dram (s : State) (capMw : Nat) : (s.setCap capMw).dram = s.dram := rfl
@[simp] theorem State.setCap_hostMem (s : State) (capMw : Nat) : (s.setCap capMw).hostMem = s.hostMem := rfl

/-! Replacing the value read. -/

@[simp] theorem State.answer_pending (s : State) (v : Nat) : (s.answer v).pending = s.pending := rfl
@[simp] theorem State.answer_freeCtr (s : State) (v : Nat) : (s.answer v).freeCtr = s.freeCtr := rfl
@[simp] theorem State.answer_time (s : State) (v : Nat) : (s.answer v).time = s.time := rfl
@[simp] theorem State.answer_dev (s : State) (v : Nat) : (s.answer v).dev = s.dev := rfl
@[simp] theorem State.answer_erg (s : State) (v : Nat) : (s.answer v).erg = s.erg := rfl
@[simp] theorem State.answer_ports (s : State) (v : Nat) : (s.answer v).ports = s.ports := rfl
@[simp] theorem State.answer_cls (s : State) (v : Nat) : (s.answer v).cls = s.cls := rfl
@[simp] theorem State.answer_pools (s : State) (v : Nat) : (s.answer v).pools = s.pools := rfl
@[simp] theorem State.answer_tm (s : State) (v : Nat) : (s.answer v).tm = s.tm := rfl
@[simp] theorem State.answer_pcie (s : State) (v : Nat) : (s.answer v).pcie = s.pcie := rfl
@[simp] theorem State.answer_mbadel (s : State) (v : Nat) : (s.answer v).mbadel = s.mbadel := rfl
@[simp] theorem State.answer_queues (s : State) (v : Nat) : (s.answer v).queues = s.queues := rfl
@[simp] theorem State.answer_ten (s : State) (v : Nat) : (s.answer v).ten = s.ten := rfl
@[simp] theorem State.answer_sto (s : State) (v : Nat) : (s.answer v).sto = s.sto := rfl
@[simp] theorem State.answer_rdma (s : State) (v : Nat) : (s.answer v).rdma = s.rdma := rfl
@[simp] theorem State.answer_accel (s : State) (v : Nat) : (s.answer v).accel = s.accel := rfl
@[simp] theorem State.answer_events (s : State) (v : Nat) : (s.answer v).events = s.events := rfl
@[simp] theorem State.answer_repair (s : State) (v : Nat) : (s.answer v).repair = s.repair := rfl
@[simp] theorem State.answer_nv (s : State) (v : Nat) : (s.answer v).nv = s.nv := rfl
@[simp] theorem State.answer_boot (s : State) (v : Nat) : (s.answer v).boot = s.boot := rfl
@[simp] theorem State.answer_stack (s : State) (v : Nat) : (s.answer v).stack = s.stack := rfl
@[simp] theorem State.answer_power (s : State) (v : Nat) : (s.answer v).power = s.power := rfl
@[simp] theorem State.answer_monitor (s : State) (v : Nat) : (s.answer v).monitor = s.monitor := rfl
@[simp] theorem State.answer_dram (s : State) (v : Nat) : (s.answer v).dram = s.dram := rfl
@[simp] theorem State.answer_hostMem (s : State) (v : Nat) : (s.answer v).hostMem = s.hostMem := rfl

/-! Replacing the event log. -/

@[simp] theorem State.log_pending (s : State) (code obj detail : Nat) : (s.log code obj detail).pending = s.pending := rfl
@[simp] theorem State.log_freeCtr (s : State) (code obj detail : Nat) : (s.log code obj detail).freeCtr = s.freeCtr := rfl
@[simp] theorem State.log_time (s : State) (code obj detail : Nat) : (s.log code obj detail).time = s.time := rfl
@[simp] theorem State.log_dev (s : State) (code obj detail : Nat) : (s.log code obj detail).dev = s.dev := rfl
@[simp] theorem State.log_erg (s : State) (code obj detail : Nat) : (s.log code obj detail).erg = s.erg := rfl
@[simp] theorem State.log_ports (s : State) (code obj detail : Nat) : (s.log code obj detail).ports = s.ports := rfl
@[simp] theorem State.log_cls (s : State) (code obj detail : Nat) : (s.log code obj detail).cls = s.cls := rfl
@[simp] theorem State.log_pools (s : State) (code obj detail : Nat) : (s.log code obj detail).pools = s.pools := rfl
@[simp] theorem State.log_tm (s : State) (code obj detail : Nat) : (s.log code obj detail).tm = s.tm := rfl
@[simp] theorem State.log_pcie (s : State) (code obj detail : Nat) : (s.log code obj detail).pcie = s.pcie := rfl
@[simp] theorem State.log_boxes (s : State) (code obj detail : Nat) : (s.log code obj detail).boxes = s.boxes := rfl
@[simp] theorem State.log_mbadel (s : State) (code obj detail : Nat) : (s.log code obj detail).mbadel = s.mbadel := rfl
@[simp] theorem State.log_queues (s : State) (code obj detail : Nat) : (s.log code obj detail).queues = s.queues := rfl
@[simp] theorem State.log_ten (s : State) (code obj detail : Nat) : (s.log code obj detail).ten = s.ten := rfl
@[simp] theorem State.log_sto (s : State) (code obj detail : Nat) : (s.log code obj detail).sto = s.sto := rfl
@[simp] theorem State.log_rdma (s : State) (code obj detail : Nat) : (s.log code obj detail).rdma = s.rdma := rfl
@[simp] theorem State.log_accel (s : State) (code obj detail : Nat) : (s.log code obj detail).accel = s.accel := rfl
@[simp] theorem State.log_repair (s : State) (code obj detail : Nat) : (s.log code obj detail).repair = s.repair := rfl
@[simp] theorem State.log_nv (s : State) (code obj detail : Nat) : (s.log code obj detail).nv = s.nv := rfl
@[simp] theorem State.log_boot (s : State) (code obj detail : Nat) : (s.log code obj detail).boot = s.boot := rfl
@[simp] theorem State.log_stack (s : State) (code obj detail : Nat) : (s.log code obj detail).stack = s.stack := rfl
@[simp] theorem State.log_power (s : State) (code obj detail : Nat) : (s.log code obj detail).power = s.power := rfl
@[simp] theorem State.log_monitor (s : State) (code obj detail : Nat) : (s.log code obj detail).monitor = s.monitor := rfl
@[simp] theorem State.log_dram (s : State) (code obj detail : Nat) : (s.log code obj detail).dram = s.dram := rfl
@[simp] theorem State.log_hostMem (s : State) (code obj detail : Nat) : (s.log code obj detail).hostMem = s.hostMem := rfl

/-! Replacing the event log. -/

@[simp] theorem State.logFrom_pending (s : State) (stamp : Word) (code obj detail : Nat) : (s.logFrom stamp code obj detail).pending = s.pending := rfl
@[simp] theorem State.logFrom_freeCtr (s : State) (stamp : Word) (code obj detail : Nat) : (s.logFrom stamp code obj detail).freeCtr = s.freeCtr := rfl
@[simp] theorem State.logFrom_time (s : State) (stamp : Word) (code obj detail : Nat) : (s.logFrom stamp code obj detail).time = s.time := rfl
@[simp] theorem State.logFrom_dev (s : State) (stamp : Word) (code obj detail : Nat) : (s.logFrom stamp code obj detail).dev = s.dev := rfl
@[simp] theorem State.logFrom_erg (s : State) (stamp : Word) (code obj detail : Nat) : (s.logFrom stamp code obj detail).erg = s.erg := rfl
@[simp] theorem State.logFrom_ports (s : State) (stamp : Word) (code obj detail : Nat) : (s.logFrom stamp code obj detail).ports = s.ports := rfl
@[simp] theorem State.logFrom_cls (s : State) (stamp : Word) (code obj detail : Nat) : (s.logFrom stamp code obj detail).cls = s.cls := rfl
@[simp] theorem State.logFrom_pools (s : State) (stamp : Word) (code obj detail : Nat) : (s.logFrom stamp code obj detail).pools = s.pools := rfl
@[simp] theorem State.logFrom_tm (s : State) (stamp : Word) (code obj detail : Nat) : (s.logFrom stamp code obj detail).tm = s.tm := rfl
@[simp] theorem State.logFrom_pcie (s : State) (stamp : Word) (code obj detail : Nat) : (s.logFrom stamp code obj detail).pcie = s.pcie := rfl
@[simp] theorem State.logFrom_boxes (s : State) (stamp : Word) (code obj detail : Nat) : (s.logFrom stamp code obj detail).boxes = s.boxes := rfl
@[simp] theorem State.logFrom_mbadel (s : State) (stamp : Word) (code obj detail : Nat) : (s.logFrom stamp code obj detail).mbadel = s.mbadel := rfl
@[simp] theorem State.logFrom_queues (s : State) (stamp : Word) (code obj detail : Nat) : (s.logFrom stamp code obj detail).queues = s.queues := rfl
@[simp] theorem State.logFrom_ten (s : State) (stamp : Word) (code obj detail : Nat) : (s.logFrom stamp code obj detail).ten = s.ten := rfl
@[simp] theorem State.logFrom_sto (s : State) (stamp : Word) (code obj detail : Nat) : (s.logFrom stamp code obj detail).sto = s.sto := rfl
@[simp] theorem State.logFrom_rdma (s : State) (stamp : Word) (code obj detail : Nat) : (s.logFrom stamp code obj detail).rdma = s.rdma := rfl
@[simp] theorem State.logFrom_accel (s : State) (stamp : Word) (code obj detail : Nat) : (s.logFrom stamp code obj detail).accel = s.accel := rfl
@[simp] theorem State.logFrom_repair (s : State) (stamp : Word) (code obj detail : Nat) : (s.logFrom stamp code obj detail).repair = s.repair := rfl
@[simp] theorem State.logFrom_nv (s : State) (stamp : Word) (code obj detail : Nat) : (s.logFrom stamp code obj detail).nv = s.nv := rfl
@[simp] theorem State.logFrom_boot (s : State) (stamp : Word) (code obj detail : Nat) : (s.logFrom stamp code obj detail).boot = s.boot := rfl
@[simp] theorem State.logFrom_stack (s : State) (stamp : Word) (code obj detail : Nat) : (s.logFrom stamp code obj detail).stack = s.stack := rfl
@[simp] theorem State.logFrom_power (s : State) (stamp : Word) (code obj detail : Nat) : (s.logFrom stamp code obj detail).power = s.power := rfl
@[simp] theorem State.logFrom_monitor (s : State) (stamp : Word) (code obj detail : Nat) : (s.logFrom stamp code obj detail).monitor = s.monitor := rfl
@[simp] theorem State.logFrom_dram (s : State) (stamp : Word) (code obj detail : Nat) : (s.logFrom stamp code obj detail).dram = s.dram := rfl
@[simp] theorem State.logFrom_hostMem (s : State) (stamp : Word) (code obj detail : Nat) : (s.logFrom stamp code obj detail).hostMem = s.hostMem := rfl

/-! Replacing a held request. -/

@[simp] theorem State.hold_pending (s : State) (fn : Nat) (h : Held) : (s.hold fn h).pending = s.pending := rfl
@[simp] theorem State.hold_freeCtr (s : State) (fn : Nat) (h : Held) : (s.hold fn h).freeCtr = s.freeCtr := rfl
@[simp] theorem State.hold_time (s : State) (fn : Nat) (h : Held) : (s.hold fn h).time = s.time := rfl
@[simp] theorem State.hold_dev (s : State) (fn : Nat) (h : Held) : (s.hold fn h).dev = s.dev := rfl
@[simp] theorem State.hold_erg (s : State) (fn : Nat) (h : Held) : (s.hold fn h).erg = s.erg := rfl
@[simp] theorem State.hold_ports (s : State) (fn : Nat) (h : Held) : (s.hold fn h).ports = s.ports := rfl
@[simp] theorem State.hold_cls (s : State) (fn : Nat) (h : Held) : (s.hold fn h).cls = s.cls := rfl
@[simp] theorem State.hold_pools (s : State) (fn : Nat) (h : Held) : (s.hold fn h).pools = s.pools := rfl
@[simp] theorem State.hold_tm (s : State) (fn : Nat) (h : Held) : (s.hold fn h).tm = s.tm := rfl
@[simp] theorem State.hold_boxes (s : State) (fn : Nat) (h : Held) : (s.hold fn h).boxes = s.boxes := rfl
@[simp] theorem State.hold_mbadel (s : State) (fn : Nat) (h : Held) : (s.hold fn h).mbadel = s.mbadel := rfl
@[simp] theorem State.hold_queues (s : State) (fn : Nat) (h : Held) : (s.hold fn h).queues = s.queues := rfl
@[simp] theorem State.hold_ten (s : State) (fn : Nat) (h : Held) : (s.hold fn h).ten = s.ten := rfl
@[simp] theorem State.hold_sto (s : State) (fn : Nat) (h : Held) : (s.hold fn h).sto = s.sto := rfl
@[simp] theorem State.hold_rdma (s : State) (fn : Nat) (h : Held) : (s.hold fn h).rdma = s.rdma := rfl
@[simp] theorem State.hold_accel (s : State) (fn : Nat) (h : Held) : (s.hold fn h).accel = s.accel := rfl
@[simp] theorem State.hold_events (s : State) (fn : Nat) (h : Held) : (s.hold fn h).events = s.events := rfl
@[simp] theorem State.hold_repair (s : State) (fn : Nat) (h : Held) : (s.hold fn h).repair = s.repair := rfl
@[simp] theorem State.hold_nv (s : State) (fn : Nat) (h : Held) : (s.hold fn h).nv = s.nv := rfl
@[simp] theorem State.hold_boot (s : State) (fn : Nat) (h : Held) : (s.hold fn h).boot = s.boot := rfl
@[simp] theorem State.hold_stack (s : State) (fn : Nat) (h : Held) : (s.hold fn h).stack = s.stack := rfl
@[simp] theorem State.hold_power (s : State) (fn : Nat) (h : Held) : (s.hold fn h).power = s.power := rfl
@[simp] theorem State.hold_monitor (s : State) (fn : Nat) (h : Held) : (s.hold fn h).monitor = s.monitor := rfl
@[simp] theorem State.hold_dram (s : State) (fn : Nat) (h : Held) : (s.hold fn h).dram = s.dram := rfl
@[simp] theorem State.hold_hostMem (s : State) (fn : Nat) (h : Held) : (s.hold fn h).hostMem = s.hostMem := rfl

end Sys2Proof.Machine
end

