-- ==== Sys2Proof/WellFormed.lean ====
section
/-!
DEFINITION. Well-formedness of commands: what the types of the operands do not already say and what no sender can produce.
-/

namespace Sys2Proof

/-- Whether every element of a list is below a bound. -/
def allBelow (n : Nat) (xs : List Nat) : Bool := xs.all (fun x => decide (x < n))

/-- A command is well formed when its operands are ones that a sender can produce: SUB has no immediate form (RV32I), a doorbell or
register value fits its field, and a list with a fixed number of elements has that number (R233, R236, R240). -/
def Instr.WellFormed (i : Instr) : Bool :=
  match i with
  | .integerOp _ op _ _ src =>
    (match op, src with
     | .sub, .imm _ => false
     | .sll, .imm v => decide (v.toNat < 32)
     | .srl, .imm v => decide (v.toNat < 32)
     | .sra, .imm v => decide (v.toNat < 32)
     | _, _ => true)
  | .branch _ _ _ _ off => decide (off.toNat % 2 = 0)
  | .jal _ _ off => decide (off.toNat % 2 = 0)
  | .frameReceive _ _ _ _ _ ns frac _ _ _ => decide (ns < 1000000000) && decide (frac < 65536)
  | .schedulerSelect _ _ ns frac => decide (ns < 1000000000) && decide (frac < 65536)
  | .poolCarve _ sizes counts => decide (sizes.length = 7) && decide (counts.length = 7)
  | .tableCreate _ _ _ _ _ _ _ _ fields => decide (fields.length = 8)
  | .tablePlan _ sizes => decide (sizes.length = 9)
  | .stageDefaults _ _ pf nm => decide (pf.length = 20) && decide (nm.length = 20)
  | .stageSpread _ _ _ _ _ profiles _ => decide (profiles.length = 28)
  | .stageGraph _ _ _ start _ => decide (start.length = 20)
  | .stackGroup _ _ _ members => decide (members.length = 8)
  | .editLoad _ _ raw => decide (raw.length = 128)
  | .backendAdd _ _ _ _ addr subnqn => decide (addr.length = 16) && decide (subnqn.length = 224)
  | .programLoad _ engset _ _ => allBelow 1024 engset
  | .bankSwitch _ engset _ => allBelow 1024 engset
  | .programQuery _ engset => allBelow 1024 engset
  | .loadBlock data _ => decide (data.length ≤ 4096)
  | _ => true

end Sys2Proof
end

