-- ==== Sys2Proof/Tests/Slice0.lean ====
section
/-!
SUPPORT. Tests: the smoke test of WellFormed, witnesses that the hypotheses of the statements can be met together, clause by clause at values where
clauses meet, and a few single steps whose results the spec states.
-/

namespace Sys2Proof.Tests

open Sys2Proof Sys2Proof.Machine

set_option Elab.async false

/-! ### Small states -/

/-- A work item of program 1 without arrivals. -/
def item : Item :=
  { tick := 0, program := 1, entry := 1, retry := false, firstStatus := 0, kind := 1, op := none, inst := 0, gen := 0, stack := false, arg := [],
    arrivals := [], owner := 0x8000 }

/-- A READY context with some registers, at pc 0x40. -/
def ready (regs : FMap Word) : Thread := { Thread.reset with st := .run, pc := 0x40, item := some item, root := 1, regs := regs }

/-- The reset state with some contexts on engine 0. -/
def onEngine (ts : FMap Thread) : State :=
  { State.reset with erg := { State.reset.erg with engines := [(0, { Engine.reset with threads := ts })] } }

/-- An issue of context `k` of engine 0. -/
def iss (k : Fin 8) : Issue := { eng := 0, thr := k, compressed := false, fetchBad := false }

/-- The reset state with some registers on T1. -/
def worker (regs : FMap Word) : State := onEngine [(1, ready regs)]

/-- The reset state with some registers on T0. -/
def groom (regs : FMap Word) : State := onEngine [(0, { ready regs with root := 0 })]

/-- `s` with another engine 0. -/
def withEng (s : State) (f : Engine → Engine) : State := { s with erg := { s.erg with engines := [(0, f (s.eng 0))] } }

/-- `s` with another context 1 of engine 0. -/
def withT1 (s : State) (f : Thread → Thread) : State := withEng s (fun e => { e with threads := [(1, f (e.thr 1))] })

/-! ### Witnesses: engines -/

/-- O1, O2: a READY worker, T1, and T0 issue in cycle 0; a branch condition holds of its registers, and another does not. -/
theorem witness_O1 : (worker []).Issues (iss 1) 0 1 ∧ (groom []).Issues (iss 0) 0 0 ∧ (onEngine [(7, ready [])]).Issues (iss 7) 0 7 := by
  unfold State.Issues; decide

theorem witness_O2 : (worker [(5, 1)]).Issues (iss 1) 0 1 ∧ Claims.Branches .ltu (((worker [(5, 1)]).running (iss 1)).reg 0) (((worker [(5, 1)]).running (iss 1)).reg 5) ∧
    ¬ Claims.Branches .eq (((worker [(5, 1)]).running (iss 1)).reg 0) (((worker [(5, 1)]).running (iss 1)).reg 5) := by
  unfold State.Issues Claims.Branches; decide

/-- A worker on an engine with DBGEN set, in lifecycle state DEVELOPMENT. -/
def debugged : State :=
  let s := withEng (worker []) (fun e => { e with dbgen := true })
  { s with nv := { s.nv with lifecycle := 1 } }

/-- O3: T0 and a worker without DBGEN, and a worker that DBGEN and the lifecycle let be held; a word that spells no instruction. -/
theorem witness_O3 : (groom []).Issues (iss 0) 0 0 ∧ (worker []).Issues (iss 1) 0 1 ∧ ((worker []).eng 0).dbgen = false ∧
    debugged.Issues (iss 1) 0 1 ∧ (debugged.eng 0).dbgen = true ∧ debugged.debugAllowed 0 = true ∧ decodeErg (0 : Word).toNat = none := by
  unfold State.Issues; decide

/-- O4: a misaligned address, the first address of no region, the ends of the data store and of the shared store, a place that is checked and one that
is not; the boundary of the checked partition. -/
theorem witness_O4 : (worker [(5, 0x10000), (6, 0x2FFFF8), (7, 0x180000), (8, 0xFFFFC), (9, 2)]).Issues (iss 1) 0 1 ∧
    (let s := worker [(5, 0x10000), (6, 0x2FFFF8), (7, 0x180000), (8, 0xFFFFC), (9, 2)]
     let x := s.running (iss 1)
     s.locate 0 1 (x.reg 9 + (0 : BitVec 12).signExtend 32).toNat 4 = .bad 2 ∧ s.locate 0 1 (x.reg 5 + (0xFFF : BitVec 12).signExtend 32).toNat 1 = .bad 3 ∧
     s.locate 0 1 (x.reg 5 + (0 : BitVec 12).signExtend 32).toNat 4 = .store 0x10000 ∧ s.checked 0 (.store 0x10000) = false ∧
     s.locate 0 1 (x.reg 6 + (7 : BitVec 12).signExtend 32).toNat 1 = .shared 0x2FFFFF ∧ s.checked 0 (.shared 0x2FFFFF) = false ∧
     s.locate 0 1 (x.reg 7 + (0xFFF : BitVec 12).signExtend 32).toNat 1 = .shared 0x17FFFF ∧ s.checked 0 (.shared 0x17FFFF) = true ∧
     (x.reg 7).toNat % 8 = 0 ∧ 0x100000 ≤ (x.reg 7).toNat ∧ (x.reg 7).toNat < 0x300000 ∧ (s.yard 0).boundary ≤ (x.reg 7).toNat ∧
     (x.reg 6).toNat % 8 = 0 ∧ (x.reg 6).toNat < 0x300000 ∧ (x.reg 9).toNat % 4 ≠ 0 ∧ (x.reg 8).toNat % 4 = 0 ∧ (x.reg 8).toNat < 0x100000) := by
  unfold State.Issues; decide

/-- O5: a CSR that is read and one that is absent; forms that write and one that does not; a worker and T0. -/
theorem witness_O5 : (worker []).Issues (iss 1) 0 1 ∧ (groom [(5, 0x00020080)]).Issues (iss 0) 0 0 ∧
    (((worker []).takeCycle 0 1 0 1).csrRead 0 1 0 0xFC1).isSome = true ∧ ((worker []).takeCycle 0 1 0 1).csrRead 0 1 0 0x123 = none ∧
    ¬ Claims.CsrWrites .rs (.reg 0) ∧ ¬ Claims.CsrWrites .rc (.uimm 0) ∧ Claims.CsrWrites .rw (.reg 0) ∧ Claims.CsrWrites .rs (.reg 5) ∧
    (Claims.csrWritten .rw 0 (Claims.csrSource ((groom [(5, 0x00020080)]).running (iss 0)) (.reg 5))).toNat / 65536 % 256 = 2 := by
  unfold State.Issues Claims.CsrWrites; decide

/-- T1 to T7 all run, T3, whose slot comes first, with some registers. -/
def allBusy (regs : FMap Word) : State := onEngine ([1, 2, 3, 4, 5, 6, 7].map (fun k => (k, ready (if k = 3 then regs else []))))

/-- A yard in which T1 alone lives, blocked in a receive. -/
def waiting : State := withT1 (worker []) (fun t => { t with st := .recv, blk := .recv 0 5 })

/-- A loaded engine whose fault channel holds a record. -/
def faulted : State := withEng (onEngine []) (fun e => { e with bankA := { Bank.empty with program := 1, entries := [0x40] }, faultCh := [{ msg := { dst := 0, stamp := 0, words := [1] }, read := 0 }] })

/-- O6: T0, an odd entry, the first entry outside the window, a full engine, a fork at the last entry of the window on the lowest FREE context; joins of
ended threads with and without a status, of itself alone, and of a live one; an unblocked join; a groom that has a record; a yard that waits. -/
theorem witness_O6 : (groom []).Issues (iss 0) 0 0 ∧ (worker [(5, 0x41), (6, 0x4000), (7, 0x3FFE), (8, 4), (9, 2)]).Issues (iss 1) 0 1 ∧
    (let s := worker [(5, 0x41), (6, 0x4000), (7, 0x3FFE), (8, 4), (9, 2)]
     let x := s.running (iss 1)
     (x.reg 5).toNat % 2 = 1 ∧ (x.reg 6).toNat % 2 = 0 ∧ 0x4000 ≤ (x.reg 6).toNat ∧ (x.reg 7).toNat % 2 = 0 ∧ (x.reg 7).toNat < 0x4000 ∧
     (s.thr 0 2).st = .free ∧ (s.thr 0 1).st ≠ .free ∧ (x.reg 8).toNat % 2 = 0 ∧ (x.reg 8).toNat < 256 ∧ (x.reg 8).toNat / 2 ^ 2 % 2 = 1 ∧ (s.thr 0 2).kept = 0) ∧
    (allBusy [(5, 0x3FFE), (6, 4)]).Issues (iss 3) 0 0 ∧ (∀ d, d < 8 → 1 ≤ d → ((allBusy [(5, 0x3FFE), (6, 4)]).thr 0 d).st ≠ .free) ∧
    (waiting.thr 0 1).st ≠ .free ∧ faulted.engActive 0 = true ∧ (faulted.thr 0 0).st = .free ∧ faulted.time.phase ≠ .turn ∧ (faulted.eng 0).bank.program ≠ 0 ∧
    (faulted.eng 0).faultCh ≠ [] ∧ (waiting.logicalYard 0).isSome = true ∧ waiting.time.phase = .work ∧ waiting.liveSet 0 = [(0, 1)] ∧ (waiting.thr 0 1).held = false ∧
    (waiting.thr 0 1).st = .recv ∧ waiting.inFlightTo ((waiting.logicalYard 0).getD 0) = false ∧ (waiting.yard 0).reported = false := by
  unfold State.Issues; decide

/-- What JOIN returns: the kept status of the one ended thread that is named, 0 when none is named, and the lowest of two. -/
theorem witness_O6_join : (onEngine [(1, ready [(5, 4)]), (2, { Thread.reset with kept := 1 })]).Issues (iss 1) 0 1 ∧
    Claims.JoinResult (onEngine [(1, ready [(5, 4)]), (2, { Thread.reset with kept := 1 })]) 0 1 4 1 ∧ Claims.JoinResult (worker []) 0 1 2 0 := by
  refine ⟨by unfold State.Issues; decide, ⟨fun d h => ?_, .inr ⟨2, by unfold Claims.Named; decide, by decide, by decide, fun d h l => ?_⟩⟩, ⟨fun d h => ?_, .inl ⟨rfl, fun d h => ?_⟩⟩⟩ <;>
    (obtain ⟨h1, h2, h3, h4⟩ := h; interval_cases d <;> first | rfl | omega)

/-- A blocked join of T2 by T1. -/
def joining : State := withT1 (worker []) (fun t => { t with st := .join, blk := .join 4 5 })
theorem witness_O6_unblock : (joining.thr 0 1).st = .join ∧ (joining.thr 0 1).blk = .join 4 5 := by decide

/-- O6, what a wait is for: T1 has no message, or joins T2, which runs. -/
theorem witness_O6_wait : ((waiting.thr 0 1).blk = .recv 0 5 ∧ (waiting.thr 0 1).chan 0 = []) ∧
    (let s := withEng joining (fun e => { e with threads := (2, ready []) :: e.threads })
    (s.thr 0 1).st = .join ∧ (s.thr 0 1).blk = .join 4 5 ∧ Claims.Named 1 (4 : Word).toNat 2 ∧ (s.thr 0 2).st ≠ .free) := by
  unfold Claims.Named; decide

/-- T1 with eight threads' worth of channel words: its send buffer is full, and a second engine's context has room. -/
def sends (n : Nat) : State :=
  withT1 (worker [(5, 4), (6, 0), (7, 0x8004), (8, 3)]) (fun t => { t with sendq := [{ dst := 4, stamp := 0, words := List.replicate n 7 }] })

/-- A message of one word as a channel holds it. -/
def msg (stamp : Nat) : RxMsg := { msg := { dst := 4, stamp := stamp, words := [9] }, read := 0 }

/-- T1 with a message in channel 0. -/
def hears : State := withT1 (worker []) (fun t => { t with rx := [(0, [msg 0])] })

/-- T0 with a record in its fault channel, and 3 in x8. -/
def reports : State := withEng (groom [(8, 3)]) (fun e => { e with faultCh := [msg 0] })

/-- O7, sending: T0; no open message and an address above bit 14 or without a thread; an address that names one with 31 words and with 32 in the buffer,
and an open message whatever the address. -/
theorem witness_O7_send : (groom [(8, 3)]).Issues (iss 0) 0 0 ∧ ((groom [(8, 3)]).eng 0).itemOf 0 = some item ∧ (sends 31).Issues (iss 1) 0 1 ∧
    (sends 32).Issues (iss 1) 0 1 ∧ ((sends 31).eng 0).itemOf 1 = some item ∧
    (let x := (sends 31).running (iss 1)
     x.openMsg = none ∧ 32768 ≤ (x.reg 7).toNat ∧ (x.reg 6).toNat / 4 % 8 = 0 ∧ (x.reg 5).toNat < 32768 ∧ (x.reg 5).toNat / 4 % 8 ≠ 0 ∧ x.sendWords < 32 ∧
     32 ≤ ((sends 32).running (iss 1)).sendWords) ∧
    (withT1 (worker []) (fun t => { t with openMsg := some { dst := 4, stamp := 0, words := [1] } })).Issues (iss 1) 0 1 := by
  unfold State.Issues; decide

/-- O7, receiving: T0 on channel 0 and on channel 3 with a record; a worker with a message of its tick, and one without. -/
theorem witness_O7_receive : reports.Issues (iss 0) 0 0 ∧ ((reports.running (iss 0)).reg 8).toNat % 4 = 3 ∧ ((reports.running (iss 0)).reg 5).toNat % 4 ≠ 3 ∧
    Claims.Reads (reports.eng 0).faultCh 9 [] ∧ hears.Issues (iss 1) 0 1 ∧
    (let s1 := hears.takeCycle 0 1 0 1
     let x := hears.running (iss 1)
     let s2 := s1.setEng 0 (((s1.eng 0).setThr 1 { x.charge 0 with rx := FMap.set [] x.rx 0 (Claims.fresh 0 (x.chan 0)) }).addStale 0)
     Claims.Reads (s2.chanOf 0 1 0) 9 []) ∧
    (let s := worker []
     let s1 := s.takeCycle 0 1 0 1
     let x := s.running (iss 1)
     s.Issues (iss 1) 0 1 ∧ (s1.setEng 0 (((s1.eng 0).setThr 1 { x.charge 0 with rx := FMap.set [] x.rx 0 (Claims.fresh 0 (x.chan 0)) }).addStale 0)).chanOf 0 1 0 = []) := by
  refine ⟨by unfold State.Issues; decide, by decide, by decide, ⟨msg 0, [], by decide, by decide, by decide⟩, by unfold State.Issues; decide, ⟨msg 0, [], ?_, by decide, by decide⟩,
    by unfold State.Issues; decide, ?_⟩ <;> decide

/-- O7, unblocking and delivery: a sender that has room again, T0 and a worker with something to read, a worker with a stale message alone, a message that
its channel has credit for. -/
theorem witness_O7_unblock :
    (let s := withT1 (worker []) (fun t => { t with st := .send, blk := .send 4 9 true })
     (s.thr 0 1).st = .send ∧ (s.thr 0 1).blk = .send 4 9 true ∧ (s.eng 0).itemOf 1 = some item ∧ (s.thr 0 1).sendWords < 32) ∧
    (let s := withEng reports (fun e => { e with threads := [(0, { e.thr 0 with st := .recv, blk := .recv 3 5 })] })
     (s.thr 0 0).st = .recv ∧ (s.thr 0 0).blk = .recv 3 5 ∧ (s.eng 0).faultCh = [msg 0]) ∧
    (let s := withT1 hears (fun t => { t with st := .recv, blk := .recv 0 5 })
     (s.thr 0 1).st = .recv ∧ (s.thr 0 1).blk = .recv 0 5 ∧ (s.staleDiscard 0 1 0).chanOf 0 1 0 = [msg 0]) ∧
    (let s := withT1 hears (fun t => { t with st := .recv, blk := .recv 0 5, item := some { item with tick := 5 } })
     (s.thr 0 1).st = .recv ∧ (s.thr 0 1).blk = .recv 0 5 ∧ s.chanOf 0 1 0 ≠ [] ∧ (s.staleDiscard 0 1 0).chanOf 0 1 0 = []) ∧
    (((sends 16).thr 0 1).sendq = [{ dst := 4, stamp := 0, words := List.replicate 16 7 }] ∧ (sends 16).peng (4 / 32 % 1024) = some 0 ∧
      16 ≤ ((sends 16).thr 0 1).credit 0) := by
  decide

/-- An arrival of 64 bytes in the first buffer of pool P0. -/
def frame64 : Arrival :=
  { kind := 1, entry := 1, op := none, inst := 0, gen := 0, arg := [], stack := false, handle := 0x20000000, len := 64, source := 0, status := 0, action := 0,
    aux := 0, hv := [] }

/-- A work item of two arrivals, the second without a buffer. -/
def frames : Item := { item with arrivals := [frame64, { frame64 with handle := 0 }] }

/-- A worker whose item owns the live buffer of an arrival. -/
def holder (regs : FMap Word) : State :=
  { (State.reset.alloc 64 false 0x8000).2 with erg := (onEngine [(1, { ready regs with item := some frames })]).erg }

/-- The registers of the packet instructions' witnesses: numbers of arrivals, sizes, names, handles and blocks. -/
def pkRegs : FMap Word := [(5, 1), (6, 2), (7, 0x7FFFFFFF), (8, 0x20000000), (9, 0x3FFF), (10, 0x4000), (11, 0x8000), (12, 0x10000), (13, 0x17FC0), (14, 64), (15, 63), (16, 0x10004), (17, 0x18000)]

/-- An empty table that engines may look up. -/
def engineTable : Table :=
  { type := .exact, keylen := 4, capacity := 1024, resident := false, engine := true, tseed := 0, fields := [], entries := [] }

/-- `holder` with queue 0, tables 63 (for engines) and 62 (not), and an enqueue block of a 64-byte frame, then a request of 8 bytes for unit 1 at the last
block of the data store. -/
def packets : State :=
  let s := withEng (holder pkRegs) (fun e => { e with store := Mem.wrN (Mem.wrN [] 0x10000 [0, 0, 64, 0]) 0x17FC4 [1, 0, 0, 0, 0, 0, 0, 0, 0, 0, 0, 0, 8] })
  { s with tm := { s.tm with queues := [(0, some { dest := 0, cls := 0, tenant := 0, quantum := 1, maxBytes := 65536, spill := 0, leaves := [0], closed := [] })] },
           cls := { s.cls with cur := { s.cls.cur with tables := [(62, some { engineTable with engine := false }), (63, some engineTable)] } } }

/-- `packets` with a full list of owners on the buffer. -/
def crowded : State := ((((packets.addOwner 0x20000000 1).getD packets).addOwner 0x20000000 2).getD packets |>.addOwner 0x20000000 3).getD packets

/-- O8, handles: arrivals 0 with a buffer, 1 without, no arrival 2; an allocation that succeeds and one that no pool fits; a dead handle; names at the
ends of the range; a free owner slot and none; a name that is on the list and one that is not, and one above 16 bits. -/
theorem witness_O8_handles : packets.Issues (iss 1) 0 1 ∧ crowded.Issues (iss 1) 0 1 ∧
    (let x := packets.running (iss 1)
     let s1 := packets.takeCycle 0 1 0 1
     (packets.eng 0).itemOf 1 = some frames ∧ frames.arrivals[(x.reg 0).toNat]? = some frame64 ∧ frame64.handle ≠ 0 ∧
     (frames.arrivals[(x.reg 5).toNat]?.map (·.handle)) = some 0 ∧ frames.arrivals[(x.reg 6).toNat]? = none ∧
     (s1.allocChecked false ((x.reg 14).toNat % 2 ^ 31) ((x.reg 14).getLsbD 31) 0x8000).1 = some 0x20000001 ∧
     (s1.allocChecked true ((x.reg 14).toNat % 2 ^ 31) ((x.reg 14).getLsbD 31) 0x8000).1 = some 0x20000002 ∧
     (s1.allocChecked false ((x.reg 7).toNat % 2 ^ 31) ((x.reg 7).getLsbD 31) 0x8000).1 = none ∧
     packets.isLive (x.reg 0) = false ∧ packets.isLive (x.reg 8) = true ∧ (x.reg 0).toNat = 0 ∧ 0x3FFF < (x.reg 10).toNat ∧ (x.reg 9).toNat ≤ 0x3FFF ∧ 0 < (x.reg 5).toNat ∧
     (s1.addOwner (x.reg 8) ((x.reg 9).setWidth 16)).isSome = true ∧ ((crowded.takeCycle 0 1 0 1).addOwner (x.reg 8) ((x.reg 9).setWidth 16)).isNone = true ∧
     (x.reg 11).toNat < 65536 ∧ packets.ownedBy (x.reg 8) ((x.reg 11).setWidth 16) = true ∧ packets.ownedBy (x.reg 8) ((x.reg 9).setWidth 16) = false ∧ 65536 ≤ (x.reg 12).toNat) := by
  unfold State.Issues; decide +kernel

/-- O8, blocks: the first and the last of the data store, one misaligned and the first address after it; an enqueue to a queue that exists and one that is
malformed; a request that is well formed and one for no unit; tables 62, 63 and none. -/
theorem witness_O8_blocks : (let x := packets.running (iss 1)
     let s1 := packets.takeCycle 0 1 0 1
     Claims.Block (x.reg 12) 16 ∧ Claims.Block (x.reg 13) 64 ∧ (x.reg 16).toNat % 16 ≠ 0 ∧ (x.reg 17).toNat % 64 = 0 ∧ 0x18000 ≤ (x.reg 17).toNat ∧ (x.reg 0).toNat < 0x10000 ∧
     (let block := packets.storeBytes 0 (x.reg 12).toNat 16
      (s1.judgeEnq 0 1 (fieldLe block 0 2) (enqFrame (x.reg 8) block)).isSome = true) ∧
     (let block := packets.storeBytes 0 (x.reg 13).toNat 16
      s1.judgeEnq 0 1 (fieldLe block 0 2) (enqFrame (x.reg 8) block) = none) ∧
     (let block := packets.storeBytes 0 (x.reg 13).toNat 64
      postBlockOk (x.reg 5).toNat block = true ∧ s1.unitFull (x.reg 5).toNat = false ∧ packets.holdRefuses (x.reg 5).toNat 0xFFFF = false) ∧
     (x.reg 0).toNat = 0 ∧ 8 < (x.reg 14).toNat ∧ 63 < (x.reg 14).toNat ∧ (x.reg 15).toNat ≤ 63 ∧
     packets.cls.cur.table (x.reg 15).toNat = some engineTable ∧ (s1.lookupChecked (x.reg 15).toNat engineTable (packets.storeBytes 0 (x.reg 13).toNat 40) none).2.1 = none ∧
     (s1.lookupChecked (x.reg 15).toNat engineTable (packets.storeBytes 0 (x.reg 13).toNat 40) (some (.line 0 ([], 1) ([], 1)))).1 = true ∧
     packets.cls.cur.table (x.reg 6).toNat = none) := by
  unfold Claims.Block; decide +kernel

/-- O8, a unit that is full: 4,096 requests wait for unit 3. -/
theorem witness_O8_full (r : AccelReq) : (State.unitFull { packets with accel := { packets.accel with queues := [List.replicate 4096 r, [], []] } } 3) = true := by
  unfold State.unitFull
  have : ((List.replicate 4096 r :: [[], []]).getD (3 - 3) ([] : List AccelReq)).length = 4096 := List.length_replicate
  simp only [Bool.and_eq_true, decide_eq_true_eq, Bool.or_eq_true]
  refine ⟨by decide, ?_⟩
  show 4096 ≤ ((List.replicate 4096 r :: [[], []]).getD (3 - 3) ([] : List AccelReq)).length + _ + _
  rw [this]
  omega

/-! ### Witnesses: power, reset, ticks and the clock -/

/-- The reset state with other power fields. -/
def powered (f : Power → Power) : State := { State.reset with power := f State.reset.power }

/-- The reset state with other fields of time. -/
def timed (f : Time → Time) : State := { State.reset with time := f State.reset.time }

/-- The reset state after the SP's release, with a charged bank of 100 J at 52 V. -/
def running : State :=
  { powered (fun p => { p with holdupMv := 52000, cm := 87, estimate := 5000 }) with boot := { State.reset.boot with stage := .released } }

/-- O9: a feed that rises at 6 V; a module that waits for PWR_GOOD; the ends of the sag band; interruptions with the warning due and not, of a module whose SP
runs and of one without supply; a return with and without a record to take back; a ride-through at and above the warning's voltage. -/
theorem witness_O9 :
    (powered (fun p => { p with st := .down })).power.st = .down ∧ (6000 : Nat) ≤ 6000 ∧ (5999 : Nat) < 6000 ∧ (5500 : Nat) ≤ 5500 ∧
    (let p := (powered (fun p => { p with pwrGood := false })).power
     p.st = .feed ∧ p.pwrGood = false ∧ p.resetInLow = false) ∧
    (let p := running.power
     p.st = .feed ∧ p.pwrGood = true ∧ running.boot.stage ≠ .waitRepair ∧ p.warn = false ∧ ¬ Claims.WarnDue p p.holdupMv) ∧
    (let p := (powered (fun p => { p with pwrGood := false, holdupMv := 52000, cm := 87, estimate := 5000 })).power
     p.st = .feed ∧ p.pwrGood = false ∧ ¬ Claims.WarnDue p p.holdupMv) ∧
    Claims.WarnDue State.reset.power State.reset.power.holdupMv ∧ State.reset.power.st = .feed ∧
    (let s := { running with power := { running.power with st := .rideThrough, prevUnsafe := some 3 } }
     s.power.st = .rideThrough ∧ s.power.prevUnsafe = some 3 ∧ s.power.pwrGood = true ∧ s.boot.stage ≠ .waitRepair ∧ Claims.WarnDue s.power 25500 ∧
     ¬ Claims.WarnDue s.power 25501) := by
  unfold Claims.WarnDue; decide +kernel

/-- O10: a junction and a plate at and below each limit; a tripped module at 95 °C and just below; a cap at each end of its rise; stages that work and have
failed; RESET_IN_N low; a reset that is due and none; a channel in service. -/
theorem witness_O10 : State.reset.power.st = .feed ∧ (1600 : Int) ≤ 1600 ∧ (1360 : Int) < 1361 ∧ (1599 : Int) < 1600 ∧ (1551 : Int) < 1552 ∧ (1327 : Int) < 1328 ∧
    (powered (fun p => { p with st := .down })).power.st = .down ∧ (1680 : Int) ≤ 1680 ∧ (1631 : Int) < 1632 ∧ (1632 : Int) ≤ 1632 ∧ (1840 : Int) ≤ 1840 ∧
    (powered (fun p => { p with thermalCap := some 83000 })).power.thermalCap = some 83000 ∧ (83000 + 2000 : Nat) ≤ 85000 ∧ 85000 < 83001 + 2000 ∧
    State.reset.power.thermalCap = none ∧ (powered (fun p => { p with st := .tripped })).power.st = .tripped ∧ (1519 : Int) < 1520 ∧
    State.reset.repair.stages.getD 13 false = true ∧ (modifyAt State.reset.repair.stages 13 (fun _ => false)).getD 13 false = false ∧
    (powered (fun p => { p with resetInLow := true })).power.resetInLow = true ∧
    ({ State.reset with dev := { State.reset.dev with resetAt := some 0 } } : State).dev.resetAt = some 0 ∧ (0 : Nat) ≤ State.reset.time.tick ∧
    State.reset.dev.resetAt = none ∧ State.reset.repair.channels.getD 3 false = true := by
  decide +kernel

/-- A turn at the boundary before PTP second 1, where a period change is due. -/
def atSecond : State := timed (fun t => { t with phase := .turn, ns := 999999000, pendPeriod := some (0, 1) })

/-- O12, phases: a module in each phase, with and without supply, with a period change that is due and with none. -/
theorem witness_O12_phases : atSecond.time.phase = .turn ∧ atSecond.power.pwrGood = true ∧ atSecond.time.pendPeriod = some (0, 1) ∧ atSecond.nextStart = (1, 0) ∧
    (timed (fun t => { t with phase := .turn })).time.phase = .turn ∧ State.reset.time.pendPeriod = none ∧ State.reset.time.phase = .work ∧ State.reset.power.pwrGood = true ∧
    (timed (fun t => { t with phase := .commit })).time.phase = .commit ∧ (powered (fun p => { p with pwrGood := false })).power.pwrGood = false := by
  decide +kernel

/-- O12, sources: the PPS input, with none selected and while PTP is; the stack master likewise; a source that is not possible; each state of the clock, at
the bound of the hold-over and just before, and an offset that was small for 16 s and for just less; a lost source with another one left and with none. -/
theorem witness_O12_sources : State.reset.sourceOk (TimeSource.num .pps) = true ∧ State.reset.time.source = 0 ∧
    (let s := timed (fun t => { t with source := 2, qualPps := true })
     s.time.source ≠ 0 ∧ s.sourceOk (TimeSource.num .pps) = true ∧
       (State.clockTo { s with time := (s.time.setQual s.time.source false).keepPhase } .freerun 0).bestSource = some 3) ∧
    (timed (fun t => { t with source := 2, qualPps := true })).time.source ≠ TimeSource.num .pps ∧
    (let s := timed (fun t => { t with clock := .locked, source := 3, qualPps := true, stateNs := 300000000000 })
     s.time.clock = .locked ∧ 300000000000 ≤ s.time.stateNs ∧ (State.clockTo { s with time := s.time.setQual s.time.source false } .holdover 0).bestSource = none) ∧
    State.reset.sourceOk (TimeSource.num .stack) = false ∧ State.reset.time.clock ≠ .acquiring ∧
    (let t := (timed (fun t => { t with clock := .acquiring, belowNs := 16000000000 })).time
     t.clock = .acquiring ∧ 16000000000 ≤ t.belowNs ∧ t.belowNs - 1 < 16000000000) ∧
    (let s := timed (fun t => { t with clock := .holdover, stateNs := 14400000000000 })
     s.time.clock = .holdover ∧ s.time.holdoverSec * 1000000000 ≤ s.time.stateNs ∧ s.time.stateNs - 1 < s.time.holdoverSec * 1000000000) := by
  decide +kernel

/-! ### Witnesses: the host endpoint and the mailboxes -/

/-- The reset state with the link up and some functions written. -/
def linked (fns : FMap Fn) : State :=
  { State.reset with pcie := { State.reset.pcie with linkUp := true, perst := false, fns := fns }, boot := { State.reset.boot with endpointUp := true } }

/-- A function with some configuration bytes. -/
def cfg (bs : FMap Byte) : Fn := { Fn.reset with cfg := bs }

/-- Bus mastering PF0 and PF1 with memory space, and PF1 with two virtual functions. -/
def host : State := linked [(0, cfg [(4, 6)]), (1, cfg [(4, 6), (0x150, 9), (0x158, 2)])]

/-- A read of PF1 that was issued in tick 0 with a timeout of `n` ticks under tag 5, of a function in FLR or not. -/
def reading (n : Nat) (orphan : Bool) : State :=
  { host with pcie := { host.pcie with tags := [(5, some { req := { fn := 1, group := 0, off := 0, addr := 0, len := 64, stamp := 0 }, issued := 0, timeout := n, orphan := orphan })] } }

/-- O14, functions: a PF and the last VF, one that does not exist, one in FLR with a request outstanding and one without. -/
theorem witness_O14_functions : host.fnExists 1 = true ∧ (host.fn 1).flr = false ∧ host.fnExists (vfNet 1) = true ∧ (host.fn (vfNet 1)).flr = false ∧ host.fnExists (vfNet 2) = false ∧
    host.fnExists 0 = true ∧ (host.fn 0).flr = false ∧
    (let s := linked [(1, { Fn.reset with flr := true })]
     (s.fn 1).flr = true ∧ s.fnBusy 1 = false) ∧ (reading 1 false).fnBusy 1 = true := by
  decide +kernel

/-- O14, the link: a rate and width that it has and ones that it has not, 64 GT/s without flits, PERST_N; power states, with and without the link; ASPM. -/
theorem witness_O14_link : (640 : Nat) ∈ [25, 50, 80, 160, 320, 640] ∧ (16 : Nat) ∈ [1, 2, 4, 8, 16] ∧ host.pcie.perst = false ∧ host.boot.endpointUp = true ∧ (641 : Nat) ∉ [25, 50, 80, 160, 320, 640] ∧
    (3 : Nat) ∉ [1, 2, 4, 8, 16] ∧ State.reset.pcie.perst = true ∧ BadRequest.ioRequest ≠ .absentFunction ∧ BadRequest.ioRequest ≠ .poisoned ∧ host.fnExists 0x2100 = false ∧
    ((linked [(1, { Fn.reset with flr := true })]).fn 1).flr = true ∧ (host.fn 2).d3 = false ∧ ((linked [(2, { Fn.reset with d3 := true })]).fn 2).d3 = true ∧
    host.pcie.linkUp = true ∧ State.reset.pcie.linkUp = false ∧
    (let s := linked [(0, cfg [(0x80, 2)])]
     s.pcie.lstate = .l0 ∧ s.pcieIdle = true ∧ bitOf ((s.fn 0).cfgField 0x80 2) 1 = true) := by
  decide +kernel

/-- O15, accesses: a function that decodes and one that does not; the last 8 bytes of a BAR, 9 bytes, and 2 bytes across an 8-byte unit; a write of 4 bytes
at an offset that is a multiple of 4 and ones that are not; BAR 0 and 2 of PF1; the bounds of its vector table; enough bus numbers for virtual functions and one too few,
enabled and not. -/
theorem witness_O15_accesses : host.decodes 1 = true ∧ host.decodes 2 = false ∧ 0 < 8 ∧ 0x1FF8 + 8 ≤ barSize 1 0 ∧ 0x1FF8 / 8 = (0x1FF8 + 8 - 1) / 8 ∧ 8 < 9 ∧ 7 / 8 ≠ (7 + 2 - 1) / 8 ∧
    host.decodes 0 = true ∧ [0, 0, 0, 0] ≠ ([] : List Byte) ∧ 0x7FFC + 4 ≤ barSize 1 2 ∧ 0x8000 + 4 ≤ barSize 1 2 ∧ 0x7FFC % 4 = 0 ∧ 2 % 4 ≠ 0 ∧
    (4 : Nat) ∈ [1, 2, 4] ∧ 4092 + 4 ≤ 4096 ∧ host.fnExists 0x2100 = false ∧ host.fnExists 1 = true ∧ (host.fn 1).flr = false ∧
    ((linked [(1, { Fn.reset with flr := true })]).fn 1).flr = true ∧ setsBit 0x78 (leBytes 2 0x8000) 0x79 7 = true ∧ setsBit 0x78 (leBytes 2 0x7FFF) 0x79 7 = false ∧
    setsBit 0x44 (leBytes 2 0x7FFF) 0x45 7 = false ∧ 33 ≤ 33 ∧ 32 < 33 ∧ (Mem.rd (host.fn 1).cfg 0x150).getLsbD 0 = true ∧ (Mem.rd (host.fn 2).cfg 0x150).getLsbD 0 = false ∧
    FMap.wf 0 (host.fn 2).cfg = true := by
  decide +kernel

/-- O15, completions: a tag in use, at its timeout and after it, with and without an orphan; a tag in quarantine at and before its end; a tag of neither. -/
theorem witness_O15_completions : ((reading 1 false).tagUse 5).isSome = true ∧ (reading 0 false).time.tick ≤ 0 + 0 ∧
    (let s := { reading 0 true with time := { (reading 0 true).time with tick := 1 } }
     (s.tagUse 5).isSome = true ∧ 0 + 0 < s.time.tick) ∧
    ((reading 0 false).tagUse 5).map (·.orphan) = some false ∧ ((reading 0 true).tagUse 5).map (·.orphan) = some true ∧ host.tagUse 5 = none ∧ host.quarantineOf 5 = none ∧
    (let s := { host with pcie := { host.pcie with quarantine := [(5, some (1, 0, 0)), (6, some (1, 0, 1))] } }
     s.quarantineOf 5 = some (1, 0, 0) ∧ 0 ≤ s.time.tick ∧ s.quarantineOf 6 = some (1, 0, 1) ∧ s.time.tick < 1 ∧ s.tagUse 5 = none) := by
  decide +kernel

/-- A read of PF1 waits for a tag, while `n` tags are in use. -/
def tagged (n : Nat) : State :=
  let r : ReadReq := { fn := 1, group := 0, off := 0, addr := 0, len := 64, stamp := 0 }
  { host with pcie := { host.pcie with waiting := [r], tags := (List.range n).map (fun t => (t, some { req := r, issued := 0, timeout := 1, orphan := false })) } }

/-- O15, a waiting read: while a tag is free, while all 256 are in use, and none. -/
theorem witness_O15_waiting : (tagged 0).pcie.waiting ≠ [] ∧ (tagged 0).freeTag.isSome = true ∧ (tagged 256).freeTag = none ∧ host.pcie.waiting = [] := by
  refine ⟨by decide, ?_, ?_, rfl⟩
  · obtain ⟨i, h⟩ := pickFree_isSome (s := tagged 0) (kind := 2) (lo := 0) (n := (tagged 0).tagPool) (ks := FMap.keys (tagged 0).pcie.tags ++ FMap.keys (tagged 0).pcie.quarantine) (by decide +kernel)
    unfold State.freeTag
    rw [h]; rfl
  · unfold State.freeTag
    rw [pickFree_none]
    have : ∀ j, j < 256 → j ∈ FMap.keys (tagged 256).pcie.tags ++ FMap.keys (tagged 256).pcie.quarantine := by decide +kernel
    rw [show (tagged 256).tagPool = 256 by decide +kernel]
    exact fun j _ h => this j (by omega)

/-- A descriptor ring of 8 entries with two entries before the tail, in ERROR or not. -/
def ring (error : Bool) : Queue := { Queue.make 1 3 3 0 0 0 0 1 0 with tail := 2, error := error }

/-- That ring as queue 1 of PF1. -/
def ringed (error : Bool) : State := { host with queues := { host.queues with qs := [(qKey 1 1, some (ring error))] } }

/-- O16: a function that decodes, PF0 and one that does not; a queue that does not exist, one in ERROR, and one whose tail moves by the most that its room
allows, by one more, not at all, and to a value outside the ring; an admin tail that follows its
ENABLE, and one that does not. -/
theorem witness_O16 : host.decodes 1 = true ∧ host.decodes 0 = true ∧ host.decodes 2 = false ∧ host.queue (qKey 1 0xFFF) = none ∧ 0xFFF < 0x1000 ∧
    (ringed true).queue (qKey 1 1) = some (ring true) ∧ (ring true).error = true ∧ (ringed false).queue (qKey 1 1) = some (ring false) ∧ (ring false).error = false ∧
    (let q := ring false
     let room := ((q.oldest + q.size - 1) % q.size + q.size - q.tail) % q.size
     room = 5 ∧ (7 + q.size - q.tail) % q.size = 5 ∧ 7 < q.size ∧ (0 + q.size - q.tail) % q.size = 6 ∧ (2 + q.size - q.tail) % q.size = 0 ∧ q.size ≤ 8) ∧
    (let s := linked [(2, { cfg [(4, 6)] with doorbells := [(0xFFF4, some 0x8000)] })]
     s.decodes 2 = true ∧ fnSto 2 = true ∧ (0xFFFF : Word).toNat / 65536 = 0 ∧ (s.fn 2).enabling = true) ∧ fnSto 1 = false ∧ (host.fn 1).enabling = false := by
  decide +kernel

/-- PF0, the active MP and MP B as sources. -/
def pf0 : Source := { cls := 0, idx := 1 }
def mpA : Source := { cls := 2, idx := 0 }
def mpB : Source := { cls := 2, idx := 1 }

/-- HM0 FULL with a message of PF0, STALE or not, while the firmware serves Mbadel. -/
def posted (stale : Bool) : State :=
  { host with boxes := { host.boxes with mbs := [(0, { Mailbox.reset with ptr := 64, len := 64, full := true, stale := stale, stamp := host.stamp 1 })] },
              boot := { host.boot with mpRunning := true }, dev := { host.dev with state := 2 } }

/-- O17, mailboxes: a sender and one that is none; an empty and a full mailbox; a stamp that is the sender's and one that is not; a receiver that takes the
next HM, of a message in force and a stale one, one at another width, and an HM that is not the next. -/
theorem witness_O17_mailboxes : host.isSender 0 (srcCode pf0) = true ∧ host.isSender 0 (srcCode mpA) = false ∧ (host.mb 0).full = false ∧ FMap.wf Mailbox.reset host.boxes.mbs = true ∧
    ((posted false).mb 0).full = true ∧ ((posted false).mb 0).stamp = (posted false).stamp (srcCode pf0) ∧ (host.mb 0).stamp ≠ host.stamp (srcCode pf0) ∧
    (posted false).isReceiver 0 (srcCode mpA) = true ∧ (posted false).servesMbadel 0 = true ∧ (posted false).nextHm = some 0 ∧ ((posted false).mb 0).stale = false ∧
    (posted true).isReceiver 0 (srcCode mpA) = true ∧ (posted true).servesMbadel 0 = true ∧ (posted true).nextHm = some 0 ∧ ((posted true).mb 0).stale = true ∧
    ((posted true).mb 0).full = true ∧ host.isReceiver 64 (srcCode pf0) = true ∧ host.isReceiver 63 (srcCode mpA) = true ∧ host.nextHm ≠ some 63 ∧
    host.isReceiver 0 (srcCode pf0) = false ∧ host.isReceiver 0 (srcCode mpB) = false ∧ host.isSender 0 (srcCode mpB) = false := by
  decide +kernel

/-- O17, locks and the event ring: the first lock, free and held; a source that shares the locks and one that does not; a ring whose head moves to its tail,
and one that is not enabled. -/
theorem witness_O17_locks : sharesLocks (srcCode pf0) = true ∧ sharesLocks (srcCode { cls := 5, idx := 0 }) = false ∧ host.lock 0 = 0 ∧
    (let s := { host with boxes := { host.boxes with locks := [(63, 1)] } }
     s.lock 63 ≠ 0 ∧ s.lock 63 = srcCode pf0 ∧ (0xABC00001 : Word).toNat % 2 ^ 20 = srcCode pf0 ∧ s.lock 63 ≠ srcCode mpA) ∧
    (let e := { host.events with ringEnabled := true, ringSize := 64, ringTail := 63 }
     e.ringEnabled = true ∧ (63 : Word).toNat < e.ringSize ∧ ((63 : Word).toNat + e.ringSize - e.ringHead) % e.ringSize ≤ (e.ringTail + e.ringSize - e.ringHead) % e.ringSize ∧
     e.ringSize ≤ (64 : Word).toNat) ∧ host.events.ringEnabled = false := by
  decide +kernel

/-! ### Witnesses: lanes, frames, egress and work queues -/

/-- A module that is RUNNING with its lanes UP. -/
def live : State :=
  { host with dev := { host.dev with state := 2, starting := false, causesIn := 0 }, ports := { host.ports with lanes := List.replicate 20 { Lane.reset 1 with st := .up } } }

/-- `s` with lane 0 otherwise. -/
def lane0 (s : State) (f : Lane → Lane) : State := s.modLane 0 f

/-- O18, receiving: a lane that is UP, one that is not, and a module whose dataplane does not run; frames of 63, 64, 9,728 and 9,729 bytes with their FCS, MAC
control and not; the lanes 15 and 16; modes that count FEC blocks and that do not; frames that PTP looks at and that it does not. -/
theorem witness_O18_receive : (live.lane? 15).map (·.st) = some .up ∧ live.dataplane = true ∧ (live.lane? 16).isSome = true ∧ (lane0 live (fun l => { l with st := .down })).lane? 0 ≠ live.lane? 0 ∧
    { live with dev := { live.dev with state := 0 } }.dataplane = false ∧ (List.replicate 59 (0 : Byte)).length + 4 < 64 ∧ 64 ≤ (List.replicate 60 (0 : Byte)).length + 4 ∧
    (Lane.reset 1).maxFrame < 9725 + 4 ∧ 9724 + 4 ≤ (Lane.reset 1).maxFrame ∧ be16 (List.replicate 12 0 ++ [0x88, 0x08] ++ List.replicate 46 0) 12 = 0x8808 ∧
    be16 (List.replicate 60 0) 12 ≠ 0x8808 ∧ (Lane.reset 0).mode = 0 ∧ (Lane.reset 3).mode = 3 ∧ ¬ ((Lane.reset 1).mode = 0 ∨ (Lane.reset 1).mode = 3) ∧
    live.time.source ≠ 2 ∧ be16 (List.replicate 12 0 ++ [0x88, 0xF7]) 12 = 0x88F7 := by
  decide +kernel

/-- A parsed frame that waits. -/
def waitsToClassify : PFrame := { lane := 0, hv := [], bytes := [], handle := 0, noBuf := false, ver := 0, stack := false }

/-- O18, classification and lanes: a queue with a frame and an empty one, with reads left in the tick and with none; lanes that train and that
do not; a stack lane that names its peer, one that names this module and one that names none; a member whose LACPDUs go out elsewhere. -/
theorem witness_O18_lanes : ({ live with cls := { live.cls with queueA := [waitsToClassify] } } : State).cls.queueA = waitsToClassify :: [] ∧ live.cls.readsUsed < live.readAllotment ∧
    live.readAllotment ≤ ({ live with cls := { live.cls with readsUsed := 3000 } } : State).cls.readsUsed ∧ live.cls.queueB = [] ∧ live.dataplane = true ∧
    ((lane0 live (fun l => { l with st := .noLink })).lane? 0).map (fun l => (l.mode, l.st)) = some (1, .noLink) ∧ (live.lane? 0).map (·.st) = some .up ∧
    ((lane0 live (fun l => { l with st := .down, mode := 0 })).lane? 0).map (fun l => (l.mode, l.st)) = some (0, .down) ∧
    (∃ p : Fin 8, (some 1 : Option (Fin 8)) = some p ∧ p.val ≠ live.position) ∧ ¬ (∃ p : Fin 8, (some 0 : Option (Fin 8)) = some p ∧ p.val ≠ live.position) ∧
    ¬ (∃ p : Fin 8, (none : Option (Fin 8)) = some p ∧ p.val ≠ live.position) ∧ live.lacpElsewhere 0 = false ∧ live.lacpMember 0 = true ∧ live.lacpMember 8 = false ∧ live.laneIsUp 0 = true ∧ (lane0 live (fun l => { l with st := .down })).laneIsUp 0 = false := by
  decide +kernel

/-- O18, a planned replacement that is due, and one whose member still distributes. -/
theorem witness_O18_removal :
    (let s := { lane0 live (fun l => { l with removal := true }) with repair := { live.repair with laneWork := [(0, 1)] } }
     FMap.get 0 s.repair.laneWork 0 ≠ 0 ∧ (s.lane? 0).map (fun l => (l.removal, l.distributing)) = some (true, false) ∧ s.laneDrained 0 = true ∧ s.managed = true) ∧
    ((lane0 live (fun l => { l with removal := true, distributing := true })).lane? 0).map (·.distributing) = some true := by
  decide +kernel

/-- A 64-byte frame in the traffic manager's hands. -/
def queued (h : Word) (edit : Nat) : QFrame :=
  { handle := h, len := 64, off := 0, edit := edit, flags := 0, l3at := 0, l4at := 0, tsat := 0, arg := 0, cap := none, icrc := false, built := .buffer }

/-- A queue for lane 0. -/
def tmQueue : TmQueue := { dest := 0, cls := 0, tenant := 0, quantum := 16384, maxBytes := 65536, spill := 0, leaves := [0], closed := [] }

/-- `live` with that frame at the head of the leaf of lane 0. -/
def queueing (f : QFrame) : State := ((live.alloc 64 false ownTm).2.setTmq 0 (some tmQueue)).appendLeaf 0 0 tmQueue f

/-- O18, sending: a port whose scheduler chooses a frame with a live buffer (none whose buffer is dead), that frame with and without a timestamp, and one that
editing makes longer than the lane takes; a port that is not UP, that is sending and that has nothing. -/
theorem witness_O18_send : let s := (queueing (queued 0x20000000 0)).purgePort 0
    (queueing (queued 0x20000000 0)).laneIsUp 0 = true ∧ FMap.get none (queueing (queued 0x20000000 0)).tm.sending 0 = none ∧
    (s.choose 0).isSome = true ∧ (s.leaf 0).frames = [queued 0x20000000 0] ∧ ((queueing (queued 0x20000001 0)).purgePort 0).choose 0 = none ∧
    (queued 0x20000000 0).flags.getLsbD 4 = false ∧ ({ queued 0x20000000 0 with flags := 0x10 } : QFrame).flags.getLsbD 4 = true ∧
    (s.frameBytes 0 (queued 0x20000000 0) 0).isSome = true ∧
    (lane0 s (fun l => { l with maxFrame := 67 })).frameBytes 0 (queued 0x20000000 0) 0 = none ∧
    live.choose 0 = none ∧ (lane0 live (fun l => { l with st := .down })).laneIsUp 0 = false := by
  decide +kernel

/-- O18, the read budget of the spill sub-pools: a spilled frame that waits for it, the same with exactly enough left, and one longer than a tick's budget that
waits for no other. -/
theorem witness_O18_spill : let s (r : Nat) := { live with pools := { live.pools with spillRead := r } }
    let f (n : Nat) := { queued 0xA0000000 0 with len := n }
    let waits (s : State) (q : QFrame) := q.spilled = true ∧ 0 < s.pools.spillRead ∧ s.spillBudget < s.pools.spillRead + q.len
    live.spillBudget = 12500 ∧ waits (s 12437) (f 64) ∧ ¬ waits (s 12436) (f 64) ∧ ¬ waits (s 0) (f 20000) ∧ (queued 0x20000000 0).spilled = false := by
  decide +kernel

/-- O18, a port that sends a frame, with and without a report, out of a buffer and out of none, and one that does not. -/
theorem witness_O18_complete : FMap.get none live.tm.sending 0 = none ∧
    (let s := { live with tm := { live.tm with sending := [(0, some { queue := 0, handle := 0, bytes := [], report := none })] } }
     FMap.get none s.tm.sending 0 = some { queue := 0, handle := 0, bytes := [], report := none } ∧ s.tm.tsReports.length < 4096) ∧
    (let s := queueing (queued 0x20000000 0); s.isLive 0x20000000 = true ∧ s.isLive 0 = false) := by
  decide +kernel

/-- A verdict with an action word. -/
def verdict (a : Word) : Verdict :=
  { frame := waitsToClassify, action := a, hash := 0, run := { carries := [], verdict := none, hits := 0, reads := 0, stop := false }, hv := [] }

/-- O19: an action of each kind, with an engine that is served and with one that is not; a punt queue with room. -/
theorem witness_O19 : actKind (verdict 3).action = 3 ∧ actKind (verdict 4).action = 4 ∧ (live.peng (actParam (verdict 4).action)).isSome = true ∧
    ({ live with erg := { live.erg with ymap := [] } } : State).peng (actParam (verdict 4).action) = none ∧ actKind (verdict 5).action = 5 ∧ live.cls.punt.length < 4096 ∧
    actKind (verdict 6).action = 6 ∧ actKind (verdict 0).action ∉ [3, 4, 5, 6] ∧ actKind (verdict 15).action ∉ [3, 4, 5, 6] := by
  decide +kernel

/-- O19, a punt queue that is full. -/
theorem witness_O19_full (p : HeldFrame) : 4096 ≤ ({ live with cls := { live.cls with punt := List.replicate 4096 p } } : State).cls.punt.length := by
  show 4096 ≤ (List.replicate 4096 p).length
  rw [List.length_replicate]

/-- A queue of a type with one entry before the tail, in a ring of 16. -/
def oneEntry (type : Nat) : Queue := { Queue.make type 4 4 0 0 0 0 1 0 with tail := 1, tmq := some 0 }

/-- `live` with queue 1 of PF1 of a type and an admin queue, each with one entry before its tail, and queue 0 of the traffic manager. -/
def fetching (type : Nat) : State :=
  (({ live with queues := { live.queues with qs := [(qKey 1 0, some (oneEntry 0)), (qKey 1 1, some (oneEntry type))] } }).setTmq 0 (some tmQueue))

/-- A descriptor. -/
def desc (len flags : Nat) : Desc := { addr := 0, len := BitVec.ofNat 32 len, flags := BitVec.ofNat 32 flags, tag := 0, spec := 0 }

/-- O20, cutting: a caravan that ends at a descriptor with LAST, one that ends at the next FIRST, one that ends at its 64th descriptor, one of a single
descriptor without FIRST, and one that is still open. -/
theorem witness_O20_cut : let a := desc 64 0x101; let b := desc 64 0x100; let l := desc 64 0x102
    cutOne [a, b, l, a] = some ([a, b, l], [a]) ∧ cutOne [a, b, a] = some ([a, b], [a]) ∧ cutOne (a :: (List.replicate 63 b ++ [l])) = some (a :: List.replicate 63 b, [l]) ∧
    cutOne (a :: (List.replicate 62 b ++ [l])) = some (a :: (List.replicate 62 b ++ [l]), []) ∧ cutOne [b, l] = some ([b], [l]) ∧ cutOne (a :: List.replicate 62 b) = none := by
  decide +kernel

/-- O20: a TX caravan that can be fetched, one that cannot; a well-formed one and a faulty one; a buffer that is there and none that is large enough; posted
receive buffers that suit and that do not; a full and a free operation table; a caravan
of one and of two. -/
theorem witness_O20 : Claims.CanFetch (fetching 1) 1 1 1 (oneEntry 1) ∧ (fetching 1).fetchable 1 1 2 = none ∧ (fetching 1).caravanFault (oneEntry 1) 1 [desc 64 0x103] = none ∧
    (fetching 1).caravanFault (oneEntry 1) 1 [desc 0 0x103] = some 0x0A ∧ (fetching 1).opRoom (fnInstHalf 1) = true ∧ (∃ op, (fetching 1).freeOp = some op) ∧
    ((fetching 1).alloc 64 false ownHost).1.isSome = true ∧ ((fetching 1).alloc 70000 false ownHost).1 = none ∧
    Claims.CanFetch (fetching 2) 1 1 1 (oneEntry 2) ∧ rxPostOk (desc 256 0x203) = true ∧ (oneEntry 2).type = 2 ∧ rxPostOk (desc 255 0x203) = false ∧ (oneEntry 1).type ≠ 2 ∧
    live.opRoom 0 = false ∧ cutOne [desc 64 0x103] = some ([desc 64 0x103], []) ∧ cutOne [desc 64 0x101, desc 64 0x102] = some ([desc 64 0x101, desc 64 0x102], []) ∧
    (lastDesc [desc 64 0x101, desc 64 0x102]).flags = 0x102 := by
  unfold Claims.CanFetch
  refine ⟨by decide +kernel, ?_, ?_, ?_, ?_, pickFree_isSome ?_, ?_⟩ <;> decide +kernel

/-- The block of a CREATE_QUEUE for queue `q` with 16 entries. -/
def createBlock (q : Nat) : List Byte := leBytes 2 q ++ [1, 4, 4, 0] ++ leBytes 2 0 ++ List.replicate 18 0 ++ [1, 0] ++ List.replicate 36 0

/-- The block of a SET_MODERATION for queue 1 with a count. -/
def moderationBlock (count : Nat) : List Byte := leBytes 2 1 ++ leBytes 2 0 ++ leBytes 2 1024 ++ leBytes 2 count ++ List.replicate 56 0

/-- O21: an admin command that can be fetched; a good and a bad descriptor; a queue that may be made and one that exists; queue 0, one that exists and one that
does not; moderation that is good, at its bounds, and not. -/
theorem witness_O21 : Claims.CanFetch (fetching 1) 1 0 1 (oneEntry 0) ∧ (fetching 1).opRoom (fnInstHalf 1) = true ∧ (∃ op, (fetching 1).freeOp = some op) ∧
    adminDescOk 0x40 (desc 64 0x4003) = true ∧ adminDescOk 0x40 (desc 63 0x4003) = false ∧ (fetching 1).judgeCreate 1 (createBlock 2) = 0 ∧ (fetching 1).judgeCreate 1 (createBlock 1) = 0x0F ∧
    fieldLe (createBlock 0) 0 2 = 0 ∧ fieldLe (createBlock 1) 0 2 ≠ 0 ∧ (fetching 1).queue (qKey 1 1) ≠ none ∧ (fetching 1).queue (qKey 1 2) = none ∧
    ¬ ((fetching 1).vectorsOf 1 ≤ fieldLe (moderationBlock 4096) 2 2 ∨ modOk (fieldLe (moderationBlock 4096) 4 2) (fieldLe (moderationBlock 4096) 6 2) = false) ∧
    modOk (fieldLe (moderationBlock 4097) 4 2) (fieldLe (moderationBlock 4097) 6 2) = false := by
  unfold Claims.CanFetch
  refine ⟨by decide +kernel, by decide +kernel, pickFree_isSome ?_, ?_⟩ <;> decide +kernel

/-- O21, moderation: a queue whose completions have waited long enough in the commit, and one with none. -/
theorem witness_O21_moderation :
    (let s := { (fetching 1).setQueue (qKey 1 1) (some { oneEntry 1 with pendCount := 1 }) with time := { live.time with phase := .commit } }
     s.queue (qKey 1 1) = some { oneEntry 1 with pendCount := 1 } ∧ s.time.phase = .commit ∧ 0 + (oneEntry 1).modTicks ≤ s.time.tick) ∧ (oneEntry 1).pendCount = 0 := by
  decide +kernel

/-! ### Witnesses: posted requests and storage backends -/

/-- A request posted to a unit by work of no instance: a block of 64 bytes with some fields written. -/
def posts (unit : Nat) (fields : List (Nat × Nat × Nat)) : PostReq :=
  { stamp := 0, unit := unit, block := Mem.rdN (fields.foldl (fun m f => Mem.wrN m f.1 (leBytes f.2.1 f.2.2)) []) 0 64, leng := 0, inst := 0xFFFF, gen := 0, op := none, owner := 0x8000 }

/-- `live` with one live buffer, a connected context 5 of no instance in the on-die cache, a namespace 1 on backend 0 and a command of it. -/
def served : State :=
  let s := (live.alloc 64 false 0x8000).2
  let ctx := Ctx.make 0 0xFFFF 0 0 1 4 [] 0
  { s with rdma := { s.rdma with ctxs := [(5, some { ctx with state := 2 }), (6, some { ctx with state := 1 }), (7, some { ctx with state := 4 }), (8, some { ctx with cached := false }), (9, some { ctx with state := 3 })] },
           sto := { s.sto with nss := [(1, some { backend := 0, remote := 1, block := 4096, blocks := 8 })],
                               backends := [(0, some { transport := 0, port := 4420, addr := [], subnqn := [], up := true, lostAt := none, tries := 0, queues := [(1, some 0)], keepAlives := 0 }),
                                            (1, some { transport := 0, port := 4420, addr := [], subnqn := [], up := false, lostAt := some 0, tries := 1, queues := [], keepAlives := 0 })],
                               cmds := [(1, some { backend := 0, ns := 1, nvmeOp := 2, slba := 0, nlb := 1, req := posts 7 [], since := 0, sent := some 0, cancelled := false }),
                                        (2, some { backend := 0, ns := 1, nvmeOp := 2, slba := 0, nlb := 1, req := posts 7 [], since := 0, sent := none, cancelled := false })] } }

/-- A state with one request waiting for its unit takes it, if it fits. -/
theorem takes {fits : PostReq → Prop} (r : PostReq) (h : fits r) (s : State) (hs : s.erg.posted = []) : Claims.Takes { s with erg := { s.erg with posted := [r] } } fits r s :=
  ⟨[], [], rfl, h, fun x h => absurd h (by simp), by
    have e : ([] : List PostReq) ++ [] = s.erg.posted := hs.symm
    rw [e]⟩

/-- O22: no request waits in `served`, so that `takes` applies to it; a request in its buffer, at its very end, and one outside it. -/
theorem witness_O22_host : served.erg.posted = [] ∧
    (let r := posts 1 [(0x10, 4, 64), (0x14, 4, 0x20000000), (0x18, 4, 192)]
     r.unit = 1 ∧ served.replyDead r = false ∧ served.reqInBuffer r = true) ∧
    served.reqInBuffer (posts 1 [(0x10, 4, 65), (0x14, 4, 0x20000000), (0x18, 4, 192)]) = false ∧ served.replyDead { posts 1 [] with inst := 0 } = true ∧
    (let r := posts 2 [(0x10, 4, 64), (0x14, 4, 0x20000000)]
     r.unit = 2 ∧ Claims.at r 5 1 = 0 ∧ served.replyDead r = false ∧ served.reqInBuffer r = true ∧
     (served.place (itemFn r.inst) 0 (Claims.at r 8 8) (served.bufRead (reqHandle r) (Claims.at r 0x18 4) (Claims.at r 0x10 4)) .nothing).isSome = true) ∧
    (let r := posts 2 [(5, 1, 1), (0x10, 4, 64), (0x14, 4, 0x20000000), (0x1C, 2, 1)]
     Claims.at r 5 1 = 1 ∧ served.replyDead r = false ∧ r.inst = 0xFFFF#16 ∧ served.reqInBuffer r = true ∧ (served.fn (fnPf (itemFn r.inst))).d3 = false ∧ served.bme (itemFn r.inst) = true ∧
     fillBufs [{ slot := 0, addr := 0, len := 64 }] 0 (Claims.at r 0x10 4) = some [({ slot := 0, addr := 0, len := 64 }, 0, 64)] ∧ fillBufs [{ slot := 0, addr := 0, len := 63 }] 0 (Claims.at r 0x10 4) = none) := by
  unfold Claims.at; decide +kernel

/-- `served` with receive queue 1 of PF1, that wakes, and an operation 9 of it. -/
def receiving : State :=
  ((served.setQueue (qKey 1 1) (some { Queue.make 2 4 4 0 0 0 0 1 0 with wake := true })).setQueue (qKey 1 2) (some (Queue.make 1 4 4 0 0 0 0 1 0))).setOp 9
    (some { key := qKey 1 1, inst := 0xFFFF, gen := 0, arg := [], kind := 1, dead := false, handle := 0, len := 0 })

/-- O22, frames to the host: a receive queue, a queue of another type and no queue; PF1 in D0 and in D3hot; an instance that is FROZEN and one that is not. -/
theorem witness_O22_rx : (receiving.queue (qKey 1 1)).map (fun q => (q.type, q.wake)) = some (2, true) ∧ (receiving.queue (qKey 1 2)).map (·.type) = some 1 ∧
    receiving.queue (qKey 1 3) = none ∧ itemFn 0xFFFF = 1 ∧ fnPf 1 = 1 ∧ ¬ ((receiving.fn 1).d3 = true ∨ (receiving.bme 1 = false ∧ receiving.holdFull = true)) ∧
    ((receiving.setFn 1 { receiving.fn 1 with d3 := true }).fn 1).d3 = true ∧ receiving.isFrozen 7 = false := by
  decide +kernel

/-- O22, completions and saved arguments: an operation of PF1, blocks that name it, that name none and that name one that is not there; a data write of it that
stands before its completion, and a completion with none before it. -/
theorem witness_O22_operation : let r := posts 8 [(4, 1, 1), (8, 4, 0x80000009)]
    let d := { posts 2 [] with op := some 9 }
    let data := fun (r x : PostReq) => decide (x.unit = 2) && x.op.isSome && decide (x.op = Claims.opOf r)
    r.unit = 8 ∧ Claims.at r 4 1 = 1 ∧ receiving.replyDead r = false ∧ Claims.opOf r = some 9 ∧ (receiving.op 9).map (·.dead) = some false ∧
    Claims.opOf (posts 8 [(8, 4, 9)]) = none ∧ Claims.opOf (posts 8 [(8, 4, 0x8000000A)]) = some 10 ∧ receiving.op 10 = none ∧ Claims.at (posts 8 [(4, 1, 2)]) 4 1 = 2 ∧
    Claims.at (posts 8 [(6, 1, 1)]) 6 1 % 2 = 1 ∧ data r d = true ∧ data r r = false ∧ receiving.sramFailed.op 10 = none ∧ (receiving.sramFailed.op 9).isSome = true := by
  unfold Claims.opOf Claims.at; decide +kernel

/-- O22, unit 6: contexts of each kind, tuning at its bounds and out of them; unit 7: a namespace that exists and one that does not, a transfer of 1 MiB and one
block more, commands that were sent and that wait. -/
theorem witness_O22_units : served.ctx 10 = none ∧ (served.ctx 9).map (·.state) = some 3 ∧ (served.ctx 5).map (·.inst) ≠ some 7 ∧ (served.ctx 5).map (fun c => (c.inst, c.cached, c.state)) = some (0xFFFF, true, 2) ∧
    (served.ctx 6).map (·.state) = some 1 ∧ (served.ctx 7).map (·.state) = some 4 ∧ (served.ctx 8).map (·.cached) = some false ∧
    (let r := posts 6 [(4, 1, 2), (0x0C, 3, 5), (0x10, 2, 16), (0x12, 1, 7), (0x13, 1, 8), (0x14, 1, 64)]
     r.unit = 6 ∧ Claims.at r 4 1 = 2 ∧ Claims.at r 6 1 % 2 = 0 ∧ Claims.at r 0x0C 3 = 5 ∧ ¬ (0 < Claims.at r 0x10 2 ∧ Claims.at r 0x10 2 < 16) ∧ ¬ 7 < Claims.at r 0x12 1 ∧
     ¬ (0 < Claims.at r 0x13 1 ∧ Claims.at r 0x13 1 < 8) ∧ ¬ 64 < Claims.at r 0x14 1) ∧ 64 < Claims.at (posts 6 [(0x14, 1, 65)]) 0x14 1 ∧
    served.ns 2 = none ∧ (served.ns 1).map (·.backend) = some 0 ∧ (served.backend 0).isSome = true ∧
    (let r := posts 7 [(4, 1, 1), (8, 4, 1), (0x0C, 1, 2), (0x18, 4, 256)]
     r.unit = 7 ∧ Claims.at r 4 1 = 1 ∧ Claims.at r 8 4 = 1 ∧ ¬ (Claims.at r 0x18 4 = 0 ∨ 1048576 < Claims.at r 0x18 4 * 4096)) ∧ 1048576 < 257 * 4096 ∧ served.laneRemains = true ∧
    { served with ports := { served.ports with lanes := [] } }.laneRemains = false ∧ (served.bcmd 1).map (fun c => (c.cancelled, c.sent)) = some (false, some 0) ∧
    (served.bcmd 2).map (·.sent) = some none ∧ served.bcmd 3 = none ∧ Claims.at (posts 7 [(4, 1, 3), (0x1C, 4, 1)]) 4 1 = 3 := by
  unfold Claims.at; decide +kernel

/-- O22, a submission whose segments make up its length: one inline segment of 64 bytes; one of a byte more does not. -/
theorem witness_O22_submit :
    (let r := posts 6 [(4, 1, 1), (0x0C, 3, 5), (0x14, 1, 3), (0x15, 1, 1), (0x24, 4, 64), (0x28, 4, 0x20000000)]
     let s := served.bufWrite 0x20000000 0 (leBytes 8 0x1000 ++ leBytes 4 64 ++ zeros 4)
     r.unit = 6 ∧ Claims.at r 4 1 = 1 ∧ Claims.at r 0x0C 3 = 5 ∧ (s.ctx 5).map (·.state) = some 2 ∧ 0 < (s.submitWqe r).len ∧ (s.submitWqe r).len ≤ 2147483648 ∧
     ((s.submitWqe r).segs.map Prod.snd).foldl (· + ·) 0 = (s.submitWqe r).len ∧
     (let x := posts 6 [(4, 1, 1), (0x0C, 3, 5), (0x14, 1, 3), (0x15, 1, 1), (0x24, 4, 65), (0x28, 4, 0x20000000)]
      ((s.submitWqe x).segs.map Prod.snd).foldl (· + ·) 0 ≠ (s.submitWqe x).len)) := by
  unfold Claims.at; decide +kernel

/-- An NS_CREATE of namespace 9 that has asked backend 0 as command 3. -/
def creating : Running :=
  { cmd := .nsCreate { hm := 0, length := 80, checkOnly := false, v2 := false, hostTag := 0, readStatus := 0 } 9 0 1 none, hm := 0, ptr := 64, len := 80, v2 := false,
    opcode := 0x0603, objs := [obj .ns 9, obj .backend 0], start := 0, stage := 4 }

/-- O23: a backend that is up, one that is down and one that does not exist; a reconnection at and before its turn;
a queue at and before its 10 s; a command at and before its 2 s, one that was cancelled
and one that is not known; a reply of its own backend and of another; an NS_CREATE
that asked as command 3. -/
theorem witness_O23 : (served.backend 0).map (·.up) = some true ∧ (served.backend 1).map (·.up) = some false ∧ served.backend 2 = none ∧
    (served.backend 0).bind (fun v => FMap.get none v.queues 1) = some 0 ∧ served.time.tick < 0 + served.msTicks 10000 ∧
    (let late := { served with time := { served.time with tick := 10000000 } }
     0 + late.msTicks 10000 ≤ late.time.tick ∧ (match late.bcmd 1 with | some c => late.bcmdExpired c | none => false) = true) ∧
    (match served.bcmd 1 with | some c => served.bcmdExpired c | none => true) = false ∧ served.bcmd 3 = none ∧
    (let s := { served with mbadel := { served.mbadel with running := [creating] } }
     s.bcmd 3 = none ∧ s.identifying 3 = some creating ∧ obj .backend 0 ∈ creating.objs ∧ obj .backend 1 ∉ creating.objs) ∧ served.identifying 3 = none ∧
    (served.bcmd 1).map (fun c => (c.backend, c.sent, c.cancelled)) = some (0, some 0, false) ∧ (served.bcmd 2).map (·.sent) = some none ∧
    (served.backendAnswer (posts 7 []) 1 1 0 [0] 0).1 = true ∧ (served.backendAnswer (posts 7 []) 3 1 0 (padTo 16 []) 0).1 = true ∧
    (served.backendAnswer (posts 7 []) 1 1 0 (List.replicate 70000 0) 0).1 = false ∧
    (let at' (t : Nat) := { served with time := { served.time with tick := t } }
     0 + (1 + 1) * served.msTicks 500 = 1000000 ∧ (at' 1000000).msTicks 500 = 500000 ∧ ¬ 0 + (1 + 1) * (at' 999999).msTicks 500 ≤ (at' 999999).time.tick) ∧
    ((served.setBcmd 1 ((served.bcmd 1).map (fun c => { c with cancelled := true }))).bcmd 1).map (·.cancelled) = some true := by
  decide +kernel

/-! ### Witnesses: Mbadel commands that end when they are taken -/

/-- `s`, RUNNING, with a block of `len` bytes taken on host mailbox 0. -/
def ask (s : State) (len : Nat) : State :=
  { s with mbadel := { s.mbadel with taken := [(0, some (64, len))], order := [0], takenState := [(0, 2)] }, boot := { s.boot with recoveryPers := false, window := false }, dev := { s.dev with state := 2 } }

/-- The header of that block. -/
def hdr (len : Nat) : MbHdr := { hm := 0, length := len, checkOnly := false, v2 := false, hostTag := 0, readStatus := 0 }

/-- In `ask s len` every command acts whose payload and result fit: the first premises of O24 to O38, whatever else holds of `s`. At the bound the block is just
large enough. -/
theorem acts (s : State) (r : CmdRow) {n len : Nat} (h : 64 + n ≤ len) : (ask s len).Acts (hdr len) r 64 len n :=
  ⟨by unfold State.Taken; and_intros <;> first | rfl | exact Or.inl rfl | (intro o ho; exact absurd ho (by simp [hdr])) | (show 64 ≤ len; omega), rfl, h⟩

/-- Instance 7 with grants. -/
def tenant (st : InstState) : Inst :=
  { st := st, back := .running, elastic := true, noNet := false, noSto := false, tenant := 3,
    res := { rings := 4, nvmeq := 4, ops := 4, vecNet := 4, vecSto := 4, regs := 4, ctxs := 4, ns := 4 },
    macs := [], vecNet := 4, vecSto := 4, dirtyArmed := false, dirtyOverflow := false, dirty := [], ctr := InstCtr.zero }

/-- `served` with instance 7 in a state, two registrations of it, a table 0 and a queue 0 of the traffic manager. -/
def sam (st : InstState) : State :=
  let s := served
  { s with ten := { s.ten with insts := [(7, some (tenant st))] },
           rdma := { s.rdma with regs := [(1, { Reg.reset with state := 1, inst := 7, tag := 3 }), (2, { Reg.reset with state := 2, inst := 7 })] },
           cls := { s.cls with cur := { s.cls.cur with tables := [(0, some engineTable)] } },
           tm := { s.tm with queues := [(0, some { tmQueue with tenant := 3 })] } }

/-- `ask (sam st) 4096`. -/
def asked (st : InstState) : State := ask (sam st) 4096

/-- O24: the objects that the queries name, none of them held, at the ends of their ranges; instances 7 and 0xFFFF, PF1 and PF2; engine 1023. -/
theorem witness_O24 : (asked .running).inst 7 ≠ none ∧ (asked .running).holding [obj .inst 7] = none ∧ ((1 : Byte) = 1 ∨ (1 : Byte) = 2) ∧ ((2 : Byte) = 1 ∨ (2 : Byte) = 2) ∧
    (∀ n ∈ [0, 1023], n < 1024) ∧ (∀ n ∈ [0, 1023], (asked .running).peng n ≠ none) ∧ ((asked .running).ctx 5).isSome = true ∧ (asked .running).holding [obj .ctx 5] = none ∧
    ((asked .running).backend 0).isSome = true ∧ (asked .running).holding [obj .backend 0] = none ∧ 4 < 5 := by
  decide +kernel

/-- O25: carvings and control regions at their bounds; a period change two seconds ahead and a bit, with none pending, and one that is pending, in a module that stands alone;
one that stands in a stack;
settings at both ends of their ranges; lifecycle states 1 and 2. -/
theorem witness_O25 : (let s := asked .running
     carveOk s.pools.nextSizes s.pools.nextCounts = true ∧ codeAreaBad s.pools.nextSizes s.pools.nextCounts s.dev.controlMibNext = false ∧
     codeAreaBad s.pools.nextSizes s.pools.nextCounts 4096 = false ∧ s.holding [] = none ∧ s.time.sec + 2 < 3 ∧ s.time.pendPeriod = none ∧ s.longestMin ≤ 0 ∧ s.boot.straps.stackEn = false) ∧
    (let s := ask { sam .running with time := { (sam .running).time with pendPeriod := some (4, 2) } } 4096
     s.time.pendPeriod = some (4, 2) ∧ s.time.sec + 1 < 2) ∧
    (asked .running).stacked = false ∧ (let s := asked .running; ({ s with boot := { s.boot with straps := { s.boot.straps with stackEn := true } } } : State).stacked) = true ∧
    (asked .running).dev.resetFor ≠ some (0, 64) ∧ (1 : Byte).toNat ≤ 1 ∧ 0 < 1 ∧ 365 ≤ 365 ∧ 65535 < 65536 ∧ (2 ^ 64 - 4096) % 4096 = 0 ∧ 2 ^ 64 - 4096 < 2 ^ 64 ∧ 64 ≤ 64 ∧ 1023 ≤ 1023 ∧
    (let s := ask { sam .running with nv := { (sam .running).nv with lifecycle := 1 } } 72
     s.nv.lifecycle = 1) := by
  decide +kernel

/-- O26, outside a warning: a block written at the very end of a slot's image that does not run, and one at its start while the module runs from the recovery image;
an image that has run for a day; a lifecycle that can rise; a standby processor that can take over. -/
theorem witness_O26 : (let s := asked .running
     s.power.warn = false ∧ 0 % 4096 = 0 ∧ s.boot.runSlot ≠ some 0 ∧ s.chipUsable 0 = true ∧ s.chipUsable 1 = true ∧ s.holding [obj .slot 0] = none ∧
     s.standbyUsable = true ∧ s.dev.state = 2 ∧ s.holding [obj .slot 0, obj .mp 0] = none) ∧
    (imageEnd - 4096) % 4096 = 0 ∧ imageEnd - 4096 < imageEnd ∧ (List.replicate 4096 (0 : Byte)).length % 4096 = 0 ∧ imageEnd - 4096 + 4096 ≤ imageEnd ∧
    (let s := ask { sam .running with boot := { (sam .running).boot with runSlot := some 0, fromRecovery := true } } 4240
     s.boot.runSlot = some 0 ∧ s.boot.fromRecovery = true ∧ 64 + (16 + 4096) ≤ 4240) ∧
    (let s := ask { sam .running with boot := { (sam .running).boot with firstRun := some 0 }, time := { (sam .running).time with sec := 86400 } } 4096
     s.boot.firstRun = some 0 ∧ 0 + 86400 ≤ s.time.sec) ∧
    (let s := ask { sam .running with nv := { (sam .running).nv with lifecycle := 2 } } 72
     s.nv.lifecycle < 3 ∧ 64 + 8 ≤ 72) := by
  decide +kernel

/-- O26, images that verify: hashes and signatures are uninterpreted (log 9), so that no concrete image can be shown to verify. In every state in which the image of
slot 0 verifies, the other premises of the clauses on it can be met too. -/
theorem witness_O26_verified (s : State) (h0 : s.validateStatus 0 = 0) (h1 : s.slotValid 0 = true) (h2 : s.otherSigned 1 = true) (h3 : s.keyLive 0 = true)
    (hr : s.mbadel.running = []) (hm : s.repair.mpSwitch = none) :
    (ask s 4096).validateStatus 0 = 0 ∧ (ask s 4096).slotValid 0 = true ∧ (ask s 4096).otherSigned 1 = true ∧ (∃ k, k < 4 ∧ k ≠ 1 ∧ (ask s 4096).keyLive k = true) ∧
    (ask s 4096).holding [obj .slot 0] = none := by
  refine ⟨h0, h1, h2, ⟨0, by decide, by decide, h3⟩, ?_⟩
  have e1 : (ask s 4096).mbadel.running = [] := hr
  have e2 : (ask s 4096).repair.mpSwitch = none := hm
  unfold State.holding; rw [e1, e2]; rfl

/-- `asked .running` with two registrations in flight or settled, a backing store for eight contexts, and REG_REVOKE of registration 2 in progress. -/
def rdmaAsked : State :=
  let s := sam .running
  ask { s with rdma := { s.rdma with backing := some (0x1000, 8), regs := s.rdma.regs ++ [(3, { Reg.reset with state := 2, inflight := 1 })] },
               time := { s.time with tick := 1 } } 4096

/-- REG_REVOKE of a registration, running. -/
def revoking (k : Nat) : Running :=
  { cmd := .regRevoke (hdr 4096) 0, hm := 1, ptr := 64, len := 68, v2 := false, opcode := 0x0502, objs := [obj .reg k], start := 0, stage := 1 }

/-- O27: an instance with room for a registration and a context, the whole address space registered, an active key; revocations that
can drain, with a command and without, and ones that cannot; an empty context table; a context in each state that CTX_MODIFY leaves. -/
theorem witness_O27 : (rdmaAsked.inst 7).map (fun i => (i.res.regs, i.res.ctxs)) = some (4, 4) ∧ (rdmaAsked.regsOf 7).length < 4 ∧ rdmaAsked.holding [obj .inst 7] = none ∧
    0 + 2 ^ 64 ≤ 2 ^ 64 ∧
    (let key : Word := 0x103
     key.toNat / 256 ≠ 0 ∧ (rdmaAsked.reg (key.toNat / 256)).state = 1 ∧ (rdmaAsked.reg (key.toNat / 256)).tag.toNat = key.toNat % 256 ∧ rdmaAsked.holding [obj .reg (key.toNat / 256)] = none) ∧
    (rdmaAsked.reg 2).state = 2 ∧ ((rdmaAsked.settleReg 2).reg 2).state = 0 ∧ (rdmaAsked.settleReg 2).runningOn 0x0502 (obj .reg 2) = none ∧
    (let s := { rdmaAsked with mbadel := { rdmaAsked.mbadel with running := [revoking 2] } }
     (s.reg 2).state = 2 ∧ ((s.settleReg 2).reg 2).state = 0 ∧ (s.settleReg 2).runningOn 0x0502 (obj .reg 2) = some (revoking 2)) ∧
    (rdmaAsked.reg 1).state ≠ 2 ∧ 0 < (rdmaAsked.reg 3).inflight ∧ (asked .running).time.tick ≤ ((asked .running).reg 2).marked ∧
    Claims.count State.reset.rdma.ctxs = 0 ∧ 1048576 ≤ 1048576 ∧ rdmaAsked.ctx 0xFFFFFF = none ∧ rdmaAsked.holding [obj .inst 7, obj .ctx 0xFFFFFF] = none ∧
    (rdmaAsked.ctxsOf 7).length < 4 ∧
    (rdmaAsked.ctx 5).map (·.state) = some 2 ∧ (rdmaAsked.ctx 6).map (·.state) = some 1 ∧ (rdmaAsked.ctx 7).map (·.state) = some 4 ∧ (rdmaAsked.ctx 8).map (·.state) = some 0 ∧
    rdmaAsked.holding [obj .ctx 5] = none := by
  decide +kernel

/-- O27, free indices and slots. -/
theorem witness_O27_free : let u := rdmaAsked.read (hdr 4096) (row 0x0501) 64
    (∃ k, u.pickFree 4 ((u.rdma.regs.filter (fun e => decide (e.2.state ≠ 0))).map Prod.fst) 1 16777215 = some k) ∧ (∃ k, rdmaAsked.freeSlot = some k) :=
  ⟨pickFree_isSome (by decide +kernel), pickFree_isSome (by decide +kernel)⟩

/-- `rdmaAsked` with the first `n` indices of the registration table taken by others. -/
def noRegs (n : Nat) : State :=
  { rdmaAsked with rdma := { rdmaAsked.rdma with regs := (List.range n).map (fun i => (i + 1, { Reg.reset with state := 1 })) } }

theorem noRegs_regsOf (n : Nat) : (noRegs n).regsOf 7 = [] := by
  show List.map _ (List.filter _ (List.map _ (List.range n))) = []
  rw [List.map_eq_nil_iff, List.filter_eq_nil_iff]
  intro e he
  obtain ⟨i, -, rfl⟩ := List.mem_map.1 he
  simp [Reg.reset]

theorem noRegs_full (n : Nat) (u : State) (hu : u.rdma.regs = (noRegs n).rdma.regs) :
    u.pickFree 4 ((u.rdma.regs.filter (fun e => decide (e.2.state ≠ 0))).map Prod.fst) 1 n = none := by
  rw [pickFree_none, hu]
  intro j h1 h2
  refine List.mem_map.2 ⟨(j, { Reg.reset with state := 1 }), List.mem_filter.2 ⟨List.mem_map.2 ⟨j - 1, List.mem_range.2 (by omega), ?_⟩, rfl⟩, rfl⟩
  rw [Nat.sub_add_cancel h1]

/-- O27, a full registration table: instance 7 has room, and no index is FREE. -/
theorem witness_O27_full : ((noRegs 16777215).inst 7).isSome = true ∧ (noRegs 16777215).regsOf 7 = [] ∧ (noRegs 16777215).holding [obj .inst 7] = none ∧
    ∀ u : State, u = (noRegs 16777215).read (hdr 4096) (row 0x0501) 64 →
      u.pickFree 4 ((u.rdma.regs.filter (fun e => decide (e.2.state ≠ 0))).map Prod.fst) 1 16777215 = none :=
  ⟨rfl, noRegs_regsOf _, rfl, fun u hu => noRegs_full _ u (by rw [hu]; rfl)⟩

/-- O28: a backend number that is free, the name's last byte 0, fewer than 1,024 backends; a backend that no namespace uses; a namespace that is free over a backend
that is up, remote formats of both block sizes, of another, with metadata and with protection; one that is attached nowhere, and one that is attached to instance 7 under the last NSID. -/
theorem witness_O28 : (0 : Byte) ∈ padTo 224 (List.replicate 223 (0x41 : Byte)) ∧
    (let s := asked .running
     s.backend 65535 = none ∧ Claims.count s.sto.backends < 1024 ∧ s.holding [obj .backend 65535] = none ∧
     s.backend 1 ≠ none ∧ (∀ e ∈ s.sto.nss, e.2.all (fun v => decide (v.backend ≠ 1)) = true) ∧ s.holding [obj .backend 1] = none ∧
     s.ns 0xFFFFFFFF = none ∧ (s.backend 0).map (·.up) = some true ∧ Claims.count s.sto.nss < 65536 ∧ s.holding [obj .ns 0xFFFFFFFF, obj .backend 0] = none ∧
     s.ns 1 ≠ none ∧ (∀ e ∈ s.sto.attach, e.2 ≠ some 1) ∧ s.holding [obj .ns 1] = none ∧ s.inst 7 ≠ none) ∧
    (let good (r : RemoteNs) := (r.block = 512 ∨ r.block = 4096) ∧ r.metaOrPi = false
     let f (n : Nat) (b : Byte) := List.replicate n (0 : Byte) ++ [b]
     good (remoteOf (f 130 9)) ∧ good (remoteOf (f 130 12)) ∧ ¬ good (remoteOf (f 130 13)) ∧ ¬ good (remoteOf (f 130 9 |>.set 128 1)) ∧ ¬ good (remoteOf (f 130 9 |>.set 29 7))) ∧
    (let t := sam .running
     let s := ask { t with sto := { t.sto with attach := [(7 * 512 + 256, some 1)] } } 4096
     FMap.get none s.sto.attach (7 * 512 + 256) ≠ none ∧ s.holding [obj .inst 7] = none) := by
  decide +kernel

/-! ### Witnesses: Mbadel commands on instances, tables and the stack -/

/-- Grants at the ends of their ranges: four vectors of network, none of storage with NO_STO set; `n` of each other kind. -/
def grants (n : Nat) : Res := { rings := n, nvmeq := n, ops := n, vecNet := 64, vecSto := 64, regs := n, ctxs := n, ns := n }

/-- A command of class W on instance 7, running since tick 0. -/
def onSeven (opcode : Nat) (c : Instr) : Running :=
  { cmd := c, hm := 1, ptr := 4160, len := 84, v2 := false, opcode := opcode, objs := [obj .inst 7], start := 0, stage := 1 }

/-- `s` with a class W command that runs. -/
def busy (s : State) (w : Running) : State := { s with mbadel := { s.mbadel with running := [w] } }

/-- An image of PROGRAM 1 with one entry point, its stack at the last place that a stack of no bytes may have. -/
def programImage : List Byte :=
  leBytes 4 0x58505301 ++ leBytes 2 1 ++ leBytes 2 0 ++ [1, 16, 1, 4] ++ leBytes 4 0x16FFF ++ leBytes 2 0 ++ zeros 14 ++ leBytes 2 0x3FFE ++ zeros 30

/-- O29, creation: the last instance number, free, with grants that the pools have; the vector tables at their bound, and left out with NO_NET and NO_STO. -/
theorem witness_O29_create : (asked .running).inst 4095 = none ∧ resBad (grants 0) ((0 : Byte).getLsbD 1) ((0 : Byte).getLsbD 2) = none ∧
    resBad { grants 0 with vecNet := 0, vecSto := 0 } ((6 : Byte).getLsbD 1) ((6 : Byte).getLsbD 2) = none ∧ rdmaAsked.resShort 4095 (grants 4) = none ∧ rdmaAsked.inst 4095 = none ∧
    (asked .running).holding [obj .inst 4095] = none ∧ (1 : Byte).toNat ≤ 1 ∧ (7 : Byte).toNat < 8 := by
  decide +kernel

/-- O29, an instance that exists: RUNNING, FROZEN, and in each state that a clause lets in; one that another command holds; a save with exactly the room its image takes. -/
theorem witness_O29_commands : ((asked .running).inst 7).map (·.st) = some .running ∧ ((asked .frozen).inst 7).map (·.st) = some .frozen ∧ (asked .frozen).holding [obj .inst 7] = none ∧
    (asked .running).holding [obj .inst 7] = none ∧ ((asked .saving).inst 7).map (·.st) = some .saving ∧ ((asked .resetting).inst 7).map (·.st) = some .resetting ∧
    (busy (asked .running) (onSeven 0x0209 (.dirtyHarvest (hdr 84) 7 0 0 0))).holding [obj .inst 7] ≠ none ∧ (asked .running).mbadel.running = [] ∧
    (∀ w ∈ (busy (asked .saving) (onSeven 0x0206 (.instanceSave (hdr 84) 7 0 0))).mbadel.running, obj .inst 7 ∈ w.objs → w.stage ≠ 0 → w.opcode = 0x0203 ∨ w.opcode = 0x0206) ∧ (2 : Byte).toNat ≤ 2 ∧
    (0 : DWord).toNat % 4096 = 0 ∧ ((asked .frozen).saveImage 7).length ≤ ((asked .frozen).saveImage 7).length := by
  decide +kernel

/-- `asked .frozen` with an instance 7 of no functions and no registrations. -/
def bare : State :=
  let s := (asked .frozen).setInst 7 (some { tenant .frozen with noNet := true, noSto := true, vecNet := 0, vecSto := 0 })
  { s with rdma := { s.rdma with regs := [] } }

/-- What it saves but for the check, as a chip with serial number 0 would write it, and the image. -/
def bareBody : List Byte := (bare.saveImage 7).take 24 ++ zeros 8 ++ ((bare.saveImage 7).drop 32).take 176

def bareImage : List Byte := bareBody ++ leBytes 4 2983148588 ++ zeros 4

/-- `crc`, one byte after another: each step waits for the value of the one before. -/
def crcSteps : List Byte → Nat → Nat
  | [], n => n
  | b :: k, 0 => crcSteps k (crcByte 0 b).toNat
  | b :: k, n + 1 => crcSteps k (crcByte (BitVec.ofNat 32 (n + 1)) b).toNat

theorem crc_steps (k : List Byte) : ∀ c, crc c k = BitVec.ofNat 32 (crcSteps k c.toNat) := by
  induction k with
  | nil => intro c; simp [crc, crcSteps]
  | cons b k ih =>
    intro c
    have h : crcSteps (b :: k) c.toNat = crcSteps k (crcByte (BitVec.ofNat 32 c.toNat) b).toNat := by
      cases c.toNat <;> rfl
    rw [h, BitVec.ofNat_toNat, BitVec.setWidth_eq, ← ih]
    rfl

theorem bareImage_crc : crc 0 bareBody = 2983148588#32 := by
  have h : crcSteps bareBody 0 = 2983148588 := by decide +kernel
  rw [crc_steps]
  show BitVec.ofNat 32 (crcSteps bareBody 0) = _
  rw [h]

theorem bareImage_good : imageFault (bareImage.take 216) 216 = none := by
  have hb : (bareImage.take 216).take (216 - 8) = bareBody := by decide +kernel
  have ht : fieldLe (bareImage.take 216) 8 4 = 216 := by decide +kernel
  have hc : fieldLe (bareImage.take 216) (216 - 8) 4 = (2983148588#32).toNat := by decide +kernel
  unfold imageFault
  simp only [ht, hb, bareImage_crc, hc]
  decide +kernel

theorem bareImage_short : imageFault (bareImage.take 215) 215 = some 8 := by decide +kernel

theorem restoreCheck_ok {s : State} {n len : Nat} {b : List Byte} {i : Inst} (hi : s.inst n = some i) (h1 : imageFault b len = none)
    (h2 : fieldLe b 6 2 = b2n (!i.noNet) + 2 * b2n (!i.noSto)) (h3 : s.imageFits n i b = true) (h4 : s.imageTaken b = none) : s.restoreCheck n b len = none := by
  unfold State.restoreCheck; rw [hi]; simp only [h1, h3, h4]; simp [h2]

theorem restoreCheck_bad {s : State} {n len k : Nat} {b : List Byte} {i : Inst} (hi : s.inst n = some i) (h : imageFault b len = some k) :
    s.restoreCheck n b len = some (vBad k) := by
  unfold State.restoreCheck; rw [hi]; simp only [h]

/-- O29, a restore: of that image in exactly the room it takes, and in a byte less. -/
theorem witness_O29_restore : (bare.inst 7).map (·.st) = some .frozen ∧ bare.restoreCheck 7 (bareImage.take 216) 216 = none ∧
    bare.restoreCheck 7 (bareImage.take 215) 215 = some (vBad 8) :=
  have hi : bare.inst 7 = some { tenant .frozen with noNet := true, noSto := true, vecNet := 0, vecSto := 0 } := by decide +kernel
  ⟨by decide +kernel, restoreCheck_ok hi bareImage_good (by decide +kernel) (by decide +kernel) (by decide +kernel), restoreCheck_bad hi bareImage_short⟩

/-- O29, what runs: a save whose instance is quiescent, with the room that its image takes and with a byte less, and one whose instance has an operation left. -/
theorem witness_O29_running : (let s := busy (asked .frozen) (onSeven 0x0206 (.instanceSave (hdr 84) 7 0 4096))
     s.runningInst 0x0206 7 = some (onSeven 0x0206 (.instanceSave (hdr 84) 7 0 4096)) ∧ s.quiescent 7 = true ∧ (s.saveImage 7).length ≤ 4096 ∧ 4095 < 4096) ∧
    (let s := (busy (asked .frozen) (onSeven 0x0206 (.instanceSave (hdr 84) 7 0 4096))).setOp 1
        (some { key := qKey 1 1, inst := 7, gen := 0, arg := [], kind := 1, dead := false, handle := 0, len := 0 })
     s.runningInst 0x0206 7 = some (onSeven 0x0206 (.instanceSave (hdr 84) 7 0 4096)) ∧ s.quiescent 7 = false) := by
  decide +kernel

/-- O29, loading: an image of 64 bytes that may be loaded, into the first and the last engine that a SET can name, at the least and the greatest boundary. -/
theorem witness_O29_load : (∀ e ∈ [0, 255], e < 256) ∧ (∀ e ∈ [0, 255], (asked .running).peng e ≠ none) ∧ (32 : Byte).toNat ≤ 32 ∧ programImage.length = 64 ∧ headerOk programImage = true ∧
    (∀ pe ∈ (asked .running).engset [0, 255], ((asked .running).eng pe).pendSwitch = false) := by
  decide +kernel

/-- `asked .running` with batch 1, which holds a change of table 0 or has been requested. -/
def batched (requested : Bool) (cs : List Change) : State :=
  let s := sam .running
  ask { s with cls := { s.cls with batches := [{ num := 1, changes := cs, requested := requested }] } } 4096

/-- A graph node of kind ETH that goes nowhere but to ACCEPT. -/
def ethNode : List Byte := [1, 0, 0, 0] ++ leBytes 2 0x8000 ++ zeros 58

/-- O30, staging: a batch that has not been requested, new or with changes; descriptors that are OFF up to the last stage; nodes up to the last one and start
nodes of both forms; default actions that are kept or name a kind; spread entries up to the last one. -/
theorem witness_O30_stage : (asked .running).batchRequested 255 = false ∧ (batched false []).batchRequested 1 = false ∧ (asked .running).cls.cur.table 0 ≠ none ∧
    ((asked .running).tableBatch 0).all (fun b => !(asked .running).batchRequested b) = true ∧ (∀ d ∈ [zeros 64], d.length = 64) ∧ 11 + [zeros 64].length ≤ 12 ∧
    itemsBad stageBad 64 8 [zeros 64] = none ∧ (∀ n ∈ ([zeros 64].map stageTables).flatten, (asked .running).cls.cur.table n ≠ none) ∧
    itemsBad (stageTableBad (asked .running).cls.cur) 64 8 [zeros 64] = none ∧ (List.replicate 20 0xFFFF).length = 20 ∧ (∀ n ∈ List.replicate 20 0xFFFF, n < 256 ∨ n = 0xFFFF) ∧
    (∀ n ∈ List.replicate 20 255, n < 256 ∨ n = 0xFFFF) ∧ ethNode.length = 64 ∧ 255 + [ethNode].length ≤ 256 ∧ itemsBad nodeBad 64 48 [ethNode] = none ∧
    (List.replicate 20 (0xFFFFFFFF : Word)).length = 20 ∧ (List.replicate 40 (0xFFFFFFFF : Word)).all defaultOk = true ∧
    (List.replicate 20 (6 : Word) ++ List.replicate 20 (0xFFFFFFFF : Word)).all defaultOk = true ∧
    (1 : Byte).toNat ≤ 1 ∧ (List.replicate 28 (0xFF : Byte)).length = 28 ∧ (∀ p ∈ List.replicate 28 (0xFF : Byte), p.toNat < 4 ∨ p = 0xFF) ∧ (∀ v ∈ [1023], v < 1024) ∧ 4095 + [1023].length ≤ 4096 ∧
    (asked .running).holding [] = none := by
  decide +kernel

/-- O30, reading and planning: each kind of thing at the end of its range; sizes that make up the table store. -/
theorem witness_O30_read : 1 ≤ (5 : Byte).toNat ∧ (5 : Byte).toNat ≤ 5 ∧ 255 + 1 ≤ 256 ∧ 11 + 1 ≤ 12 ∧ 4095 + 1 ≤ 4096 ∧ Cls.defaultPlan.length = 9 ∧ Cls.defaultPlan.foldl (· + ·) 0 = 40960 := by
  decide +kernel

/-- A clean-up of version 1. -/
def cleanUp : CleanUp := { ver := 1, tables := [], blocks := 0 }

/-- O30, the clean-up: none; one that a frame of an older version holds up, one whose version has been current for less than 4 µs, and one that nothing holds up. -/
theorem witness_O30_cleanUp : let fine (s : State) := fineTime s.time.sec s.time.ns s.time.frac
    let s (v : Nat) (q : List PFrame) (ns : Nat) :=
      { live with cls := { live.cls with cur := { live.cls.cur with ver := v }, curFrom := 0, cleaning := [cleanUp], queueA := q }, time := { live.time with ns := ns } }
    live.cls.cleaning = [] ∧ (∃ f ∈ (s 1 [waitsToClassify] 4000).cls.queueA ++ (s 1 [waitsToClassify] 4000).cls.queueB, f.ver < cleanUp.ver) ∧
    fine (s 1 [] 3999) < 0 + 4000 * 65536 ∧ ¬ fine (s 1 [] 4000) < 0 + 4000 * 65536 ∧ (s 1 [] 4000).cls.queueA ++ (s 1 [] 4000).cls.queueB = [] := by
  refine ⟨by decide +kernel, ⟨waitsToClassify, by decide +kernel, by decide +kernel⟩, ?_⟩
  decide +kernel

/-- O31: at its take a class T command is judged against the device itself when none is armed, so that the facts below serve for its take and its turn. -/
theorem projected_asked (st : InstState) : (asked st).projected = asked st := rfl

/-- O31, pools and instances: the pools at both ends and all of them; an instance in each state that a clause lets in, with 16 addresses. -/
theorem witness_O31_instances : (1 : Byte).toNat ≤ 7 ∧ (7 : Byte).toNat ≤ 7 ∧ (asked .running).holding [] = none ∧ (asked .running).holding [obj .inst 7] = none ∧
    resBad (grants 4) (rdmaAsked.absentVfs 7).1 (rdmaAsked.absentVfs 7).2 = none ∧ 16 ≤ 16 ∧ 2 ^ 48 - 1 < 2 ^ 48 ∧ (asked .running).holding [obj .inst 7, obj .ns 1] = none ∧
    (asked .running).ns 1 ≠ none ∧ FMap.get none (asked .running).sto.attach (7 * 512 + 256) = none := by
  decide +kernel

theorem witness_O31_states : Claims.instIn (asked .running) 7 [.running] ∧ Claims.instIn (asked .frozen) 7 [.frozen] ∧ Claims.instIn (asked .frozen) 7 [.running, .frozen] := by
  have h (st : InstState) : (asked st).inst 7 = some (tenant st) := rfl
  exact ⟨⟨_, h _, by decide⟩, ⟨_, h _, by decide⟩, ⟨_, h _, by decide⟩⟩

/-- O31, an instance of which nothing is in use beyond the new grants, and one with room for a namespace. -/
theorem witness_O31_grants :
    (∃ i, rdmaAsked.inst 7 = some i ∧ (i.st = .running ∨ i.st = .frozen) ∧ i.elastic = true ∧ resBelow (grants 4) (rdmaAsked.resUse 7) = false ∧
      rdmaAsked.resShort 7 (grants 4) = none) ∧ (∃ i, (asked .running).inst 7 = some i ∧ ((asked .running).attachedTo 7).length < i.res.ns) :=
  ⟨⟨tenant .running, by decide +kernel⟩, ⟨tenant .running, by decide +kernel⟩⟩

/-- `asked .running` with a TX queue 1 of instance 7's PF1 function. -/
def bindable : State := (asked .running).setQueue (qKey (queueFn 7 1) 1) (some (oneEntry 1))

/-- O31, queues: a queue of an instance and one of the PF itself, a ring that may be bound to the tenant's queue. -/
theorem witness_O31_queues : bindable.inst 7 ≠ none ∧ bindable.hasQueue (queueFn 7 1) 1 = true ∧ bindable.holding [obj .inst 7] = none ∧ bindable.holding [] = none ∧
    ((bindable.setQueue (qKey (queueFn 0xFFFF 1) 1) (some (oneEntry 2))).hasQueue (queueFn 0xFFFF 1) 1) = true ∧
    (∃ x t, bindable.queue (qKey (queueFn 7 1) 1) = some x ∧ bindable.hasQueue (queueFn 7 1) 1 = true ∧ (x.type = 1 ∨ x.type = 2) ∧ bindable.tmq 0 = some t ∧
      (7 = 0xFFFF ∨ bindable.inst 7 ≠ none) ∧ (bindable.inst 7).all (fun i => decide (t.tenant = i.tenant)) = true) := by
  refine ⟨?_, ?_, ?_, ?_, ?_, oneEntry 1, { tmQueue with tenant := 3 }, ?_⟩ <;> decide +kernel

/-- O31, tables: the last table, free, of the smallest EXACT capacity; a table that nothing names, and one that exists. -/
theorem witness_O31_tables : (tableJudge 63 1 40 2 1024 0 0 []).bad = none ∧ (asked .running).cls.cur.table 63 = none ∧ (asked .running).tableFits (newTable 1 40 2 1024 0 0 []) = true ∧
    (asked .running).cls.cur.table 0 ≠ none ∧ (asked .running).cls.cur.stages.all (fun e => !(stageTables e.2).contains 0) = true ∧ (asked .running).cls.batches = [] := by
  decide +kernel

/-- Attributes that leave everything as it is. -/
def keepAttrs : TmAttrs := { cquantum := List.replicate 8 0, strict7 := 0xFF, weight := 0, lgroup := 0xFF, ledgerMode := 0xFF, ledgerSlack := 0xFFFFFFFF }

/-- O32: the lanes, modes, sizes and adjustments at their bounds, with a lane that has not FAILED; groups, queues, attributes, templates, counters, sources, gates, bindings, caps
and masks at theirs. -/
theorem witness_O32 : (let s := asked .running
     5 ∈ laneModes 19 ∧ (s.lane? 19).all (fun l => decide (l.st ≠ .failed)) = true ∧ s.holding [] = none ∧
     s.splitsGroup 19 5 = false ∧ (0xFF : Byte).toNat = 255 ∧ (agJudge 7 1 0x8000).pre s = none ∧ (maskLanes 0xFF00).length ≤ 8 ∧ (3 : Byte).toNat ≤ 3 ∧
     (tmqJudge 65535 15 7 4095 1048576 (2 ^ 32 - 1) 2048).pre s = none ∧ (tmqJudge 65535 0x27 7 4095 256 2048 2048).pre s = none ∧ s.tmq 0 ≠ none ∧
     (tmAttrJudge 1 19 keepAttrs).bad = none ∧ (tmAttrJudge 2 4095 keepAttrs).bad = none ∧ (tmAttrJudge 3 0 keepAttrs).bad = none ∧
     (zeros 128).length = 128 ∧ templateOk (zeros 128) = true ∧ s.counterObj 1 19 = true ∧ s.counterObj 3 0 = true ∧ s.counterObj 7 0 = true ∧
     s.isMaster = true ∧ s.elsewhere 7 (s.ownLanes [0xC000]) = false ∧ s.mixedModes (s.ownLanes [0xC000]) = false ∧ s.leavesOver 7 (s.ownLanes [0xC000]) = false ∧
     (([0xC000].take 8).map (fun m : Half => (maskLanes (m.zeroExtend 32)).length)).sum ≤ 8) ∧
    (let t := live; ({ t with time := { t.time with qualStack := true }, boot := { t.boot with straps := { t.boot.straps with stackEn := true } }, stack := { t.stack with master := 1 } } : State).sourceOk 1 = true ∧
      t.time.qualStack = false) ∧
    (let t := sam .running
     let s := ask { t with time := { t.time with qualPtp := true, qualPps := true } } 4096
     s.time.qualified (2 : Byte).toNat = true ∧ s.time.qualified (3 : Byte).toNat = true) := by
  decide +kernel

/-- O33: a batch with a change, its commit not requested, in a module that stands alone; a commit that waits, in TESTING and behind a clean-up, and one that does not; a bank
switch of the first and the last engine, none of them held. -/
theorem witness_O33 : (let s := batched false [.spreadEntry 0 5]
     s.batchRequested 1 = false ∧ s.boot.straps.stackEn = false ∧ s.projected.stacked = false ∧ s.projected.changesOf 1 ≠ []) ∧
    (asked .running).commitWaits 1 = false ∧ (asked .running).dev.state ≠ 1 ∧
    State.commitWaits { live with cls := { live.cls with cleaning := [{ cleanUp with blocks := 1 }] } } 1 = true ∧
    State.commitWaits { live with cls := { live.cls with cleaning := [{ cleanUp with tables := [0] }] } } 1 = false ∧
    ({ live with dev := { live.dev with state := 1 } } : State).dev.state = 1 ∧
    (∀ n ∈ [0, 1023], n < 1024) ∧ (∀ n ∈ [0, 1023], (asked .running).projected.peng n ≠ none) ∧
    (∀ pe ∈ (asked .running).projected.engset [0, 1023], ((asked .running).projected.eng pe).holdEng = false) := by
  decide +kernel

/-- A class W command whose bound is the longest wait of a ROTATE_NOW or a save. -/
def late (c : Instr) : State :=
  busy { live with time := { live.time with tick := 10000000000 } } (onSeven 0x0206 c)

/-- O34: a rotation of named yards and of those that the device chooses; the standby Farrier; a command before and at its bound, of each kind that `BoundEnds` names; an unlock
before and at its end, and none. -/
theorem witness_O34 : (let s := asked .running
     let p := s.rotatePair 31 33
     let q := s.rotatePair 0xFF 0xFF
     s.logicalYard p.1 ≠ none ∧ p.2 ∈ s.resting ∧ s.power.warn = false ∧ s.holding [obj .yard p.1, obj .yard p.2] = none ∧ s.logicalYard q.1 ≠ none ∧ q.2 ∈ s.resting ∧
     s.repair.farrierActive = 1 - 1 ∧ s.repair.farrierUp.getD (1 - 1) false = true ∧ s.holding [obj .farrier 1] = none) ∧
    (let w := onSeven 0x0206 (.instanceSave (hdr 84) 7 0 4096)
     let s := busy live w
     (∀ r ∈ s.mbadel.running, r.hm = 1 → s.time.tick < r.start + s.msTicks (boundMs r)) ∧
     (late w.cmd).mbadel.running = [] ++ w :: [] ∧ w.hm = 1 ∧ w.start + (late w.cmd).msTicks (boundMs w) ≤ (late w.cmd).time.tick) ∧
    live.monitor.unlockYards = 0 ∧
    (let s := { live with monitor := { live.monitor with unlockYards := 1, unlockUntil := 0 } }
     s.monitor.unlockYards ≠ 0 ∧ s.monitor.unlockUntil ≤ s.time.sec) ∧
    (let s := { live with monitor := { live.monitor with unlockYards := 1, unlockUntil := 1 } }
     s.time.sec < s.monitor.unlockUntil) := by
  decide +kernel

/-- O34, the recovery load: a block on HM0 that was taken in the window, of the least length, with an image of the least and of the greatest. -/
theorem witness_O34_load :
    (let s := { live with mbadel := { live.mbadel with taken := [(0, some (64, 76))] }, boot := { live.boot with window := true } }
     FMap.get none s.mbadel.taken 0 = some (64, 76) ∧ (hdr 76).hm.val = 0 ∧ s.boot.window = true ∧ s.monitor.load = none ∧ (hdr 76).readStatus = 0 ∧ (hdr 76).checkOnly = false ∧ 64 % 64 = 0 ∧
     (hdr 76).length = 76 ∧ 76 ≤ 76 ∧ (0x1000 : DWord).toNat % 4096 = 0 ∧ 8192 ≤ 8192 ∧ 50331648 ≤ 50331648) := by
  decide +kernel

/-! ### Witnesses: repair and wear -/

/-- `live` with other repair state. -/
def worn (f : Repair → Repair) : State := { live with repair := f live.repair }

/-- A swap of yard 0 for yard 32. -/
def swapOf (stage : SwapStage) : Swap := { out := 0, inn := 32, logical := 0, stage := stage, forced := false, asked := true, due := 0, saved := [], settled := false }

/-- `live` with that swap. -/
def swapping (stage : SwapStage) : State := worn (fun r => { r with swap := some (swapOf stage), yardUse := modifyAt r.yardUse 32 (fun _ => .active) })

/-- O35: the last DRAM row in service, in a module that is managed, one that is not, one that does not patrol, and a row of a retired channel; bursts of 15 and 16; an
active and a resting yard; stress counts on either side of a rotation, a yard that is already on its way out; each step of a swap; a yard that fails by control checks; appends and the journal at their bounds. -/
theorem witness_O35 : live.dev.unmanaged = false ∧ live.repair.patrolOn = true ∧ rowExists (.dramRow 3 7 15 0) = true ∧ live.rowInService (.dramRow 3 7 15 0) = true ∧
    ({ live with dev := { live.dev with unmanaged := true } } : State).dev.unmanaged = true ∧ (worn (fun r => { r with patrolOn := false })).repair.patrolOn = false ∧
    (worn (fun r => { r with channels := [true, true, true, false] })).rowInService (.dramRow 3 7 15 0) = false ∧ 15 < 16 ∧ 16 ≤ 16 ∧
    rowExists (.dramRow 4 0 0 0) = false ∧ live.repair.reported = [] ∧
    live.leaving 5 = false ∧ (swapping .testing).leaving 0 = true ∧ live.yardUse 31 = .active ∧ live.yardUse 33 ≠ .active ∧
    live.repair.rotationOn = true ∧ live.repair.swap = none ∧ live.power.warn = false ∧
    (let s := worn (fun r => { r with stress := [(5, 1)] })
     s.highestActive = some 5 ∧ s.lowestRest = some 32 ∧ s.stress 32 < s.stress 5 ∧ s.logicalYard 5 = some 5) ∧
    live.highestActive = some 0 ∧ live.lowestRest = some 32 ∧ live.stress 0 ≤ live.stress 32 ∧
    (worn (fun r => { r with rotationOn := false })).repair.rotationOn = false ∧ (swapping .testing).repair.swap ≠ none ∧
    (swapping .testing).repair.swap = some (swapOf .testing) ∧ (swapOf .testing).inn = (32 : Fin 34).val ∧
    (swapping .mirroring).repair.swap = some (swapOf .mirroring) ∧ (swapOf .testing).stage ≠ .mirroring ∧
    ((swapping .testing).dropSwap.retireRest 32).lowestRest = some 33 := by
  decide +kernel

/-- O35, a row that was reported: the places of rows are free (log 19), so the premise is met by whatever address the row holds. -/
theorem witness_O35_reported (p : Nat × Nat) (h : p ∈ Config.dramSpan 3 7 15 0) (hp : p.1 < p.2) :
    ∃ a ∈ (worn (fun r => { r with patrolOn := false, reported := [(true, p.1)] })).repair.reported, inRow (.dramRow 3 7 15 0) a = true := by
  refine ⟨(true, p.1), List.mem_singleton.2 rfl, ?_⟩
  unfold inRow rowSpans
  simp only [decide_true, Bool.true_and, List.any_eq_true]
  exact ⟨p, h, by simp [hp]⟩

/-- O35, failing yards and the journal: an active yard with 16 control checks, and nothing that replaces it yet; an append that can be made, one short of the end of the bank, and
none; a bank that is three quarters full. -/
theorem witness_O35_journal : (let s := worn (fun r => { r with checkFails := [(31, 16)] })
     s.logicalYard (31 : Fin 34).val = some 31 ∧ s.failing (31 : Fin 34).val .controlChecks = true ∧ s.repair.forcedWait = [] ∧ s.repair.swap = none) ∧
    (let s := { worn (fun r => { r with appends := [(5, 0)] }) with boot := { live.boot with mpRunning := true }, nv := { live.nv with bankUsed := 16383 } }
     s.repair.appends = (5, 0) :: [] ∧ s.power.warn = false ∧ s.boot.mpRunning = true ∧ s.nv.bankUsed < 16384) ∧
    live.repair.appends = [] ∧
    (let s := { live with nv := { live.nv with bankUsed := 12288 } }
     12288 ≤ s.nv.bankUsed ∧ s.power.warn = false ∧ s.power.pwrGood = true) := by
  decide +kernel

/-- `live` with its processors running. -/
def manned (f : Repair → Repair) : State := { worn f with boot := { live.boot with mpRunning := true } }

/-- O36, lanes: a bias above and at one and a half times that at manufacture; a lane that has FAILED and one that has not, managed and not. -/
theorem witness_O36_lanes : (∀ n, 3 * Config.laserBiasAtBuild n < 2 * (2 * Config.laserBiasAtBuild n + 1) ∧ 2 * Config.laserBiasAtBuild n ≤ 3 * Config.laserBiasAtBuild n) ∧
    (lane0 live (fun l => { l with st := .failed })).laneFailed 0 = true ∧ live.laneFailed 0 = false ∧ live.dev.unmanaged = false ∧
    ({ live with dev := { live.dev with unmanaged := true } } : State).dev.unmanaged = true := by
  exact ⟨fun n => ⟨by omega, by omega⟩, by decide +kernel⟩

/-- O36, the other units: a channel in service, one that is not and one while another moves; a pool that rebuilds its list and one that does not; an active management
processor that runs, one that has failed, a reload that comes to its end, for the third time and before; a Farrier at 3 and 4 missed beats, with its standby and without. -/
theorem witness_O36_units : live.repair.channels.getD 3 false = true ∧ live.repair.moving = none ∧ (worn (fun r => { r with channels := [true, true, true, false] })).repair.channels.getD 3 false = false ∧
    (worn (fun r => { r with moving := some 0 })).repair.moving ≠ none ∧
    (live.pool? 7).map (·.rebuilding) = some false ∧ ((live.modPool 7 (fun p => { p with rebuilding := true })).pool? 7).map (·.rebuilding) = some true ∧
    (manned id).boot.mpRunning = true ∧ (manned id).repair.mpFail = none ∧ live.boot.mpRunning = false ∧ (manned (fun r => { r with mpFail := some 0 })).repair.mpFail ≠ none ∧
    live.repair.mpReloading = none ∧
    (let s := manned (fun r => { r with mpReloading := some 0, mpReloads := 1 })
     s.repair.mpReloading = some 0 ∧ (s.epochBump (srcMp 0)).boot.mpRunning = true ∧ (s.epochBump (srcMp 0)).repair.mpReloads + 1 < 3) ∧
    3 < 4 ∧ 4 ≤ 4 ∧ live.repair.farrierUp.getD (1 - live.repair.farrierActive) false = true ∧
    (let s := worn (fun r => { r with farrierUp := [true, false] })
     s.repair.farrierUp.getD (1 - s.repair.farrierActive) false = false) := by
  decide +kernel

/-! ### Witnesses: RDMA -/

/-- A context of instance 0 with four paths and packets of 128 bytes, cached, in a state and a mode. -/
def conn (st : Nat) (spray : Bool) : Ctx := { Ctx.make 0 0 0 (b2n spray) 4 0 [] 0 with state := st }

/-- `live` with instance 0, whose PF1 function masters the bus, context 5, and registration 1 over the whole address space. -/
def wired (c : Ctx) : State :=
  { live with
    ten := { live.ten with insts := [(0, some (tenant .running))], gens := [(0, 1)] },
    pcie := { live.pcie with fns := live.pcie.fns ++ [(0x100, cfg [(4, 6)])] },
    rdma := { live.rdma with ctxs := [(5, some c)], regs := [(1, { Reg.reset with state := 1, inst := 0, tag := 3, rights := 3, length := 2 ^ 64 })] } }

/-- A packet of context 5 with `n` bytes of a message of `len`. -/
def pkt (psn len n : Nat) : RdmaPkt :=
  { handle := 0, icrcBad := false, c0 := 0, inst := 0, gen := 1, qpn := 5, opcode := 0, psn := psn, ackReq := true, va := 0x1000, rkey := 0x103, dmaLen := len,
    syndrome := 0, payload := List.replicate n 0 }

/-- A placement header. -/
def place (msg offset mlen span : Nat) : SprayHdr := { msg := msg, offset := offset, mlen := mlen, path := 0, flags := 0, span := span }

/-- O37: rows of requests and of responses, standard and spray; a bad packet; no context; one that is not cached, with room in the miss queue; contexts that are not ready, the
bound being RTR for a request and RTS for a response, and one whose line fails its check; another instance, an old generation; a context of the other mode. -/
theorem witness_O37 : Claims.PacketRow (pkt 0 4 4) noSpray (.rdmaWriteFirst (pkt 0 4 4), 0x06) ∧ Claims.PacketRow (pkt 0 4 4) noSpray (.acknowledge (pkt 0 4 4), 0x11) ∧
    Claims.PacketRow (pkt 0 4 4) noSpray (.sprayWrite (pkt 0 4 4) noSpray, 0xC0) ∧ { pkt 0 4 4 with icrcBad := true }.icrcBad = true ∧ { pkt 0 4 4 with ctxBad := true }.ctxBad = true ∧ (conn 3 true).cached = true ∧
    live.ctx (pkt 0 4 4).qpn = none ∧ (wired { conn 3 false with cached := false }).ctx 5 = some { conn 3 false with cached := false } ∧
    (wired { conn 3 false with cached := false }).rdma.misses.length < 16384 ∧ (conn 1 false).state < 2 ∧ 3 < (conn 4 false).state ∧
    (Claims.requestOps.contains 0x11 = false ∧ (conn 2 false).state = 2) ∧ (conn 3 false).state = 3 ∧ (Claims.requestOps.contains 0x06 = true ∧ (conn 2 false).state = 2) ∧
    { pkt 0 4 4 with inst := 1 }.inst.toNat ≠ (conn 3 false).inst ∧ (wired (conn 3 false)).staleGen 0 2 = true ∧
    Claims.Admitted (wired (conn 3 true)) (pkt 0 4 4) (conn 3 true) false ∧ Claims.Admitted (wired (conn 2 true)) (pkt 0 4 4) (conn 2 true) true ∧
    (conn 2 true).spray ≠ decide (0xC0 ≤ 0x06) ∧ (conn 3 true).spray ≠ decide (0xC0 ≤ 0x11) := by
  unfold Claims.Admitted
  refine ⟨by simp [Claims.PacketRow], by simp [Claims.PacketRow], by simp [Claims.PacketRow], ?_⟩
  decide +kernel

/-- O37, a miss queue that is full. -/
theorem witness_O37_full (m : Nat × Miss) (s : State) : 16384 ≤ ({ s with rdma := { s.rdma with misses := List.replicate 16384 m } } : State).rdma.misses.length := by
  show 16384 ≤ (List.replicate 16384 m).length
  rw [List.length_replicate]

/-- O38, requests: an admitted packet in sequence, ahead by 1 and by 2^23 - 1, and behind; each of the four WRITE rows in sequence and malformed; with access and
without, placed; READ Requests of 1 byte and of 2 GiB; opcodes 31 and 32. -/
theorem witness_O38_requests : (conn 2 false).spray = false ∧ Claims.Admitted (wired (conn 2 false)) (pkt 0 128 128) (conn 2 false) true ∧
    0 < psnDist (conn 2 false).rqPsn 1 ∧ psnDist (conn 2 false).rqPsn 1 < 2 ^ 23 ∧ psnDist (conn 2 false).rqPsn (2 ^ 23 - 1) < 2 ^ 23 ∧ 2 ^ 23 ≤ psnDist (conn 2 false).rqPsn (2 ^ 23) ∧
    psnDist (conn 2 false).rqPsn 0 = 0 ∧
    (let d := Claims.routed (wired (conn 2 false)) (pkt 0 256 128) (conn 2 false)
     let u := Claims.requestIn (wired (conn 2 false)) (pkt 0 256 128) (conn 2 false)
     writeFits d (pkt 0 256 128) true false = true ∧ writeFits d (pkt 0 256 127) true false = false ∧ writeFits d (pkt 0 1 1) true true = true ∧ writeFits d (pkt 0 1 0) true true = false ∧
     writeFits d (pkt 0 256 128) false false = false ∧ writeFits d (pkt 0 256 128) false true = false ∧
     u.regOk d 0x103 0x1000 128 true = true ∧ u.regOk d 0x104 0x1000 128 true = false ∧ (u.place d.fn 1 0x1000 (pkt 0 256 128).payload (.ack 5 0)).isSome = true ∧
     u.regOk d 0x103 0x1000 1 false = true ∧ u.regOk d 0x103 0x1000 2147483648 false = true ∧ u.regOk d 0x104 0x1000 1 false = false ∧ (conn 2 false).reads.length < 8) ∧
    (let c := { conn 2 false with writeOpen := true, rwVa := 0x1000, rwRkey := 0x103, rwLeft := 256 }
     let d := Claims.routed (wired c) (pkt 0 0 128) c
     let u := Claims.requestIn (wired c) (pkt 0 0 128) c
     Claims.Admitted (wired c) (pkt 0 0 128) c true ∧ writeFits d (pkt 0 0 128) false false = true ∧ writeFits d (pkt 0 0 1) false true = true ∧
     u.regOk d c.rwRkey c.rwVa 128 true = true ∧ (u.place d.fn 1 c.rwVa (pkt 0 0 128).payload .nothing).isSome = true) ∧
    (31 : Byte).toNat < 32 ∧ 32 ≤ (32 : Byte).toNat := by
  unfold Claims.Admitted
  decide +kernel

/-- A context's record of an inbound READ can be made where an entry of the operation table is free. -/
theorem startServe_some {s : State} {q key len : Nat} {p : RdmaPkt} {c : Ctx} (hc : s.ctx q = some c) (hr : s.opRoomNet p.inst = true) (hf : (FMap.keys s.queues.ops ++ s.queues.withdrawn).length < 65536) :
    ∃ v, s.startServe q p key len = some v := by
  obtain ⟨op, ho⟩ := pickFree_isSome (s := s) (kind := 1) (lo := 0) (n := 65536) hf
  have ho : s.freeOp = some op := ho
  unfold State.startServe
  rw [hc]
  dsimp only
  rw [hr, ho]
  exact ⟨_, rfl⟩

/-- `wired c`, where PF1 has lost Bus Master Enable and `n` requests of it are held. -/
def holding (c : Ctx) (n : Nat) : State :=
  { wired c with pcie := { (wired c).pcie with fns := [(0x100, { Fn.reset with held := List.replicate n (.msix 0) })] } }

/-- O22, O38, O39: the shared store of held requests is full, so that a packet has no place. -/
theorem witness_holdFull (c : Ctx) (n reg addr : Nat) (hn : 131072 ≤ n) (bs : List Byte) (a : AfterPlace) :
    (holding c n).bme 0x100 = false ∧ (holding c n).holdFull = true ∧ (holding c n).place 0x100 reg addr bs a = none := by
  have h : (holding c n).holdFull = true := by
    unfold State.holdFull
    refine decide_eq_true ?_
    show 131072 ≤ 0 + (List.replicate n _).length
    rw [List.length_replicate]; omega
  have hb : (holding c n).bme 0x100 = false := by
    show bitOf (Mem.rdLe Fn.reset.cfg 4 2) 2 = false
    decide +kernel
  refine ⟨hb, h, ?_⟩
  unfold State.place State.holds
  rw [h, hb]
  rfl

/-- O38, READ Requests: an operation is free. -/
theorem witness_O38_serve : ∃ v, (Claims.requestIn (wired (conn 2 false)) (pkt 0 1 0) (conn 2 false)).startServe 5 (pkt 0 1 0) 0 1 = some v :=
  startServe_some (c := Claims.routed (wired (conn 2 false)) (pkt 0 1 0) (conn 2 false)) (by decide +kernel) (by decide +kernel) (by decide +kernel)

/-- `s` with the first `n` operations taken by work of no instance. -/
def noOps (s : State) (n : Nat) : State :=
  { s with queues := { s.queues with ops := (List.range n).map (fun i => (i, some { key := qKey 0xFFFF 0, inst := 0xFFFF, gen := 0, arg := [], kind := 0, dead := false, handle := 0, len := 0 })) } }

theorem noOps_common (s : State) (n : Nat) : n ≤ (noOps s n).commonOps := by
  have h : (noOps s n).opsOf 0xFFFF#16 = n := by
    unfold State.opsOf noOps
    rw [List.filter_eq_self.2 (by
      intro e he
      obtain ⟨i, -, rfl⟩ := List.mem_map.1 he
      rfl), List.length_map, List.length_range]
  unfold State.commonOps
  rw [h]
  exact Nat.le_add_right _ _

/-- No room in the operation table: an inbound READ is not answered. -/
theorem noOps_serve (s : State) (n : Nat) (hn : 4096 ≤ n) (q key len : Nat) (p : RdmaPkt) (h : (noOps s n).opRoom p.inst = false) : (noOps s n).startServe q p key len = none := by
  have hr : (noOps s n).opRoomNet p.inst = false := by
    unfold State.opRoomNet
    rw [h, decide_eq_false (by have := noOps_common s n; omega)]
    rfl
  unfold State.startServe
  cases (noOps s n).ctx q with
  | none => rfl
  | some c => dsimp only; rw [hr]; rfl

/-- `wired` with an instance that was granted no operation. -/
def ungranted (c : Ctx) : State :=
  { wired c with ten := { (wired c).ten with insts := [(0, some { tenant .running with res := { (tenant .running).res with ops := 0 } })] } }

/-- O38, READ Requests where the operation table has no room: instance 0 was granted none, and the common part of 4,096 is taken. -/
theorem witness_O38_noServe (n : Nat) (hn : 4096 ≤ n) :
    (Claims.requestIn (noOps (ungranted (conn 2 false)) n) (pkt 0 1 0) (conn 2 false)).startServe 5 (pkt 0 1 0) 0 1 = none :=
  noOps_serve (Claims.requestIn (ungranted (conn 2 false)) (pkt 0 1 0) (conn 2 false)) n hn 5 0 1 (pkt 0 1 0) (by
    show decide (State.opsOf (noOps (Claims.requestIn (ungranted (conn 2 false)) (pkt 0 1 0) (conn 2 false)) n) 0 < 0) = false
    exact decide_eq_false (Nat.not_lt_zero _))

/-- A READ or WRITE of 256 bytes that has been sent as PSN and message 0. -/
def work (op : Nat) (isRead : Bool) : Wqe :=
  { req := posts 6 [], op := op, isRead := isRead, rva := 0x1000, rkey := 0x103, len := 256, segs := [(0, 256)], psn := 0, msg := 0, next := 0, sent := true, data := [],
    retries := 0, slot := isRead, bitmap := [false, false], slotTick := 0, rounds := 0, lastSent := 0 }

/-- O38, responses: a context in RTS with four PSNs to be acknowledged, the first, the last and the next one; NAK syndromes at their bounds; a READ that waits, and
none; a response in order, ahead and behind, for a function that may write. -/
theorem witness_O38_responses : (let c := { conn 3 false with sqPsn := 4, wqes := [work 1 true] }
     let u := Claims.responseIn (wired c) (pkt 0 0 128)
     Claims.Admitted (wired c) (pkt 0 0 128) c false ∧ c.awaits 0 = true ∧ c.awaits 3 = true ∧ c.awaits 4 = false ∧
     c.wqes.find? (fun w => w.isRead && w.sent) = some (work 1 true) ∧
     2 ^ 23 ≤ psnDist ((work 1 true).psn + (work 1 true).next / pmtuBytes c.pmtu) (2 ^ 23) ∧ 0 < psnDist ((work 1 true).psn + (work 1 true).next / pmtuBytes c.pmtu) 1 ∧
     psnDist ((work 1 true).psn + (work 1 true).next / pmtuBytes c.pmtu) (2 ^ 23 - 1) < 2 ^ 23 ∧ psnDist ((work 1 true).psn + (work 1 true).next / pmtuBytes c.pmtu) 0 = 0 ∧
     u.holds c.fn = false ∧ u.holdFull = false) ∧
    (conn 3 false).wqes.find? (fun w => w.isRead && w.sent) = none ∧ (0x1F : Byte).toNat < 0x20 ∧ (0x60 : Byte).toNat = 0x60 ∧ 0x20 ≤ (0x20 : Byte).toNat ∧ (0x20 : Byte).toNat ≠ 0x60 ∧
    (0x61 : Byte).toNat ≠ 0x60 := by
  unfold Claims.Admitted
  decide +kernel

/-- O39, requests: messages at both ends of the window, beyond and behind it; packets that fit and that do not; access and none; a slot that is free, a packet that is placed, one
already held, one of a slot in use that is not and one whose length differs from the slot's; READ requests of 1 byte and of 1 MiB. -/
theorem witness_O39_requests : (conn 2 true).spray = true ∧ Claims.Admitted (wired (conn 2 true)) (pkt 0 256 128) (conn 2 true) true ∧
    (conn 2 true).window 64 = .above ∧ (conn 2 true).window (2 ^ 31 - 1) = .above ∧ (conn 2 true).window (2 ^ 31) = .done ∧ (conn 2 true).window 63 = .inside ∧ (conn 2 true).window 0 = .inside ∧
    (conn 2 true).slot? 0 = none ∧
    (let d := Claims.routed (wired (conn 2 true)) (pkt 0 256 128) (conn 2 true)
     let u := Claims.requestIn (wired (conn 2 true)) (pkt 0 256 128) (conn 2 true)
     sprayFits d (place 0 128 256 0) 128 = true ∧ sprayFits d (place 0 64 256 0) 128 = false ∧ sprayFits d (place 0 256 256 0) 0 = false ∧ (pkt 0 256 128).dmaLen = (place 0 128 256 0).mlen ∧
     (pkt 0 255 128).dmaLen ≠ (place 0 128 256 0).mlen ∧ u.regOk d 0x103 (0x1000 + 128) 128 true = true ∧ u.regOk d 0x104 (0x1000 + 128) 128 true = false ∧ u.slotsUsed < 4096 ∧
     (let e := d.noteWrite (place 0 128 256 0) (pkt 0 256 128) u.time.tick
      (u.place d.fn 1 (0x1000 + 128) (pkt 0 256 128).payload (if (e.slot? 0).isNone then .sprayAck 5 0 256 else .nothing)).isSome = true) ∧
     u.regOk d 0x103 0x1000 1 false = true ∧ u.regOk d 0x103 0x1000 1048576 false = true ∧ u.regOk d 0x104 0x1000 1 false = false) ∧
    (let r : Reasm := { msg := 0, mlen := 256, va := 0x1000, rkey := 0x103, bitmap := [false, true], since := 0, rounds := 0 }
     let c := { conn 2 true with reasms := [r] }
     Claims.Admitted (wired c) (pkt 0 256 128) c true ∧ c.window 0 = .inside ∧ c.slot? 0 = some r ∧ r.bitmap.getD (128 / pmtuBytes c.pmtu) false = true ∧
     r.bitmap.getD (0 / pmtuBytes c.pmtu) false = false ∧ r.mlen = (place 0 0 256 0).mlen ∧ r.mlen ≠ (place 0 0 255 0).mlen) ∧
    (conn 2 true).read? 0 = none ∧ 1 ≤ 1 ∧ 1048576 ≤ 1048576 ∧ (pkt 0 1 0).payload = [] ∧ (conn 2 true).reads.length < 8 := by
  unfold Claims.Admitted
  decide +kernel

/-- O39: an operation is free for a READ. -/
theorem witness_O39_serve : ∃ v, (Claims.requestIn (wired (conn 2 true)) (pkt 0 1 0) (conn 2 true)).startServe 5 (pkt 0 1 0) 0 1 = some v :=
  startServe_some (c := Claims.routed (wired (conn 2 true)) (pkt 0 1 0) (conn 2 true)) (by decide +kernel) (by decide +kernel) (by decide +kernel)

/-- O39: none is. -/
theorem witness_O39_noServe (n : Nat) (hn : 4096 ≤ n) :
    (Claims.requestIn (noOps (ungranted (conn 2 true)) n) (pkt 0 1 0) (conn 2 true)).startServe 5 (pkt 0 1 0) 0 1 = none :=
  noOps_serve (Claims.requestIn (ungranted (conn 2 true)) (pkt 0 1 0) (conn 2 true)) n hn 5 0 1 (pkt 0 1 0) (by
    show decide (State.opsOf (noOps (Claims.requestIn (ungranted (conn 2 true)) (pkt 0 1 0) (conn 2 true)) n) 0 < 0) = false
    exact decide_eq_false (Nat.not_lt_zero _))

/-- O39, every reassembly slot in use: another context holds `n`. -/
theorem witness_O39_slots (n : Nat) (r : Reasm) :
    n ≤ ({ wired (conn 2 true) with rdma := { (wired (conn 2 true)).rdma with ctxs := [(5, some (conn 2 true)), (6, some { conn 2 true with reasms := List.replicate n r })] } } : State).slotsUsed := by
  show n ≤ 0 + 0 + ((List.replicate n r).length + 0)
  rw [List.length_replicate]
  omega

/-- O39, responses: a message that a READ waits for and one that none does; a packet that fits, new and already there; a WRITE's message, with missing packets asked for; a READ
record's message, with packets asked for again, with none, with the right to read and without it, and no such record. -/
theorem witness_O39_responses : (let c := { conn 3 true with wqes := [work 1 true] }
     let u := Claims.responseIn (wired c) (pkt 0 0 128)
     Claims.Admitted (wired c) (pkt 0 0 128) c false ∧ c.wqeMsg 0 true = some (work 1 true) ∧ c.wqeMsg 1 true = none ∧ (work 1 true).slot = true ∧
     sprayFits c (place 0 128 256 0) 128 = true ∧ (place 0 128 256 0).mlen = (work 1 true).len ∧ (work 1 true).bitmap.getD (128 / pmtuBytes c.pmtu) false = false ∧
     { work 1 true with bitmap := [false, true] }.bitmap.getD (128 / pmtuBytes c.pmtu) false = true ∧ u.holds c.fn = false ∧ u.holdFull = false ∧ c.wqeMsg 0 false = none ∧ c.read? 0 = none) ∧
    (let c := { conn 3 true with wqes := [work 1 false] }
     Claims.Admitted (wired c) (pkt 0 0 0) c false ∧ c.wqeMsg 0 false = some (work 1 false) ∧ min (1 * pmtuBytes c.pmtu) ((work 1 false).len - 128) ≠ 0) ∧
    (let r : ReadRec := { va := 0x1000, rkey := 0x103, len := 1, psn := 0, sent := 0, op := 0, lastTick := 0, data := none }
     let c := { conn 3 true with reads := [r] }
     Claims.Admitted (wired c) (pkt 0 0 0) c false ∧ c.wqeMsg 0 false = none ∧ c.read? 0 = some r ∧
     (let u := Claims.responseIn (wired c) (pkt 0 0 0); let n (span : Nat) := min (span * pmtuBytes c.pmtu) (r.len - 0)
      n 0 = 0 ∧ n 1 ≠ 0 ∧ u.regOk c r.rkey (r.va + 0) (n 1) false = true ∧ u.regOk c 0x104 (r.va + 0) (n 1) false = false)) := by
  unfold Claims.Admitted
  decide +kernel

/-- `wired` at a tick. -/
def wiredAt (t : Nat) (c : Ctx) : State := { wired c with time := { (wired c).time with tick := t } }

/-- O40, timers: no context; timers before and at 2,048 ticks, of a context that is not in RTS and of one in the other mode; work requests with and without retries left; a
message's last retry; a slot's last round, and the one before, of a WRITE and of a READ; a READ record that has and has not been answered. -/
theorem witness_O40_timers : live.ctx 5 = none ∧ (wired (conn 3 false)).ctx 5 = some (conn 3 false) ∧ (conn 2 false).state ≠ 3 ∧ (conn 3 true).spray = true ∧
    (wiredAt 2047 (conn 3 false)).time.tick < (conn 3 false).lastAckTick + (conn 3 false).ackTimeout ∧
    (let c := { conn 3 false with wqes := [work 1 false] }
     c.state = 3 ∧ c.spray = false ∧ c.lastAckTick + c.ackTimeout ≤ (wiredAt 2048 c).time.tick ∧ c.cached = true ∧ c.wqes.find? (fun x => x.sent) = some (work 1 false) ∧
     { c with retriesLeft := 0 }.retriesLeft = 0 ∧ c.retriesLeft ≠ 0) ∧
    (let w := { work 1 false with retries := 6 }
     let c := { conn 3 true with wqes := [w] }
     c.wqes.find? (fun x => x.sent && decide (x.msg = 0)) = some w ∧ c.state = 3 ∧ c.spray = true ∧ c.cached = true ∧ (wiredAt 2047 c).time.tick < w.lastSent + c.ackTimeout ∧
     w.lastSent + c.ackTimeout ≤ (wiredAt 2048 c).time.tick ∧ w.retries < c.retry ∧ c.retry ≤ 7) ∧
    (let r : Reasm := { msg := 0, mlen := 256, va := 0x1000, rkey := 0x103, bitmap := [false, true], since := 0, rounds := 7 }
     let c := { conn 3 true with reasms := [r] }
     c.reasms.find? (fun x => decide (x.msg = 0) && decide (x.since + c.reasm ≤ (wiredAt 64 c).time.tick)) = some r ∧ r.rounds < c.retry + 1 ∧ c.retry + 1 ≤ 8 ∧ c.reasms.find? (fun x => decide (x.msg = 1) && decide (x.since + c.reasm ≤ (wiredAt 64 c).time.tick)) = none) ∧
    (let w := work 1 true
     let c := { conn 3 true with wqes := [w] }
     c.wqes.find? (fun x => x.slot && decide (x.msg = 0) && decide (x.slotTick + c.reasm ≤ (wiredAt 64 c).time.tick)) = some w ∧ w.rounds < c.retry + 1 ∧
     c.retry + 1 ≤ ({ w with rounds := 8 } : Wqe).rounds ∧ c.retry ≤ ({ w with retries := 7 } : Wqe).retries ∧ ({ w with retries := 6 } : Wqe).retries < c.retry) ∧
    (let r : ReadRec := { va := 0x1000, rkey := 0x103, len := 1, psn := 0, sent := 1, op := 0, lastTick := 0, data := none }
     let c := { conn 3 true with reads := [r] }
     c.reads[0]? = some r ∧ c.spray = true ∧ 0 < r.sent ∧ r.lastTick + c.ackTimeout ≤ (wiredAt 2048 c).time.tick ∧ (wiredAt 2047 c).time.tick < r.lastTick + c.ackTimeout ∧
     (conn 3 false).spray = false ∧ { r with sent := 0 }.sent = 0) := by
  decide +kernel

/-- A record that names its QPN and slot is good: its checksum is over its first 508 bytes. -/
theorem ctxBytes_ok (q slot : Nat) (c : Ctx) (hq : fieldLe (ctxBytes q c slot) 0 4 = q) (hs : fieldLe (ctxBytes q c slot) 0x1F8 4 = slot) : ctxBytesOk q slot (ctxBytes q c slot) = true := by
  have hl : (padTo 508 (ctxBody q c slot)).length = 508 := by
    unfold padTo zeros
    rw [List.length_take, List.length_append, List.length_replicate]
    omega
  have h4 : ∀ v : Word, ofLe (leBytes 4 v.toNat) = v.toNat := fun v => by
    have := v.isLt
    simp only [leBytes, ofLe, BitVec.toNat_ofNat]
    omega
  unfold ctxBytesOk
  rw [hq, hs]
  unfold ctxBytes
  dsimp only
  generalize padTo 508 (ctxBody q c slot) = b at hl
  have e1 : (b ++ leBytes 4 (crc 0 b).toNat).take 508 = b := by rw [← hl, List.take_left]
  have e2 : fieldLe (b ++ leBytes 4 (crc 0 b).toNat) 0x1FC 4 = (crc 0 b).toNat := by
    have e : (b ++ leBytes 4 (crc 0 b).toNat).drop 0x1FC = leBytes 4 (crc 0 b).toNat := by rw [show (0x1FC : Nat) = b.length from hl.symm, List.drop_left]
    unfold Sys2Proof.Machine.fieldLe slice
    rw [e]
    exact h4 _
  rw [e1, e2, List.length_append, hl]
  simp [leBytes]

/-- O40, fills and counters: a context that is being filled, and one that is not; a record that is wrong, and (by `ctxBytes_ok`) its own; an index word that is read, and one
whose line fails twice; a counter that has changed, and one that has not. -/
theorem witness_O40_fills : (conn 2 false).filling = false ∧
    (let c := { conn 2 false with cached := false, filling := true }
     c.filling = true ∧ (wired c).holds 1 = false ∧ ctxBytesOk 5 c.slotNo [] = false ∧ fieldLe (ctxBytes 5 c c.slotNo) 0 4 = 5 ∧ fieldLe (ctxBytes 5 c c.slotNo) 0x1F8 4 = c.slotNo ∧ c.state ≠ 4 ∧
     { c with state := 4 }.state = 4 ∧ ((wired c).indexRead 5 none).1 ≠ none ∧
     ((wired c).indexRead 5 (some (.line (spillIndexAt 5 / 64) (zeros 64, 0xFFFF) (zeros 64, 0xFFFF)))).1 = none) ∧
    (let s := { live with rdma := { live.rdma with counters := [(35, 1)] } }
     s.rdma.counters = [(35, 1)] ∧ (1 : Nat) ≠ 0 ∧ FMap.get 0 s.rdma.logged 35 ≠ 1) ∧
    (∀ e ∈ live.rdma.counters, FMap.get 0 live.rdma.logged e.1 = e.2) := by
  decide +kernel

/-! ### Witnesses: accelerators -/

/-- `live` with a buffer of 64 bytes that holds a key record of mode `m`, a key context 0, and a request at the head of a unit's queue. -/
def crypto (m : Nat) (c : KeyCtx) (unit : Nat) (r : PostReq) : State :=
  let s := (live.alloc 64 false 0x8000).2
  let t := s.bufWrite 0x20000000 0x38 (leBytes 1 m)
  { t with accel := { queues := modifyAt t.accel.queues unit (fun _ => [{ req := r, left := 0, ready := true }]), done := t.accel.done, keys := [(0, c)] } }

/-- A request of a crypto unit with an OP, on `n` bytes of that buffer. -/
def sealing (op n : Nat) : PostReq := posts 3 [(4, 1, op), (0xC, 4, 0x20000000), (0x14, 4, n)]

/-- An active key context of mode 1. -/
def activeKey : KeyCtx := { KeyCtx.reset with state := 1, mode := 1, next := 1 }

/-- The request at the head is taken. -/
theorem pops {s : State} {unit op : Nat} {r : PostReq} (h : s.accel.queues.getD unit [] = [{ req := r, left := 0, ready := true }]) (ho : Claims.at r 4 1 = op) :
    Claims.Pops s unit op r { s with accel := { s.accel with queues := modifyAt s.accel.queues unit (fun _ => []) } } := ⟨_, [], h, rfl, rfl, ho, rfl⟩

/-- O41, queues: empty ones are idle; one with a request at its head. -/
theorem witness_O41_queues : Claims.Idle live 0 1 ∧ Claims.Idle live 2 0x20 ∧
    (∃ u, Claims.Pops (crypto 1 activeKey 0 (sealing 0x10 64)) 0 0x10 (sealing 0x10 64) u) ∧ (∃ u, Claims.Pops (crypto 1 activeKey 1 (sealing 2 0)) 1 2 (sealing 2 0) u) ∧
    (∃ q, Claims.CryptoRow true false (sealing 0x17 64) q ∧ q.1 = .gcmOpen true false) := by
  have e0 : live.accel.queues.getD 0 [] = [] := by decide +kernel
  have e2 : live.accel.queues.getD 2 [] = [] := by decide +kernel
  refine ⟨fun a rest h => (by rw [e0] at h; cases h), fun a rest h => (by rw [e2] at h; cases h),
    ⟨_, pops (by decide +kernel) (by unfold Claims.at; decide +kernel)⟩, ⟨_, pops (by decide +kernel) (by unfold Claims.at; decide +kernel)⟩,
    ⟨(.gcmOpen true false, 0x17, 7, fun c i => gcmOpenOp c (slice (sealing 0x17 64).block 0x20 12) (Claims.at (sealing 0x17 64) 0xA 2) i), by simp [Claims.CryptoRow], rfl⟩⟩

/-- The state after that request is taken. -/
def taken (c : KeyCtx) (unit : Nat) (r : PostReq) : State :=
  let s := crypto 1 c unit r
  { s with accel := { s.accel with queues := modifyAt s.accel.queues unit (fun _ => []) } }

/-- `s` with every buffer taken. -/
def noBuffers (s : State) : State := { s with pools := { s.pools with pools := s.pools.pools.map (fun p => { p with returned := [], fresh := p.count }) } }

/-- O41, data operations: a well-shaped request and misshapen ones; contexts that are free, exhausted, failed, of another mode and of another instance; an operation that fails, one that
succeeds, with a buffer for its output and without; the last numbers. -/
theorem witness_O41_data : (let r := sealing 0x10 64
     let u := taken activeKey 0 r
     let e := macsecProtect activeKey (slice r.block 0x20 12) (u.aBytes r)
     (cryptoReserved r.block = true ∧ Claims.at r 8 2 / 32768 = 0 ∧ u.aInput r = true ∧ opMost 0x10 (Claims.at r 0x14 4) activeKey ≤ 65504) ∧
     u.aInput (sealing 0x10 65505) = false ∧ u.aInput (sealing 0x10 0) = false ∧ u.keyCtx 0 = activeKey ∧
     activeKey.state ≠ 0 ∧ activeKey.mode ≠ 2 ∧ KeyCtx.reset.state = 0 ∧ ({ activeKey with state := 2 }.state = 2 ∧ { activeKey with state := 2 }.mode = 1) ∧
     activeKey.mode = 1 ∧ activeKey.state = 1 ∧ (7 : Half) ≠ 0xFFFF ∧ activeKey.inst ≠ (7 : Half) ∧ r.inst = 0xFFFF ∧ { activeKey with state := 3 }.state = 3 ∧
     e.status = 0 ∧ (macsecProtect activeKey [] (List.replicate 13 0)).status ≠ 0 ∧ (Claims.output u 0 r (opMost 0x10 64 e.ctx) e.out e.hdr 0 e.seq).isSome = true ∧
     (Claims.output (noBuffers u) 0 r (opMost 0x10 64 e.ctx) e.out e.hdr 0 e.seq).isNone = true) ∧
    (let c := { activeKey with next := 2 ^ 32 - 1 - 2 ^ 20 }
     let e := macsecProtect c [] (List.replicate 14 0)
     e.ctx.last + 1 - e.ctx.next = 2 ^ 20) := by
  unfold Claims.at
  decide +kernel

/-- O41, keys: a load of a record of mode 1, and one of mode 0, which is malformed; a clear; contexts that may be used, and not; a buffer for the result. -/
theorem witness_O41_keys : (let r := sealing 1 64
     let u := taken KeyCtx.reset 0 r
     (cryptoReserved r.block = true ∧ Claims.at r 8 2 / 32768 = 0 ∧ u.aInput r = true ∧ Claims.at r 0x14 4 = 64 ∧ recordOk (u.aBytes r) = true) ∧
     recordOk ((crypto 0 KeyCtx.reset 0 r).aBytes r) = false ∧ recordOk ((crypto 8 KeyCtx.reset 0 r).aBytes r) = false ∧ mayUse r.inst (u.keyCtx 0) true = true ∧ mayUse 7 KeyCtx.reset true = true ∧
     mayUse 7 activeKey true = false ∧ (Claims.output u 0 r 0 [] 0 0 0).isSome = true) ∧
    (let r := posts 3 [(4, 1, 2)]
     let u := taken activeKey 0 r
     (cryptoReserved r.block = true ∧ Claims.at r 8 2 / 32768 = 0 ∧ aHandle r = 0) ∧ aHandle (sealing 2 64) ≠ 0 ∧ mayUse r.inst (u.keyCtx 0) true = true ∧ (Claims.output u 0 r 0 [] 0 0 0).isSome = true) := by
  unfold Claims.at
  decide +kernel

/-- An output depends on the buffer that is free for it alone. -/
theorem output_isSome (s : State) (unit : Nat) (r : PostReq) (most : Nat) (out : List Byte) (hdr : Byte) (ctx seq : Nat) :
    (Claims.output s unit r most out hdr ctx seq).isSome = (s.alloc (16 + most) false (ownUnit (3 + unit))).1.isSome := by
  unfold Claims.output
  split
  · rename_i h; rw [h]; rfl
  · rename_i h; rw [h]; rfl

/-- O41, compression: a request of each kind in shape, with a buffer for its output; the three ends of a decompression, of which every state of the formats has one (log 10);
a result that is due, with an output and without; requests with OPs that their units do not know, and bytes of which a tick finishes the first alone. -/
theorem witness_O41_compress : (let r := posts 5 [(4, 1, 0x20), (0xC, 4, 0x20000000), (0x14, 4, 64)]
     let u := taken KeyCtx.reset 2 r
     compressReserved r.block = true ∧ Claims.at r 5 1 ≤ 1 ∧ u.aInput r = true ∧ Claims.at r 0x14 4 ≤ 65456 ∧
     (Claims.output u 2 r (64 + 48) ((Config.compressBytes 0 (u.aBytes r)).take (64 + 48)) 0 0 0).isSome = true) ∧
    (let r := posts 5 [(4, 1, 0x21), (0xC, 4, 0x20000000), (0x14, 4, 64), (0x18, 4, 65504)]
     let u := taken KeyCtx.reset 2 r
     compressReserved r.block = true ∧ Claims.at r 5 1 ≤ 1 ∧ 1 ≤ Claims.at r 0x18 4 ∧ Claims.at r 0x18 4 ≤ 65504 ∧ u.aInput r = true ∧
     (∀ out, (Claims.output u 2 r 65504 out 0 0 0).isSome = true) ∧ ∀ out, (Claims.output (noBuffers u) 2 r 65504 out 0 0 0).isSome = false) ∧
    (∀ b, Config.inflateBytes 0 b = .invalid ∨ Config.inflateBytes 0 b = .unsupported ∨ ∃ out, Config.inflateBytes 0 b = .ok out ∧ (65504 < out.length ∨ out.length ≤ 65504)) ∧
    (let d : AccelDone := { req := posts 3 [], status := 0, handle := 0x20000000, outLen := 88 }
     let s := { live with accel := { live.accel with done := [[d], [], []] } }
     s.accel.done.getD (0 : Fin 3).val [] = d :: [] ∧ d.handle ≠ 0 ∧ { d with handle := 0 }.handle = 0) ∧ live.accel.done.getD (0 : Fin 3).val [] = [] ∧ opKnown 0 0x20 = false ∧ opKnown 2 0x20 = true ∧
    (let x (n : Nat) : AccelReq := { req := posts 3 [], left := n, ready := false }
     ([x 60].map (fun y => y.left)).sum ≤ 100 ∧ 100 - ([x 60].map (fun y => y.left)).sum < (x 41).left) := by
  unfold Claims.at
  refine ⟨by decide +kernel, ?_, fun b => ?_, by decide +kernel⟩
  · simp only [output_isSome, forall_const]
    decide +kernel
  cases h : Config.inflateBytes 0 b with
  | invalid => exact .inl rfl
  | unsupported => exact .inr (.inl rfl)
  | ok out => exact .inr (.inr ⟨out, rfl, by omega⟩)

/-! ### Witnesses: NVMe -/

/-- A submission queue of 16 entries with one command before its tail. -/
def ioSq (aborted : List Half) : NvSq := { cqid := 0, prio := 0, size := 16, base := 0, head := 0, tail := 1, error := false, aborted := aborted }
/-- A completion queue of 16 entries. -/
def ioCq : NvCq := { iv := 0, ien := true, size := 16, base := 0, next := 0, head := 0, modTicks := 0, modCount := 1, pendCount := 0, pendSince := 0 }

/-- An enabled controller with an admin queue pair and one I/O queue pair, of four granted. -/
def nvCtl : NvCtl := { NvCtl.reset with enabled := true, sqs := [(0, some (ioSq [])), (1, some (ioSq []))], cqs := [(0, some ioCq), (1, some ioCq)], nsq := 4, ncq := 4 }

/-- `wired` with PF2 and its first VF mastering the bus, one controller, and namespace 1 attached to instance 0 under NSID 1. -/
def storing (fn : Nat) (f : NvCtl → NvCtl) : State :=
  let s := wired (conn 2 false)
  { s with
    pcie := { s.pcie with fns := [(0, cfg [(4, 6)]), (1, cfg [(4, 6), (0x150, 9), (0x158, 2)]), (2, cfg [(4, 6), (0x150, 9), (0x158, 2)]), (0x100, cfg [(4, 6)]), (0x1100, cfg [(4, 6)])] },
    sto := { served.sto with ctls := [(fn, f nvCtl)], attach := [(1, some 1)] } }

/-- A command with CID 7 on a queue of a controller. -/
def nvk (ctl sqid : Nat) (nsid cdw10 cdw11 cdw12 : Nat) : NvCmd :=
  { ctl := ctl, sqid := sqid, cid := 7, nsid := BitVec.ofNat 32 nsid, fuse := 0, psdt := 0, reserved := false, prp1 := 0x1000, prps := [0x2000], cdw10 := BitVec.ofNat 32 cdw10,
    cdw11 := BitVec.ofNat 32 cdw11, cdw12 := BitVec.ofNat 32 cdw12, cdw13 := 0, cdw14 := 0, cdw15 := 0 }

/-- What a fetch of a command asks for: the queue, a CID that was not aborted, room in the operation table, and steps 1 and 2 of R305. -/
def CanFetch (s : State) (k : NvCmd) (q : NvSq) : Prop :=
  s.nvFetchable k.ctl k.sqid = some q ∧ k.cid ∉ q.aborted ∧ s.opRoom (fnInstHalf k.ctl) = true ∧ (FMap.keys s.queues.ops ++ s.queues.withdrawn).length < 65536 ∧ nvBasic (s.ctl k.ctl) k = none

/-- The state in which such a command is judged further, but for its operation, whose number is free; all that O42 to O44 ask of that state has nothing to do with
the operation table. -/
def went (s : State) (k : NvCmd) (q : NvSq) : State := Claims.fetchedAs s k (Claims.moveHead q)

theorem fetches {s : State} {k : NvCmd} {q : NvSq} (h : CanFetch s k q) : ∃ n u, Claims.Fetches s k n u ∧ u = { went s k q with queues := u.queues } := by
  obtain ⟨h1, h2, h3, h4, h5⟩ := h
  obtain ⟨n, hn⟩ := pickFree_isSome (s := s) (kind := 1) (lo := 0) (n := 65536) h4
  exact ⟨n, _, ⟨q, h1, h2, h3, hn, h5, rfl⟩, rfl⟩

/-- O42, fetching: nothing to fetch; an aborted identifier and another; an instance that was granted no operation; an identifier in use; a reserved field; an opcode that no
row names; an admin command on an I/O queue; a queue that waits behind one of urgent priority. -/
theorem witness_O42_fetch : live.nvFetchable 2 0 = none ∧ CanFetch (storing 2 id) (nvk 2 0 0 0 0 0) (ioSq []) ∧ CanFetch (storing 2 id) (nvk 2 1 0 0 0 0) (ioSq []) ∧
    CanFetch (storing 0x1100 id) (nvk 0x1100 0 1 0 0 0) (ioSq []) ∧
    (storing 2 (fun c => { c with sqs := [(0, some (ioSq [7]))] })).nvFetchable 2 0 = some (ioSq [7]) ∧ (nvk 2 0 0 0 0 0).cid ∈ (ioSq [7]).aborted ∧
    (let s := storing 0x1100 id
     ({ s with ten := { s.ten with insts := [(0, some { tenant .running with res := { (tenant .running).res with ops := 0 } })] } } : State).opRoom (fnInstHalf 0x1100) = false) ∧
    (let s := storing 2 (fun c => { c with sqs := [(1, some { ioSq [] with prio := 1 }), (2, some (ioSq []))] })
     (s.ctl 2).sq 1 = some { ioSq [] with prio := 1 } ∧ (s.ctl 2).waiting 0 ≠ []) ∧
    nvBasic nvCtl (nvk 2 0 0 0 0 0) = none ∧ nvBasic nvCtl { nvk 2 0 0 0 0 0 with opcode := some 3 } ≠ none ∧
    nvBasic { nvCtl with aers := [7] } (nvk 2 0 0 0 0 0) = some (nvSt 0 3 true) ∧ nvBasic nvCtl { nvk 2 0 0 0 0 0 with reserved := true } = some (nvSt 0 2 true) := by
  unfold CanFetch
  decide +kernel

/-- O42, queues: their numbers, sizes and vectors at their bounds; a queue to be deleted, one that is not there, a completion queue with and without submission queues. -/
theorem witness_O42_queues : (let u := went (storing 0x1100 id) (nvk 0x1100 0 0 0 0 0) (ioSq [])
     let c := u.ctl 0x1100
     ((nvk 2 0 0 0 0 0).cdw11.getLsbD 0 = false ∧ (0x1001 : DWord).toNat % 4096 ≠ 0) ∧ ((nvk 2 0 0 0 1 0).cdw11.getLsbD 0 = true ∧ (nvk 2 0 0 0 1 0).prp1.toNat % 4096 = 0) ∧
     c.ncq < 5 ∧ 4 ≤ c.ncq ∧ c.cq 1 ≠ none ∧ c.cq 4 = none ∧ c.nsq < 5 ∧ 4 ≤ c.nsq ∧ c.sq 1 ≠ none ∧ c.sq 4 = none ∧
     bits (nvk 2 0 0 0x00010004 0 0).cdw10.toNat 0 16 = 4 ∧ bits (nvk 2 0 0 0x00010004 0 0).cdw10.toNat 16 16 + 1 = 2 ∧ bits (nvk 2 0 0 4 0 0).cdw10.toNat 16 16 + 1 < 2 ∧
     bits (nvk 2 0 0 0x0FFF0004 0 0).cdw10.toNat 16 16 + 1 ≤ 4096 ∧ 4096 < bits (nvk 2 0 0 0x10000004 0 0).cdw10.toNat 16 16 + 1 ∧
     u.vectorsOf 0x1100 ≤ bits (nvk 2 0 0 0 0x40001 0).cdw11.toNat 16 16 ∧ bits (nvk 2 0 0 0 0x30001 0).cdw11.toNat 16 16 < u.vectorsOf 0x1100 ∧
     bits (nvk 2 0 0 0 0x10001 0).cdw11.toNat 16 16 ≠ 0 ∧ c.cq 0 ≠ none ∧
     (∀ e ∈ c.sqs, ∀ v, e.2 = some v → v.cqid ≠ 1) ∧ (0, some { ioSq [] with head := 1 }) ∈ c.sqs ∧ (ioSq []).cqid = 0) ∧
    (let c := { nvCtl with sqs := [(1, some { ioSq [] with cqid := 1 })] }
     (1, some { ioSq [] with cqid := 1 }) ∈ c.sqs ∧ c.cq 1 ≠ none) := by
  decide +kernel

/-- O42, asynchronous events and keep-alive: an event that waits; none, with three requests and with four; a timer before and at its time, off, of a frozen instance. -/
theorem witness_O42_events : { nvCtl with events := [5] }.events = 5 :: [] ∧ nvCtl.events = [] ∧ ({ nvCtl with aers := [1, 2, 3] } : NvCtl).aers.length < 4 ∧
    4 ≤ ({ nvCtl with aers := [1, 2, 3, 4] } : NvCtl).aers.length ∧
    (let s := storing 0x1100 (fun c => { c with kato := 1 })
     (s.ctl 0x1100).enabled = true ∧ (s.ctl 0x1100).kato ≠ 0 ∧ fnInst 0x1100 = some 0 ∧ s.isFrozen 0 = false ∧ s.time.tick < (s.ctl 0x1100).katoFrom + s.msTicks 1 ∧
     (s.ctl 0x1100).katoFrom + s.msTicks 1 ≤ ({ s with time := { s.time with tick := s.msTicks 1 } } : State).time.tick ∧
     ({ s with ten := { s.ten with insts := [(0, some (tenant .frozen))] } } : State).isFrozen 0 = true) ∧
    (live.ctl 2).enabled = false ∧ nvCtl.kato = 0 := by
  decide +kernel

/-- O43, by `witness_O42_fetch`: identify of a namespace that is attached, of one that is not and of none; log pages and features of each kind; queue counts before and after the first I/O
queue. -/
theorem witness_O43 : (let u := went (storing 0x1100 id) (nvk 0x1100 0 1 0 0 0) (ioSq [])
     u.nsAt 0x1100 1 = some 1 ∧ u.nsAt 0x1100 256 = none ∧ u.nsAt 0x1100 257 = none ∧ (u.ctl 0x1100).everIo = false) ∧
    bits (nvk 2 0 0 0 0 0).cdw10.toNat 0 8 = 0 ∧ bits (nvk 2 0 0 255 0 0).cdw10.toNat 0 8 = 255 ∧ (4 ∉ [1, 2, 3, 5] ∧ 6 ∉ [1, 2, 3, 5]) ∧ (nvk 2 0 1 2 0 0).nsid ≠ 0 ∧
    (nvk 2 0 0xFFFFFFFF 2 0 0).nsid = 0xFFFFFFFF ∧ bits (nvk 2 0 0 0x100 0 0).cdw10.toNat 8 3 ≠ 0 ∧ bits (nvk 2 0 0 0x80000001 0 0).cdw10.toNat 8 3 = 0 ∧
    (3 ∉ [1, 2, 4, 7, 8, 0x0B, 0x0C, 0x0F] ∧ 0x10 ∉ [1, 2, 4, 7, 8, 0x0B, 0x0C, 0x0F]) ∧ (nvk 2 0 0 0x80000001 0 0).cdw10.getLsbD 31 = true ∧ (nvk 2 0 0 1 0 0).cdw10.getLsbD 31 = false ∧
    (bits (nvk 2 0 0 4 0x10000 0).cdw11.toNat 16 4 = 1 ∧ bits (nvk 2 0 0 4 0x10000 0).cdw11.toNat 20 2 = 0) ∧
    (bits (nvk 2 0 0 4 0x100000 0).cdw11.toNat 16 4 = 0 ∧ bits (nvk 2 0 0 4 0x100000 0).cdw11.toNat 20 2 = 1) ∧
    bits (nvk 2 0 0 7 0xFFFF0000 0).cdw11.toNat 16 16 = 65535 ∧ bits (nvk 2 0 0 7 0xFFFEFFFE 0).cdw11.toNat 16 16 ≠ 65535 ∧ bits (nvk 2 0 0 7 0xFFFEFFFE 0).cdw11.toNat 0 16 ≠ 65535 ∧
    { nvCtl with everIo := true }.everIo = true := by
  decide +kernel

/-- O43, firmware: blocks at the ends of what may be written; a slot in use by another command, one whose chip has failed, one that runs; commit actions. -/
theorem witness_O43_firmware : (let u := went (storing 2 id) (nvk 2 0 0 0 0 0) (ioSq [])
     u.otherSlot = 0 ∧ 4 * ((nvk 2 0 0 1022 0 0).cdw10.toNat + 1) % 4096 ≠ 0 ∧ 4 * ((nvk 2 0 0 1023 0 0).cdw10.toNat + 1) % 4096 = 0 ∧ 4 * ((nvk 2 0 0 262143 0 0).cdw10.toNat + 1) ≤ 1048576 ∧
     1048576 < 4 * ((nvk 2 0 0 263167 0 0).cdw10.toNat + 1) ∧ 4 * (nvk 2 0 0 1023 ((imageEnd - 4096) / 4) 0).cdw11.toNat + 4096 ≤ imageEnd ∧
     imageEnd < 4 * (nvk 2 0 0 1023 (imageEnd / 4) 0).cdw11.toNat + 4096 ∧ (nvk 2 0 0 0 0 0).prps.all (fun p => decide (p.toNat % 4096 = 0)) = true ∧ u.holding [obj .slot 0] = none ∧
     u.holding [obj .slot 1] = none ∧ u.chipUsable 0 = true ∧ u.power.warn = false ∧
     ({ u with mbadel := { u.mbadel with running := [{ revoking 2 with objs := [obj .slot 0] }] } } : State).holding [obj .slot 0] ≠ none ∧
     ({ u with repair := { u.repair with flash := [false, true] } } : State).chipUsable 0 = false ∧
     ({ u with boot := { u.boot with runSlot := some 1 } } : State).boot.runSlot = some 1 ∧ u.boot.runSlot ≠ some 1 ∧
     u.standbyUsable = true ∧ u.dev.state = 2 ∧ u.repair.mpSwitch = none) ∧
    3 ≤ bits (nvk 2 0 0 3 0 0).cdw10.toNat 0 3 ∧ bits (nvk 2 0 0 2 0 0).cdw10.toNat 0 3 = 2 ∧ bits (nvk 2 0 0 0x1A 0 0).cdw10.toNat 3 3 = 3 ∧ 4 ∉ [0, 1, 2, 3] ∧ (0x1100 : Nat) ≠ 2 := by
  decide +kernel

/-- O43, a commit of an image that verifies: hashes are uninterpreted (log 9), so that no concrete image can be shown to verify. In every state in which slot 0's does and its
units are as in `live`, the other premises can be met too. -/
theorem witness_O43_verified (s : State) (h0 : s.validateStatus 0 = 0) (h1 : (s.writeMarker 0).slotValid 0 = true) (hr : s.repair = live.repair) (hp : s.power = live.power)
    (hm : s.mbadel.running = []) :
    let u : State := { s with boot := { s.boot with runSlot := some 1 }, dev := { s.dev with state := 2 } }
    u.holding [obj .slot 0] = none ∧ u.boot.runSlot ≠ some 0 ∧ u.power.warn = false ∧ u.chipUsable 0 = true ∧ u.validateStatus 0 = 0 ∧ (u.writeMarker 0).standbyUsable = true ∧
    (u.writeMarker 0).slotValid 0 = true ∧ (u.writeMarker 0).dev.state = 2 ∧ (u.writeMarker 0).repair.mpSwitch = none := by
  have e1 : live.repair.mpSwitch = none := by decide +kernel
  have e2 : live.power.warn = false := by decide +kernel
  have e3 : live.repair.flash.getD 0 false = true := by decide +kernel
  have e4 : live.repair.mps.getD (other live.repair.mpActive) false = true := by decide +kernel
  rw [← hr] at e1 e3 e4
  rw [← hp] at e2
  refine ⟨?_, by show some 1 ≠ some 0; simp, e2, e3, h0, e4, h1, rfl, e1⟩
  unfold State.holding
  simp only [hm, e1, List.find?_nil]

/-- The checks of an I/O command on a namespace that is there. -/
theorem ioStatus {u : State} {k : NvCmd} {opc st d : Nat} {x : Namespace} (hd : u.nsAt k.ctl k.nsid.toNat = some d) (hx : u.ns d = some x)
    (h : if opc = 0 then st = 0 else if bits k.cdw12.toNat 26 4 ≠ 0 ∨ 1048576 < (bits k.cdw12.toNat 0 16 + 1) * x.block then st = nvBadField
      else if x.blocks < k.cdw10.toNat + 2 ^ 32 * k.cdw11.toNat + (bits k.cdw12.toNat 0 16 + 1) then st = nvBadLba
      else if k.prps.all (fun p => decide (p.toNat % 4096 = 0)) = false then st = nvBadPrp else st = 0) : Claims.NvIoStatus u k opc st := by
  refine ⟨fun h0 hp => by rwa [if_neg h0, if_pos (.inl hp)] at h, fun _ h' => (by rw [hd] at h'; cases h'), fun d' hp h' => ?_⟩
  rw [hd] at h'
  cases h'
  refine ⟨fun h' => (by rw [hx] at h'; cases h'), fun x' h' => ?_⟩
  rw [hx] at h'
  cases h'
  refine ⟨fun h0 => by rwa [if_pos h0] at h, fun h0 => ?_⟩
  have hp := hp.resolve_left h0
  rw [if_neg h0] at h
  refine ⟨fun a => by rwa [if_pos (.inr a)] at h, fun a => ?_⟩
  rw [if_neg (by omega)] at h
  refine ⟨fun b => by rwa [if_pos b] at h, fun b => ?_⟩
  rw [if_neg (by omega)] at h
  constructor
  · rintro ⟨p, hm, hn⟩
    rwa [if_pos (Bool.eq_false_iff.2 (fun e => hn (by simpa using List.all_eq_true.1 e p hm)))] at h
  · intro e
    rwa [if_neg (by rw [List.all_eq_true.2 (fun p hm => by simpa using e p hm)]; exact Bool.noConfusion)] at h

/-- Namespace 1 of `served`. -/
def ns1 : Namespace := { backend := 0, remote := 1, block := 4096, blocks := 8 }

/-- An I/O command of 257 blocks fails on its length, one that asks for protection information on that, one past the end on its range, one with an offset on its
PRPs; the last block is there. -/
theorem witness_O44_status : served.ns 1 = some ns1 ∧
    (let u := went (storing 0x1100 id) (nvk 0x1100 1 1 0 0 0) (ioSq [])
     let at1 := fun (c10 c12 : Nat) => nvk 0x1100 1 1 c10 0 c12
     Claims.NvIoStatus u (at1 0 0x04000000) 0 0 ∧ Claims.NvIoStatus u (at1 0 256) 2 nvBadField ∧ Claims.NvIoStatus u (at1 0 0x04000000) 2 nvBadField ∧ Claims.NvIoStatus u (at1 8 0) 2 nvBadLba ∧
     Claims.NvIoStatus u { at1 7 0 with prps := [0x2001] } 1 nvBadPrp ∧ Claims.NvIoStatus u (at1 7 0) 1 0 ∧ Claims.NvIoStatus u (nvk 0x1100 1 2 0 0 0) 0 nvBadNs) := by
  refine ⟨by decide +kernel, ?_, ?_, ?_, ?_, ?_, ?_, ?_⟩
  iterate 6 (refine ioStatus (d := 1) (x := ns1) ?_ ?_ ?_ <;> decide +kernel)
  refine ⟨fun h => absurd rfl h, fun _ _ => rfl, fun d _ h => ?_⟩
  have e : (went (storing 0x1100 id) (nvk 0x1100 1 1 0 0 0) (ioSq [])).nsAt 0x1100 2 = none := by decide +kernel
  have h : (went (storing 0x1100 id) (nvk 0x1100 1 1 0 0 0) (ioSq [])).nsAt 0x1100 2 = some d := h
  rw [e] at h
  cases h

/-- O44, commands: rows; a buffer for the entry and none; an I/O queue whose command can be fetched, one with an aborted identifier; a controller that changes its power state and one
that does not. -/
theorem witness_O44_commands : Claims.NvIoRow (nvk 0x1100 1 1 0 0 0) (.flush (nvk 0x1100 1 1 0 0 0), 0) ∧ Claims.NvIoRow (nvk 0x1100 1 1 0 0 0) (.nvmeRead (nvk 0x1100 1 1 0 0 0), 2) ∧
    CanFetch (storing 0x1100 id) (nvk 0x1100 1 1 0 0 0) (ioSq []) ∧ ((storing 0x1100 id).alloc 64 false ownHost).1 ≠ none ∧ ((noBuffers (storing 0x1100 id)).alloc 64 false ownHost).1 = none ∧
    (7 : Half) ∈ (ioSq [7]).aborted ∧
    (let v := ((went (storing 0x1100 id) (nvk 0x1100 1 1 0 0 0) (ioSq [])).alloc 64 false ownHost).2
     ((went (storing 0x1100 id) (nvk 0x1100 1 1 0 0 0) (ioSq [])).alloc 64 false ownHost).1 ≠ none ∧ (v.ctl 0x1100).trans = none) ∧
    (let s := storing 0x1100 (fun c => { c with trans := some { source := 3, target := 0, endTick := 1, leaving := true } })
     CanFetch s (nvk 0x1100 1 1 0 0 0) (ioSq []) ∧ (((went s (nvk 0x1100 1 1 0 0 0) (ioSq [])).alloc 64 false ownHost).2.ctl 0x1100).trans ≠ none) := by
  refine ⟨by simp [Claims.NvIoRow], by simp [Claims.NvIoRow], ?_⟩
  unfold CanFetch
  decide +kernel

/-- O44, power states: a controller of the default table that has been idle for its 50 ms, and one that has not; a transition before and at its end, an entry and an exit, with a command that
waits and without; rings with and without commands. -/
theorem witness_O44_power : (let s := storing 2 id
     let t := { s with time := { s.time with tick := s.msTicks 50 } }
     let c := t.ctl 2
     let rule := fieldLe c.apstTable (8 * c.ps) 8
     (c.enabled = true ∧ c.apste = true ∧ c.busy = false ∧ c.trans = none ∧ bits rule 8 24 ≠ 0 ∧ c.ps < bits rule 3 5 ∧ bits rule 3 5 ≤ 3 ∧ c.idleSince + t.msTicks (bits rule 8 24) ≤ t.time.tick) ∧
     s.time.tick < (s.ctl 2).idleSince + s.msTicks (bits rule 8 24)) ∧
    (let x : NvTrans := { source := 0, target := 1, endTick := 1, leaving := false }
     let s := storing 2 (fun c => { c with trans := some x })
     (s.ctl 2).trans = some x ∧ s.time.tick < x.endTick ∧ x.endTick ≤ ({ s with time := { s.time with tick := 1 } } : State).time.tick ∧ x.leaving = false ∧ (∀ o ∈ (s.ctl 2).outs, o.waits = none) ∧
     (∃ e ∈ (s.ctl 2).sqs, ∃ q ∈ [ioSq []], e.2 = some q ∧ q.head ≠ q.tail) ∧ { x with leaving := true }.leaving = true) ∧
    (let o : NvOut := { sqid := 1, cid := 7, op := 0, nsid := 1, nvOp := 0, slba := 0, bytes := 0, parts := [], waits := some 0x20000000 }
     ∃ p ∈ ({ nvCtl with outs := [o] } : NvCtl).outs, p.waits ≠ none) ∧
    (∀ e ∈ ({ nvCtl with sqs := [(0, some { ioSq [] with head := 1 })] } : NvCtl).sqs, e.2.all (fun q => decide (q.head = q.tail)) = true) := by
  decide +kernel

/-! ### Witnesses: start-up, stacking, side interfaces and the monitor -/

/-- The reset state with other boot state. -/
def staged (f : Boot → Boot) : State := { State.reset with boot := f State.reset.boot }

/-- O45: a module that waits for its map and one that does not; which Farrier comes back is free (log 6), so that exactly one of three clauses holds; a release that is due, native and
compatible, without a warning and with one, in FIELD and decommissioned; a selected image that is held and one that is not; released processors; recovery windows of each kind. Whether an image's parts agree with
their hashes is uninterpreted (log 9). -/
theorem witness_O45 : (State.reset.power.pwrGood = true ∧ State.reset.power.warn = false ∧ (powered (fun p => { p with warn := true })).power.warn = true ∧ State.reset.boot.stage = .waitRepair ∧ State.reset.boot.straps.compatBoot = false) ∧
    (staged (fun b => { b with stage := .repaired })).boot.stage ≠ .waitRepair ∧
    (let s := staged (fun b => { b with stage := .repaired })
     s.power.pwrGood = true ∧ s.boot.rounds = 0 ∧ s.boot.stage = .repaired ∧ s.boot.straps.compatBoot = false ∧ ({ s with nv := { s.nv with lifecycle := 2 } } : State).nv.lifecycle ≠ 3 ∧
     ({ s with nv := { s.nv with lifecycle := 3 } } : State).nv.lifecycle = 3 ∧ { s.boot with rounds := 1 }.rounds ≠ 0) ∧
    (let s := staged (fun b => { b with straps := { b.straps with compatBoot := true } })
     s.power.pwrGood = true ∧ s.boot.rounds = 0 ∧ s.boot.stage = .waitRepair ∧ s.boot.straps.compatBoot = true) ∧
    (let s := staged (fun b => { b with stage := .selected, runSlot := some 0 })
     s.boot.stage = .selected ∧ s.boot.straps.safeHold = false ∧ { s.boot.straps with safeHold := true }.safeHold = true) ∧
    (let s := staged (fun b => { b with stage := .released, mpRunning := true })
     s.boot.mpRunning = true ∧ s.boot.stage = .released) ∧ State.reset.boot.mpRunning = false ∧
    (let s := staged (fun b => { b with window := true, preSelect := true })
     s.boot.window = true ∧ s.boot.windowHeld = false ∧ s.monitor.load = none ∧ s.boot.preSelect = true ∧ { s.boot with windowHeld := true }.windowHeld = true) ∧
    (staged (fun b => { b with window := true })).boot.preSelect = false ∧ State.reset.boot.window = false := by
  decide +kernel

/-- `live` in a stack of some members, at a position. -/
def inStack (pos : Fin 8) (master : Nat) (members : List Nat) : State :=
  { live with boot := { live.boot with straps := { live.boot.straps with stackEn := true, pos := pos } }, stack := { live.stack with master := master, members := members } }

/-- O46, membership: a join of a stranger and of a member, seen by the master and by another module; the 16th marker after a takeover and the one before; two and three missed;
a marker with a period to come, a period that no code names and none, in a module that follows the stack's time and one that does not; a split into
halves, of which the one with the lowest position goes on, and one from which the master is cut off. -/
theorem witness_O46_members : (let s := inStack 0 0 [0, 1]
     (s.boot.straps.stackEn = true ∧ s.stackLaneUp = true ∧ s.stack.joinAt = none) ∧ ¬ (s.stack.members.contains 7 = true) ∧ s.isMaster = true ∧ 7 ≠ s.position ∧
     (s.stack.members.contains 1 = true ∧ ¬ (1 = s.position ∧ s.stack.members.length = 1)) ∧ live.boot.straps.stackEn = false) ∧
    (let s := inStack 1 0 [0, 1]
     s.isMaster = false ∧ s.stack.isolated = false ∧ 7 < 8 ∧ 15 ≤ { s.stack with takeover := true, markers := 15 }.markers ∧ { s.stack with takeover := true, markers := 14 }.markers < 15 ∧
     s.stack.takeover = false ∧ 3 ≤ { s.stack with missed := 3 }.missed ∧ s.stack.missed < 3 ∧
     4 < 5 ∧ 5 ≤ 5 ∧ { s.time with source := 1 }.source = 1 ∧ s.time.source ≠ 1) ∧
    (let s := inStack 1 0 [0, 1, 2, 3]
     let part := fun (reach : List (Fin 8)) => s.stack.members.filter (fun p => decide (p = s.position) || (reach.map (·.val)).contains p)
     (part [0, 2, 3]).length = s.stack.members.length ∧ (s.stack.members.length = 2 * (part [0]).length ∧ lowestOf s.stack.members ∈ part [0] ∧ s.stack.master ∈ part [0]) ∧
     (s.stack.members.length = 2 * (part [3]).length ∧ lowestOf s.stack.members ∉ part [3]) ∧ ¬ s.stack.members.length < 2 * (part [3]).length) ∧
    (let s := inStack 1 3 [0, 1, 2, 3]
     let part := s.stack.members.filter (fun p => decide (p = s.position) || (([0, 2] : List (Fin 8)).map (·.val)).contains p)
     s.stack.members.length < 2 * part.length ∧ s.stack.master ∉ part) := by
  decide +kernel

/-- O46, commits: a PREPARE for the first and the last batch, with a clean-up behind it and without; a GO that is new and one that is known; an ABANDON after the master was lost and
otherwise; a PREPARE that times out at 16 turns and not at 15; a decision that is still open. -/
theorem witness_O46_commits : (let s := inStack 1 0 [0, 1]
     s.boot.straps.stackEn = true ∧ s.isMaster = false ∧ (0 : Fin 8).val = s.stack.master ∧ s.isPrepared 1 = false ∧ s.isPrepared 255 = false ∧ s.commitWaits 1 = false ∧
     State.commitWaits { s with cls := { s.cls with cleaning := [{ cleanUp with blocks := 1 }] } } 1 = true ∧ s.stack.isolated = false ∧ (∀ g ∈ s.stack.going, g.1 ≠ 1) ∧
     ¬ (∀ g ∈ { s.stack with going := [(1, 5)] }.going, g.1 ≠ 1) ∧ s.stack.commit = none ∧
     (∃ e ∈ { s.stack with prepared := [(1, 0, true)] }.prepared, ∀ g ∈ s.stack.going, g.1 ≠ e.1) ∧ ¬ (∃ e ∈ s.stack.prepared, ∀ g ∈ s.stack.going, g.1 ≠ e.1)) ∧
    (let c : StackCommit := { batch := 1, start := 0, ready := [0], goTick := none, lost := false }
     let s := { inStack 0 0 [0, 1] with time := { live.time with tick := 16 }, stack := { (inStack 0 0 [0, 1]).stack with commit := some c } }
     s.stack.commit = some c ∧ c.lost = false ∧ { c with lost := true }.lost = true ∧ s.isMaster = true ∧ c.goTick = none ∧ c.start + 16 ≤ s.time.tick ∧ (1 : Fin 8).val ∈ s.stack.members ∧
     (1 : Fin 8).val ∉ c.ready ∧ ¬ (c.start + 16 ≤ ({ s with time := { s.time with tick := 15 } } : State).time.tick)) := by
  decide +kernel

/-- O46, frames from other modules: hops 7 and 8; for this module and for another; a queue that exists and one that does not; a buffer and none. -/
theorem witness_O46_frames : (let s := (inStack 1 0 [0, 1]).setTmq 0 (some tmQueue)
     s.boot.straps.stackEn = true ∧ 7 < 8 ∧ s.dataplane = true ∧ (1 : Fin 8).val = s.position ∧ (2 : Fin 8).val ≠ s.position ∧ s.tmq (fieldLe (zeros 16) 0 2) = some tmQueue ∧ s.tmq (fieldLe [1] 0 2) = none ∧
     (s.alloc 64 false ownTm).1.isSome = true ∧ ((noBuffers s).alloc 64 false ownTm).1 = none ∧ (s.alloc 64 false ownRx).1.isSome = true ∧ 8 ≤ 8) := by
  decide +kernel

/-- O47: a module without supply and with; register codes up to the last one and beyond; an alert and none; processors that run and that do not; endpoint IDs at the ends of their
range; lifecycle states 1 and 2. -/
theorem witness_O47 : (powered (fun p => { p with st := .down })).power.st = .down ∧ State.reset.power.st ≠ .down ∧ 6 < (7 : Byte).toNat ∧ ¬ 6 < (6 : Byte).toNat ∧
    State.reset.power.warn = false ∧ (powered (fun p => { p with warn := true })).power.warn = true ∧
    ({ live with events := { live.events with faultN := true } } : State).events.faultN = true ∧ live.power.thermAlert = false ∧ State.reset.boot.mpRunning = false ∧
    ((manned id).boot.mpRunning = true ∧ (manned id).power.pwrGood = true) ∧ (powered (fun p => { p with pwrGood := false })).power.pwrGood = false ∧ (1 : Byte) ≠ 0 ∧ (0xFE : Byte) ≠ 0xFF ∧
    ({ live with nv := { live.nv with lifecycle := 1 } } : State).nv.lifecycle ≤ 1 ∧ 1 < ({ live with nv := { live.nv with lifecycle := 2 } } : State).nv.lifecycle := by
  decide +kernel

/-- `live` in a lifecycle state, with Criek or Criek-ROM serving the monitor. -/
def watched (life : Nat) (criek : Bool) : State := { live with nv := { live.nv with lifecycle := life }, monitor := { live.monitor with criek := criek } }

/-- A command runs where its path reads, its session can open, its server serves and the lifecycle permits. -/
theorem monRuns {s : State} {m : MonPath} {k : MonKind} (h : Claims.MonReads s m ∧ (s.monitor.session = none ∨ s.monitor.session = some m) ∧
    ((k = .look ∨ k = .engine) → s.monitor.criek = true) ∧ Claims.MonPermits s.nv.lifecycle k) : ∃ u, Claims.MonRuns s m k u :=
  ⟨_, h.1, h.2.1, h.2.2.1, h.2.2.2, rfl⟩

/-- O48, sessions: commands of each kind run on the serial port, and one on an open TAP; a monitor that does not read; a session of the other path; a server and a lifecycle state that do
not permit. -/
theorem witness_O48_sessions : Claims.MonRow .serial (.help .serial) .basic ∧ Claims.MonRow .tap (.release .tap) .rom ∧
    (∃ u, Claims.MonRuns (watched 2 false) .serial .basic u) ∧ (∃ u, Claims.MonRuns (watched 2 true) .serial .look u) ∧ (∃ u, Claims.MonRuns (watched 1 false) .serial .fuse u) ∧
    (∃ u, Claims.MonRuns (watched 0 false) .serial .advance u) ∧ (∃ u, Claims.MonRuns (watched 2 false) .serial .rom u) ∧
    (∃ u, Claims.MonRuns { watched 1 true with monitor := { (watched 1 true).monitor with tapCriek := true, session := some .tap } } .tap .engine u) ∧
    ¬ Claims.MonReads (powered (fun p => { p with pwrGood := false })) .serial ∧ ¬ Claims.MonReads live .tap ∧
    ({ live.monitor with session := some .tap }.session = some .tap ∧ MonPath.tap ≠ .serial) ∧ (watched 2 false).monitor.criek = false ∧ ¬ Claims.MonPermits 3 .look ∧ ¬ Claims.MonPermits 2 .fuse ∧
    ¬ Claims.MonPermits 1 .advance ∧ ¬ Claims.MonPermits 3 .rom ∧ ¬ Claims.MonPermits 3 .engine := by
  refine ⟨Or.inl ⟨rfl, Or.inl rfl⟩, Or.inr (Or.inr (Or.inr (Or.inr (Or.inl ⟨rfl, Or.inl rfl⟩)))), monRuns ?_, monRuns ?_, monRuns ?_, monRuns ?_, monRuns ?_, monRuns ?_,
    fun h => absurd h.1 (by decide +kernel), fun h => absurd (h.2.2 rfl).1 (by decide +kernel), ?_⟩ <;>
    (unfold Claims.MonPermits; first | decide +kernel | (unfold Claims.MonReads; decide +kernel))

/-- O48, what the commands meet: rates, log reads of 64 and 65 events, a key that is programmed (whether one is fused is uninterpreted), with a warning and without; confirmations; a stage 1 that is held; a recovery
window; image lengths at their bounds. -/
theorem witness_O48_commands : (115200 ∈ [115200, 230400, 460800, 921600, 1000000, 2000000, 3000000] ∧ 9600 ∉ [115200, 230400, 460800, 921600, 1000000, 2000000, 3000000]) ∧ ¬ 64 < 64 ∧ 64 < 65 ∧
    (watched 1 false).power.warn = false ∧
    ({ watched 1 false with nv := { (watched 1 false).nv with keys := [(3, some (0, 0))] } } : State).keyProgrammed 3 = true ∧
    (let u := { watched 2 false with boot := { live.boot with straps := { live.boot.straps with safeHold := true }, stage := .selected, window := false, mpRunning := false } }
     u.monitor.criek = false ∧ (u.boot.straps.safeHold = true ∧ u.boot.stage = .selected ∧ u.boot.mpRunning = false)) ∧
    (let u := { watched 2 false with boot := { live.boot with window := true } }
     u.monitor.criek = false ∧ u.boot.window = true ∧ u.boot.straps.safeHold = false) ∧ (8191 < 8192 ∧ 8192 ≤ 50331648 ∧ 50331648 < 50331649) := by
  decide +kernel

/-- O48, a load: none, the last block of one, whole and short, a block before the last; a rate that waits; a change of server, with the processors running and with Criek-ROM in reset. -/
theorem witness_O48_load : live.monitor.load = none ∧
    (let l : MonLoad := { len := 8192, data := [], block := 0, safeHold := false }
     let d : List Byte := List.replicate 1 0
     let m : MonLoad := { len := 1, data := [], block := 0, safeHold := false }
     d.length ≠ min 4096 (l.len - l.data.length) ∧ d.length = min 4096 (m.len - m.data.length) ∧ crc 0 d = 0 ∧ crc 0 d ≠ 1 ∧ m.len ≤ (m.data ++ d).length) ∧
    { live.monitor with baudNext := some 230400 }.baudNext = some 230400 ∧ live.monitor.baudNext = none ∧ live.power.pwrGood = true ∧ (manned id).boot.mpRunning = true ∧
    (watched 2 true).monitor.criek = true ∧ live.boot.mpRunning = false ∧ live.monitor.criek = false := by
  decide +kernel

/-- O48, a block before the last: whatever 4,096 bytes it holds, with their CRC. -/
theorem witness_O48_block (d : List Byte) (h : d.length = 4096) : d.length = min 4096 (8192 - ([] : List Byte).length) ∧ ([] ++ d).length < 8192 :=
  ⟨by rw [h]; decide, by rw [List.nil_append, h]; decide⟩

/-- O49: an engine in service and one that is not, allowed and locked; contexts that are free, running and held; windows read at their limit; every kind of place that is written. -/
theorem witness_O49 : (∃ u, Claims.MonRuns (watched 1 true) .serial .engine u) ∧
    (let u := watched 1 true
     u.engActive 0 = true ∧ u.debugAllowed 0 = true ∧ u.engActive (33 * 32) = false ∧ (watched 2 true).engActive 0 = true ∧ (watched 2 true).debugAllowed 0 = false ∧
     (3 : Fin 8).val ≠ 0 ∧ (u.thr 0 3).st = .free ∧ (u.thr 0 3).held = false ∧ (u.eng 0).itemOf 3 = none ∧ (u.thr 0 3).sel = none ∧
     (2 ≤ 256 ∧ ∀ i, i < 2 → u.monWord 0 (0x10000 + 4 * i) = some (([0, 0] : List Nat).getD i 0)) ∧ (∃ i, i < 1 ∧ u.monWord 0 (0x4000 + 4 * i) = none) ∧ 256 < 257 ∧
     (u.eng 0).holdEng = false ∧ u.locate 0 0 0x10000 4 = .store 0x10000 ∧ u.locate 0 0 0x100000 4 = .shared 0x100000 ∧ u.locate 0 0 0x4000 4 ≠ .store 0x4000) ∧
    (let u := { watched 1 true with erg := { live.erg with engines := [(0, { Engine.reset with threads := [(3, { ready [] with held := true }), (4, ready [])] })] } }
     (u.thr 0 3).held = true ∧ (u.thr 0 4).st ≠ .free ∧ (u.eng 0).itemOf 4 = some item ∧ (u.eng 0).holdEng = true ∧ (32 : Fin 33).val = 32 ∧ (0 : Fin 33).val ≠ 32) := by
  refine ⟨monRuns (by unfold Claims.MonPermits Claims.MonReads; decide +kernel), ?_⟩
  decide +kernel

/-! ### Witnesses: the queue, the invariants, blocks, events and faults -/

/-- O50: a queue with a command in front, and an empty one. -/
theorem witness_O50 : ({ live with pending := [.alertResponse] } : State).pending = .alertResponse :: [] ∧ live.pending = [] := ⟨rfl, by decide +kernel⟩

/-- A state with memory and fuses that a step meets. -/
def marked : State := { live with hostMem := [(7, 1)], nv := { live.nv with lifecycle := 2, revoked := [0], keys := [(0, some (1, 2))] }, pending := [.alertResponse] }

/-- O52, O53: a state that meets both invariants, with a byte in host memory, a revoked slot and a programmed one; a step of it. -/
theorem witness_O52_O53 : (∃ t, step marked = .next t) ∧ marked.MemoriesCanonical ∧ marked.LegalTime ∧ 0 ∈ marked.nv.revoked ∧ FMap.get none marked.nv.keys 0 = some (1, 2) := by
  refine ⟨⟨_, rfl⟩, ?_⟩
  unfold State.MemoriesCanonical State.LegalTime
  decide +kernel

/-- O54: a canonical memory with a byte before, in and behind those written; an engine that is stored. -/
theorem witness_O54 : FMap.wf 0 ([(1, 5), (3, 6)] : Mem) = true ∧ 1 < 2 ∧ 2 + [(1 : Byte)].length ≤ 3 ∧ ((withEng (onEngine []) (fun e => { e with cyc := 1 })).eng 0).cyc ≠ 0 := by decide +kernel

/-- The header of a block that only checks. -/
def check : MbHdr := { hdr 64 with checkOnly := true }

/-- O56: a block that only checks, of version 1 and 2; writes of PF0 that are issued; a notice's message before and behind the block. -/
theorem witness_O56 : Claims.header (.powerQuery check) = some check ∧ check.checkOnly = true ∧ check.readStatus = 0 ∧
    (let s := ask live 64
     FMap.get none s.mbadel.taken check.hm.val = some (64, 64) ∧ s.mbadel.order.head? = some check.hm.val ∧ check.v2 = false ∧ s.holds 0 = false ∧ s.preReset? check.hm.val 64 = none ∧ FMap.wf 0 s.hostMem = true ∧
     Claims.messageAt s check.hm.val + 4 ≤ 64) ∧
    (let s := { ask live 64 with pcie := { live.pcie with fns := [(0, { cfg [(4, 6)] with msix := Mem.wrN [] 0 (leBytes 8 128) })] } }
     64 + 64 ≤ Claims.messageAt s check.hm.val) := by
  decide +kernel

/-- O57: a block that was not taken, one that was, and one behind another; a read that failed; a misplaced block; a length that differs and one of 63; a recovery personality and a window; an OPCODE
that is implemented, and ones past the last of a group and of the groups. -/
theorem witness_O57 : Claims.header (.powerQuery (hdr 64)) = some (hdr 64) ∧ FMap.get none live.mbadel.taken (hdr 64).hm.val = none ∧
    FMap.get none (ask live 64).mbadel.taken (hdr 64).hm.val = some (64, 64) ∧ { hdr 64 with readStatus := 3 }.readStatus ≠ 0 ∧ (hdr 64).readStatus = 0 ∧ 65 % 64 ≠ 0 ∧ 64 % 64 = 0 ∧
    (ask live 64).mbadel.order.head? = some (hdr 64).hm.val ∧ ({ (ask live 64).mbadel with order := [1, 0] } : Mbadel).order.head? ≠ some (hdr 64).hm.val ∧
    implemented 0x0106 = true ∧ implemented 0x0107 = false ∧ implemented 0x0F01 = false ∧ (hdr 65).length ≠ 64 ∧ 63 < 64 ∧ (hdr 64).length = 64 ∧ ({ (ask live 64).boot with recoveryPers := true } : Boot).recoveryPers = true ∧
    ({ (ask live 64).boot with window := true } : Boot).window = true := by
  decide +kernel

/-- O58: results that are cut and that fit; a notice that is posted with a message, one whose vector is masked, and one that waits. -/
theorem witness_O58 : (let s := ask live 64
     FMap.wf 0 s.hostMem = true ∧ s.holds 0 = false ∧ s.preReset? 0 64 = none ∧ 64 ≤ 64 ∧ (255 : Nat) < 256 ∧ 2 ^ 24 - 1 < 2 ^ 24 ∧ (s.mb (mhNo 0)).full = false) ∧
    (let s := { ask live 64 with pcie := { live.pcie with fns := [(0, { cfg [(4, 6), (0x53, 0x80)] with msix := Mem.wrN [] 0 (leBytes 8 0x10000 ++ leBytes 8 (2 ^ 32)) })] } }
     s.msixMasked 0 0 = false ∧ s.holds 0 = false ∧ 64 + 64 ≤ Claims.messageAt s 0) ∧ (ask live 64).msixMasked 0 0 = true ∧
    (let s := ask live 64
     let t := s.setMb (mhNo 0) { s.mb (mhNo 0) with full := true }
     (t.mb (mhNo 0)).full = true) := by
  decide +kernel

/-- O59: the ring enabled with a class that is and is not masked, and off; a log with room; an event of the highest severity. -/
theorem witness_O59 : (let e := { live.events with ringEnabled := true }
     e.ringEnabled = true ∧ e.mask.getLsbD (0x0401 / 256) = false ∧ { e with mask := BitVec.allOnes 256 }.mask.getLsbD (0x0401 / 256) = true) ∧ live.events.ringEnabled = false ∧
    (0 : Nat) + 1 < 3145728 ∧ 3 < 4 := by
  decide +kernel

/-- O60: a worker without children at the first and the last context, each cause, a fault channel with room and a full one. -/
theorem witness_O60 : (let s := onEngine [(1, ready []), (7, ready [])]
     1 ≤ 1 ∧ 7 < 8 ∧ (s.eng 0).itemOf 1 = some item ∧ (s.eng 0).kids 1 = [] ∧ (s.eng 0).itemOf 7 = some item ∧ (s.eng 0).faultCh.length < 8) ∧ 1 ≤ 9 ∧
    (let s := withEng (onEngine [(1, ready [])]) (fun e => { e with faultCh := List.replicate 8 { msg := { dst := 0, stamp := 0, words := [] }, read := 0 } })
     8 ≤ (s.eng 0).faultCh.length ∧ (s.eng 0).itemOf 1 = some item ∧ (s.eng 0).kids 1 = []) := by
  decide +kernel

/-! ### The smoke test of WellFormed: one ill-formed command for each check, beside a well-formed one -/

theorem test_sub_immediate : Instr.WellFormed (.integerOp (iss 1) .sub 5 5 (.imm 1)) = false ∧ Instr.WellFormed (.integerOp (iss 1) .sub 5 5 (.reg 6)) = true := by decide
theorem test_shift_amounts : Instr.WellFormed (.integerOp (iss 1) .sll 5 5 (.imm 32)) = false ∧ Instr.WellFormed (.integerOp (iss 1) .srl 5 5 (.imm 32)) = false ∧
    Instr.WellFormed (.integerOp (iss 1) .sra 5 5 (.imm 0xFFF)) = false ∧ Instr.WellFormed (.integerOp (iss 1) .sra 5 5 (.imm 31)) = true := by decide
theorem test_odd_offsets : Instr.WellFormed (.branch (iss 1) .eq 0 0 3) = false ∧ Instr.WellFormed (.jal (iss 1) 1 1) = false ∧ Instr.WellFormed (.jal (iss 1) 1 2) = true := by decide
theorem test_arrival_times : Instr.WellFormed (.frameReceive 0 [] false 0 0 1000000000 0 0 false []) = false ∧ Instr.WellFormed (.frameReceive 0 [] false 0 0 0 65536 0 false []) = false ∧
    Instr.WellFormed (.schedulerSelect 0 0 1000000000 0) = false ∧ Instr.WellFormed (.schedulerSelect 0 0 999999999 65535) = true := by decide
theorem test_list_lengths : Instr.WellFormed (.poolCarve (hdr 64) (List.replicate 6 0) (List.replicate 7 0)) = false ∧
    Instr.WellFormed (.poolCarve (hdr 64) (List.replicate 7 0) (List.replicate 8 0)) = false ∧ Instr.WellFormed (.tableCreate (hdr 64) 0 1 4 0 1024 0 0 []) = false ∧
    Instr.WellFormed (.tablePlan (hdr 64) [0]) = false ∧ Instr.WellFormed (.stageDefaults (hdr 64) 1 (List.replicate 19 0) (List.replicate 20 0)) = false ∧
    Instr.WellFormed (.stageDefaults (hdr 64) 1 (List.replicate 20 0) (List.replicate 21 0)) = false ∧ Instr.WellFormed (.stageSpread (hdr 64) 1 0 0 0 (List.replicate 27 0) []) = false ∧
    Instr.WellFormed (.stageGraph (hdr 64) 1 0 (List.replicate 19 0) []) = false ∧ Instr.WellFormed (.stackGroup (hdr 64) 0 0 (List.replicate 7 0)) = false ∧
    Instr.WellFormed (.tablePlan (hdr 64) (List.replicate 9 0)) = true := by decide
theorem test_byte_lengths : Instr.WellFormed (.editLoad (hdr 64) 0 (zeros 127)) = false ∧ Instr.WellFormed (.backendAdd (hdr 64) 0 0 0 (zeros 15) (zeros 224)) = false ∧
    Instr.WellFormed (.backendAdd (hdr 64) 0 0 0 (zeros 16) (zeros 223)) = false ∧ Instr.WellFormed (.backendAdd (hdr 64) 0 0 0 (zeros 16) (zeros 224)) = true := by decide +kernel
theorem test_engine_sets : Instr.WellFormed (.programLoad (hdr 64) [1024] 0 []) = false ∧ Instr.WellFormed (.bankSwitch (hdr 64) [0, 1024] 0) = false ∧
    Instr.WellFormed (.programQuery (hdr 64) [1024]) = false ∧ Instr.WellFormed (.programQuery (hdr 64) [1023]) = true := by decide
theorem test_load_block (d : List Byte) (c : Word) (h : d.length = 4097) : Instr.WellFormed (.loadBlock d c) = false := by
  show decide (d.length ≤ 4096) = false
  rw [h]
  rfl

/-! ### Words written out from the encodings -/

/-- A word from the R-type fields of R49: custom-0 is 0x0B, custom-1 is 0x2B. -/
def rType (funct7 rs2 rs1 funct3 rd opcode : Nat) : Nat := funct7 * 2 ^ 25 + rs2 * 2 ^ 20 + rs1 * 2 ^ 15 + funct3 * 2 ^ 12 + rd * 2 ^ 7 + opcode

/-- R49: the rows of custom-0, with operands that differ. -/
theorem test_custom0 : decodeErg (rType 0 0 2 0 0 0x0B) = some (.yieldt 2) ∧ decodeErg (rType 1 3 2 0 1 0x0B) = some (.fork 1 2 3) ∧ decodeErg (rType 2 0 2 0 1 0x0B) = some (.join 1 2) ∧
    decodeErg (rType 3 0 2 0 0 0x0B) = some (.pksel 2) ∧ decodeErg (rType 4 3 2 0 1 0x0B) = some (.post 1 2 3) ∧ decodeErg (rType 5 3 2 0 1 0x0B) = some (.tlkp 1 2 3) ∧
    decodeErg (rType 0 3 2 1 0 0x0B) = some (.chsend 2 3) ∧ decodeErg (rType 1 3 2 1 0 0x0B) = some (.chsendl 2 3) ∧ decodeErg (rType 2 0 2 1 1 0x0B) = some (.chrecv 1 2) ∧
    decodeErg (rType 3 0 2 1 1 0x0B) = some (.chpoll 1 2) ∧ decodeErg (rType 0 0 2 2 1 0x0B) = some (.bfalloc 1 2) ∧ decodeErg (rType 1 3 2 2 1 0x0B) = some (.bfown 1 2 3) ∧
    decodeErg (rType 2 3 2 2 1 0x0B) = some (.bffree 1 2 3) ∧ decodeErg (rType 3 3 2 2 1 0x0B) = some (.enq 1 2 3) ∧ decodeErg (rType 0 3 2 3 1 0x0B) = some (.crc32c 1 2 3) ∧
    decodeErg (rType 1 0 2 3 1 0x0B) = some (.bswap 1 2) ∧ decodeErg (rType 2 3 2 3 1 0x0B) = some (.csum16 1 2 3) := by decide
/-- R49: fields that must be 0, and functions that no row has. -/
theorem test_custom0_illegal : decodeErg (rType 0 3 2 0 0 0x0B) = none ∧ decodeErg (rType 0 0 2 0 1 0x0B) = none ∧ decodeErg (rType 2 3 2 0 1 0x0B) = none ∧
    decodeErg (rType 0 3 2 1 1 0x0B) = none ∧ decodeErg (rType 6 3 2 0 1 0x0B) = none ∧ decodeErg (rType 0 3 2 4 1 0x0B) = none := by decide
/-- RV32IM: ADDI x7, x5, -1; SUB x5, x5, x6; LUI x10, 0x12345; SW x6, 8(x5); BEQ x1, x2, -4; JAL x1, 2048; MULHSU x7, x5, x6. -/
theorem test_wide_words : decodeErg 0xFFF28393 = some (.integerOp .add 7 5 (.imm 0xFFF)) ∧ decodeErg 0x406282B3 = some (.integerOp .sub 5 5 (.reg 6)) ∧
    decodeErg 0x12345537 = some (.lui 10 0x12345) ∧ decodeErg 0x0062A423 = some (.store .w 5 6 8) ∧ decodeErg 0xFE208EE3 = some (.branch .eq 1 2 0x1FFC) ∧
    decodeErg 0x001000EF = some (.jal 1 2048) ∧ decodeErg 0x0262A3B3 = some (.mul .mulhsu 7 5 6) := by decide
/-- RV32C: C.LI x10, -1; C.MV x10, x11; C.EBREAK. -/
theorem test_short_words : decodeErg 0x557D = some (.integerOp .add 10 0 (.imm 0xFFF)) ∧ decodeErg 0x852E = some (.integerOp .add 10 0 (.reg 11)) ∧
    decodeErg 0x9002 = some .ebreak := by decide

/-! ### Single steps whose results the spec, or the RV32IM it names (R36), states -/

/-- The next state. -/
def after (a : Answer) : State := match a with | .next t => t | _ => State.reset

/-- T1's register `r` after an instruction on some registers. -/
def gets (regs : FMap Word) (c : Instr) (r : Nat) : Word := ((after (exec c (worker regs))).thr 0 1).reg r

/-- RV32I: addition wraps; subtraction takes rs2 from rs1. -/
theorem test_add_sub : gets [(5, 0xFFFFFFFF)] (.integerOp (iss 1) .add 7 5 (.imm 2)) 7 = 1 ∧ gets [(5, 3), (6, 5)] (.integerOp (iss 1) .sub 5 5 (.reg 6)) 5 = 0xFFFFFFFE := by decide
/-- RV32I: SRA fills with the sign, SLTU compares without, an immediate is sign-extended, a register shift takes rs2 modulo 32. -/
theorem test_shift_compare : gets [(5, 0x80000000)] (.integerOp (iss 1) .sra 7 5 (.imm 31)) 7 = 0xFFFFFFFF ∧ gets [(5, 1)] (.integerOp (iss 1) .sltu 7 5 (.imm 0xFFF)) 7 = 1 ∧
    gets [(5, 1), (6, 33)] (.integerOp (iss 1) .sll 7 5 (.reg 6)) 7 = 2 := by decide
/-- RV32I: x0 discards what is written to it; an instruction of 4 bytes moves the pc on by 4. -/
theorem test_x0_and_pc : gets [(5, 1)] (.integerOp (iss 1) .add 0 5 (.imm 1)) 0 = 0 ∧ ((after (exec (.integerOp (iss 1) .add 0 5 (.imm 1)) (worker [(5, 1)]))).thr 0 1).pc = 0x44 := by decide
/-- RV32M: the quotient by 0 is all ones and the remainder the dividend; the one signed overflow. -/
theorem test_division : gets [(5, 7)] (.div (iss 1) .div 7 5 0) 7 = 0xFFFFFFFF ∧ gets [(5, 7)] (.div (iss 1) .rem 7 5 0) 7 = 7 ∧
    gets [(5, 0x80000000), (6, 0xFFFFFFFF)] (.div (iss 1) .div 7 5 6) 7 = 0x80000000 := by decide
/-- RV32M: the high halves of 0xFFFFFFFF times itself, as signed, unsigned, and signed by unsigned. -/
theorem test_high_products : gets [(5, 0xFFFFFFFF)] (.mul (iss 1) .mulh 7 5 5) 7 = 0 ∧ gets [(5, 0xFFFFFFFF)] (.mul (iss 1) .mulhu 7 5 5) 7 = 0xFFFFFFFE ∧
    gets [(5, 0xFFFFFFFF)] (.mul (iss 1) .mulhsu 7 5 5) 7 = 0xFFFFFFFF := by decide
/-- RV32I: JALR reads its base before it writes the link register, and clears bit 0 of the target; a branch goes back by a negative offset. -/
theorem test_jumps : gets [(1, 0x101)] (.jalr (iss 1) 1 1 0) 1 = 0x44 ∧ ((after (exec (.jalr (iss 1) 1 1 0) (worker [(1, 0x101)]))).thr 0 1).pc = 0x100 ∧
    ((after (exec (.branch (iss 1) .eq 0 0 0x1FF0) (worker []))).thr 0 1).pc = 0x30 := by decide
/-- R42: a store puts the least significant byte at the lowest address of the data store. -/
theorem test_store_bytes : (let e := (after (exec (.store (iss 1) .w 5 6 0 false) (worker [(5, 0x10000), (6, 0x11223344)]))).eng 0
    (List.range 4).map (fun i => Mem.rd e.store (0x10000 + i)) = [0x44, 0x33, 0x22, 0x11]) := by decide
/-- RV32I: LB extends the sign, LBU does not. -/
theorem test_load_signs : (let s := withEng (worker [(5, 0x10000)]) (fun e => { e with store := [(0x10000, 0x80)] })
    ((after (exec (.load (iss 1) .b 7 5 0 false) s)).thr 0 1).reg 7 = 0xFFFFFF80 ∧ ((after (exec (.load (iss 1) .bu 7 5 0 false) s)).thr 0 1).reg 7 = 0x80) := by decide
/-- R38, R62: a misaligned load faults its worker, whose context is freed with ABORTED. -/
theorem test_misaligned_load : (let s := after (exec (.load (iss 1) .w 7 5 0 false) (worker [(5, 0x10002)]))
    (s.thr 0 1).st = .free ∧ (s.thr 0 1).kept = 1) := by decide
/-- R479: IDCODE reads 0x15A109E7. -/
theorem test_idcode : tapData (after (exec .idcode State.reset)).power = 0x15A109E7 := by decide
/-- A step takes the command in front and leaves the rest of the queue. -/
theorem test_step_takes_front : ∃ t, step { State.reset with pending := [.idcode, .bypass] } = .next t ∧ t.pending = [.bypass] ∧ t.power.tapIr = 1 := ⟨_, rfl, rfl, rfl⟩

end Sys2Proof.Tests
end

section
/-!
SUPPORT. Sending and receiving (R50, R70 to R78): what each operation on channels does, said once, and the theorem that settles O7.
-/

namespace Sys2Proof.Machine

open Sys2Proof

/-! ### Channel addresses (R70) -/

/-- The channel of an address. -/
theorem bits_channel (a : Nat) : bits a 0 2 = a % 4 := congrArg (· % 4) (Nat.div_one a)

/-- The context of an address. -/
theorem bits_thread (a : Nat) : bits a 2 3 = a / 4 % 8 := rfl

/-- The logical engine of an address. -/
theorem bits_engine (a : Nat) : bits a 5 10 = a / 32 % 1024 := rfl

/-- The addresses that name no channel. -/
theorem badChannel_iff (a : Word) : badChannel a = true ↔ 32768 ≤ a.toNat ∨ a.toNat / 4 % 8 = 0 := by
  rw [badChannel, bits_thread, Bool.or_eq_true, decide_eq_true_eq, decide_eq_true_eq]

/-! ### Lists of messages -/

/-- Stale discard (R76) leaves the messages that are fresh and counts the others. -/
theorem dropStale_eq (now : Nat) (ms : List RxMsg) :
    dropStale now ms = (Claims.fresh now ms, ms.length - (Claims.fresh now ms).length) := by
  induction ms with
  | nil => rfl
  | cons m ms ih =>
    have hle : (Claims.fresh now ms).length ≤ ms.length := List.length_dropWhile_le _ _
    by_cases h : m.msg.stamp < now
    · have hf : Claims.fresh now (m :: ms) = Claims.fresh now ms := by simp [Claims.fresh, h]
      rw [dropStale, if_pos h, ih, hf, List.length_cons]
      dsimp only
      congr 1
      omega
    · have hf : Claims.fresh now (m :: ms) = m :: ms := by simp [Claims.fresh, h]
      rw [dropStale, if_neg h, hf, Nat.sub_self]

/-- The first word of a channel's current message is what a receive takes (R75). -/
theorem takeWord_of_reads {ms left : List RxMsg} {w : Word} (h : Claims.Reads ms w left) : takeWord ms = some (w, left) := by
  obtain ⟨m, rest, rfl, hw, rfl⟩ := h
  rw [takeWord, hw]

/-! ### Contexts -/

/-- The open message once word `w` has joined it (R72): a context without one opens it with the address and the item's tick. -/
def Thread.joined (x : Thread) (tick : Nat) (a w : Word) : Msg :=
  match x.openMsg with
  | some o => { o with words := o.words ++ [w] }
  | none => { dst := a, stamp := tick, words := [w] }

/-- CHSENDL or the sixteenth word commits the message. -/
theorem pushWord_commits (x : Thread) (tick : Nat) (a w : Word) (last : Bool) (h : last = true ∨ 16 ≤ (x.joined tick a w).words.length) :
    x.pushWord tick a w last = { x with openMsg := none, sendq := x.sendq ++ [x.joined tick a w] } :=
  if_pos (show (last || decide (16 ≤ (x.joined tick a w).words.length)) = true by simpa using h)

/-- The message stays open after any other word. -/
theorem pushWord_staysOpen (x : Thread) (tick : Nat) (a w : Word) (last : Bool) (h : ¬ (last = true ∨ 16 ≤ (x.joined tick a w).words.length)) :
    x.pushWord tick a w last = { x with openMsg := some (x.joined tick a w) } :=
  if_neg (show ¬ (last || decide (16 ≤ (x.joined tick a w).words.length)) = true by simpa using h)

/-- Pushing a word is the send that R72 describes. -/
theorem pushWord_sends (x : Thread) (tick : Nat) (a w : Word) (last : Bool) : Claims.Sends x (x.pushWord tick a w last) tick a w last := by
  refine ⟨x.joined tick a w, ?_, ?_, ?_, fun h => pushWord_commits x tick a w last h,
    fun hl hw => pushWord_staysOpen x tick a w last (by simp [hl, hw])⟩
  all_goals unfold Thread.joined; cases x.openMsg <;> rfl

/-- Pushing a word and retiring, in either order. -/
theorem done_pushWord (x : Thread) (i : Issue) (c lat tick : Nat) (a w : Word) (last : Bool) :
    (x.done i c lat).pushWord tick a w last = ({ (x.charge c).pushWord tick a w last with
      instret := x.instret + 1, pc := x.pc + (if i.compressed then 2 else 4), ready := c + lat } : Thread) := by
  by_cases h : last = true ∨ 16 ≤ (x.joined tick a w).words.length
  · rw [pushWord_commits (x.done i c lat) tick a w last h, pushWord_commits (x.charge c) tick a w last h]
    rfl
  · rw [pushWord_staysOpen (x.done i c lat) tick a w last h, pushWord_staysOpen (x.charge c) tick a w last h]
    rfl

/-- Stale discard on a worker's channel right after its issue cycle (R76). -/
theorem staleDiscard_take {s : State} {pe k : Nat} {it : Item} (c lend ch : Nat) (hit : (s.eng pe).itemOf k = some it) :
    (s.takeCycle pe k c lend).staleDiscard pe k ch = (s.takeCycle pe k c lend).setEng pe
      ((((s.takeCycle pe k c lend).eng pe).setThr k { (s.thr pe k).charge c with
          rx := FMap.set [] (s.thr pe k).rx ch (Claims.fresh it.tick ((s.thr pe k).chan ch)) }).addStale
        (((s.thr pe k).chan ch).length - (Claims.fresh it.tick ((s.thr pe k).chan ch)).length)) := by
  have hth : ((s.takeCycle pe k c lend).eng pe).thr k = (s.thr pe k).charge c := thr_takeCycle s pe k c lend
  have hch : ((s.thr pe k).charge c).chan ch = (s.thr pe k).chan ch := rfl
  unfold State.staleDiscard
  dsimp only
  rw [itemOf_take, hit]
  dsimp only
  rw [hth, hch, dropStale_eq]
  rfl

/-! ### Instructions, at their issue cycle -/

/-- CHSENDL and CHSEND are one operation. -/
theorem exec_send (s : State) (i : Issue) (rs1 rs2 : Fin 32) (last : Bool) :
    exec (if last = true then Instr.chsendl i rs1 rs2 else Instr.chsend i rs1 rs2) s = .next (s.sendOp i rs1 rs2 last) := by
  cases last <;> rfl

section
variable {s : State} {i : Issue} {c lend : Nat} {it : Item}

/-- What a send does: T0 may not send, the address names a channel, the buffer has room (R50, R70, R72, R78). -/
theorem sendOp_eq (hi : s.Issues i c lend) (hit : (s.eng i.eng.val).itemOf i.thr.val = some it) (rs1 rs2 : Fin 32) (last : Bool) :
    s.sendOp i rs1 rs2 last =
      let s1 := s.takeCycle i.eng.val i.thr.val c lend
      let x := s.running i
      if i.thr.val = 0 then s1.fault i.eng.val i.thr.val 1 (rType custom0 1 (b2n last) 0 rs1.val rs2.val)
      else if x.openMsg.isNone && badChannel (x.reg rs1.val) then s1.faultFree i.eng.val i.thr.val 5
      else if 32 ≤ x.sendWords then
        (s1.modThr i.eng.val i.thr.val (fun t => { t with st := .send, blk := .send (x.reg rs1.val) (x.reg rs2.val) last })).moved i.eng.val i.thr.val
      else s1.retire i c 1 (s1.nextPc i) (fun t => t.pushWord it.tick (x.reg rs1.val) (x.reg rs2.val) last) := by
  unfold State.sendOp
  rw [issue_eq hi]
  dsimp only
  rw [itemOf_take, hit, thr_takeCycle]
  rfl

/-- A send that finds room leaves its context alone changed, with the word pushed. -/
theorem send_only (s : State) (i : Issue) (c lend tick : Nat) (a w : Word) (last : Bool) :
    s.OnlyContext ((s.takeCycle i.eng.val i.thr.val c lend).retire i c 1 ((s.takeCycle i.eng.val i.thr.val c lend).nextPc i)
      (fun t => t.pushWord tick a w last)) i.eng.val i.thr.val (((s.running i).done i c 1).pushWord tick a w last) := by
  rw [done_pushWord, nextPc_take]
  exact retire_only s i c lend 1 _ _

/-- What a receive does (R50, R75, R78). -/
theorem execChrecv_eq (hi : s.Issues i c lend) (rd rs1 : Fin 32) :
    exec (.chrecv i rd rs1) s = .next (
      let s1 := s.takeCycle i.eng.val i.thr.val c lend
      let ch := ((s.running i).reg rs1.val).toNat % 4
      if i.thr.val = 0 ∧ ch ≠ 3 then s1.faultFree i.eng.val i.thr.val 5
      else
        let s2 := s1.staleFirst i.eng.val i.thr.val ch
        match takeWord (s2.chanOf i.eng.val i.thr.val ch) with
        | some (w, ms) => (s2.setChan i.eng.val i.thr.val ch ms).writeBack i c 2 rd.val w
        | none => (s2.modThr i.eng.val i.thr.val (fun t => { t with st := .recv, blk := .recv ch rd.val })).moved i.eng.val i.thr.val) := by
  show (Host.Outcome.next (s.issue i _) : Answer) = _
  rw [issue_eq hi]
  dsimp only
  rw [thr_takeCycle, bits_channel]
  rfl

/-- What a poll does (R50, R75, R78). -/
theorem execChpoll_eq (hi : s.Issues i c lend) (rd rs1 : Fin 32) :
    exec (.chpoll i rd rs1) s = .next (
      let s1 := s.takeCycle i.eng.val i.thr.val c lend
      let ch := ((s.running i).reg rs1.val).toNat % 4
      if i.thr.val = 0 ∧ ch ≠ 3 then s1.faultFree i.eng.val i.thr.val 5
      else
        let s2 := s1.staleFirst i.eng.val i.thr.val ch
        s2.writeBack i c 2 rd.val (BitVec.ofNat 32 (pollWords (s2.chanOf i.eng.val i.thr.val ch)))) := by
  show (Host.Outcome.next (s.issue i _) : Answer) = _
  rw [issue_eq hi]
  dsimp only
  rw [thr_takeCycle, bits_channel]
  rfl

/-- A groom's send is illegal, whatever it holds (R78). -/
theorem send_groom (hi : s.Issues i c lend) (hit : (s.eng i.eng.val).itemOf i.thr.val = some it) (rs1 rs2 : Fin 32) (last : Bool) (hk : i.thr.val = 0) :
    s.sendOp i rs1 rs2 last =
      (s.takeCycle i.eng.val i.thr.val c lend).fault i.eng.val i.thr.val 1 (rType custom0 1 (b2n last) 0 rs1.val rs2.val) := by
  rw [sendOp_eq hi hit]
  exact if_pos hk

/-- A first word towards an address that names no channel raises CHANNEL (R70). -/
theorem send_badChannel (hi : s.Issues i c lend) (hit : (s.eng i.eng.val).itemOf i.thr.val = some it) (rs1 rs2 : Fin 32) (last : Bool) (hk : i.thr.val ≠ 0)
    (ho : (s.running i).openMsg = none) (ha : badChannel ((s.running i).reg rs1.val) = true) :
    s.sendOp i rs1 rs2 last = (s.takeCycle i.eng.val i.thr.val c lend).faultFree i.eng.val i.thr.val 5 := by
  rw [sendOp_eq hi hit]
  exact (if_neg hk).trans (if_pos (by rw [ho, ha]; rfl))

/-- A worker's word towards a channel blocks its thread when the send buffer is full, and joins the open message otherwise (R50, R72). -/
theorem send_worker (hi : s.Issues i c lend) (hit : (s.eng i.eng.val).itemOf i.thr.val = some it) (rs1 rs2 : Fin 32) (last : Bool) (hk : i.thr.val ≠ 0)
    (ha : (s.running i).openMsg ≠ none ∨ badChannel ((s.running i).reg rs1.val) = false) :
    s.sendOp i rs1 rs2 last =
      let s1 := s.takeCycle i.eng.val i.thr.val c lend
      let x := s.running i
      if 32 ≤ x.sendWords then
        (s1.modThr i.eng.val i.thr.val (fun t => { t with st := .send, blk := .send (x.reg rs1.val) (x.reg rs2.val) last })).moved i.eng.val i.thr.val
      else s1.retire i c 1 (s1.nextPc i) (fun t => t.pushWord it.tick (x.reg rs1.val) (x.reg rs2.val) last) := by
  rw [sendOp_eq hi hit]
  refine (if_neg hk).trans (if_neg ?_)
  rw [Bool.and_eq_true, Option.isNone_iff_eq_none]
  rintro ⟨h1, h2⟩
  rcases ha with ha | ha
  · exact ha h1
  · rw [ha] at h2; cases h2

/-- The channels that T0 lacks (R78). -/
theorem receive_groom_faults (hi : s.Issues i c lend) (rd rs1 : Fin 32) (hk : i.thr.val = 0) (hch : ((s.running i).reg rs1.val).toNat % 4 ≠ 3) :
    exec (.chrecv i rd rs1) s = .next ((s.takeCycle i.eng.val i.thr.val c lend).faultFree i.eng.val i.thr.val 5) ∧
      exec (.chpoll i rd rs1) s = .next ((s.takeCycle i.eng.val i.thr.val c lend).faultFree i.eng.val i.thr.val 5) := by
  rw [execChrecv_eq hi, execChpoll_eq hi]
  exact ⟨congrArg _ (if_pos ⟨hk, hch⟩), congrArg _ (if_pos ⟨hk, hch⟩)⟩

/-- T0 takes the next word of its fault channel (R78). -/
theorem chrecv_groom (hi : s.Issues i c lend) (rd rs1 : Fin 32) (hk : i.thr.val = 0) (hch : ((s.running i).reg rs1.val).toNat % 4 = 3)
    {w : Word} {left : List RxMsg} (hr : Claims.Reads (s.eng i.eng.val).faultCh w left) :
    let s1 := s.takeCycle i.eng.val i.thr.val c lend
    exec (.chrecv i rd rs1) s = .next ((s1.setEng i.eng.val { s1.eng i.eng.val with faultCh := left }).writeBack i c 2 rd.val w) := by
  have hf : ((s.takeCycle i.eng.val i.thr.val c lend).eng i.eng.val).faultCh = (s.eng i.eng.val).faultCh := by rw [eng_takeCycle]; rfl
  rw [execChrecv_eq hi]
  dsimp only
  rw [if_neg (fun h => h.2 hch), State.staleFirst, if_pos hk, State.chanOf, if_pos hk, hf, takeWord_of_reads hr]
  dsimp only
  rw [State.setChan, if_pos hk]

/-- A worker's receive takes the next word that stale discard has left (R75, R76). -/
theorem chrecv_takes (hi : s.Issues i c lend) (rd rs1 : Fin 32) (hk : i.thr.val ≠ 0) {ch : Nat} (hch : ((s.running i).reg rs1.val).toNat % 4 = ch)
    {s2 : State} (hs2 : (s.takeCycle i.eng.val i.thr.val c lend).staleDiscard i.eng.val i.thr.val ch = s2)
    {w : Word} {left : List RxMsg} (hr : Claims.Reads (s2.chanOf i.eng.val i.thr.val ch) w left) :
    exec (.chrecv i rd rs1) s = .next ((s2.setChan i.eng.val i.thr.val ch left).writeBack i c 2 rd.val w) := by
  rw [execChrecv_eq hi]
  dsimp only
  rw [if_neg (fun h => hk h.1), hch, State.staleFirst, if_neg hk, hs2, takeWord_of_reads hr]

/-- It blocks when stale discard has left no word (R50, R76). -/
theorem chrecv_blocks (hi : s.Issues i c lend) (rd rs1 : Fin 32) (hk : i.thr.val ≠ 0) {ch : Nat} (hch : ((s.running i).reg rs1.val).toNat % 4 = ch)
    {s2 : State} (hs2 : (s.takeCycle i.eng.val i.thr.val c lend).staleDiscard i.eng.val i.thr.val ch = s2)
    (hr : s2.chanOf i.eng.val i.thr.val ch = []) :
    exec (.chrecv i rd rs1) s =
      .next ((s2.modThr i.eng.val i.thr.val (fun t => { t with st := .recv, blk := .recv ch rd.val })).moved i.eng.val i.thr.val) := by
  rw [execChrecv_eq hi]
  dsimp only
  rw [if_neg (fun h => hk h.1), hch, State.staleFirst, if_neg hk, hs2, hr]
  rfl

/-- A worker's poll counts the words that stale discard has left (R75, R76). -/
theorem chpoll_worker (hi : s.Issues i c lend) (rd rs1 : Fin 32) (hk : i.thr.val ≠ 0) {ch : Nat} (hch : ((s.running i).reg rs1.val).toNat % 4 = ch)
    {s2 : State} (hs2 : (s.takeCycle i.eng.val i.thr.val c lend).staleDiscard i.eng.val i.thr.val ch = s2) :
    exec (.chpoll i rd rs1) s = .next (s2.writeBack i c 2 rd.val (BitVec.ofNat 32 (pollWords (s2.chanOf i.eng.val i.thr.val ch)))) := by
  rw [execChpoll_eq hi]
  dsimp only
  rw [if_neg (fun h => hk h.1), hch, State.staleFirst, if_neg hk, hs2]

end

/-! ### Unblocking and delivery -/

section
variable {s : State} {eng : Fin 1088} {thr : Fin 8}

/-- A blocked send whose buffer has room again pushes its word (R50). -/
theorem chsendUnblock_pushes {a w : Word} {last : Bool} {it : Item} (hst : (s.thr eng.val thr.val).st = .send)
    (hb : (s.thr eng.val thr.val).blk = .send a w last) (hit : (s.eng eng.val).itemOf thr.val = some it) (hr : (s.thr eng.val thr.val).sendWords < 32) :
    exec (.chsendUnblock eng thr) s = .next (s.unblock eng.val thr.val 1 (fun t => t.pushWord it.tick a w last)) := by
  show (Host.Outcome.next _ : Answer) = _
  dsimp only
  rw [hst, hb, hit]
  dsimp only
  rw [if_pos hr]

/-- A blocked receive that finds a word, once stale messages have gone, takes it (R50). -/
theorem chrecvUnblock_takes {ch rd : Nat} {w : Word} {left : List RxMsg} (hst : (s.thr eng.val thr.val).st = .recv)
    (hb : (s.thr eng.val thr.val).blk = .recv ch rd)
    (hr : Claims.Reads ((s.staleFirst eng.val thr.val ch).chanOf eng.val thr.val ch) w left) :
    exec (.chrecvUnblock eng thr) s =
      .next (((s.staleFirst eng.val thr.val ch).setChan eng.val thr.val ch left).unblock eng.val thr.val 2 (fun t => t.setReg rd w)) := by
  show (Host.Outcome.next _ : Answer) = _
  dsimp only
  rw [hst, hb]
  dsimp only
  rw [takeWord_of_reads hr]

/-- One whose channel brought only stale messages is READY again at its CHRECV (R60, log 61). -/
theorem chrecvUnblock_staleOnly {ch rd : Nat} (hst : (s.thr eng.val thr.val).st = .recv) (hb : (s.thr eng.val thr.val).blk = .recv ch rd)
    (hc : s.chanOf eng.val thr.val ch ≠ []) (hr : (s.staleFirst eng.val thr.val ch).chanOf eng.val thr.val ch = []) :
    exec (.chrecvUnblock eng thr) s = .next (((s.staleFirst eng.val thr.val ch).modThr eng.val thr.val (fun t => { t with
      st := .run, blk := .none, mw := false, dismissed := false, ready := ((s.staleFirst eng.val thr.val ch).eng eng.val).cyc })).moved eng.val thr.val) := by
  show (Host.Outcome.next _ : Answer) = _
  dsimp only
  rw [hst, hb]
  dsimp only
  rw [hr]
  dsimp only [takeWord]
  rw [if_neg (by rwa [List.isEmpty_iff])]

/-- The head message of a send buffer, when its channel has credit for it: it moves there, or, with a bad address or stamp, to sxstale (R73, R365). -/
theorem messageDelivery_eq {m : Msg} {rest : List Msg} {dpe : Nat} (bad : Bool) (hq : (s.thr eng.val thr.val).sendq = m :: rest)
    (hd : s.peng (m.dst.toNat / 32 % 1024) = some dpe)
    (hc : m.words.length ≤ (s.thr dpe (m.dst.toNat / 4 % 8)).credit (m.dst.toNat % 4)) :
    let s1 := s.modThr eng.val thr.val (fun t => { t with sendq := rest })
    exec (.messageDelivery eng thr bad) s = .next (if bad then (s1.setEng dpe ((s1.eng dpe).addStale 1)).sramFailed
      else s1.modThr dpe (m.dst.toNat / 4 % 8) (fun t => { t with
        rx := FMap.set [] t.rx (m.dst.toNat % 4) (t.chan (m.dst.toNat % 4) ++ [{ msg := m, read := 0 }]) })) := by
  show (Host.Outcome.next _ : Answer) = _
  dsimp only
  rw [hq]
  dsimp only
  rw [bits_engine, bits_thread, bits_channel, hd]
  dsimp only
  rw [if_pos hc]

end

/-! ### O7 -/

/-- Settles O7: sends, receives and polls by what each does at its issue cycle; then the unblocking events and the delivery of a message. -/
theorem channelInstructionsMoveWords : Obligations.ChannelInstructionsMoveWords := by
  unfold Obligations.ChannelInstructionsMoveWords
  refine ⟨fun s i c lend hi it rd rs1 rs2 last => ?_, fun s eng thr => ?_⟩
  · intro pe k s1 x a ch send kept gone hit
    have hs : exec send s = .next (s.sendOp i rs1 rs2 last) := exec_send s i rs1 rs2 last
    refine ⟨fun hk => ?groomSends, fun hk ho ha => ?badAddress, fun hk ha => ?workerSends, receive_groom_faults hi rd rs1,
      fun hk hch w left hr => chrecv_groom hi rd rs1 hk hch hr, fun hk => ?workerReceives⟩
    case groomSends =>
      rw [hs, send_groom hi hit rs1 rs2 last hk]
      rfl
    case badAddress => rw [hs, send_badChannel hi hit rs1 rs2 last hk ho ((badChannel_iff a).mpr ha)]
    case workerSends =>
      have ha' : x.openMsg ≠ none ∨ badChannel a = false :=
        ha.imp_right (fun h => Bool.eq_false_iff.mpr (fun hb => by have := (badChannel_iff a).mp hb; omega))
      rw [hs, send_worker hi hit rs1 rs2 last hk ha']
      refine ⟨fun hroom => ?_, fun hfull => congrArg _ (if_pos hfull)⟩
      exact ⟨_, _, congrArg _ (if_neg (Nat.not_le.mpr hroom)), pushWord_sends _ _ _ _ _, send_only s i c lend it.tick a (x.reg rs2.val) last⟩
    case workerReceives =>
      intro s2
      have hs2 : s1.staleDiscard pe k ch = s2 := staleDiscard_take c lend ch hit
      refine ⟨fun w left hr => chrecv_takes hi rd rs1 hk rfl hs2 hr, fun hr => chrecv_blocks hi rd rs1 hk rfl hs2 hr, ?_⟩
      rw [chpoll_worker hi rd rs1 hk rfl hs2]
      rfl
  · intro pe k
    refine ⟨fun a w last it hst hb hit hr => chsendUnblock_pushes hst hb hit hr, fun rd w left hk hst hb hr => ?groomTakes,
      fun ch rd w left hk hst hb hr => ?workerTakes, fun ch rd hk hst hb hc hr => ?staleOnly, fun m rest dpe hq hd hc => ?delivers⟩
    case groomTakes =>
      have h0 : s.staleFirst pe k 3 = s := if_pos hk
      have hc : s.chanOf pe k 3 = (s.eng pe).faultCh := if_pos hk
      have hset : s.setChan pe k 3 left = s.setEng pe { s.eng pe with faultCh := left } := if_pos hk
      rw [chrecvUnblock_takes hst hb (by rw [h0, hc]; exact hr), h0, hset]
    case workerTakes =>
      have h0 : s.staleFirst pe k ch = s.staleDiscard pe k ch := if_neg hk
      rw [← h0] at hr ⊢
      exact chrecvUnblock_takes hst hb hr
    case staleOnly =>
      have h0 : s.staleFirst pe k ch = s.staleDiscard pe k ch := if_neg hk
      rw [← h0] at hr ⊢
      exact chrecvUnblock_staleOnly hst hb hc hr
    case delivers => exact ⟨messageDelivery_eq false hq hd hc, messageDelivery_eq true hq hd hc⟩

end Sys2Proof.Machine
end

section
/-!
SUPPORT. Engine commands of the monitor (R88, R488 to R492): how a command is let through to the engine, what each then does, said once, and the
theorem that settles O49.
-/

namespace Sys2Proof.Machine

open Sys2Proof

/-! ### How a command is let through (R485 to R490) -/

section
variable {s u : State} {m : MonPath} {kind : MonKind}

/-- A monitor that reads a path is fed, has no load in progress, and on the TAP has CRIEK selected. -/
theorem monReads_open (h : Claims.MonReads s m) :
    ¬ (!s.power.pwrGood || s.monitor.load.isSome || (decide (m = .tap) && !(s.monitor.tapCriek && decide (s.nv.lifecycle ≤ 1)))) = true := by
  obtain ⟨hp, hl, ht⟩ := h
  rw [hp, hl]
  cases m with
  | serial => exact Bool.false_ne_true
  | tap =>
    obtain ⟨hc, hn⟩ := ht rfl
    simp [hc, hn]

/-- The present server knows the commands that Criek alone serves where it is Criek. -/
theorem monServes_of (h : kind = .look ∨ kind = .engine → s.monitor.criek = true) : s.monServes kind = true := by
  cases kind with
  | look => exact h (.inl rfl)
  | engine => exact h (.inr rfl)
  | basic | fuse | advance | rom => rfl

/-- The model's table of R488 is the claim's. -/
theorem monPermits_of (h : Claims.MonPermits s.nv.lifecycle kind) : s.monPermits kind = true := by
  obtain ⟨hlook, hengine, hfuse, hadvance, hrom⟩ := h
  cases kind with
  | basic => rfl
  | look => exact decide_eq_true (hlook rfl)
  | engine => exact decide_eq_true (hengine rfl)
  | fuse => exact decide_eq_true (hfuse rfl)
  | advance => exact decide_eq_true (hadvance rfl)
  | rom => exact decide_eq_true (hrom rfl)

/-- A command that runs does its work on the state with its path's session open. -/
theorem monCmd_runs (h : Claims.MonRuns s m kind u) (run : State → State) : s.monCmd m kind run = run u := by
  obtain ⟨hreads, hsession, hcriek, hpermits, hu⟩ := h
  have hother : ¬ (match s.monitor.session with | some p => decide (p ≠ m) | none => false) = true := by
    rcases hsession with hs | hs <;> simp [hs]
  have hserves : u.monServes kind = true := monServes_of (by rw [hu]; exact hcriek)
  have hallowed : u.monPermits kind = true := monPermits_of (by rw [hu]; exact hpermits)
  subst hu
  exact (if_neg (monReads_open hreads)).trans ((if_neg hother).trans ((if_neg (Bool.not_not_eq.mpr hserves)).trans (if_neg (Bool.not_not_eq.mpr hallowed))))

end

section
variable {s u : State} {m : MonPath} {pe k : Nat}

/-- A resting or retired yard ends ERR 0x10. -/
theorem monEngine_resting (h : Claims.MonRuns s m .engine u) (ha : u.engActive pe = false) (run : State → State) :
    s.monEngine m pe run = u.errLine 0x10 :=
  (monCmd_runs h _).trans (if_pos (by rw [ha]; rfl))

/-- In FIELD a yard with no unlock ends ERR 0x0F. -/
theorem monEngine_locked (h : Claims.MonRuns s m .engine u) (ha : u.engActive pe = true) (hd : u.debugAllowed (pe / 32) = false)
    (run : State → State) : s.monEngine m pe run = u.errLine 0x0F :=
  (monCmd_runs h _).trans ((if_neg (Bool.not_not_eq.mpr ha)).trans (if_pos (by rw [hd]; rfl)))

/-- The command reaches the engine of a yard in service that may be debugged. -/
theorem monEngine_runs (h : Claims.MonRuns s m .engine u) (ha : u.engActive pe = true) (hd : u.debugAllowed (pe / 32) = true)
    (run : State → State) : s.monEngine m pe run = run u :=
  (monCmd_runs h _).trans ((if_neg (Bool.not_not_eq.mpr ha)).trans (if_neg (Bool.not_not_eq.mpr hd)))

/-- A command on a held thread reaches it. -/
theorem monHeld_runs (h : Claims.MonRuns s m .engine u) (ha : u.engActive pe = true) (hd : u.debugAllowed (pe / 32) = true)
    (hh : (u.thr pe k).held = true) (run : State → State) : s.monHeld m pe k run = run u :=
  (monEngine_runs h ha hd _).trans (if_pos hh)

/-- A thread that is not HELD ends ERR 0x11 (R491). -/
theorem monHeld_notHeld (h : Claims.MonRuns s m .engine u) (ha : u.engActive pe = true) (hd : u.debugAllowed (pe / 32) = true)
    (hh : (u.thr pe k).held = false) (run : State → State) : s.monHeld m pe k run = u.errLine 0x11 :=
  (monEngine_runs h ha hd _).trans (if_neg (by rw [hh]; decide))

end

/-! ### What the monitor shows of a thread and of memory -/

/-- The tick that an answer shows: that of the thread's item, or `d` where it has none (log 56). -/
def shownTick (item : Option Item) (d : Nat) : Nat :=
  match item with
  | some it => it.tick
  | none => d

/-- The arrival that REGS shows as sxarr (R39): the one selected, or all ones. -/
def shownArrival (sel : Option Nat) : Nat :=
  match sel with
  | some i => i
  | none => 0xFFFFFFFF

/-- The words that RDMEM asks for, each where it reads. -/
def State.monRange (s : State) (pe addr count : Nat) : List (Option Nat) :=
  (List.range count).map (fun i => s.monWord pe (addr + 4 * i))

/-- A range with a word that does not read is not read whole. -/
theorem monRange_unreadable {s : State} {pe addr count i : Nat} (hi : i < count) (hw : s.monWord pe (addr + 4 * i) = none) :
    ¬ (s.monRange pe addr count).all Option.isSome = true := by
  intro hall
  have hmem : none ∈ s.monRange pe addr count := List.mem_map.mpr ⟨i, List.mem_range.mpr hi, hw⟩
  exact absurd (List.all_eq_true.mp hall none hmem) (by decide)

/-- A range whose every word reads gives those words. -/
theorem monRange_words {s : State} {pe addr : Nat} {ws : List Nat}
    (hw : ∀ i, i < ws.length → s.monWord pe (addr + 4 * i) = some (ws.getD i 0)) : s.monRange pe addr ws.length = ws.map some := by
  refine List.ext_getElem (by simp [State.monRange]) (fun i hi _ => ?_)
  have hlt : i < ws.length := by simpa [State.monRange] using hi
  simp [State.monRange, hw i hlt, hlt]

/-! ### What each engine command does (R490, R491) -/

section
variable {s u : State} {m : MonPath} {e : Fin 1088} {k : Fin 8}

/-- Every engine command is judged by its engine's yard first. -/
theorem engineCommand_monEngine (s : State) (m : MonPath) (e : Fin 1088) (k : Fin 8) (on : Bool) (reg : Fin 33) (v : Word) (a n : Nat) :
    ∀ x ∈ [Instr.dbg m e on, .hold m e k, .resume m e k, .step m e k, .kill m e k, .regs m e k, .setreg m e k reg v, .rdmem m e a n, .wrmem m e a v],
      ∃ run, exec x s = .next (s.monEngine m e.val run) := by
  simp only [List.forall_mem_cons, List.not_mem_nil, false_implies, implies_true, and_true]
  exact ⟨⟨_, rfl⟩, ⟨_, rfl⟩, ⟨_, rfl⟩, ⟨_, rfl⟩, ⟨_, rfl⟩, ⟨_, rfl⟩, ⟨_, rfl⟩, ⟨_, rfl⟩, ⟨_, rfl⟩⟩

/-- RESUME, STEP, KILL and SETREG are commands on a held thread. -/
theorem heldCommand_monHeld (s : State) (m : MonPath) (e : Fin 1088) (k : Fin 8) (reg : Fin 33) (v : Word) :
    ∀ x ∈ [Instr.resume m e k, .step m e k, .kill m e k, .setreg m e k reg v], ∃ run, exec x s = .next (s.monHeld m e.val k.val run) := by
  simp only [List.forall_mem_cons, List.not_mem_nil, false_implies, implies_true, and_true]
  exact ⟨⟨_, rfl⟩, ⟨_, rfl⟩, ⟨_, rfl⟩, ⟨_, rfl⟩⟩

variable (h : Claims.MonRuns s m .engine u) (ha : u.engActive e.val = true) (hd : u.debugAllowed (e.val / 32) = true)
include h ha hd

/-- HOLD refuses T0 and a FREE thread; any other it holds, unless it is held already, and answers with its pc and tick. -/
theorem hold_answers : exec (.hold m e k) s = .next (if k.val = 0 then u.errLine 0x0F
    else if (u.thr e.val k.val).st = .free then u.errLine 0x11
    else ((if (u.thr e.val k.val).held then u else u.holdThread e.val k.val 0).text "HELD"
      [(u.thr e.val k.val).pc.toNat, shownTick ((u.eng e.val).itemOf k.val) u.time.number]).okLine) :=
  congrArg _ (monEngine_runs h ha hd _)

/-- SETREG writes the pc or one register of a held thread. -/
theorem setreg_held (hh : (u.thr e.val k.val).held = true) (reg : Fin 33) (v : Word) :
    exec (.setreg m e k reg v) s = .next (u.modThr e.val k.val (fun t => if reg.val = 32 then { t with pc := v } else t.setReg reg.val v)).okLine :=
  congrArg _ (monHeld_runs h ha hd hh _)

/-- REGS shows the registers, the pc, sxtick and sxarr. -/
theorem regs_answers : exec (.regs m e k) s = .next ((((u.text "X" ((List.range 31).map (fun i => ((u.thr e.val k.val).reg (i + 1)).toNat))).text "PC"
    [(u.thr e.val k.val).pc.toNat]).text "SXTICK" [shownTick ((u.eng e.val).itemOf k.val) 0]).text "SXARR" [shownArrival (u.thr e.val k.val).sel]).okLine :=
  congrArg _ (monEngine_runs h ha hd _)

/-- RDMEM gives the words of its range, if it is at most 256 words and each of them reads. -/
theorem rdmem_answers (a n : Nat) : exec (.rdmem m e a n) s = .next (if 256 < n then u.errLine 0x0A
    else if (u.monRange e.val a n).all Option.isSome then (u.text "MEM" ((u.monRange e.val a n).map (·.getD 0))).okLine else u.errLine 8) :=
  congrArg _ (monEngine_runs h ha hd _)

/-- RDMEM of a range that reads whole. -/
theorem rdmem_reads {a : Nat} {ws : List Nat} (hn : ws.length ≤ 256)
    (hw : ∀ i, i < ws.length → u.monWord e.val (a + 4 * i) = some (ws.getD i 0)) :
    exec (.rdmem m e a ws.length) s = .next (u.text "MEM" ws).okLine := by
  have hall : (ws.map some).all Option.isSome = true := by simp
  have hvalues : (ws.map some).map (·.getD 0) = ws := by simp
  rw [rdmem_answers h ha hd, if_neg (Nat.not_lt.mpr hn), monRange_words hw, if_pos hall, hvalues]

/-- WRMEM asks for a held engine; what it does there depends on where the address lies. -/
theorem wrmem_answers (a : Nat) (v : Word) : exec (.wrmem m e a v) s = .next (if !(u.eng e.val).holdEng then u.errLine 0x0F
    else match u.locate e.val 0 a 4 with
      | .store b => (u.writePlace e.val 0 (.store b) (leBytes 4 v.toNat)).okLine
      | .shared b => (u.writePlace e.val 0 (.shared b) (leBytes 4 v.toNat)).okLine
      | _ => u.errLine 8) :=
  congrArg _ (monEngine_runs h ha hd _)

/-- WRMEM to any other place of a held engine ends ERR 0x08. -/
theorem wrmem_elsewhere (hh : (u.eng e.val).holdEng = true) {a : Nat} (v : Word)
    (hp : ∀ b, u.locate e.val 0 a 4 ≠ .store b ∧ u.locate e.val 0 a 4 ≠ .shared b) : exec (.wrmem m e a v) s = .next (u.errLine 8) := by
  rw [wrmem_answers h ha hd, if_neg (Bool.not_not_eq.mpr hh)]
  cases hl : u.locate e.val 0 a 4 with
  | store b => exact absurd hl (hp b).1
  | shared b => exact absurd hl (hp b).2
  | hv | buf | dram | bad => rfl

end

/-! ### O49 -/

/-- Settles O49: the judgement of the yard, common to every engine command, then each command on a yard in service that may be debugged. -/
theorem monitorReachesEngines : Obligations.MonitorReachesEngines := by
  unfold Obligations.MonitorReachesEngines
  intro s m u e k h allowed th
  refine ⟨fun on reg v a n x hx => ?refused, fun ⟨ha, hd⟩ => ?reached⟩
  case refused =>
    obtain ⟨run, hrun⟩ := engineCommand_monEngine s m e k on reg v a n x hx
    exact ⟨fun ha => by rw [hrun, monEngine_resting h ha], fun ha hd => by rw [hrun, monEngine_locked h ha hd]⟩
  case reached =>
    refine ⟨fun on => congrArg _ (monEngine_runs h ha hd _), fun hk => ?groom, fun hk hst => ?free, fun hk hst => ?hold,
      fun hh reg v x hx => ?notHeld, fun hh => ?held, ?regs, fun a n => ?rdmem, fun a v => ⟨fun hh => ?unmarked, fun hh => ?wrmem⟩⟩
    case groom => rw [hold_answers h ha hd, if_pos hk]
    case free => rw [hold_answers h ha hd, if_neg hk, if_pos hst]
    case hold =>
      rw [hold_answers h ha hd, if_neg hk, if_neg hst]
      exact ⟨fun it hit => by rw [hit]; rfl, fun hit => by rw [hit]; rfl⟩
    case notHeld =>
      obtain ⟨run, hrun⟩ := heldCommand_monHeld s m e k reg v x hx
      rw [hrun, monHeld_notHeld h ha hd hh]
    case held =>
      have hruns := monHeld_runs (k := k.val) h ha hd hh
      refine ⟨congrArg _ (hruns _), congrArg _ (hruns _), congrArg _ (hruns _), fun reg v => ?_⟩
      rw [setreg_held h ha hd hh]
      exact ⟨fun hr => by simp only [if_pos hr], fun hr => by simp only [if_neg hr]⟩
    case regs =>
      exact ⟨_, _, fun it hit => congrArg (shownTick · 0) hit, fun hit => congrArg (shownTick · 0) hit, fun i hi => congrArg shownArrival hi,
        fun hi => congrArg shownArrival hi, regs_answers h ha hd⟩
    case rdmem =>
      refine ⟨fun hn => ?tooMany, fun hn ⟨i, hi, hw⟩ => ?unreadable, fun hn ws hlen hw => ?read⟩
      case tooMany => rw [rdmem_answers h ha hd, if_pos hn]
      case unreadable => rw [rdmem_answers h ha hd, if_neg (Nat.not_lt.mpr hn), if_neg (monRange_unreadable hi hw)]
      case read =>
        subst hlen
        exact rdmem_reads h ha hd hn hw
    case unmarked => rw [wrmem_answers h ha hd, hh]; rfl
    case wrmem =>
      have hanswer := wrmem_answers h ha hd a v
      rw [if_neg (Bool.not_not_eq.mpr hh)] at hanswer
      exact ⟨fun b hb => by rw [hanswer, hb], fun b hb => by rw [hanswer, hb], wrmem_elsewhere h ha hd hh v⟩

end Sys2Proof.Machine
end

section
/-!
SUPPORT. The queue and what no step undoes: the theorems that settle O50 to O53, O55 and O11, from the laws of Keeps.lean.
-/

namespace Sys2Proof.Machine

open Sys2Proof

set_option Elab.async false

/-- Settles O52: every step keeps the canonical form of both memories and the ranges of the tick's period and gate. -/
theorem stepsKeepTheInvariants : Obligations.StepsKeepTheInvariants := by
  unfold Obligations.StepsKeepTheInvariants
  intro s t h
  have hkeeps := step_keeps h
  exact ⟨fun ⟨hdram, hhost⟩ => ⟨hkeeps.dram hdram, hkeeps.host hhost⟩, hkeeps.time⟩

/-- Settles O53: no step takes back the lifecycle, a revocation or a programmed key. -/
theorem fusesAreNeverRestored : Obligations.FusesAreNeverRestored := by
  unfold Obligations.FusesAreNeverRestored
  intro s t h
  have hkeeps := step_keeps h
  exact ⟨hkeeps.life, hkeeps.revoked, hkeeps.keys⟩

/-- A decoded instruction of an engine answers a next state. -/
theorem runErg_next (i : Issue) (x : ErgOp) (s : State) : ∃ t, runErg i x s = .next t := by
  cases x <;> exact ⟨_, rfl⟩

/-- No arm of `exec` stops: each answers a next state; a word is run as the instruction that it spells, if it spells one. -/
theorem exec_next (c : Instr) (s : State) : ∃ t, exec c s = .next t := by
  cases c with
  | illegalEncoding i w =>
    show ∃ t, execIllegalEncoding i w s = .next t
    unfold execIllegalEncoding
    cases decodeErg w.toNat with
    | none => exact ⟨_, rfl⟩
    | some x => exact runErg_next _ x s
  | _ => exact ⟨_, rfl⟩

/-- Settles O51: each command answers, and no command takes from the queue. -/
theorem everyCommandAnswers : Obligations.EveryCommandAnswers := by
  unfold Obligations.EveryCommandAnswers
  intro c s
  obtain ⟨t, ht⟩ := exec_next c s
  exact ⟨t, ht, (exec_keeps c (State.Keeps.refl s) t ht).pending⟩

/-- Settles O50: `step` looks at the front of the queue alone. -/
theorem stepRunsTheFrontCommand : Obligations.StepRunsTheFrontCommand := by
  unfold Obligations.StepRunsTheFrontCommand
  intro s
  refine ⟨fun c l h => ?front, fun h => ?idle⟩
  case front => rw [step, h]
  case idle => rw [step, h]

/-- Settles O55: at reset the memories are empty, the period is that of code 1 and the gate lies in its range. -/
theorem resetMeetsTheInvariants : Obligations.ResetMeetsTheInvariants := by
  unfold Obligations.ResetMeetsTheInvariants
  have htime : State.reset.LegalTime := ⟨by decide, by decide, by decide, fun p hp => nomatch hp⟩
  exact ⟨⟨rfl, rfl⟩, htime, rfl⟩

/-- Settles O11: a full reset is the reset state with the parts that are always on. -/
theorem fullResetLeavesTheResetState : Obligations.FullResetLeavesTheResetState := by
  unfold Obligations.FullResetLeavesTheResetState
  intro s straps t
  refine ⟨rfl, rfl, rfl, rfl, rfl, rfl, rfl, rfl, rfl, rfl, rfl, rfl, rfl, rfl, rfl, rfl, rfl, rfl, rfl, rfl, rfl, rfl, rfl, rfl⟩

end Sys2Proof.Machine
end

section
/-!
SUPPORT. The computing instructions (R35, R36, R50): the words that the operand forms give, and the theorem that settles O1.
-/

namespace Sys2Proof.Machine

open Sys2Proof

set_option Elab.async false

/-! ### Results of RV32IM -/

/-- The integer operations give the words that R35 describes. -/
theorem aluValue_result (op : AluOp) (a b : Word) : Claims.AluResult op a b (aluValue op a b) := by
  cases op with
  | add => exact BitVec.toNat_add a b
  | sub =>
    show ((a - b).toNat + b.toNat) % 2 ^ 32 = a.toNat
    rw [← BitVec.toNat_add, BitVec.sub_add_cancel]
  | sll =>
    show (a <<< (b.toNat % 32)).toNat = _
    rw [BitVec.toNat_shiftLeft, Nat.shiftLeft_eq]
  | slt => exact ⟨fun h => if_pos (BitVec.slt_iff_toInt_lt.mpr h), fun h => if_neg (fun h' => absurd (BitVec.slt_iff_toInt_lt.mp h') (Int.not_lt.mpr h))⟩
  | sltu => exact ⟨fun h => if_pos (BitVec.ult_iff_lt.mpr h), fun h => if_neg (fun h' => absurd (BitVec.ult_iff_lt.mp h') (Nat.not_lt.mpr h))⟩
  | xor => exact fun j => BitVec.getLsbD_xor
  | srl =>
    show (a >>> (b.toNat % 32)).toNat = _
    rw [BitVec.toNat_ushiftRight, Nat.shiftRight_eq_div_pow]
  | sra =>
    show (a.sshiftRight (b.toNat % 32)).toInt = _
    rw [BitVec.toInt_sshiftRight, Int.shiftRight_eq_div_pow]
    norm_cast
  | or => exact fun j => BitVec.getLsbD_or
  | and => exact fun j => BitVec.getLsbD_and

/-- Bits 63 to 32 of a product that a signed 64-bit word holds, read as a signed word. -/
theorem toInt_highWord {p : Int} (hlo : -2 ^ 63 ≤ p) (hhi : p < 2 ^ 63) : (highWord p).toInt = p / 2 ^ 32 := by
  rw [highWord, BitVec.toInt_ofInt, Int.bmod_eq_of_le] <;> omega

/-- Bits 63 to 32 of a product that an unsigned 64-bit word holds. -/
theorem toNat_highWord {p : Nat} (h : p < 2 ^ 64) : (highWord p).toNat = p / 2 ^ 32 := by
  rw [highWord, BitVec.toNat_ofInt]
  omega

/-- A signed word lies between -2^31 and 2^31. -/
theorem word_toInt_bounds (a : Word) : -2 ^ 31 ≤ a.toInt ∧ a.toInt < 2 ^ 31 := ⟨BitVec.le_toInt a, BitVec.toInt_lt⟩

/-- The multiplications give the words that the M extension describes. -/
theorem mulValue_result (op : MulOp) (a b : Word) : Claims.MulResult op a b (mulValue op a b) := by
  obtain ⟨ha, ha'⟩ := word_toInt_bounds a
  obtain ⟨hb, hb'⟩ := word_toInt_bounds b
  cases op with
  | mul => exact BitVec.toNat_mul a b
  | mulh => exact toInt_highWord (by nlinarith) (by nlinarith)
  | mulhsu =>
    have hn : (b.toNat : Int) < 2 ^ 32 := by exact_mod_cast b.isLt
    exact toInt_highWord (by nlinarith) (by nlinarith)
  | mulhu =>
    show (highWord ((a.toNat : Int) * (b.toNat : Int))).toNat = _
    rw [← Int.natCast_mul]
    exact toNat_highWord (by nlinarith [a.isLt, b.isLt])

/-- The divisions give the words that the M extension describes. -/
theorem divValue_result (op : DivOp) (a b : Word) : Claims.DivResult op a b (divValue op a b) := by
  cases op with
  | div =>
    refine ⟨fun h => if_pos h, fun h ha hb => ?_, fun h hno => ?_⟩
    · subst ha hb
      decide
    · show (if b = 0 then _ else a.sdiv b).toInt = _
      rw [if_neg h]
      refine BitVec.toInt_sdiv_of_ne_or_ne a b ?_
      by_contra hboth
      push Not at hboth
      exact hno ⟨hboth.1, hboth.2⟩
  | divu =>
    refine ⟨fun h => if_pos h, fun h => ?_⟩
    show (if b = 0 then _ else a / b).toNat = _
    rw [if_neg h, BitVec.toNat_udiv]
  | rem =>
    refine ⟨fun h => if_pos h, fun h => ?_⟩
    show (if b = 0 then _ else a.srem b).toInt = _
    rw [if_neg h, BitVec.toInt_srem]
  | remu =>
    refine ⟨fun h => if_pos h, fun h => ?_⟩
    show (if b = 0 then _ else a % b).toNat = _
    rw [if_neg h, BitVec.toNat_umod]

/-! ### Bytes and halves of a word -/

/-- Byte `j` of a word as a number. -/
theorem toNat_byteOf (w : Word) (j : Nat) : (Claims.byteOf w j).toNat = w.toNat / 256 ^ j % 256 := by
  rw [Claims.byteOf, BitVec.extractLsb'_toNat, Nat.shiftRight_eq_div_pow, Nat.pow_mul]

/-- The four bytes of a word. -/
theorem wordBytes_eq (w : Word) : wordBytes w = [Claims.byteOf w 0, Claims.byteOf w 1, Claims.byteOf w 2, Claims.byteOf w 3] := by
  have h : ∀ j, Claims.byteOf w j = BitVec.ofNat 8 (w.toNat / 256 ^ j) := fun j =>
    BitVec.eq_of_toNat_eq ((toNat_byteOf w j).trans (BitVec.toNat_ofNat (w.toNat / 256 ^ j) 8).symm)
  rw [h, h, h, h]
  show [_, _, _, _] = [_, _, _, _]
  simp [Nat.div_div_eq_div_mul]

/-- BSWAP reverses the bytes. -/
theorem byteOf_bswapWord (w : Word) {j : Nat} (hj : j < 4) : Claims.byteOf (bswapWord w) j = Claims.byteOf w (3 - j) := by
  refine BitVec.eq_of_toNat_eq ?_
  have hsum : (bswapWord w).toNat = (Claims.byteOf w 3).toNat + 256 * ((Claims.byteOf w 2).toNat +
      256 * ((Claims.byteOf w 1).toNat + 256 * ((Claims.byteOf w 0).toNat + 256 * 0))) := by
    rw [bswapWord, wordBytes_eq]
    refine (BitVec.toNat_ofNat _ _).trans (Nat.mod_eq_of_lt ?_)
    show (Claims.byteOf w 3).toNat + 256 * ((Claims.byteOf w 2).toNat + 256 * ((Claims.byteOf w 1).toNat + 256 * ((Claims.byteOf w 0).toNat + 256 * 0))) < 2 ^ 32
    have h0 := (Claims.byteOf w 0).isLt
    have h1 := (Claims.byteOf w 1).isLt
    have h2 := (Claims.byteOf w 2).isLt
    have h3 := (Claims.byteOf w 3).isLt
    omega
  rw [toNat_byteOf, hsum]
  have h0 := (Claims.byteOf w 0).isLt
  have h1 := (Claims.byteOf w 1).isLt
  have h2 := (Claims.byteOf w 2).isLt
  have h3 := (Claims.byteOf w 3).isLt
  interval_cases j <;> simp only [Nat.reduceSub, Nat.reducePow] <;> omega

/-- CSUM16 folds a sum of four halves: the fold is the same number modulo 65,535, and 0 only for the sum 0. -/
theorem csum16Word_folds (a b : Word) : let sum := a.toNat % 65536 + b.toNat % 65536 + a.toNat / 65536 + b.toNat / 65536
    (csum16Word a b).toNat < 65536 ∧ (csum16Word a b).toNat % 65535 = sum % 65535 ∧ (csum16Word a b = 0 ↔ sum = 0) := by
  intro sum
  have hsum : sum < 4 * 65536 := by have := a.isLt; have := b.isLt; omega
  have hs : bits a.toNat 0 16 + bits b.toNat 0 16 + bits a.toNat 16 16 + bits b.toNat 16 16 = sum := by
    have := a.isLt
    have := b.isLt
    simp only [bits]
    omega
  have hv : csum16Word a b = BitVec.ofNat 32 ((sum % 65536 + sum / 65536) % 65536 + (sum % 65536 + sum / 65536) / 65536) := by
    rw [csum16Word, hs]
  have hn : (csum16Word a b).toNat = (sum % 65536 + sum / 65536) % 65536 + (sum % 65536 + sum / 65536) / 65536 := by
    rw [hv, BitVec.toNat_ofNat, Nat.mod_eq_of_lt (by omega)]
  rw [← BitVec.toNat_inj, hn]
  show _ ∧ _ ∧ (_ = 0 ↔ _)
  omega

/-- The upper immediate of LUI and AUIPC as a number. -/
theorem toNat_upperImm (imm : BitVec 20) : (imm ++ 0#12 : Word).toNat = imm.toNat * 4096 := by
  rw [BitVec.toNat_append, BitVec.toNat_zero, Nat.or_zero, Nat.shiftLeft_eq]

/-! ### O1 -/

/-- An instruction that computes a word writes it to `rd` and changes nothing but its context. -/
theorem compute_only {s : State} {i : Issue} {c lend : Nat} (h : s.Issues i c lend) (lat : Nat) (rd : Fin 32) (f : Thread → Word) (v : Word)
    (hv : f ((s.running i).charge c) = v) :
    ∃ t, (.next (s.compute i lat rd f) : Answer) = .next t ∧
      s.OnlyContext t i.eng.val i.thr.val (((s.running i).done i c lat).setReg rd.val v) := by
  refine ⟨_, rfl, ?_⟩
  rw [State.compute, issue_eq h]
  rw [thr_takeCycle, ← State.running, hv]
  exact writeBack_only s i c lend lat rd.val v

/-- Settles O1: each instruction is a computation of one word, whose value the lemmas above give. -/
theorem computingInstructionsWriteOneRegister : Obligations.ComputingInstructionsWriteOneRegister := by
  unfold Obligations.ComputingInstructionsWriteOneRegister
  intro s i c lend h rd rs1 rs2 x a b writes
  refine ⟨fun op => ⟨_, aluValue_result op _ _, ?_⟩, fun op imm => ⟨_, aluValue_result op _ _, ?_⟩, fun imm => ⟨_, toNat_upperImm imm, ?_⟩,
    fun imm => ⟨x.pc + (imm ++ 0#12), ?_, ?_⟩, fun op => ⟨_, mulValue_result op _ _, ?_⟩, fun op => ⟨_, divValue_result op _ _, ?_⟩, ?crc,
    ⟨_, fun j hj => byteOf_bswapWord a hj, ?_⟩, ⟨_, csum16Word_folds a b, ?_⟩⟩
  case crc => exact compute_only h 1 rd _ _ (congrArg (crc a) (wordBytes_eq b))
  case refine_4 => rw [BitVec.toNat_add, toNat_upperImm]
  all_goals exact compute_only h _ rd _ _ rfl

end Sys2Proof.Machine
end

section
/-!
SUPPORT. Branches, jumps, FENCE and the instructions that end or hold their context (R36, R37, R49, R50): the theorems that settle O2 and O3.
-/

namespace Sys2Proof.Machine

open Sys2Proof

set_option Elab.async false

/-- The branch conditions hold as RV32I has them. -/
theorem brHolds_iff (cond : BrCond) (a b : Word) : brHolds cond a b = true ↔ Claims.Branches cond a b := by
  cases cond with
  | eq => exact decide_eq_true_iff
  | ne => exact decide_eq_true_iff
  | lt => exact BitVec.slt_iff_toInt_lt
  | ge =>
    show (!a.slt b) = true ↔ b.toInt ≤ a.toInt
    rw [Bool.not_eq_true', ← Bool.not_eq_true, BitVec.slt_iff_toInt_lt, Int.not_lt]
  | ltu => exact BitVec.ult_iff_lt
  | geu =>
    show (!a.ult b) = true ↔ b.toNat ≤ a.toNat
    rw [Bool.not_eq_true', ← Bool.not_eq_true, BitVec.ult_iff_lt]
    exact Nat.not_lt

/-- Clearing bit 0 gives the even number at or below. -/
theorem toNat_clearBit0 (w : Word) : (w &&& ~~~1#32).toNat = w.toNat / 2 * 2 := by
  have h : (~~~1#32 : Word).toNat = (2 ^ 31 - 1) * 2 := by decide
  rw [BitVec.toNat_and, h]
  have hw := w.isLt
  refine Nat.eq_of_testBit_eq (fun j => ?_)
  cases j with
  | zero => simp [Nat.testBit_zero]
  | succ j =>
    rw [Nat.testBit_and, Nat.testBit_succ, Nat.testBit_succ, Nat.testBit_succ, Nat.mul_div_cancel _ (by decide), Nat.mul_div_cancel _ (by decide),
      Nat.testBit_two_pow_sub_one]
    by_cases hj : j < 31
    · simp [hj]
    · have : (w.toNat / 2).testBit j = false := Nat.testBit_lt_two_pow (lt_of_lt_of_le (by omega) (Nat.pow_le_pow_right (by decide) (Nat.not_lt.mp hj)))
      simp [this]

section
variable {s : State} {i : Issue} {c lend : Nat}

/-- What a branch does at its issue cycle. -/
theorem execBranch_eq (h : s.Issues i c lend) (cond : BrCond) (rs1 rs2 : Fin 32) (off : BitVec 13) :
    exec (.branch i cond rs1 rs2 off) s = .next (
      let s1 := s.takeCycle i.eng.val i.thr.val c lend
      let x := s.running i
      if brHolds cond (x.reg rs1.val) (x.reg rs2.val) then s1.retire i c 3 (x.pc + off.signExtend 32) id else s1.retire i c 1 (s1.nextPc i) id) := by
  show (Host.Outcome.next (s.issue i _) : Answer) = _
  rw [issue_eq h, thr_takeCycle]
  rfl

/-- A branch, a jump or a FENCE changes its context alone: it is retired and goes to a pc. -/
theorem link_only (s : State) (i : Issue) (c lend lat rd : Nat) (pc link : Word) :
    s.OnlyContext ((s.takeCycle i.eng.val i.thr.val c lend).retire i c lat pc (fun t => t.setReg rd link)) i.eng.val i.thr.val
      { ((s.running i).done i c lat).setReg rd link with pc := pc } :=
  retire_goes s i c lend lat pc (fun t => t.setReg rd link) (done_setReg i c lat rd link)

/-- What JAL does at its issue cycle. -/
theorem execJal_eq (h : s.Issues i c lend) (rd : Fin 32) (off : BitVec 21) :
    exec (.jal i rd off) s = .next ((s.takeCycle i.eng.val i.thr.val c lend).retire i c 3 ((s.running i).pc + off.signExtend 32)
      (fun t => t.setReg rd.val ((s.running i).pc + (if i.compressed then 2 else 4)))) := by
  show (Host.Outcome.next (s.issue i _) : Answer) = _
  rw [issue_eq h, thr_takeCycle, nextPc_take]
  rfl

/-- What JALR does at its issue cycle. -/
theorem execJalr_eq (h : s.Issues i c lend) (rd rs1 : Fin 32) (imm : BitVec 12) :
    exec (.jalr i rd rs1 imm) s = .next ((s.takeCycle i.eng.val i.thr.val c lend).retire i c 3 (((s.running i).reg rs1.val + imm.signExtend 32) &&& ~~~1#32)
      (fun t => t.setReg rd.val ((s.running i).pc + (if i.compressed then 2 else 4)))) := by
  show (Host.Outcome.next (s.issue i _) : Answer) = _
  rw [issue_eq h, thr_takeCycle, nextPc_take]
  rfl

/-- What FENCE does at its issue cycle: it takes a free number of cycles. -/
theorem execFence_eq (h : s.Issues i c lend) :
    exec (.fence i) s = .next ((s.tickFree.takeCycle i.eng.val i.thr.val c lend).retire i c (1 + Config.freeNat s.freeCtr)
      ((s.running i).pc + (if i.compressed then 2 else 4)) id) := by
  show (Host.Outcome.next (s.issue i _) : Answer) = _
  rw [issue_eq h, ← nextPc_take (lend := lend) (c := c)]
  rfl

end

/-- Settles O2: each control transfer retires its context at its target. -/
theorem controlTransfersSetThePc : Obligations.ControlTransfersSetThePc := by
  unfold Obligations.ControlTransfersSetThePc
  intro s i c lend h rd rs1 rs2 x goes next
  refine ⟨fun cond off => ⟨fun ht => ?taken, fun hn => ?notTaken⟩, fun off => ?jal, fun imm => ?jalr, ?fence⟩
  case taken =>
    exact ⟨_, (execBranch_eq h cond rs1 rs2 off).trans (congrArg _ (if_pos ((brHolds_iff _ _ _).mpr ht))),
      retire_goes s i c lend 3 _ id (fun _ => rfl)⟩
  case notTaken =>
    refine ⟨_, (execBranch_eq h cond rs1 rs2 off).trans (congrArg _ (if_neg (fun hb => hn ((brHolds_iff _ _ _).mp hb)))), ?_⟩
    rw [nextPc_take]
    exact retire_goes s i c lend 1 _ id (fun _ => rfl)
  case jal => exact ⟨_, execJal_eq h rd off, link_only s i c lend 3 rd.val _ _⟩
  case jalr => exact ⟨_, toNat_clearBit0 _, _, execJalr_eq h rd rs1 imm, link_only s i c lend 3 rd.val _ _⟩
  case fence => exact ⟨_, _, execFence_eq h, retire_goes s.tickFree i c lend _ _ id (fun _ => rfl)⟩

/-! ### O3 -/

section
variable {s : State} {i : Issue} {c lend : Nat}

/-- A word that spells no instruction raises ILLEGAL with the word (R38). -/
theorem illegalEncoding_unlisted (h : s.Issues i c lend) {w : Word} (hw : decodeErg w.toNat = none) :
    exec (.illegalEncoding i w) s = .next ((s.takeCycle i.eng.val i.thr.val c lend).fault i.eng.val i.thr.val 1 w) := by
  show execIllegalEncoding i w s = _
  rw [execIllegalEncoding, hw]
  exact congrArg _ (issue_eq h _)

/-- A word that spells an instruction runs as it, in the form that its low bits give. -/
theorem illegalEncoding_spells (s : State) (i : Issue) {w : Word} {x : ErgOp} {b : Bool} (hw : decodeErg w.toNat = some x) (hb : decide (w.toNat % 4 ≠ 3) = b) :
    exec (.illegalEncoding i w) s = runErg { i with compressed := b } x s := by
  show execIllegalEncoding i w s = _
  rw [execIllegalEncoding, hw, hb]

/-- What EBREAK does at its issue cycle: it holds a worker where the engine and the lifecycle let it, and faults otherwise (R37, R86). -/
theorem execEbreak_eq (h : s.Issues i c lend) : exec (.ebreak i) s = .next (
    let s1 := s.takeCycle i.eng.val i.thr.val c lend
    if i.thr.val ≠ 0 ∧ (s.eng i.eng.val).dbgen = true ∧ s.debugAllowed (i.eng.val / 32) = true then s1.holdThread i.eng.val i.thr.val 8
    else s1.faultFree i.eng.val i.thr.val 8) := by
  have hd : ((s.takeCycle i.eng.val i.thr.val c lend).eng i.eng.val).dbgen = (s.eng i.eng.val).dbgen := by rw [eng_takeCycle]; rfl
  show (Host.Outcome.next (s.issue i _) : Answer) = _
  rw [issue_eq h, hd]
  rfl

/-- What YIELDT does at its issue cycle: the item ends with the low byte of its register. -/
theorem execYieldt_eq (h : s.Issues i c lend) (rs1 : Fin 32) : exec (.yieldt i rs1) s =
    .next (((s.takeCycle i.eng.val i.thr.val c lend).modThr i.eng.val i.thr.val (fun t => { t with instret := t.instret + 1 })).yieldItem i.eng.val i.thr.val
      (Claims.byteOf ((s.running i).reg rs1.val) 0)) := by
  show (Host.Outcome.next (s.issue i _) : Answer) = _
  rw [issue_eq h, thr_takeCycle]
  rfl

end

/-- Settles O3: what each instruction does at its issue cycle; the words written out decode as R49's table and RV32IMC have them. -/
theorem endingInstructionsEndOrHold : Obligations.EndingInstructionsEndOrHold := by
  unfold Obligations.EndingInstructionsEndOrHold
  intro s i c lend h pe k s1 x
  refine ⟨execYieldt_eq h, congrArg _ (issue_eq h _), fun hno => ?faults, fun hk hd ha => ?holds, congrArg _ (issue_eq h _), congrArg _ (issue_eq h _),
    fun w hw => illegalEncoding_unlisted h hw, by decide, by decide, ?spells⟩
  case faults =>
    rw [execEbreak_eq h]
    refine congrArg _ (if_neg ?_)
    rintro ⟨hk, hd, ha⟩
    rcases hno with h0 | h0 | h0
    · exact hk h0
    · rw [h0] at hd; cases hd
    · rw [h0] at ha; cases ha
  case holds => exact (execEbreak_eq h).trans (congrArg _ (if_pos ⟨hk, hd, ha⟩))
  case spells =>
    intro wide short
    exact ⟨illegalEncoding_spells s i (x := .saadd 5 6 7) (by decide) rfl, illegalEncoding_spells s i (x := .yieldt 10) (by decide) rfl,
      illegalEncoding_spells s i (x := .join 10 11) (by decide) rfl, illegalEncoding_spells s i (x := .integerOp .sra 5 5 (.reg 5)) (by decide) rfl,
      illegalEncoding_spells s i (x := .load .w 6 2 8) (by decide) rfl, illegalEncoding_spells s i (x := .integerOp .add 5 5 (.imm 1)) (by decide) rfl⟩

end Sys2Proof.Machine
end

section
/-!
SUPPORT. Loads, stores and atomics (R36, R42 to R44, R50, R55): what each does at its issue cycle, and the theorem that settles O4.
-/

namespace Sys2Proof.Machine

open Sys2Proof

set_option Elab.async false

section
variable {s : State} {i : Issue} {c lend : Nat}

/-- A load outside the regions faults before any effect (R38). -/
theorem load_faults (h : s.Issues i c lend) (wd : LdW) (rd rs1 : Fin 32) (imm : BitVec 12) (chk : Bool) {cause : Nat}
    (hp : s.locate i.eng.val i.thr.val ((s.running i).reg rs1.val + imm.signExtend 32).toNat (ldSize wd) = .bad cause) :
    exec (.load i wd rd rs1 imm chk) s =
      .next ((s.takeCycle i.eng.val i.thr.val c lend).fault i.eng.val i.thr.val cause ((s.running i).reg rs1.val + imm.signExtend 32)) := by
  show (Host.Outcome.next (s.issue i _) : Answer) = _
  rw [issue_eq h]
  dsimp only
  rw [thr_takeCycle, locate_take]
  show (Host.Outcome.next (match s.locate _ _ ((s.running i).reg rs1.val + imm.signExtend 32).toNat _ with | .bad cause => _ | p => _) : Answer) = _
  rw [hp]
  rfl

/-- A load from a place whose check holds (R36). -/
theorem load_reads (h : s.Issues i c lend) (wd : LdW) (rd rs1 : Fin 32) (imm : BitVec 12) (chk : Bool) {p : Place8}
    (hp : s.locate i.eng.val i.thr.val ((s.running i).reg rs1.val + imm.signExtend 32).toNat (ldSize wd) = p) (hbad : ∀ cause, p ≠ .bad cause)
    (hchk : (chk && s.checked i.eng.val p) = false) :
    exec (.load i wd rd rs1 imm chk) s = .next (((s.loadLat p).2.takeCycle i.eng.val i.thr.val c lend).writeOwed i c (s.loadLat p).1 rd.val
      (ldExtend wd (s.readPlace i.eng.val i.thr.val p (ldSize wd)))) := by
  show (Host.Outcome.next (s.issue i _) : Answer) = _
  rw [issue_eq h]
  dsimp only
  rw [thr_takeCycle, locate_take]
  show (Host.Outcome.next (match s.locate _ _ ((s.running i).reg rs1.val + imm.signExtend 32).toNat _ with | .bad cause => _ | p => _) : Answer) = _
  rw [hp]
  cases p with
  | bad cause => exact absurd rfl (hbad cause)
  | _ =>
    dsimp only
    rw [checked_take, hchk, readPlace_take, loadLat_take]
    rfl
/-- A store outside the regions faults before any effect (R38). -/
theorem store_faults (h : s.Issues i c lend) (wd : StW) (rs1 rs2 : Fin 32) (imm : BitVec 12) (chk : Bool) {cause : Nat}
    (hp : s.locate i.eng.val i.thr.val ((s.running i).reg rs1.val + imm.signExtend 32).toNat (stSize wd) = .bad cause) :
    exec (.store i wd rs1 rs2 imm chk) s =
      .next ((s.takeCycle i.eng.val i.thr.val c lend).fault i.eng.val i.thr.val cause ((s.running i).reg rs1.val + imm.signExtend 32)) := by
  show (Host.Outcome.next (s.issue i _) : Answer) = _
  rw [issue_eq h]
  dsimp only
  rw [thr_takeCycle, locate_take]
  show (Host.Outcome.next (match s.locate _ _ ((s.running i).reg rs1.val + imm.signExtend 32).toNat _ with | .bad cause => _ | p => _) : Answer) = _
  rw [hp]
  rfl

/-- A store to a place whose check holds (R36). -/
theorem store_writes (h : s.Issues i c lend) (wd : StW) (rs1 rs2 : Fin 32) (imm : BitVec 12) (chk : Bool) {p : Place8}
    (hp : s.locate i.eng.val i.thr.val ((s.running i).reg rs1.val + imm.signExtend 32).toNat (stSize wd) = p) (hbad : ∀ cause, p ≠ .bad cause)
    (hchk : (chk && s.checked i.eng.val p) = false) :
    exec (.store i wd rs1 rs2 imm chk) s = .next (((s.takeCycle i.eng.val i.thr.val c lend).writePlace i.eng.val i.thr.val p
      (leBytes (stSize wd) ((s.running i).reg rs2.val).toNat)).retire i c (storeLat p) ((s.running i).pc + (if i.compressed then 2 else 4)) id) := by
  show (Host.Outcome.next (s.issue i _) : Answer) = _
  rw [issue_eq h]
  dsimp only
  rw [thr_takeCycle, locate_take]
  show (Host.Outcome.next (match s.locate _ _ ((s.running i).reg rs1.val + imm.signExtend 32).toNat _ with | .bad cause => _ | p => _) : Answer) = _
  rw [hp]
  cases p with
  | bad cause => exact absurd rfl (hbad cause)
  | _ =>
    dsimp only
    rw [checked_take, hchk, nextPc_take]
    rfl

/-- An atomic at an address that no word of the shared store has faults before any effect (R38, R495). -/
theorem atomic_faults (h : s.Issues i c lend) (rd rs1 rs2 : Fin 32) (chk : Bool) (f : Word → Word → Word → Word) {cause : Nat}
    (ha : atomicCause ((s.running i).reg rs1.val).toNat 4 = some cause) :
    s.atomicOp i rd rs1 rs2 chk f = (s.takeCycle i.eng.val i.thr.val c lend).fault i.eng.val i.thr.val cause ((s.running i).reg rs1.val) := by
  unfold State.atomicOp
  rw [issue_eq h]
  dsimp only
  rw [thr_takeCycle]
  show (match atomicCause ((s.running i).reg rs1.val).toNat 4 with | some cause => _ | none => _) = _
  rw [ha]
  rfl

/-- A word atomic: the new word is written to the shared store and the old one is owed to `rd` (R50). -/
theorem atomic_swaps (h : s.Issues i c lend) (rd rs1 rs2 : Fin 32) (chk : Bool) (f : Word → Word → Word → Word)
    (ha : atomicCause ((s.running i).reg rs1.val).toNat 4 = none) (hchk : (chk && s.checked i.eng.val (.shared ((s.running i).reg rs1.val).toNat)) = false)
    {old new : Word} (hold : Claims.sharedWord s i.eng.val ((s.running i).reg rs1.val).toNat = old)
    (hnew : f old ((s.running i).reg rs2.val) ((s.running i).reg rd.val) = new) :
    (.next (s.atomicOp i rd rs1 rs2 chk f) : Answer) = .next (((s.takeCycle i.eng.val i.thr.val c lend).writePlace i.eng.val i.thr.val
      (.shared ((s.running i).reg rs1.val).toNat) (leBytes 4 new.toNat)).retire i c 14 ((s.running i).pc + (if i.compressed then 2 else 4))
      (fun t => { t.setReg rd.val old with owed := true })) := by
  subst hold hnew
  unfold State.atomicOp
  rw [issue_eq h]
  dsimp only
  rw [thr_takeCycle]
  show (Host.Outcome.next (match atomicCause ((s.running i).reg rs1.val).toNat 4 with | some cause => _ | none => _) : Answer) = _
  rw [ha]
  dsimp only
  show (Host.Outcome.next (if (chk && s.checked i.eng.val (.shared ((s.running i).reg rs1.val).toNat)) = true then _ else _) : Answer) = _
  rw [hchk, if_neg (by decide), State.writeOwed, ← nextPc_take (lend := lend) (c := c)]
  rfl

/-- SAINC64 adds to the double word of the shared store (R50). -/
theorem sainc64_adds (h : s.Issues i c lend) (rs1 rs2 : Fin 32) (chk : Bool)
    (ha : atomicCause ((s.running i).reg rs1.val).toNat 8 = none) (hchk : (chk && s.checked i.eng.val (.shared ((s.running i).reg rs1.val).toNat)) = false) :
    exec (.sainc64 i rs1 rs2 chk) s = .next (((s.takeCycle i.eng.val i.thr.val c lend).writePlace i.eng.val i.thr.val (.shared ((s.running i).reg rs1.val).toNat)
      (leBytes 8 (Mem.rdLe (s.yard (i.eng.val / 32)).shared ((s.running i).reg rs1.val).toNat 8 + ((s.running i).reg rs2.val).toNat))).retire i c 1
      ((s.running i).pc + (if i.compressed then 2 else 4)) id) := by
  show (Host.Outcome.next (s.issue i _) : Answer) = _
  rw [issue_eq h]
  dsimp only
  rw [thr_takeCycle, nextPc_take]
  show (Host.Outcome.next (match atomicCause ((s.running i).reg rs1.val).toNat 8 with | some cause => _ | none => _) : Answer) = _
  rw [ha]
  dsimp only
  show (Host.Outcome.next (if (chk && s.checked i.eng.val (.shared ((s.running i).reg rs1.val).toNat)) = true then _ else _) : Answer) = _
  rw [hchk]
  rfl

end

/-- The addresses that an atomic of `n` bytes accepts. -/
theorem atomicCause_none {a n : Nat} (h0 : a % n = 0) (h1 : 0x100000 ≤ a) (h2 : a < 0x300000) : atomicCause a n = none := by
  rw [atomicCause, if_neg (by omega), if_pos ⟨h1, h2⟩]

/-- A misaligned one is MISALIGNED. -/
theorem atomicCause_misaligned {a n : Nat} (h : a % n ≠ 0) : atomicCause a n = some 2 := if_pos h

/-- An aligned one outside the shared store is ACCESS. -/
theorem atomicCause_access {a n : Nat} (h0 : a % n = 0) (h : a < 0x100000 ∨ 0x300000 ≤ a) : atomicCause a n = some 3 := by
  rw [atomicCause, if_neg (by omega), if_neg (by omega)]

/-- No check fails of an access that is not checked, or whose check is not said to fail. -/
theorem checkHolds {s : State} {pe : Nat} {p : Place8} {chk : Bool} (h : chk = false ∨ s.checked pe p = false) : (chk && s.checked pe p) = false := by
  rcases h with h | h <;> rw [h]
  · rfl
  · exact Bool.and_false _

/-- Settles O4: the shape of each access from the lemmas above; the eight word atomics are one operation with eight functions. -/
theorem memoryInstructionsAccessTheirPlace : Obligations.MemoryInstructionsAccessTheirPlace := by
  unfold Obligations.MemoryInstructionsAccessTheirPlace
  intro s i c lend h rd rs1 rs2 pe k s1 x next
  refine ⟨fun wd imm chk => ⟨fun cause hp => load_faults h wd rd rs1 imm chk hp, fun p hp hbad hchk => ?loads⟩,
    fun wd imm chk => ⟨fun cause hp => store_faults h wd rs1 rs2 imm chk hp, fun p hp hbad hchk => store_writes h wd rs1 rs2 imm chk hp hbad (checkHolds hchk)⟩,
    fun chk => ?atomics⟩
  case loads =>
    refine ⟨_, load_reads h wd rd rs1 imm chk hp hbad (checkHolds hchk), ?_⟩
    have hrun : (s.loadLat p).2.running i = x := loadLat_running s p i
    rw [← hrun]
    exact owed_only (s.loadLat p).2 i c lend (s.loadLat p).1 rd.val _
  case atomics =>
    intro a b old free swaps
    have hfree : free → (chk && s.checked pe (.shared a.toNat)) = false := fun hf =>
      checkHolds (hf.imp_right (fun hb => decide_eq_false (Nat.not_lt.mpr hb)))
    refine ⟨fun h0 h1 h2 hf => ?words, fun h0 h1 h2 hf => sainc64_adds h rs1 rs2 chk (atomicCause_none h0 h1 h2) (hfree hf), fun e he => ?faults⟩
    case words =>
      have hswaps := fun f new hnew => atomic_swaps (new := new) h rd rs1 rs2 chk f (atomicCause_none h0 h1 h2) (hfree hf) rfl hnew
      have hmin : (if b.slt old then b else old) = if b.toInt < old.toInt then b else old := by simp only [BitVec.slt_iff_toInt_lt]
      have hmax : (if old.slt b then b else old) = if old.toInt < b.toInt then b else old := by simp only [BitVec.slt_iff_toInt_lt]
      exact ⟨hswaps _ _ rfl, hswaps _ _ rfl, hswaps _ _ rfl, hswaps _ _ hmin, hswaps _ _ hmax, hswaps _ _ rfl, hswaps _ _ rfl, hswaps _ _ rfl⟩
    case faults =>
      obtain ⟨f, hexec⟩ : ∃ f, exec e s = .next (s.atomicOp i rd rs1 rs2 chk f) := by
        revert e
        simp only [List.forall_mem_cons, List.not_mem_nil, false_implies, implies_true, and_true]
        exact ⟨⟨_, rfl⟩, ⟨_, rfl⟩, ⟨_, rfl⟩, ⟨_, rfl⟩, ⟨_, rfl⟩, ⟨_, rfl⟩, ⟨_, rfl⟩, ⟨_, rfl⟩⟩
      rw [hexec]
      exact ⟨fun h0 => congrArg _ (atomic_faults h rd rs1 rs2 chk f (atomicCause_misaligned h0)),
        fun h0 hout => congrArg _ (atomic_faults h rd rs1 rs2 chk f (atomicCause_access h0 hout))⟩

end Sys2Proof.Machine
end

section
/-!
SUPPORT. CSR instructions (R39, R44, R65, R66, R79, R80, R84): the operands, what a read and a write do at the issue cycle, and the theorem that
settles O5.
-/

namespace Sys2Proof.Machine

open Sys2Proof

set_option Elab.async false

/-! ### Operands -/

/-- A bit of a word's number is the word's bit. -/
theorem bitOf_toNat {n : Nat} (v : BitVec n) (j : Nat) : bitOf v.toNat j = v.getLsbD j := by
  rw [bitOf, BitVec.getLsbD, Nat.testBit_eq_decide_div_mod_eq]

/-- The forms of a CSR instruction that write (RV32I Zicsr). -/
theorem csrWrites_iff (form : CsrForm) (src : CsrSrc) : csrWrites form src = true ↔ Claims.CsrWrites form src := by
  unfold Claims.CsrWrites
  cases form <;> cases src <;> simp [csrWrites]

/-- The value that a CSR instruction writes. -/
theorem csrNew_eq (form : CsrForm) (old v : Word) : csrNew form old v = Claims.csrWritten form old v := by
  cases form <;> rfl

/-- The source of a CSR instruction. -/
theorem csrSrcValue_eq (x : Thread) (src : CsrSrc) : csrSrcValue x src = Claims.csrSource x src := by
  cases src <;> rfl

/-- The four CSRs that can be written. -/
theorem csrWritable_iff (csr : BitVec 12) : csrWritable csr.toNat = true ↔ csr ∈ [0x7C0#12, 0x7C1#12, 0x7C2#12, 0x7C3#12] := by
  simp [csrWritable, ← BitVec.toNat_inj]

/-! ### An engine with one context changed -/

/-- Every state differs from itself in no context. -/
theorem onlyContext_refl (s : State) (pe k : Nat) : s.OnlyContext s pe k (s.thr pe k) := ⟨rfl, fun _ _ => rfl, fun _ _ => rfl, rfl, rfl⟩

/-- A field of the engine that neither its contexts nor its counts hold is as it was. -/
theorem OnlyContext.field {s t : State} {pe k : Nat} {th : Thread} (h : s.OnlyContext t pe k th) {α : Type} (f : Engine → α)
    (hf : ∀ e : Engine, f { e with threads := [], cyc := 0, lend := 0 } = f e) : f (t.eng pe) = f (s.eng pe) := by
  obtain ⟨_, _, _, _, he⟩ := h
  rw [← hf, he, hf]

/-- The rest of the machine, once an engine has been replaced by one with the same contexts. -/
theorem setEng_contexts {s t : State} {pe k : Nat} {th : Thread} (h : s.OnlyContext t pe k th) {e : Engine} (he : e ≠ Engine.reset)
    (hth : e.threads = (t.eng pe).threads) :
    (t.setEng pe e).eng pe = e ∧ (t.setEng pe e).thr pe k = th ∧ (∀ pe', pe' ≠ pe → (t.setEng pe e).eng pe' = s.eng pe') ∧
      (∀ k', k' ≠ k → (t.setEng pe e).thr pe k' = s.thr pe k') ∧ s.SameButEngines (t.setEng pe e) := by
  obtain ⟨hsame, hengs, hthrs, hth0, _⟩ := h
  have heng := eng_setEng t pe e he
  have hthr : ∀ j, (t.setEng pe e).thr pe j = t.thr pe j := fun j => by
    unfold State.thr Engine.thr
    rw [heng, hth]
  exact ⟨heng, (hthr k).trans hth0, fun pe' hp => (eng_setEng_other t pe pe' e hp).trans (hengs pe' hp), fun k' hk => (hthr k').trans (hthrs k' hk),
    SameButEngines.trans hsame (setEng_same t pe e)⟩

/-- An engine that has counted a cycle, after a change of one of its contexts. -/
theorem eng_modThr {u : State} {pe : Nat} (k : Nat) (f : Thread → Thread) (hc : (u.eng pe).cyc ≠ 0) :
    (u.modThr pe k f).eng pe = (u.eng pe).setThr k (f (u.thr pe k)) := eng_setEng _ _ _ (engine_ne_reset _ hc)

/-- A register written back leaves the count of cycles. -/
theorem cyc_writeBack {u : State} (i : Issue) (c lat rd : Nat) (v : Word) (hc : (u.eng i.eng.val).cyc ≠ 0) :
    ((u.writeBack i c lat rd v).eng i.eng.val).cyc ≠ 0 := by
  unfold State.writeBack State.retire
  rw [eng_modThr _ _ hc]
  exact hc

/-- A register written back changes one context of the state before it. -/
theorem writeBack_contexts {u : State} (i : Issue) (c lat rd : Nat) (v : Word) (hc : (u.eng i.eng.val).cyc ≠ 0) :
    u.OnlyContext (u.writeBack i c lat rd v) i.eng.val i.thr.val
      { (u.thr i.eng.val i.thr.val).setReg rd v with
        instret := (u.thr i.eng.val i.thr.val).instret + 1, pc := u.nextPc i, ready := c + lat } := by
  have hinstret : ∀ t : Thread, (t.setReg rd v).instret = t.instret := fun t => by unfold Thread.setReg; split <;> rfl
  unfold State.writeBack State.retire
  exact (only_modThr (onlyContext_refl u i.eng.val i.thr.val) _ hc (thread_ne_reset _ (Or.inr (Or.inl (Nat.succ_ne_zero _))))).1

/-! ### At the issue cycle -/

section
variable {s : State} {i : Issue} {c lend : Nat}

/-- What a CSR instruction does at its issue cycle. -/
theorem csrOp_eq (h : s.Issues i c lend) (form : CsrForm) (csr : Nat) (src : CsrSrc) (rd : Fin 32) :
    s.csrOp i form csr src rd =
      let s1 := s.takeCycle i.eng.val i.thr.val c lend
      match s1.csrRead i.eng.val i.thr.val c csr with
      | none => s1.fault i.eng.val i.thr.val 1 (csrWord form csr src rd.val)
      | some old =>
        if (csrWrites form src && !csrWritable csr) = true then s1.fault i.eng.val i.thr.val 1 (csrWord form csr src rd.val)
        else if (csrWrites form src && decide (i.thr.val ≠ 0)) = true then s1.faultFree i.eng.val i.thr.val 4
        else
          let s2 := (if csr = 0xFC7 then s1.setEng i.eng.val { s1.eng i.eng.val with stale := 0 } else s1).writeBack i c 2 rd.val (BitVec.ofNat 32 old)
          if csrWrites form src = true then
            s2.csrStore i.eng.val c csr (csrNew form (BitVec.ofNat 32 old) (csrSrcValue (s.running i) src))
          else s2 := by
  have hsrc : csrSrcValue ((s.takeCycle i.eng.val i.thr.val c lend).thr i.eng.val i.thr.val) src = csrSrcValue (s.running i) src := by
    rw [thr_takeCycle]
    rfl
  unfold State.csrOp
  rw [issue_eq h]
  dsimp only
  rw [hsrc] <;> rfl

/-- An absent CSR, and a write to a read-only one, are ILLEGAL (R39). -/
theorem csr_illegal (h : s.Issues i c lend) (form : CsrForm) (csr : Nat) (src : CsrSrc) (rd : Fin 32)
    (hno : (s.takeCycle i.eng.val i.thr.val c lend).csrRead i.eng.val i.thr.val c csr = none ∨ (csrWrites form src = true ∧ csrWritable csr = false)) :
    s.csrOp i form csr src rd = (s.takeCycle i.eng.val i.thr.val c lend).fault i.eng.val i.thr.val 1 (csrWord form csr src rd.val) := by
  rw [csrOp_eq h]
  dsimp only
  cases hr : (s.takeCycle i.eng.val i.thr.val c lend).csrRead i.eng.val i.thr.val c csr with
  | none => rfl
  | some old =>
    obtain ⟨hw, hro⟩ := hno.resolve_left (by rw [hr]; exact nofun)
    exact if_pos (by rw [hw, hro]; rfl)

/-- A CSR that is read without a write: its value goes to `rd` (R39). -/
theorem csr_reads (h : s.Issues i c lend) (form : CsrForm) {csr : Nat} (src : CsrSrc) (rd : Fin 32) {old : Nat}
    (hr : (s.takeCycle i.eng.val i.thr.val c lend).csrRead i.eng.val i.thr.val c csr = some old) (hw : csrWrites form src = false) :
    s.csrOp i form csr src rd =
      let s1 := s.takeCycle i.eng.val i.thr.val c lend
      (if csr = 0xFC7 then s1.setEng i.eng.val { s1.eng i.eng.val with stale := 0 } else s1).writeBack i c 2 rd.val (BitVec.ofNat 32 old) := by
  rw [csrOp_eq h]
  dsimp only
  rw [hr, hw]
  rfl

/-- A worker's write to a CSR that can be written is GROOM_ONLY (R39). -/
theorem csr_groomOnly (h : s.Issues i c lend) (form : CsrForm) {csr : Nat} (src : CsrSrc) (rd : Fin 32) {old : Nat}
    (hr : (s.takeCycle i.eng.val i.thr.val c lend).csrRead i.eng.val i.thr.val c csr = some old) (hw : csrWrites form src = true)
    (hcsr : csrWritable csr = true) (hk : i.thr.val ≠ 0) :
    s.csrOp i form csr src rd = (s.takeCycle i.eng.val i.thr.val c lend).faultFree i.eng.val i.thr.val 4 := by
  rw [csrOp_eq h]
  dsimp only
  rw [hr, hw, hcsr, decide_eq_true hk]
  rfl

/-- T0's write to a CSR that can be written: the old value goes to `rd` and the new one takes effect (R39). -/
theorem csr_writes (h : s.Issues i c lend) (form : CsrForm) {csr : Nat} (src : CsrSrc) (rd : Fin 32) {old : Nat}
    (hr : (s.takeCycle i.eng.val i.thr.val c lend).csrRead i.eng.val i.thr.val c csr = some old) (hw : csrWrites form src = true)
    (hcsr : csrWritable csr = true) (hk : i.thr.val = 0) (hstale : csr ≠ 0xFC7) :
    s.csrOp i form csr src rd = ((s.takeCycle i.eng.val i.thr.val c lend).writeBack i c 2 rd.val (BitVec.ofNat 32 old)).csrStore i.eng.val c csr
      (Claims.csrWritten form (BitVec.ofNat 32 old) (Claims.csrSource (s.running i) src)) := by
  rw [← csrNew_eq, ← csrSrcValue_eq, csrOp_eq h]
  dsimp only
  rw [hr, hw, hcsr, decide_eq_false (not_not.mpr hk), if_neg hstale]
  rfl

end

/-! ### sxgctl (R79, R80, R84) -/

/-- DISMISS on one context: its MW bit goes. -/
def Engine.dismissOne (e : Engine) (k : Nat) : Engine :=
  e.setThr k { e.thr k with mw := false, dismissed := (e.thr k).mw || (e.thr k).dismissed }

/-- The engine with DBGEN, MWAUTO, OVF and DISMISS of a write to sxgctl. -/
def Engine.withGctl (e : Engine) (allowed : Bool) (v : Nat) : Engine :=
  let e1 := { e with dbgen := if bitOf v 0 then (if allowed then true else e.dbgen) else false, mwauto := bitOf v 1, ovf := e.ovf && !bitOf v 3 }
  if bitOf v 2 then [1, 2, 3, 4, 5, 6, 7].foldl Engine.dismissOne e1 else e1

/-- A write to sxgctl: the engine's bits, then ENDMASK in ascending order of threads. -/
theorem writeGctl_eq (s : State) (pe v : Nat) : s.writeGctl pe v =
    let s1 := s.setEng pe ((s.eng pe).withGctl (s.debugAllowed (pe / 32)) v)
    if bits v 16 8 = 0 ∨ bits v 16 8 = 0x0C ∨ 0x12 ≤ bits v 16 8 then s1
    else [1, 2, 3, 4, 5, 6, 7].foldl (fun s k => if bitOf v (7 + k) then s.endMasked pe k (BitVec.ofNat 8 (bits v 16 8)) else s) s1 := rfl

/-- DISMISS leaves everything but contexts. -/
theorem dismissOne_field {α : Type} (f : Engine → α) (hf : ∀ (e : Engine) (k : Nat) (t : Thread), f (e.setThr k t) = f e) (l : List Nat) (e : Engine) :
    f (l.foldl Engine.dismissOne e) = f e := by
  induction l generalizing e with
  | nil => rfl
  | cons k l ih => exact (ih _).trans (hf e k _)

/-- DISMISS leaves a context that it does not name. -/
theorem dismissOne_other (l : List Nat) (e : Engine) {j : Nat} (hj : j ∉ l) : (l.foldl Engine.dismissOne e).thr j = e.thr j := by
  induction l generalizing e with
  | nil => rfl
  | cons k l ih =>
    rw [List.mem_cons, not_or] at hj
    exact (ih _ hj.2).trans (thr_setThr_other _ _ _ _ hj.1)

/-- DISMISS clears the MW bit of each live context that it names. -/
theorem dismissOne_mw (l : List Nat) (e : Engine) (j : Nat) (hst : (e.thr j).st ≠ .free) :
    ((l.foldl Engine.dismissOne e).thr j).mw = (decide (j ∉ l) && (e.thr j).mw) := by
  induction l generalizing e with
  | nil => rfl
  | cons k l ih =>
    by_cases hk : j = k
    · have hthr : (e.dismissOne k).thr j = { e.thr j with mw := false, dismissed := (e.thr j).mw || (e.thr j).dismissed } := by
        subst hk
        exact thr_setThr _ _ _ (thread_ne_reset _ (Or.inr (Or.inr hst)))
      rw [List.foldl_cons, ih _ (by rw [hthr]; exact hst), hthr]
      simp [hk]
    · have hthr : (e.dismissOne k).thr j = e.thr j := thr_setThr_other _ _ _ _ hk
      rw [List.foldl_cons, ih _ (by rw [hthr]; exact hst), hthr]
      simp [hk]

section
variable (e : Engine) (allowed : Bool) (v : Word)

/-- What DISMISS does not touch of the engine, as a write to sxgctl leaves it. -/
theorem withGctl_field {α : Type} (f : Engine → α) (hf : ∀ (e : Engine) (k : Nat) (t : Thread), f (e.setThr k t) = f e) :
    f (e.withGctl allowed v.toNat) =
      f { e with dbgen := if v.getLsbD 0 then (if allowed then true else e.dbgen) else false, mwauto := v.getLsbD 1, ovf := e.ovf && !v.getLsbD 3 } := by
  unfold Engine.withGctl
  rw [bitOf_toNat, bitOf_toNat, bitOf_toNat, bitOf_toNat]
  dsimp only
  split
  · exact dismissOne_field f hf _ _
  · rfl

/-- The groom's own context is not dismissed. -/
theorem withGctl_groom : (e.withGctl allowed v.toNat).thr 0 = e.thr 0 := by
  unfold Engine.withGctl
  dsimp only
  split
  · exact dismissOne_other _ _ (by decide)
  · rfl

/-- The MW bit of a live worker after a write to sxgctl. -/
theorem withGctl_mw {j : Nat} (h1 : 1 ≤ j) (h8 : j < 8) (hst : (e.thr j).st ≠ .free) :
    ((e.withGctl allowed v.toNat).thr j).mw = (!v.getLsbD 2 && (e.thr j).mw) := by
  have hj : j ∈ [1, 2, 3, 4, 5, 6, 7] := by simp; omega
  unfold Engine.withGctl
  rw [bitOf_toNat v 2]
  dsimp only
  cases v.getLsbD 2 with
  | true =>
    refine (congrArg (fun e => (Engine.thr e j).mw) (if_pos rfl)).trans ((dismissOne_mw _ _ j (by exact hst)).trans ?_)
    rw [decide_eq_false (not_not.mpr hj)]
    rfl
  | false => rfl

end

/-- ENDMASK ends the named threads that are neither FREE nor HELD. -/
theorem endMasked_eq (s : State) (pe k : Nat) (st : Byte) :
    s.endMasked pe k st = if (s.thr pe k).st ≠ .free ∧ (s.thr pe k).held = false then s.endOther pe k st false else s := by
  unfold State.endMasked
  dsimp only
  by_cases hf : (s.thr pe k).st = .free
  · rw [if_pos (Or.inl hf), if_neg (fun h => h.1 hf)]
  · by_cases hh : (s.thr pe k).held = true
    · rw [if_pos (Or.inr hh), if_neg (fun h => by rw [h.2] at hh; cases hh)]
    · rw [if_neg (by simp [hf, hh]), if_pos ⟨hf, Bool.eq_false_iff.mpr hh⟩]

/-- The endings of ENDMASK, thread by thread. -/
theorem endMasks_eq (s : State) (pe : Nat) (v : Word) (st : Byte) (l : List Nat) :
    l.foldl (fun s k => if bitOf v.toNat (7 + k) then s.endMasked pe k st else s) s =
      l.foldl (fun (w : State) (j : Nat) =>
        if v.getLsbD (7 + j) = true ∧ (w.thr pe j).st ≠ .free ∧ (w.thr pe j).held = false then w.endOther pe j st false else w) s := by
  congr 1
  funext w j
  rw [bitOf_toNat, endMasked_eq]
  simp only [ite_and]

/-! ### O5 -/

section
variable {s : State} {i : Issue} {c lend : Nat}

/-- A write by T0 that replaces its engine, its contexts apart: the value read has gone to `rd`, and the rest of the machine is as before. -/
theorem csr_replacesEngine {e : Engine} (rd : Nat) (old : Word)
    (hcyc : e.cyc ≠ 0) (hth : e.threads = (((s.takeCycle i.eng.val i.thr.val c lend).writeBack i c 2 rd old).eng i.eng.val).threads) :
    let t := ((s.takeCycle i.eng.val i.thr.val c lend).writeBack i c 2 rd old).setEng i.eng.val e
    t.eng i.eng.val = e ∧ t.thr i.eng.val i.thr.val = ((s.running i).done i c 2).setReg rd old ∧
      (∀ pe', pe' ≠ i.eng.val → t.eng pe' = s.eng pe') ∧ (∀ k', k' ≠ i.thr.val → t.thr i.eng.val k' = s.thr i.eng.val k') ∧ s.SameButEngines t :=
  setEng_contexts (writeBack_only s i c lend 2 rd old) (engine_ne_reset e hcyc) hth

/-- The slot registers take effect at the next multiple of 16 of the cycle count (R65). -/
theorem slotFrom_next (now : Nat) : now < (now / 16 + 1) * 16 ∧ (now / 16 + 1) * 16 ≤ now + 16 ∧ (now / 16 + 1) * 16 % 16 = 0 := by omega

/-- sxstale is read and cleared (R39). -/
theorem sxstaleRead_clears (h : s.Issues i c lend) (rd : Fin 32) : ∃ t, exec (.sxstaleRead i rd) s = .next t ∧ (t.eng i.eng.val).stale = 0 ∧
    t.thr i.eng.val i.thr.val = ((s.running i).done i c 2).setReg rd.val (s.eng i.eng.val).stale ∧ (∀ pe', pe' ≠ i.eng.val → t.eng pe' = s.eng pe') ∧
    (∀ k', k' ≠ i.thr.val → t.thr i.eng.val k' = s.thr i.eng.val k') ∧ s.SameButEngines t := by
  refine ⟨_, congrArg Host.Outcome.next (csr_reads (csr := 0xFC7) h .rs (.reg 0) rd rfl rfl), ?_⟩
  dsimp only
  have hstale : BitVec.ofNat 32 ((s.takeCycle i.eng.val i.thr.val c lend).eng i.eng.val).stale.toNat = (s.eng i.eng.val).stale := by
    rw [BitVec.ofNat_toNat, BitVec.setWidth_eq, eng_takeCycle]
    rfl
  rw [if_pos rfl, hstale]
  obtain ⟨heng, hthr, hengs, hthrs, hsame⟩ := setEng_contexts (takeCycle_only s i.eng.val i.thr.val c lend)
    (e := { (s.takeCycle i.eng.val i.thr.val c lend).eng i.eng.val with stale := 0 }) (engine_ne_reset _ (cyc_takeCycle s i.eng.val i.thr.val c lend)) rfl
  generalize (s.takeCycle i.eng.val i.thr.val c lend).setEng i.eng.val { (s.takeCycle i.eng.val i.thr.val c lend).eng i.eng.val with stale := 0 } = u at *
  have hcyc : (u.eng i.eng.val).cyc ≠ 0 := by rw [heng]; exact cyc_takeCycle s i.eng.val i.thr.val c lend
  have honly := writeBack_contexts (u := u) i c 2 rd.val (s.eng i.eng.val).stale hcyc
  have hpc : u.nextPc i = (s.running i).pc + (if i.compressed then 2 else 4) := by
    unfold State.nextPc
    rw [hthr]
    rfl
  obtain ⟨hsame', hengs', hthrs', hthr', _⟩ := id honly
  refine ⟨(OnlyContext.field honly Engine.stale (fun _ => rfl)).trans (by rw [heng]), ?_, fun pe' hp => (hengs' pe' hp).trans (hengs pe' hp),
    fun k' hk => (hthrs' k' hk).trans (hthrs k' hk), SameButEngines.trans hsame hsame'⟩
  rw [hthr', hthr, hpc, done_setReg]
  rfl

/-- T0's write to sxgctl (R79, R80, R84). -/
theorem gctl_writes (h : s.Issues i c lend) (form : CsrForm) (src : CsrSrc) (rd : Fin 32) (hw : csrWrites form src = true) (hk : i.thr.val = 0) :
    let old := BitVec.ofNat 32 ((s.takeCycle i.eng.val i.thr.val c lend).eng i.eng.val).sxgctl
    let v := Claims.csrWritten form old (Claims.csrSource (s.running i) src)
    let pe := i.eng.val
    ∃ u, s.csrOp i form 0x7C3 src rd = (if bits v.toNat 16 8 = 0 ∨ bits v.toNat 16 8 = 0x0C ∨ 0x12 ≤ bits v.toNat 16 8 then u
        else [1, 2, 3, 4, 5, 6, 7].foldl (fun s k => if bitOf v.toNat (7 + k) then s.endMasked pe k (BitVec.ofNat 8 (bits v.toNat 16 8)) else s) u) ∧
      (∀ pe', pe' ≠ pe → u.eng pe' = s.eng pe') ∧ s.SameButEngines u ∧ u.thr pe i.thr.val = ((s.running i).done i c 2).setReg rd.val old ∧
      (u.eng pe).dbgen = (v.getLsbD 0 && ((s.eng pe).dbgen || s.debugAllowed (pe / 32))) ∧ (u.eng pe).mwauto = v.getLsbD 1 ∧
      (u.eng pe).ovf = ((s.eng pe).ovf && !v.getLsbD 3) ∧
      (∀ j, 1 ≤ j → j < 8 → (s.thr pe j).st ≠ .free → (u.thr pe j).mw = (!v.getLsbD 2 && (s.thr pe j).mw)) := by
  intro old v pe
  have hrun : s.csrOp i form 0x7C3 src rd = _ := csr_writes h form src rd rfl hw rfl hk (by decide)
  have honly := writeBack_only s i c lend 2 rd.val old
  have hcyc := cyc_writeBack i c 2 rd.val old (cyc_takeCycle s i.eng.val i.thr.val c lend)
  revert hrun
  generalize hu : (s.takeCycle i.eng.val i.thr.val c lend).writeBack i c 2 rd.val old = w at honly hcyc ⊢
  intro hrun
  obtain ⟨hsame, hengs, hthrs, hthr, _⟩ := id honly
  have hallowed : w.debugAllowed (pe / 32) = s.debugAllowed (pe / 32) := by rw [hsame]; rfl
  have hne : (w.eng pe).withGctl (w.debugAllowed (pe / 32)) v.toNat ≠ Engine.reset := by
    refine engine_ne_reset _ ?_
    rw [withGctl_field _ _ v Engine.cyc (fun _ _ _ => rfl)]
    exact hcyc
  have heng := eng_setEng w pe _ hne
  refine ⟨w.setEng pe ((w.eng pe).withGctl (w.debugAllowed (pe / 32)) v.toNat), hrun.trans (writeGctl_eq w pe v.toNat),
    fun pe' hp => (eng_setEng_other _ _ _ _ hp).trans (hengs pe' hp), SameButEngines.trans hsame (setEng_same _ _ _), ?_, ?_, ?_, ?_, fun j h1 h8 hst => ?_⟩
  · unfold State.thr at hthr ⊢
    rw [heng, hk, withGctl_groom, ← hthr, hk]
  · have hd : (w.eng pe).dbgen = (s.eng pe).dbgen := OnlyContext.field honly Engine.dbgen (fun _ => rfl)
    rw [heng, withGctl_field _ _ v Engine.dbgen (fun _ _ _ => rfl), hallowed]
    cases v.getLsbD 0 <;> cases s.debugAllowed (pe / 32) <;> simp [hd]
  · rw [heng, withGctl_field _ _ v Engine.mwauto (fun _ _ _ => rfl)]
  · rw [heng, withGctl_field _ _ v Engine.ovf (fun _ _ _ => rfl), OnlyContext.field honly Engine.ovf (fun _ => rfl)]
  · have hj : (w.eng pe).thr j = s.thr pe j := hthrs j (by omega)
    unfold State.thr at hst ⊢
    rw [heng, withGctl_mw _ _ v h1 h8 (by rw [hj]; exact hst), hj]
    rfl

end

/-- Settles O5: reads, faults and writes from what a CSR instruction does at its issue cycle. -/
theorem csrInstructionsReadAndWrite : Obligations.CsrInstructionsReadAndWrite := by
  unfold Obligations.CsrInstructionsReadAndWrite
  intro s i c lend h rd form src pe k s1 x now
  refine ⟨fun csr v hr hne hno => ?reads, sxstaleRead_clears h rd, fun csr hno => ?illegal, fun hw hk e he => ?groomOnly, fun hw hk => ?writes⟩
  case reads =>
    have hw : csrWrites form src = false := Bool.eq_false_iff.mpr (fun hw => hno ((csrWrites_iff form src).mp hw))
    have hne' : csr.toNat ≠ 0xFC7 := fun he => hne (BitVec.eq_of_toNat_eq he)
    refine ⟨_, congrArg Host.Outcome.next ((csr_reads h form src rd hr hw).trans (congrArg (State.writeBack · i c 2 rd.val _) (if_neg hne'))), ?_⟩
    exact writeBack_only s i c lend 2 rd.val _
  case illegal =>
    refine congrArg _ (csr_illegal h form csr.toNat src rd (hno.imp_right (fun ⟨hw, hro⟩ => ⟨(csrWrites_iff form src).mpr hw, ?_⟩)))
    exact Bool.eq_false_iff.mpr (fun hcsr => hro ((csrWritable_iff csr).mp hcsr))
  case groomOnly =>
    have hw' := (csrWrites_iff form src).mpr hw
    revert e
    simp only [List.forall_mem_cons, List.not_mem_nil, false_implies, implies_true, and_true]
    have hgroom : ∀ csr old, s1.csrRead pe k c csr = some old → csrWritable csr = true →
        (Host.Outcome.next (s.csrOp i form csr src rd) : Answer) = .next (s1.faultFree pe k 4) :=
      fun csr old hr hcsr => congrArg _ (csr_groomOnly h form src rd hr hw' hcsr hk)
    have hdwin := hgroom 0x7C0 _ rfl rfl
    have hgctl := hgroom 0x7C3 _ rfl rfl
    exact ⟨hdwin, hdwin, hgroom 0x7C1 _ rfl rfl, hgroom 0x7C2 _ rfl rfl, hgctl, hgctl, hgctl, hgctl⟩
  case writes =>
    intro y others
    have hw' := (csrWrites_iff form src).mpr hw
    have hfield : ∀ f : Engine → Word, (∀ e : Engine, f { e with threads := [], cyc := 0, lend := 0 } = f e) →
        BitVec.ofNat 32 (f (s1.eng pe)).toNat = f (s.eng pe) := fun f hf => by
      rw [BitVec.ofNat_toNat, BitVec.setWidth_eq]
      exact OnlyContext.field (takeCycle_only s pe k c lend) f hf
    have hcyc := fun old => cyc_writeBack i c 2 rd.val old (cyc_takeCycle s pe k c lend)
    refine ⟨?dwin, ?slotLo, ?slotHi, ?gctl⟩
    case dwin =>
      have hrun := csr_writes (csr := 0x7C0) h form src rd rfl hw' rfl hk (by decide)
      rw [hfield Engine.dwin (fun _ => rfl)] at hrun
      obtain ⟨heng, hthr, hrest⟩ := csr_replacesEngine (s := s) (i := i) (c := c) (lend := lend) 
        (e := { (s1.writeBack i c 2 rd.val (s.eng pe).dwin).eng pe with dwin := Claims.csrWritten form (s.eng pe).dwin y }) rd.val (s.eng pe).dwin (hcyc _) rfl
      exact ⟨_, congrArg Host.Outcome.next hrun, congrArg Engine.dwin heng, hthr, hrest⟩
    case slotLo =>
      have hrun := csr_writes (csr := 0x7C1) h form src rd rfl hw' rfl hk (by decide)
      rw [hfield Engine.slotLo (fun _ => rfl)] at hrun
      obtain ⟨heng, hthr, hrest⟩ := csr_replacesEngine (s := s) (i := i) (c := c) (lend := lend) (e := Engine.writeSlots _ now _ _) rd.val
        (s.eng pe).slotLo (hcyc _) rfl
      have hfrom := congrArg Engine.slotFrom heng
      obtain ⟨hlt, hle, hmod⟩ := slotFrom_next now
      exact ⟨_, congrArg Host.Outcome.next hrun, congrArg Engine.slotLo heng, lt_of_lt_of_eq hlt hfrom.symm, le_of_eq_of_le hfrom hle,
        (congrArg (· % 16) hfrom).trans hmod, hthr, hrest⟩
    case slotHi =>
      have hrun := csr_writes (csr := 0x7C2) h form src rd rfl hw' rfl hk (by decide)
      rw [hfield Engine.slotHi (fun _ => rfl)] at hrun
      obtain ⟨heng, hthr, hrest⟩ := csr_replacesEngine (s := s) (i := i) (c := c) (lend := lend) (e := Engine.writeSlots _ now _ _) rd.val
        (s.eng pe).slotHi (hcyc _) rfl
      have hfrom := congrArg Engine.slotFrom heng
      obtain ⟨hlt, hle, hmod⟩ := slotFrom_next now
      exact ⟨_, congrArg Host.Outcome.next hrun, congrArg Engine.slotHi heng, lt_of_lt_of_eq hlt hfrom.symm, le_of_eq_of_le hfrom hle,
        (congrArg (· % 16) hfrom).trans hmod, hthr, hrest⟩
    case gctl =>
      intro old v status e he
      have hexec : exec e s = .next (s.csrOp i form 0x7C3 src rd) := by
        revert e
        simp only [List.forall_mem_cons, List.not_mem_nil, false_implies, implies_true, and_true]
        exact ⟨rfl, rfl, rfl, rfl⟩
      obtain ⟨u, hu, hengs, hsame, hthr, hdbgen, hmwauto, hovf, hmw⟩ := gctl_writes h form src rd hw' hk
      refine ⟨_, u, hexec.trans (congrArg _ hu), hengs, hsame, hthr, hdbgen, hmwauto, hovf, hmw, fun h0 => if_pos h0, fun h0 hc h12 => ?_⟩
      exact (if_neg (by rintro (h | h | h); exacts [h0 h, hc h, absurd h12 (Nat.not_lt.mpr h)])).trans (endMasks_eq u pe v _ _)

end Sys2Proof.Machine
end

section
/-!
SUPPORT. FORK, JOIN, the start of a groom and the report of a mutual wait (R46, R50, R67 to R69, R77, R82 to R85): what each does, said once,
and the theorem that settles O6.
-/

namespace Sys2Proof.Machine

open Sys2Proof

set_option Elab.async false

/-! ### Registers of a started context -/

/-- Taking free values for registers changes the counter of free values alone. -/
theorem freeRegs_state (l : List Nat) (s : State) (m : FMap Word) : ∃ n, (freeRegs l s m).2 = { s with freeCtr := n } := by
  induction l generalizing s m with
  | nil => exact ⟨s.freeCtr, rfl⟩
  | cons r l ih =>
    obtain ⟨n, hn⟩ := ih s.tickFree (FMap.set 0 m r (BitVec.ofNat 32 (Config.freeNat s.freeCtr)))
    exact ⟨n, hn⟩

/-- The registers stay a map in canonical form. -/
theorem freeRegs_wf (l : List Nat) (s : State) (m : FMap Word) (h : FMap.wf 0 m = true) : FMap.wf 0 (freeRegs l s m).1 = true := by
  induction l generalizing s m with
  | nil => exact h
  | cons r l ih => exact ih _ _ (FMap.wf_set 0 m r _ h)

/-- a0, a1 and sp of a started context. -/
def startRegs (m : FMap Word) (a0 a1 sp : Word) : FMap Word := FMap.set 0 (FMap.set 0 (FMap.set 0 m 10 a0) 11 a1) 2 sp

/-- A started context reads its a0, a1 and sp. -/
theorem startRegs_reads {t : Thread} {m : FMap Word} {a0 a1 sp : Word} (hm : FMap.wf 0 m = true) (ht : t.regs = startRegs m a0 a1 sp) :
    t.reg 10 = a0 ∧ t.reg 11 = a1 ∧ t.reg 2 = sp := by
  have h10 : FMap.wf 0 (FMap.set 0 m 10 a0) = true := FMap.wf_set 0 m 10 a0 hm
  have h11 : FMap.wf 0 (FMap.set 0 (FMap.set 0 m 10 a0) 11 a1) = true := FMap.wf_set 0 _ 11 a1 h10
  unfold Thread.reg
  rw [ht, startRegs]
  refine ⟨?_, ?_, FMap.get_set_wf 0 _ 2 sp h11⟩
  · exact (FMap.get_set_other 0 _ 2 10 sp (by decide)).trans ((FMap.get_set_other 0 _ 11 10 a1 (by decide)).trans (FMap.get_set_wf 0 m 10 a0 hm))
  · exact (FMap.get_set_other 0 _ 2 11 sp (by decide)).trans (FMap.get_set_wf 0 _ 11 a1 h10)

/-- The active bank is the same after an issue cycle. -/
theorem bank_takeCycle (s : State) (pe k c lend : Nat) : ((s.takeCycle pe k c lend).eng pe).bank = (s.eng pe).bank := by
  rw [eng_takeCycle]
  rfl

/-- A live engine or a moved thread: the engines are as they were. -/
theorem eng_moved (s : State) (pe k pe' : Nat) : (s.moved pe k).eng pe' = s.eng pe' := by
  unfold State.eng
  rw [moved_engines]

/-! ### Who is named, and what a JOIN returns -/

/-- The workers of an engine. -/
theorem mem_workers {d : Nat} : d ∈ [1, 2, 3, 4, 5, 6, 7] ↔ 1 ≤ d ∧ d < 8 := by
  simp only [List.mem_cons, List.not_mem_nil, or_false]
  omega

/-- The threads that a JOIN names (R69). -/
theorem mem_joinNamed {k mask d : Nat} : d ∈ joinNamed k mask ↔ Claims.Named k mask d := by
  unfold joinNamed Claims.Named
  rw [List.mem_filter, mem_workers, Bool.and_eq_true, bitOf, decide_eq_true_eq, decide_eq_true_eq]
  tauto

/-- The threads that a JOIN names stand in ascending order. -/
theorem joinNamed_sorted (k mask : Nat) : (joinNamed k mask).Pairwise (· < ·) := List.Pairwise.filter _ (by decide)

/-- Of a sorted list, what is found is the least that is wanted. -/
theorem find_least {p : Nat → Bool} {l : List Nat} (hs : l.Pairwise (· < ·)) {d : Nat} (hd : d ∈ l) (hp : p d = true)
    (hleast : ∀ d' ∈ l, d' < d → p d' = false) : l.find? p = some d := by
  induction l with
  | nil => nomatch hd
  | cons a l ih =>
    obtain ⟨hlt, hs'⟩ := List.pairwise_cons.mp hs
    rcases List.mem_cons.mp hd with rfl | hd'
    · exact List.find?_cons_of_pos hp
    · rw [List.find?_cons_of_neg (by rw [hleast a List.mem_cons_self (hlt d hd')]; decide)]
      exact ih hs' hd' (fun d' hd' => hleast d' (List.mem_cons_of_mem a hd'))

/-- Once every named thread has ended, JOIN returns what R50 and R69 say. -/
theorem joinStatus_some {s : State} {pe k mask : Nat} {v : Word} (h : Claims.JoinResult s pe k mask v) :
    ∃ st, (s.eng pe).joinStatus k mask = some st ∧ BitVec.ofNat 32 st.toNat = v := by
  obtain ⟨hfree, hv⟩ := h
  have hall : (joinNamed k mask).all (fun d => decide (((s.eng pe).thr d).st = .free)) = true :=
    List.all_eq_true.mpr (fun d hd => decide_eq_true (hfree d (mem_joinNamed.mp hd)))
  rcases hv with ⟨rfl, hzero⟩ | ⟨d, hd, hkept, rfl, hleast⟩
  · have hfind : (joinNamed k mask).find? (fun d => decide (((s.eng pe).thr d).kept ≠ 0)) = none :=
      List.find?_eq_none.mpr (fun d hd hf => of_decide_eq_true hf (hzero d (mem_joinNamed.mp hd)))
    refine ⟨0, ?_, rfl⟩
    unfold Engine.joinStatus
    dsimp only
    rw [if_pos hall, hfind]
  · have hfind : (joinNamed k mask).find? (fun d => decide (((s.eng pe).thr d).kept ≠ 0)) = some d :=
      find_least (joinNamed_sorted k mask) (mem_joinNamed.mpr hd) (decide_eq_true hkept)
        (fun d' hd' hlt => decide_eq_false (not_not.mpr (hleast d' (mem_joinNamed.mp hd') hlt)))
    refine ⟨(s.thr pe d).kept, ?_, ?_⟩
    · unfold Engine.joinStatus
      dsimp only
      rw [if_pos hall, hfind]
      rfl
    · exact BitVec.ofNat_toNat 32 _

/-- While a named thread is live, JOIN returns nothing. -/
theorem joinStatus_none {e : Engine} {k mask d : Nat} (hd : Claims.Named k mask d) (hst : (e.thr d).st ≠ .free) : e.joinStatus k mask = none := by
  refine if_neg (fun hall => ?_)
  exact hst (of_decide_eq_true (List.all_eq_true.mp hall d (mem_joinNamed.mpr hd)))

/-- The issue cycle of the joining thread changes nothing of the threads that it names. -/
theorem joinResult_takeCycle {s : State} {pe k mask : Nat} {v : Word} (c lend : Nat) (h : Claims.JoinResult s pe k mask v) :
    Claims.JoinResult (s.takeCycle pe k c lend) pe k mask v := by
  have hthr : ∀ d, Claims.Named k mask d → (s.takeCycle pe k c lend).thr pe d = s.thr pe d := fun d hd => thr_takeCycle_other s pe k d c lend hd.2.2.1
  obtain ⟨hfree, hv⟩ := h
  refine ⟨fun d hd => by rw [hthr d hd]; exact hfree d hd, hv.imp ?_ ?_⟩
  · exact fun ⟨h0, hzero⟩ => ⟨h0, fun d hd => by rw [hthr d hd]; exact hzero d hd⟩
  · rintro ⟨d, hd, hkept, hv, hleast⟩
    exact ⟨d, hd, by rw [hthr d hd]; exact hkept, by rw [hthr d hd]; exact hv, fun d' hd' hlt => by rw [hthr d' hd']; exact hleast d' hd' hlt⟩

/-! ### FORK and JOIN at their issue cycle -/

section
variable {s : State} {i : Issue} {c lend : Nat}

/-- What FORK does at its issue cycle (R50, R67, R78). -/
theorem execFork_eq (h : s.Issues i c lend) (rd rs1 rs2 : Fin 32) : exec (.fork i rd rs1 rs2) s = .next (
    let s1 := s.takeCycle i.eng.val i.thr.val c lend
    let pc := (s.running i).reg rs1.val
    if i.thr.val = 0 then s1.fault i.eng.val i.thr.val 1 (rType custom0 0 1 rd.val rs1.val rs2.val)
    else if pc.toNat % 2 = 1 then s1.fault i.eng.val i.thr.val 2 pc
    else if 0x4000 ≤ pc.toNat then s1.fault i.eng.val i.thr.val 3 pc
    else match (s1.eng i.eng.val).freeCtx with
      | none => s1.writeBack i c 2 rd.val 0
      | some d =>
        let s2 := (freeRegs otherRegs s1 []).2
        let regs := startRegs (freeRegs otherRegs s1 []).1 ((s.running i).reg rs2.val) (BitVec.ofNat 32 i.thr.val) ((s2.eng i.eng.val).stackTop d)
        ((s2.setEng i.eng.val ((s2.eng i.eng.val).setThr d (childOf (s2.eng i.eng.val) i.thr.val d c pc regs))).moved i.eng.val i.thr.val).writeBack i c 2 rd.val
          (BitVec.ofNat 32 d)) := by
  show (Host.Outcome.next (s.issue i _) : Answer) = _
  rw [issue_eq h]
  dsimp only
  rw [thr_takeCycle] <;> rfl

/-- What JOIN does at its issue cycle (R50, R69, R78). -/
theorem execJoin_eq (h : s.Issues i c lend) (rd rs1 : Fin 32) : exec (.join i rd rs1) s = .next (
    let s1 := s.takeCycle i.eng.val i.thr.val c lend
    let v := ((s.running i).reg rs1.val).toNat
    if i.thr.val = 0 then s1.fault i.eng.val i.thr.val 1 (rType custom0 0 2 rd.val rs1.val 0)
    else if v % 2 = 1 ∨ 256 ≤ v then s1.faultFree i.eng.val i.thr.val 5
    else match (s1.eng i.eng.val).joinStatus i.thr.val v with
      | some st => s1.writeBack i c 1 rd.val (BitVec.ofNat 32 st.toNat)
      | none => (s1.modThr i.eng.val i.thr.val (fun t => { t with st := .join, blk := .join (BitVec.ofNat 8 v) rd.val })).moved i.eng.val i.thr.val) := by
  show (Host.Outcome.next (s.issue i _) : Answer) = _
  rw [issue_eq h]
  dsimp only
  rw [thr_takeCycle] <;> rfl

/-- The state of a context that issues does not change with its cycle. -/
theorem st_takeCycle (s : State) (pe k d c lend : Nat) : ((s.takeCycle pe k c lend).thr pe d).st = (s.thr pe d).st := by
  by_cases hd : d = k
  · rw [hd, thr_takeCycle]
    rfl
  · rw [thr_takeCycle_other s pe k d c lend hd]

/-- The lowest FREE worker is found (R67). -/
theorem freeCtx_takeCycle_some {pe k d : Nat} (h1 : 1 ≤ d) (h8 : d < 8) (hst : (s.thr pe d).st = .free)
    (hleast : ∀ d', 1 ≤ d' → d' < d → (s.thr pe d').st ≠ .free) : ((s.takeCycle pe k c lend).eng pe).freeCtx = some d := by
  refine find_least (by decide) (mem_workers.mpr ⟨h1, h8⟩) (decide_eq_true ((st_takeCycle s pe k d c lend).trans hst)) (fun d' hd' hlt => ?_)
  exact decide_eq_false (fun hf => hleast d' (mem_workers.mp hd').1 hlt ((st_takeCycle s pe k d' c lend).symm.trans hf))

/-- None is found when no worker is FREE. -/
theorem freeCtx_takeCycle_none {pe k : Nat} (hno : ∀ d, 1 ≤ d → d < 8 → (s.thr pe d).st ≠ .free) : ((s.takeCycle pe k c lend).eng pe).freeCtx = none := by
  refine List.find?_eq_none.mpr (fun d hd => ?_)
  obtain ⟨h1, h8⟩ := mem_workers.mp hd
  exact fun hf => hno d h1 h8 ((st_takeCycle s pe k d c lend).symm.trans (of_decide_eq_true hf))

/-- A FORK that finds a FREE worker starts it, and changes nothing else of the engines but its own context (R46, R50, R67). -/
theorem fork_starts (h : s.Issues i c lend) (rd rs1 rs2 : Fin 32) (hk : i.thr.val ≠ 0) (hodd : ((s.running i).reg rs1.val).toNat % 2 = 0)
    (hpc : ((s.running i).reg rs1.val).toNat < 0x4000) {d : Nat} (h1 : 1 ≤ d) (h8 : d < 8) (hst : (s.thr i.eng.val d).st = .free)
    (hleast : ∀ d', 1 ≤ d' → d' < d → (s.thr i.eng.val d').st ≠ .free) :
    ∃ t m sp, exec (.fork i rd rs1 rs2) s = .next t ∧ t.thr i.eng.val i.thr.val = ((s.running i).done i c 2).setReg rd.val (BitVec.ofNat 32 d) ∧
      FMap.wf 0 m = true ∧ (t.thr i.eng.val d).st = .run ∧ (t.thr i.eng.val d).pc = (s.running i).reg rs1.val ∧
      (t.thr i.eng.val d).parent = some i.thr.val ∧
      (t.thr i.eng.val d).regs = startRegs m ((s.running i).reg rs2.val) (BitVec.ofNat 32 i.thr.val) sp ∧ sp = (s.eng i.eng.val).stackTop d ∧
      (∀ k', k' ≠ i.thr.val → k' ≠ d → t.thr i.eng.val k' = s.thr i.eng.val k') ∧ (∀ pe', pe' ≠ i.eng.val → t.eng pe' = s.eng pe') := by
  have hne : d ≠ i.thr.val := by
    rintro rfl
    rw [(issues_run h).1] at hst
    cases hst
  obtain ⟨n, hn⟩ := freeRegs_state otherRegs (s.takeCycle i.eng.val i.thr.val c lend) []
  have hm := freeRegs_wf otherRegs (s.takeCycle i.eng.val i.thr.val c lend) [] rfl
  have hexec := execFork_eq h rd rs1 rs2
  dsimp only at hexec
  rw [if_neg hk, if_neg (by omega), if_neg (by omega), freeCtx_takeCycle_some h1 h8 hst hleast, hn] at hexec
  revert hexec hm
  generalize (freeRegs otherRegs (s.takeCycle i.eng.val i.thr.val c lend) []).1 = m
  intro hm hexec
  have hengs : ∀ pe', State.eng { s.takeCycle i.eng.val i.thr.val c lend with freeCtr := n } pe' = (s.takeCycle i.eng.val i.thr.val c lend).eng pe' := fun _ => rfl
  simp only [hengs] at hexec
  have hsp : ((s.takeCycle i.eng.val i.thr.val c lend).eng i.eng.val).stackTop d = (s.eng i.eng.val).stackTop d := by
    unfold Engine.stackTop
    rw [bank_takeCycle]
  have hcyc := cyc_takeCycle s i.eng.val i.thr.val c lend
  generalize hx : childOf ((s.takeCycle i.eng.val i.thr.val c lend).eng i.eng.val) i.thr.val d c ((s.running i).reg rs1.val)
    (startRegs m ((s.running i).reg rs2.val) (BitVec.ofNat 32 i.thr.val) (((s.takeCycle i.eng.val i.thr.val c lend).eng i.eng.val).stackTop d)) = x at hexec
  have hxst : x.st = .run := by rw [← hx]; rfl
  generalize hu : (State.setEng { s.takeCycle i.eng.val i.thr.val c lend with freeCtr := n } i.eng.val
    (((s.takeCycle i.eng.val i.thr.val c lend).eng i.eng.val).setThr d x)).moved i.eng.val i.thr.val = u at hexec
  have hueng : u.eng i.eng.val = ((s.takeCycle i.eng.val i.thr.val c lend).eng i.eng.val).setThr d x := by
    rw [← hu, eng_moved]
    exact eng_setEng _ _ _ (engine_ne_reset _ hcyc)
  have huengs : ∀ pe', pe' ≠ i.eng.val → u.eng pe' = s.eng pe' := fun pe' hp => by
    rw [← hu, eng_moved]
    exact (eng_setEng_other _ _ _ _ hp).trans (eng_takeCycle_other s _ _ _ _ _ hp)
  have hud : u.thr i.eng.val d = x := by
    unfold State.thr
    rw [hueng]
    exact thr_setThr _ _ _ (thread_ne_reset _ (Or.inr (Or.inr (by rw [hxst]; decide))))
  have huthr : ∀ k', k' ≠ d → u.thr i.eng.val k' = (s.takeCycle i.eng.val i.thr.val c lend).thr i.eng.val k' := fun k' hk' => by
    unfold State.thr
    rw [hueng]
    exact thr_setThr_other _ _ _ _ hk'
  obtain ⟨_, htengs, htthrs, htthr, _⟩ := writeBack_contexts (u := u) i c 2 rd.val (BitVec.ofNat 32 d) (by rw [hueng]; exact hcyc)
  have htd : (u.writeBack i c 2 rd.val (BitVec.ofNat 32 d)).thr i.eng.val d = x := (htthrs d hne).trans hud
  refine ⟨_, m, _, hexec, ?_, hm, by rw [htd, hxst], by rw [htd, ← hx]; rfl, by rw [htd, ← hx]; rfl, by rw [htd, ← hx]; rfl, hsp, fun k' hk' hd' => ?_,
    fun pe' hp => (htengs pe' hp).trans (huengs pe' hp)⟩
  · have hkthr : u.thr i.eng.val i.thr.val = (s.running i).charge c := (huthr _ (Ne.symm hne)).trans (thr_takeCycle s _ _ _ _)
    have hpc' : u.nextPc i = (s.running i).pc + (if i.compressed then 2 else 4) := by
      unfold State.nextPc
      rw [hkthr]
      rfl
    rw [htthr, hkthr, hpc', done_setReg]
    rfl
  · exact (htthrs k' hk').trans ((huthr k' hd').trans (thr_takeCycle_other s _ _ _ _ _ hk'))

/-- A JOIN whose named threads have all ended returns at once (R50, R69). -/
theorem join_returns (h : s.Issues i c lend) (rd rs1 : Fin 32) (hk : i.thr.val ≠ 0) (heven : ((s.running i).reg rs1.val).toNat % 2 = 0)
    (hlt : ((s.running i).reg rs1.val).toNat < 256) {v : Word} (hv : Claims.JoinResult s i.eng.val i.thr.val ((s.running i).reg rs1.val).toNat v) :
    exec (.join i rd rs1) s = .next ((s.takeCycle i.eng.val i.thr.val c lend).writeBack i c 1 rd.val v) := by
  obtain ⟨st, hst, rfl⟩ := joinStatus_some (joinResult_takeCycle c lend hv)
  rw [execJoin_eq h]
  dsimp only
  rw [if_neg hk, if_neg (by omega), hst]

/-- A JOIN that names a live thread blocks (R50). -/
theorem join_blocks (h : s.Issues i c lend) (rd rs1 : Fin 32) (hk : i.thr.val ≠ 0) (heven : ((s.running i).reg rs1.val).toNat % 2 = 0)
    (hlt : ((s.running i).reg rs1.val).toNat < 256) {d : Nat} (hd : Claims.Named i.thr.val ((s.running i).reg rs1.val).toNat d) (hst : (s.thr i.eng.val d).st ≠ .free) :
    exec (.join i rd rs1) s = .next (((s.takeCycle i.eng.val i.thr.val c lend).modThr i.eng.val i.thr.val
      (fun t => { t with st := .join, blk := .join (BitVec.ofNat 8 ((s.running i).reg rs1.val).toNat) rd.val })).moved i.eng.val i.thr.val) := by
  have hst' : (((s.takeCycle i.eng.val i.thr.val c lend).eng i.eng.val).thr d).st ≠ .free := fun hf =>
    hst ((st_takeCycle s i.eng.val i.thr.val d c lend).symm.trans hf)
  rw [execJoin_eq h]
  dsimp only
  rw [if_neg hk, if_neg (by omega), joinStatus_none hd hst']

end

/-- A blocked JOIN whose named threads have ended completes (R50). -/
theorem joinUnblock_returns {s : State} {eng : Fin 1088} {thr : Fin 8} {mask : Byte} {rd : Nat} {v : Word} (hst : (s.thr eng.val thr.val).st = .join)
    (hb : (s.thr eng.val thr.val).blk = .join mask rd) (hv : Claims.JoinResult s eng.val thr.val mask.toNat v) :
    exec (.joinUnblock eng thr) s = .next (s.unblock eng.val thr.val 1 (fun t => t.setReg rd v)) := by
  obtain ⟨st, hst', rfl⟩ := joinStatus_some hv
  show (Host.Outcome.next _ : Answer) = _
  dsimp only
  rw [hst, hb]
  dsimp only
  rw [hst']

/-! ### Grooms and mutual waits -/

/-- T0 starts in its record area when it has something to read (R77). -/
theorem startGroom_eq {s : State} {pe : Nat} (hactive : s.engActive pe = true) (hfree : (s.thr pe 0).st = .free) (hphase : s.time.phase ≠ .turn)
    (hprog : (s.eng pe).bank.program ≠ 0) (hdue : (s.eng pe).faultCh ≠ [] ∨ (s.mb (mbToGroom (s.leng pe))).full = true) :
    s.groomStart pe = s.startGroom pe := by
  have hgroom : s.groomDue pe = true := by
    unfold State.groomDue
    rcases hdue with hf | hm
    · rw [List.isEmpty_eq_false_iff.mpr hf]
      rfl
    · rw [hm, Bool.or_true]
  unfold State.groomStart
  refine if_pos ?_
  show (s.engActive pe && decide ((s.thr pe 0).st = .free) && decide (s.time.phase ≠ .turn) && s.groomDue pe && decide ((s.eng pe).bank.program ≠ 0)) = true
  rw [hactive, decide_eq_true hfree, decide_eq_true hphase, hgroom, decide_eq_true hprog]
  rfl

/-- The shape of a groom's start: an engine whose store has the record, with a context in place 0. -/
theorem startGroom_shape {s : State} {pe n : Nat} {m : FMap Word} (h : freeRegs otherRegs s [] = (m, { s with freeCtr := n })) :
    ∃ (e1 : Engine) (x : Thread), s.startGroom pe = State.setEng { s with freeCtr := n } pe (e1.setThr 0 x) ∧ x.st = .run ∧
      x.pc = ((s.eng pe).bank.entries.getD 0 0).zeroExtend 32 ∧
      x.regs = startRegs m 0x17000 (BitVec.ofNat 32 (s.eng pe).faultWords) ((s.eng pe).stackTop 0) ∧ e1.threads = (s.eng pe).threads ∧
      e1.store = Mem.wrN (s.eng pe).store 0x17000 (leBytes 8 s.time.number ++
        leBytes 4 (b2n (!(s.eng pe).faultCh.isEmpty) + 2 * b2n (s.mb (mbToGroom (s.leng pe))).full)) := by
  unfold State.startGroom
  rw [h]
  exact ⟨_, _, rfl, rfl, rfl, rfl, rfl, rfl⟩

/-- What T0 finds at its start (R46, R77): its entry point, its record area in a0 with the tick and the reasons, and the fault words in a1. -/
theorem startGroom_context (s : State) (pe : Nat) : let t := s.startGroom pe
    (t.thr pe 0).st = .run ∧ (t.thr pe 0).pc = ((s.eng pe).bank.entries.getD 0 0).zeroExtend 32 ∧
      (∃ m sp, FMap.wf 0 m = true ∧ (t.thr pe 0).regs = startRegs m 0x17000 (BitVec.ofNat 32 (s.eng pe).faultWords) sp) ∧
      (∀ k, k ≠ 0 → t.thr pe k = s.thr pe k) ∧
      (t.eng pe).store = Mem.wrN (s.eng pe).store 0x17000 (leBytes 8 s.time.number ++
        leBytes 4 (b2n (!(s.eng pe).faultCh.isEmpty) + 2 * b2n (s.mb (mbToGroom (s.leng pe))).full)) := by
  intro t
  obtain ⟨n, hn⟩ := freeRegs_state otherRegs s []
  have hm := freeRegs_wf otherRegs s [] rfl
  rcases hpair : freeRegs otherRegs s [] with ⟨m, s1⟩
  rw [hpair] at hn hm
  subst hn
  obtain ⟨e1, x, ht, hxst, hxpc, hxregs, hthreads, hstore⟩ := startGroom_shape (pe := pe) hpair
  have hxne : x ≠ Thread.reset := thread_ne_reset _ (Or.inr (Or.inr (by rw [hxst]; decide)))
  have hthr0 : (e1.setThr 0 x).thr 0 = x := thr_setThr _ _ _ hxne
  have heng : t.eng pe = e1.setThr 0 x := by
    rw [show t = _ from ht]
    exact eng_setEng _ _ _ (engine_ne (k := 0) (by rw [hthr0]; exact hxne))
  have hx : t.thr pe 0 = x := by
    unfold State.thr
    rw [heng, hthr0]
  refine ⟨by rw [hx, hxst], by rw [hx, hxpc], ⟨_, _, hm, by rw [hx, hxregs]⟩, fun k hk => ?_, by rw [heng]; exact hstore⟩
  unfold State.thr
  rw [heng, thr_setThr_other _ _ _ _ hk]
  unfold Engine.thr
  rw [hthreads]

/-- The reasons of a groom's start, as its record area shows them (R77). -/
theorem groomReasons_eq (e : Engine) (full : Bool) :
    b2n (!e.faultCh.isEmpty) + 2 * b2n full = (if e.faultCh = [] then 0 else 1) + (if full = true then 2 else 0) := by
  cases e.faultCh <;> cases full <;> rfl

/-- A live worker that waits on an empty channel, or on a thread that is still live, is blocked (R83). -/
theorem blocked_of {s : State} {pe k : Nat} (hheld : (s.thr pe k).held = false)
    (hwait : (∃ ch rd, (s.thr pe k).st = .recv ∧ (s.thr pe k).blk = .recv ch rd ∧ (s.thr pe k).chan ch = []) ∨
      ∃ mask rd d, (s.thr pe k).st = .join ∧ (s.thr pe k).blk = .join mask rd ∧ Claims.Named k mask.toNat d ∧ (s.thr pe d).st ≠ .free) :
    (s.eng pe).blocked k = true := by
  unfold State.thr at hheld hwait
  unfold Engine.blocked
  dsimp only
  rcases hwait with ⟨ch, rd, hst, hblk, hchan⟩ | ⟨mask, rd, d, hst, hblk, hd, hlive⟩
  · rw [hheld, hst, hblk]
    dsimp only
    rw [hchan]
    rfl
  · rw [hheld, hst, hblk]
    dsimp only
    rw [joinStatus_none hd hlive]
    rfl

/-- The wait monitor reports a yard whose live workers all wait, with no message under way to it (R83, R84). -/
theorem mutualWait_of {s : State} {y : Nat} (hyard : (s.logicalYard y).isSome = true) (hphase : s.time.phase = .work) (hlive : s.liveSet y ≠ [])
    (hall : ∀ p ∈ s.liveSet y, (s.eng p.1).blocked p.2 = true) (hflight : s.inFlightTo ((s.logicalYard y).getD 0) = false)
    (hreported : (s.yard y).reported = false) : s.mutualWait y = true := by
  obtain ⟨ly, hly⟩ := Option.isSome_iff_exists.mp hyard
  rw [hly] at hflight
  unfold State.mutualWait
  rw [hly]
  dsimp only
  rw [decide_eq_true hphase, List.isEmpty_eq_false_iff.mpr hlive, List.all_eq_true.mpr hall, show s.inFlightTo ly = false from hflight, hreported]
  rfl

/-! ### O6 -/

/-- Settles O6: FORK and JOIN at their issue cycle, then the unblocking of a JOIN, the start of a groom and the report of a mutual wait. -/
theorem forksJoinsAndGroomsRun : Obligations.ForksJoinsAndGroomsRun := by
  unfold Obligations.ForksJoinsAndGroomsRun
  refine ⟨fun s i c lend h rd rs1 rs2 => ?instructions, fun s eng thr mask rd v hst hb hv => joinUnblock_returns hst hb hv,
    fun s eng hactive hfree hphase hprog hdue => ?groom, fun s yard hyard hphase hlive hall hflight hreported => ?wait⟩
  case instructions =>
    intro pe k s1 x pc
    have hfork := execFork_eq h rd rs1 rs2
    dsimp only at hfork
    refine ⟨fun hk => ⟨hfork.trans (congrArg _ (if_pos hk)), (execJoin_eq h rd rs1).trans (congrArg _ (if_pos hk))⟩, fun hk hodd => ?misaligned,
      fun hk heven hout => ?outside, fun hk heven hpc hno => ?noFree, fun hk heven hpc d h1 h8 hst hleast => ?starts,
      fun hk heven hlt v hv => ⟨_, join_returns h rd rs1 hk heven hlt hv, writeBack_only s i c lend 1 rd.val v⟩,
      fun hk heven hlt ⟨d, hd, hst⟩ => join_blocks h rd rs1 hk heven hlt hd hst⟩
    case misaligned => rw [hfork, if_neg hk, if_pos hodd]
    case outside =>
      change ((s.running i).reg rs1.val).toNat % 2 = 0 at heven
      rw [hfork, if_neg hk, if_neg (by omega), if_pos hout]
    case noFree =>
      change ((s.running i).reg rs1.val).toNat % 2 = 0 at heven
      change ((s.running i).reg rs1.val).toNat < 0x4000 at hpc
      rw [if_neg hk, if_neg (by omega), if_neg (by omega), freeCtx_takeCycle_none hno] at hfork
      exact ⟨_, hfork, writeBack_only s i c lend 2 rd.val 0⟩
    case starts =>
      obtain ⟨t, m, sp, ht, hthr, hm, hrun, htpc, hparent, hregs, hsp, hothers, hengs⟩ := fork_starts h rd rs1 rs2 hk heven hpc h1 h8 hst hleast
      obtain ⟨h10, h11, h2⟩ := startRegs_reads hm hregs
      exact ⟨t, ht, hthr, hrun, htpc, hparent, h10, h11, h2.trans hsp, hothers, hengs⟩
  case groom =>
    obtain ⟨hrun, hpc, ⟨m, sp, hm, hregs⟩, hothers, hstore⟩ := startGroom_context s eng.val
    obtain ⟨h10, h11, _⟩ := startRegs_reads hm hregs
    refine ⟨_, congrArg Host.Outcome.next (startGroom_eq hactive hfree hphase hprog hdue), hrun, hpc, h10, h11, hothers, ?_⟩
    rw [hstore, groomReasons_eq]
  case wait =>
    intro pes s1
    have hblocked : ∀ p ∈ s.liveSet yard.val, (s.eng p.1).blocked p.2 = true := fun p hp => blocked_of (hall p hp).1 (hall p hp).2
    exact congrArg Host.Outcome.next (if_pos (mutualWait_of hyard hphase hlive hblocked hflight hreported))

end Sys2Proof.Machine
end

section
/-!
SUPPORT. The packet instructions (R38, R50 to R52, R129, R165, R166, R271): what each does at its issue cycle, and the theorem that settles O8.
-/

namespace Sys2Proof.Machine

open Sys2Proof

set_option Elab.async false

/-! ### Operands and blocks -/

/-- The low half of a word, as a name. -/
theorem ofNat_half (w : Word) : BitVec.ofNat 16 w.toNat = w.setWidth 16 := BitVec.ofNat_toNat 16 w

/-- A keep name is one of 1 to 0x3FFF (R148). -/
theorem isKeep_iff {w : Word} (h : w.toNat < 65536) : isKeep (w.setWidth 16) = true ↔ 0 < w.toNat ∧ w.toNat ≤ 0x3FFF := by
  have hw : (w.setWidth 16).toNat = w.toNat := by
    rw [BitVec.toNat_setWidth]
    exact Nat.mod_eq_of_lt h
  unfold isKeep
  rw [Bool.and_eq_true, decide_eq_true_eq, decide_eq_true_eq, hw]
  omega

/-- A block in the data store has no cause. -/
theorem blockCause_none {a : Word} {n : Nat} (h : Claims.Block a n) : blockCause a.toNat n = none := by
  obtain ⟨h0, h1, h2⟩ := h
  rw [blockCause, if_neg (by omega), if_pos ⟨h1, h2⟩]

/-- A misaligned block. -/
theorem blockCause_misaligned {a n : Nat} (h : a % n ≠ 0) : blockCause a n = some 2 := if_pos h

/-- An aligned block outside the data store. -/
theorem blockCause_access {a n : Nat} (h0 : a % n = 0) (h : a < 0x10000 ∨ 0x18000 ≤ a) : blockCause a n = some 3 := by
  rw [blockCause, if_neg (by omega), if_neg (by omega)]

/-- The data store is as it was after an issue cycle. -/
theorem storeBytes_take (s : State) (pe k c lend a n : Nat) : (s.takeCycle pe k c lend).storeBytes pe a n = s.storeBytes pe a n := by
  unfold State.storeBytes
  rw [eng_takeCycle]
  rfl

section
variable {s : State} {i : Issue} {c lend : Nat}

/-- An instruction that keeps an effect for the end of its item, and returns 0 (R52). -/
theorem effect_only (s : State) (i : Issue) (c lend lat rd : Nat) (f : Effect) :
    s.OnlyContext (((s.takeCycle i.eng.val i.thr.val c lend).modThr i.eng.val i.thr.val (fun t => { t with effects := t.effects ++ [f] })).writeBack i c lat rd 0)
      i.eng.val i.thr.val ((({ s.running i with effects := (s.running i).effects ++ [f] } : Thread).done i c lat).setReg rd 0) := by
  have hne : ({ (s.running i).charge c with effects := ((s.running i).charge c).effects ++ [f] } : Thread) ≠ Thread.reset :=
    thread_ne_reset _ (Or.inl (Nat.succ_ne_zero _))
  obtain ⟨honly, hcyc⟩ := only_modThr (takeCycle_only s i.eng.val i.thr.val c lend) (fun t => { t with effects := t.effects ++ [f] })
    (cyc_takeCycle s i.eng.val i.thr.val c lend) hne
  have hpc : State.nextPc ((s.takeCycle i.eng.val i.thr.val c lend).modThr i.eng.val i.thr.val (fun t => { t with effects := t.effects ++ [f] })) i =
      (s.running i).pc + (if i.compressed then 2 else 4) := by
    unfold State.nextPc
    rw [honly.2.2.2.1]
    rfl
  unfold State.writeBack State.retire
  rw [hpc, done_setReg]
  exact (only_modThr honly _ hcyc (thread_ne_reset _ (Or.inr (Or.inl (Nat.succ_ne_zero _))))).1

/-! ### At the issue cycle -/

/-- The registers that an instruction reads at its issue cycle. -/
theorem reg_takeCycle (s : State) (i : Issue) (c lend r : Nat) :
    ((s.takeCycle i.eng.val i.thr.val c lend).thr i.eng.val i.thr.val).reg r = (s.running i).reg r := by
  rw [thr_takeCycle]
  rfl

/-- What PKSEL does (R50, R67). -/
theorem execPksel_eq (h : s.Issues i c lend) {it : Item} (hit : (s.eng i.eng.val).itemOf i.thr.val = some it) (rs1 : Fin 32) :
    exec (.pksel i rs1) s = .next (
      let s1 := s.takeCycle i.eng.val i.thr.val c lend
      let n := ((s.running i).reg rs1.val).toNat
      match it.arrivals[n]? with
      | some a => if a.handle = 0 then s1.faultFree i.eng.val i.thr.val 6 else s1.retire i c 2 (s1.nextPc i) (fun t => { t with sel := some n })
      | none => s1.faultFree i.eng.val i.thr.val 6) := by
  show (Host.Outcome.next (s.issue i _) : Answer) = _
  rw [issue_eq h]
  dsimp only
  rw [itemOf_take, hit, thr_takeCycle] <;> rfl

/-- What BFALLOC does (R50, R152). -/
theorem execBfalloc_eq (h : s.Issues i c lend) {it : Item} (hit : (s.eng i.eng.val).itemOf i.thr.val = some it) (rd rs1 : Fin 32) (bad : Bool)
    {o : Option Word} {s2 : State} (halloc : (s.takeCycle i.eng.val i.thr.val c lend).allocChecked bad (((s.running i).reg rs1.val).toNat % 2 ^ 31)
      (((s.running i).reg rs1.val).getLsbD 31) it.owner = (o, s2)) :
    exec (.bfalloc i rd rs1 bad) s = .next (match (generalizing := false) o with
      | some w => (if i.thr.val = 0 then s2.modThr i.eng.val 0 (fun t => { t with took := w :: t.took }) else s2).writeBack i c 8 rd.val w
      | none => State.writeBack { s2 with pools := { s2.pools with engNoBuf := bump s2.pools.engNoBuf it.inst.toNat 1 } } i c 8 rd.val 0) := by
  show (Host.Outcome.next (s.issue i _) : Answer) = _
  rw [issue_eq h]
  dsimp only [-Nat.reducePow]
  rw [itemOf_take, hit]
  dsimp only [-Nat.reducePow]
  rw [reg_takeCycle, bitOf_toNat, halloc]
  cases o <;> rfl

/-- What BFOWN does (R50, R148). -/
theorem execBfown_eq (h : s.Issues i c lend) (rd rs1 rs2 : Fin 32) : exec (.bfown i rd rs1 rs2) s = .next (
    let s1 := s.takeCycle i.eng.val i.thr.val c lend
    let a := (s.running i).reg rs1.val
    let b := (s.running i).reg rs2.val
    if (!s.isLive a || decide (65536 ≤ b.toNat) || !isKeep (b.setWidth 16)) = true then s1.faultFree i.eng.val i.thr.val 6
    else match s1.addOwner a (b.setWidth 16) with
      | some s2 => s2.writeBack i c 8 rd.val 0
      | none => s1.writeBack i c 8 rd.val 9) := by
  show (Host.Outcome.next (s.issue i _) : Answer) = _
  rw [issue_eq h]
  dsimp only
  rw [reg_takeCycle, reg_takeCycle, ofNat_half] <;> rfl

/-- What BFFREE does (R50, R52, R149). -/
theorem execBffree_eq (h : s.Issues i c lend) (rd rs1 rs2 : Fin 32) (bad : Bool) : exec (.bffree i rd rs1 rs2 bad) s = .next (
    let s1 := s.takeCycle i.eng.val i.thr.val c lend
    let a := (s.running i).reg rs1.val
    let b := (s.running i).reg rs2.val
    if (bad && s.isLive a) = true then (s1.loseEntry a).checkFault i.eng.val i.thr.val a
    else if 65536 ≤ b.toNat ∨ s.ownedBy a (b.setWidth 16) = false then
      ((s1.modPool (hPool a) (fun p => { p with foreign := p.foreign + 1 })).log 0x0701 a.toNat (b.toNat % 65536)).faultFree i.eng.val i.thr.val 6
    else (s1.modThr i.eng.val i.thr.val (fun t => { t with effects := t.effects ++ [.free a (b.setWidth 16)] })).writeBack i c 8 rd.val 0) := by
  show (Host.Outcome.next (s.issue i _) : Answer) = _
  rw [issue_eq h]
  dsimp only
  rw [reg_takeCycle, reg_takeCycle, ofNat_half] <;> rfl

/-- What ENQ does with a block in the data store (R50, R165, R166). -/
theorem execEnq_eq (h : s.Issues i c lend) (rd rs1 rs2 : Fin 32) (hb : Claims.Block ((s.running i).reg rs2.val) 16) : exec (.enq i rd rs1 rs2) s = .next (
    let s1 := s.takeCycle i.eng.val i.thr.val c lend
    let a := (s.running i).reg rs1.val
    let block := s.storeBytes i.eng.val ((s.running i).reg rs2.val).toNat 16
    if (!s.isLive a) = true then s1.faultFree i.eng.val i.thr.val 6
    else match s1.judgeEnq i.eng.val i.thr.val (fieldLe block 0 2) (enqFrame a block) with
      | none => s1.writeBack i c 4 rd.val 0x0A
      | some f => (s1.modThr i.eng.val i.thr.val (fun t => { t with effects := t.effects ++ [.enq (fieldLe block 0 2) f] })).writeBack i c 4 rd.val 0) := by
  show (Host.Outcome.next (s.issue i _) : Answer) = _
  rw [issue_eq h]
  dsimp only
  rw [reg_takeCycle, reg_takeCycle, blockCause_none hb]
  dsimp only
  rw [storeBytes_take] <;> rfl

/-- What POST does with a block in the data store (R50, R51). -/
theorem execPost_eq (h : s.Issues i c lend) {it : Item} (hit : (s.eng i.eng.val).itemOf i.thr.val = some it) (rd rs1 rs2 : Fin 32)
    (hb : Claims.Block ((s.running i).reg rs2.val) 64) : exec (.post i rd rs1 rs2) s = .next (
    let s1 := s.takeCycle i.eng.val i.thr.val c lend
    let a := (s.running i).reg rs1.val
    let block := s.storeBytes i.eng.val ((s.running i).reg rs2.val).toNat 64
    if a.toNat = 0 ∨ 8 < a.toNat ∨ postBlockOk a.toNat block = false then s1.writeBack i c 4 rd.val 0x0A
    else if (s1.unitFull a.toNat || s.holdRefuses a.toNat it.inst) = true then s1.writeBack i c 4 rd.val 9
    else (s1.modThr i.eng.val i.thr.val (fun t => { t with effects := t.effects ++ [.post {
        stamp := s.stamp (itemSrc it.inst (s.leng i.eng.val)), unit := a.toNat, block := block, leng := s.leng i.eng.val, inst := it.inst, gen := it.gen, op := it.op, owner := it.owner }] })).writeBack i c 4 rd.val 0) := by
  show (Host.Outcome.next (s.issue i _) : Answer) = _
  rw [issue_eq h]
  dsimp only
  rw [reg_takeCycle, reg_takeCycle, blockCause_none hb, itemOf_take, hit]
  dsimp only
  rw [storeBytes_take] <;> rfl

/-- What TLKP does with a block in the data store, on a table that engines may look up (R50, R129). -/
theorem execTlkp_found (h : s.Issues i c lend) (rd rs1 rs2 : Fin 32) (fail : Option LookupFail) (hb : Claims.Block ((s.running i).reg rs2.val) 64)
    {tab : Table} {failed : Bool} {found : Option (Entry × Nat)} {reads lat : Nat} {s2 s3 : State}
    (hn : ((s.running i).reg rs1.val).toNat ≤ 63) (htab : s.cls.cur.table ((s.running i).reg rs1.val).toNat = some tab) (heng : tab.engine = true)
    (hlook : (s.takeCycle i.eng.val i.thr.val c lend).lookupChecked ((s.running i).reg rs1.val).toNat tab
      (s.storeBytes i.eng.val ((s.running i).reg rs2.val).toNat 40) fail = (failed, found, reads, s2)) (hlat : dramReadsLat reads s2 = (lat, s3)) :
    exec (.tlkp i rd rs1 rs2 fail) s = .next (if failed = true then s3.fault i.eng.val i.thr.val 7 ((s.running i).reg rs2.val) else match (generalizing := false) found with
      | some (e, m) => (s3.writePlace i.eng.val i.thr.val (.store ((s.running i).reg rs2.val).toNat) (lookupBlock e m)).writeOwed i c (20 + lat) rd.val 0
      | none => s3.writeOwed i c (20 + lat) rd.val 0x11) := by
  have htab' : (s.takeCycle i.eng.val i.thr.val c lend).cls.cur.table ((s.running i).reg rs1.val).toNat = some tab := htab
  show (Host.Outcome.next (s.issue i _) : Answer) = _
  rw [issue_eq h]
  dsimp only
  rw [reg_takeCycle, reg_takeCycle, blockCause_none hb]
  dsimp only
  rw [if_pos hn, htab']
  dsimp only
  rw [heng, storeBytes_take, hlook]
  dsimp only
  rw [hlat] <;> rfl

/-- TLKP on a table that does not exist or that engines may not look up (R50). -/
theorem execTlkp_noTable (h : s.Issues i c lend) (rd rs1 rs2 : Fin 32) (fail : Option LookupFail) (hb : Claims.Block ((s.running i).reg rs2.val) 64)
    (hno : 63 < ((s.running i).reg rs1.val).toNat ∨ s.cls.cur.table ((s.running i).reg rs1.val).toNat = none ∨
      ∃ tab, s.cls.cur.table ((s.running i).reg rs1.val).toNat = some tab ∧ tab.engine = false) :
    exec (.tlkp i rd rs1 rs2 fail) s = .next ((s.takeCycle i.eng.val i.thr.val c lend).writeOwed i c 20 rd.val 8) := by
  have hcls : (s.takeCycle i.eng.val i.thr.val c lend).cls = s.cls := rfl
  show (Host.Outcome.next (s.issue i _) : Answer) = _
  rw [issue_eq h]
  dsimp only
  rw [reg_takeCycle, reg_takeCycle, blockCause_none hb, hcls]
  dsimp only
  by_cases hn : ((s.running i).reg rs1.val).toNat ≤ 63
  · rw [if_pos hn]
    rcases hno with h63 | hnone | ⟨tab, htab, heng⟩
    · omega
    · rw [hnone]
    · rw [htab]
      dsimp only
      rw [heng]
      rfl
  · rw [if_neg hn]

/-- ENQ, POST and TLKP of a block that is not in the data store fault before any effect (R38). -/
theorem block_faults (h : s.Issues i c lend) (rd rs1 rs2 : Fin 32) (fail : Option LookupFail) {e : Instr} {n cause : Nat}
    (he : (e = Instr.enq i rd rs1 rs2 ∧ n = 16) ∨ ((e = .post i rd rs1 rs2 ∨ e = .tlkp i rd rs1 rs2 fail) ∧ n = 64))
    (hc : blockCause ((s.running i).reg rs2.val).toNat n = some cause) :
    exec e s = .next ((s.takeCycle i.eng.val i.thr.val c lend).fault i.eng.val i.thr.val cause ((s.running i).reg rs2.val)) := by
  rcases he with ⟨rfl, rfl⟩ | ⟨rfl | rfl, rfl⟩ <;>
  · show (Host.Outcome.next (s.issue i _) : Answer) = _
    rw [issue_eq h]
    dsimp only
    rw [reg_takeCycle, reg_takeCycle, hc]

end

/-! ### O8 -/

/-- Settles O8: each packet instruction by what it does at its issue cycle. -/
theorem packetInstructionsComplete : Obligations.PacketInstructionsComplete := by
  unfold Obligations.PacketInstructionsComplete
  intro s i c lend h it rd rs1 rs2 pe k s1 x a b gives keeps hit
  have hpksel := execPksel_eq h hit rs1
  have hbfown := execBfown_eq h rd rs1 rs2
  have hbffree := execBffree_eq h rd rs1 rs2
  dsimp only at hpksel hbfown hbffree
  have hgood : s.isLive a = true → 0 < b.toNat → b.toNat ≤ 0x3FFF → ¬ (!s.isLive a || decide (65536 ≤ b.toNat) || !isKeep (b.setWidth 16)) = true := by
    intro hlive h0 hle
    rw [hlive, decide_eq_false (by omega), (isKeep_iff (by omega)).mpr ⟨h0, hle⟩]
    simp
  refine ⟨fun arr harr => ⟨fun hh => ?selects, fun hh => ?noBuffer⟩, fun hno => ?noArrival, fun bad w s2 hs2 => ?allocates, fun bad s2 hs2 => ?exhausted,
    fun hbad => ?ownBad, fun hlive h0 hle => ⟨fun hfull => ?ownFull, fun s2 hs2 => ?owns⟩, fun hlt hown => ?frees, fun hlive => ?freeCheck,
    fun bad hok hno => ?freeForeign, fun hb => ?enq, fun hb => ?post, fun fail hb => ?tlkp, fun e n fail he => ⟨fun hmis => ?misaligned, fun h0 hout => ?outside⟩⟩
  case selects =>
    rw [harr] at hpksel
    dsimp only at hpksel
    rw [if_neg hh, nextPc_take] at hpksel
    exact ⟨_, hpksel, retire_only s i c lend 2 _ (fun t => { t with sel := some a.toNat })⟩
  case noBuffer =>
    rw [harr] at hpksel
    exact hpksel.trans (congrArg _ (if_pos hh))
  case noArrival => rw [hpksel, hno]
  case allocates => exact execBfalloc_eq h hit rd rs1 bad hs2
  case exhausted => exact execBfalloc_eq h hit rd rs1 bad hs2
  case ownBad =>
    refine hbfown.trans (congrArg _ (if_pos ?_))
    rw [Bool.or_eq_true, Bool.or_eq_true, decide_eq_true_eq, Bool.not_eq_true', Bool.not_eq_true']
    by_cases hlt : b.toNat < 65536
    · rcases hbad with hdead | hname
      · exact Or.inl (Or.inl hdead)
      · exact Or.inr (Bool.eq_false_iff.mpr (fun hk => by have := (isKeep_iff hlt).mp hk; omega))
    · exact Or.inl (Or.inr (Nat.not_lt.mp hlt))
  case ownFull => exact ⟨_, (hbfown.trans (congrArg _ (if_neg (hgood hlive h0 hle)))).trans (by simp only [s1, a, b] at hfull; rw [hfull]), writeBack_only s i c lend 8 rd.val 9⟩
  case owns => exact (hbfown.trans (congrArg _ (if_neg (hgood hlive h0 hle)))).trans (by simp only [s1, a, b] at hs2; rw [hs2])
  case frees =>
    refine ⟨_, (hbffree false).trans ?_, effect_only s i c lend 8 rd.val _⟩
    rw [if_neg (by simp), if_neg (by rw [hown]; simp; exact hlt)]
  case freeCheck => exact (hbffree true).trans (congrArg _ (if_pos (by rw [hlive]; rfl)))
  case freeForeign =>
    refine (hbffree bad).trans (congrArg _ ((if_neg ?_).trans (if_pos hno)))
    rcases hok with h0 | h0
    · rw [h0]; simp
    · rw [h0, Bool.and_false]; decide
  case enq =>
    intro block judged
    have henq := execEnq_eq h rd rs1 rs2 hb
    dsimp only at henq
    refine ⟨fun hdead => ?_, fun hlive hj => ?_, fun hlive f hj => ?_⟩
    · exact henq.trans (congrArg _ (if_pos (by rw [hdead]; rfl)))
    · exact ⟨_, (henq.trans (congrArg _ (if_neg (by rw [hlive]; decide)))).trans (by simp only [judged, block, s1, a, b] at hj; rw [hj]), writeBack_only s i c lend 4 rd.val _⟩
    · exact ⟨_, (henq.trans (congrArg _ (if_neg (by rw [hlive]; decide)))).trans (by simp only [judged, block, s1, a, b] at hj; rw [hj]), effect_only s i c lend 4 rd.val _⟩
  case post =>
    intro block bad full
    have hpost := execPost_eq h hit rd rs1 rs2 hb
    dsimp only at hpost
    refine ⟨fun hbad => ?_, fun hok hfull => ?_, fun hok hroom => ?_⟩
    · exact ⟨_, hpost.trans (congrArg _ (if_pos hbad)), writeBack_only s i c lend 4 rd.val _⟩
    · exact ⟨_, hpost.trans (congrArg _ ((if_neg hok).trans (if_pos ((Bool.or_eq_true _ _).mpr hfull)))), writeBack_only s i c lend 4 rd.val _⟩
    · exact ⟨_, hpost.trans (congrArg _ ((if_neg hok).trans (if_neg (fun hf => hroom ((Bool.or_eq_true _ _).mp hf))))), effect_only s i c lend 4 rd.val _⟩
  case tlkp =>
    refine ⟨fun hno => ⟨_, execTlkp_noTable h rd rs1 rs2 fail hb hno, owed_only s i c lend 20 rd.val 8⟩, ?_⟩
    exact fun tab failed found reads s2 lat s3 hn htab heng hlook hlat => execTlkp_found h rd rs1 rs2 fail hb hn htab heng hlook hlat
  case misaligned => exact block_faults h rd rs1 rs2 fail he (blockCause_misaligned hmis)
  case outside => exact block_faults h rd rs1 rs2 fail he (blockCause_access h0 hout)

end Sys2Proof.Machine
end

section
/-!
SUPPORT. The feed and its hold-up (R449 to R455, R480): the theorem that settles O9.
-/

namespace Sys2Proof.Machine

open Sys2Proof

set_option Elab.async false

/-- When the warning is due (R452). -/
theorem warnDue_iff (p : Power) (mv : Nat) : warnDue p mv = true ↔ Claims.WarnDue p mv := by
  unfold warnDue Claims.WarnDue
  rw [Bool.or_eq_true, decide_eq_true_eq, decide_eq_true_eq]

/-- The SP runs, and may append, from the end of repair until a warning (R416, R453). -/
theorem spRuns_of {s : State} (hgood : s.power.pwrGood = true) (hstage : s.boot.stage ≠ .waitRepair) (hwarn : s.power.warn = false) : s.spRuns = true := by
  rw [State.spRuns, hgood, decide_eq_true hstage, hwarn]
  rfl

/-- It does not run while PWR_GOOD is low. -/
theorem spRuns_noPower {s : State} (hgood : s.power.pwrGood = false) : s.spRuns = false := by
  rw [State.spRuns, hgood]
  rfl

/-- The state in which the bank takes over: what VIN measures below 5.5 V is free (R449). -/
def State.onBank (s : State) : State :=
  { s.tickFree with power := { s.power with st := .rideThrough, vinMv := Config.freeNat s.freeCtr % 5500, inSag := false } }

/-- The same with the interruption counted in the journal, if the SP runs (R416, R455). -/
def State.interrupted (s : State) : State :=
  if s.onBank.spRuns then { s.onBank.jAppend 8 (s.jLast 8 + 1) with power := { s.onBank.power with prevUnsafe := some (s.jLast 8) } } else s.onBank

/-- The interruption of a feed. -/
theorem feedInterruption_eq {s : State} (hst : s.power.st = .feed) : exec .feedInterruption s = .next
    (if warnDue s.interrupted.power s.interrupted.power.holdupMv then s.interrupted.warnOn s.interrupted.power.holdupMv else s.interrupted) :=
  congrArg Host.Outcome.next (if_neg (not_not.mpr hst))

/-- Whether the warning is due does not hang on the count. -/
theorem interrupted_power (s : State) : s.interrupted.power.st = .rideThrough ∧ s.interrupted.power.holdupMv = s.power.holdupMv ∧
    ∀ mv, warnDue s.interrupted.power mv = warnDue s.power mv := by
  unfold State.interrupted
  cases s.onBank.spRuns <;> exact ⟨rfl, rfl, fun _ => rfl⟩

/-- While the warning is not due an interruption leaves the feed alone. -/
theorem feedInterruption_rides {s : State} (hst : s.power.st = .feed) (hno : ¬ Claims.WarnDue s.power s.power.holdupMv) :
    exec .feedInterruption s = .next s.interrupted := by
  obtain ⟨_, hmv, hdue⟩ := interrupted_power s
  refine (feedInterruption_eq hst).trans (congrArg _ (if_neg ?_))
  rw [hdue, hmv]
  exact fun h => hno ((warnDue_iff _ _).mp h)

/-- The state in which the feed has returned (R449). -/
def State.fed (s : State) (mv : Nat) : State := { s with power := { s.power with st := .feed, vinMv := mv, warn := false } }

/-- The feed's return, with the count taken back if the SP runs (R455). -/
theorem feedReturn_eq {s : State} {mv : Nat} (hst : s.power.st = .rideThrough ∨ s.power.st = .warned) (hmv : 6000 ≤ mv) :
    exec (.feedReturn mv) s = .next (match s.power.prevUnsafe with
      | some n => if (s.fed mv).spRuns then { (s.fed mv).jAppend 8 n with power := { (s.fed mv).power with prevUnsafe := none } } else s.fed mv
      | none => s.fed mv) :=
  congrArg Host.Outcome.next (if_pos ⟨hst, hmv⟩)

/-- Settles O9: each command of the feed acts in its power states, and is the identity in the others. -/
theorem feedCommandsFollowThePowerStates : Obligations.FeedCommandsFollowThePowerStates := by
  unfold Obligations.FeedCommandsFollowThePowerStates
  intro s mv straps p
  refine ⟨fun hst hmv => congrArg _ (if_pos ⟨hst, hmv⟩), fun hno => congrArg _ (if_neg (fun h => hno.elim (fun h' => h' h.1) (fun h' => absurd h.2 (Nat.not_le.mpr h')))),
    fun hst hgood hreset => congrArg _ (if_pos ⟨hst, hgood, hreset⟩), fun hno => congrArg _ (if_neg ?noBoot),
    fun hst hlo hhi => congrArg _ (if_pos ⟨hst, hlo, hhi⟩), fun hst hgood hstage hwarn hno => ?counted, fun hst hgood hno => ?uncounted,
    fun hst hdue => ?warned, fun hst => congrArg _ (if_pos hst), fun hst hmv => ?returns, fun hst hdue => congrArg _ (if_pos ⟨hst, (warnDue_iff _ _).mpr hdue⟩),
    fun hno => congrArg _ (if_neg ?noWarning), fun hst => ⟨_, congrArg Host.Outcome.next (if_pos hst), rfl, rfl, rfl, rfl, rfl, rfl, rfl, rfl⟩,
    fun hst => congrArg _ (if_pos hst)⟩
  case noBoot =>
    rintro ⟨hst, hgood, hreset⟩
    rcases hno with h | h | h
    · exact h hst
    · rw [show s.power.pwrGood = true from h] at hgood; cases hgood
    · rw [show s.power.resetInLow = true from h] at hreset; cases hreset
  case counted =>
    have hruns : s.onBank.spRuns = true := spRuns_of (s := s.onBank) hgood hstage hwarn
    refine ⟨_, feedInterruption_rides hst hno, ?_⟩
    rw [State.interrupted, if_pos hruns]
    exact ⟨rfl, Nat.mod_lt _ (by decide), rfl, hwarn, rfl, rfl, rfl, rfl⟩
  case uncounted =>
    have hruns : s.onBank.spRuns = false := spRuns_noPower (s := s.onBank) hgood
    refine ⟨_, feedInterruption_rides hst hno, ?_⟩
    rw [State.interrupted, hruns]
    exact ⟨rfl, rfl, rfl⟩
  case warned =>
    obtain ⟨hride, hmv, hwd⟩ := interrupted_power s
    refine ⟨s.interrupted, _, feedInterruption_eq hst, ?_, hride⟩
    rw [hwd, hmv]
    exact if_pos ((warnDue_iff _ _).mpr hdue)
  case returns =>
    have hexec := feedReturn_eq hst hmv
    cases hprev : s.power.prevUnsafe with
    | none =>
      rw [hprev] at hexec
      exact ⟨_, hexec, rfl, rfl, rfl, rfl, fun _ => rfl, fun n hn => nomatch hn⟩
    | some n =>
      rw [hprev] at hexec
      dsimp only at hexec
      by_cases hruns : (s.fed mv).spRuns = true
      · rw [if_pos hruns] at hexec
        refine ⟨_, hexec, rfl, rfl, rfl, rfl, nofun, fun m hm _ _ => ?_⟩
        obtain rfl : n = m := Option.some.inj hm
        exact ⟨rfl, rfl⟩
      · rw [if_neg hruns] at hexec
        exact ⟨_, hexec, rfl, rfl, rfl, rfl, nofun, fun m _ hgood hstage => absurd (spRuns_of (s := s.fed mv) hgood hstage rfl) hruns⟩
  case noWarning =>
    rintro ⟨hst, hdue⟩
    exact hno.elim (fun h => h hst) (fun h => h ((warnDue_iff _ _).mp hdue))

end Sys2Proof.Machine
end

section
/-!
SUPPORT. Ticks and the clock (R17 to R20, R29 to R32): the theorems that settle O12 and O13.
-/

namespace Sys2Proof.Machine

open Sys2Proof

set_option Elab.async false

/-- A tick ends once its turn has been, in a supplied module. -/
theorem mayTick_iff (s : State) : s.mayTick = true ↔ s.time.phase = .turn ∧ s.power.pwrGood = true := by
  rw [State.mayTick, Bool.and_eq_true, decide_eq_true_eq]

/-- Not in another phase, nor without power. -/
theorem mayTick_false {s : State} (h : s.time.phase ≠ .turn ∨ s.power.pwrGood = false) : s.mayTick = false := by
  rw [Bool.eq_false_iff, ne_eq, mayTick_iff]
  rintro ⟨hturn, hgood⟩
  exact h.elim (fun hne => hne hturn) (fun hoff => Bool.false_ne_true (hoff.symm.trans hgood))

/-- A period change is due at a second boundary that has reached E (R32). -/
theorem periodDue_of {s : State} {code e : Nat} (hpend : s.time.pendPeriod = some (code, e)) (hzero : s.nextStart.2 = 0) (hreach : e ≤ s.nextStart.1) :
    s.periodDue = some code := by
  rw [State.periodDue, hpend]
  exact if_pos ⟨hzero, hreach⟩

/-- None is due where none is pending. -/
theorem periodDue_none {s : State} (hpend : s.time.pendPeriod = none) : s.periodDue = none := by
  rw [State.periodDue, hpend]

/-- The boundary ends the tick where it may. -/
theorem tickBoundary_eq (s : State) : exec .tickBoundary s = .next (if s.mayTick = true then s.tickOver else s) := rfl

/-- And the change of period where it is due too. -/
theorem periodChangeApply_eq (s : State) : exec .periodChangeApply s = .next (if (s.mayTick && s.periodDue.isSome) = true then s.tickOver else s) := rfl

/-- A guard of a phase and of power, as the gate and the turn test it. -/
theorem phaseGuard_iff (p q : Phase) (good : Bool) : (decide (p ≠ q) || !good) = true ↔ p ≠ q ∨ good = false := by
  rw [Bool.or_eq_true, decide_eq_true_eq, Bool.not_eq_true']

/-- In its phase and with power the guard does not hold. -/
theorem phaseGuard_not {p q : Phase} {good : Bool} (hp : p = q) (hg : good = true) : ¬ (decide (p ≠ q) || !good) = true := by
  rw [phaseGuard_iff, hg]
  exact fun h => h.elim (· hp) Bool.noConfusion

/-- The gate in the work phase of a supplied module (R23, R25). -/
theorem gate_runs {s : State} {mw : Nat} (hwork : s.time.phase = .work) (hgood : s.power.pwrGood = true) : exec (.gate mw) s =
    .next (State.gateAll
      { s with time := { s.time with phase := .commit }, power := { s.power with estimate := mw }, dev := { s.dev with gateCauses := s.causes } }).commitAll.harvestAll.noteWants := by
  show (Host.Outcome.next _ : Answer) = _
  rw [if_neg (phaseGuard_not hwork hgood)]

/-- In another phase, or without power, the gate changes nothing. -/
theorem gate_idle {s : State} {mw : Nat} (h : s.time.phase ≠ .work ∨ s.power.pwrGood = false) : exec (.gate mw) s = .next s := by
  show (Host.Outcome.next _ : Answer) = _
  rw [if_pos ((phaseGuard_iff _ _ _).mpr h)]

/-- The turn in the commit phase of a supplied module (R24). -/
theorem turn_runs {s : State} (hcommit : s.time.phase = .commit) (hgood : s.power.pwrGood = true) :
    let s2 := State.groomsLate { s.closeCommit with time := { s.closeCommit.time with phase := .turn } }
    exec .turn s = .next (if s2.periodDue.isSome = true then s2 else s2.turnWork).levelTick.takeCtrs := by
  intro s2
  show (Host.Outcome.next _ : Answer) = _
  rw [if_neg (phaseGuard_not hcommit hgood)]

/-- In another phase, or without power, the turn changes nothing. -/
theorem turn_idle {s : State} (h : s.time.phase ≠ .commit ∨ s.power.pwrGood = false) : exec .turn s = .next s := by
  show (Host.Outcome.next _ : Answer) = _
  rw [if_pos ((phaseGuard_iff _ _ _).mpr h)]

/-- A source that cannot discipline this module is not qualified (R29). -/
theorem sourceQualified_no {s : State} {src : TimeSource} (hok : s.sourceOk (TimeSource.num src) = false) : exec (.sourceQualified src) s = .next s :=
  congrArg Host.Outcome.next (if_pos (by rw [hok]; rfl))

/-- One that can is qualified, and selected where none is, the stack master at once (R30). -/
theorem sourceQualified_yes {s : State} {src : TimeSource} (hok : s.sourceOk (TimeSource.num src) = true) : exec (.sourceQualified src) s =
    .next (if s.time.source = 0 ∨ ((TimeSource.num src) = 1 ∧ s.time.source ≠ 1) then State.clockTo { s with time := s.time.setQual (TimeSource.num src) true } .acquiring (TimeSource.num src)
      else { s with time := s.time.setQual (TimeSource.num src) true }) :=
  congrArg Host.Outcome.next (if_neg (by rw [hok]; exact Bool.false_ne_true))

/-- Only the stack master has number 1. -/
theorem num_eq_one (src : TimeSource) : (TimeSource.num src) = 1 ↔ src = .stack := by
  cases src <;> decide

/-- Every source has a number, which 0 is not. -/
theorem num_ne_zero (src : TimeSource) : (TimeSource.num src) ≠ 0 := by
  cases src <;> decide

/-- A clock that changes its state or its source logs it (R30). -/
theorem clockTo_moves {s : State} {c : ClockState} {n : Nat} (h : ¬ (s.time.clock = c ∧ s.time.source = n)) :
    s.clockTo c n = State.log { s with time := { s.time with clock := c, source := n, stateNs := 0, belowNs := 0 } } 0x0201 c.code n := if_neg h

/-- A source that is selected is lost as R30 says: HOLDOVER after 300 s in LOCKED, else FREERUN with nothing left to correct. -/
theorem sourceLost_inForce {s : State} {src : TimeSource} (hsrc : s.time.source = TimeSource.num src) :
    let hold := s.time.clock = .locked ∧ 300000000000 ≤ s.time.stateNs
    let q := s.time.setQual s.time.source false
    let u := State.clockTo { s with time := if hold then q else { q with offset := 0, slew := 0 } } (if hold then .holdover else .freerun) 0
    exec (.sourceLost src) s = .next (match (generalizing := false) u.bestSource with | some n => u.clockTo .acquiring n | none => u) := by
  intro hold q u
  have hne : s.time.source ≠ 0 := fun h => num_ne_zero src (hsrc.symm.trans h)
  have hhold : (decide (s.time.clock = .locked) && decide (300000000000 ≤ s.time.stateNs)) = decide hold := (Bool.decide_and _ _).symm
  have hu : State.clockTo { s with time := if decide hold = true then q else q.keepPhase } (if decide hold = true then .holdover else .freerun) 0 = u := by
    simp only [decide_eq_true_eq]
    rfl
  have hlose : exec (.sourceLost src) s = .next s.loseSource := congrArg Host.Outcome.next (if_pos hsrc)
  rw [hlose, State.loseSource, if_neg hne]
  dsimp only
  rw [hhold, hu] <;> rfl

/-- The distance of a time of day from the nearest second lies within half a second of it (R31). -/
theorem nearestSecond (ns : Nat) :
    let n := ns % 1000000000
    let d : Int := if n ≤ 500000000 then (n : Int) else (n : Int) - 1000000000
    d ≤ 500000000 ∧ -500000000 < d ∧ ((ns : Int) - d) % 1000000000 = 0 := by
  intro n d
  have hn : n = ns % 1000000000 := rfl
  by_cases h : n ≤ 500000000
  · have hd : d = n := if_pos h
    rw [hd, hn]
    omega
  · have hd : d = n - 1000000000 := if_neg h
    rw [hd, hn]
    omega

/-- Settles O12: each row's guard decides between its effect and the state as it is; a source that is lost is R30's case by case. -/
theorem tickAndClockCommandsAct : Obligations.TickAndClockCommandsAct := by
  unfold Obligations.TickAndClockCommandsAct
  intro s mw sec ns src t
  refine ⟨fun hturn hgood => ⟨?_, ?_, ?_⟩, fun h => ⟨?_, ?_⟩, gate_runs, gate_idle, turn_runs, turn_idle, fun hok => ⟨?_, ?_⟩,
    sourceQualified_no, fun hacq hbelow => ?_, fun h => ?_, fun hne => ?_, fun hsrc => ⟨?_, ?_⟩, fun hhold hlong => ?_, fun h => ?_, fun hne => ?_, fun h3 => ?_⟩
  · rw [tickBoundary_eq, if_pos ((mayTick_iff s).mpr ⟨hturn, hgood⟩)]
  · intro code e hpend hzero hreach
    rw [periodChangeApply_eq, (mayTick_iff s).mpr ⟨hturn, hgood⟩, periodDue_of hpend hzero hreach]
    rfl
  · intro hpend
    rw [periodChangeApply_eq, periodDue_none hpend, Option.isSome_none, Bool.and_false, if_neg Bool.false_ne_true]
  · rw [tickBoundary_eq, mayTick_false h, if_neg Bool.false_ne_true]
  · rw [periodChangeApply_eq, mayTick_false h, Bool.false_and, if_neg Bool.false_ne_true]
  · intro h
    rw [sourceQualified_yes hok, if_pos]
    exact h.imp id (fun hstack => ⟨(num_eq_one src).mpr hstack.1, hstack.2⟩)
  · intro hsome hstay
    rw [sourceQualified_yes hok, if_neg]
    rintro (h0 | ⟨h1, hother⟩)
    · exact hsome h0
    · exact hstay.elim (fun hne => hne ((num_eq_one src).mp h1)) hother
  · refine (congrArg _ (if_pos ⟨hacq, hbelow⟩)).trans (congrArg Host.Outcome.next (clockTo_moves ?_))
    rintro ⟨hlocked, _⟩
    exact ClockState.noConfusion (hacq.symm.trans hlocked)
  · exact congrArg _ (if_neg (fun hboth => h.elim (· hboth.1) (Nat.not_lt.mpr hboth.2)))
  · exact congrArg _ (if_neg hne)
  · intro hnone
    refine (sourceLost_inForce hsrc).trans ?_
    rw [hnone]
  · intro n hn
    refine (sourceLost_inForce hsrc).trans ?_
    rw [hn]
  · refine (congrArg _ (if_pos ⟨hhold, hlong⟩)).trans (congrArg Host.Outcome.next (clockTo_moves ?_))
    rintro ⟨hfree, _⟩
    exact ClockState.noConfusion (hhold.symm.trans hfree)
  · exact congrArg _ (if_neg (fun hboth => h.elim (· hboth.1) (Nat.not_lt.mpr hboth.2)))
  · exact congrArg _ (if_neg hne)
  · obtain ⟨hhigh, hlow, hsecond⟩ := nearestSecond ns
    exact ⟨_, hlow, hhigh, hsecond, congrArg _ (if_pos h3)⟩

/-- Slewing takes at most 200 ppm of a period from what is left (R31), in tenths of a nanosecond. -/
theorem slew_bounds (p : Nat) (f : Int) :
    let m : Int := (p : Int) * 10 * 200 / 1000000
    let g := if f < -m then f + m else if m < f then f - m else 0
    (g - f).natAbs * 500 ≤ p ∧ g.natAbs ≤ f.natAbs := by
  intro m g
  have hm : m = (p : Int) * 10 * 200 / 1000000 := rfl
  by_cases hlow : f < -m
  · have hg : g = f + m := if_pos hlow
    omega
  · by_cases hhigh : m < f
    · have hg : g = f - m := (if_neg hlow).trans (if_pos hhigh)
      omega
    · have hg : g = 0 := (if_neg hlow).trans (if_neg hhigh)
      omega

/-- Seconds and nanoseconds carry as a sum does (R20). -/
theorem carry_second (sec n : Nat) : (sec + n / 1000000000) * 1000000000 + n % 1000000000 = sec * 1000000000 + n := by
  omega

/-- Settles O13: the fields that the boundary moves, with the clock's carry and the bounds of slewing. -/
theorem boundaryAdvancesTime : Obligations.BoundaryAdvancesTime := by
  unfold Obligations.BoundaryAdvancesTime
  intro s t p
  obtain ⟨hstep, hless⟩ := slew_bounds (periodNs s.time.period) s.time.slew
  refine ⟨rfl, rfl, (carry_second _ _).trans (Nat.add_assoc _ _ _).symm, Nat.mod_lt _ (by decide), rfl, rfl, rfl, rfl, hstep, hless, rfl, rfl⟩

end Sys2Proof.Machine
end

section
/-!
SUPPORT. The host endpoint (R181 to R207): the rows of resets, bus mastering, the link and power states, and the theorem that settles O14.
-/

namespace Sys2Proof.Machine

open Sys2Proof

set_option Elab.async false

/-- The state of a function that has been set in reset: it is not the reset configuration, which is out of reset. -/
theorem fn_setFn_flr (s : State) (fn : Nat) (f : Fn) (h : f.flr = true) : (s.setFn fn f).fn fn = f :=
  FMap.get_set_of_ne Fn.reset s.pcie.fns fn f (fun heq => Bool.noConfusion ((congrArg Fn.flr heq).symm.trans h))

/-- A function answers when it exists and is not in a reset. -/
theorem answers_iff (s : State) (fn : Nat) : (s.fnExists fn && !(s.fn fn).flr) = true ↔ s.fnExists fn = true ∧ (s.fn fn).flr = false := by
  rw [Bool.and_eq_true, Bool.not_eq_true']

/-- It does not when it is absent or in one. -/
theorem answers_not {s : State} {fn : Nat} (h : s.fnExists fn = false ∨ (s.fn fn).flr = true) : ¬ (s.fnExists fn && !(s.fn fn).flr) = true := by
  rw [answers_iff]
  rintro ⟨hex, hflr⟩
  exact h.elim (fun hno => Bool.false_ne_true (hno.symm.trans hex)) (fun hin => Bool.false_ne_true (hflr.symm.trans hin))

/-- What a reset leaves of a function (R201, R204). -/
theorem resetFn_fn (s : State) (fn : Nat) : (s.resetFn fn).fn fn =
    { Fn.reset with cfg := (s.fn fn).sticky, held := (s.fn fn).held.filter (s.isSpill fn), flr := true, badDoorbells := (s.fn fn).badDoorbells,
                    aerUncor := (s.fn fn).aerUncor, aerCor := (s.fn fn).aerCor, errPtr := (s.fn fn).errPtr, hdrLog := (s.fn fn).hdrLog,
                    lastDoorbell := (s.fn fn).lastDoorbell } :=
  fn_setFn_flr _ _ _ rfl

/-- A reset of a PF (R203). -/
theorem pfReset_eq {s : State} {pf : Fin 3} (h : s.fnExists pf.val = true ∧ (s.fn pf.val).flr = false) : exec (.pfFunctionLevelReset pf) s =
    .next (if pf = 0 then s.resetPf0 else (s.resetVfs pf.val).resetFn pf.val) := by
  have hzero : (pf.val = 0) = (pf = 0) := propext (Fin.ext_iff (a := pf) (b := 0)).symm
  refine (congrArg Host.Outcome.next (if_pos ((answers_iff _ _).mpr h))).trans ?_
  rw [State.flrPf]
  simp only [hzero]

/-- An FLR is complete when no request of the function is outstanding (R202). -/
theorem flrComplete_of {s : State} {fn : Nat} (hflr : (s.fn fn).flr = true) (hidle : s.fnBusy fn = false) : exec (.flrComplete fn) s =
    .next (match (generalizing := false) fnInst fn with
      | some n => (((s.setFn fn { s.fn fn with flr := false }).resetDone n).restoreDone n).destroyDone n
      | none => s.setFn fn { s.fn fn with flr := false }) := by
  have hgo : ((s.fn fn).flr && !s.fnBusy fn) = true := by rw [hflr, hidle]; rfl
  refine (congrArg Host.Outcome.next (if_pos hgo)).trans ?_
  cases fnInst fn <;> rfl

/-- Until then the row changes nothing. -/
theorem flrComplete_not {s : State} {fn : Nat} (h : (s.fn fn).flr = false ∨ s.fnBusy fn = true) : exec (.flrComplete fn) s = .next s := by
  have hno : ¬ ((s.fn fn).flr && !s.fnBusy fn) = true := by
    rw [Bool.and_eq_true, Bool.not_eq_true']
    rintro ⟨hflr, hidle⟩
    exact h.elim (fun hout => Bool.false_ne_true (hout.symm.trans hflr)) (fun hbusy => Bool.false_ne_true (hidle.symm.trans hbusy))
  exact congrArg Host.Outcome.next (if_neg hno)

/-- The rates, widths and modes that the link trains to (R181). -/
theorem trainable_iff (rate width : Nat) (flit : Bool) :
    trainable rate width flit = true ↔ rate ∈ [25, 50, 80, 160, 320, 640] ∧ width ∈ [1, 2, 4, 8, 16] ∧ (flit = true ∨ rate ≠ 640) := by
  rw [trainable, Bool.and_eq_true, Bool.and_eq_true, Bool.or_eq_true, decide_eq_true_eq, decide_eq_true_eq, decide_eq_true_eq, and_assoc]

/-- The state of a link that has trained. -/
def State.trained (s : State) (rate width : Nat) (flit : Bool) : State :=
  { s with pcie := { s.pcie with rateX10 := rate, width := width, flit := flit, linkUp := true, lstate := .l0, retraining := false } }

/-- A link trains where it can, and a change of rate or width is logged (R182, R429). -/
theorem retrain_of {s : State} {rate width : Nat} {flit : Bool} (hrate : rate ∈ [25, 50, 80, 160, 320, 640]) (hwidth : width ∈ [1, 2, 4, 8, 16])
    (hflit : flit = true ∨ rate ≠ 640) (hperst : s.pcie.perst = false) (hup : s.boot.endpointUp = true) :
    exec (.pcieLinkRetrain rate width flit) s = .next (if rate = s.pcie.rateX10 ∧ width = s.pcie.width then s.trained rate width flit
      else (s.trained rate width flit).log 0x0401 rate width) := by
  have hgo : ¬ (!trainable rate width flit || s.pcie.perst || !s.boot.endpointUp) = true := by
    rw [(trainable_iff _ _ _).mpr ⟨hrate, hwidth, hflit⟩, hperst, hup]
    exact Bool.false_ne_true
  refine (congrArg Host.Outcome.next (if_neg hgo)).trans (congrArg Host.Outcome.next ?_)
  by_cases hsame : rate = s.pcie.rateX10 ∧ width = s.pcie.width
  · exact (if_neg (fun h => h.elim (· hsame.1) (· hsame.2))).trans (if_pos hsame).symm
  · exact (if_pos (not_and_or.mp hsame)).trans (if_neg hsame).symm

/-- And nowhere else. -/
theorem retrain_not {s : State} {rate width : Nat} {flit : Bool} (h : rate ∉ [25, 50, 80, 160, 320, 640] ∨ width ∉ [1, 2, 4, 8, 16] ∨
    (flit = false ∧ rate = 640) ∨ s.pcie.perst = true ∨ s.boot.endpointUp = false) : exec (.pcieLinkRetrain rate width flit) s = .next s := by
  refine congrArg Host.Outcome.next (if_pos ?_)
  rw [Bool.or_eq_true, Bool.or_eq_true, Bool.not_eq_true', Bool.not_eq_true', ← Bool.not_eq_true, trainable_iff]
  rcases h with hrate | hwidth | ⟨hflit, h640⟩ | hperst | hup
  · exact .inl (.inl (fun hall => hrate hall.1))
  · exact .inl (.inl (fun hall => hwidth hall.2.1))
  · exact .inl (.inl (fun hall => hall.2.2.elim (fun hyes => Bool.false_ne_true (hflit.symm.trans hyes)) (· h640)))
  · exact .inl (.inr hperst)
  · exact .inr hup

/-- The link enters L1 from L0 when nothing is outstanding and the host lets it (R207). -/
theorem aspm_l1 {s : State} (hup : s.pcie.linkUp = true) (hl0 : s.pcie.lstate = .l0) (hidle : s.pcieIdle = true)
    (hen : bitOf ((s.fn 0).cfgField 0x80 2) 1 = true) : exec (.aspmEntry .l1) s = .next { s with pcie := { s.pcie with lstate := .l1 } } := by
  refine congrArg Host.Outcome.next (if_pos ?_)
  rw [hup, hen, hl0, hidle]
  rfl

/-- A conventional reset resets every function, and the link state is lost (R204). -/
theorem conventionalReset_eq (s : State) (c : ResetCause) :
    let s1 := [0, 1, 2].foldl (State.keepPme s) ([1, 2, 0].foldl State.flrPf s)
    let code := match c with | .linkDown => 0 | .hotReset => 1 | .perst => 2
    exec (.conventionalReset c) s = .next (State.log { s1 with pcie := { s1.pcie with linkUp := false, perst := s1.pcie.perst || decide (c = .perst), lstate := .l0, ltrUs := none, retraining := false } } 0x0402 code 0) := by
  cases c <;> rfl

/-- Settles O14: each row by its guard; a function after its reset by what `resetFn` sets. -/
theorem endpointResetsAndLinkAct : Obligations.EndpointResetsAndLinkAct := by
  unfold Obligations.EndpointResetsAndLinkAct
  refine ⟨fun s fn hex hflr => ?_, fun s fn h => ⟨congrArg Host.Outcome.next (if_neg (answers_not h)), congrArg Host.Outcome.next (if_neg (answers_not h))⟩,
    fun s sto n hex hflr => congrArg Host.Outcome.next (if_pos ((answers_iff _ _).mpr ⟨hex, hflr⟩)), fun s pf hex hflr => pfReset_eq ⟨hex, hflr⟩, fun s fn => ?_,
    fun s fn => flrComplete_of, fun s fn => flrComplete_not, conventionalReset_eq, fun s => rfl, fun s rate width flit => ⟨retrain_of, retrain_not⟩,
    fun s => ⟨?_, ?_⟩, fun s fn posted hex => congrArg Host.Outcome.next (if_pos ⟨rfl, hex⟩), fun s fn kind hkind => ?_, fun s pf => ⟨rfl, ?_, ?_, ?_, ?_⟩,
    fun s => ⟨?_, ?_, rfl, aspm_l1, ?_, ?_⟩⟩
  · have hgo := (answers_iff s fn).mpr ⟨hex, hflr⟩
    exact ⟨congrArg Host.Outcome.next (if_pos hgo), congrArg Host.Outcome.next (if_pos hgo)⟩
  · dsimp only
    rw [resetFn_fn]
    exact ⟨rfl, rfl, rfl, rfl, rfl, rfl, rfl, rfl, rfl, rfl, rfl⟩
  · simp only [List.forall_mem_cons, List.not_mem_nil, false_imp_iff, implies_true, and_true]
    exact ⟨⟨_, rfl, rfl⟩, ⟨_, rfl, rfl⟩, ⟨_, rfl, rfl⟩⟩
  · simp only [List.forall_mem_cons, List.not_mem_nil, false_imp_iff, implies_true, and_true]
    exact ⟨rfl, rfl, rfl, rfl, rfl⟩
  · have hthere : ¬ (kind = .absentFunction ∧ s.fnExists fn = true) := fun hboth =>
      hkind.elim (· hboth.1) (fun hno => Bool.false_ne_true (hno.symm.trans hboth.2))
    refine ⟨fun posted hpoison => congrArg Host.Outcome.next ((if_neg hthere).trans (if_pos hpoison)), fun hclean => ⟨?_, ?_⟩⟩ <;>
      exact congrArg Host.Outcome.next ((if_neg hthere).trans (if_neg hclean))
  · exact fun hflr => congrArg Host.Outcome.next (if_pos hflr)
  · exact fun hflr => ⟨_, congrArg Host.Outcome.next (if_neg (ne_true_of_eq_false hflr)), (ite_eq_or_eq _ _ _).symm⟩
  · exact fun hd0 => congrArg Host.Outcome.next (if_pos (by rw [hd0]; rfl))
  · exact fun hd3 => ⟨_, rfl, congrArg Host.Outcome.next (if_neg (by rw [hd3]; exact Bool.false_ne_true))⟩
  · exact fun hup => congrArg Host.Outcome.next (if_pos hup)
  · exact fun hdown => congrArg Host.Outcome.next (if_neg (ne_true_of_eq_false hdown))
  · exact fun hup => congrArg Host.Outcome.next (if_pos (by rw [hup]; rfl))
  · exact fun target hdown => congrArg Host.Outcome.next (if_neg (by rw [hdown]; exact Bool.false_ne_true))

end Sys2Proof.Machine
end

section
/-!
SUPPORT. Accesses of the host and completions of Geleath's reads (R183 to R203): the theorem that settles O15.
-/

namespace Sys2Proof.Machine

open Sys2Proof

set_option Elab.async false

/-- A read within a BAR, by who decodes it and by its size (R190, R194). -/
theorem barRead_in {s : State} {fn bar off n : Nat} (hpos : 0 < n) (hin : off + n ≤ barSize fn bar) : exec (.barRead fn bar off n) s =
    .next (if (!s.decodes fn) = true then (s.unsupported fn false).mmioFail 1
      else if 8 < n ∨ off / 8 ≠ (off + n - 1) / 8 then (s.aerUncor fn 15).mmioFail 4
      else if fn = 0 then s.readPf0 off n
      else { s with pcie := { s.pcie with lastMmio := some (s.fnRead fn bar off n), lastCpl := 0 } }) :=
  congrArg Host.Outcome.next (if_neg (fun h => h.elim (Nat.ne_of_gt hpos) (Nat.not_lt.mpr hin)))

/-- A write within a BAR, by who decodes it and by the registers that it covers (R190). -/
theorem barWrite_in {s : State} {fn bar off : Nat} {data : List Byte} (hsome : data ≠ []) (hin : off + data.length ≤ barSize fn bar) :
    exec (.barWrite fn bar off data) s = .next (if (!s.decodes fn) = true then s.unsupported fn true
      else if data.length ≠ 4 ∨ off % 4 ≠ 0 then s.log 0x0403 fn off
      else if fn = 0 then s.writePf0 off (BitVec.ofNat 32 (ofLe data))
      else if bar = 0 then (if off = 0 then s.doorbellWrite fn (BitVec.ofNat 32 (ofLe data)) else s.log 0x0403 fn off)
      else if off < (if fn < 3 then 0x8000 else 0x800) then s.tableWrite fn off (BitVec.ofNat 32 (ofLe data))
      else s.log 0x0403 fn off) :=
  congrArg Host.Outcome.next (if_neg (fun h => h.elim (fun hempty => hsome (List.isEmpty_iff.mp hempty)) (Nat.not_lt.mpr hin)))

/-- An access to a function that decodes. -/
theorem decodes_not {s : State} {fn : Nat} (h : s.decodes fn = true) : ¬ (!s.decodes fn) = true := by
  rw [h]
  exact Bool.false_ne_true

/-- One that does not. -/
theorem not_decodes {s : State} {fn : Nat} (h : s.decodes fn = false) : (!s.decodes fn) = true := by
  rw [h]
  rfl

/-- The state in which a configuration write has told the endpoint its bus number (R183). -/
def State.onBus (s : State) (bus : Byte) : State := { s with pcie := { s.pcie with bus := bus.toNat } }

/-- A function's registers after a configuration write of bytes (R185). -/
def Fn.configured (f : Fn) (fn off buses : Nat) (bs : List Byte) : Fn :=
  let c1 := cfgWrite fn f.cfg off bs
  { f with cfg := keepVfEnable fn buses f.cfg (if fn < 3 ∧ setsBit off bs 0x45 7 then Mem.wr c1 0x45 (Mem.rd c1 0x45 &&& 0x7F#8) else c1),
           aerUncor := clearOnes f.aerUncor 0x104 off bs, aerCor := clearOnes f.aerCor 0x110 off bs,
           status := (clearOnes (f.status.zeroExtend 32) 0x06 off bs).truncate 16,
           devStatus := (clearOnes (f.devStatus.zeroExtend 32) 0x7A off bs).truncate 8 }

/-- A configuration write of a width that exists, aligned and within the function's space (R185). -/
theorem configWrite_in {s : State} {fn off width : Nat} {v : Word} {bus : Byte} {buses : Nat} (hwidth : width ∈ [1, 2, 4]) (halign : off % width = 0)
    (hin : off + width ≤ 4096) : exec (.configWrite fn off width v bus buses) s = .next (
      if (!(s.onBus bus).fnExists fn) = true then ((s.onBus bus).unsupported fn false).mmioFail 1
      else if ((s.onBus bus).fn fn).flr = true then (s.onBus bus).mmioFail 2
      else if setsBit off (leBytes width v.toNat) 0x79 7 = true then (if fn < 3 then (s.onBus bus).flrPf fn else (s.onBus bus).flrVf fn).mmioFail 0
      else (((s.onBus bus).setFn fn (((s.onBus bus).fn fn).configured fn off buses (leBytes width v.toNat))).afterCfg (s.onBus bus) fn off
        (leBytes width v.toNat)).mmioFail 0) :=
  congrArg Host.Outcome.next (if_neg (fun h => h.elim (· hwidth) (fun hpos => hpos.elim (· halign) (Nat.not_lt.mpr hin))))

/-- VF Enable stays clear with fewer than 33 bus numbers (R183). -/
theorem keepVfEnable_clear {fn buses : Nat} {old new : FMap Byte} (hfn : fn = 1 ∨ fn = 2) (hfew : buses < 33)
    (hold : (Mem.rd old 0x150).getLsbD 0 = false) (hwf : FMap.wf 0 new = true) : (Mem.rd (keepVfEnable fn buses old new) 0x150).getLsbD 0 = false := by
  rw [keepVfEnable, if_pos ⟨hfn, hfew, hold⟩, Mem.rd_wr _ _ _ hwf, BitVec.getLsbD_and]
  exact Bool.and_false _

/-- It is as written on the other functions, with enough bus numbers, and when it is set already. -/
theorem keepVfEnable_written {fn buses : Nat} {old new : FMap Byte} (h : (fn ≠ 1 ∧ fn ≠ 2) ∨ 33 ≤ buses ∨ (Mem.rd old 0x150).getLsbD 0 = true) :
    keepVfEnable fn buses old new = new := by
  refine if_neg ?_
  rintro ⟨hfn, hfew, hclear⟩
  rcases h with ⟨h1, h2⟩ | hmany | hset
  · exact hfn.elim h1 h2
  · exact Nat.not_lt.mpr hmany hfew
  · exact Bool.false_ne_true (hclear.symm.trans hset)

/-- A completion for a tag in use ends its request with the status of R195. -/
theorem completion_used {s : State} {tag : Nat} {u : TagUse} {o : CplOutcome} (hu : s.tagUse tag = some u) : exec (.dmaReadCompletion tag o) s =
    .next ((s.dropTag tag).requestEnded u.req (cplStatus o) (match o with | .data b => b | _ => [])) := by
  show (Host.Outcome.next (s.completion tag o) : Answer) = _
  unfold State.completion
  rw [hu] <;> cases o <;> rfl

/-- What comes late is discarded, reported as advisory and logged (R197). -/
theorem lateCompletion_eq {s : State} {tag : Nat} {q : Nat × Nat × Nat} (hq : s.quarantineOf tag = some q) :
    s.lateCompletion tag = (s.aerAdvisory q.1 16).log 0x0406 (tag * 65536 + q.1) (s.time.tick - q.2.1) := by
  rw [State.lateCompletion, hq]

/-- A completion for no tag in use is late for one in quarantine, and unexpected otherwise (R194, R197). -/
theorem completion_unused {s : State} {tag : Nat} {o : CplOutcome} (hu : s.tagUse tag = none) : exec (.dmaReadCompletion tag o) s =
    .next (if (s.quarantineOf tag).isSome = true then s.lateCompletion tag else s.aerAdvisory 0 16) := by
  show (Host.Outcome.next (s.completion tag o) : Answer) = _
  unfold State.completion
  rw [hu]

/-- A quarantine ends at its tick (R197). -/
theorem quarantineEnd_eq {s : State} {tag : Nat} {q : Nat × Nat × Nat} (hq : s.quarantineOf tag = some q) : exec (.quarantineEnd tag) s =
    .next (if q.2.2 ≤ s.time.tick then { s with pcie := { s.pcie with quarantine := FMap.set none s.pcie.quarantine tag none } } else s) := by
  show (Host.Outcome.next (s.endQuarantine tag) : Answer) = _
  rw [State.endQuarantine, hq]

/-- The state in which a tag that timed out is in quarantine. -/
def State.quarantined (s : State) (tag : Nat) (u : TagUse) (now : Nat) : State :=
  { s with pcie := { s.pcie with quarantine := FMap.set none s.pcie.quarantine tag (some (u.req.fn, now, now + 2 * u.timeout)) } }

/-- A read times out at the first boundary after its timeout has elapsed (R196, R197). -/
theorem completionTimeout_eq {s : State} {tag : Nat} {u : TagUse} (hu : s.tagUse tag = some u) : exec (.completionTimeout tag) s =
    .next (if s.time.tick ≤ u.issued + u.timeout then s
      else (if u.orphan = true then ((s.dropTag tag).requestEnded u.req 3 []).quarantined tag u s.time.tick
        else (((s.dropTag tag).requestEnded u.req 3 []).quarantined tag u s.time.tick).aerUncor u.req.fn 14).log 0x0405 (tag * 65536 + u.req.fn)
          (s.time.tick - u.issued)) := by
  show (Host.Outcome.next (s.cplExpired tag) : Answer) = _
  rw [State.cplExpired, hu]
  rfl

/-- The oldest waiting read is issued while a tag is free (R192). -/
theorem waitingReadIssue_eq {s : State} {r : ReadReq} {rest : List ReadReq} (hwait : s.pcie.waiting = r :: rest) : exec .waitingReadIssue s =
    .next (if s.freeTag.isSome = true then State.issueRead { s with pcie := { s.pcie with waiting := rest } } r else s) := by
  show (Host.Outcome.next s.issueWaiting : Answer) = _
  rw [State.issueWaiting, hwait]

/-- Settles O15: accesses by their guards, in the order in which the endpoint tests them; completions by the tag's use and quarantine. -/
theorem hostAccessesAndCompletionsAct : Obligations.HostAccessesAndCompletionsAct := by
  unfold Obligations.HostAccessesAndCompletionsAct
  refine ⟨fun s fn bar off n hpos hin => ⟨fun hdec => ?_, fun hdec hwide => ?_, fun hdec hsmall hunit => ?_⟩,
    fun s fn bar off data hsome hin => ⟨fun hdec => ?_, fun hdec hpart => ?_, fun hdec hlen halign => ⟨fun h0 => ?_, fun h0 hbar hoff => ?_, fun h0 hbar hoff => ?_, fun h0 hbar => ?_⟩⟩,
    fun old fn off width v bus buses hwidth halign hin => ⟨fun hex => ?_, fun hex hflr => ?_, fun hex hflr hset => ?_, fun hex hflr hset => ?_⟩,
    fun fn buses old new => ⟨keepVfEnable_written, keepVfEnable_clear⟩,
    fun s tag => ⟨fun u o => completion_used, fun o hu hq => ?_, fun q hq => ⟨?_, fun hu o => ?_, fun hend => ?_, fun hyet => ?_⟩,
      fun u hu hyet => ?_, fun u hu hend => ?_, fun hu => ?_⟩,
    fun s r rest hwait => ⟨fun hfree => ?_, fun hnone => ?_⟩, fun s hempty => ?_⟩
  · rw [barRead_in hpos hin, if_pos (not_decodes hdec)]
  · rw [barRead_in hpos hin, if_neg (decodes_not hdec), if_pos hwide]
  · rw [barRead_in hpos hin, if_neg (decodes_not hdec), if_neg (fun h => h.elim (Nat.not_lt.mpr hsmall) (· hunit))]
  · rw [barWrite_in hsome hin, if_pos (not_decodes hdec)]
  · rw [barWrite_in hsome hin, if_neg (decodes_not hdec), if_pos hpart]
  · rw [barWrite_in hsome hin, if_neg (decodes_not hdec), if_neg (fun h => h.elim (· hlen) (· halign)), if_pos h0]
  · rw [barWrite_in hsome hin, if_neg (decodes_not hdec), if_neg (fun h => h.elim (· hlen) (· halign)), if_neg h0, if_pos hbar, if_pos hoff]
  · rw [barWrite_in hsome hin, if_neg (decodes_not hdec), if_neg (fun h => h.elim (· hlen) (· halign)), if_neg h0, if_pos hbar, if_neg hoff]
  · rw [barWrite_in hsome hin, if_neg (decodes_not hdec), if_neg (fun h => h.elim (· hlen) (· halign)), if_neg h0, if_neg (by omega)]
  · refine (configWrite_in hwidth halign hin).trans (congrArg Host.Outcome.next (if_pos ?_))
    exact congrArg Bool.not hex
  · refine (configWrite_in hwidth halign hin).trans (congrArg Host.Outcome.next ((if_neg ?_).trans (if_pos hflr)))
    exact ne_true_of_eq_false (congrArg Bool.not hex)
  · refine (configWrite_in hwidth halign hin).trans (congrArg Host.Outcome.next ((if_neg ?_).trans ((if_neg (ne_true_of_eq_false hflr)).trans (if_pos hset))))
    exact ne_true_of_eq_false (congrArg Bool.not hex)
  · refine ⟨_, (configWrite_in hwidth halign hin).trans (congrArg Host.Outcome.next ((if_neg ?_).trans
      ((if_neg (ne_true_of_eq_false hflr)).trans (if_neg (ne_true_of_eq_false hset))))), rfl, rfl, rfl, rfl, rfl, fun hplain => ?_⟩
    · exact ne_true_of_eq_false (congrArg Bool.not hex)
    · exact congrArg (keepVfEnable fn buses _) (if_neg (fun h => hplain.elim (Nat.not_le.mpr h.1) (fun hno => Bool.false_ne_true (hno.symm.trans h.2))))
  · rw [completion_unused hu, hq]
    rfl
  · exact congrArg Host.Outcome.next (lateCompletion_eq hq)
  · rw [completion_unused hu, hq, Option.isSome_some, if_pos rfl, lateCompletion_eq hq]
  · rw [quarantineEnd_eq hq, if_pos hend]
  · rw [quarantineEnd_eq hq, if_neg (Nat.not_le.mpr hyet)]
  · rw [completionTimeout_eq hu, if_pos hyet]
  · rw [completionTimeout_eq hu, if_neg (Nat.not_le.mpr hend)]
    rfl
  · show (Host.Outcome.next (s.cplExpired tag) : Answer) = _
    rw [State.cplExpired, hu]
  · rw [waitingReadIssue_eq hwait, if_pos hfree]
  · rw [waitingReadIssue_eq hwait, hnone]
    rfl
  · show (Host.Outcome.next s.issueWaiting : Answer) = _
    rw [State.issueWaiting, hempty]

end Sys2Proof.Machine
end

section
/-!
SUPPORT. Doorbells (R223, R224, R252 to R254, R297): the theorem that settles O16.
-/

namespace Sys2Proof.Machine

open Sys2Proof

set_option Elab.async false

/-- The queue field of a doorbell's value (R223). -/
theorem bits_upper (v : Word) : bits v.toNat 16 16 = v.toNat / 65536 := by
  have hlt : v.toNat < 4294967296 := v.isLt
  exact Nat.mod_eq_of_lt (Nat.div_lt_of_lt_mul hlt)

/-- Its tail. -/
theorem bits_lower (v : Word) : bits v.toNat 0 16 = v.toNat % 65536 := congrArg (· % 65536) (Nat.div_one _)

/-- The state of another function is not changed. -/
theorem fn_setFn_other (s : State) {fn fn' : Nat} (f : Fn) (h : fn' ≠ fn) : (s.setFn fn f).fn fn' = s.fn fn' :=
  FMap.get_set_other Fn.reset s.pcie.fns fn fn' f h

/-- The state of a function that has had a doorbell: it is not the reset configuration, which has had none. -/
theorem fn_setFn_rung (s : State) (fn : Nat) (f : Fn) (h : f.lastDoorbell = s.time.tick + 1) : (s.setFn fn f).fn fn = f :=
  FMap.get_set_of_ne Fn.reset s.pcie.fns fn f (fun heq => Nat.noConfusion ((congrArg Fn.lastDoorbell heq).symm.trans h))

/-- A function whose driver is at work: it has had its doorbell, and latency matters (R207). -/
theorem hostUse_fn (s : State) (fn : Nat) : (s.hostUse fn).fn fn = { s.fn fn with lastDoorbell := s.time.tick + 1 } := fn_setFn_rung s fn _ rfl

/-- What a write of DOORBELL leaves of its function: the value is kept, past the enabling turn for an admin tail that follows its ENABLE. -/
def Fn.rung (f : Fn) (tick field low : Nat) (late : Bool) : Fn :=
  let f1 := { f with lastDoorbell := tick + 1 }
  if late then { f1 with afterEnable := some low } else { f1 with doorbells := FMap.set none f.doorbells field (some low) }

/-- Either way the doorbell is noted. -/
theorem rung_last (f : Fn) (tick field low : Nat) (late : Bool) : (f.rung tick field low late).lastDoorbell = tick + 1 := by
  cases late <;> rfl

/-- An admin tail of a storage controller that follows its ENABLE (R297). -/
def State.lateTail (s : State) (fn field : Nat) : Bool := fnSto fn && decide (field = 0) && (s.fn fn).enabling

/-- A write of DOORBELL of another function than PF0 (R223, R252). -/
theorem doorbellWrite_kept {s : State} {fn : Nat} {v : Word} (hdec : s.decodes fn = true) (hfn : fn ≠ 0) : s.doorbellWrite fn v =
    (s.hostUse fn).setFn fn ((s.fn fn).rung s.time.tick (v.toNat / 65536) (v.toNat % 65536) (s.lateTail fn (v.toNat / 65536))) := by
  rw [State.doorbellWrite, if_neg (decodes_not hdec), if_neg hfn]
  dsimp only
  rw [bits_upper, bits_lower, hostUse_fn]
  have hlate : (fnSto fn && decide (v.toNat / 65536 = 0) && Fn.enabling { s.fn fn with lastDoorbell := s.time.tick + 1 }) = s.lateTail fn (v.toNat / 65536) := rfl
  rw [hlate]
  cases s.lateTail fn (v.toNat / 65536) <;> rfl

/-- The five rows that write DOORBELL. -/
theorem doorbell_rows {fn : Nat} {v : Word} {e : Instr}
    (he : e ∈ [Instr.doorbell fn v false, .completionHeadDoorbell fn v, .adminBaseWrite fn v, .adminCtlEnable fn v, .adminCtlDisable fn v]) (s : State) :
    exec e s = .next (s.doorbellWrite fn v) := by
  simp only [List.mem_cons, List.not_mem_nil, or_false] at he
  rcases he with rfl | rfl | rfl | rfl | rfl <;> rfl

/-- When a tail is kept past the enabling turn. -/
theorem lateTail_iff (s : State) (fn field : Nat) : s.lateTail fn field = true ↔ fnSto fn = true ∧ field = 0 ∧ (s.fn fn).enabling = true := by
  rw [State.lateTail, Bool.and_eq_true, Bool.and_eq_true, decide_eq_true_eq, and_assoc]

/-- A doorbell whose queue's state fails its check puts the queue in ERROR first (R365). -/
theorem doorbell_bad (s : State) (fn : Nat) (v : Word) : exec (.doorbell fn v true) s =
    exec (.doorbell fn v false) (if s.decodes fn = true then s.queueFailed fn (v.toNat / 65536) else s) := by
  rw [← bits_upper]
  rfl

/-- A queue that does not exist has no state to fail. -/
theorem queueFailed_none {s : State} {fn q : Nat} (h : s.queue (qKey fn q) = none) : s.queueFailed fn q = s := by
  rw [State.queueFailed, h]

/-- One that exists enters ERROR, with the event (R255, R365). -/
theorem queueFailed_some {s : State} {fn q : Nat} {v : Queue} (h : s.queue (qKey fn q) = some v) :
    s.queueFailed fn q = ((s.setQueue (qKey fn q) (some { v with error := true })).log 0x0603 fn q).sramFailed := by
  rw [State.queueFailed, h]

/-- A kept tail of a queue that exists and is not in ERROR (R254, R255). -/
theorem applyTail_eq {s : State} {fn field low : Nat} {q : Queue} (hf : field < 0x1000) (hq : s.queue (qKey fn field) = some q) (herr : q.error = false) :
    s.applyDoorbell fn field low =
      if q.size ≤ low ∨ ringDist q.size q.tail low = 0 ∨ ringDist q.size q.tail ((q.oldest + q.size - 1) % q.size) < ringDist q.size q.tail low
      then (s.setQueue (qKey fn field) (some { q with error := true })).log 0x0603 fn field
      else s.setQueue (qKey fn field) (some { q with tail := low }) := by
  rw [State.applyDoorbell, if_pos hf, State.tailWrite, hq]
  exact if_neg (ne_true_of_eq_false herr)

/-- Settles O16: a doorbell by what `Fn.rung` leaves; a kept tail by the queue that it names. -/
theorem doorbellsAreKeptAndApplied : Obligations.DoorbellsAreKeptAndApplied := by
  unfold Obligations.DoorbellsAreKeptAndApplied
  refine ⟨fun s fn v e he => ?_, fun s fn v => ⟨fun h => ?_, fun q hdec hq => ?_⟩,
    fun s fn field low hf => ⟨fun hq => ?_, fun q hq herr => ?_, fun q hq herr => ⟨fun hlow hadv hroom => ?_, fun hbad => ?_⟩⟩⟩
  · rw [doorbell_rows he]
    refine ⟨fun hdec => congrArg Host.Outcome.next (if_pos (not_decodes hdec)), fun hdec h0 => ?_, fun hdec h0 => ?_⟩
    · subst h0
      exact congrArg Host.Outcome.next ((if_neg (decodes_not hdec)).trans (if_pos rfl))
    · rw [doorbellWrite_kept hdec h0]
      have hfn := fn_setFn_rung (s.hostUse fn) fn _ (rung_last (s.fn fn) s.time.tick (v.toNat / 65536) (v.toNat % 65536) (s.lateTail fn (v.toNat / 65536)))
      refine ⟨_, rfl, ?_, fun hlate => ?_, fun hlate => ?_, fun fn' hne => ?_, rfl⟩
      · exact (congrArg Fn.lastDoorbell hfn).trans (rung_last _ _ _ _ _)
      · rw [hfn, (lateTail_iff _ _ _).mpr hlate]
        exact ⟨rfl, rfl⟩
      · rw [hfn, Bool.eq_false_iff.mpr (fun hyes => hlate ((lateTail_iff _ _ _).mp hyes))]
        exact ⟨rfl, FMap.get_set_of_ne _ _ _ _ (Option.some_ne_none _), fun q hq => FMap.get_set_other _ _ _ _ _ hq⟩
      · exact (fn_setFn_other _ _ hne).trans (fn_setFn_other s _ hne)
  · rw [doorbell_bad]
    rcases h with hdec | hnone
    · rw [if_neg (ne_true_of_eq_false hdec)]
    · rw [queueFailed_none hnone, ite_self]
  · rw [doorbell_bad, if_pos hdec, queueFailed_some hq]
  · rw [State.applyDoorbell, if_pos hf, State.tailWrite, hq]
    exact ⟨_, rfl, rfl, rfl, rfl⟩
  · rw [State.applyDoorbell, if_pos hf, State.tailWrite, hq]
    exact if_pos herr
  · rw [applyTail_eq hf hq herr]
    exact if_neg (fun h => h.elim (Nat.not_le.mpr hlow) (fun h => h.elim (Nat.ne_of_gt hadv) (Nat.not_lt.mpr hroom)))
  · rw [applyTail_eq hf hq herr]
    exact if_pos hbad

end Sys2Proof.Machine
end

section
/-!
SUPPORT. Mailboxes, locks and the event ring's registers (R208 to R222, R365, R375): the theorem that settles O17.
-/

namespace Sys2Proof.Machine

open Sys2Proof

set_option Elab.async false

/-! ### Mailboxes -/

/-- A mailbox that has been set, in boxes that keep one form. -/
theorem mb_setMb {s : State} (hwf : FMap.wf Mailbox.reset s.boxes.mbs = true) (n : Nat) (m : Mailbox) : (s.setMb n m).mb n = m :=
  FMap.get_set_wf Mailbox.reset s.boxes.mbs n m hwf

/-- The other mailboxes are not changed. -/
theorem mb_setMb_other (s : State) {n n' : Nat} (m : Mailbox) (h : n' ≠ n) : (s.setMb n m).mb n' = s.mb n' :=
  FMap.get_set_other Mailbox.reset s.boxes.mbs n n' m h

/-- The boxes keep their form. -/
theorem wf_setMb {s : State} (hwf : FMap.wf Mailbox.reset s.boxes.mbs = true) (n : Nat) (m : Mailbox) :
    FMap.wf Mailbox.reset (s.setMb n m).boxes.mbs = true := FMap.wf_set Mailbox.reset s.boxes.mbs n m hwf

/-- A source that may send passes the test of the rows that only a sender may use. -/
theorem sender_not {s : State} {n code : Nat} (h : s.isSender n code = true) : ¬ (!s.isSender n code) = true := by
  rw [h]
  exact Bool.false_ne_true

/-- Another does not. -/
theorem not_sender {s : State} {n code : Nat} (h : s.isSender n code = false) : (!s.isSender n code) = true := by
  rw [h]
  rfl

/-- A register of a mailbox as a write leaves it (R212). -/
def Mailbox.put (m : Mailbox) (off : Nat) (v : Word) : Mailbox :=
  if off = 0 then { m with ptr := BitVec.ofNat 64 (m.ptr.toNat / 2 ^ 32 * 2 ^ 32 + v.toNat) }
  else if off = 4 then { m with ptr := BitVec.ofNat 64 (m.ptr.toNat % 2 ^ 32 + v.toNat * 2 ^ 32) }
  else { m with len := BitVec.ofNat 32 (v.toNat % 2 ^ 20) }

/-- A write of PTR or LEN never fills the mailbox. -/
theorem put_full (m : Mailbox) (off : Nat) (v : Word) : (m.put off v).full = m.full := by
  rw [Mailbox.put]
  split
  · rfl
  · split <;> rfl

/-- The sender's write of a register, while the mailbox is not FULL (R212). -/
theorem mbWrite_open {s : State} {n code : Nat} (hsend : s.isSender n code = true) (hopen : (s.mb n).full = false) (off : Nat) (v : Word) :
    s.mbWrite n code off v = s.setMb n ((s.mb n).put off v) := by
  rw [State.mbWrite, if_neg (sender_not hsend)]
  exact if_neg (ne_true_of_eq_false hopen)

/-- A FULL mailbox keeps its registers. -/
theorem mbWrite_full {s : State} {n code : Nat} (hsend : s.isSender n code = true) (hfull : (s.mb n).full = true) (off : Nat) (v : Word) :
    s.mbWrite n code off v = s := by
  rw [State.mbWrite, if_neg (sender_not hsend)]
  exact if_pos hfull

/-- SEND into a mailbox that is not FULL (R208, R212). -/
theorem mbSend_open {s : State} {n code : Nat} (hsend : s.isSender n code = true) (hopen : (s.mb n).full = false) :
    s.mbSend n code = s.setMb n { s.mb n with stamp := s.stamp code, full := true, stale := false, retracted := false } := by
  rw [State.mbSend, if_neg (sender_not hsend)]
  exact if_neg (ne_true_of_eq_false hopen)

/-- Into a FULL one it leaves OVERRUN. -/
theorem mbSend_full {s : State} {n code : Nat} (hsend : s.isSender n code = true) (hfull : (s.mb n).full = true) :
    s.mbSend n code = s.setMb n { s.mb n with overrun := true } := by
  rw [State.mbSend, if_neg (sender_not hsend)]
  exact if_pos hfull

/-- A state that differs from another in its mailboxes alone still does after a mailbox is set. -/
theorem setMb_only {s t : State} {mbs : FMap Mailbox} (h : t = { s with boxes := { s.boxes with mbs := mbs } }) (n : Nat) (m : Mailbox) :
    t.setMb n m = { s with boxes := { s.boxes with mbs := (t.setMb n m).boxes.mbs } } := by
  subst h
  rfl

/-- Who sends to a mailbox, and the stamp of a source, do not hang on the mailboxes. -/
theorem sender_only {s t : State} {mbs : FMap Mailbox} (h : t = { s with boxes := { s.boxes with mbs := mbs } }) (n code : Nat) :
    t.isSender n code = s.isSender n code ∧ t.stamp code = s.stamp code := by
  subst h
  exact ⟨rfl, rfl⟩

/-- The low and the high half of PTR, written one after the other. -/
theorem ptr_halves (p : DWord) (lo hi : Word) :
    (BitVec.ofNat 64 (p.toNat / 2 ^ 32 * 2 ^ 32 + lo.toNat)).toNat % 2 ^ 32 + hi.toNat * 2 ^ 32 = hi.toNat * 2 ^ 32 + lo.toNat := by
  have hp := p.isLt
  have hlo := lo.isLt
  rw [BitVec.toNat_ofNat]
  omega

/-- The three registers, written in turn (R212). -/
theorem put_registers (m : Mailbox) (r : MbRegs) : ((m.put 0 r.ptrLo).put 4 r.ptrHi).put 8 r.len = Claims.written m r := by
  have hhalves := ptr_halves m.ptr r.ptrLo r.ptrHi
  simp only [Mailbox.put, Claims.written, Nat.reduceEqDiff, if_true, if_false, hhalves]

/-- Its registers do not fill it. -/
theorem written_full (m : Mailbox) (r : MbRegs) : (Claims.written m r).full = m.full := by
  rw [← put_registers, put_full, put_full, put_full]

/-- The registers of an open mailbox, written by its sender: the mailbox holds them, and only it has changed. -/
theorem registers_written {s : State} {n code : Nat} {r : MbRegs} (hsend : s.isSender n code = true) (hopen : (s.mb n).full = false)
    (hwf : FMap.wf Mailbox.reset s.boxes.mbs = true) :
    let t := ((s.mbWrite n code 0 r.ptrLo).mbWrite n code 4 r.ptrHi).mbWrite n code 8 r.len
    t.mb n = Claims.written (s.mb n) r ∧ (∀ n', n' ≠ n → t.mb n' = s.mb n') ∧ FMap.wf Mailbox.reset t.boxes.mbs = true ∧
      t = { s with boxes := { s.boxes with mbs := t.boxes.mbs } } := by
  intro t
  have h1 := mb_setMb hwf n ((s.mb n).put 0 r.ptrLo)
  have hwf1 := wf_setMb hwf n ((s.mb n).put 0 r.ptrLo)
  have h2 := mb_setMb hwf1 n (((s.mb n).put 0 r.ptrLo).put 4 r.ptrHi)
  have hwf2 := wf_setMb hwf1 n (((s.mb n).put 0 r.ptrLo).put 4 r.ptrHi)
  have ht : t = ((s.setMb n ((s.mb n).put 0 r.ptrLo)).setMb n (((s.mb n).put 0 r.ptrLo).put 4 r.ptrHi)).setMb n (Claims.written (s.mb n) r) := by
    have hopen1 := (put_full (s.mb n) 0 r.ptrLo).trans hopen
    have hopen2 := (put_full ((s.mb n).put 0 r.ptrLo) 4 r.ptrHi).trans hopen1
    show ((s.mbWrite n code 0 r.ptrLo).mbWrite n code 4 r.ptrHi).mbWrite n code 8 r.len = _
    rw [mbWrite_open hsend hopen, mbWrite_open (s := s.setMb n _) hsend (by rw [h1]; exact hopen1), h1,
      mbWrite_open (s := State.setMb (State.setMb s n _) n _) hsend (by rw [h2]; exact hopen2), h2, put_registers]
  rw [ht]
  refine ⟨mb_setMb hwf2 n _, fun n' hne => ?_, wf_setMb hwf2 n _, rfl⟩
  rw [mb_setMb_other _ _ hne, mb_setMb_other _ _ hne, mb_setMb_other _ _ hne]

/-- SEND with the registers is their three writes and SEND. -/
theorem mailboxSend_registers (s : State) (n : Nat) (src : Source) (r : MbRegs) : exec (.mailboxSend n src (some r)) s =
    .next ((((s.mbWrite n (srcCode src) 0 r.ptrLo).mbWrite n (srcCode src) 4 r.ptrHi).mbWrite n (srcCode src) 8 r.len).mbSend n (srcCode src)) := rfl

/-- With or without registers, SEND into a FULL mailbox only leaves OVERRUN. -/
theorem mailboxSend_full {s : State} {n : Nat} {src : Source} (hsend : s.isSender n (srcCode src) = true) (hfull : (s.mb n).full = true)
    (r : Option MbRegs) : exec (.mailboxSend n src r) s = .next (s.setMb n { s.mb n with overrun := true }) := by
  rw [← mbSend_full hsend hfull]
  cases r with
  | none => rfl
  | some r => rw [mailboxSend_registers, mbWrite_full hsend hfull, mbWrite_full hsend hfull, mbWrite_full hsend hfull]

/-- SEND, from a state that differs from another in its mailboxes alone. -/
theorem mbSend_after {s t : State} {n code : Nat} {m : Mailbox} {mbs : FMap Mailbox} (hsend : s.isSender n code = true) (hmb : t.mb n = m)
    (hopen : m.full = false) (hother : ∀ n', n' ≠ n → t.mb n' = s.mb n') (hwf : FMap.wf Mailbox.reset t.boxes.mbs = true)
    (honly : t = { s with boxes := { s.boxes with mbs := mbs } }) : ∃ u, t.mbSend n code = u ∧
      u.mb n = { m with stamp := s.stamp code, full := true, stale := false, retracted := false } ∧
      (∀ n', n' ≠ n → u.mb n' = s.mb n') ∧ u = { s with boxes := { s.boxes with mbs := u.boxes.mbs } } := by
  obtain ⟨hsender, hstamp⟩ := sender_only honly n code
  refine ⟨_, mbSend_open (hsender.trans hsend) (by rw [hmb]; exact hopen), ?_, fun n' hne => ?_, setMb_only honly n _⟩
  · rw [mb_setMb hwf, hmb, hstamp]
  · rw [mb_setMb_other _ _ hne, hother n' hne]

/-- With registers it fills an open mailbox with them. -/
theorem mailboxSend_fills {s : State} {n : Nat} {src : Source} {r : MbRegs} (hsend : s.isSender n (srcCode src) = true) (hopen : (s.mb n).full = false)
    (hwf : FMap.wf Mailbox.reset s.boxes.mbs = true) : ∃ t, exec (.mailboxSend n src (some r)) s = .next t ∧
      t.mb n = { Claims.written (s.mb n) r with stamp := s.stamp (srcCode src), full := true, stale := false, retracted := false } ∧
      (∀ n', n' ≠ n → t.mb n' = s.mb n') ∧ t = { s with boxes := { s.boxes with mbs := t.boxes.mbs } } := by
  obtain ⟨hmb, hother, hform, honly⟩ := registers_written (r := r) hsend hopen hwf
  obtain ⟨u, hu, hprops⟩ := mbSend_after hsend hmb ((written_full _ _).trans hopen) hother hform honly
  exact ⟨u, (mailboxSend_registers s n src r).trans (congrArg Host.Outcome.next hu), hprops⟩

/-- RETRACT by the sender: of its own message it succeeds, otherwise it fails (R212). -/
theorem mailboxRetract_sender {s : State} {n : Nat} {src : Source} (hsend : s.isSender n (srcCode src) = true) : exec (.mailboxRetract n src) s =
    .next (if ((s.mb n).full && decide ((s.mb n).stamp = s.stamp (srcCode src))) = true then s.setMb n { s.mb n with full := false, retracted := true }
      else s.setMb n { s.mb n with retractFail := true }) :=
  congrArg Host.Outcome.next (if_neg (sender_not hsend))

/-! ### Taking -/

/-- A receiver's read of TAKE (R210, R214). -/
theorem mbTake_receiver {s : State} {n code : Nat} (hrecv : s.isReceiver n code = true) (width : Nat) : s.mbTake n code width =
    if width ≠ 8 ∨ (s.mb n).full = false then s.answer 0
    else if (s.mb n).stale = true then
      (((State.setMb { s with boxes := { s.boxes with staleDiscards := bump s.boxes.staleDiscards code 1 } } n
        { s.mb n with full := false }).log 0x0502 n (s.mb n).stamp.toNat).afterTake n (s.mb n) true).answer 0
    else ((s.setMb n { s.mb n with full := false }).afterTake n (s.mb n) false).answer (s.mb n).ptr.toNat := by
  rw [State.mbTake, hrecv]
  rfl

/-- MAILBOX_TAKE: of the host mailboxes the firmware reads TAKE of an open one and of the next in its order (R217). -/
theorem mailboxTake_eq (s : State) (n : Nat) (src : Source) (width : Nat) : exec (.mailboxTake n src width false) s =
    .next (if n < 64 ∧ s.isReceiver n (srcCode src) = true then
        (if (s.mb n).full = false ∨ width ≠ 8 ∨ s.servesMbadel n = true ∧ s.nextHm = some n then s.mbTake n (srcCode src) width else s)
      else s.mbTake n (srcCode src) width) := rfl

/-- So it reads TAKE where the mailbox is open, the read too short, or its turn has come. -/
theorem mailboxTake_reads {s : State} {n width : Nat} {src : Source}
    (h : (s.mb n).full = false ∨ width ≠ 8 ∨ (n < 64 → s.servesMbadel n = true ∧ s.nextHm = some n)) :
    exec (.mailboxTake n src width false) s = .next (s.mbTake n (srcCode src) width) := by
  rw [mailboxTake_eq]
  by_cases hhost : n < 64 ∧ s.isReceiver n (srcCode src) = true
  · rw [if_pos hhost, if_pos (h.imp id (Or.imp id (fun hturn => hturn hhost.1)))]
  · rw [if_neg hhost]

/-- Registers that fail their check make a FULL message STALE (R365). -/
theorem mailboxTake_bad (s : State) (n : Nat) (src : Source) (width : Nat) : exec (.mailboxTake n src width true) s =
    exec (.mailboxTake n src width false) (if (s.mb n).full = true then s.setMb n { s.mb n with stale := true } else s).sramFailed := by
  have hbad : s.boxFailed n = (if (s.mb n).full = true then s.setMb n { s.mb n with stale := true } else s).sramFailed :=
    (apply_ite State.sramFailed _ _ _).symm
  rw [← hbad]
  rfl

/-! ### Locks -/

/-- A source that shares the locks has a number, which a free lock does not hold (R221). -/
theorem shares_ne_zero {code : Nat} (h : sharesLocks code = true) : code ≠ 0 := by
  rintro rfl
  exact absurd h (by decide)

/-- A read of a lock by a source that shares them takes it when it is free (R222). -/
theorem lockAcquire_shares {s : State} {k : Fin 64} {src : Source} (hshare : sharesLocks (srcCode src) = true) : exec (.lockAcquire k src false) s =
    .next ((if s.lock k.val = 0 then s.setLock k.val (srcCode src) else s).answer (s.lock k.val)) :=
  congrArg Host.Outcome.next (if_neg (by rw [hshare]; exact Bool.false_ne_true))

/-- The owner of a lock that was free, and of every other. -/
theorem lock_setLock (s : State) (k owner : Nat) (h : owner ≠ 0) : (s.setLock k owner).lock k = owner := FMap.get_set_of_ne 0 s.boxes.locks k owner h

/-- A free lock is taken by reading it. -/
theorem lockAcquire_free {s : State} {k : Fin 64} {src : Source} (hshare : sharesLocks (srcCode src) = true) (hfree : s.lock k.val = 0) :
    ∃ t, exec (.lockAcquire k src false) s = .next t ∧ t.lock k.val = srcCode src ∧ t.boxes.lastRead = 0 ∧ ∀ j, j ≠ k.val → t.lock j = s.lock j := by
  refine ⟨_, lockAcquire_shares hshare, ?_⟩
  rw [if_pos hfree]
  exact ⟨lock_setLock s _ _ (shares_ne_zero hshare), hfree, fun j hne => FMap.get_set_other 0 s.boxes.locks k.val j (srcCode src) hne⟩

/-- When a write frees a lock (R221). -/
theorem frees_iff (s : State) (k code : Nat) (v : Word) : (sharesLocks code && decide (s.lock k = code) && decide (v.toNat % 2 ^ 20 = code)) = true ↔
    sharesLocks code = true ∧ s.lock k = code ∧ v.toNat % 2 ^ 20 = code := by
  rw [Bool.and_eq_true, Bool.and_eq_true, decide_eq_true_eq, decide_eq_true_eq, and_assoc]

/-! ### The event ring -/

/-- An ER_HEAD that the ring has reached (R376). -/
theorem erHead_reached {s : State} {v : Word} (hen : s.events.ringEnabled = true) (hlt : v.toNat < s.events.ringSize)
    (hadv : (v.toNat + s.events.ringSize - s.events.ringHead) % s.events.ringSize ≤
      (s.events.ringTail + s.events.ringSize - s.events.ringHead) % s.events.ringSize) :
    exec (.erHeadWrite v) s = .next { s with events := { s.events with ringHead := v.toNat } } := by
  have hsize : s.events.ringSize ≠ 0 := Nat.ne_of_gt (Nat.zero_lt_of_lt hlt)
  refine congrArg Host.Outcome.next (if_pos ?_)
  rw [hen, decide_eq_true hlt, if_neg hsize, Events.unread, if_neg hsize, decide_eq_true hadv]
  rfl

/-- One beyond the ring, or while it is off, is discarded and logged. -/
theorem erHead_beyond {s : State} {v : Word} (h : s.events.ringEnabled = false ∨ s.events.ringSize ≤ v.toNat) :
    exec (.erHeadWrite v) s = .next (s.log 0x0403 0 0x4014) := by
  refine congrArg Host.Outcome.next (if_neg ?_)
  rw [Bool.and_eq_true, Bool.and_eq_true, decide_eq_true_eq]
  rintro ⟨⟨hen, hlt⟩, -⟩
  exact h.elim (fun hoff => Bool.false_ne_true (hoff.symm.trans hen)) (Nat.not_le.mpr hlt)

/-- Settles O17: mailboxes by who accesses them and what they hold, locks by their owner, the ring's registers by what the ring has reached. -/
theorem mailboxesLocksAndEventRingAct : Obligations.MailboxesLocksAndEventRingAct := by
  unfold Obligations.MailboxesLocksAndEventRingAct
  refine ⟨fun s n src => ⟨fun hsend hopen => ⟨?_, fun r hwf => mailboxSend_fills hsend hopen hwf⟩, fun hsend hfull r => mailboxSend_full hsend hfull r,
      fun hno => ⟨?_, ?_, fun v => ?_⟩, fun hsend => ⟨fun hfull hmine => ?_, fun hno => ?_, fun v => ?_⟩,
      fun hrecv width => ⟨fun hno => ?_, fun h8 hfull hturn => ⟨fun hfresh => ?_, fun hstale => ?_⟩, fun hhost h8 hfull hno => ?_⟩, fun hno width => ?_,
      fun width => mailboxTake_bad s n src width⟩,
    fun s k src v => ⟨fun hshare => ⟨lockAcquire_free hshare, fun hheld => ?_, fun hown hnum => ?_⟩, rfl, fun hno => ?_, fun hno => ?_⟩,
    fun s v => ⟨erHead_reached, erHead_beyond, rfl, rfl⟩⟩
  · exact ⟨_, congrArg Host.Outcome.next (mbSend_open hsend hopen), rfl⟩
  · exact congrArg Host.Outcome.next (if_pos (not_sender hno))
  · exact congrArg Host.Outcome.next (if_pos (not_sender hno))
  · exact congrArg Host.Outcome.next (if_pos (not_sender hno))
  · rw [mailboxRetract_sender hsend, if_pos (by rw [hfull, decide_eq_true hmine]; rfl)]
  · rw [mailboxRetract_sender hsend, if_neg]
    rw [Bool.and_eq_true, decide_eq_true_eq]
    rintro ⟨hfull, hmine⟩
    exact hno.elim (fun hopen => Bool.false_ne_true (hopen.symm.trans hfull)) (· hmine)
  · exact congrArg Host.Outcome.next (if_neg (sender_not hsend))
  · rw [mailboxTake_reads (hno.elim (fun hw => .inr (.inl hw)) .inl), mbTake_receiver hrecv, if_pos hno]
  · rw [mailboxTake_reads (.inr (.inr hturn)), mbTake_receiver hrecv,
      if_neg (fun h => h.elim (· h8) (fun hopen => Bool.false_ne_true (hopen.symm.trans hfull))), if_neg (ne_true_of_eq_false hfresh)]
  · rw [mailboxTake_reads (.inr (.inr hturn)), mbTake_receiver hrecv,
      if_neg (fun h => h.elim (· h8) (fun hopen => Bool.false_ne_true (hopen.symm.trans hfull))), if_pos hstale]
  · rw [mailboxTake_eq, if_pos ⟨hhost, hrecv⟩, if_neg]
    rintro (hopen | hw | ⟨hserves, hnext⟩)
    · exact Bool.false_ne_true (hopen.symm.trans hfull)
    · exact hw h8
    · exact hno.elim (fun hoff => Bool.false_ne_true (hoff.symm.trans hserves)) (· hnext)
  · rw [mailboxTake_eq, if_neg (fun h => Bool.false_ne_true (hno.symm.trans h.2)), State.mbTake, hno]
    exact congrArg Host.Outcome.next (apply_ite (State.answer · 0) _ _ _).symm
  · rw [lockAcquire_shares hshare, if_neg hheld]
    rfl
  · exact congrArg Host.Outcome.next (if_pos ((frees_iff _ _ _ _).mpr ⟨hshare, hown, hnum⟩))
  · exact congrArg Host.Outcome.next (if_pos (by rw [hno]; rfl))
  · refine congrArg Host.Outcome.next (if_neg ?_)
    rw [frees_iff]
    rintro ⟨hshare, hown, hnum⟩
    rcases hno with hoff | hother | hbad
    · exact Bool.false_ne_true (hoff.symm.trans hshare)
    · exact hother hown
    · exact hbad hnum

end Sys2Proof.Machine
end

section
/-!
SUPPORT. Frames, lanes and verdicts (R90 to R99, R115, R132, R157 to R178): the theorems that settle O18 and O19.
-/

namespace Sys2Proof.Machine

open Sys2Proof

set_option Elab.async false

/-! ### Receiving -/

/-- A frame on a lane that receives (R94). -/
theorem frameReceive_up {s : State} {n : Fin 20} {l : Lane} {f : List Byte} {fcsBad entryBad : Bool} {cor unc sec ns frac : Nat}
    {fails : List (Nat × LookupFail)} (hl : s.lane? n.val = some l) (hup : l.st = .up) (hdata : s.dataplane = true) :
    exec (.frameReceive n f fcsBad cor sec ns frac unc entryBad fails) s =
      .next ((s.fecCount n.val l cor unc).macIn n.val l f fcsBad (fineTime sec ns frac) entryBad fails) := by
  show (Host.Outcome.next _ : Answer) = _
  rw [hl]
  exact congrArg Host.Outcome.next (if_neg (fun h => h.elim (· hup) (fun hoff => Bool.false_ne_true (hoff.symm.trans hdata))))

/-- A lane that is not UP, and a dataplane that is off, receive nothing (R13, R94). -/
theorem frameReceive_not {s : State} {n : Fin 20} {l : Lane} {f : List Byte} {fcsBad entryBad : Bool} {cor unc sec ns frac : Nat}
    {fails : List (Nat × LookupFail)} (hl : s.lane? n.val = some l) (h : l.st ≠ .up ∨ s.dataplane = false) :
    exec (.frameReceive n f fcsBad cor sec ns frac unc entryBad fails) s = .next s := by
  show (Host.Outcome.next _ : Answer) = _
  rw [hl]
  exact congrArg Host.Outcome.next (if_pos h)

/-- A frame that fails a check of the MAC is dropped and counted (R94). -/
theorem macIn_drop {s : State} {lane idx stamp : Nat} {l : Lane} {f : List Byte} {fcsBad entryBad : Bool} {fails : List (Nat × LookupFail)}
    (h : macDrop l f fcsBad = some idx) : s.macIn lane l f fcsBad stamp entryBad fails = s.laneCtr lane idx 1 := by
  rw [State.macIn, h]

/-- One that passes them is counted and, on a U or D lane, parsed (R90, R94). -/
theorem macIn_pass {s : State} {lane stamp : Nat} {l : Lane} {f : List Byte} {fcsBad entryBad : Bool} {fails : List (Nat × LookupFail)}
    (h : macDrop l f fcsBad = none) : s.macIn lane l f fcsBad stamp entryBad fails =
      if 16 ≤ lane then (s.laneCtr lane 0x00 1).laneCtr lane 0x01 (f.length + 4)
      else (((s.laneCtr lane 0x00 1).laneCtr lane 0x01 (f.length + 4)).seePtp lane f).parseIn lane l f stamp entryBad fails := by
  rw [State.macIn, h]

/-- The checks of the MAC, for a frame whose FCS is good (R94). -/
theorem macDrop_good (l : Lane) (f : List Byte) : macDrop l f false =
    if f.length + 4 < 64 then some 0x03 else if l.maxFrame < f.length + 4 then some 0x04 else if be16 f 12 = 0x8808 then some 0x05 else none :=
  if_neg Bool.false_ne_true

/-- Only a PTP event message on the lane that disciplines the clock is an offset (R29). -/
theorem seePtp_other {s : State} {lane : Nat} {f : List Byte} (h : s.time.source ≠ 2 ∨ lane ≠ s.time.ptpLane ∨ be16 f 12 ≠ 0x88F7) :
    s.seePtp lane f = s := by
  refine if_neg ?_
  rintro ⟨hsrc, hlane, htype, -⟩
  exact h.elim (· hsrc) (fun h => h.elim (· hlane) (· htype))

/-- The oldest frame that waits is classified while DRAM reads last (R132). -/
theorem dequeue_eq (s : State) (b : Bool) (fails : List (Nat × LookupFail)) : exec (.classificationDequeue b fails) s =
    .next (if s.cls.readsUsed < s.readAllotment then
      (match (generalizing := false) (if b = true then s.cls.queueB else s.cls.queueA) with | [] => s | f :: rest => (s.setClsQueue b rest).classify f fails)
    else s) := by
  show (Host.Outcome.next _ : Answer) = _
  rw [State.clsQueue] <;> rfl

/-! ### Lanes -/

/-- A stack link is free to come up beside another module (R435). -/
theorem linkHeld_false_iff (s : State) (n : Nat) (peer : Option (Fin 8)) :
    s.linkHeld n peer = false ↔ n < 16 ∨ ∃ p : Fin 8, peer = some p ∧ p.val ≠ s.position := by
  unfold State.linkHeld
  rw [Bool.and_eq_false_iff, decide_eq_false_iff_not, Nat.not_le]
  refine or_congr_right ?_
  cases peer with
  | none => exact ⟨fun h => Bool.noConfusion h, fun ⟨p, hp, _⟩ => Option.noConfusion rfl (heq_of_eq hp)⟩
  | some p =>
    rw [decide_eq_false_iff_not]
    exact ⟨fun h => ⟨p, rfl, h⟩, fun ⟨q, hq, hne⟩ => (Option.some.inj hq) ▸ hne⟩

/-- When a lane comes up (R91, R435). -/
theorem laneUp_iff (s : State) (n : Fin 20) (l : Lane) (peer : Option (Fin 8)) : (s.laneTrains l && !s.linkHeld n.val peer) = true ↔
    s.dataplane = true ∧ l.mode ≠ 0 ∧ (l.st = .noLink ∨ l.st = .down) ∧ (n.val < 16 ∨ ∃ p : Fin 8, peer = some p ∧ p.val ≠ s.position) := by
  rw [Bool.and_eq_true, Bool.not_eq_true', linkHeld_false_iff, State.laneTrains, Bool.and_eq_true, Bool.and_eq_true, Bool.or_eq_true, decide_eq_true_eq,
    decide_eq_true_eq, decide_eq_true_eq, and_assoc, and_assoc]

/-- LANE_UP of a lane. -/
theorem laneUp_eq {s : State} {n : Fin 20} {l : Lane} (hl : s.lane? n.val = some l) (peer : Option (Fin 8)) : exec (.laneUp n peer) s =
    .next (if (s.laneTrains l && !s.linkHeld n.val peer) = true then (s.setLane n.val .up).modLane n.val (fun x => { x with removal := false }) else s) := by
  show (Host.Outcome.next _ : Answer) = _
  rw [hl]

/-- LANE_DOWN of a lane. -/
theorem laneDown_eq {s : State} {n : Fin 20} {l : Lane} (hl : s.lane? n.val = some l) (cut : Bool) : exec (.laneDown n cut) s =
    .next (if l.st = .up then s.setLaneCut n.val .noLink cut else s) := by
  show (Host.Outcome.next _ : Answer) = _
  rw [hl]

/-- A lane leaves UP: counted, with the frame that this cuts off, and logged (R91, R92, R110). -/
theorem setLaneCut_down {s : State} {n : Nat} {l : Lane} (hl : s.lane? n = some l) (hup : l.st = .up) (cut : Bool) : s.setLaneCut n .noLink cut =
    (((s.modLane n (fun l => { l with st := .noLink, partner := false })).laneCtr n 0x10 1).laneCtr n 0x06 (b2n cut)).log 0x0301 n 1 := by
  rw [State.setLaneCut, hl]
  dsimp only
  rw [if_neg (fun h => LaneState.noConfusion (hup.symm.trans h)), if_pos hup]
  rfl

/-- When a planned replacement of a lane is made (R93). -/
theorem memberDrained_eq {s : State} {n : Fin 16} {l : Lane} (hl : s.lane? n.val = some l) : exec (.memberQueuesDrained n) s =
    .next (if FMap.get 0 s.repair.laneWork n.val ≠ 0 ∧ (l.removal && !l.distributing) = true ∧ s.laneDrained n.val = true ∧ s.managed = true
      then s.replaceLane (FMap.get 0 s.repair.laneWork n.val) n.val else s) := by
  show (Host.Outcome.next _ : Answer) = _
  rw [hl]

/-- Its conditions. -/
theorem memberDrained_iff (work : Nat) (l : Lane) (p q : Prop) : (work ≠ 0 ∧ (l.removal && !l.distributing) = true ∧ p ∧ q) ↔
    work ≠ 0 ∧ l.removal = true ∧ l.distributing = false ∧ p ∧ q := by
  rw [Bool.and_eq_true, Bool.not_eq_true', and_assoc]

/-! ### Egress -/

/-- A port that is DOWN or sends already selects nothing (R169). -/
theorem schedulerSelect_not {s : State} {p : Fin 20} {sec ns frac : Nat} (h : s.laneIsUp p.val = false ∨ FMap.get none s.tm.sending p.val ≠ none) :
    exec (.schedulerSelect p sec ns frac) s = .next s := by
  refine congrArg Host.Outcome.next (if_pos ?_)
  rw [Bool.or_eq_true, Bool.not_eq_true', Option.isSome_iff_ne_none]
  exact h

/-- A port that sends nothing first drops the frames of withdrawn buffers, then selects (R157, R169). -/
theorem schedulerSelect_eq {s : State} {p : Fin 20} {sec ns frac : Nat} (hup : s.laneIsUp p.val = true) (hidle : FMap.get none s.tm.sending p.val = none) :
    exec (.schedulerSelect p sec ns frac) s = .next (match (generalizing := false) (s.purgePort p.val).choose p.val with
      | none => s.purgePort p.val
      | some c => match (generalizing := false) ((s.purgePort p.val).leaf c.key).frames with
        | [] => s.purgePort p.val
        | q :: _ =>
          if (s.purgePort p.val).readWaits q = true then s.purgePort p.val
          else (s.purgePort p.val).startFrame p.val c q (adjustTime (fineTime sec ns frac) ((((s.purgePort p.val).lane? p.val).map (·.txAdj)).getD 0))) := by
  show (Host.Outcome.next (s.select p.val sec ns frac) : Answer) = _
  rw [State.select, hup, hidle]
  rfl

/-- When a chosen frame waits for the read budget (R159). -/
theorem readWaits_iff (s : State) (q : QFrame) :
    s.readWaits q = true ↔ q.spilled = true ∧ 0 < s.pools.spillRead ∧ s.spillBudget < s.pools.spillRead + q.len := by
  rw [State.readWaits, Bool.and_eq_true, Bool.and_eq_true, decide_eq_true_eq, decide_eq_true_eq, and_assoc]

/-- A chosen frame that does not wait begins to be sent (R97, R169). -/
theorem schedulerSelect_goes {s : State} {p : Fin 20} {sec ns frac : Nat} {c : Choice} {q : QFrame} {rest : List QFrame}
    (hup : s.laneIsUp p.val = true) (hidle : FMap.get none s.tm.sending p.val = none) (hc : (s.purgePort p.val).choose p.val = some c)
    (hq : ((s.purgePort p.val).leaf c.key).frames = q :: rest)
    (hgo : ¬ (q.spilled = true ∧ 0 < (s.purgePort p.val).pools.spillRead ∧
      (s.purgePort p.val).spillBudget < (s.purgePort p.val).pools.spillRead + q.len)) :
    exec (.schedulerSelect p sec ns frac) s = .next ((s.purgePort p.val).startFrame p.val c q
      (adjustTime ((sec * 1000000000 + ns) * 65536 + frac) ((((s.purgePort p.val).lane? p.val).map (·.txAdj)).getD 0))) := by
  rw [schedulerSelect_eq hup hidle, hc]
  dsimp only
  rw [hq]
  exact congrArg Host.Outcome.next (if_neg (fun hyes => hgo ((readWaits_iff _ _).mp hyes)))

/-- The state in which a chosen frame has left its leaf, its spill read counted (R159). -/
def State.takenForSend (s : State) (port : Nat) (c : Choice) (q : QFrame) : State :=
  (if q.spilled = true then { s with pools := { s.pools with spillRead := s.pools.spillRead + q.len } } else s).takeHeadFrame port c

/-- A frame whose edit cannot be made is dropped (R176). -/
theorem startFrame_drop {s : State} {port ts : Nat} {c : Choice} {q : QFrame} (h : (s.takenForSend port c q).frameBytes port q ts = none) :
    s.startFrame port c q ts = State.releaseTm { s.takenForSend port c q with
      tm := { (s.takenForSend port c q).tm with editErr := bump (s.takenForSend port c q).tm.editErr port 1 } } q := by
  unfold State.takenForSend at h ⊢
  rw [State.startFrame, h]

/-- The report of a frame that is timestamped (R97). -/
def QFrame.report (q : QFrame) (ts : Nat) : Option TsReport :=
  if q.flags.getLsbD 4 then some { sec := (ofFine ts).1, ns := (ofFine ts).2.1, frac := (ofFine ts).2.2, arg := q.arg } else none

/-- No report of a frame that is not. -/
theorem report_none {q : QFrame} (h : q.flags.getLsbD 4 = false) (ts : Nat) : q.report ts = none := if_neg (ne_true_of_eq_false h)

/-- The report names the frame's ARG. -/
theorem report_some {q : QFrame} (h : q.flags.getLsbD 4 = true) (ts : Nat) : ∃ r, q.report ts = some r ∧ r.arg = q.arg := ⟨_, if_pos h, rfl⟩

/-- The frame that is sent. -/
def QFrame.tx (q : QFrame) (c : Choice) (ts : Nat) (f : List Byte) : TxFrame := { queue := c.key / 32, handle := q.handle, bytes := f, report := q.report ts }

/-- Another begins to be sent, its scheduler bytes charged (R178, R179). -/
theorem startFrame_send {s : State} {port ts : Nat} {c : Choice} {q : QFrame} {f : List Byte} (h : (s.takenForSend port c q).frameBytes port q ts = some f) :
    let s2 := (s.takenForSend port c q).countSent port c (s.wireBytes q)
    s.startFrame port c q ts = { s2 with tm := { s2.tm with sending := FMap.set none s2.tm.sending port (some (q.tx c ts f)) } } := by
  unfold State.takenForSend at h ⊢
  rw [State.startFrame, h]
  rfl

/-- The end of a frame's transmission (R151, R178). -/
theorem transmitComplete_eq {s : State} {p : Fin 20} {x : TxFrame} (hx : FMap.get none s.tm.sending p.val = some x) (bad : Bool) :
    let s2 := State.doneWith ((s.laneCtr p.val 0x0D 1).laneCtr p.val 0x0E (x.bytes.length + 4)) x.handle bad
    let t1 := { s2.tm with sending := FMap.set none s2.tm.sending p.val none, sent := FMap.set [] s2.tm.sent p.val x.bytes }
    exec (.transmitComplete p bad) s = .next (match (generalizing := false) x.report with
      | none => { s2 with tm := t1 }
      | some r => if s2.tm.tsReports.length < 4096 then { s2 with tm := { t1 with tsReports := s2.tm.tsReports ++ [r] } }
        else { s2 with tm := { t1 with tsReportDrop := s2.tm.tsReportDrop + 1 } }) := by
  intro s2 t1
  show (Host.Outcome.next _ : Answer) = _
  rw [hx] <;> rfl

/-- A padded list has the length asked for. -/
theorem length_padTo (n : Nat) (bs : List Byte) : (padTo n bs).length = n := by
  rw [padTo, List.length_take, List.length_append, zeros, List.length_replicate]
  omega

/-- Settles O18: each row by its guard; the frame that is sent by what its leaf, the read budget and its edit say. -/
theorem framesAndLanesAct : Obligations.FramesAndLanesAct := by
  unfold Obligations.FramesAndLanesAct
  refine ⟨fun s n l f fcsBad cor unc sec ns frac entryBad fails hl => ⟨frameReceive_not hl, fun hup hdata => ?_⟩, fun s lane f => seePtp_other,
    fun s b fails => ⟨fun f rest hq hreads => ?_, fun h => ?_⟩,
    fun s n l peer hl => ⟨fun h => ?_, fun h => ?_, fun cut hup => ?_, fun cut hne => ?_⟩,
    fun s n => ⟨fun h => congrArg Host.Outcome.next (if_pos h), fun h => congrArg Host.Outcome.next (if_neg (ne_true_of_eq_false h)), fun h => ?_, fun hmem hup hhere => ?_⟩,
    fun s n l hl => ⟨fun h => ?_, fun h => ?_⟩,
    fun s p sec ns frac => ⟨schedulerSelect_not, fun hup hidle => ⟨fun hnone => ?_, fun c q rest hc hq => ⟨fun hwait => ?_, fun hgo hdrop => ?_, fun f hgo hsend => ?_⟩⟩⟩,
    fun s p bad => ⟨fun h => ?_, fun x hx => ?_⟩⟩
  · have hrun := frameReceive_up (f := f) (fcsBad := fcsBad) (cor := cor) (unc := unc) (sec := sec) (ns := ns) (frac := frac) (entryBad := entryBad)
      (fails := fails) hl hup hdata
    refine ⟨fun hfcs => ?_, fun hfcs hshort => ?_, fun hfcs hlong hbig => ?_, fun hfcs hlong hfit htype => ?_, fun hfcs hlong hfit htype => ⟨fun hport => ?_, fun hstack => ?_⟩⟩ <;>
      subst hfcs
    · exact hrun.trans (congrArg Host.Outcome.next (macIn_drop rfl))
    · exact hrun.trans (congrArg Host.Outcome.next (macIn_drop ((macDrop_good l f).trans (if_pos hshort))))
    · exact hrun.trans (congrArg Host.Outcome.next (macIn_drop ((macDrop_good l f).trans ((if_neg (Nat.not_lt.mpr hlong)).trans (if_pos hbig)))))
    · exact hrun.trans (congrArg Host.Outcome.next (macIn_drop ((macDrop_good l f).trans
        ((if_neg (Nat.not_lt.mpr hlong)).trans ((if_neg (Nat.not_lt.mpr hfit)).trans (if_pos htype))))))
    all_goals
      have hpass : macDrop l f false = none := (macDrop_good l f).trans
        ((if_neg (Nat.not_lt.mpr hlong)).trans ((if_neg (Nat.not_lt.mpr hfit)).trans (if_neg htype)))
    · exact hrun.trans (congrArg Host.Outcome.next ((macIn_pass hpass).trans (if_neg (Nat.not_le.mpr hport))))
    · exact hrun.trans (congrArg Host.Outcome.next ((macIn_pass hpass).trans (if_pos hstack)))
  · rw [dequeue_eq, if_pos hreads, hq]
  · rw [dequeue_eq]
    rcases h with hempty | hspent
    · rw [hempty, ite_self]
    · rw [if_neg (Nat.not_lt.mpr hspent)]
  · rw [laneUp_eq hl, if_pos ((laneUp_iff s n l peer).mpr h)]
  · rw [laneUp_eq hl, if_neg (fun hyes => h ((laneUp_iff s n l peer).mp hyes))]
  · rw [laneDown_eq hl, if_pos hup, setLaneCut_down hl hup]
  · rw [laneDown_eq hl, if_neg hne]
  · refine congrArg Host.Outcome.next (if_neg ?_)
    rw [Bool.and_eq_true, Bool.and_eq_true, Bool.not_eq_true']
    rintro ⟨⟨hmem, hup⟩, hhere⟩
    rcases h with hno | hdown | haway
    · exact Bool.false_ne_true (hno.symm.trans hmem)
    · exact Bool.false_ne_true (hdown.symm.trans hup)
    · exact Bool.false_ne_true (hhere.symm.trans haway)
  · exact ⟨_, _, congrArg Host.Outcome.next (if_pos (by rw [hmem, hup, hhere]; rfl)), length_padTo 124 _, rfl, length_padTo 124 _, rfl⟩
  · rw [memberDrained_eq hl, if_pos ((memberDrained_iff _ _ _ _).mpr h)]
  · rw [memberDrained_eq hl, if_neg (fun hyes => h ((memberDrained_iff _ _ _ _).mp hyes))]
  · rw [schedulerSelect_eq hup hidle, hnone]
  · rw [schedulerSelect_eq hup hidle, hc]
    dsimp only
    rw [hq]
    exact congrArg Host.Outcome.next (if_pos ((readWaits_iff _ _).mpr hwait))
  · rw [schedulerSelect_goes hup hidle hc hq hgo, startFrame_drop hdrop]
    rfl
  · refine ⟨q.tx c (adjustTime ((sec * 1000000000 + ns) * 65536 + frac) ((((s.purgePort p.val).lane? p.val).map (·.txAdj)).getD 0)) f, rfl, rfl, rfl,
      fun hoff => report_none hoff _, fun hon => report_some hon _, ?_⟩
    rw [schedulerSelect_goes hup hidle hc hq hgo, startFrame_send hsend]
    rfl
  · show (Host.Outcome.next _ : Answer) = _
    rw [h]
  · refine ⟨_, transmitComplete_eq hx bad, ?_⟩
    cases hrep : x.report with
    | none => exact ⟨rfl, rfl, rfl, rfl, rfl, fun _ => rfl, fun r h => Option.noConfusion rfl (heq_of_eq h)⟩
    | some r =>
      dsimp only
      by_cases hroom : (State.doneWith ((s.laneCtr p.val 0x0D 1).laneCtr p.val 0x0E (x.bytes.length + 4)) x.handle bad).tm.tsReports.length < 4096
      · rw [if_pos hroom]
        exact ⟨rfl, rfl, rfl, rfl, rfl, fun h => Option.noConfusion rfl (heq_of_eq h), fun r' h _ => Option.some.inj h ▸ rfl⟩
      · rw [if_neg hroom]
        exact ⟨rfl, rfl, rfl, rfl, rfl, fun h => Option.noConfusion rfl (heq_of_eq h), fun r' h hlt => absurd hlt hroom⟩

/-! ### Verdicts -/

/-- The transport unit of a TO_TRANSPORT verdict (R115). -/
theorem unit_of_parity (p : Nat) : (if p % 2 = 0 then 6 else 7) = 6 + p % 2 := by
  split <;> omega

/-- Settles O19: the verdict's kind decides. -/
theorem verdictsTakeEffect : Obligations.VerdictsTakeEffect := by
  unfold Obligations.VerdictsTakeEffect
  intro s v p lane
  have heng : p / 32 * 32 + p % 32 = p := Nat.div_add_mod' p 32
  refine ⟨fun hk => ?_, fun hk hsome => ?_, fun hk hnone => ?_, fun hk hroom => ?_, fun hk hfull => ?_, fun hk => ?_, fun hk => ?_⟩
  · rw [State.verdictEffect, hk]
    rfl
  · rw [State.verdictEffect, hk]
    dsimp only
    rw [heng, if_pos hsome]
    rfl
  · rw [State.verdictEffect, hk]
    dsimp only
    rw [heng, hnone]
    rfl
  · refine ⟨_, rfl, ?_⟩
    rw [State.verdictEffect, hk]
    dsimp only
    rw [if_pos hroom]
    exact ⟨rfl, rfl⟩
  · refine ⟨_, rfl, ?_⟩
    rw [State.verdictEffect, hk]
    dsimp only
    rw [if_neg (Nat.not_lt.mpr hfull)]
    exact ⟨rfl, rfl, rfl⟩
  · refine ⟨_, rfl, ?_⟩
    rw [State.verdictEffect, hk]
    dsimp only
    rw [unit_of_parity]
    exact ⟨rfl, rfl⟩
  · have hother : s.verdictEffect v = { s.removeOwner v.frame.handle ownRx with cls := { (s.removeOwner v.frame.handle ownRx).cls with
        clsDrop := bump (s.removeOwner v.frame.handle ownRx).cls.clsDrop (lane * 256 + p % 256) 1 } } := by
      simp only [List.mem_cons, List.not_mem_nil, or_false, not_or] at hk
      obtain ⟨h3, h4, h5, h6⟩ := hk
      unfold State.verdictEffect
      split
      · exact absurd ‹_› h3
      · exact absurd ‹_› h4
      · exact absurd ‹_› h5
      · exact absurd ‹_› h6
      · rfl
    exact ⟨_, hother, rfl, rfl, rfl⟩

end Sys2Proof.Machine
end

section
/-!
SUPPORT. Work queues (R257 to R270, R364): how caravans are cut and fetched, and the theorem that settles O20.
-/

namespace Sys2Proof.Machine

open Sys2Proof

set_option Elab.async false

/-! ### Cutting (R258) -/

/-- Entries without F and L between them leave an open caravan open. -/
theorem openRest_append {mid : List Desc} (hmid : ∀ d ∈ mid, descIsF d = false ∧ descIsL d = false) (n : Nat) (ds : List Desc) :
    openRest (n + mid.length) (mid ++ ds) = (openRest n ds).map (fun p => (mid ++ p.1, p.2)) := by
  induction mid with
  | nil => simp
  | cons d mid ih =>
    obtain ⟨hf, hl⟩ := hmid d List.mem_cons_self
    show openRest (n + mid.length + 1) (d :: (mid ++ ds)) = _
    rw [openRest, if_neg (ne_true_of_eq_false hf), if_neg (ne_true_of_eq_false hl), ih (fun e he => hmid e (List.mem_cons_of_mem d he)), Option.map_map]
    rfl

/-- A caravan that an F entry without L opens. -/
theorem cutOne_open {a : Desc} (hf : descIsF a = true) (hl : descIsL a = false) (ds : List Desc) :
    cutOne (a :: ds) = (openRest 63 ds).map (fun p => (a :: p.1, p.2)) := by
  rw [cutOne, hf, hl]
  rfl

/-- With entries in between, what the rest of it is decides. -/
theorem cutOne_mid {a : Desc} {mid : List Desc} (hf : descIsF a = true) (hl : descIsL a = false)
    (hmid : ∀ d ∈ mid, descIsF d = false ∧ descIsL d = false) (hlen : mid.length ≤ 63) (ds : List Desc) :
    cutOne (a :: (mid ++ ds)) = (openRest (63 - mid.length) ds).map (fun p => (a :: (mid ++ p.1), p.2)) := by
  have hopen := openRest_append hmid (63 - mid.length) ds
  rw [Nat.sub_add_cancel hlen] at hopen
  rw [cutOne_open hf hl, hopen, Option.map_map]
  rfl

/-- While fewer than 63 entries lie in between there is room for one more. -/
theorem room_left {m : Nat} (h : m < 63) : 63 - m = 62 - m + 1 := by omega

/-- Entries that form one caravan are cut into it alone. -/
theorem cutAll_single {ds : List Desc} (h : cutOne ds = some (ds, [])) : cutAll ds.length ds = [ds] := by
  have hnil : ∀ n, cutAll n [] = [] := fun n => by cases n <;> rfl
  cases ds with
  | nil => exact Option.noConfusion rfl (heq_of_eq h)
  | cons d ds =>
    rw [List.length_cons, cutAll, h]
    exact congrArg _ (hnil _)

/-! ### Fetching (R259) -/

/-- When a caravan can be fetched now (R198, R255, R258, R259, R267, R285). -/
theorem fetchable_iff (s : State) (fn q n : Nat) (v : Queue) : s.fetchable fn q n = some v ↔ Claims.CanFetch s fn q n v := by
  unfold State.fetchable Claims.CanFetch
  cases s.queue (qKey fn q) with
  | none => exact ⟨fun h => Option.noConfusion rfl (heq_of_eq h), fun h => Option.noConfusion rfl (heq_of_eq h.1)⟩
  | some w =>
    dsimp only
    have hleft : 1 ≤ n → (n ≤ s.fetchLeft w ↔ n + (if w.fetchTick = s.time.tick then w.fetchCnt else 0) ≤ 64) := by
      intro hpos
      unfold State.fetchLeft
      split <;> omega
    rw [Option.ite_none_right_eq_some]
    simp only [Bool.and_eq_true, decide_eq_true_eq, Bool.not_eq_true', State.mayFetch, Option.some.injEq, List.contains_eq_mem,
      decide_eq_false_iff_not]
    constructor
    · rintro ⟨⟨⟨⟨⟨⟨⟨hserved, hheld, hres⟩, herr⟩, hpos⟩, htail⟩, hcnt⟩, habort⟩, rfl⟩
      exact ⟨rfl, hserved, hheld, hres, herr, hpos, htail, (hleft hpos).mp hcnt, habort⟩
    · rintro ⟨rfl, hserved, hheld, hres, herr, hpos, htail, hcnt, habort⟩
      exact ⟨⟨⟨⟨⟨⟨⟨hserved, hheld, hres⟩, herr⟩, hpos⟩, htail⟩, (hleft hpos).mpr hcnt⟩, habort⟩, rfl⟩

/-- A caravan that cannot be fetched is not. -/
theorem fetchable_none {s : State} {fn q n : Nat} (h : ¬ ∃ v, Claims.CanFetch s fn q n v) : s.fetchable fn q n = none :=
  Option.eq_none_iff_forall_ne_some.mpr (fun v hv => h ⟨v, (fetchable_iff s fn q n v).mp hv⟩)

/-- Fresh words leave the time alone. -/
theorem freeWords_time (n : Nat) (s : State) : (freeWords n s).2.time = s.time := by
  induction n generalizing s with
  | zero => rfl
  | succ n ih => exact ih s.tickFree

/-- One caravan alone. -/
theorem fetchEach_one (fn q kind : Nat) (c : List Desc) (s : State) : fetchEach fn q kind [c] s = s.fetchOne fn q kind c := by
  rw [fetchEach]
  exact ite_self _

/-- The rows that fetch caravans. -/
theorem caravan_rows {fn q : Nat} {ds : List Desc} {p : Instr × Nat} (hp : p ∈ [(Instr.tx fn q ds, 1), (.rdmaWrite fn q ds, 3), (.rdmaRead fn q ds, 4),
    (.compressJob fn q ds, 0x10), (.decompressJob fn q ds, 0x11), (.gcmSealJob fn q ds, 0x12), (.gcmOpenJob fn q ds, 0x13)]) (s : State) :
    exec p.1 s = .next (fetchEach fn q p.2 (cutAll ds.length ds) s) := by
  simp only [List.mem_cons, List.not_mem_nil, or_false] at hp
  rcases hp with rfl | rfl | rfl | rfl | rfl | rfl | rfl <;> rfl

/-- Where entries form one caravan, it is fetched. -/
theorem caravan_row_one {fn q : Nat} {ds : List Desc} {p : Instr × Nat} (hone : cutOne ds = some (ds, [])) (hp : p ∈ [(Instr.tx fn q ds, 1),
    (.rdmaWrite fn q ds, 3), (.rdmaRead fn q ds, 4), (.compressJob fn q ds, 0x10), (.decompressJob fn q ds, 0x11), (.gcmSealJob fn q ds, 0x12),
    (.gcmOpenJob fn q ds, 0x13)]) (s : State) : exec p.1 s = .next (s.fetchOne fn q p.2 ds) := by
  rw [caravan_rows hp, cutAll_single hone, fetchEach_one]

/-- Without a free operation, or beyond the instance's share of them, the offer is deferred (R10, R277). -/
theorem fetchOne_defers {s : State} {fn q kind : Nat} {ds : List Desc} {v : Queue} (hv : s.fetchable fn q ds.length = some v)
    (h : s.opRoom (fnInstHalf fn) = false ∨ s.freeOp = none) : s.fetchOne fn q kind ds = s.deferOffer fn := by
  rw [State.fetchOne, hv]
  dsimp only
  rcases h with hroom | hnone
  · rw [hroom]
    rfl
  · rw [hnone]
    exact ite_self _

/-- With room for the operation the offer is not deferred. -/
theorem room_not {s : State} {inst : Half} (h : s.opRoom inst = true) : ¬ (!s.opRoom inst) = true := by
  rw [h]
  exact Bool.false_ne_true

/-- A faulty caravan takes its operation and ends at once (R9, R258). -/
theorem fetchOne_faulty {s : State} {fn q kind op : Nat} {ds : List Desc} {v : Queue} {st : Byte} (hv : s.fetchable fn q ds.length = some v)
    (hroom : s.opRoom (fnInstHalf fn) = true) (hop : s.freeOp = some op) (hst : s.caravanFault v kind ds = some st) :
    s.fetchOne fn q kind ds = s.badCaravan (qKey fn q) v ds op st := by
  rw [State.fetchOne, hv]
  dsimp only
  rw [if_neg (room_not hroom), hop, hst]

/-- The bytes that a caravan's buffer has to hold. -/
def caravanSize (kind : Nat) (ds : List Desc) : Nat := if kind = 1 then (ds.headD (lastDesc ds)).len.toNat + dataBytes ds else 32 * ds.length

/-- Without a buffer it stays in its ring and waits (R154). -/
theorem fetchOne_waits {s s1 : State} {fn q kind op : Nat} {ds : List Desc} {v : Queue} (hv : s.fetchable fn q ds.length = some v)
    (hroom : s.opRoom (fnInstHalf fn) = true) (hop : s.freeOp = some op) (hst : s.caravanFault v kind ds = none)
    (halloc : s.alloc (caravanSize kind ds) false ownHost = (none, s1)) : s.fetchOne fn q kind ds = s1.allocWaits ownHost := by
  unfold caravanSize at halloc
  rw [State.fetchOne, hv]
  dsimp only
  rw [if_neg (room_not hroom), hop, hst]
  dsimp only
  rw [halloc]

/-- The operation of a caravan that has its buffer. -/
def State.caravanOp (s : State) (fn q kind : Nat) (ds : List Desc) (arg : List Word) (h : Word) : Operation :=
  { key := qKey fn q, inst := fnInstHalf fn, gen := s.fnGen fn, arg := arg, kind := kind, dead := false, handle := h, len := caravanSize kind ds }

/-- A caravan that has its buffer, `s1` being the state with it: a TX caravan's fragments begin to be read, another one is offered to an engine. -/
theorem fetchOne_goes {s s1 : State} {fn q kind op : Nat} {ds : List Desc} {v : Queue} {h : Word} (hv : s.fetchable fn q ds.length = some v)
    (hroom : s.opRoom (fnInstHalf fn) = true) (hop : s.freeOp = some op) (hst : s.caravanFault v kind ds = none)
    (halloc : s.alloc (caravanSize kind ds) false ownHost = (some h, s1)) :
    let arg := BitVec.ofNat 32 ((ds.headD (lastDesc ds)).spec.toNat % 2 ^ 32) :: (freeWords 7 s1).1
    let o := s.caravanOp fn q kind ds arg h
    let c : Caravan := { op := op, first := v.head, count := ds.length, tag := (lastDesc ds).tag, irq := descIrq (lastDesc ds), out := none }
    let s2 := ((freeWords 7 s1).2.setOp op (some o)).setQueue (qKey fn q) (some (Claims.took s1 v ds.length c))
    let s3 := (s2.bufWrite h 0 ((ds.map descBytes).flatten)).swapOwner h ownHost ownRx
    s.fetchOne fn q kind ds = if kind = 1 then s2.startRead fn (fnInstHalf fn) (s.fnGen fn) (.txPayload op) (ds.map (fun d => (d.addr.toNat, d.len.toNat)))
      else (s3.freeEngine.2.setOp op (some { o with handle := 0 })).arrive s3.freeEngine.1
        (replyArrival 2 (some op) (fnInstHalf fn) (s.fnGen fn) arg h (caravanSize kind ds) 1 0 0) := by
  have htime := congrArg Time.tick (freeWords_time 7 s1)
  unfold State.caravanOp caravanSize Claims.took at *
  rw [State.fetchOne, hv]
  dsimp only [-Nat.reducePow]
  rw [if_neg (room_not hroom), hop, hst]
  dsimp only [-Nat.reducePow]
  rw [halloc]
  dsimp only [-Nat.reducePow]
  rw [htime]
  rfl

/-! ### Receive buffers (R257) -/

/-- A posted receive buffer joins its queue, or its caravan completes BAD_DESCRIPTOR. -/
theorem postRx_eq {s : State} {fn q : Nat} {ds : List Desc} {v : Queue} (hv : s.fetchable fn q ds.length = some v) :
    let ok := rxPostOk (lastDesc ds) && decide (ds.length = 1) && decide (v.type = 2)
    let c : Caravan := { op := noOp, first := v.head, count := ds.length, tag := (lastDesc ds).tag, irq := descIrq (lastDesc ds),
                         out := if ok = true then none else some (0x0A, 0, if v.type = 2 then 0 else 6) }
    let w := Claims.took s v ds.length c
    State.postRx fn q s ds = (s.setQueue (qKey fn q) (some (if ok = true then
      { w with rxBufs := w.rxBufs ++ [{ slot := v.head, addr := (lastDesc ds).addr.toNat, len := (lastDesc ds).len.toNat }] } else w))).drain (qKey fn q) := by
  rw [State.postRx, hv]
  rfl

/-- When a posted buffer is as R257 has it. -/
theorem postOk_iff (d : Desc) (n type : Nat) :
    (rxPostOk d && decide (n = 1) && decide (type = 2)) = true ↔ rxPostOk d = true ∧ n = 1 ∧ type = 2 := by
  rw [Bool.and_eq_true, Bool.and_eq_true, decide_eq_true_eq, decide_eq_true_eq, and_assoc]

/-- RX_POST of the entries of one caravan. -/
theorem rxPost_one {fn q : Nat} {ds : List Desc} (hone : cutOne ds = some (ds, [])) (s : State) :
    exec (.rxPost fn q ds) s = .next (State.postRx fn q s ds) := by
  show (Host.Outcome.next ((cutAll ds.length ds).foldl (State.postRx fn q) s) : Answer) = _
  rw [cutAll_single hone]
  rfl

/-- Settles O20: the cut by the entries in between, the fetch by what stands in its way in turn. -/
theorem caravansAreFetched : Obligations.CaravansAreFetched := by
  unfold Obligations.CaravansAreFetched
  refine ⟨fun d ds h => ?_, fun a mid rest hf hl hmid => ⟨fun l hlen hlf hll => ?_, fun f hlen hff => ?_, fun hlen => ?_, fun hlen => ?_⟩,
    fun s fn q kind c cs => ⟨rfl, fun hstay => if_pos hstay, fun hmove => if_neg hmove⟩, fun s fn q ds p hp => caravan_rows hp s,
    fun s fn q ds hone p hp => ⟨fun hno => ?_, fun v hv => ⟨fun hfull => ?_, fun op hroom hop => ⟨fun st hst => ?_, fun hst => ⟨fun s1 halloc => ?_, fun h s1 halloc => ?_⟩⟩⟩⟩,
    fun s fn q ds => rfl, fun s fn q ds hone => ⟨fun hno => ?_, fun v hv => ⟨fun hok hlen htype => ?_, fun hbad => ?_⟩⟩⟩
  · refine if_pos ?_
    rw [Bool.or_eq_true, Bool.not_eq_true']
    exact h
  · rw [cutOne_mid hf hl hmid (Nat.le_of_lt hlen), room_left hlen, openRest, if_neg (ne_true_of_eq_false hlf), if_pos hll]
    rfl
  · rw [cutOne_mid hf hl hmid (Nat.le_of_lt hlen), room_left hlen, openRest, if_pos hff]
    show some (a :: (mid ++ []), f :: rest) = _
    rw [List.append_nil]
  · rw [cutOne_mid hf hl hmid (Nat.le_of_eq hlen), hlen]
    show some (a :: (mid ++ []), rest) = _
    rw [List.append_nil]
  · have hend := cutOne_mid hf hl hmid (Nat.le_of_lt hlen) []
    rw [List.append_nil] at hend
    rw [hend, room_left hlen]
    rfl
  · rw [caravan_row_one hone hp, State.fetchOne, fetchable_none hno]
  · rw [caravan_row_one hone hp, fetchOne_defers ((fetchable_iff _ _ _ _ _).mpr hv) hfull]
  · rw [caravan_row_one hone hp, fetchOne_faulty ((fetchable_iff _ _ _ _ _).mpr hv) hroom hop hst]
    rfl
  · rw [caravan_row_one hone hp, fetchOne_waits ((fetchable_iff _ _ _ _ _).mpr hv) hroom hop hst halloc]
  · rw [caravan_row_one hone hp, fetchOne_goes ((fetchable_iff _ _ _ _ _).mpr hv) hroom hop hst halloc]
    exact ⟨(freeWords 7 s1).1, fun htx => congrArg Host.Outcome.next (if_pos htx), fun hother => congrArg Host.Outcome.next (if_neg hother)⟩
  · rw [rxPost_one hone, State.postRx, fetchable_none hno]
  · rw [rxPost_one hone, postRx_eq ((fetchable_iff _ _ _ _ _).mpr hv), (postOk_iff _ _ _).mpr ⟨hok, hlen, htype⟩]
    rfl
  · have hno : (rxPostOk (lastDesc ds) && decide (ds.length = 1) && decide (v.type = 2)) = false := by
      rw [Bool.eq_false_iff, ne_eq, postOk_iff]
      rintro ⟨hok, hlen, htype⟩
      rcases hbad with hform | hmany | hother
      · exact Bool.false_ne_true (hform.symm.trans hok)
      · exact hmany hlen
      · exact hother htype
    rw [rxPost_one hone, postRx_eq ((fetchable_iff _ _ _ _ _).mpr hv), hno]
    rfl

end Sys2Proof.Machine
end

section
/-!
SUPPORT. The admin commands of a network function's queue 0 (R263 to R270): the theorem that settles O21.
-/

namespace Sys2Proof.Machine

open Sys2Proof

set_option Elab.async false

/-- What an admin command that runs asks for, by its code: its settling in the commit, and its change at the turn (R263 to R269). -/
def adminRun (fn : Nat) (d : Desc) (b : List Byte) (code : Nat) (s : State) (key op : Nat) : State :=
  let q := qKey fn (fieldLe b 0 2)
  let finish := fun (st : Byte) => s.adminDue (.finish key op st 0)
  if code = 0x40 then
    if s.judgeCreate fn b = 0 then (finish (s.judgeCreate fn b)).adminChange (.create q
      (Queue.make (fieldLe b 2 1) (fieldLe b 3 1) (fieldLe b 4 1) (fieldLe b 6 2) (fieldLe b 8 8) (fieldLe b 16 8) (fieldLe b 24 2) (fieldLe b 26 2) (fieldLe b 28 4)))
    else finish (s.judgeCreate fn b)
  else if code = 0x41 ∨ code = 0x42 then
    if fieldLe b 0 2 = 0 then finish 0x0F else if (s.queue q).isNone = true then finish 0x11 else s.adminChange (.finish q key op (decide (code = 0x41)))
  else if (s.queue q).isNone = true then finish 0x11
  else if code = 0x43 then s.adminDue (.abort key op q (BitVec.ofNat 64 (fieldLe b 8 8)))
  else if code = 0x45 then s.adminDue (.query key op q d.addr.toNat)
  else if s.vectorsOf fn ≤ fieldLe b 2 2 ∨ modOk (fieldLe b 4 2) (fieldLe b 6 2) = false ∨ (fieldLe b 0 2 = 0 ∧ (fieldLe b 2 2 ≠ 0 ∨ fieldLe b 4 2 ≠ 0)) then
    finish 0x0A
  else (finish 0).adminChange (.moderate q (fieldLe b 2 2) (fieldLe b 4 2) (fieldLe b 6 2))

/-- The admin commands' rows, by their codes. -/
def adminRows (fn : Nat) (d : Desc) (b : List Byte) : List (Instr × Nat) :=
  [(.createQueue fn d b, 0x40), (.destroyQueue fn d b, 0x41), (.resetQueue fn d b, 0x42), (.abort fn d b, 0x43), (.setModeration fn d b, 0x44),
   (.queryQueue fn d b, 0x45)]

/-- Each of them runs by its code. -/
theorem admin_rows {fn : Nat} {d : Desc} {b : List Byte} {p : Instr × Nat} (hp : p ∈ adminRows fn d b) (s : State) :
    exec p.1 s = .next (s.adminOp fn p.2 d (adminRun fn d b p.2)) := by
  simp only [adminRows, List.mem_cons, List.not_mem_nil, or_false] at hp
  rcases hp with rfl | rfl | rfl | rfl | rfl | rfl <;> rfl

/-- Without a free operation, or beyond the instance's share of them, the offer is deferred (R10, R277). -/
theorem adminOp_defers {s : State} {fn kind : Nat} {d : Desc} {run : State → Nat → Nat → State} {v : Queue} (hv : s.fetchable fn 0 1 = some v)
    (h : s.opRoom (fnInstHalf fn) = false ∨ s.freeOp = none) : s.adminOp fn kind d run = s.deferOffer fn := by
  rw [State.adminOp, hv]
  dsimp only
  rcases h with hroom | hnone
  · rw [hroom]
    rfl
  · rw [hnone]
    exact ite_self _

/-- A malformed descriptor completes BAD_DESCRIPTOR (R263). -/
theorem adminOp_malformed {s : State} {fn kind op : Nat} {d : Desc} {run : State → Nat → Nat → State} {v : Queue} (hv : s.fetchable fn 0 1 = some v)
    (hroom : s.opRoom (fnInstHalf fn) = true) (hop : s.freeOp = some op) (hbad : adminDescOk kind d = false) :
    s.adminOp fn kind d run = s.badCaravan (qKey fn 0) v [d] op 0x0A := by
  rw [State.adminOp, hv]
  dsimp only
  rw [if_neg (room_not hroom), hop, hbad]
  rfl

/-- A well-formed one runs as an operation (R259, R263). -/
theorem adminOp_runs {s : State} {fn kind op : Nat} {d : Desc} {run : State → Nat → Nat → State} {v : Queue} (hv : s.fetchable fn 0 1 = some v)
    (hroom : s.opRoom (fnInstHalf fn) = true) (hop : s.freeOp = some op) (hok : adminDescOk kind d = true) :
    s.adminOp fn kind d run = run ((s.setOp op (some (s.opFor (qKey fn 0) kind))).setQueue (qKey fn 0)
      (some (Claims.took s v 1 { op := op, first := v.head, count := 1, tag := d.tag, irq := descIrq d, out := none }))) (qKey fn 0) op := by
  rw [State.adminOp, hv]
  dsimp only
  rw [if_neg (room_not hroom), hop, hok]
  rfl

/-- A queue that does not exist, as the commands test it. -/
theorem queue_isNone {s : State} {key : Nat} (h : s.queue key = none) : (s.queue key).isNone = true := by
  rw [h]
  rfl

/-- One that does. -/
theorem queue_not_isNone {s : State} {key : Nat} (h : s.queue key ≠ none) : ¬ (s.queue key).isNone = true := by
  rw [Option.isNone_iff_eq_none]
  exact h

section
variable {fn : Nat} {d : Desc} {b : List Byte} {code key op : Nat} {s : State}

/-- CREATE_QUEUE settles the status of its judgement, with the queue's making when it is OK (R264). -/
theorem adminRun_create (h : code = 0x40) : adminRun fn d b code s key op =
    if s.judgeCreate fn b = 0 then (s.adminDue (.finish key op (s.judgeCreate fn b) 0)).adminChange (.create (qKey fn (fieldLe b 0 2))
      (Queue.make (fieldLe b 2 1) (fieldLe b 3 1) (fieldLe b 4 1) (fieldLe b 6 2) (fieldLe b 8 8) (fieldLe b 16 8) (fieldLe b 24 2) (fieldLe b 26 2) (fieldLe b 28 4)))
    else s.adminDue (.finish key op (s.judgeCreate fn b) 0) := if_pos h

/-- DESTROY_QUEUE and RESET_QUEUE (R266). -/
theorem adminRun_end (h : code = 0x41 ∨ code = 0x42) : adminRun fn d b code s key op =
    if fieldLe b 0 2 = 0 then s.adminDue (.finish key op 0x0F 0)
    else if (s.queue (qKey fn (fieldLe b 0 2))).isNone = true then s.adminDue (.finish key op 0x11 0)
    else s.adminChange (.finish (qKey fn (fieldLe b 0 2)) key op (decide (code = 0x41))) :=
  (if_neg (by omega)).trans (if_pos h)

/-- The other commands name a queue that exists (R267, R269). -/
theorem adminRun_other (h : 0x43 ≤ code) : adminRun fn d b code s key op =
    if (s.queue (qKey fn (fieldLe b 0 2))).isNone = true then s.adminDue (.finish key op 0x11 0)
    else if code = 0x43 then s.adminDue (.abort key op (qKey fn (fieldLe b 0 2)) (BitVec.ofNat 64 (fieldLe b 8 8)))
    else if code = 0x45 then s.adminDue (.query key op (qKey fn (fieldLe b 0 2)) d.addr.toNat)
    else if s.vectorsOf fn ≤ fieldLe b 2 2 ∨ modOk (fieldLe b 4 2) (fieldLe b 6 2) = false ∨ (fieldLe b 0 2 = 0 ∧ (fieldLe b 2 2 ≠ 0 ∨ fieldLe b 4 2 ≠ 0)) then
      s.adminDue (.finish key op 0x0A 0)
    else (s.adminDue (.finish key op 0 0)).adminChange (.moderate (qKey fn (fieldLe b 0 2)) (fieldLe b 2 2) (fieldLe b 4 2) (fieldLe b 6 2)) :=
  (if_neg (by omega)).trans (if_neg (by omega))

end

/-- Moderation that has waited long enough requests its vector (R270). -/
theorem moderationExpiry_eq {s : State} {fn q : Nat} {v : Queue} (hv : s.queue (qKey fn q) = some v) : exec (.moderationExpiry fn q) s =
    .next (if s.time.phase = .commit ∧ 0 < v.pendCount ∧ v.pendSince + v.modTicks ≤ s.time.tick then
      (s.setQueue (qKey fn q) (some { v with pendCount := 0 })).msix fn v.vector else s) := by
  show (Host.Outcome.next _ : Answer) = _
  rw [hv]

/-- Settles O21: the fetch as a caravan's, then what the command's code asks for. -/
theorem queueAdminCommandsAct : Obligations.QueueAdminCommandsAct := by
  unfold Obligations.QueueAdminCommandsAct
  refine ⟨fun s fn d b p hp => ⟨fun hno => ?_, fun v hv => ⟨fun hfull => ?_, fun op hroom hop => ⟨fun hbad => ?_, fun hok => ?_⟩⟩⟩,
    fun s fn q v hv => ⟨fun hdue => ?_, fun hyet => ?_⟩, fun s fn q hv => ?_⟩
  · rw [admin_rows hp, State.adminOp, fetchable_none hno]
  · rw [admin_rows hp, adminOp_defers ((fetchable_iff _ _ _ _ _).mpr hv) hfull]
  · rw [admin_rows hp, adminOp_malformed ((fetchable_iff _ _ _ _ _).mpr hv) hroom hop hbad]
    rfl
  · have hrun := (admin_rows hp s).trans (congrArg Host.Outcome.next (adminOp_runs ((fetchable_iff _ _ _ _ _).mpr hv) hroom hop hok))
    refine ⟨fun hcode hst => ?_, fun hcode hst => ?_, fun hcode => ⟨fun hq => ?_, fun hq hnone => ?_, fun hq hsome => ?_⟩, fun hcode hnone => ?_,
      fun hcode hsome => ?_, fun hcode hsome => ?_, fun hcode hsome => ⟨fun hbad => ?_, fun hgood => ?_⟩⟩
    · exact hrun.trans (congrArg Host.Outcome.next ((adminRun_create hcode).trans (if_neg hst)))
    · refine hrun.trans (congrArg Host.Outcome.next ((adminRun_create hcode).trans ((if_pos hst).trans ?_)))
      exact congrArg (fun st => State.adminChange (State.adminDue _ (.finish _ _ st 0)) _) hst
    · exact hrun.trans (congrArg Host.Outcome.next ((adminRun_end hcode).trans (if_pos hq)))
    · exact hrun.trans (congrArg Host.Outcome.next ((adminRun_end hcode).trans ((if_neg hq).trans (if_pos (queue_isNone hnone)))))
    · exact hrun.trans (congrArg Host.Outcome.next ((adminRun_end hcode).trans ((if_neg hq).trans (if_neg (queue_not_isNone hsome)))))
    · exact hrun.trans (congrArg Host.Outcome.next ((adminRun_other hcode).trans (if_pos (queue_isNone hnone))))
    all_goals
      have hother := fun h => hrun.trans (congrArg Host.Outcome.next ((adminRun_other h).trans (if_neg (queue_not_isNone hsome))))
    · exact (hother (by omega)).trans (congrArg Host.Outcome.next (if_pos hcode))
    · exact (hother (by omega)).trans (congrArg Host.Outcome.next ((if_neg (by omega)).trans (if_pos hcode)))
    · exact (hother (by omega)).trans (congrArg Host.Outcome.next ((if_neg (by omega)).trans ((if_neg (by omega)).trans (if_pos hbad))))
    · exact (hother (by omega)).trans (congrArg Host.Outcome.next ((if_neg (by omega)).trans ((if_neg (by omega)).trans (if_neg hgood))))
  · rw [moderationExpiry_eq hv, if_pos hdue]
  · rw [moderationExpiry_eq hv, if_neg hyet]
  · show (Host.Outcome.next _ : Answer) = _
    rw [hv]

end Sys2Proof.Machine
end

section
/-!
SUPPORT. Storage backends (R311 to R321): the theorem that settles O23.
-/

namespace Sys2Proof.Machine

open Sys2Proof

set_option Elab.async false

/-! ### Connections -/

/-- BACKEND_CONNECTION_LOST of a backend (R319). -/
theorem connectionLost_eq {s : State} {b : Nat} {v : Backend} (hv : s.backend b = some v) : exec (.backendConnectionLost b) s =
    .next (if v.up = true then (s.setBackend b (some { v with up := false, lostAt := some s.time.tick, tries := 0, queues := [] })).log 0x0A02 b 0 else s) := by
  show (Host.Outcome.next _ : Answer) = _
  rw [hv]

/-- BACKEND_KEEP_ALIVE of a backend (R317). -/
theorem keepAlive_eq {s : State} {b : Nat} {v : Backend} (hv : s.backend b = some v) : exec (.backendKeepAlive b) s =
    .next (if v.up = true then (s.setBackend b (some { v with keepAlives := v.keepAlives + 1 })).toBackend b 0 (padTo 64 [0x18]) else s) := by
  show (Host.Outcome.next _ : Answer) = _
  rw [hv]

/-- BACKEND_CONNECTED of a backend (R317). -/
theorem connected_eq {s : State} {b : Nat} {v : Backend} (hv : s.backend b = some v) : exec (.backendConnected b) s =
    .next (if v.up = true then s
      else ((s.setBackend b (some { v with up := true, lostAt := none })).log 0x0A02 b 1).pumpBackends.settleAdd b) := by
  show (Host.Outcome.next _ : Answer) = _
  rw [hv]

/-- BACKEND_RECONNECT of a backend (R319). -/
theorem reconnect_eq {s : State} {b : Nat} {v : Backend} (hv : s.backend b = some v) (up : Bool) : exec (.backendReconnect b up) s =
    .next (if (!s.tryDue v) = true then s
      else if up = true then (((s.toBackend b 0 (connectCapsule 0 v.subnqn)).setBackend b (some { v with up := true, lostAt := none, tries := 0 })).log 0x0A02 b 1).pumpBackends
      else (s.toBackend b 0 (connectCapsule 0 v.subnqn)).setBackend b (some { v with tries := v.tries + 1 })) := by
  show (Host.Outcome.next _ : Answer) = _
  rw [hv]

/-- A backend that is up is not tried again. -/
theorem tryDue_up {s : State} {v : Backend} (hup : v.up = true) : s.tryDue v = false := by
  unfold State.tryDue
  cases v.lostAt with
  | none => rfl
  | some l =>
    dsimp only
    rw [hup]
    rfl

/-- When the next try of a backend that is down is due (R319). -/
theorem tryDue_iff {s : State} {v : Backend} (hdown : v.up = false) :
    s.tryDue v = true ↔ ∃ l, v.lostAt = some l ∧ l + (v.tries + 1) * s.msTicks 500 ≤ s.time.tick := by
  unfold State.tryDue
  cases v.lostAt with
  | none => exact ⟨fun h => Bool.noConfusion h, fun ⟨l, hl, _⟩ => Option.noConfusion rfl (heq_of_eq hl)⟩
  | some l =>
    dsimp only
    rw [hdown, Bool.not_false, Bool.true_and, decide_eq_true_eq]
    exact ⟨fun h => ⟨l, rfl, h⟩, fun ⟨m, hm, hle⟩ => Option.some.inj hm ▸ hle⟩

/-- A queue of a backend that is not used for 10 s is closed (R313). -/
theorem idleClose_eq {s : State} {b q t : Nat} {v : Backend} (hv : s.backend b = some v) (ht : FMap.get none v.queues q = some t) :
    exec (.backendQueueIdleClose b q) s = .next (if t + s.msTicks 10000 ≤ s.time.tick then
      s.setBackend b (some { v with queues := FMap.set none v.queues q none }) else s) := by
  show (Host.Outcome.next _ : Answer) = _
  rw [hv]
  dsimp only
  rw [ht]

/-! ### Commands and their replies -/

/-- BACKEND_COMMAND_TIMEOUT of a command (R319). -/
theorem commandTimeout_eq {s : State} {ref : Nat} {c : BackendCmd} (hc : s.bcmd ref = some c) : exec (.backendCommandTimeout ref) s =
    .next (if s.bcmdExpired c = true then (if c.cancelled = true then (s.setBcmd ref none).pumpBackends else s.endBcmd ref c 3) else s) := by
  show (Host.Outcome.next _ : Answer) = _
  rw [hc]

/-- A command that was sent times out 2 s later (R319). -/
theorem expired_of_sent {s : State} {c : BackendCmd} {t : Nat} (hsent : c.sent = some t) (hlate : t + s.msTicks 2000 ≤ s.time.tick) :
    s.bcmdExpired c = true := by
  unfold State.bcmdExpired
  rw [hsent]
  dsimp only
  rw [decide_eq_true hlate, Bool.true_or]

/-- A reply whose command is not known is the Identify data of an NS_CREATE, or is discarded (R317, R321). -/
theorem backendReply_unknown {s : State} {ref : Nat} (hc : s.bcmd ref = none) (b lane off : Nat) (rk st : Byte) (d : List Byte) :
    exec (.backendReply b ref rk st off d lane) s = .next (match (generalizing := false) s.identifying ref with
      | some w => if (w.objs.contains (obj .backend b) && decide (rk = 2) && decide (st = 0)) = true then s.nsAnswer w (remoteOf d) else s
      | none => s) := by
  show (Host.Outcome.next _ : Answer) = _
  rw [hc] <;> rfl

/-- A reply of another backend, or to a command that has not left, is discarded. -/
theorem backendReply_discarded {s : State} {b ref : Nat} {c : BackendCmd} (hc : s.bcmd ref = some c) (h : c.backend ≠ b ∨ c.sent = none)
    (lane off : Nat) (rk st : Byte) (d : List Byte) : exec (.backendReply b ref rk st off d lane) s = .next s := by
  show (Host.Outcome.next _ : Answer) = _
  rw [hc]
  rcases h with hother | hnone
  · exact congrArg Host.Outcome.next (if_neg hother)
  · dsimp only
    rw [State.backendReplyIn, hc]
    dsimp only
    rw [hnone, Option.isNone_none, if_pos rfl, ite_self]

/-- A reply to a command that has left, from its backend (R321). -/
theorem backendReply_known {s : State} {b ref : Nat} {c : BackendCmd} (hc : s.bcmd ref = some c) (hb : c.backend = b) (hsent : c.sent ≠ none)
    (lane off : Nat) (rk st : Byte) (d : List Byte) : exec (.backendReply b ref rk st off d lane) s =
      .next (if c.cancelled = true then (if rk = 3 then (s.setBcmd ref none).pumpBackends else s)
        else
          let p := s.backendAnswer c.req rk.toNat ref off (if rk = 3 then padTo 16 d else d) st
          if (!p.1) = true then p.2.rxNoBuffer lane c.req.inst
          else if rk = 3 then ((p.2.noteResponse c (padTo 16 d)).setBcmd ref none).pumpBackends
          else p.2) := by
  have hleft : ¬ c.sent.isNone = true := by
    rw [Option.isNone_iff_eq_none]
    exact hsent
  show (Host.Outcome.next _ : Answer) = _
  rw [hc]
  dsimp only
  rw [if_pos hb, State.backendReplyIn, hc]
  dsimp only
  rw [if_neg hleft]

/-- Settles O23: each row of a backend by whether it is up; a reply by what is known of its command. -/
theorem backendsConnectAndAnswer : Obligations.BackendsConnectAndAnswer := by
  unfold Obligations.BackendsConnectAndAnswer
  refine fun s b => ⟨fun hnone => ?_, fun v hv => ⟨fun hup => ⟨?_, fun up => ?_, ?_⟩, fun hdown => ⟨?_, ?_, ⟨fun hno up => ?_, fun hdue => ⟨?_, ?_⟩⟩, ?_⟩, fun hup => ?_,
      fun q t ht => ⟨fun hidle => ?_, fun hused => ?_⟩⟩,
    fun ref hc => ⟨?_, fun lane rk st off d => ⟨fun hno => ?_, fun w hw => ⟨fun hyes => ?_, fun hnot => ?_⟩⟩⟩,
    fun ref c hc => ⟨fun hfresh => ?_, fun hold hopen => ?_, fun hold hcan => ?_, fun t hsent _ hlate => expired_of_sent hsent hlate,
      fun lane rk st off d => ⟨fun h => backendReply_discarded hc h lane off rk st d, fun hb hsent hcan => ?_, fun hb hsent hopen => ⟨fun t hans => ?_, fun t hans hmore => ?_, fun t hans hlast => ?_⟩⟩⟩⟩
  · have hrow : ∀ {f : Backend → State}, (Host.Outcome.next (match (generalizing := false) s.backend b with | some v => f v | none => s) : Answer) = .next s := by
      intro f
      rw [hnone]
    exact ⟨fun up => hrow, hrow, hrow, hrow, fun q => hrow⟩
  · rw [connectionLost_eq hv, if_pos hup]
  · rw [reconnect_eq hv, tryDue_up hup]
    rfl
  · rw [keepAlive_eq hv, if_pos hup]
  · rw [connectionLost_eq hv, if_neg (ne_true_of_eq_false hdown)]
  · rw [keepAlive_eq hv, if_neg (ne_true_of_eq_false hdown)]
  · have hyet : s.tryDue v = false := Bool.eq_false_iff.mpr (fun h => hno ((tryDue_iff hdown).mp h))
    rw [reconnect_eq hv, hyet]
    rfl
  · rw [reconnect_eq hv, (tryDue_iff hdown).mpr hdue]
    rfl
  · rw [reconnect_eq hv, (tryDue_iff hdown).mpr hdue]
    rfl
  · rw [connected_eq hv, if_neg (ne_true_of_eq_false hdown)]
  · rw [connected_eq hv, if_pos hup]
  · rw [idleClose_eq hv ht, if_pos hidle]
  · rw [idleClose_eq hv ht, if_neg (Nat.not_le.mpr hused)]
  · show (Host.Outcome.next _ : Answer) = _
    rw [hc]
  · rw [backendReply_unknown hc, hno]
  · obtain ⟨hobj, hkind, hst⟩ := hyes
    rw [backendReply_unknown hc, hw]
    dsimp only
    rw [List.contains_iff_mem.mpr hobj, decide_eq_true hkind, decide_eq_true hst]
    rfl
  · rw [backendReply_unknown hc, hw]
    refine congrArg Host.Outcome.next (if_neg ?_)
    rw [Bool.and_eq_true, Bool.and_eq_true, decide_eq_true_eq, decide_eq_true_eq, List.contains_iff_mem, and_assoc]
    exact hnot
  · rw [commandTimeout_eq hc, if_neg (ne_true_of_eq_false hfresh)]
  · rw [commandTimeout_eq hc, if_pos hold, if_neg (ne_true_of_eq_false hopen)]
  · rw [commandTimeout_eq hc, if_pos hold, if_pos hcan]
  · rw [backendReply_known hc hb hsent, if_pos hcan]
  · rw [backendReply_known hc hb hsent, if_neg (ne_true_of_eq_false hopen), hans]
    rfl
  · rw [backendReply_known hc hb hsent, if_neg (ne_true_of_eq_false hopen), hans]
    exact congrArg Host.Outcome.next (if_neg hmore)
  · rw [backendReply_known hc hb hsent, if_neg (ne_true_of_eq_false hopen), hans]
    exact congrArg Host.Outcome.next (if_pos hlast)

end Sys2Proof.Machine
end

section
/-!
SUPPORT. The queries of the firmware (R233 to R248): the theorem that settles O24.
-/

namespace Sys2Proof.Machine

open Sys2Proof

set_option Elab.async false

/-- A query whose checks hold answers; the checks look at what reading the block leaves alone. -/
theorem answers_of {s : State} {h : MbHdr} {c : Instr} {r : CmdRow} {j : Judge} {res : State → List Byte}
    (hrow : exec c s = .next (s.runQuery h r j res)) (hbad : j.bad = none) (hmissing : j.missing s = none) (hheld : s.holding j.objs = none)
    (hpre : j.pre s = none) (hm : ∀ ptr, j.missing (s.read h r ptr) = j.missing s) (hp : ∀ ptr, j.pre (s.read h r ptr) = j.pre s) :
    Claims.Answers s h c r j.need res := fun ptr _ hacts =>
  hrow.trans (congrArg Host.Outcome.next (query_run hacts hbad hmissing hheld hpre (hm ptr) (hp ptr)))

/-- A query that checks nothing but its length answers. -/
theorem answers_plain {s : State} {h : MbHdr} {c : Instr} {r : CmdRow} {need : Nat} {res : State → List Byte}
    (hrow : exec c s = .next (s.runQuery h r (Judge.plain need) res)) : Claims.Answers s h c r need res :=
  answers_of hrow rfl rfl (holding_nil s) rfl (fun _ => rfl) (fun _ => rfl)

/-- One that also has an operand in range. -/
theorem answers_ranged {s : State} {h : MbHdr} {c : Instr} {r : CmdRow} {need : Nat} {bad : Option Nat} {res : State → List Byte}
    (hrow : exec c s = .next (s.runQuery h r { Judge.plain need with bad := bad } res)) (hbad : bad = none) : Claims.Answers s h c r need res :=
  answers_of (j := { Judge.plain need with bad := bad }) hrow hbad rfl (holding_nil s) rfl (fun _ => rfl) (fun _ => rfl)

/-- What a query answers may be said by what it finds. -/
theorem answers_congr {s : State} {h : MbHdr} {c : Instr} {r : CmdRow} {need : Nat} {res res' : State → List Byte} (ha : Claims.Answers s h c r need res)
    (heq : ∀ ptr, res (s.read h r ptr) = res' (s.read h r ptr)) : Claims.Answers s h c r need res' := by
  intro ptr len hacts
  rw [ha ptr len hacts, heq ptr]

/-- An object that exists is not missing. -/
theorem missing_none {α : Type} {o : Option α} {n : Nat} (h : o ≠ none) : (if o.isSome = true then none else some n) = none :=
  if_pos (Option.isSome_iff_ne_none.mpr h)

/-- An engine set of numbers below 1,024 is in range for a command that is no Hivia command. -/
theorem engset_ok {v2 : Bool} {set : List Nat} (hv2 : v2 = false) (hset : ∀ n ∈ set, n < 1024) : engsetBad v2 set = none := by
  refine if_neg ?_
  rw [hv2, Bool.false_and, Bool.or_false, List.any_eq_true]
  rintro ⟨n, hn, hlarge⟩
  exact Nat.not_le.mpr (hset n hn) (of_decide_eq_true hlarge)

/-- The engines of a set in their order are those of the set. -/
theorem mem_engsetOf {set : List Nat} {n : Nat} (h : n ∈ engsetOf set) : n ∈ set := List.contains_iff_mem.mp (List.of_mem_filter h)

/-- A set of engines that all exist has no absent one. -/
theorem absent_none {s : State} {set : List Nat} (h : ∀ n ∈ set, s.peng n ≠ none) : s.absentEngine set = none := by
  refine List.find?_eq_none.mpr (fun n hn => ?_)
  rw [Option.isNone_iff_eq_none]
  exact h n (mem_engsetOf hn)

/-- The judgement of PROGRAM_QUERY. -/
def programJudge (v2 : Bool) (set : List Nat) : Judge :=
  { need := 128, bad := engsetBad v2 set, objs := [], missing := fun _ => none, pre := fun s => (s.absentEngine set).map (vObj 0x10) }

/-- The program query of engines that exist. -/
theorem programQuery_answers {s : State} {h : MbHdr} {set : List Nat} (hv2 : h.v2 = false) (hset : ∀ n ∈ set, n < 1024)
    (heng : ∀ n ∈ set, s.peng n ≠ none) : Claims.Answers s h (.programQuery h set) (row 0x040F) 128
      (fun u => ((u.engset set).map (fun (pe : Nat) => leBytes 2 (u.eng pe).bank.program.toNat ++ leBytes 2 (u.eng pe).idleBank.program.toNat)).flatten) := by
  have hpre : ∀ u : State, (∀ n ∈ set, u.peng n ≠ none) → (programJudge h.v2 set).pre u = none := fun u hu => by
    simp only [programJudge, absent_none hu, Option.map_none]
  exact answers_of (j := programJudge h.v2 set) rfl (engset_ok hv2 hset) rfl (holding_nil s) (hpre s heng) (fun _ => rfl)
    (fun ptr => (hpre (s.read h (row 0x040F) ptr) heng).trans (hpre s heng).symm)

/-- A queue of a PF names no instance. -/
theorem queueJudge_own {need n : Nat} {pf : Byte} (h : n = 0xFFFF) : (queueJudge need n pf).objs = [] := if_pos h

/-- A queue of a VF names its instance (R231). -/
theorem queueJudge_inst {need n : Nat} {pf : Byte} (h : n ≠ 0xFFFF) : (queueJudge need n pf).objs = [obj .inst n] := if_neg h

/-- Settles O24: every query's checks hold under its hypotheses. -/
theorem mbadelQueriesAnswer : Obligations.MbadelQueriesAnswer := by
  unfold Obligations.MbadelQueriesAnswer
  refine fun s h => ⟨?_, fun first max => ⟨?_, ?_, ?_⟩, fun oe hoe => ?_, fun n hn hinst => ?_, fun n pf q hinst hpf => ?_, fun set hset heng => ?_,
    fun q c hq hc hheld => ?_, fun n v hn hv hheld => ?_⟩
  · simp only [List.forall_mem_cons, List.not_mem_nil, false_imp_iff, implies_true, and_true]
    exact ⟨answers_plain rfl, answers_plain rfl, answers_plain rfl, answers_plain rfl, answers_plain rfl, answers_plain rfl, answers_plain rfl,
      answers_plain rfl, answers_plain rfl, answers_plain rfl, answers_plain rfl⟩
  · exact answers_ranged (bad := none) rfl rfl
  · exact answers_ranged (bad := none) rfl rfl
  · exact answers_plain rfl
  · exact answers_ranged rfl (if_pos hoe)
  · exact answers_of (j := { Judge.plain 128 with bad := if n < 4096 then none else some 0, missing := noInst n }) rfl (if_pos hn) (missing_none hinst) (holding_nil s) rfl (fun _ => rfl) (fun _ => rfl)
  · refine answers_of (j := queueJudge 8 n pf) rfl ?_ ?_ ?_ rfl (fun _ => rfl) (fun _ => rfl)
    · exact (if_neg (by omega)).trans (if_pos hpf)
    · exact if_pos (hinst.imp id (fun hi => Option.isSome_iff_ne_none.mpr hi.2.1))
    · rcases hinst with hpf0 | ⟨hlt, -, hheld⟩
      · rw [queueJudge_own hpf0]
        exact holding_nil s
      · rw [queueJudge_inst (by omega)]
        exact hheld
  · intro ptr len hacts
    have hv2 : h.v2 = false := by
      obtain ⟨⟨-, -, -, -, -, -, -, -, hv2, -⟩, -⟩ := id hacts
      exact hv2.elim id (fun hno => Bool.noConfusion hno)
    exact programQuery_answers hv2 hset heng ptr len hacts
  · have hlt : ¬ 2 ^ 24 ≤ q := Nat.not_le.mpr hq
    refine answers_congr (answers_of (j := { need := 12, bad := if 2 ^ 24 ≤ q then some 0 else none, objs := [obj .ctx q], missing := noCtx q, pre := fun _ => none })
      rfl (if_neg hlt) (missing_none (by rw [hc]; exact Option.some_ne_none c)) hheld rfl (fun _ => rfl) (fun _ => rfl)) (fun ptr => ?_)
    have hread : (s.read h (row 0x0507) ptr).ctx q = some c := hc
    rw [hread]
    rfl
  · refine answers_congr (answers_of (j := { need := 8, bad := if n < 65536 then none else some 0, objs := [obj .backend n], missing := noBackend n, pre := fun _ => none })
      rfl (if_pos hn) (missing_none (by rw [hv]; exact Option.some_ne_none v)) hheld rfl (fun _ => rfl) (fun _ => rfl)) (fun ptr => ?_)
    have hread : (s.read h (row 0x0607) ptr).backend n = some v := hv
    rw [hread]
    rfl

end Sys2Proof.Machine
end

section
/-!
SUPPORT. The firmware's commands of classes I and N on settings, images, keys and the lifecycle (R233 to R248): the theorems that settle O25 and O26.
-/

namespace Sys2Proof.Machine

open Sys2Proof

set_option Elab.async false

/-! ### How such a command runs -/

/-- A command without a result whose checks hold takes effect; the checks look at what reading the block leaves alone. -/
theorem does_of {s : State} {h : MbHdr} {c : Instr} {r : CmdRow} {j : Judge} {act : State → State} (hrow : exec c s = .next (s.runDo h r j act))
    (hbad : j.bad = none) (hmissing : j.missing s = none) (hpre : j.pre s = none) (hm : ∀ ptr, j.missing (s.read h r ptr) = j.missing s)
    (hp : ∀ ptr, j.pre (s.read h r ptr) = j.pre s) : Claims.Does s h c r j.need j.objs act := fun ptr _ hacts hheld =>
  hrow.trans (congrArg Host.Outcome.next (do_run hacts hbad hmissing hheld hpre (hm ptr) (hp ptr)))

/-- One that checks nothing but its length. -/
theorem does_plain {s : State} {h : MbHdr} {c : Instr} {r : CmdRow} {need : Nat} {act : State → State}
    (hrow : exec c s = .next (s.runDo h r (Judge.plain need) act)) : Claims.Does s h c r need [] act :=
  does_of hrow rfl rfl rfl (fun _ => rfl) (fun _ => rfl)

/-- One that also has an operand in range. -/
theorem does_ranged {s : State} {h : MbHdr} {c : Instr} {r : CmdRow} {need : Nat} {bad : Option Nat} {act : State → State}
    (hrow : exec c s = .next (s.runDo h r { Judge.plain need with bad := bad } act)) (hbad : bad = none) : Claims.Does s h c r need [] act :=
  does_of (j := { Judge.plain need with bad := bad }) hrow hbad rfl rfl (fun _ => rfl) (fun _ => rfl)

/-- One that also has preconditions. -/
theorem does_judged {s : State} {h : MbHdr} {c : Instr} {r : CmdRow} {need : Nat} {bad : Option Nat} {pre : State → Option CmdEnd} {act : State → State}
    (hrow : exec c s = .next (s.runDo h r { Judge.plain need with bad := bad, pre := pre } act)) (hbad : bad = none) (hpre : pre s = none)
    (hp : ∀ ptr, pre (s.read h r ptr) = pre s) : Claims.Does s h c r need [] act :=
  does_of (j := { Judge.plain need with bad := bad, pre := pre }) hrow hbad rfl hpre (fun _ => rfl) hp

/-- A command with a result whose checks hold, on objects that none holds. -/
theorem now_of {s : State} {h : MbHdr} {c : Instr} {r : CmdRow} {j : Judge} {act : State → State × CmdEnd × List Byte} {ptr len : Nat} {t : State}
    {res : List Byte} (hrow : exec c s = .next (s.runNow h r j act)) (hacts : s.Acts h r ptr len j.need) (hbad : j.bad = none) (hmissing : j.missing s = none)
    (hheld : s.holding j.objs = none) (hpre : j.pre s = none) (hm : j.missing (s.read h r ptr) = j.missing s) (hp : j.pre (s.read h r ptr) = j.pre s)
    (hact : act (s.read h r ptr) = (t, vOk, res)) : exec c s = .next (t.finish h ptr len res) := by
  rw [hrow, now_run hacts hbad hmissing hheld hpre hm hp, hact]
  rfl

/-- A class W command whose checks hold starts. -/
theorem starts_of {s : State} {h : MbHdr} {c : Instr} {r : CmdRow} {j : Judge} {waits : Bool} {start : State → State}
    (hrow : exec c s = .next (s.runLong h r j c waits start)) (hbad : j.bad = none) (hmissing : j.missing s = none) (hpre : j.pre s = none)
    (hm : ∀ ptr, j.missing (s.read h r ptr) = j.missing s) (hp : ∀ ptr, j.pre (s.read h r ptr) = j.pre s) :
    Claims.Starts s h c r j.need j.objs start := fun ptr _ hacts hheld =>
  hrow.trans (congrArg Host.Outcome.next (long_run hacts hbad hmissing hheld hpre (hm ptr) (hp ptr)))

/-- A precondition on a comparison that does not fail. -/
theorem fail_decide {p : Prop} [Decidable p] {v : CmdEnd} (h : ¬ p) : failIf (decide p) v = none := fail_false (decide_eq_false h)

/-- Preconditions of which the first does not fail. -/
theorem firstOf_cons {o : Option CmdEnd} {l : List (Option CmdEnd)} (ho : o = none) (hl : firstOf l = none) : firstOf (o :: l) = none := by
  rw [ho]
  exact hl

/-! ### Settings -/

/-- The ring sizes of EVENT_RING_SET (R376). -/
theorem ringSize_ok {k : Nat} (h8 : 8 ≤ k) (h16 : k ≤ 16) : ¬ (2 ^ k < 256 ∨ 65536 < 2 ^ k ∨ 2 ^ Nat.log2 (2 ^ k) ≠ 2 ^ k) := by
  have hlow : 2 ^ 8 ≤ 2 ^ k := Nat.pow_le_pow_right (by decide) h8
  have hhigh : 2 ^ k ≤ 2 ^ 16 := Nat.pow_le_pow_right (by decide) h16
  rw [Nat.log2_two_pow]
  omega

/-- DEVICE_RESET remembers the block whose notice starts its 10 ms (R233). -/
theorem deviceReset_eq {s : State} {h : MbHdr} {ptr len : Nat} (hacts : s.Acts h (row 0x0106) ptr len 4) : exec (.deviceReset h 0x5A5AA5A5) s =
    .next (State.finish { s.read h (row 0x0106) ptr with dev := { (s.read h (row 0x0106) ptr).dev with resetFor := some (h.hm.val, ptr) } } h ptr len []) := by
  have htaken : (FMap.get none s.mbadel.taken h.hm.val).map (·.1) = some ptr := by
    obtain ⟨⟨htaken, -⟩, -⟩ := id hacts
    rw [htaken]
    rfl
  have hdo := does_judged (s := s) (h := h) (c := .deviceReset h 0x5A5AA5A5) (r := row 0x0106) (need := 4) (bad := none)
    (pre := fun _ => failIf (decide ((0x5A5AA5A5#32 : Word) ≠ 0x5A5AA5A5#32)) (vPre 1)) rfl rfl (fail_decide (not_not.mpr rfl)) (fun _ => rfl)
  refine (hdo ptr len hacts (holding_nil s)).trans ?_
  rw [htaken]
  rfl

/-- MONITOR_UNLOCK joins its yards to those unlocked, until SECONDS from now (R247). -/
theorem monitorUnlock_eq {s : State} {h : MbHdr} {yards : Word} {sec ptr len : Nat} (hpos : 1 ≤ sec) (hday : sec ≤ 86400)
    (hlife : s.nv.lifecycle = 1 ∨ s.nv.lifecycle = 2) (hacts : s.Acts h (row 0x0D01) ptr len 8) : let u := s.read h (row 0x0D01) ptr
    exec (.monitorUnlock h yards sec) s = .next (State.finish { u with monitor := { u.monitor with unlockYards := u.monitor.unlockYards ||| yards, unlockUntil := u.time.sec + sec } }
      h ptr len (leBytes 8 (u.time.sec + sec))) := by
  have hpre : (decide (s.nv.lifecycle ≠ 1) && decide (s.nv.lifecycle ≠ 2)) = false := by
    rcases hlife with h1 | h2
    · rw [decide_eq_false (not_not.mpr h1), Bool.false_and]
    · rw [decide_eq_false (not_not.mpr h2), Bool.and_false]
  exact now_of (j := { Judge.plain 8 with bad := if 1 ≤ sec ∧ sec ≤ 86400 then none else some 4, pre := fun s => failIf (decide (s.nv.lifecycle ≠ 1) && decide (s.nv.lifecycle ≠ 2)) (vPre 1) })
    rfl hacts (if_pos ⟨hpos, hday⟩) rfl (holding_nil s) (fail_false hpre) rfl rfl rfl

/-- Settles O25: every setting's checks hold under its hypotheses. -/
theorem deviceSettingsTakeEffect : Obligations.DeviceSettingsTakeEffect := by
  unfold Obligations.DeviceSettingsTakeEffect
  refine fun s h => ⟨fun sizes counts hok hcode => ?_, fun n hlow hhigh hmod hcode => ?_, fun ptr len hacts => deviceReset_eq hacts,
    fun k ptr => ⟨fun hno => if_neg hno, fun hyes => if_pos hyes⟩, fun hno => ?_, fun hyes => ?_, fun code e hcode hsec hpend hmin hmaster => ?_,
    fun p hpend hsec => ?_, fun sec hlow hhigh => does_ranged rfl (if_pos ⟨hlow, hhigh⟩), fun on days hon => ⟨fun hpos hyear => ?_, fun hlt => ?_⟩,
    fun addr k vector halign haddr h8 h16 hv64 hv1023 => ?_, fun mask => does_plain rfl,
    fun yards sec ptr len hpos hday hlife hacts => monitorUnlock_eq hpos hday hlife hacts⟩
  · refine does_judged (bad := none) (pre := carvePre sizes counts) rfl rfl ?_ (fun _ => rfl)
    rw [carvePre, if_pos hok, hcode]
    rfl
  · exact does_judged (pre := regionPre n) rfl (if_pos ⟨hlow, hhigh, hmod⟩) (fail_false hcode) (fun _ => rfl)
  · rw [State.tellPeriod, hno]
    rfl
  · rw [State.tellPeriod, hyes]
    rfl
  · refine does_judged rfl (if_pos hcode) (firstOf_cons (fail_decide (Nat.not_le.mpr hsec)) (firstOf_cons (fail_false (by rw [hpend]; rfl))
      (firstOf_cons (fail_decide (Nat.not_lt.mpr hmin)) (firstOf_cons (fail_false ?_) rfl)))) (fun _ => rfl)
    rcases hmaster with hoff | hself
    · rw [hoff, Bool.false_and]
    · rw [decide_eq_false (not_not.mpr hself), Bool.and_false]
  · refine does_judged (bad := none) (pre := fun s => match s.time.pendPeriod with | none => some (vPre 1) | some p => failIf (decide (p.2 ≤ s.time.sec + 1)) (vPre 2))
      rfl rfl ?_ (fun _ => rfl)
    rw [hpend]
    exact fail_decide (Nat.not_le.mpr hsec)
  · exact does_ranged rfl ((if_neg (Nat.not_lt.mpr hon)).trans (if_neg (by omega)))
  · exact does_ranged rfl ((if_neg (Nat.not_lt.mpr hon)).trans (if_neg (Nat.not_le.mpr hlt)))
  · refine does_ranged rfl ((if_neg ?_).trans ((if_neg (ringSize_ok h8 h16)).trans (if_neg (by omega))))
    exact fun hbad => hbad.elim (· halign) (Nat.not_le.mpr haddr)

/-! ### Images, keys and the lifecycle -/

/-- The step of the tack room that a power warning refuses is free without one (R453). -/
theorem noStep_none {s : State} (hwarn : s.power.warn = false) : noStep s = none := fail_false hwarn

/-- The judgement of IMAGE_WRITE. -/
def imageWriteJudge (slot off : Nat) (data : List Byte) : Judge :=
  { need := 16 + data.length
    bad := if 1 < slot then some 0 else if off % 4096 ≠ 0 ∨ imageEnd ≤ off then some 4
           else if data.length % 4096 ≠ 0 ∨ 1044480 < data.length ∨ imageEnd < off + data.length then some 8 else none
    objs := [obj .slot slot]
    missing := fun _ => none
    pre := fun s => firstOf [failIf (decide (s.boot.runSlot = some slot) && !s.boot.fromRecovery) (vPre 1), failIf (!s.chipUsable slot) (vPre 2), noStep s] }

/-- IMAGE_WRITE of a slot that does not run (R243, R420). -/
theorem imageWrite_does {s : State} {h : MbHdr} {slot off : Nat} {data : List Byte} (hwarn : s.power.warn = false) (hslot : slot < 2)
    (halign : off % 4096 = 0) (hoff : off < imageEnd) (hlen : data.length % 4096 = 0) (hmax : data.length ≤ 1044480) (hend : off + data.length ≤ imageEnd)
    (hrun : s.boot.runSlot ≠ some slot ∨ s.boot.fromRecovery = true) (hchip : s.chipUsable slot = true) :
    Claims.Does s h (.imageWrite h slot off data) (rowH 0x0A01) (16 + data.length) [obj .slot slot] (fun u => u.slotWrite slot off data) := by
  refine does_of (j := imageWriteJudge slot off data)
    rfl ((if_neg (by omega)).trans ((if_neg ?_).trans (if_neg ?_))) rfl
    (firstOf_cons (fail_false ?_) (firstOf_cons (fail_false (by rw [hchip]; rfl)) (firstOf_cons (noStep_none hwarn) rfl))) (fun _ => rfl) (fun _ => rfl)
  · exact fun hbad => hbad.elim (· halign) (Nat.not_le.mpr hoff)
  · exact fun hbad => hbad.elim (· hlen) (fun hbad => hbad.elim (Nat.not_lt.mpr hmax) (Nat.not_lt.mpr hend))
  · rcases hrun with hother | hrec
    · rw [decide_eq_false hother, Bool.false_and]
    · rw [hrec, Bool.not_true, Bool.and_false]

/-- The preconditions of IMAGE_VALIDATE for a slot that passes (R243, R424). -/
theorem validate_pre {u : State} {slot : Nat} (hwarn : u.power.warn = false) (hchip : u.chipUsable slot = true) (hst : u.validateStatus slot = 0) :
    (validateJudge slot).pre u = none := by
  have hstatus : (if u.chipUsable slot = true then u.validateStatus slot else 0x08) = 0 := (if_pos hchip).trans hst
  show firstOf _ = none
  rw [hstatus]
  exact firstOf_cons rfl (firstOf_cons rfl (firstOf_cons (noStep_none hwarn) rfl))

/-- IMAGE_CONFIRM raises the floor to the running image, which has run for a day (R243, R425). -/
theorem imageConfirm_eq {s : State} {h : MbHdr} {t ptr len : Nat} (hwarn : s.power.warn = false) (hfirst : s.boot.firstRun = some t)
    (hday : t + 86400 ≤ s.time.sec) (hacts : s.Acts h (row 0x0A05) ptr len 4) : let u := s.read h (row 0x0A05) ptr
    let v := if u.floor < u.boot.runSeq then u.jAppend 2 u.boot.runSeq else u
    exec (.imageConfirm h) s = .next (v.finish h ptr len (leBytes 4 v.floor)) := by
  have hran : s.ranLong = true := by
    rw [State.ranLong, hfirst]
    exact decide_eq_true hday
  exact now_of (j := { Judge.plain 4 with pre := fun s => firstOf [failIf (!s.ranLong) (vPre 1), noStep s] }) rfl hacts rfl rfl (holding_nil s)
    (firstOf_cons (fail_false (by rw [hran]; rfl)) (firstOf_cons (noStep_none hwarn) rfl)) rfl rfl rfl

/-- Another key that is live among the four. -/
theorem otherKey_any {s : State} {key : Nat} (h : ∃ k, k < 4 ∧ k ≠ key ∧ s.keyLive k = true) :
    [0, 1, 2, 3].any (fun k => decide (k ≠ key) && s.keyLive k) = true := by
  obtain ⟨k, hlt, hne, hlive⟩ := h
  refine List.any_eq_true.mpr ⟨k, ?_, ?_⟩
  · simp only [List.mem_cons, List.not_mem_nil, or_false]
    omega
  · rw [decide_eq_true hne, hlive]
    rfl

/-- Settles O26: every command's checks hold under its hypotheses. -/
theorem imagesKeysAndLifecycleAct : Obligations.ImagesKeysAndLifecycleAct := by
  unfold Obligations.ImagesKeysAndLifecycleAct
  refine fun s h hwarn => ⟨fun slot off data => imageWrite_does hwarn, fun slot ptr len hslot hchip hst hheld hacts => ?_,
    fun t ptr len hfirst hday hacts => imageConfirm_eq hwarn hfirst hday hacts, fun key hkey hsigned hother => ?_, fun new hnew hrise => ?_,
    fun slot tick hslot hstandby hvalid hstate => ?_⟩
  · exact now_of (j := validateJudge slot) rfl hacts (if_pos hslot) rfl hheld (validate_pre hwarn hchip hst) rfl
      ((validate_pre (u := s.read h (rowH 0x0A02) ptr) hwarn hchip hst).trans (validate_pre hwarn hchip hst).symm) rfl
  · exact does_judged rfl (if_pos hkey) (firstOf_cons (fail_false (by rw [hsigned]; rfl)) (firstOf_cons (fail_false (by rw [otherKey_any hother]; rfl))
      (firstOf_cons (noStep_none hwarn) rfl))) (fun _ => rfl)
  · exact does_judged rfl (if_pos hnew) (firstOf_cons (fail_decide (Nat.not_le.mpr hrise)) (firstOf_cons (fail_decide (not_not.mpr rfl))
      (firstOf_cons (noStep_none hwarn) rfl))) (fun _ => rfl)
  · refine starts_of (j := switchJudge slot) rfl (if_pos hslot) rfl (firstOf_cons (fail_false (by rw [hstandby]; rfl)) (firstOf_cons (fail_false (by rw [hvalid]; rfl))
      (firstOf_cons (fail_false ?_) (firstOf_cons (noStep_none hwarn) rfl)))) (fun _ => rfl) (fun _ => rfl)
    rcases hstate with h2 | h3
    · rw [decide_eq_false (not_not.mpr h2), Bool.false_and]
    · rw [decide_eq_false (not_not.mpr h3), Bool.and_false]

end Sys2Proof.Machine
end

section
/-!
SUPPORT. The firmware's commands on backends and namespaces (R239, R317, R318, R320): the theorem that settles O28.
-/

namespace Sys2Proof.Machine

open Sys2Proof

set_option Elab.async false

/-- An object that does not exist yet is free to be made. -/
theorem fail_isSome {α : Type} {o : Option α} {v : CmdEnd} (h : o = none) : failIf o.isSome v = none := by
  rw [h]
  rfl

/-- BACKEND_ADD of a backend number that is free (R239, R317). -/
theorem backendAdd_starts {s : State} {h : MbHdr} {n port : Nat} {tr : Byte} {addr nqn : List Byte} (hn : n < 65536) (htr : tr = 1 ∨ tr = 2)
    (hport : port < 65536) (hnqn : (0 : Byte) ∈ padTo 224 nqn) (hfree : s.backend n = none) (hcount : Claims.count s.sto.backends < 1024) :
    Claims.Starts s h (.backendAdd h n tr port addr nqn) (row 0x0601) 248 [obj .backend n]
      (fun u => (u.setBackend n (some { transport := tr.toNat, port := port, addr := padTo 16 addr, subnqn := padTo 224 nqn, up := false, lostAt := none, tries := 0, queues := [], keepAlives := 0 })).toBackend n 0 (connectCapsule 0 (padTo 224 nqn))) := by
  refine starts_of (j := backendAddJudge n tr port nqn) rfl ((if_neg (Nat.not_le.mpr hn)).trans ((if_neg ?_).trans ((if_neg (Nat.not_le.mpr hport)).trans (if_neg ?_)))) rfl
    (firstOf_cons (fail_isSome hfree) (firstOf_cons (fail_decide (Nat.not_le.mpr hcount)) rfl)) (fun _ => rfl) (fun _ => rfl)
  · exact fun hbad => htr.elim hbad.1 hbad.2
  · rw [List.contains_iff_mem.mpr hnqn]
    exact Bool.false_ne_true

/-- The judgement of BACKEND_REMOVE. -/
def backendRemoveJudge (n : Nat) : Judge :=
  { need := 2, bad := if n < 65536 then none else some 0, objs := [obj .backend n], missing := noBackend n,
    pre := fun s => failIf (s.sto.nss.any (fun e => match e.2 with | some v => decide (v.backend = n) | none => false)) (vPre 1) }

/-- BACKEND_REMOVE of a backend that no namespace uses (R239). -/
theorem backendRemove_does {s : State} {h : MbHdr} {n : Nat} (hn : n < 65536) (hex : s.backend n ≠ none)
    (hunused : ∀ e ∈ s.sto.nss, ∀ v, e.2 = some v → v.backend ≠ n) :
    Claims.Does s h (.backendRemove h n) (row 0x0602) 2 [obj .backend n] (fun u => u.setBackend n none) := by
  refine does_of (j := backendRemoveJudge n) rfl (if_pos hn) (missing_none hex) (fail_false ?_) (fun _ => rfl) (fun _ => rfl)
  rw [Bool.eq_false_iff, ne_eq, List.any_eq_true]
  rintro ⟨⟨k, v⟩, hmem, huse⟩
  cases v with
  | none => exact Bool.false_ne_true huse
  | some v => exact hunused (k, some v) hmem v rfl (of_decide_eq_true huse)

/-- The judgement of NS_DESTROY. -/
def nsDestroyJudge (n : Nat) : Judge :=
  { need := 4, bad := if n < 2 ^ 32 then none else some 0, objs := [obj .ns n], missing := fun s => if (s.ns n).isSome then none else some n,
    pre := fun s => failIf (s.sto.attach.any (fun e => decide (e.2 = some n))) (vPre 1) }

/-- NS_DESTROY of a namespace that no instance has (R239). -/
theorem nsDestroy_does {s : State} {h : MbHdr} {n : Nat} (hn : n < 2 ^ 32) (hex : s.ns n ≠ none) (hfree : ∀ e ∈ s.sto.attach, e.2 ≠ some n) :
    Claims.Does s h (.nsDestroy h n) (row 0x0606) 4 [obj .ns n] (fun u => u.setNs n none) := by
  refine does_of (j := nsDestroyJudge n) rfl (if_pos hn) (missing_none hex) (fail_false ?_) (fun _ => rfl) (fun _ => rfl)
  rw [Bool.eq_false_iff, ne_eq, List.any_eq_true]
  rintro ⟨e, hmem, huse⟩
  exact hfree e hmem (of_decide_eq_true huse)

/-- NS_DETACH of a namespace that the instance has (R239, R320). -/
theorem nsDetach_starts {s : State} {h : MbHdr} {n nsid : Nat} (hn : n < 4096) (hlow : 1 ≤ nsid) (hhigh : nsid ≤ 256) (hinst : s.inst n ≠ none)
    (hatt : FMap.get none s.sto.attach (n * 512 + nsid) ≠ none) :
    Claims.Starts s h (.nsDetach h n nsid) (row 0x0605) 12 [obj .inst n] State.settleDetaches := by
  refine starts_of (j := detachJudge n nsid) rfl ((if_neg (Nat.not_le.mpr hn)).trans (if_neg (by omega))) ?_ rfl (fun _ => rfl) (fun _ => rfl)
  have hno : noInst n s = none := missing_none hinst
  rw [detachJudge]
  dsimp only
  rw [hno]
  exact missing_none hatt

/-- What NS_CREATE asks of its backend (R239, R318). -/
theorem nsCreate_asks {s : State} {h : MbHdr} {n b rid ptr len : Nat} {given : Option RemoteNs} {v : Backend} (hn : n < 2 ^ 32) (hb : b < 65536) (hr : rid < 2 ^ 32)
    (hfree : s.ns n = none) (hv : s.backend b = some v) (hup : v.up = true) (hcount : Claims.count s.sto.nss < 65536)
    (hheld : s.holding [obj .ns n, obj .backend b] = none) (htaken : s.Taken h (row 0x0603) ptr len) (hlen : 80 ≤ len) :
    let u := s.read h (row 0x0603) ptr
    let ref := u.sto.nextBref
    let w : Running := { Claims.long u h (.nsCreate h n b rid given) (row 0x0603) ptr len [obj .ns n, obj .backend b] with stage := 1 + ref }
    let asked := State.toBackend { u with mbadel := { u.mbadel with running := u.mbadel.running ++ [w] }, sto := { u.sto with nextBref := ref % 0xFFFFFFFF + 1 } } b 0
      (padTo 64 ([0x06, 0] ++ leBytes 2 (ref % 65536) ++ leBytes 4 rid))
    exec (.nsCreate h n b rid given) s = .next (match (generalizing := false) given with | some remote => asked.nsAnswer w remote | none => asked) := by
  intro u
  have hjudge : u.judgeCmd u len (nsCreateJudge n b rid) = none := by
    have hbackend : (match s.backend b with | some b => !b.up | none => true) = false := by
      rw [hv]
      exact congrArg Bool.not hup
    refine judge_none hlen ((if_neg (Nat.not_le.mpr hn)).trans ((if_neg (Nat.not_le.mpr hb)).trans (if_neg (Nat.not_le.mpr hr))))
      (missing_none (o := s.backend b) (by rw [hv]; exact Option.some_ne_none v)) hheld
      (firstOf_cons (fail_isSome hfree) (firstOf_cons (fail_false hbackend) (firstOf_cons (fail_decide (Nat.not_le.mpr hcount)) rfl)))
  show (Host.Outcome.next (s.takenCmd h (row 0x0603) _) : Answer) = _
  rw [taken_run htaken]
  dsimp only
  rw [hjudge]
  cases given <;> rfl

/-- A remote format that Geleath does not support ends NS_CREATE REFUSED (R318). -/
theorem nsAnswer_eq {s : State} {h : MbHdr} {w : Running} {n b rid : Nat} {given : Option RemoteNs} {remote : RemoteNs} (hw : w.cmd = .nsCreate h n b rid given) :
    s.nsAnswer w remote = if (remote.block ≠ 512 ∧ remote.block ≠ 4096) ∨ remote.metaOrPi = true then s.endLong w (vOwn 0x0F 1) [] 0
      else if h.checkOnly = true then s.endLong w vOk [] 0
      else (s.setNs n (some { backend := b, remote := rid, block := remote.block, blocks := remote.blocks })).endLong w vOk
        (leBytes 4 remote.block ++ zeros 4 ++ leBytes 8 remote.blocks) 16 := by
  rw [State.nsAnswer, hw]

/-- The formats that Geleath supports, as NS_CREATE tests them. -/
theorem goodFormat_iff (remote : RemoteNs) : ¬ ((remote.block ≠ 512 ∧ remote.block ≠ 4096) ∨ remote.metaOrPi = true) ↔
    (remote.block = 512 ∨ remote.block = 4096) ∧ remote.metaOrPi = false := by
  rw [not_or, Bool.not_eq_true, not_and_or, not_not, not_not]

/-- Settles O28: every command's checks hold under its hypotheses; an answer to NS_CREATE by the remote format. -/
theorem storageAdminCommandsAct : Obligations.StorageAdminCommandsAct := by
  unfold Obligations.StorageAdminCommandsAct
  refine fun s h => ⟨fun n tr port addr nqn => backendAdd_starts, fun n => backendRemove_does, fun n b rid given v ptr len => nsCreate_asks,
    fun w n b rid given remote hw => ⟨fun hbad => ?_, fun hgood hcheck => ?_, fun hgood hrun => ?_⟩, fun n => nsDestroy_does, fun n nsid => nsDetach_starts⟩
  · rw [nsAnswer_eq hw, if_pos (not_not.mp (fun hno => hbad ((goodFormat_iff remote).mp hno)))]
  · rw [nsAnswer_eq hw, if_neg ((goodFormat_iff remote).mpr hgood), if_pos hcheck]
  · rw [nsAnswer_eq hw, if_neg ((goodFormat_iff remote).mpr hgood), if_neg (ne_true_of_eq_false hrun)]

end Sys2Proof.Machine
end

section
/-!
SUPPORT. The firmware's commands on tenant instances and PROGRAM_LOAD (R234, R236, R275 to R292): the theorem that settles O29.
-/

namespace Sys2Proof.Machine

open Sys2Proof

set_option Elab.async false

/-! ### Instances as a command finds them -/

/-- An instance that exists is not missing. -/
theorem noInst_none {s : State} {n : Nat} {i : Inst} (hi : s.inst n = some i) : noInst n s = none :=
  missing_none (by rw [hi]; exact Option.some_ne_none i)

/-- The state of an instance that exists. -/
theorem instIn_eq {s : State} {n : Nat} {i : Inst} (hi : s.inst n = some i) (l : List InstState) : s.instIn n l = decide (i.st ∈ l) := by
  rw [State.instIn, hi]

/-- A state that accepts a command passes its first precondition (R275). -/
theorem fail_instIn {s : State} {n : Nat} {i : Inst} {l : List InstState} {v : CmdEnd} (hi : s.inst n = some i) (hl : i.st ∈ l) :
    failIf (!s.instIn n l) v = none := by
  rw [instIn_eq hi, decide_eq_true hl]
  rfl

/-- Every state but DESTROYING accepts a destruction (R275). -/
theorem mem_destroyable {st : InstState} (h : st ≠ .destroying) : st ∈ [InstState.running, .frozen, .resetting, .saving, .restoring] := by
  cases st <;> simp at h ⊢

/-- Every state but DESTROYING and RESTORING accepts a harvest (R275). -/
theorem mem_harvestable {st : InstState} (h1 : st ≠ .destroying) (h2 : st ≠ .restoring) : st ∈ [InstState.running, .frozen, .resetting, .saving] := by
  cases st <;> simp at h1 h2 ⊢

/-- A command whose instance, as it finds it, is in a state that accepts it. -/
theorem instStarts {s : State} {h : MbHdr} {c : Instr} {r : CmdRow} {need n : Nat} {l : List InstState} {pre : State → Option CmdEnd} {waits : Bool}
    {start : State → State} {i : Inst} (hrow : exec c s = .next (s.runLong h r (instJudge need n l pre) c waits start)) (hn : n < 4096)
    (hi : s.inst n = some i) (hl : i.st ∈ l) (hpre : ∀ ptr, pre s = none ∧ pre (s.read h r ptr) = none) :
    Claims.Starts s h c r need [obj .inst n] start := by
  have hnone : ∀ u : State, u.inst n = some i → pre u = none → (instJudge need n l pre).pre u = none := fun u hu hp =>
    firstOf_cons (fail_instIn hu hl) (firstOf_cons hp rfl)
  exact starts_of (j := instJudge need n l pre) hrow (if_pos hn) (noInst_none hi) (hnone s hi (hpre 0).1) (fun _ => rfl)
    (fun ptr => (hnone (s.read h r ptr) hi (hpre ptr).2).trans (hnone s hi (hpre 0).1).symm)

/-- A reset or a destruction waits while a class W command holds its instance (R231, R283, R284). -/
theorem instWaits {s : State} {h : MbHdr} {c : Instr} {r : CmdRow} {need n ptr len : Nat} {l : List InstState} {pre : State → Option CmdEnd}
    {start : State → State} {i : Inst} (hrow : exec c s = .next (s.runLong h r (instJudge need n l pre) c true start)) (hn : n < 4096)
    (hi : s.inst n = some i) (hacts : s.Acts h r ptr len need) (hheld : s.holding [obj .inst n] ≠ none) : let u := s.read h r ptr
    exec c s = .next { u with mbadel := { u.mbadel with running := u.mbadel.running ++ [{ Claims.long u h c r ptr len [obj .inst n] with stage := 0 }] } } := by
  obtain ⟨htaken, hrun, hlen⟩ := hacts
  have hbusy : (true && ((s.read h r ptr).holding [obj .inst n]).isSome) = true :=
    (Bool.true_and _).trans (Option.isSome_iff_ne_none.mpr hheld)
  have hjudge : (s.read h r ptr).judgeCmd (s.read h r ptr) len { instJudge need n l pre with objs := [], pre := fun _ => none } = none :=
    judge_none hlen (if_pos hn) (noInst_none (s := s.read h r ptr) hi) (holding_nil _) rfl
  intro u
  refine hrow.trans (congrArg Host.Outcome.next ?_)
  rw [State.runLong, taken_run htaken]
  dsimp only [instJudge] at hjudge ⊢
  rw [hbusy, if_pos rfl, hjudge]
  dsimp only
  rw [hrun]
  rfl

/-! ### Creation -/

/-- INSTANCE_CREATE of an instance that does not exist, with resources that the device has left (R234, R276, R280). -/
theorem instanceCreate_eq {s : State} {h : MbHdr} {n tenant ptr len : Nat} {mode flags : Byte} {r : Res} (hn : n < 4096) (hmode : mode.toNat ≤ 1)
    (hflags : flags.toNat < 8) (htenant : tenant < 4096) (hres : resBad r (flags.getLsbD 1) (flags.getLsbD 2) = none) (hfree : s.inst n = none)
    (hroom : s.resShort n r = none) (hheld : s.holding [obj .inst n] = none) (hacts : s.Acts h (row 0x0201) ptr len 32) :
    let t := (s.read h (row 0x0201) ptr).createInst n mode flags tenant r
    exec (.instanceCreate h n mode flags tenant r) s = .next (t.finish h ptr len (t.genResult n)) := by
  have hpre : ∀ u : State, u.inst n = none → u.resShort n r = none → (createJudge n mode flags tenant r).pre u = none := fun u hu hr =>
    firstOf_cons (fail_isSome hu) (firstOf_cons (by rw [hr]; rfl) rfl)
  refine now_of (j := createJudge n mode flags tenant r) rfl hacts ?_ rfl hheld (hpre s hfree hroom) rfl
    ((hpre (s.read h (row 0x0201) ptr) hfree hroom).trans (hpre s hfree hroom).symm) rfl
  refine (if_neg (Nat.not_le.mpr hn)).trans ((if_neg (Nat.not_lt.mpr hmode)).trans ((if_neg (Nat.not_le.mpr hflags)).trans ((if_neg (Nat.not_le.mpr htenant)).trans ?_)))
  rw [hres]
  rfl

/-! ### Harvests -/

/-- DIRTY_HARVEST runs until the commit, beside a reset or a save of its instance (R231, R275, R291). -/
theorem dirtyHarvest_eq {s : State} {h : MbHdr} {n room ptr len : Nat} {clear : Byte} {addr : DWord} {i : Inst} (hn : n < 4096) (hi : s.inst n = some i)
    (hclear : clear.toNat ≤ 2) (hst1 : i.st ≠ .destroying) (hst2 : i.st ≠ .restoring)
    (hbeside : ∀ w ∈ s.mbadel.running, obj .inst n ∈ w.objs → w.stage ≠ 0 → w.opcode = 0x0203 ∨ w.opcode = 0x0206)
    (hacts : s.Acts h (row 0x0209) ptr len 20) : let u := s.read h (row 0x0209) ptr
    exec (.dirtyHarvest h n clear addr room) s = .next { u with mbadel := { u.mbadel with
      running := u.mbadel.running ++ [Claims.long u h (.dirtyHarvest h n clear addr room) (row 0x0209) ptr len [obj .inst n]] } } := by
  obtain ⟨htaken, hrun, hlen⟩ := hacts
  have hfind : s.mbadel.running.find? (fun r => r.objs.contains (obj .inst n) && !harvestBeside.contains r.opcode && decide (r.stage ≠ 0)) = none := by
    refine List.find?_eq_none.mpr (fun w hw => ?_)
    rw [Bool.and_eq_true, Bool.and_eq_true, Bool.not_eq_true', decide_eq_true_eq, List.contains_iff_mem]
    rintro ⟨⟨hobj, hother⟩, hstage⟩
    rcases hbeside w hw hobj hstage with hop | hop <;>
      · rw [hop] at hother
        exact absurd hother (by decide)
  have hjudge : (s.read h (row 0x0209) ptr).judgeCmd (s.read h (row 0x0209) ptr) len (harvestJudge n clear) = none := by
    refine judge_none hlen ((if_neg (Nat.not_le.mpr hn)).trans (if_neg (Nat.not_lt.mpr hclear))) (noInst_none (s := s.read h (row 0x0209) ptr) hi) (holding_nil _)
      (firstOf_cons ?_ (firstOf_cons (firstOf_cons (fail_instIn (s := s.read h (row 0x0209) ptr) hi (mem_harvestable hst1 hst2)) rfl) rfl))
    exact congrArg (Option.map _) hfind
  intro u
  show (Host.Outcome.next (s.takenCmd h (row 0x0209) _) : Answer) = _
  rw [taken_run htaken]
  dsimp only
  rw [hjudge]
  dsimp only
  rw [hrun]
  rfl

/-! ### Saving and restoring -/

/-- INSTANCE_SAVE of a frozen instance whose image fits (R288). -/
theorem instanceSave_starts {s : State} {h : MbHdr} {n room : Nat} {addr : DWord} {i : Inst} (hn : n < 4096) (hi : s.inst n = some i) (hst : i.st = .frozen)
    (halign : addr.toNat % 4096 = 0) (hfits : (s.saveImage n).length ≤ room) :
    Claims.Starts s h (.instanceSave h n addr room) (row 0x0206) 20 [obj .inst n] (fun u => u.modInst n (fun j => { j with st := .saving })) := by
  intro ptr len hacts hheld
  obtain ⟨htaken, hrun, hlen⟩ := hacts
  have hfits' : ((s.read h (row 0x0206) ptr).saveImage n).length ≤ room := hfits
  have hjudge : (s.read h (row 0x0206) ptr).judgeCmd (s.read h (row 0x0206) ptr) len (saveJudge n addr.toNat room) = none :=
    judge_none hlen ((if_neg (Nat.not_le.mpr hn)).trans (if_neg (not_not.mpr halign))) (noInst_none (s := s.read h (row 0x0206) ptr) hi) hheld
      (firstOf_cons (fail_instIn (s := s.read h (row 0x0206) ptr) hi (by rw [hst]; exact List.mem_singleton.mpr rfl))
        (firstOf_cons (fail_decide (Nat.not_lt.mpr hfits')) rfl))
  show (Host.Outcome.next (s.takenCmd h (row 0x0206) _) : Answer) = _
  rw [taken_run htaken]
  dsimp only
  rw [hjudge]
  dsimp only
  rw [hrun]
  rfl

/-- A restore whose image fails a check ends with that check's status (R289). -/
theorem instanceRestore_refused {s : State} {h : MbHdr} {n room ptr len : Nat} {addr : DWord} {image : List Byte} {i : Inst} {v : CmdEnd} (hn : n < 4096)
    (hi : s.inst n = some i) (hst : i.st = .frozen) (hv : s.restoreCheck n (image.take room) room = some v) (htaken : s.Taken h (row 0x0207) ptr len)
    (hlen : 84 ≤ len) (hheld : s.holding [obj .inst n] = none) :
    exec (.instanceRestore h n addr room image) s = .next ((s.read h (row 0x0207) ptr).endCmd h.hm.val ptr len h.v2 v) := by
  have hv' : (s.read h (row 0x0207) ptr).restoreCheck n (image.take room) room = some v := hv
  have hheld' : (s.read h (row 0x0207) ptr).holding [obj .inst n] = none := hheld
  have hjudge : (s.read h (row 0x0207) ptr).judgeCmd (s.read h (row 0x0207) ptr) len (restoreJudge n room image) = some v := by
    have hbad : (restoreJudge n room image).bad = none := if_pos hn
    have hpre : (restoreJudge n room image).pre (s.read h (row 0x0207) ptr) = some v := by
      show firstOf [failIf (!(s.read h (row 0x0207) ptr).instIn n [.frozen]) (vPre 1), (s.read h (row 0x0207) ptr).restoreCheck n (image.take room) room] = some v
      rw [fail_instIn (s := s.read h (row 0x0207) ptr) hi (by rw [hst]; exact List.mem_singleton.mpr rfl), hv']
      rfl
    have hmissing : (restoreJudge n room image).missing (s.read h (row 0x0207) ptr) = none := noInst_none (s := s.read h (row 0x0207) ptr) hi
    have hobjs : (s.read h (row 0x0207) ptr).holding (restoreJudge n room image).objs = none := hheld
    have hneed : ¬ len < 64 + (restoreJudge n room image).need := Nat.not_lt.mpr hlen
    rw [State.judgeCmd, if_neg hneed, hbad]
    dsimp only
    rw [hmissing]
    dsimp only
    rw [hobjs]
    exact hpre
  show (Host.Outcome.next (s.runLong h (row 0x0207) (restoreJudge n room image) _ false _) : Answer) = _
  rw [State.runLong, taken_run htaken]
  dsimp only
  rw [Bool.false_and, if_neg Bool.false_ne_true, hjudge]

/-- QUIESCENCE of an instance that is being saved (R286, R288). -/
theorem quiescence_eq {s : State} {n room : Nat} {h' : MbHdr} {addr : DWord} {w : Running} (hw : s.runningInst 0x0206 n = some w)
    (hcmd : w.cmd = .instanceSave h' n addr room) : exec (.quiescence n) s =
      .next (if (s.quiescent n && decide (room < (s.saveImage n).length)) = true then
          (s.modInst n (fun i => { i with st := .frozen })).endLong w (vPre 2) [] (s.saveImage n).length
        else if s.quiescent n = true then
          ((s.hostWrite 0 addr.toNat (s.saveImage n)).modInst n (fun i => { i with st := .frozen })).endLong w vOk (leBytes 4 (s.saveImage n).length) 4
        else s) := by
  show (Host.Outcome.next (s.finishSave n) : Answer) = _
  rw [State.finishSave, hw]
  dsimp only
  rw [hcmd]

/-! ### Programs -/

/-- The judgement of PROGRAM_LOAD. -/
def loadJudge (v2 : Bool) (set : List Nat) (boundary : Byte) (image : List Byte) : Judge :=
  { need := 136 + image.length
    bad := match engsetBad v2 set with
      | some o => some o
      | none => if 32 < boundary.toNat then some 128 else if image.length < 64 ∨ 16384 < image.length then some 132 else none
    objs := []
    missing := fun _ => none
    pre := fun s => firstOf [failIf (!headerOk image) (vPre 1), ((s.engset set).find? (fun pe => (s.eng pe).pendSwitch)).map (vObj 0x0F),
      (s.absentEngine set).map (vObj 0x10)] }

/-- Engines of the logical yards 0 to 7 are in range for every command. -/
theorem engset_low {v2 : Bool} {set : List Nat} (hset : ∀ e ∈ set, e < 256) : engsetBad v2 set = none := by
  refine if_neg ?_
  rw [Bool.or_eq_true, Bool.and_eq_true, List.any_eq_true, List.any_eq_true]
  rintro (⟨e, he, hlarge⟩ | ⟨-, e, he, hlarge⟩)
  · exact Nat.not_le.mpr (hset e he) (Nat.le_trans (by decide) (of_decide_eq_true hlarge))
  · exact Nat.not_le.mpr (hset e he) (of_decide_eq_true hlarge)

/-- PROGRAM_LOAD of an image whose header is good, into engines without a pending switch (R45, R53, R236). -/
theorem programLoad_does {s : State} {h : MbHdr} {set : List Nat} {boundary : Byte} {image : List Byte} (hset : ∀ e ∈ set, e < 256)
    (heng : ∀ e ∈ set, s.peng e ≠ none) (hboundary : boundary.toNat ≤ 32) (hlow : 64 ≤ image.length) (hhigh : image.length ≤ 16384)
    (hheader : headerOk image = true) (hfree : ∀ pe ∈ s.engset set, (s.eng pe).pendSwitch = false) :
    Claims.Does s h (.programLoad h set boundary image) (rowH 0x040D) (136 + image.length) [] (fun u =>
      let v := (u.engset set).foldl (fun (w : State) (pe : Nat) => w.setEng pe ((w.eng pe).loadIdle (bankOf image))) u
      if boundary = 0 then v else ((u.engset set).map (fun (pe : Nat) => pe / 32)).dedup.foldl
        (fun (w : State) (y : Nat) => w.setYard y { w.yard y with boundaryNext := 0x100000 + 65536 * boundary.toNat }) v) := by
  have hpre : ∀ u : State, (∀ e ∈ set, u.peng e ≠ none) → (∀ pe ∈ u.engset set, (u.eng pe).pendSwitch = false) →
      (loadJudge h.v2 set boundary image).pre u = none := by
    intro u hu hpend
    have hfind : (u.engset set).find? (fun pe => (u.eng pe).pendSwitch) = none := List.find?_eq_none.mpr (fun pe hpe => ne_true_of_eq_false (hpend pe hpe))
    simp only [loadJudge, hheader, hfind, absent_none hu, Option.map_none]
    rfl
  have hbad : (loadJudge h.v2 set boundary image).bad = none := by
    simp only [loadJudge, engset_low hset]
    exact (if_neg (Nat.not_lt.mpr hboundary)).trans (if_neg (by omega))
  exact does_of (j := loadJudge h.v2 set boundary image) rfl hbad rfl (hpre s heng hfree) (fun _ => rfl)
    (fun ptr => (hpre (s.read h (rowH 0x040D) ptr) heng hfree).trans (hpre s heng hfree).symm)

/-- Settles O29: the state of the instance decides whether a command starts, waits or is refused. -/
theorem instanceCommandsAct : Obligations.InstanceCommandsAct := by
  unfold Obligations.InstanceCommandsAct
  refine fun s h n hn => ⟨fun mode flags tenant r ptr len => instanceCreate_eq hn,
    fun i hi => ⟨fun hst => ?_, ?_, fun hst => ?_, fun clear addr room hclear hst1 hst2 hbeside ptr len => dirtyHarvest_eq hn hi hclear hst1 hst2 hbeside,
      fun hst => ⟨fun addr room => instanceSave_starts hn hi hst, fun addr room image => ⟨fun hcheck => ?_, fun v hv ptr len => instanceRestore_refused hn hi hst hv⟩⟩⟩,
    fun w h' addr room hw hcmd => ⟨fun hquiet hshort => ?_, fun hquiet hfits => ?_, fun hbusy => ?_⟩,
    fun set boundary image => programLoad_does⟩
  · refine instStarts (l := [.running, .frozen]) (pre := fun _ => none) rfl hn hi ?_ (fun _ => ⟨rfl, rfl⟩)
    rw [List.mem_cons, List.mem_singleton]
    exact hst
  · simp only [List.forall_mem_cons, List.not_mem_nil, false_imp_iff, implies_true, and_true]
    exact ⟨fun ptr len => instWaits (l := [.running, .frozen]) (pre := fun _ => none) rfl hn hi,
      fun ptr len => instWaits (l := [.running, .frozen, .resetting, .saving, .restoring]) (pre := fun _ => none) rfl hn hi⟩
  · exact instStarts (l := [.running, .frozen, .resetting, .saving, .restoring]) (pre := fun _ => none) rfl hn hi (mem_destroyable hst) (fun _ => ⟨rfl, rfl⟩)
  · exact instStarts (l := [.frozen]) (pre := fun u => u.restoreCheck n (image.take room) room) rfl hn hi (by rw [hst]; exact List.mem_singleton.mpr rfl)
      (fun ptr => ⟨hcheck, hcheck⟩)
  · rw [quiescence_eq hw hcmd, if_pos (by rw [hquiet, decide_eq_true hshort]; rfl)]
  · rw [quiescence_eq hw hcmd, if_neg, if_pos hquiet]
    rw [Bool.and_eq_true, decide_eq_true_eq]
    exact fun hboth => Nat.not_lt.mpr hfits hboth.2
  · rw [quiescence_eq hw hcmd, hbusy]
    rfl

end Sys2Proof.Machine
end

section
/-!
SUPPORT. Staging, reading and abandoning, and the clean-up after a commit (R133 to R136, R236): the theorem that settles O30.
-/

namespace Sys2Proof.Machine

open Sys2Proof

set_option Elab.async false

/-! ### Operands of their full length -/

/-- A descriptor of its full length is not padded. -/
theorem padTo_self {n : Nat} {d : List Byte} (h : d.length = n) : padTo n d = d := by
  rw [padTo, h, Nat.sub_self, zeros, List.replicate_zero, List.append_nil, ← h, List.take_length]

/-- Nor is a list of them. -/
theorem map_padTo_self {n : Nat} {ds : List (List Byte)} (h : ∀ d ∈ ds, d.length = n) : ds.map (padTo n) = ds :=
  (List.map_congr_left (fun d hd => padTo_self (h d hd))).trans (List.map_id ds)

/-- A list of its full length is taken as it is. -/
theorem take_full {α : Type} {n m : Nat} {l : List α} {a : α} (h : l.length = n) : (l ++ List.replicate m a).take n = l := by
  rw [← h, List.take_left']
  rfl

/-- A list has no element of a kind that none of its members is. -/
theorem findIdx_none {α : Type} {l : List α} {p : α → Bool} (h : ∀ a ∈ l, p a = false) : l.findIdx? p = none := by
  rw [List.findIdx?_eq_none_iff]
  exact h

/-- A change that is made unless every field says that nothing changes. -/
theorem ite_all {α β : Type} [DecidableEq α] {l : List α} {a c : α} {x y : β} [Decidable (∀ b ∈ l, b = c)] (h : a = c) :
    (if l.all (fun b => decide (b = a)) = true then x else y) = if ∀ b ∈ l, b = c then x else y := by
  subst h
  refine if_congr ?_ rfl rfl
  rw [List.all_eq_true]
  exact forall₂_congr (fun b _ => decide_eq_true_iff)

/-- A list of checks that all hold has no first that fails. -/
theorem firstBad_none {l : List (Nat × Bool)} (h : ∀ p ∈ l, p.2 = true) : firstBad l = none := by
  induction l with
  | nil => rfl
  | cons p l ih =>
    rw [firstBad, if_pos (h p List.mem_cons_self)]
    exact ih (fun q hq => h q (List.mem_cons_of_mem p hq))

/-! ### Staging -/

/-- A STAGE command whose checks hold stages its changes in turn (R236). -/
theorem stages_of {s : State} {h : MbHdr} {c : Instr} {opcode batch : Nat} {j : Judge} {cs : List Change}
    (hrow : exec c s = .next (s.runStage h opcode batch j cs)) (hbad : j.bad = none) (hobjs : j.objs = [])
    (hmissing : j.missing s = none) (hpre : j.pre s = none) (hm : ∀ ptr, j.missing (s.read h (row opcode) ptr) = j.missing s)
    (hp : ∀ ptr, j.pre (s.read h (row opcode) ptr) = j.pre s) : Claims.Stages s h c opcode j.need batch cs := fun ptr _ hacts =>
  hrow.trans (congrArg Host.Outcome.next (now_run hacts hbad hmissing (by rw [hobjs]; exact holding_nil s) hpre (hm ptr) (hp ptr)))

/-- The number of a batch is in range. -/
theorem batch_ok {batch : Nat} {bad : Option Nat} (hlow : 1 ≤ batch) (hhigh : batch ≤ 255) (hbad : bad = none) :
    (if 1 ≤ batch ∧ batch ≤ 255 then bad else some 0) = none := (if_pos ⟨hlow, hhigh⟩).trans hbad

/-- The judgement of STAGE_ENTRIES. -/
def entriesJudge (batch table n : Nat) : Judge :=
  { stageJudge batch (8 + 112 * n) (if table < 64 then none else some 1) with
    missing := fun s => if (s.cls.cur.table table).isSome then none else some table
    pre := fun s => firstOf [failIf (s.batchRequested batch) (vPre 1),
      failIf (match s.tableBatch table with | some b => s.batchRequested b | none => false) (vPre 1)] }

/-- STAGE_ENTRIES into a batch that no commit has been asked for, of a table whose batch none has been asked for either (R133, R135). -/
theorem stageEntries_eq {s : State} {h : MbHdr} {batch table ptr len : Nat} {es : List StagedEntry} (hlow : 1 ≤ batch) (hhigh : batch ≤ 255)
    (hfree : s.batchRequested batch = false) (htable : table < 64) (hex : s.cls.cur.table table ≠ none)
    (hbatch : ∀ b, s.tableBatch table = some b → s.batchRequested b = false) (hacts : s.Acts h (rowH 0x0403) ptr len (8 + 112 * es.length)) :
    let u := s.read h (rowH 0x0403) ptr
    let b := (s.tableBatch table).getD batch
    let x := u.stageEntries b table 0 es
    exec (.stageEntries h batch table es) s = .next (x.1.writeResult h.hm.val ptr len h.v2 (if x.2.2 = 0 then vOk else { status := x.2.2, kind := 2, value := 72 + 112 * x.2.1 })
      ([Claims.b b, 0, 0, 0] ++ leBytes 4 x.2.1) 8) := by
  have hrequested : (match s.tableBatch table with | some b => s.batchRequested b | none => false) = false := by
    cases hb : s.tableBatch table with
    | none => rfl
    | some b => exact hbatch b hb
  exact congrArg Host.Outcome.next (now_run (j := entriesJudge batch table es.length) hacts (batch_ok hlow hhigh (if_pos htable)) (missing_none hex) (holding_nil s)
    (firstOf_cons (fail_false hfree) (firstOf_cons (fail_false hrequested) rfl)) rfl rfl)

/-- The judgement of STAGE_STAGES. -/
def stagesJudge (batch first : Nat) (ds : List (List Byte)) : Judge :=
  { stageJudge batch (8 + 64 * ds.length) (if 12 ≤ first then some 1 else if 12 < first + ds.length then some 2 else itemsBad stageBad 64 8 ds) with
    missing := fun s => (ds.map stageTables).flatten.find? (fun n => (s.cls.cur.table n).isNone)
    pre := fun s => match itemsBad (stageTableBad s.cls.cur) 64 8 ds with | some off => some (vBad (64 + off)) | none => failIf (s.batchRequested batch) (vPre 1) }

/-- STAGE_STAGES of whole descriptors. -/
theorem stageStages_row {s : State} {h : MbHdr} {batch first : Nat} {ds : List (List Byte)} (hlen : ∀ d ∈ ds, d.length = 64) :
    exec (.stageStages h batch first ds) s = .next (s.runStage h 0x0404 batch (stagesJudge batch first ds) (ds.zipIdx.map (fun p => Change.stage (first + p.2) p.1))) := by
  have hrow : exec (.stageStages h batch first ds) s = .next (s.runStage h 0x0404 batch (stagesJudge batch first (ds.map (padTo 64)))
    ((ds.map (padTo 64)).zipIdx.map (fun p => Change.stage (first + p.2) p.1))) := rfl
  rw [hrow, map_padTo_self hlen]

/-- STAGE_STAGES (R117, R118). -/
theorem stageStages_stages {s : State} {h : MbHdr} {batch first : Nat} {ds : List (List Byte)} (hlow : 1 ≤ batch) (hhigh : batch ≤ 255)
    (hfree : s.batchRequested batch = false) (hlen : ∀ d ∈ ds, d.length = 64) (hfirst : first < 12) (hend : first + ds.length ≤ 12)
    (hbad : itemsBad stageBad 64 8 ds = none) (hex : ∀ n ∈ (ds.map stageTables).flatten, s.cls.cur.table n ≠ none)
    (htables : itemsBad (stageTableBad s.cls.cur) 64 8 ds = none) :
    Claims.Stages s h (.stageStages h batch first ds) 0x0404 (8 + 64 * ds.length) batch (ds.zipIdx.map (fun p => Change.stage (first + p.2) p.1)) := by
  refine stages_of (j := stagesJudge batch first ds) (stageStages_row hlen)
    (batch_ok hlow hhigh ((if_neg (Nat.not_le.mpr hfirst)).trans ((if_neg (Nat.not_lt.mpr hend)).trans hbad))) rfl ?_ ?_ (fun _ => rfl) (fun _ => rfl)
  · refine List.find?_eq_none.mpr (fun n hn => ?_)
    rw [Option.isNone_iff_eq_none]
    exact hex n hn
  · rw [stagesJudge]
    dsimp only
    rw [htables]
    exact fail_false hfree

/-- The judgement of STAGE_GRAPH. -/
def graphJudge (batch first : Nat) (starts : List Nat) (ns : List (List Byte)) : Judge :=
  stageJudge batch (48 + 64 * ns.length)
    (if 256 ≤ first then some 2 else if 256 < first + ns.length then some 4
     else match starts.findIdx? (fun n => decide (256 ≤ n) && decide (n ≠ 0xFFFF)) with | some i => some (8 + 2 * i) | none => itemsBad nodeBad 64 48 ns)

/-- STAGE_GRAPH of whole nodes and 20 starts. -/
theorem stageGraph_row {s : State} {h : MbHdr} {batch first : Nat} {start : List Nat} {ns : List (List Byte)} (hlen : ∀ d ∈ ns, d.length = 64)
    (hstart : start.length = 20) : exec (.stageGraph h batch first start ns) s = .next (s.runStage h 0x0405 batch (graphJudge batch first start ns)
      (ns.zipIdx.map (fun p => Change.node (first + p.2) p.1) ++ (if ∀ n ∈ start, n = 0xFFFF then [] else [Change.starts start]))) := by
  have hrow : ∀ starts, (start ++ List.replicate 20 0xFFFF).take 20 = starts → exec (.stageGraph h batch first start ns) s =
      .next (s.runStage h 0x0405 batch (graphJudge batch first starts (ns.map (padTo 64)))
        ((ns.map (padTo 64)).zipIdx.map (fun p => Change.node (first + p.2) p.1) ++
          (if starts.all (fun n => decide (n = 0xFFFF)) = true then [] else [Change.starts starts]))) := fun starts hs => by
    subst hs
    rfl
  rw [hrow start (take_full hstart), map_padTo_self hlen, ite_all rfl]

/-- STAGE_GRAPH (R102, R103). -/
theorem stageGraph_stages {s : State} {h : MbHdr} {batch first : Nat} {start : List Nat} {ns : List (List Byte)} (hlow : 1 ≤ batch) (hhigh : batch ≤ 255)
    (hfree : s.batchRequested batch = false) (hlen : ∀ d ∈ ns, d.length = 64) (hstart : start.length = 20) (hstarts : ∀ n ∈ start, n < 256 ∨ n = 0xFFFF)
    (hfirst : first < 256) (hend : first + ns.length ≤ 256) (hbad : itemsBad nodeBad 64 48 ns = none) :
    Claims.Stages s h (.stageGraph h batch first start ns) 0x0405 (48 + 64 * ns.length) batch
      (ns.zipIdx.map (fun p => Change.node (first + p.2) p.1) ++ (if ∀ n ∈ start, n = 0xFFFF then [] else [Change.starts start])) := by
  refine stages_of (j := graphJudge batch first start ns) (stageGraph_row hlen hstart)
    (batch_ok hlow hhigh ((if_neg (Nat.not_le.mpr hfirst)).trans ((if_neg (Nat.not_lt.mpr hend)).trans ?_))) rfl rfl (fail_false hfree) (fun _ => rfl) (fun _ => rfl)
  have hnone : start.findIdx? (fun n => decide (256 ≤ n) && decide (n ≠ 0xFFFF)) = none := by
    refine findIdx_none (fun n hn => ?_)
    rcases hstarts n hn with hlt | hkeep
    · rw [decide_eq_false (Nat.not_le.mpr hlt), Bool.false_and]
    · rw [decide_eq_false (not_not.mpr hkeep), Bool.and_false]
  rw [hnone]
  exact hbad

/-- The judgement of STAGE_DEFAULTS. -/
def defaultsJudge (batch : Nat) (pf nm : List Word) : Judge :=
  stageJudge batch 168 (((pf ++ nm).findIdx? (fun a => !defaultOk a)).map (fun i => 8 + 4 * i))

/-- STAGE_DEFAULTS of 20 words of each kind. -/
theorem stageDefaults_row {s : State} {h : MbHdr} {batch : Nat} {pf nm : List Word} (hpf : pf.length = 20) (hnm : nm.length = 20) :
    exec (.stageDefaults h batch pf nm) s = .next (s.runStage h 0x0406 batch (defaultsJudge batch pf nm)
      (if ∀ a ∈ pf ++ nm, a = 0xFFFFFFFF then [] else [Change.defaults pf nm])) := by
  have hrow : ∀ p n, (pf ++ List.replicate 20 0xFFFFFFFF#32).take 20 = p → (nm ++ List.replicate 20 0xFFFFFFFF#32).take 20 = n →
      exec (.stageDefaults h batch pf nm) s = .next (s.runStage h 0x0406 batch (defaultsJudge batch p n)
        (if (p ++ n).all (fun a => decide (a = 0xFFFFFFFF#32)) = true then [] else [Change.defaults p n])) := fun p n hp hn => by
    subst hp hn
    rfl
  rw [hrow pf nm (take_full hpf) (take_full hnm), ite_all (a := 0xFFFFFFFF#32) (c := (0xFFFFFFFF : Word)) rfl]

/-- STAGE_DEFAULTS (R109, R114). -/
theorem stageDefaults_stages {s : State} {h : MbHdr} {batch : Nat} {pf nm : List Word} (hlow : 1 ≤ batch) (hhigh : batch ≤ 255)
    (hfree : s.batchRequested batch = false) (hpf : pf.length = 20) (hnm : nm.length = 20) (hok : ∀ a ∈ pf ++ nm, defaultOk a = true) :
    Claims.Stages s h (.stageDefaults h batch pf nm) 0x0406 168 batch (if ∀ a ∈ pf ++ nm, a = 0xFFFFFFFF then [] else [Change.defaults pf nm]) := by
  refine stages_of (j := defaultsJudge batch pf nm) (stageDefaults_row hpf hnm) (batch_ok hlow hhigh ?_) rfl rfl (fail_false hfree) (fun _ => rfl) (fun _ => rfl)
  rw [findIdx_none (fun a ha => congrArg Bool.not (hok a ha))]
  rfl

/-- The judgement of STAGE_SPREAD. -/
def spreadJudge (batch : Nat) (seedset : Byte) (first : Nat) (ps : List Byte) (es : List Nat) : Judge :=
  { stageJudge batch (40 + 2 * es.length) (if 1 < seedset.toNat then some 1
      else match ps.findIdx? (fun p => decide (4 ≤ p.toNat) && decide (p ≠ 0xFF#8)) with
        | some i => some (12 + i)
        | none => (es.findIdx? (fun v => decide (1024 ≤ v))).map (fun i => 40 + 2 * i)) with
    pre := fun s => firstOf [failIf (s.batchRequested batch) (vPre 1), failIf (decide (4096 < first + es.length)) (vPre 2)] }

/-- STAGE_SPREAD of 28 profiles. -/
theorem stageSpread_row {s : State} {h : MbHdr} {batch first : Nat} {seedset : Byte} {seed : Word} {ps : List Byte} {es : List Nat} (hps : ps.length = 28) :
    exec (.stageSpread h batch seedset first seed ps es) s = .next (s.runStage h 0x0407 batch (spreadJudge batch seedset first ps es)
      ((if seedset = 1 then [Change.spreadSeed seed] else []) ++ (if ∀ p ∈ ps, p = 0xFF then [] else [Change.profiles ps]) ++
        es.zipIdx.map (fun p => Change.spreadEntry (first + p.2) p.1))) := by
  have hrow : ∀ p, (ps ++ List.replicate 28 0xFF#8).take 28 = p → exec (.stageSpread h batch seedset first seed ps es) s =
      .next (s.runStage h 0x0407 batch (spreadJudge batch seedset first p es)
        ((if seedset = 1 then [Change.spreadSeed seed] else []) ++ (if p.all (fun x => decide (x = 0xFF#8)) = true then [] else [Change.profiles p]) ++
          es.zipIdx.map (fun p => Change.spreadEntry (first + p.2) p.1))) := fun p hp => by
    subst hp
    rfl
  rw [hrow ps (take_full hps), ite_all (a := 0xFF#8) (c := (0xFF : Byte)) rfl]

/-- STAGE_SPREAD (R138 to R140). -/
theorem stageSpread_stages {s : State} {h : MbHdr} {batch first : Nat} {seedset : Byte} {seed : Word} {ps : List Byte} {es : List Nat} (hlow : 1 ≤ batch)
    (hhigh : batch ≤ 255) (hfree : s.batchRequested batch = false) (hset : seedset.toNat ≤ 1) (hps : ps.length = 28) (hprof : ∀ p ∈ ps, p.toNat < 4 ∨ p = 0xFF)
    (hes : ∀ v ∈ es, v < 1024) (hend : first + es.length ≤ 4096) :
    Claims.Stages s h (.stageSpread h batch seedset first seed ps es) 0x0407 (40 + 2 * es.length) batch
      ((if seedset = 1 then [Change.spreadSeed seed] else []) ++ (if ∀ p ∈ ps, p = 0xFF then [] else [Change.profiles ps]) ++
        es.zipIdx.map (fun p => Change.spreadEntry (first + p.2) p.1)) := by
  refine stages_of (j := spreadJudge batch seedset first ps es) (stageSpread_row hps) (batch_ok hlow hhigh ((if_neg (Nat.not_lt.mpr hset)).trans ?_)) rfl rfl
    (firstOf_cons (fail_false hfree) (firstOf_cons (fail_decide (Nat.not_lt.mpr hend)) rfl)) (fun _ => rfl) (fun _ => rfl)
  have hnone : ps.findIdx? (fun p => decide (4 ≤ p.toNat) && decide (p ≠ 0xFF#8)) = none := by
    refine findIdx_none (fun p hp => ?_)
    rcases hprof p hp with hlt | hkeep
    · rw [decide_eq_false (Nat.not_le.mpr hlt), Bool.false_and]
    · rw [decide_eq_false (p := p ≠ 0xFF#8) (not_not.mpr hkeep), Bool.and_false]
  rw [hnone]
  dsimp only
  rw [findIdx_none (fun v hv => decide_eq_false (Nat.not_le.mpr (hes v hv)))]
  rfl

/-! ### Reading, planning and cleaning up -/

/-- The number of items up to which READ reads of a kind (R236). -/
def readMost (what first count : Nat) : Nat := match what with | 2 => 256 | 3 => 12 | 4 => 4096 | _ => first + count

/-- Items within a kind's number are within it. -/
theorem readMost_ok {what : Byte} {first count : Nat} (h2 : what = 2 → first + count ≤ 256) (h3 : what = 3 → first + count ≤ 12)
    (h4 : what = 4 → first + count ≤ 4096) : first + count ≤ readMost what.toNat first count := by
  unfold readMost
  split
  · exact h2 (BitVec.eq_of_toNat_eq ‹_›)
  · exact h3 (BitVec.eq_of_toNat_eq ‹_›)
  · exact h4 (BitVec.eq_of_toNat_eq ‹_›)
  · exact Nat.le_refl _

/-- The judgement of READ. -/
def readJudge (what : Byte) (table first count : Nat) : Judge :=
  { Judge.plain 48 with
    bad := firstBad [(0, decide (1 ≤ what.toNat) && decide (what.toNat ≤ 5)), (1, decide (what ≠ 1#8) || decide (table < 64)),
      (2, decide (first ≤ readMost what.toNat first count)), (4, decide (first + count ≤ readMost what.toNat first count))]
    missing := fun s => if what = 1#8 ∧ (s.cls.cur.table table).isNone then some table else none }

/-- READ answers (R236). -/
theorem read_answers {s : State} {h : MbHdr} {what : Byte} {table first count : Nat} {key : List Byte} (hlow : 1 ≤ what.toNat) (hhigh : what.toNat ≤ 5)
    (h1 : what = 1 → table < 64 ∧ s.cls.cur.table table ≠ none) (h2 : what = 2 → first + count ≤ 256) (h3 : what = 3 → first + count ≤ 12)
    (h4 : what = 4 → first + count ≤ 4096) :
    Claims.Answers s h (.read h what table first count key) (row 0x040A) 48 (fun u => u.readTables what.toNat table first count key) := by
  have hmost := readMost_ok h2 h3 h4
  refine answers_of (j := readJudge what table first count) rfl (firstBad_none ?_) (if_neg ?_) (holding_nil s) rfl (fun _ => rfl) (fun _ => rfl)
  · simp only [List.forall_mem_cons, List.not_mem_nil, false_imp_iff, implies_true, and_true, Bool.and_eq_true, Bool.or_eq_true, decide_eq_true_eq]
    exact ⟨⟨hlow, hhigh⟩, (Decidable.em (what = 1)).symm.imp id (fun heq => (h1 heq).1), Nat.le_trans (Nat.le_add_right _ _) hmost, hmost⟩
  · rintro ⟨heq, hnone⟩
    exact (h1 heq).2 (Option.isNone_iff_eq_none.mp hnone)

/-- When a clean-up still waits (R136). -/
theorem earlierFrames_iff (s : State) (ver : Nat) : s.earlierFrames ver = true ↔
    (∃ f ∈ s.cls.queueA ++ s.cls.queueB, f.ver < ver) ∨ fineTime s.time.sec s.time.ns s.time.frac <
      (if s.cls.cur.ver = ver then s.cls.curFrom else ((s.cls.former.find? (fun v => decide (v.1.ver = ver))).map Prod.snd).getD 0) + 4000 * 65536 := by
  rw [State.earlierFrames, Bool.or_eq_true, List.any_eq_true, decide_eq_true_eq]
  simp only [decide_eq_true_eq]

/-- The oldest clean-up after a commit (R135, R136). -/
theorem cleanup_eq {s : State} {c : CleanUp} {rest : List CleanUp} (hc : s.cls.cleaning = c :: rest) : exec .commitCleanupComplete s =
    .next (if s.earlierFrames c.ver = true then s
      else { s with cls := { s.cls with former := s.cls.former.filter (fun v => decide (c.ver ≤ v.1.ver)), cleaning := rest } }) := by
  show (Host.Outcome.next _ : Answer) = _
  rw [hc]

/-- Settles O30: every command's checks hold under its hypotheses; the clean-up by the frames of earlier versions. -/
theorem stagedChangesGatherInBatches : Obligations.StagedChangesGatherInBatches := by
  unfold Obligations.StagedChangesGatherInBatches
  refine fun s h => ⟨fun batch hlow hhigh hfree => ⟨fun table es ptr len => stageEntries_eq hlow hhigh hfree, fun first ds => stageStages_stages hlow hhigh hfree,
      fun first start ns => stageGraph_stages hlow hhigh hfree, fun pf nm => stageDefaults_stages hlow hhigh hfree,
      fun seedset first seed ps es => stageSpread_stages hlow hhigh hfree, ?_⟩,
    fun what table first count key => read_answers, fun sizes hlen hsum => ?_, fun hempty => ?_, fun c rest hc => ⟨fun hwait => ?_, fun hgo => ?_⟩⟩
  · exact does_of (j := stageJudge batch 1 none) rfl (batch_ok hlow hhigh rfl) rfl (fail_false hfree) (fun _ => rfl) (fun _ => rfl)
  · have hrow : ∀ p, (sizes ++ List.replicate 9 0).take 9 = p → p.foldl (· + ·) 0 = 40960 → Claims.Does s h (.tablePlan h sizes) (row 0x040C) 36 []
        (fun u => { u with cls := { u.cls with tablePlanNext := p } }) := fun p hp hp' => by
      subst hp
      exact does_judged (bad := none) rfl rfl (fail_decide (not_not.mpr hp')) (fun _ => rfl)
    exact hrow sizes (take_full hlen) hsum
  · show (Host.Outcome.next _ : Answer) = _
    rw [hempty]
  · rw [cleanup_eq hc, if_pos ((earlierFrames_iff _ _).mpr hwait)]
  · rw [cleanup_eq hc, if_neg (fun hyes => hgo ((earlierFrames_iff _ _).mp hyes))]

end Sys2Proof.Machine
end

section
/-!
SUPPORT. Class T commands: what each is judged by at its take and at its turn, and its effect there (R230 to R232): the theorem that settles O31.
-/

namespace Sys2Proof.Machine

open Sys2Proof

set_option Elab.async false

/-! ### Commands that are armed -/

/-- A class T command is armed when its judgement on the projected device holds, and takes effect at a turn where it holds again (R232). -/
theorem arms_of {s : State} {h : MbHdr} {c : Instr} {r : CmdRow} {need tick : Nat} {objs : List (Nat × Nat)} {ok : State → Prop} {eff : State → State}
    {res : State → List Byte} (hrow : exec c s = .next (s.takeT h r c tick)) (hneed : (s.judgeT c).need = need) (hobjs : (s.judgeT c).objs = objs)
    (hbad : (s.judgeT c).bad = none) (hok : ∀ u v : State, ok v → (u.judgeT c).missing v = none ∧ (u.judgeT c).pre v = none)
    (heff : ∀ start v, applyT start c v = (eff v, res v)) : Claims.Arms s h c r need tick objs ok eff res := by
  refine ⟨fun ptr len hacts hheld hjudged => ?_, fun v start a hc hv => ?_⟩
  · obtain ⟨hmissing, hpre⟩ := hok s s.projected hjudged
    rw [← hneed] at hacts
    rw [← hobjs] at hheld
    exact hrow.trans (congrArg Host.Outcome.next (turn_run hacts hbad hmissing hheld hpre))
  · obtain ⟨hmissing, hpre⟩ := hok v v hv
    rw [armed_apply hc hmissing hpre, heff start v]

/-! ### Instances -/

/-- An instance in one of some states passes the checks that every command on an instance makes (R275). -/
theorem instIn_passes {v : State} {n : Nat} {l : List InstState} (h : Claims.instIn v n l) :
    noInst n v = none ∧ firstOf [failIf (!v.instIn n l) (vPre 1), none] = none := by
  obtain ⟨i, hi, hl⟩ := h
  exact ⟨noInst_none hi, firstOf_cons (fail_instIn hi hl) rfl⟩

/-- INSTANCE_RESIZE (R279). -/
theorem instanceResize_arms {s : State} {h : MbHdr} {n : Nat} {r : Res} (hn : n < 4096) (hres : resBad r (s.absentVfs n).1 (s.absentVfs n).2 = none) :
    Claims.Arms s h (.instanceResize h n r) (row 0x0202) 32 0 [obj .inst n]
      (fun v => ∃ i, v.inst n = some i ∧ (i.st = .running ∨ i.st = .frozen) ∧ i.elastic = true ∧ resBelow r (v.resUse n) = false ∧ v.resShort n r = none)
      (fun v => v.modInst n (fun i => { i with res := r })) (fun _ => []) := by
  refine arms_of rfl rfl rfl ((if_neg (Nat.not_le.mpr hn)).trans ?_) (fun u v hv => ?_) (fun _ _ => rfl)
  · rw [hres]
    rfl
  · obtain ⟨i, hi, hst, helastic, hbelow, hshort⟩ := hv
    have hstates : i.st ∈ [InstState.running, .frozen] := by simpa using hst
    refine ⟨noInst_none hi, firstOf_cons (fail_instIn hi hstates) (firstOf_cons ?_ rfl)⟩
    dsimp only
    rw [hi]
    refine firstOf_cons (fail_false ?_) (firstOf_cons (fail_false hbelow) (firstOf_cons ?_ rfl))
    · rw [helastic]
      rfl
    · rw [hshort]
      rfl

/-- MAC_SET (R234). -/
theorem macSet_arms {s : State} {h : MbHdr} {n count : Nat} {macs : List Nat} (hn : n < 4096) (hcount : count ≤ 16) (hmacs : ∀ m ∈ macs, m < 2 ^ 48) :
    Claims.Arms s h (.macSet h n count macs) (row 0x020B) 136 0 [obj .inst n] (fun v => Claims.instIn v n [.running, .frozen])
      (fun v => v.modInst n (fun i => { i with macs := macs.take count })) (fun _ => []) := by
  refine arms_of rfl rfl rfl ((if_neg (Nat.not_le.mpr hn)).trans ((if_neg (Nat.not_lt.mpr hcount)).trans ?_)) (fun _ _ => instIn_passes) (fun _ _ => rfl)
  rw [findIdx_none (fun m hm => decide_eq_false (Nat.not_le.mpr (hmacs m (List.mem_of_mem_take hm))))]
  rfl

/-- NS_ATTACH (R239, R277). -/
theorem nsAttach_arms {s : State} {h : MbHdr} {n ns nsid : Nat} (hn : n < 4096) (hns : ns < 2 ^ 32) (hlow : 1 ≤ nsid) (hhigh : nsid ≤ 256) :
    Claims.Arms s h (.nsAttach h n ns nsid) (row 0x0604) 12 0 [obj .inst n, obj .ns ns]
      (fun v => (∃ i, v.inst n = some i ∧ (v.attachedTo n).length < i.res.ns) ∧ v.ns ns ≠ none ∧ FMap.get none v.sto.attach (n * 512 + nsid) = none)
      (fun v => { v with sto := { v.sto with attach := FMap.set none v.sto.attach (n * 512 + nsid) (some ns) } }) (fun _ => []) := by
  refine arms_of rfl rfl rfl ((if_neg (Nat.not_le.mpr hn)).trans ((if_neg (Nat.not_le.mpr hns)).trans (if_neg (by omega)))) (fun u v hv => ?_) (fun _ _ => rfl)
  obtain ⟨⟨i, hi, hroom⟩, hex, hfree⟩ := hv
  have hmissing : (attachJudge n ns nsid).missing v = if (v.ns ns).isSome then none else some ns := by
    rw [attachJudge]
    dsimp only
    rw [noInst_none hi]
  refine ⟨hmissing.trans (missing_none hex), firstOf_cons (fail_isSome hfree) (firstOf_cons ?_ rfl)⟩
  rw [hi]
  exact fail_decide (Nat.not_le.mpr hroom)

/-! ### Queues of the host manager -/

/-- A queue command whose function has the place of an instance that exists names nothing that is missing (R235). -/
theorem queueMissing_none {v : State} {need n : Nat} {pf : Byte} (h : n = 0xFFFF ∨ v.inst n ≠ none) : (queueJudge need n pf).missing v = none :=
  if_pos (h.imp id Option.isSome_iff_ne_none.mpr)

/-- And its operands are in range. -/
theorem queueBad_none {need n : Nat} {pf : Byte} (hn : n < 4096 ∨ n = 0xFFFF) (hpf : pf = 1 ∨ pf = 2) : (queueJudge need n pf).bad = none :=
  (if_neg (by omega)).trans (if_pos hpf)

/-- QUEUE_DESTROY (R235, R265). -/
theorem queueDestroy_arms {s : State} {h : MbHdr} {n q : Nat} {pf : Byte} (hn : n < 4096 ∨ n = 0xFFFF) (hpf : pf = 1 ∨ pf = 2) (hq : q ≠ 0) :
    Claims.Arms s h (.queueDestroy h n pf q) (row 0x0302) 6 0 (if n = 0xFFFF then [] else [obj .inst n])
      (fun v => (n = 0xFFFF ∨ v.inst n ≠ none) ∧ v.hasQueue (queueFn n pf) q = true) (fun v => v.queueDestroy (queueFn n pf) q) (fun _ => []) := by
  refine arms_of rfl rfl rfl (queueBad_none (need := 6) hn hpf) (fun u v hv => ?_) (fun _ _ => rfl)
  obtain ⟨hinst, hqueue⟩ := hv
  have hmissing : (queueGoneJudge n pf q).missing v = if q = 0 ∨ v.hasQueue (queueFn n pf) q then none else some q := by
    rw [queueGoneJudge]
    dsimp only
    rw [queueMissing_none hinst]
  exact ⟨hmissing.trans (if_pos (.inr hqueue)), fail_decide hq⟩

/-- RING_BIND of a descriptor ring to a queue of its tenant (R235, log 48). -/
theorem ringBind_arms {s : State} {h : MbHdr} {n q tmq : Nat} {wake : Byte} (hn : n < 4096 ∨ n = 0xFFFF) :
    Claims.Arms s h (.ringBind h n 1 q tmq wake) (row 0x0303) 9 0 (if n = 0xFFFF then [] else [obj .inst n])
      (fun v => ∃ x t, v.queue (qKey (queueFn n 1) q) = some x ∧ v.hasQueue (queueFn n 1) q = true ∧ (x.type = 1 ∨ x.type = 2) ∧ v.tmq tmq = some t ∧
        (n = 0xFFFF ∨ v.inst n ≠ none) ∧ ∀ i, v.inst n = some i → t.tenant = i.tenant)
      (fun v => v.modQueue (qKey (queueFn n 1) q) (fun x => { x with tmq := some tmq, wake := wake.getLsbD 0 })) (fun _ => []) := by
  refine arms_of rfl rfl rfl (queueBad_none (need := 9) hn (.inl rfl)) (fun u v hv => ?_) (fun _ _ => rfl)
  obtain ⟨x, t, hx, hqueue, htype, ht, hinst, htenant⟩ := hv
  have hmissing : (bindJudge n 1 q tmq).missing v = if !v.hasQueue (queueFn n 1) q then some q else if (v.tmq tmq).isNone then some tmq else none := by
    rw [bindJudge]
    dsimp only
    rw [queueMissing_none hinst]
  refine ⟨hmissing.trans ?_, firstOf_cons ?_ (firstOf_cons (fail_false ?_) rfl)⟩
  · rw [hqueue, ht]
    rfl
  · rw [hx]
    dsimp only
    rw [← Bool.decide_or, decide_eq_true htype]
    rfl
  · rw [ht]
    cases hi : v.inst n with
    | none => rfl
    | some i => exact decide_eq_false (not_not.mpr (htenant i hi))

/-! ### Tables -/

/-- TABLE_CREATE (R120, R121, R236). -/
theorem tableCreate_arms {s : State} {h : MbHdr} {t cap nf : Nat} {ty kl fl : Byte} {seed : Word} {fs : List (Nat × Nat)}
    (hbad : (tableJudge t ty kl fl cap seed nf fs).bad = none) :
    Claims.Arms s h (.tableCreate h t ty kl fl cap seed nf fs) (rowH 0x0401) 32 0 []
      (fun v => v.cls.cur.table t = none ∧ v.tableFits (newTable ty kl fl cap seed nf fs) = true) (fun v => v.tableCreate t (newTable ty kl fl cap seed nf fs)) (fun _ => []) := by
  refine arms_of rfl rfl rfl hbad (fun u v hv => ?_) (fun _ _ => rfl)
  obtain ⟨hfree, hfits⟩ := hv
  refine ⟨rfl, firstOf_cons (fail_isSome hfree) (firstOf_cons (fail_false ?_) rfl)⟩
  rw [hfits]
  rfl

/-- No stage and no batch names a table that TABLE_DESTROY may take (R236). -/
theorem table_unstaged {v : State} {t : Nat} (hstages : ∀ e ∈ v.cls.cur.stages, t ∉ stageTables e.2)
    (hbatches : ∀ b ∈ v.cls.batches, ∀ c ∈ b.changes, t ∉ c.staged ∧ ∀ op e, c ≠ .entry t op e) :
    (v.cls.cur.stages.any (fun e => (stageTables e.2).contains t) || v.cls.batches.any (fun b => b.changes.any (fun c => c.staged.contains t))) = false := by
  simp only [Bool.or_eq_false_iff, List.any_eq_false, List.contains_iff_mem]
  refine ⟨hstages, fun b hb => ?_⟩
  rw [Bool.not_eq_true, List.any_eq_false]
  intro c hc
  rw [List.contains_iff_mem]
  exact (hbatches b hb c hc).1

/-- Nor holds a batch an entry of it. -/
theorem table_noEntry {v : State} {t : Nat} (hbatches : ∀ b ∈ v.cls.batches, ∀ c ∈ b.changes, t ∉ c.staged ∧ ∀ op e, c ≠ .entry t op e) :
    v.cls.batches.any (fun b => b.changes.any (fun c => match c with | .entry t' _ _ => decide (t' = t) | _ => false)) = false := by
  refine List.any_eq_false.mpr (fun b hb => ?_)
  rw [Bool.not_eq_true, List.any_eq_false]
  intro c hc
  have hne := (hbatches b hb c hc).2
  cases c with
  | entry t' op e => exact fun heq => hne op e (by rw [of_decide_eq_true heq])
  | _ => exact Bool.false_ne_true

/-- TABLE_DESTROY (R236). -/
theorem tableDestroy_arms {s : State} {h : MbHdr} {t : Nat} (ht : t < 64) :
    Claims.Arms s h (.tableDestroy h t) (rowH 0x0402) 1 0 []
      (fun v => v.cls.cur.table t ≠ none ∧ (∀ e ∈ v.cls.cur.stages, t ∉ stageTables e.2) ∧ ∀ b ∈ v.cls.batches, ∀ c ∈ b.changes, t ∉ c.staged ∧ ∀ op e, c ≠ .entry t op e)
      (fun v => v.dropTable t) (fun _ => []) := by
  refine arms_of rfl rfl rfl (if_pos ht) (fun u v hv => ?_) (fun _ _ => rfl)
  obtain ⟨hex, hstages, hbatches⟩ := hv
  exact ⟨missing_none hex, firstOf_cons (fail_false (table_unstaged hstages hbatches)) (firstOf_cons (fail_false (table_noEntry hbatches)) rfl)⟩

/-- TABLE_COUNTERS of one table (R142, R236). -/
theorem tableCounters_arms {s : State} {h : MbHdr} {t : Nat} (ht : t < 64) :
    Claims.Arms s h (.tableCounters h t) (row 0x040B) 1 0 [] (fun v => v.cls.cur.table t ≠ none) (fun v => v) (fun v => v.tableSix t) := by
  refine arms_of rfl rfl rfl (if_pos (.inl ht)) (fun u v hv => ⟨if_pos (.inr (Option.isSome_iff_ne_none.mpr hv)), rfl⟩) (fun start v => ?_)
  have hone : t ≠ 0xFF := by omega
  show (v, v.tableCounters t) = _
  rw [State.tableCounters, if_pos hone]

/-- Settles O31: each command's judgement holds under its condition, on the projected device at its take as at its turn. -/
theorem turnCommandsOnTenantsAndTables : Obligations.TurnCommandsOnTenantsAndTables := by
  unfold Obligations.TurnCommandsOnTenantsAndTables
  refine fun s h => ⟨fun pool hpool => arms_of rfl rfl rfl (if_pos hpool) (fun _ _ _ => ⟨rfl, rfl⟩) (fun _ _ => rfl),
    fun n hn => ⟨fun r => instanceResize_arms hn, arms_of rfl rfl rfl (if_pos hn) (fun _ _ => instIn_passes) (fun _ _ => rfl),
      arms_of rfl rfl rfl (if_pos hn) (fun _ _ => instIn_passes) (fun _ _ => rfl), fun count macs => macSet_arms hn, fun ns nsid => nsAttach_arms hn⟩,
    fun n pf q hn hpf => ⟨queueDestroy_arms hn hpf, ?_⟩, fun t ty kl fl cap seed nf fs => tableCreate_arms,
    fun t ht => ⟨tableDestroy_arms ht, tableCounters_arms ht⟩⟩
  rintro rfl tmq wake
  exact ringBind_arms hn

end Sys2Proof.Machine
end

section
/-!
SUPPORT. Class T commands on ports, the traffic manager, the clock, the stack and power (R232): the theorem that settles O32.
-/

namespace Sys2Proof.Machine

open Sys2Proof

set_option Elab.async false

/-- A command that judges only its operands is armed and takes effect (R232). -/
theorem arms_plain {s : State} {h : MbHdr} {c : Instr} {r : CmdRow} {need tick : Nat} {eff : State → State} {res : State → List Byte}
    (hrow : exec c s = .next (s.takeT h r c tick)) (hneed : (s.judgeT c).need = need) (hobjs : (s.judgeT c).objs = [])
    (hbad : (s.judgeT c).bad = none) (hok : ∀ u v : State, (u.judgeT c).missing v = none ∧ (u.judgeT c).pre v = none)
    (heff : ∀ start v, applyT start c v = (eff v, res v)) : Claims.Arms s h c r need tick [] (fun _ => True) eff res :=
  arms_of hrow hneed hobjs hbad (fun u v _ => hok u v) heff

/-! ### Lanes and groups -/

/-- Every lane mode is one of 0 to 5 (R90). -/
theorem laneModes_le {lane m : Nat} (h : m ∈ laneModes lane) : m ≤ 5 := by
  unfold laneModes at h
  have hall : ∀ l ∈ [[0, 1], [0, 1, 2, 3, 4], [0, 5]], ∀ x ∈ l, x ≤ 5 := by decide
  split_ifs at h
  · exact hall [0, 1] (by decide) m h
  · exact hall [0, 1, 2, 3, 4] (by decide) m h
  · exact hall [0, 5] (by decide) m h

/-- The rate adjustments that are set are within their range (R90). -/
theorem adjust_ok {b : Bool} {v : Int} (hlow : -16000 ≤ v) (hhigh : v ≤ 16000) : ¬ (b && (decide (v < -16000) || decide (16000 < v))) = true := by
  rw [decide_eq_false (Int.not_lt.mpr hlow), decide_eq_false (Int.not_lt.mpr hhigh), Bool.or_false, Bool.and_false]
  exact Bool.false_ne_true

/-- LANE_SET (R90). -/
theorem laneSet_arms {s : State} {h : MbHdr} {lane mf : Nat} {mode adj : Byte} {rx tx : Int} (hlane : lane < 20)
    (hmode : mode = 0xFF ∨ mode.toNat ∈ laneModes lane) (hmf : mf = 0 ∨ (1518 ≤ mf ∧ mf ≤ 9728)) (hrx : -16000 ≤ rx) (hrx' : rx ≤ 16000) (htx : -16000 ≤ tx)
    (htx' : tx ≤ 16000) (hadj : adj.toNat < 4) :
    Claims.Arms s h (.laneSet h lane mode mf rx tx adj) (rowH 0x0701) 9 0 []
      (fun v => (mode ≠ 0xFF → v.splitsGroup lane mode.toNat = false) ∧ ∀ l, v.lane? lane = some l → l.st ≠ .failed) (fun v => v.laneSet lane mode mf rx tx adj)
      (fun _ => []) := by
  have hmode5 : ¬ (5 < mode.toNat ∧ mode ≠ 0xFF#8) := fun hyes => hmode.elim hyes.2 (fun hm => Nat.not_lt.mpr (laneModes_le hm) hyes.1)
  refine arms_of rfl rfl rfl ((if_neg (Nat.not_le.mpr hlane)).trans ((if_neg hmode5).trans ((if_neg (by omega)).trans ((if_neg (adjust_ok hrx hrx')).trans
    ((if_neg (adjust_ok htx htx')).trans (if_neg (Nat.not_le.mpr hadj))))))) (fun u v hv => ?_) (fun _ _ => rfl)
  obtain ⟨hsplit, hst⟩ := hv
  refine ⟨rfl, firstOf_cons (fail_false ?_) (firstOf_cons (fail_false ?_) rfl)⟩
  · rcases Decidable.em (mode = 0xFF#8) with hkeep | hset
    · rw [decide_eq_false (not_not.mpr hkeep), Bool.false_and]
    · rw [hsplit hset, List.contains_iff_mem.mpr (hmode.resolve_left hset)]
      exact Bool.and_false _
  · cases hl : v.lane? lane with
    | none => rfl
    | some l => exact decide_eq_false (hst l hl)

/-- AG_HASH (R139). -/
theorem agHash_arms {s : State} {h : MbHdr} {g : Nat} {seed : Word} {pr : Byte} (hg : g < 8) (hpr : pr.toNat ≤ 3 ∨ pr = 0xFF) :
    Claims.Arms s h (.agHash h g seed pr) (row 0x0703) 9 0 [] (fun _ => True)
      (fun v => let c := v.cls.cur
        { v with ports := { v.ports with groups := modifyAt v.ports.groups g (fun x => { x with seed := seed }) },
                 cls := { v.cls with cur := { c with profiles := if pr = 0xFF then c.profiles else FMap.set 2 c.profiles (20 + g) pr } } }) (fun _ => []) := by
  have hprofile : ¬ (3 < pr.toNat ∧ pr ≠ 0xFF#8) := fun hyes => hpr.elim (fun hle => Nat.not_lt.mpr hle hyes.1) hyes.2
  exact arms_plain rfl rfl rfl ((if_neg (Nat.not_le.mpr hg)).trans (if_neg hprofile)) (fun _ _ => ⟨rfl, rfl⟩) (fun _ _ => rfl)

/-- The lanes that a STACK_GROUP names, counted from the left, are their number. -/
theorem lanes_counted (ms : List Half) : ((ms.take 8).map (fun (m : Half) => (maskLanes (m.zeroExtend 32)).length)).foldl (· + ·) 0 =
    ((ms.take 8).map (fun (m : Half) => (maskLanes (m.zeroExtend 32)).length)).sum := List.sum_eq_foldl.symm

/-- STACK_GROUP (R445, log 63). -/
theorem stackGroup_arms {s : State} {h : MbHdr} {g : Nat} {mode : Byte} {ms : List Half} (hg : g < 8) (hmode : mode.toNat ≤ 1)
    (hms : ((ms.take 8).map (fun (m : Half) => (maskLanes (m.zeroExtend 32)).length)).sum ≤ 8) :
    Claims.Arms s h (.stackGroup h g mode ms) (row 0x0B02) 20 0 [] (fun v => v.isMaster = true ∧ v.elsewhere g (v.ownLanes ms) = false ∧ v.mixedModes (v.ownLanes ms) = false ∧
      v.leavesOver g (v.ownLanes ms) = false) (fun v => v.stackGroup g mode ms) (fun _ => []) := by
  have hcount : ¬ 8 < ((ms.take 8).map (fun (m : Half) => (maskLanes (m.zeroExtend 32)).length)).foldl (· + ·) 0 := by
    rw [lanes_counted]
    exact Nat.not_lt.mpr hms
  refine arms_of rfl rfl rfl ((if_neg (Nat.not_le.mpr hg)).trans ((if_neg (Nat.not_lt.mpr hmode)).trans (if_neg hcount))) (fun u v hv => ?_) (fun _ _ => rfl)
  obtain ⟨hmaster, helse, hmixed, hover⟩ := hv
  refine ⟨rfl, firstOf_cons (fail_false ?_) (firstOf_cons (fail_false helse) (firstOf_cons (fail_false hmixed) (firstOf_cons (fail_false hover) rfl)))⟩
  rw [hmaster]
  rfl

/-! ### The traffic manager -/

/-- TMQ_CREATE (R162). -/
theorem tmqCreate_arms {s : State} {h : MbHdr} {q d c t qu mx sp : Nat} (hq : q < 65536) (hd : d < 16 ∨ (0x20 ≤ d ∧ d < 0x28)) (hc : c < 8) (ht : t < 4096)
    (hqu : qu = 0 ∨ (256 ≤ qu ∧ qu ≤ 1048576)) (hmx : mx = 0 ∨ (2048 ≤ mx ∧ mx < 2 ^ 32)) (hsp : sp = 0 ∨ (2048 ≤ sp ∧ sp ≤ if mx = 0 then 1048576 else mx)) :
    Claims.Arms s h (.tmqCreate h q d c t qu mx sp) (row 0x0704) 20 0 [] (fun v => (tmqJudge q d c t qu mx sp).pre v = none)
      (fun v => v.setTmq q (some { dest := d, cls := c, tenant := t, quantum := if qu = 0 then 16384 else qu, maxBytes := if mx = 0 then 1048576 else mx, spill := sp, leaves := v.newLeaves d, closed := [] }))
      (fun _ => []) := by
  have hdest : ¬ (!destOk d) = true := by
    rw [destOk, ← Bool.decide_and, ← Bool.decide_or, decide_eq_true hd]
    exact Bool.false_ne_true
  exact arms_of rfl rfl rfl ((if_neg (Nat.not_le.mpr hq)).trans ((if_neg hdest).trans ((if_neg (Nat.not_le.mpr hc)).trans ((if_neg (Nat.not_le.mpr ht)).trans
    ((if_neg (by omega)).trans ((if_neg (by omega)).trans (if_neg (by omega)))))))) (fun _ _ hv => ⟨rfl, hv⟩) (fun _ _ => rfl)

/-- The size of a TM_ATTR block of each kind (R163). -/
theorem tmAttr_need {k : Byte} {i : Nat} {a : TmAttrs} (hbad : (tmAttrJudge k i a).bad = none) :
    (tmAttrJudge k i a).need = if k = 1 then 41 else if k = 2 then 11 else 16 := by
  show (match k.toNat with | 1 => 41 | 2 => 11 | _ => 16) = _
  split
  · exact (if_pos (BitVec.eq_of_toNat_eq ‹_›)).symm
  · rw [if_neg (fun hk => ?_), if_pos (BitVec.eq_of_toNat_eq ‹_›)]
    subst hk
    contradiction
  · rw [if_neg (fun hk => ?_), if_neg (fun hk => ?_)]
    · subst hk
      contradiction
    · subst hk
      contradiction

/-- EDIT_LOAD of a good template (R174). -/
theorem editLoad_arms {s : State} {h : MbHdr} {t : Nat} {raw : List Byte} (hlow : 1 ≤ t) (hhigh : t ≤ 4095) (hlen : raw.length = 128) (hok : templateOk raw = true) :
    Claims.Arms s h (.editLoad h t raw) (row 0x0707) 136 0 [] (fun _ => True) (fun v => { v with tm := { v.tm with templates := FMap.set [] v.tm.templates t raw } })
      (fun _ => []) := by
  have hpad := padTo_self hlen
  refine arms_plain rfl rfl rfl ((if_neg (by omega)).trans (if_pos ?_)) (fun _ _ => ⟨rfl, rfl⟩) (fun _ v => ?_)
  · rw [hpad]
    exact hok
  · show (v.editLoad t raw, _) = _
    rw [State.editLoad, hpad]

/-- PORT_COUNTERS of an object that exists (R240). -/
theorem portCounters_arms {s : State} {h : MbHdr} {sc : Byte} {i : Word} (hlow : 1 ≤ sc.toNat) (hhigh : sc.toNat ≤ 7) :
    Claims.Arms s h (.portCounters h sc i) (rowH 0x0708) 8 0 [] (fun v => v.counterObj sc.toNat i = true) (fun v => v) (fun v => v.portCounters sc.toNat i) := by
  have hscope : ¬ (sc = 0 ∨ 7 < sc.toNat) := by
    rintro (hzero | hlarge)
    · subst hzero
      exact absurd hlow (by decide)
    · exact Nat.not_lt.mpr hhigh hlarge
  exact arms_of rfl rfl rfl (if_neg hscope) (fun _ _ hv => ⟨if_pos hv, rfl⟩) (fun _ _ => rfl)

/-! ### The clock -/

/-- SOURCE_PRIORITY (R29). -/
theorem sourcePriority_arms {s : State} {h : MbHdr} {lane a b d : Nat} (hlane : lane < 16 ∨ lane = 0xFF) (hab : a = 2 ∧ b = 3 ∨ a = 3 ∧ b = 2) (hlow : 24 ≤ d)
    (hhigh : d ≤ 43) : Claims.Arms s h (.sourcePriority h lane a b d) (row 0x0802) 4 0 [] (fun _ => True) (fun v => v.setPrio lane a b d) (fun _ => []) := by
  refine arms_plain rfl rfl rfl ((if_neg (by omega)).trans ?_) (fun _ _ => ⟨rfl, rfl⟩) (fun _ _ => rfl)
  rcases hab with ⟨rfl, rfl⟩ | ⟨rfl, rfl⟩
  · exact (if_neg (by decide)).trans ((if_neg (by decide)).trans (if_neg (by omega)))
  · exact (if_neg (by decide)).trans ((if_neg (by decide)).trans (if_neg (by omega)))

/-- SOURCE_SELECT of a source that is qualified (R29). -/
theorem sourceSelect_arms {s : State} {h : MbHdr} {src : Byte} (hsrc : src = 2 ∨ src = 3) :
    Claims.Arms s h (.sourceSelect h src) (row 0x0803) 1 0 [] (fun v => v.time.qualified src.toNat = true)
      (fun v => if v.time.qualStack && v.sourceOk 1 then v else v.clockTo .acquiring src.toNat) (fun _ => []) := by
  refine arms_of rfl rfl rfl (if_pos hsrc) (fun u v hv => ⟨rfl, fail_false ?_⟩) (fun _ _ => rfl)
  rw [hv]
  rfl

/-- SET_GATE of a gate in its range (R19). -/
theorem setGate_arms {s : State} {h : MbHdr} {g tick : Nat} (hlow : 218 ≤ g) (hhigh : g ≤ 248) :
    Claims.Arms s h (.setGate h g tick) (row 0x0804) 16 tick [] (fun _ => True) (fun v => { v with time := { v.time with gate := g } }) (fun _ => []) := by
  refine arms_plain rfl rfl rfl rfl (fun _ _ => ⟨rfl, fail_false ?_⟩) (fun _ _ => rfl)
  rw [decide_eq_false (Nat.not_lt.mpr hlow), decide_eq_false (Nat.not_lt.mpr hhigh)]
  rfl

/-- Settles O32: each command's operands pass its judgement, which its condition completes at the take and at the turn. -/
theorem turnCommandsOnPortsAndDevice : Obligations.TurnCommandsOnPortsAndDevice := by
  unfold Obligations.TurnCommandsOnPortsAndDevice
  refine fun s h => ⟨fun lane mode mf rx tx adj => laneSet_arms, fun g mode ms hg hmode hmask hlen => ?_, fun g seed pr => agHash_arms,
    fun q d c t qu mx sp => tmqCreate_arms, fun q => ?_, fun k i a hbad => ?_, fun t raw => editLoad_arms, fun sc i => portCounters_arms,
    fun lane a b d => sourcePriority_arms, fun src => sourceSelect_arms, fun g tick => setGate_arms, fun g mode ms => stackGroup_arms, fun p e n hp he hn => ?_,
    fun cap hcap => arms_plain rfl rfl rfl (if_pos hcap) (fun _ _ => ⟨rfl, rfl⟩) (fun _ _ => rfl),
    fun p m hp => arms_plain rfl rfl rfl (if_pos hp) (fun _ _ => ⟨rfl, rfl⟩) (fun _ _ => rfl),
    fun ys => arms_plain rfl rfl rfl rfl (fun _ _ => ⟨rfl, rfl⟩) (fun _ _ => rfl)⟩
  · exact arms_of rfl rfl rfl ((if_neg (Nat.not_le.mpr hg)).trans ((if_neg (Nat.not_lt.mpr hmode)).trans (if_neg (by omega)))) (fun _ _ hv => ⟨rfl, hv⟩) (fun _ _ => rfl)
  · exact arms_of rfl rfl rfl rfl (fun _ _ hv => ⟨missing_none hv, rfl⟩) (fun _ _ => rfl)
  · exact arms_plain rfl (tmAttr_need hbad) rfl hbad (fun _ _ => ⟨rfl, rfl⟩) (fun _ _ => rfl)
  · exact arms_plain rfl rfl rfl ((if_neg (Nat.not_le.mpr hp)).trans ((if_neg (Nat.not_le.mpr he)).trans (if_neg (Nat.not_le.mpr hn)))) (fun _ _ => ⟨rfl, rfl⟩) (fun _ _ => rfl)

end Sys2Proof.Machine
end

section
/-!
SUPPORT. COMMIT and BANK_SWITCH at their take and at their turn (R54, R134 to R136): the theorem that settles O33.
-/

namespace Sys2Proof.Machine

open Sys2Proof

set_option Elab.async false

/-- The device as the take of a class T command leaves it. -/
def State.withArmed (u : State) (a : Armed) : State := { u with mbadel := { u.mbadel with armed := u.mbadel.armed ++ [a] } }

/-- A take that arms its command leaves one more armed. -/
theorem armedMore_read (s : State) (h : MbHdr) (r : CmdRow) (ptr : Nat) (a : Armed) : armedMore s ((s.read h r ptr).withArmed a) = true := by
  have hlen : ((s.read h r ptr).withArmed a).mbadel.armed.length = s.mbadel.armed.length + 1 := List.length_append
  rw [armedMore, hlen]
  exact decide_eq_true (Nat.lt_succ_self _)

/-- A batch with changes passes COMMIT's judgement outside a stack (R236). -/
theorem commitJudge_pre {v : State} {b : Nat} (hstack : v.stacked = false) (hchanges : v.changesOf b ≠ []) : (commitJudge b).pre v = none := by
  have hempty : (v.changesOf b).isEmpty = false := by simpa using hchanges
  refine firstOf_cons (fail_false ?_) (firstOf_cons (fail_false ?_) rfl)
  · rw [hstack, Bool.false_and]
  · rw [hempty, Bool.false_and]

/-- The judgement of COMMIT at its take: its batch's commit has not been requested. -/
def takeJudge (s : State) (b : Nat) : Judge :=
  { commitJudge b with pre := fun p => firstOf [failIf (s.batchRequested b) (vPre 2), (commitJudge b).pre p] }

/-- COMMIT at its take (R236). -/
theorem commit_taken {s : State} {h : MbHdr} {b tick ptr len : Nat} (hlow : 1 ≤ b) (hhigh : b ≤ 255) (hfree : s.batchRequested b = false)
    (hstack : s.projected.stacked = false) (hchanges : s.projected.changesOf b ≠ []) (hacts : s.Acts h (rowH 0x0408) ptr len 16) :
    exec (.commit h b tick) s = .next ((((s.read h (rowH 0x0408) ptr).withArmed
      (Claims.armed (s.read h (rowH 0x0408) ptr) h (.commit h b tick) (rowH 0x0408) ptr len tick)).requestBatch b true).tickFree) := by
  have hturn : s.runTurn s.projected h (rowH 0x0408) (takeJudge s b) (.commit h b tick) tick = (s.read h (rowH 0x0408) ptr).withArmed
      (Claims.armed (s.read h (rowH 0x0408) ptr) h (.commit h b tick) (rowH 0x0408) ptr len tick) :=
    turn_run (j := takeJudge s b) hacts (batch_ok hlow hhigh rfl) rfl (holding_nil s)
      (firstOf_cons (fail_false hfree) (firstOf_cons (commitJudge_pre hstack hchanges) rfl))
  have hrow : exec (.commit h b tick) s = .next (if armedMore s (s.runTurn s.projected h (rowH 0x0408) (takeJudge s b) (.commit h b tick) tick) then
      ((s.runTurn s.projected h (rowH 0x0408) (takeJudge s b) (.commit h b tick) tick).requestBatch b true).tickFree
      else s.runTurn s.projected h (rowH 0x0408) (takeJudge s b) (.commit h b tick) tick) := rfl
  rw [hrow, hturn, if_pos (armedMore_read s h _ ptr _)]

/-- When a batch's commit waits for a clean-up (R135, R136). -/
theorem commitWaits_iff (v : State) (b : Nat) :
    v.commitWaits b = true ↔ ∃ c ∈ v.cls.cleaning, 0 < c.blocks ∨ ∃ t ∈ c.tables, t ∈ entryTables (v.changesOf b) := by
  simp only [State.commitWaits, List.any_eq_true, Bool.or_eq_true, decide_eq_true_eq, List.contains_iff_mem]

/-- A COMMIT that waits is left as it is (R13, R135). -/
theorem applyCommit_waits {v : State} {start b : Nat} {a : Armed} (h : v.commitWaits b = true ∨ v.dev.state = 1) : v.applyCommit start b a = v := by
  rw [← decide_eq_true_iff (p := v.dev.state = 1), ← Bool.or_eq_true] at h
  exact if_pos h

/-- A COMMIT that does not wait applies its batch whole (R134). -/
theorem applyCommit_applies {v : State} {start b : Nat} {a : Armed} (hgo : v.commitWaits b = false) (hstate : v.dev.state ≠ 1) :
    v.applyCommit start b a = (v.applyBatch b start).endArmed a vOk [] := by
  rw [State.applyCommit, hgo, decide_eq_false hstate]
  rfl

/-- Engines of a set that exist and are not held pass BANK_SWITCH's judgement (R54). -/
theorem bankJudge_pre {v : State} {v2 : Bool} {set : List Nat} (hex : ∀ n ∈ set, v.peng n ≠ none) (hheld : ∀ pe ∈ v.engset set, (v.eng pe).holdEng = false) :
    (bankJudge v2 set).pre v = none := by
  have hnone : (v.engset set).find? (fun pe => (v.eng pe).holdEng) = none := List.find?_eq_none.mpr (fun pe hpe => ne_true_of_eq_false (hheld pe hpe))
  rw [bankJudge]
  dsimp only
  rw [hnone, absent_none hex]
  rfl

/-- BANK_SWITCH at its take (R54, R236). -/
theorem bankSwitch_taken {s : State} {h : MbHdr} {set : List Nat} {tick ptr len : Nat} (hset : ∀ n ∈ set, n < 1024) (hex : ∀ n ∈ set, s.projected.peng n ≠ none)
    (hheld : ∀ pe ∈ s.projected.engset set, (s.projected.eng pe).holdEng = false) (hacts : s.Acts h (row 0x040E) ptr len 136) :
    exec (.bankSwitch h set tick) s = .next (((s.read h (row 0x040E) ptr).withArmed
      (Claims.armed (s.read h (row 0x040E) ptr) h (.bankSwitch h set tick) (row 0x040E) ptr len tick)).pendBanks set true) := by
  have hv2 : h.v2 = false := by
    obtain ⟨⟨-, -, -, -, -, -, -, -, hrow, -⟩, -⟩ := hacts
    exact hrow.resolve_right Bool.false_ne_true
  have hturn : s.takeT h (row 0x040E) (.bankSwitch h set tick) tick = (s.read h (row 0x040E) ptr).withArmed
      (Claims.armed (s.read h (row 0x040E) ptr) h (.bankSwitch h set tick) (row 0x040E) ptr len tick) :=
    turn_run (j := bankJudge h.v2 set) hacts (engset_ok hv2 hset) rfl (holding_nil s) (bankJudge_pre hex hheld)
  have hrow : exec (.bankSwitch h set tick) s = .next (if armedMore s (s.takeT h (row 0x040E) (.bankSwitch h set tick) tick) then
      (s.takeT h (row 0x040E) (.bankSwitch h set tick) tick).pendBanks set true else s.takeT h (row 0x040E) (.bankSwitch h set tick) tick) := rfl
  rw [hrow, hturn, if_pos (armedMore_read s h _ ptr _)]

/-- Settles O33: the take of each by its judgement, its turn by whether it waits. -/
theorem commitsAndBankSwitchesWaitForTheirTurn : Obligations.CommitsAndBankSwitchesWaitForTheirTurn := by
  unfold Obligations.CommitsAndBankSwitchesWaitForTheirTurn
  refine fun s h => ⟨fun b tick ptr len hlow hhigh hfree _ hstack hchanges hacts => commit_taken hlow hhigh hfree hstack hchanges hacts,
    fun v start b a => ⟨commitWaits_iff v b, applyCommit_waits, fun hgo hstate => ⟨applyCommit_applies hgo hstate, rfl, rfl, rfl, fun x hx => ?_⟩⟩,
    fun set tick hset => ⟨fun ptr len hex hheld hacts => bankSwitch_taken hset hex hheld hacts, fun v start a hc hex hheld => ?_⟩⟩
  · exact of_decide_eq_true (List.mem_filter.mp hx).2
  · have hpre : (v.judgeT (.bankSwitch h set tick)).pre v = none := bankJudge_pre (v2 := h.v2) hex hheld
    have heff : applyT start (.bankSwitch h set tick) v = (v.switchBanks set, []) := rfl
    rw [armed_apply hc rfl hpre, heff]

end Sys2Proof.Machine
end

section
/-!
SUPPORT. Long commands, their bound, the monitor's unlock and the recovery load (R230, R242, R247, R433): the theorem that settles O34.
-/

namespace Sys2Proof.Machine

open Sys2Proof

set_option Elab.async false

/-! ### Starting -/

/-- ROTATE_NOW of an active yard and a resting one (R242, R390). -/
theorem rotateNow_starts {s : State} {h : MbHdr} {out inn wait : Nat} (hout : out < 34 ∨ out = 0xFF) (hinn : inn < 34 ∨ inn = 0xFF)
    (hactive : s.logicalYard (s.rotatePair out inn).1 ≠ none) (hrest : (s.rotatePair out inn).2 ∈ s.resting) (hwarn : s.power.warn = false) :
    Claims.Starts s h (.rotateNow h out inn wait) (rowF 0x0903) 8 [obj .yard (s.rotatePair out inn).1, obj .yard (s.rotatePair out inn).2]
      (fun u => u.startRotate (s.rotatePair out inn).1 (s.rotatePair out inn).2 true) := by
  have hpre : ∀ u : State, (s.rotatePair out inn).2 ∈ u.resting → u.power.warn = false → (s.rotateJudge out inn).pre u = none := fun u hu hw => by
    refine firstOf_cons (fail_false ?_) (firstOf_cons (fail_false hw) rfl)
    exact congrArg Bool.not (List.contains_iff_mem.mpr hu)
  exact starts_of (j := s.rotateJudge out inn) rfl ((if_neg (by omega)).trans (if_neg (by omega))) (missing_none hactive) (hpre s hrest hwarn) (fun _ => rfl)
    (fun ptr => (hpre (s.read h (rowF 0x0903) ptr) hrest hwarn).trans (hpre s hrest hwarn).symm)

/-- The judgement of FARRIER_RELOAD. -/
def reloadJudge (k : Nat) : Judge :=
  { need := 1, bad := if k < 2 then none else some 0, objs := [obj .farrier k], missing := fun _ => none,
    pre := fun s => failIf (decide (s.repair.farrierActive ≠ other k) || !s.repair.farrierUp.getD (other k) false) (vPre 1) }

/-- FARRIER_RELOAD of the Farrier that is not active, while the active one is up (R242, R408). -/
theorem farrierReload_starts {s : State} {h : MbHdr} {k : Nat} (hk : k < 2) (hactive : s.repair.farrierActive = 1 - k)
    (hup : s.repair.farrierUp.getD (1 - k) false = true) :
    Claims.Starts s h (.farrierReload h k) (rowF 0x0906) 1 [obj .farrier k] (fun u =>
      let x := u.reloadFarrier k true
      if x.1 then (match x.2.runningOn 0x0906 (obj .farrier k) with | some r => x.2.endLong r vOk [] 0 | none => x.2) else x.2) := by
  refine starts_of (j := reloadJudge k) rfl (if_pos hk) rfl (fail_false ?_) (fun _ => rfl) (fun _ => rfl)
  rw [other, decide_eq_false (not_not.mpr hactive), hup]
  rfl

/-! ### The bound -/

/-- A list that has an element of a kind, with none before it, has it as its first. -/
theorem find_first {α : Type} {p : α → Bool} {a b : List α} {x : α} (ha : ∀ y ∈ a, p y = false) (hx : p x = true) : (a ++ x :: b).find? p = some x := by
  rw [List.find?_append, List.find?_eq_none.mpr (fun y hy => ne_true_of_eq_false (ha y hy)), List.find?_cons_of_pos hx]
  rfl

/-- A running command of another mailbox, or within its bound, is not one that COMMAND_TIMEOUT ends. -/
theorem notOverdue {s : State} {hm : Nat} {r : Running} (h : r.hm = hm → s.cmdTick < r.start + s.msTicks (boundMs r)) :
    (decide (r.hm = hm) && s.overdue r) = false := by
  rcases Decidable.em (r.hm = hm) with heq | hne
  · rw [State.overdue, decide_eq_false (Nat.not_le.mpr (h heq)), Bool.and_false]
  · rw [decide_eq_false hne, Bool.false_and]

/-- What a command leaves at its bound (R230). -/
theorem timeOut_boundEnds (s : State) (r : Running) : Claims.BoundEnds s r (s.timeOut r) := by
  refine ⟨?_, ?_, ?_, ?_, ?_, ?_, ?_, ?_, ?_, ?_⟩ <;> intros <;> rw [State.timeOut, ‹r.cmd = _›] <;> rfl

/-! ### The unlock -/

/-- UNLOCK_EXPIRY of an unlock in force whose time has come (R247). -/
theorem unlockExpiry_eq (s : State) : exec .unlockExpiry s =
    .next (if s.monitor.unlockYards ≠ 0 ∧ s.monitor.unlockUntil ≤ s.time.sec then { s with monitor := { s.monitor with expiring := true } } else s) := rfl

/-- An unlock whose end has been announced ends at the turn, unless it has been prolonged (R247). -/
theorem turnUnlock_expiring {s : State} (h : s.monitor.expiring = true) :
    s.turnUnlock = if s.monitor.unlockUntil ≤ s.time.sec then State.relock { s with monitor := { s.monitor with expiring := false } } s.monitor.unlockYards
      else { s with monitor := { s.monitor with expiring := false } } := if_pos h

/-! ### The recovery load -/

/-- The device as the firmware has taken HM0's block (R433). -/
def State.loadTaken (s : State) : State :=
  { s with mbadel := { s.mbadel with taken := FMap.set none s.mbadel.taken 0 none, order := s.mbadel.order.filter (· ≠ 0) } }

/-- RECOVERY_LOAD of a block that HM0 brought in the window (R433). -/
theorem recoveryLoad_eq {s : State} {h : MbHdr} {addr : DWord} {len ptr blen : Nat} {image : List Byte} (htaken : FMap.get none s.mbadel.taken 0 = some (ptr, blen))
    (hhm : h.hm.val = 0) (hwindow : s.boot.window = true) : exec (.recoveryLoad h addr len image) s = .next (
      if s.monitor.load.isSome then s.loadTaken.endCmd 0 ptr blen false (vPlain 0x0F)
      else if h.readStatus ≠ 0 ∨ ptr % 64 ≠ 0 ∨ h.length ≠ blen ∨ blen < 76 ∨ addr.toNat % 4096 ≠ 0 ∨ len < 8192 ∨ 50331648 < len then
        s.loadTaken.endCmd 0 ptr blen false (vPlain 0x0A)
      else if h.checkOnly then s.loadTaken.endCmd 0 ptr blen false (vPlain (s.loadTaken.loadStatus (padTo len image)))
      else if s.loadTaken.loadStatus (padTo len image) = 0 then
        ((s.loadTaken.stageImage (padTo len image)).endCmd 0 ptr blen false (vPlain (s.loadTaken.loadStatus (padTo len image)))).runLoaded (padTo len image)
      else (s.loadTaken.stageImage (padTo len image)).endCmd 0 ptr blen false (vPlain (s.loadTaken.loadStatus (padTo len image)))) := by
  have hgo : ¬ (h.hm.val ≠ 0 ∨ s.boot.window = false) := by
    rw [hwindow]
    exact fun hyes => hyes.elim (fun hne => hne hhm) (fun hfalse => Bool.false_ne_true hfalse.symm)
  show (Host.Outcome.next _ : Answer) = _
  rw [htaken]
  dsimp only
  rw [if_neg hgo]
  rfl

/-- A load while another one runs is refused, a malformed one is a bad descriptor. -/
theorem recoveryLoad_refused {s : State} {h : MbHdr} {addr : DWord} {len ptr blen : Nat} {image : List Byte}
    (htaken : FMap.get none s.mbadel.taken 0 = some (ptr, blen)) (hhm : h.hm.val = 0) (hwindow : s.boot.window = true) :
    (s.monitor.load ≠ none → exec (.recoveryLoad h addr len image) s = .next (s.loadTaken.endCmd 0 ptr blen false (vPlain 0x0F))) ∧
    (s.monitor.load = none → (h.readStatus ≠ 0 ∨ ptr % 64 ≠ 0 ∨ h.length ≠ blen ∨ blen < 76 ∨ addr.toNat % 4096 ≠ 0 ∨ len < 8192 ∨ 50331648 < len) →
      exec (.recoveryLoad h addr len image) s = .next (s.loadTaken.endCmd 0 ptr blen false (vPlain 0x0A))) := by
  refine ⟨fun hload => ?_, fun hload hbad => ?_⟩
  · rw [recoveryLoad_eq htaken hhm hwindow, if_pos (Option.isSome_iff_ne_none.mpr hload)]
  · rw [recoveryLoad_eq htaken hhm hwindow, if_neg (by rw [hload]; exact Bool.false_ne_true), if_pos hbad]

/-- A well-formed load is checked, and staged when it is not only to be checked. -/
theorem recoveryLoad_staged {s : State} {h : MbHdr} {addr : DWord} {len ptr blen : Nat} {image : List Byte}
    (htaken : FMap.get none s.mbadel.taken 0 = some (ptr, blen)) (hhm : h.hm.val = 0) (hwindow : s.boot.window = true) (hload : s.monitor.load = none)
    (hgood : ¬ (h.readStatus ≠ 0 ∨ ptr % 64 ≠ 0 ∨ h.length ≠ blen ∨ blen < 76 ∨ addr.toNat % 4096 ≠ 0 ∨ len < 8192 ∨ 50331648 < len)) :
    let v := s.loadTaken
    let st := v.loadStatus (padTo len image)
    let t := (v.stageImage (padTo len image)).endCmd 0 ptr blen false (vPlain st)
    exec (.recoveryLoad h addr len image) s = .next (if h.checkOnly = true then v.endCmd 0 ptr blen false (vPlain st) else if st = 0 then t.runLoaded (padTo len image) else t) := by
  intro v st t
  rw [recoveryLoad_eq htaken hhm hwindow, if_neg (by rw [hload]; exact Bool.false_ne_true), if_neg hgood]

/-- Settles O34: the commands' judgements hold under their hypotheses; the others by the cases of their rows. -/
theorem longCommandsStartAndTimeOut : Obligations.LongCommandsStartAndTimeOut := by
  unfold Obligations.LongCommandsStartAndTimeOut
  refine fun s h => ⟨fun out inn wait => rotateNow_starts, fun k => farrierReload_starts, fun hm => ⟨fun hall => ?_, fun r a b hsplit hbefore hhm hbound => ?_⟩,
    ⟨fun hset hdue => ?_, fun hno => ?_, fun hno => ?_, fun hyes => ⟨fun hdue => ?_, fun hearly => ?_⟩⟩,
    fun addr len image ptr blen htaken hhm hwindow => ⟨(recoveryLoad_refused htaken hhm hwindow).1, (recoveryLoad_refused htaken hhm hwindow).2,
      fun hload hread hptr hlen hroom haddr hlow hhigh => recoveryLoad_staged htaken hhm hwindow hload (fun hbad => hbad.elim (fun hne => hne hread) (by omega))⟩⟩
  · show (Host.Outcome.next _ : Answer) = _
    rw [List.find?_eq_none.mpr (fun r hr => ne_true_of_eq_false (notOverdue (hall r hr)))]
  · refine ⟨s.timeOut r, ?_, timeOut_boundEnds s r⟩
    show (Host.Outcome.next _ : Answer) = _
    rw [hsplit, find_first (fun x hx => notOverdue (hbefore x hx))]
    rw [State.overdue, decide_eq_true hhm, Bool.true_and]
    exact decide_eq_true hbound
  · rw [unlockExpiry_eq, if_pos ⟨hset, hdue⟩]
  · refine (unlockExpiry_eq s).trans (congrArg Host.Outcome.next (if_neg (fun hyes => ?_)))
    exact hno.elim hyes.1 (Nat.not_lt.mpr hyes.2)
  · exact if_neg (ne_true_of_eq_false hno)
  · exact (turnUnlock_expiring hyes).trans (if_pos hdue)
  · exact (turnUnlock_expiring hyes).trans (if_neg (Nat.not_le.mpr hearly))

end Sys2Proof.Machine
end

section
/-!
SUPPORT. Wear, patrols, rotations and the journal (R366, R387 to R396, R413 to R417): the theorem that settles O35.
-/

namespace Sys2Proof.Machine

open Sys2Proof

set_option Elab.async false

/-! ### Patrols and corrected bursts -/

/-- A device with a Farrier manages its repairs (R409). -/
theorem managed_of {s : State} (h : s.dev.unmanaged = false) : s.managed = true := by
  rw [State.managed, h]
  rfl

/-- One without does not. -/
theorem managed_not {s : State} (h : s.dev.unmanaged = true) : s.managed = false := by
  rw [State.managed, h]
  rfl

/-- When a row is tested (R387, R388). -/
theorem patrol_iff (s : State) (r : PatrolRow) :
    (s.managed && rowExists r && s.rowInService r && (s.repair.patrolOn || s.repair.reported.any (inRow r))) = true ↔
      s.dev.unmanaged = false ∧ rowExists r = true ∧ s.rowInService r = true ∧ (s.repair.patrolOn = true ∨ ∃ a ∈ s.repair.reported, inRow r a = true) := by
  simp only [State.managed, Bool.and_eq_true, Bool.or_eq_true, Bool.not_eq_true', List.any_eq_true, and_assoc]

/-- PATROL_TEST (R387, R388, R411). -/
theorem patrolTest_eq (s : State) (r : PatrolRow) (weak endsPass : Bool) : exec (.patrolTest r weak endsPass) s =
    .next (if (s.managed && rowExists r && s.rowInService r && (s.repair.patrolOn || s.repair.reported.any (inRow r))) = true then
      let u : State := { s with repair := { s.repair with reported := s.repair.reported.filter (fun a => !inRow r a) } }
      let v := if weak = true then u.weak r else u
      if endsPass = true ∧ s.repair.patrolOn = true then v.logRepair 5 0 0 0 else v
    else s) :=
  congrArg Host.Outcome.next (if_congr Iff.rfl (if_congr (Bool.and_eq_true endsPass s.repair.patrolOn).to_iff rfl rfl) rfl)

/-- CORRECTED_BURST (R366, R388). -/
theorem correctedBurst_eq (s : State) (mac n : Nat) (r : PatrolRow) (weak : Bool) : exec (.correctedBurst mac n r weak) s =
    .next (if n < 16 then { s with repair := { s.repair with corrected := bump s.repair.corrected mac n } }
      else if (s.managed && rowExists r && weak) = true then
        (State.log { s with repair := { s.repair with corrected := bump s.repair.corrected mac n } } 0x0803 mac n).weak r
      else State.log { s with repair := { s.repair with corrected := bump s.repair.corrected mac n } } 0x0803 mac n) := rfl

/-- STRESS_UPDATE of one yard (R389). -/
theorem stressUpdate_eq (s : State) (w : YardWear) : exec (.stressUpdate [w]) s =
    .next (if (s.managed && decide (s.yardUse w.yard.val = .active)) = true then
      { s with repair := { s.repair with stress := bump s.repair.stress w.yard.val (Config.stressGrowth w.tjMilliK w.used w.avail) } } else s) := rfl

/-! ### Rotations -/

/-- REST_ROTATION_DUE with a pair to change places (R390). -/
theorem restRotation_pair {s : State} {a r : Nat} (hman : s.dev.unmanaged = false) (hon : s.repair.rotationOn = true) (hwarn : s.power.warn = false)
    (ha : s.highestActive = some a) (hr : s.lowestRest = some r) : exec .restRotationDue s =
      .next (if (decide (s.stress r < s.stress a) && !s.leaving a) = true then s.startRotate a r false else s) := by
  have hgo : (s.managed && s.repair.rotationOn && !s.power.warn) = true := by
    rw [managed_of hman, hon, hwarn]
    rfl
  show (Host.Outcome.next (if (s.managed && s.repair.rotationOn && !s.power.warn) = true then _ else s) : Answer) = _
  rw [if_pos hgo, ha, hr]

/-- REST_ROTATION_DUE of a device that does not rotate (R390, R453). -/
theorem restRotation_none {s : State} (h : s.dev.unmanaged = true ∨ s.repair.rotationOn = false ∨ s.power.warn = true ∨ s.highestActive = none ∨ s.lowestRest = none) :
    exec .restRotationDue s = .next s := by
  show (Host.Outcome.next (if (s.managed && s.repair.rotationOn && !s.power.warn) = true then _ else s) : Answer) = _
  rcases Bool.eq_false_or_eq_true (s.managed && s.repair.rotationOn && !s.power.warn) with hgo | hstop
  · rw [if_pos hgo]
    rw [Bool.and_eq_true, Bool.and_eq_true] at hgo
    obtain ⟨⟨hman, hon⟩, hwarn⟩ := hgo
    rcases h with hun | hoff | hw | ha | hr
    · rw [managed_not hun] at hman
      exact absurd hman Bool.false_ne_true
    · rw [hoff] at hon
      exact absurd hon Bool.false_ne_true
    · rw [hw] at hwarn
      exact absurd hwarn Bool.false_ne_true
    · rw [ha]
    · rw [hr]
      cases s.highestActive <;> rfl
  · rw [if_neg (ne_true_of_eq_false hstop)]

/-- A rotation starts at once when no swap runs (R390). -/
theorem startRotate_now {s : State} {a r l : Nat} {asked : Bool} (hswap : s.repair.swap = none) (hl : s.logicalYard a = some l) :
    s.startRotate a r asked = s.startSwap a r l asked := by
  have hnone : s.repair.swap.isNone = true := Option.isNone_iff_eq_none.mpr hswap
  rw [State.startRotate, if_pos hnone, State.rotate, hl]

/-- Behind a swap that runs it waits (R390). -/
theorem startRotate_behind {s : State} {a r l : Nat} {asked : Bool} (hswap : s.repair.swap ≠ none) (hl : s.logicalYard a = some l) :
    s.startRotate a r asked = { s with repair := { s.repair with forcedWait := s.repair.forcedWait ++
      [{ out := a, inn := r, logical := l, stage := .waiting, forced := false, asked := asked, due := 0, saved := [], settled := false }] } } := by
  have hsome : ¬ s.repair.swap.isNone = true := fun hnone => hswap (Option.isNone_iff_eq_none.mp hnone)
  rw [State.startRotate, if_neg hsome, hl]
  rfl

/-! ### A swap's test, its mirror and failing yards -/

/-- YARD_TEST_COMPLETE of the yard that is tested (R391, R392, R396). -/
theorem yardTest_eq {s : State} {y : Fin 34} {w : Swap} {pass : Bool} (hw : s.repair.swap = some w) (hy : w.inn = y.val) (hst : w.stage = .testing)
    (hman : s.dev.unmanaged = false) : exec (.yardTestComplete y pass) s =
      .next (if pass = true then { s with repair := { s.repair with swap := some { w with stage := if w.forced then .mirrored else .mirroring, due := s.turnFrom } } }
        else match (generalizing := false) (s.dropSwap.retireRest w.inn).lowestRest with
          | some z => { s.dropSwap.retireRest w.inn with repair := { (s.dropSwap.retireRest w.inn).repair with swap := some { w with inn := z } } }
          | none => if w.forced then
              ((((s.dropSwap.retireRest w.inn).retireUnit 0).addEntry 2 { type := 3, unit := w.logical, source := w.out, target := 0xFFFF }).dropRecover (.yard w.out)).nextSwap
            else ((s.dropSwap.retireRest w.inn).endRotate w (vPlain 0x10) []).nextSwap) := by
  have hgo : ¬ (w.inn ≠ y.val ∨ w.stage ≠ .testing ∨ s.managed = false) := by
    rintro (hne | hne | hnot)
    · exact hne hy
    · exact hne hst
    · exact absurd ((managed_of hman).symm.trans hnot) Bool.false_ne_true.symm
  show (Host.Outcome.next _ : Answer) = _
  rw [hw]
  dsimp only
  rw [if_neg hgo] <;> rfl

/-- MIRROR_COMPLETE of a yard of the swap (R392, R393). -/
theorem mirror_eq {s : State} {y : Fin 34} {w : Swap} (hw : s.repair.swap = some w) : exec (.mirrorComplete y) s =
    .next (if w.inn = y.val ∧ w.stage = .mirroring then { s with repair := { s.repair with swap := some { w with stage := .mirrored, due := s.turnFrom } } } else s) := by
  show (Host.Outcome.next _ : Answer) = _
  rw [hw]

/-- YARD_FAULT_DETECTED of a failing yard that no swap concerns (R394, R396). -/
theorem yardFault_waits {s : State} {y : Fin 34} {k : YardFault} {l : Nat} (hl : s.logicalYard y.val = some l) (hfail : s.failing y.val k = true)
    (hwait : ∀ x ∈ s.repair.forcedWait, x.out ≠ y.val) (hswap : ∀ x, s.repair.swap = some x → x.out ≠ y.val) :
    exec (.yardFaultDetected y k) s = .next (State.addRecover { s with repair := { s.repair with forcedWait := s.repair.forcedWait ++
      [{ out := y.val, inn := 0, logical := l, stage := .waiting, forced := true, asked := false, due := 0, saved := [], settled := false }] } } (.yard y.val)) := by
  have hgo : ¬ (!s.failing y.val k || s.repair.forcedWait.any (fun w => decide (w.out = y.val) && w.forced)) = true := by
    rw [hfail, List.any_eq_false.mpr (fun x hx => by rw [decide_eq_false (hwait x hx)]; exact Bool.false_ne_true)]
    exact Bool.false_ne_true
  have hkept : s.repair.forcedWait.filter (fun (x : Swap) => decide (x.out ≠ y.val)) = s.repair.forcedWait :=
    List.filter_eq_self.mpr (fun x hx => decide_eq_true (hwait x hx))
  show (Host.Outcome.next _ : Answer) = _
  dsimp only
  rw [hl]
  dsimp only
  rw [if_neg hgo]
  split
  · next w hsw => rw [if_neg (hswap w hsw), hkept]
  · rw [hkept]

/-! ### The journal -/

/-- JOURNAL_APPEND while the SP may program the bank (R416). -/
theorem journalAppend_eq {s : State} {torn : Bool} {k v : Nat} {rest : List (Nat × Nat)} (ha : s.repair.appends = (k, v) :: rest) (hwarn : s.power.warn = false)
    (hmp : s.boot.mpRunning = true) (hroom : s.nv.bankUsed < 16384) : exec (.journalAppend torn) s =
      .next (if torn = true then { s with repair := { s.repair with appends := rest }, nv := { s.nv with bankUsed := s.nv.bankUsed + 1 } }
        else State.jAppend { s with repair := { s.repair with appends := rest } } k v) := by
  have hgo : ¬ (s.power.warn || !s.boot.mpRunning || decide (16384 ≤ s.nv.bankUsed)) = true := by
    rw [hwarn, hmp, decide_eq_false (Nat.not_le.mpr hroom)]
    exact Bool.false_ne_true
  show (Host.Outcome.next _ : Answer) = _
  rw [ha]
  dsimp only
  rw [if_neg hgo]

/-- JOURNAL_APPEND with nothing to append, or under a warning (R417, R453). -/
theorem journalAppend_none {s : State} (h : s.repair.appends = [] ∨ s.power.warn = true) (torn : Bool) : exec (.journalAppend torn) s = .next s := by
  show (Host.Outcome.next _ : Answer) = _
  cases ha : s.repair.appends with
  | nil => rfl
  | cons p rest =>
    have hwarn := h.resolve_left (by rw [ha]; exact List.cons_ne_nil p rest)
    dsimp only
    rw [hwarn, Bool.true_or, Bool.true_or, if_pos rfl]

/-- JOURNAL_COMPACTION of a bank three quarters full (R417). -/
theorem journalCompaction_eq {s : State} {torn : Bool} (hused : 12288 ≤ s.nv.bankUsed) (hwarn : s.power.warn = false) (hgood : s.power.pwrGood = true) :
    exec (.journalCompaction torn) s = .next (if torn = true then s else { s with nv := { s.nv with
      journal := inForce s.nv.journal s.nv.journal, jseq := s.nv.jseq + 1, bankGen := s.nv.bankGen + 1, bankUsed := (inForce s.nv.journal s.nv.journal).length + 1 } }) := by
  refine congrArg Host.Outcome.next (if_congr ?_ rfl rfl)
  rw [hwarn, hgood]
  simp [Nat.not_lt.mpr hused]

/-- Settles O35: each row by its equation and the case that its hypotheses name. -/
theorem wearAndRotationAct : Obligations.WearAndRotationAct := by
  unfold Obligations.WearAndRotationAct
  refine fun s => ⟨fun r weak endsPass => ⟨fun hman hex hserv hwhy => ?_, fun hno => ?_, fun mac n => ⟨fun hlow => ?_, fun hmany hweak => ?_, fun hmany hweak hman hex => ?_⟩⟩,
    fun w => ⟨fun hman hact => ?_, fun hrest => ?_⟩, rfl, rfl,
    fun a r l hman hon hwarn ha hr => ⟨fun hmore hstay hl => ⟨fun hswap => ?_, fun hswap => ?_⟩, fun hno => ?_⟩, restRotation_none,
    fun y w hw hy => ⟨fun hst hman => ?_, fun hst hman z hz => ?_, fun hst => ?_, fun hst => ?_⟩, fun y k l => yardFault_waits,
    fun k v rest ha hwarn hmp hroom => ⟨journalAppend_eq ha hwarn hmp hroom, journalAppend_eq ha hwarn hmp hroom⟩, journalAppend_none,
    fun hused hwarn hgood => ⟨journalCompaction_eq hused hwarn hgood, journalCompaction_eq hused hwarn hgood⟩, fun hgood => congrArg Host.Outcome.next (if_pos hgood)⟩
  · rw [patrolTest_eq, if_pos ((patrol_iff s r).mpr ⟨hman, hex, hserv, hwhy⟩)]
  · rw [patrolTest_eq, if_neg (fun hyes => ?_)]
    obtain ⟨hman, hex, hserv, hwhy⟩ := (patrol_iff s r).mp hyes
    rcases hno with hun | hnex | hout | ⟨hoff, hnone⟩
    · exact absurd (hun.symm.trans hman) Bool.false_ne_true.symm
    · exact absurd (hnex.symm.trans hex) Bool.false_ne_true
    · exact absurd (hout.symm.trans hserv) Bool.false_ne_true
    · obtain ⟨x, hx, hin⟩ := hwhy.resolve_left (ne_true_of_eq_false hoff)
      exact absurd ((hnone x hx).symm.trans hin) Bool.false_ne_true
  · rw [correctedBurst_eq, if_pos hlow]
  · rw [correctedBurst_eq, if_neg (Nat.not_lt.mpr hmany), hweak, Bool.and_false, if_neg Bool.false_ne_true]
  · rw [correctedBurst_eq, if_neg (Nat.not_lt.mpr hmany), managed_of hman, hex, hweak]
    rfl
  · rw [stressUpdate_eq, managed_of hman, decide_eq_true hact]
    rfl
  · rw [stressUpdate_eq, decide_eq_false hrest, Bool.and_false, if_neg Bool.false_ne_true]
  · rw [restRotation_pair hman hon hwarn ha hr, decide_eq_true hmore, hstay, ← startRotate_now hswap hl]
    rfl
  · rw [restRotation_pair hman hon hwarn ha hr, decide_eq_true hmore, hstay, ← startRotate_behind hswap hl]
    rfl
  · rw [restRotation_pair hman hon hwarn ha hr, if_neg (fun hyes => ?_)]
    rw [Bool.and_eq_true, decide_eq_true_eq, Bool.not_eq_true'] at hyes
    exact hno.elim (fun hle => Nat.not_le.mpr hyes.1 hle) (fun hleave => absurd (hyes.2.symm.trans hleave) Bool.false_ne_true)
  · exact yardTest_eq hw hy hst hman
  · rw [yardTest_eq hw hy hst hman, if_neg Bool.false_ne_true, hz]
  · rw [mirror_eq hw, if_pos ⟨hy, hst⟩]
  · rw [mirror_eq hw, if_neg (fun hyes => hst hyes.2)]

end Sys2Proof.Machine
end

section
/-!
SUPPORT. Spares that take over from failing lanes, channels, processors and Farriers (R93, R156, R397 to R409): the theorem that settles O36.
-/

namespace Sys2Proof.Machine

open Sys2Proof

set_option Elab.async false

/-- LASER_BIAS_CHECK records the bias and the temperature, and plans a replacement above 1.5 times the bias at build (R397). -/
theorem laserBias_eq (s : State) (lane : Fin 20) (bias temp : Nat) :
    let n := laneGroup lane.val * 5 + s.laneUnit 1 lane.val
    let u : State := { s with repair := { s.repair with bias := FMap.set 0 s.repair.bias n bias, laserTemp := FMap.set 0 s.repair.laserTemp (laneGroup lane.val) temp } }
    exec (.laserBiasCheck lane bias temp) s = .next (if 3 * Config.laserBiasAtBuild n < 2 * bias then u.planLane 1 lane.val else u) := rfl

/-- A lane that has not failed fails outright: it is replaced while repairs are managed (R397, R409). -/
theorem loseLane_alive {s : State} {kind lane : Nat} (h : s.laneFailed lane = false) :
    s.loseLane kind lane = if s.dev.unmanaged then s.failLane kind lane else s.replaceLane kind lane := by
  rw [State.loseLane, if_neg (ne_true_of_eq_false h), State.managed, Bool.not_not]

/-- ELECTRICAL_LANE_REPLACEMENT (R398). -/
theorem electricalLane_eq (s : State) (lane : Fin 20) :
    exec (.electricalLaneReplacement lane) s = .next (if s.managed then s.planLane 2 lane.val else s.loseLane 2 lane.val) := rfl

/-- DRAM_CHANNEL_RETIREMENT (R401). -/
theorem channelRetirement_eq (s : State) (c : Fin 4) : exec (.dramChannelRetirement c) s = .next (if s.managed then
    (if (s.repair.channels.getD c.val false && s.repair.moving.isNone) = true then
      State.addRecover { s with repair := { s.repair with moving := some c.val, moveDone := false } } .channel else s) else s) := rfl

/-- MP_HEARTBEAT_LOSS (R403). -/
theorem mpHeartbeat_eq (s : State) : exec .mpHeartbeatLoss s = .next (if (s.boot.mpRunning && s.managed && s.repair.mpFail.isNone) = true then
    State.addRecover { s with repair := { s.repair with mps := modifyAt s.repair.mps s.repair.mpActive (fun _ => false), mpFail := some s.repair.mpActive } } .mp
    else s) := rfl

/-- FREE_LIST_REBUILD_COMPLETE of a pool that there is (R156). -/
theorem rebuild_eq {s : State} {p : Fin 7} {q : Pool} (hq : s.pool? (p.val + 1) = some q) :
    exec (.freeListRebuildComplete p) s = .next (if q.rebuilding then s.rebuildPool (p.val + 1) else s) := by
  show (Host.Outcome.next _ : Answer) = _
  rw [hq]

/-- MP_RELOAD_COMPLETE without a reload (R405). -/
theorem mpReload_none {s : State} (h : s.repair.mpReloading = none) (ok : Bool) : exec (.mpReloadComplete ok) s = .next s := by
  show (Host.Outcome.next _ : Answer) = _
  rw [h]

/-- A reloaded MP becomes the standby while the other one runs (R405). -/
theorem mpReload_standby {s : State} {m : Nat} (h : s.repair.mpReloading = some m) (hrun : (s.epochBump (srcMp m)).boot.mpRunning = true) :
    let u := s.epochBump (srcMp m)
    exec (.mpReloadComplete true) s = .next { u with
      repair := { u.repair with mps := modifyAt u.repair.mps m (fun _ => true), mpReloading := none, mpReloads := 0 }
      boot := { u.boot with standby := u.selectSlot.map (fun x => (x, hdrSeq (u.slotHdr x), fieldLe (u.slotHdr x) 12 4)) } } := by
  intro u
  show (Host.Outcome.next _ : Answer) = _
  rw [h]
  dsimp only
  rw [if_pos rfl, if_pos hrun]

/-- A reload that fails is tried again, three times in all (R405). -/
theorem mpReload_again {s : State} {m : Nat} (h : s.repair.mpReloading = some m) (hmore : (s.epochBump (srcMp m)).repair.mpReloads + 1 < 3) :
    let u := s.epochBump (srcMp m)
    exec (.mpReloadComplete false) s = .next { u with repair := { u.repair with mpReloads := u.repair.mpReloads + 1 } } := by
  intro u
  show (Host.Outcome.next _ : Answer) = _
  rw [h]
  dsimp only
  rw [if_neg Bool.false_ne_true, if_pos hmore]

/-- The swap after a takeover: a mirror that was complete starts again (R407). -/
def restartMirror (w : Swap) : Swap := if !w.forced && decide (w.stage = .mirrored) then { w with stage := .mirroring } else w

/-- FARRIER_TAKEOVER (R407, R408). -/
theorem farrierTakeover_eq (s : State) (missed : Nat) :
    let a := s.repair.farrierActive
    exec (.farrierTakeover missed) s = .next (if missed < 4 ∨ s.repair.farrierUp.getD (1 - a) false = false ∨ s.managed = false then s
      else (((State.log { s with repair := { s.repair with farrierActive := 1 - a, swap := s.repair.swap.map restartMirror } } 0x0B01 (1 - a) missed).logRepair 6 0 0 0).reloadFarrier a false).2) := rfl

/-- REPAIR_UNMANAGED of a managed device (R409). -/
theorem repairUnmanaged_eq {s : State} (h : s.dev.unmanaged = false) : exec .repairUnmanaged s = .next (State.log { s.dropSwaps with
    dev := { s.dropSwaps.dev with unmanaged := true }
    repair := { s.dropSwaps.repair with farrierUp := [false, false], farriers := [false, false] } } 0x0B02 0 0) :=
  congrArg Host.Outcome.next (if_neg (ne_true_of_eq_false h))

/-- Settles O36: each row by its equation and the case that its hypotheses name. -/
theorem sparesServe : Obligations.SparesServe := by
  unfold Obligations.SparesServe
  refine fun s => ⟨fun lane bias temp => ⟨fun hhigh => ?_, fun hlow => ?_, fun hfailed => congrArg Host.Outcome.next (if_pos hfailed),
      fun halive => congrArg Host.Outcome.next (loseLane_alive halive), fun hman => ?_, fun hun => ?_⟩,
    fun c => ⟨fun hman hin hmoving => ?_, fun hno => ?_⟩, fun hmoving => congrArg Host.Outcome.next (if_pos (Option.isSome_iff_ne_none.mpr hmoving)), fun hnone => ?_,
    fun p q hq => ⟨fun hyes => ?_, fun hno => ?_⟩, fun hrun hman hfail => ?_, fun hno => ?_, mpReload_none,
    fun m hm => ⟨mpReload_standby hm, mpReload_again hm⟩, fun missed => ⟨fun hno => ?_, fun hmissed hup hman => ?_⟩,
    fun hun => congrArg Host.Outcome.next (if_pos hun), fun hman => ⟨_, repairUnmanaged_eq hman, rfl, rfl, rfl⟩⟩
  · exact (laserBias_eq s lane bias temp).trans (congrArg Host.Outcome.next (if_pos hhigh))
  · exact (laserBias_eq s lane bias temp).trans (congrArg Host.Outcome.next (if_neg (Nat.not_lt.mpr hlow)))
  · rw [electricalLane_eq, if_pos (managed_of hman)]
  · rw [electricalLane_eq, if_neg (ne_true_of_eq_false (managed_not hun))]
  · rw [channelRetirement_eq, if_pos (managed_of hman), hin, hmoving]
    rfl
  · have hstays : ¬ (s.repair.channels.getD c.val false && s.repair.moving.isNone) = true := fun hyes => by
      rw [Bool.and_eq_true, Option.isNone_iff_eq_none] at hyes
      exact hno.elim (fun hout => absurd (hout.symm.trans hyes.1) Bool.false_ne_true) (fun hne => hne hyes.2)
    rw [channelRetirement_eq, if_neg hstays, ite_self]
  · exact congrArg Host.Outcome.next (if_neg (by rw [hnone]; exact Bool.false_ne_true))
  · rw [rebuild_eq hq, if_pos hyes]
  · rw [rebuild_eq hq, if_neg (ne_true_of_eq_false hno)]
  · rw [mpHeartbeat_eq, hrun, managed_of hman, hfail]
    rfl
  · rw [mpHeartbeat_eq, if_neg (fun hyes => ?_)]
    rw [Bool.and_eq_true, Bool.and_eq_true, Option.isNone_iff_eq_none] at hyes
    obtain ⟨⟨hrun, hman⟩, hfail⟩ := hyes
    exact hno.elim (fun hstopped => absurd (hstopped.symm.trans hrun) Bool.false_ne_true) (fun hne => hne hfail)
  · rw [farrierTakeover_eq, if_pos (hno.imp id (Or.imp id managed_not))]
  · refine ⟨_, ?_, (farrierTakeover_eq s missed).trans (congrArg Host.Outcome.next (if_neg ?_))⟩
    · rfl
    · rintro (hfew | hdown | hun)
      · exact Nat.not_lt.mpr hmissed hfew
      · exact absurd (hdown.symm.trans hup) Bool.false_ne_true
      · exact absurd ((managed_of hman).symm.trans hun) Bool.false_ne_true.symm

end Sys2Proof.Machine
end

section
/-!
SUPPORT. Steps 1 to 4 of R332, which every packet row takes: the theorem that settles O37.
-/

namespace Sys2Proof.Machine

open Sys2Proof

set_option Elab.async false

/-! ### The steps of admission -/

section Admission

variable {s : State} {m : Miss} {p : RdmaPkt} {ok : Nat → Bool} {body : Ctx → State → State} {c : Ctx}

/-- Step 1: a bad ICRC. -/
theorem accept_icrc (h : p.icrcBad = true) : s.acceptPkt m p ok body = (s.endPkt p).rdmaCount p.inst.toNat 0 1 := by
  rw [State.acceptPkt, if_pos h]

/-- Step 2: no such context. -/
theorem accept_noCtx (h : p.icrcBad = false) (hc : s.ctx p.qpn = none) : s.acceptPkt m p ok body = (s.endPkt p).rdmaCount p.inst.toNat 1 1 := by
  rw [State.acceptPkt, if_neg (ne_true_of_eq_false h), hc]

/-- A packet of a context that is not cached waits for its fill, while there is room (R339). -/
theorem accept_uncached (h : p.icrcBad = false) (hc : s.ctx p.qpn = some c) (hcached : c.cached = false) :
    s.acceptPkt m p ok body = if 16384 ≤ s.rdma.misses.length then (s.endPkt p).rdmaCount p.inst.toNat 18 1 else s.missWaits p.qpn c.inst m := by
  have hmiss : (!c.cached) = true := by rw [hcached]; rfl
  rw [State.acceptPkt, if_neg (ne_true_of_eq_false h), hc]
  dsimp only
  rw [if_pos hmiss]

/-- A packet of a cached context is judged by its line and its state (R332, R365). -/
theorem accept_cached (h : p.icrcBad = false) (hc : s.ctx p.qpn = some c) (hcached : c.cached = true) :
    s.acceptPkt m p ok body = if p.ctxBad then ((s.endPkt p).log 0x0804 p.qpn c.slotNo).errorCtx p.qpn 0x0E
      else if !(ok c.state) then (s.endPkt p).rdmaCount p.inst.toNat 1 1
      else if p.inst.toNat ≠ c.inst ∨ s.staleGen p.inst p.gen = true then (s.endPkt p).rdmaCount p.inst.toNat 2 1
      else body c ((s.endPkt p).touchCtx p.qpn) := by
  have hhit : ¬ (!c.cached) = true := by rw [hcached]; exact Bool.false_ne_true
  rw [State.acceptPkt, if_neg (ne_true_of_eq_false h), hc]
  dsimp only
  rw [if_neg hhit]

/-- A cached line that fails its check (R365). -/
theorem accept_ctxBad (h : p.icrcBad = false) (hc : s.ctx p.qpn = some c) (hcached : c.cached = true) (hbad : p.ctxBad = true) :
    s.acceptPkt m p ok body = ((s.endPkt p).log 0x0804 p.qpn c.slotNo).errorCtx p.qpn 0x0E := by
  rw [accept_cached h hc hcached, if_pos hbad]

/-- Step 2: a context in another state. -/
theorem accept_state (h : p.icrcBad = false) (hc : s.ctx p.qpn = some c) (hcached : c.cached = true) (hgood : p.ctxBad = false) (hstate : ok c.state = false) :
    s.acceptPkt m p ok body = (s.endPkt p).rdmaCount p.inst.toNat 1 1 := by
  rw [accept_cached h hc hcached, if_neg (ne_true_of_eq_false hgood), hstate]
  rfl

/-- Step 3: another instance, or a stale generation. -/
theorem accept_stale (h : p.icrcBad = false) (hc : s.ctx p.qpn = some c) (hcached : c.cached = true) (hgood : p.ctxBad = false) (hstate : ok c.state = true)
    (hstale : p.inst.toNat ≠ c.inst ∨ s.staleGen p.inst p.gen = true) : s.acceptPkt m p ok body = (s.endPkt p).rdmaCount p.inst.toNat 2 1 := by
  have hready : ¬ (!ok c.state) = true := by rw [hstate]; exact Bool.false_ne_true
  rw [accept_cached h hc hcached, if_neg (ne_true_of_eq_false hgood), if_neg hready, if_pos hstale]

end Admission

/-! ### Requests and responses -/

/-- Step 2's test of a context's state, for a request or a response. -/
def readyFor (request : Bool) (st : Nat) : Bool := if request then decide (st = 2) || decide (st = 3) else decide (st = 3)

/-- A request is taken in RTR and RTS, a response in RTS. -/
theorem readyFor_iff (request : Bool) (st : Nat) : readyFor request st = true ↔ st = 3 ∨ (request = true ∧ st = 2) := by
  cases request <;> simp [readyFor, or_comm]

/-- Step 2's test fails in the other states. -/
theorem readyFor_false {request : Bool} {st : Nat} (h : st < 2 ∨ 3 < st ∨ (request = false ∧ st = 2)) : readyFor request st = false := by
  rw [Bool.eq_false_iff, Ne, readyFor_iff]
  rintro (h3 | ⟨hreq, h2⟩)
  · omega
  · rcases h with h | h | ⟨hresp, -⟩
    · omega
    · omega
    · exact Bool.false_ne_true (hresp.symm.trans hreq)

/-- An admitted request on an instance that is not frozen reaches the mode's test with its reply route (R328, R332). -/
theorem request_admitted {s : State} {m : Miss} {p : RdmaPkt} {c : Ctx} {spray : Bool} {body : Ctx → State → State} (h : Claims.Admitted s p c true) :
    s.request m p spray body = if c.spray ≠ spray then (Claims.requestIn s p c).nakError p.qpn 0x61 p.psn p.psn 0 else body (Claims.routed s p c) (Claims.requestIn s p c) := by
  obtain ⟨hicrc, hline, hc, hcached, hstate, hinst, hgen, hfrozen⟩ := h
  have hready : (decide (c.state = 2) || decide (c.state = 3)) = true := (readyFor_iff true c.state).mpr hstate
  rw [State.request, admit_body hicrc hline hc hcached hready hinst hgen]
  dsimp only
  rw [if_neg (ne_true_of_eq_false (hfrozen rfl))]
  rfl

/-- An admitted response reaches the mode's test (R332). -/
theorem response_admitted {s : State} {m : Miss} {p : RdmaPkt} {c : Ctx} {spray : Bool} {body : Ctx → State → State} (h : Claims.Admitted s p c false) :
    s.response m p spray body = if c.spray ≠ spray then Claims.responseIn s p else body c (Claims.responseIn s p) := by
  obtain ⟨hicrc, hline, hc, hcached, hstate, hinst, hgen, -⟩ := h
  have hready : decide (c.state = 3) = true := (readyFor_iff false c.state).mpr hstate
  rw [State.response, admit_body hicrc hline hc hcached hready hinst hgen]
  rfl

/-! Each packet row handles its packet as a request or a response of its mode (R332, R340, R342 to R344). -/

section Rows

variable (s : State) (p : RdmaPkt) (sh : SprayHdr)

theorem rdmaWriteFirst_row : exec (.rdmaWriteFirst p) s = .next (s.request (.packet 0x06 p noSpray) p false (fun c t => t.writePkt p true false c)) := rfl
theorem rdmaWriteMiddle_row : exec (.rdmaWriteMiddle p) s = .next (s.request (.packet 0x07 p noSpray) p false (fun c t => t.writePkt p false false c)) := rfl
theorem rdmaWriteLast_row : exec (.rdmaWriteLast p) s = .next (s.request (.packet 0x08 p noSpray) p false (fun c t => t.writePkt p false true c)) := rfl
theorem rdmaWriteOnly_row : exec (.rdmaWriteOnly p) s = .next (s.request (.packet 0x0A p noSpray) p false (fun c t => t.writePkt p true true c)) := rfl
theorem rdmaReadRequest_row : exec (.rdmaReadRequest p) s = .next (s.request (.packet 0x0C p noSpray) p false (fun c t => t.readReq p c)) := rfl
theorem rdmaReadResponseFirst_row : exec (.rdmaReadResponseFirst p) s = .next (s.response (.packet 0x0D p noSpray) p false (fun c t => t.readResp p c)) := rfl
theorem rdmaReadResponseMiddle_row : exec (.rdmaReadResponseMiddle p) s = .next (s.response (.packet 0x0E p noSpray) p false (fun c t => t.readResp p c)) := rfl
theorem rdmaReadResponseLast_row : exec (.rdmaReadResponseLast p) s = .next (s.response (.packet 0x0F p noSpray) p false (fun c t => t.readResp p c)) := rfl
theorem rdmaReadResponseOnly_row : exec (.rdmaReadResponseOnly p) s = .next (s.response (.packet 0x10 p noSpray) p false (fun c t => t.readResp p c)) := rfl
theorem acknowledge_row : exec (.acknowledge p) s = .next (s.response (.packet 0x11 p noSpray) p false (fun c t => t.ackPkt p c)) := rfl
theorem sprayWrite_row : exec (.sprayWrite p sh) s = .next (s.request (.packet 0xC0 p sh) p true (fun c t => t.sprayWritePkt p sh c)) := rfl
theorem sprayReadReq_row : exec (.sprayReadReq p sh) s = .next (s.request (.packet 0xC1 p sh) p true (fun c t => t.sprayReadPkt p sh c)) := rfl
theorem sprayReadResp_row : exec (.sprayReadResp p sh) s = .next (s.response (.packet 0xC2 p sh) p true (fun c t => t.sprayRespPkt p sh c)) := rfl
theorem sprayAck_row : exec (.sprayAck p sh) s = .next (s.response (.packet 0xC3 p sh) p true (fun c t => t.sprayAckPkt p sh c)) := rfl
theorem spraySack_row : exec (.spraySack p sh) s = .next (s.response (.packet 0xC4 p sh) p true (fun c t => t.sprayMissing p sh c)) := rfl
theorem sprayNak_row : exec (.sprayNak p sh) s = .next (s.response (.packet 0xC5 p sh) p true (fun c t => t.sprayNakPkt p sh c)) := rfl

end Rows

/-- Every packet row is a request or a response of its mode. -/
theorem packetRow_form (s : State) {p : RdmaPkt} {sh : SprayHdr} {x : Instr × Nat} (h : Claims.PacketRow p sh x) :
    (Claims.requestOps.contains x.2 = true ∧ ∃ body, exec x.1 s = .next (s.request (.packet x.2 p (if 0xC0 ≤ x.2 then sh else noSpray)) p (decide (0xC0 ≤ x.2)) body)) ∨
    (Claims.requestOps.contains x.2 = false ∧ ∃ body, exec x.1 s = .next (s.response (.packet x.2 p (if 0xC0 ≤ x.2 then sh else noSpray)) p (decide (0xC0 ≤ x.2)) body)) := by
  simp only [Claims.PacketRow, List.mem_cons, List.not_mem_nil, or_false] at h
  rcases h with rfl | rfl | rfl | rfl | rfl | rfl | rfl | rfl | rfl | rfl | rfl | rfl | rfl | rfl | rfl | rfl
  · exact .inl ⟨rfl, _, rdmaWriteFirst_row s p⟩
  · exact .inl ⟨rfl, _, rdmaWriteMiddle_row s p⟩
  · exact .inl ⟨rfl, _, rdmaWriteLast_row s p⟩
  · exact .inl ⟨rfl, _, rdmaWriteOnly_row s p⟩
  · exact .inl ⟨rfl, _, rdmaReadRequest_row s p⟩
  · exact .inr ⟨rfl, _, rdmaReadResponseFirst_row s p⟩
  · exact .inr ⟨rfl, _, rdmaReadResponseMiddle_row s p⟩
  · exact .inr ⟨rfl, _, rdmaReadResponseLast_row s p⟩
  · exact .inr ⟨rfl, _, rdmaReadResponseOnly_row s p⟩
  · exact .inr ⟨rfl, _, acknowledge_row s p⟩
  · exact .inl ⟨rfl, _, sprayWrite_row s p sh⟩
  · exact .inl ⟨rfl, _, sprayReadReq_row s p sh⟩
  · exact .inr ⟨rfl, _, sprayReadResp_row s p sh⟩
  · exact .inr ⟨rfl, _, sprayAck_row s p sh⟩
  · exact .inr ⟨rfl, _, spraySack_row s p sh⟩
  · exact .inr ⟨rfl, _, sprayNak_row s p sh⟩

/-- Every packet row goes through the steps of admission, with the test of its kind. -/
theorem packetRow_accept (s : State) {p : RdmaPkt} {sh : SprayHdr} {x : Instr × Nat} (h : Claims.PacketRow p sh x) :
    ∃ body, exec x.1 s = .next (s.acceptPkt (.packet x.2 p (if 0xC0 ≤ x.2 then sh else noSpray)) p (readyFor (Claims.requestOps.contains x.2)) body) := by
  rcases packetRow_form s h with ⟨hreq, body, hrow⟩ | ⟨hresp, body, hrow⟩
  · rw [hreq]
    exact ⟨_, hrow⟩
  · rw [hresp]
    exact ⟨_, hrow⟩

/-- Step 4: a packet of the other mode (R332). -/
theorem packetRow_otherMode {s : State} {p : RdmaPkt} {sh : SprayHdr} {x : Instr × Nat} {c : Ctx} (h : Claims.PacketRow p sh x)
    (hadm : Claims.Admitted s p c (Claims.requestOps.contains x.2)) (hmode : c.spray ≠ decide (0xC0 ≤ x.2)) :
    exec x.1 s = .next (if Claims.requestOps.contains x.2 then (Claims.requestIn s p c).nakError p.qpn 0x61 p.psn p.psn 0 else Claims.responseIn s p) := by
  rcases packetRow_form s h with ⟨hreq, body, hrow⟩ | ⟨hresp, body, hrow⟩
  · rw [hreq] at hadm ⊢
    rw [hrow, request_admitted hadm, if_pos hmode, if_pos rfl]
  · rw [hresp] at hadm ⊢
    rw [hrow, response_admitted hadm, if_pos hmode, if_neg Bool.false_ne_true]

/-- Settles O37: every packet row is an admission with the test of its kind; each clause is one of its steps. -/
theorem packetsAreAdmitted : Obligations.PacketsAreAdmitted := by
  unfold Obligations.PacketsAreAdmitted
  intro s p sh x hx req spray drop hdr
  obtain ⟨body, hrow⟩ := packetRow_accept s hx
  refine ⟨fun hicrc => hrow.trans (congrArg Host.Outcome.next (accept_icrc hicrc)), fun hicrc hc => hrow.trans (congrArg Host.Outcome.next (accept_noCtx hicrc hc)),
    fun c hicrc hc => ⟨fun hmiss hroom => ?_, fun hmiss hfull => ?_, fun hhit hbad => ?_, fun hhit hgood hstate => ?_, fun hhit hgood hstate hstale => ?_⟩,
    fun c => packetRow_otherMode hx⟩
  · exact hrow.trans (congrArg Host.Outcome.next ((accept_uncached hicrc hc hmiss).trans (if_neg (Nat.not_le.mpr hroom))))
  · exact hrow.trans (congrArg Host.Outcome.next ((accept_uncached hicrc hc hmiss).trans (if_pos hfull)))
  · exact hrow.trans (congrArg Host.Outcome.next (accept_ctxBad hicrc hc hhit hbad))
  · exact hrow.trans (congrArg Host.Outcome.next (accept_state hicrc hc hhit hgood (readyFor_false hstate)))
  · exact hrow.trans (congrArg Host.Outcome.next (accept_stale hicrc hc hhit hgood ((readyFor_iff _ _).mpr hstate) hstale))

end Sys2Proof.Machine
end

section
/-!
SUPPORT. Packets of a standard context once admitted (R332 to R334, R340, R341, R350): the theorem that settles O38.
-/

namespace Sys2Proof.Machine

open Sys2Proof

set_option Elab.async false

/-! ### The responder -/

/-- A request of the context's mode reaches its body. -/
theorem request_runs {s : State} {m : Miss} {p : RdmaPkt} {c : Ctx} {spray : Bool} {body : Ctx → State → State} (h : Claims.Admitted s p c true) (hmode : c.spray = spray) :
    s.request m p spray body = body (Claims.routed s p c) (Claims.requestIn s p c) := by
  rw [request_admitted h, if_neg (not_not.mpr hmode)]

/-- A response of the context's mode reaches its body. -/
theorem response_runs {s : State} {m : Miss} {p : RdmaPkt} {c : Ctx} {spray : Bool} {body : Ctx → State → State} (h : Claims.Admitted s p c false) (hmode : c.spray = spray) :
    s.response m p spray body = body c (Claims.responseIn s p) := by
  rw [response_admitted h, if_neg (not_not.mpr hmode)]

section Responder

variable {u : State} {p : RdmaPkt} {first last : Bool} {d : Ctx}

/-- A packet ahead of RQ_PSN draws one NAK (R341). -/
theorem writePkt_ahead (h0 : 0 < psnDist d.rqPsn p.psn) (hlow : psnDist d.rqPsn p.psn < 2 ^ 23) : u.writePkt p first last d = u.aheadOf p.qpn d := by
  rw [State.writePkt, if_pos (Nat.ne_of_gt h0), if_pos hlow]

/-- A packet behind it is acknowledged again (R341). -/
theorem writePkt_behind (h : 2 ^ 23 ≤ psnDist d.rqPsn p.psn) : u.writePkt p first last d = u.sendAck p.qpn 0x1F (d.rqPsn + 2 ^ 24 - 1) := by
  have h0 : psnDist d.rqPsn p.psn ≠ 0 := Nat.ne_of_gt (Nat.lt_of_lt_of_le (Nat.two_pow_pos 23) h)
  rw [State.writePkt, if_pos h0, if_neg (Nat.not_lt.mpr h)]

/-- A packet in sequence that does not fit its WRITE (step 7 of R332). -/
theorem writePkt_misfit (h0 : psnDist d.rqPsn p.psn = 0) (hfit : writeFits d p first last = false) : u.writePkt p first last d = u.nakError p.qpn 0x61 p.psn 0 0 := by
  have hbad : (!(writeFits d p first last)) = true := by rw [hfit]; rfl
  rw [State.writePkt, if_neg (not_not.mpr h0), if_pos hbad]

/-- A packet in sequence that fits is placed where its key lets it (steps 8 to 14 of R332). -/
theorem writePkt_fits (h0 : psnDist d.rqPsn p.psn = 0) (hfit : writeFits d p first last = true) :
    let va := if first then p.va.toNat else d.rwVa
    let key := if first then p.rkey else d.rwRkey
    (u.regOk d key va p.payload.length true = false → u.writePkt p first last d = u.nakError p.qpn 0x62 p.psn 0 0) ∧
    (u.regOk d key va p.payload.length true = true → ∀ v, u.place d.fn (key.toNat / 256) va p.payload (if p.ackReq then .ack p.qpn p.psn else .nothing) = some v →
      u.writePkt p first last d = v.modCtx p.qpn (fun e => { e with rqPsn := (e.rqPsn + 1) % 2 ^ 24, nakSent := false, writeOpen := !last, rwVa := va + p.payload.length, rwRkey := key, rwLeft := (if first then p.dmaLen else d.rwLeft) - p.payload.length })) := by
  intro va key
  have hgood : ¬ (!(writeFits d p first last)) = true := by rw [hfit]; exact Bool.false_ne_true
  refine ⟨fun hreg => ?_, fun hreg v hv => ?_⟩
  · have hno : (!(u.regOk d key va p.payload.length true)) = true := by rw [hreg]; rfl
    rw [State.writePkt, if_neg (not_not.mpr h0), if_neg hgood, if_pos hno]
  · have hyes : ¬ (!(u.regOk d key va p.payload.length true)) = true := by rw [hreg]; exact Bool.false_ne_true
    rw [State.writePkt, if_neg (not_not.mpr h0), if_neg hgood, if_neg hyes]
    rw [hv]

/-- A READ request ahead of RQ_PSN (R341). -/
theorem readReq_ahead (h0 : 0 < psnDist d.rqPsn p.psn) (hlow : psnDist d.rqPsn p.psn < 2 ^ 23) : u.readReq p d = u.aheadOf p.qpn d := by
  rw [State.readReq, if_pos ⟨h0, hlow⟩]

/-- A READ request in sequence is checked and answered (R334, R341). -/
theorem readReq_inSequence (h0 : psnDist d.rqPsn p.psn = 0) (hlen : 0 < p.dmaLen) (hmost : p.dmaLen ≤ 2147483648) (hroom : d.reads.length < 8) :
    (u.regOk d p.rkey p.va.toNat p.dmaLen false = false → u.readReq p d = u.nakError p.qpn 0x62 p.psn 0 0) ∧
    (u.regOk d p.rkey p.va.toNat p.dmaLen false = true →
      (∀ v, u.startServe p.qpn p p.psn p.dmaLen = some v → u.readReq p d = v.modCtx p.qpn (fun e => { e with rqPsn := (e.rqPsn + packets e.pmtu p.dmaLen) % 2 ^ 24, nakSent := false })) ∧
      (u.startServe p.qpn p p.psn p.dmaLen = none → u.readReq p d = u.rdmaCount d.inst 3 1)) := by
  have hseq : ¬ (0 < psnDist d.rqPsn p.psn ∧ psnDist d.rqPsn p.psn < 2 ^ 23) := fun hyes => Nat.ne_of_gt hyes.1 h0
  have hgood : ¬ (p.dmaLen = 0 ∨ 2147483648 < p.dmaLen ∨ 8 ≤ d.reads.length) := by omega
  refine ⟨fun hreg => ?_, fun hreg => ?_⟩
  · have hno : (!(u.regOk d p.rkey p.va.toNat p.dmaLen false)) = true := by rw [hreg]; rfl
    rw [State.readReq, if_neg hseq, if_neg hgood, if_pos hno]
  · have hyes : ¬ (!(u.regOk d p.rkey p.va.toNat p.dmaLen false)) = true := by rw [hreg]; exact Bool.false_ne_true
    rw [State.readReq, if_neg hseq, if_neg hgood, if_neg hyes]
    refine ⟨fun v hv => ?_, fun hnone => ?_⟩
    · rw [hv]
      dsimp only
      rw [if_pos h0]
    · rw [hnone]

end Responder

/-- The WRITE rows of a standard context and the parts of a message that they carry (R332). -/
theorem writeRow_runs {s : State} {p : RdmaPkt} {c : Ctx} {x : Instr × Bool × Bool} (h : Claims.Admitted s p c true) (hmode : c.spray = false)
    (hx : x ∈ [(Instr.rdmaWriteFirst p, true, false), (.rdmaWriteMiddle p, false, false), (.rdmaWriteLast p, false, true), (.rdmaWriteOnly p, true, true)]) :
    exec x.1 s = .next ((Claims.requestIn s p c).writePkt p x.2.1 x.2.2 (Claims.routed s p c)) := by
  simp only [List.mem_cons, List.not_mem_nil, or_false] at hx
  rcases hx with rfl | rfl | rfl | rfl
  · rw [rdmaWriteFirst_row, request_runs h hmode]
  · rw [rdmaWriteMiddle_row, request_runs h hmode]
  · rw [rdmaWriteLast_row, request_runs h hmode]
  · rw [rdmaWriteOnly_row, request_runs h hmode]

/-- A READ request of a standard context (R334). -/
theorem readRow_runs {s : State} {p : RdmaPkt} {c : Ctx} (h : Claims.Admitted s p c true) (hmode : c.spray = false) :
    exec (.rdmaReadRequest p) s = .next ((Claims.requestIn s p c).readReq p (Claims.routed s p c)) := by
  rw [rdmaReadRequest_row, request_runs h hmode]

/-- Another opcode of the reliable-connection transport draws a NAK (R326). -/
theorem unsupported_nak {s : State} {p : RdmaPkt} {c : Ctx} (h : Claims.Admitted s p c true) (hop : p.opcode.toNat < 32) :
    exec (.unsupportedOpcodePacket p) s = .next ((Claims.requestIn s p c).nakError p.qpn 0x61 p.psn p.psn 0) := by
  obtain ⟨hicrc, hline, hc, hcached, hstate, hinst, hgen, hfrozen⟩ := h
  have hready : (decide (c.state = 2) || decide (c.state = 3)) = true := (readyFor_iff true c.state).mpr hstate
  have hrow : exec (.unsupportedOpcodePacket p) s = .next (s.unsupportedPkt (.packet 0xFF p noSpray) p) := rfl
  rw [hrow, State.unsupportedPkt, if_pos hop, admit_body hicrc hline hc hcached hready hinst hgen]
  rw [if_neg (ne_true_of_eq_false (hfrozen rfl))]
  rfl

/-- One of another transport is dropped (R326). -/
theorem unsupported_dropped {s : State} {p : RdmaPkt} (hop : 32 ≤ p.opcode.toNat) : exec (.unsupportedOpcodePacket p) s = .next (s.endPkt p) :=
  congrArg Host.Outcome.next (if_neg (Nat.not_lt.mpr hop))

/-! ### The requester -/

/-- An Acknowledge packet of a standard context (R340). -/
theorem ackRow_runs {s : State} {p : RdmaPkt} {c : Ctx} (h : Claims.Admitted s p c false) (hmode : c.spray = false) :
    exec (.acknowledge p) s = .next ((Claims.responseIn s p).ackPkt p c) := by
  rw [acknowledge_row, response_runs h hmode]

/-- What an Acknowledge packet does, by its syndrome (R340, R350). -/
theorem ackPkt_cases (u : State) (p : RdmaPkt) (c : Ctx) :
    (p.syndrome.toNat < 0x20 → c.awaits p.psn = true → u.ackPkt p c = ((u.setCtx p.qpn (some (c.acked p.psn u.time.tick))).completeTo p.qpn c p.psn).pump p.qpn) ∧
    (p.syndrome.toNat < 0x20 → c.awaits p.psn = false → u.ackPkt p c = u) ∧
    (p.syndrome.toNat = 0x60 → u.ackPkt p c = (u.rdmaCount c.inst 9 1).resendFrom p.qpn p.psn) ∧
    (0x20 ≤ p.syndrome.toNat → p.syndrome.toNat ≠ 0x60 → u.ackPkt p c = (u.rdmaCount c.inst 9 1).nakReceived p.qpn (c.wqeAt p.psn) p.syndrome.toNat) := by
  refine ⟨fun hack hwait => ?_, fun hack hwait => ?_, fun hseq => ?_, fun hnak hother => ?_⟩
  · rw [State.ackPkt, if_pos hack, if_pos hwait]
  · rw [State.ackPkt, if_pos hack, if_neg (ne_true_of_eq_false hwait)]
  · rw [State.ackPkt, if_neg (by omega), if_pos hseq]
  · rw [State.ackPkt, if_neg (Nat.not_lt.mpr hnak), if_neg hother]

/-- The READ response rows of a standard context (R340). -/
theorem respRow_runs {s : State} {p : RdmaPkt} {c : Ctx} {x : Instr} (h : Claims.Admitted s p c false) (hmode : c.spray = false)
    (hx : x ∈ [Instr.rdmaReadResponseFirst p, .rdmaReadResponseMiddle p, .rdmaReadResponseLast p, .rdmaReadResponseOnly p]) :
    exec x s = .next ((Claims.responseIn s p).readResp p c) := by
  simp only [List.mem_cons, List.not_mem_nil, or_false] at hx
  rcases hx with rfl | rfl | rfl | rfl
  · rw [rdmaReadResponseFirst_row, response_runs h hmode]
  · rw [rdmaReadResponseMiddle_row, response_runs h hmode]
  · rw [rdmaReadResponseLast_row, response_runs h hmode]
  · rw [rdmaReadResponseOnly_row, response_runs h hmode]

/-- A response without an outstanding READ is ignored. -/
theorem readResp_none {u : State} {p : RdmaPkt} {c : Ctx} (h : c.wqes.find? (fun w => w.isRead && w.sent) = none) : u.readResp p c = u := by
  rw [State.readResp, h]

/-- Writes are held only while bus mastering is off, and the store for them is full. -/
theorem holdsFull_not {u : State} {fn : Nat} (h : u.holds fn = false ∨ u.holdFull = false) : ¬ (u.holds fn && u.holdFull) = true := by
  rw [Bool.and_eq_true]
  exact fun hyes => h.elim (fun hno => Bool.false_ne_true (hno.symm.trans hyes.1)) (fun hno => Bool.false_ne_true (hno.symm.trans hyes.2))

/-- A response to the oldest READ, by its place in the sequence (R340, log 35). -/
theorem readResp_cases {u : State} {p : RdmaPkt} {c : Ctx} {w : Wqe} (h : c.wqes.find? (fun w => w.isRead && w.sent) = some w) :
    let gap := psnDist (w.psn + w.next / pmtuBytes c.pmtu) p.psn
    (2 ^ 23 ≤ gap → u.readResp p c = u) ∧
    (0 < gap → gap < 2 ^ 23 → u.readResp p c = (u.modCtx p.qpn (fun e => { e with lastAckTick := u.time.tick })).sendReadReq p.qpn c w true) ∧
    (gap = 0 → (u.holds c.fn = false ∨ u.holdFull = false) → let bs := p.payload.take (w.len - w.next)
      let v := ((u.setCtx p.qpn (some (c.acked p.psn u.time.tick))).completeTo p.qpn c p.psn).setWqe p.qpn { w with next := w.next + bs.length }
      u.readResp p c = (placeSegs c.fn (if w.len ≤ w.next + bs.length then .readDone p.qpn w.op else .nothing) (segPart w.segs w.next bs.length) bs v).pump p.qpn) := by
  intro gap
  refine ⟨fun hfar => ?_, fun h0 hlow => ?_, fun h0 hroom => ?_⟩
  · rw [State.readResp, h]
    dsimp only
    rw [if_pos hfar]
  · rw [State.readResp, h]
    dsimp only
    rw [if_neg (Nat.not_le.mpr hlow), if_pos h0]
  · rw [State.readResp, h]
    dsimp only
    have hnear : ¬ 2 ^ 23 ≤ gap := fun hfar => Nat.ne_of_gt (Nat.lt_of_lt_of_le (Nat.two_pow_pos 23) hfar) h0
    rw [if_neg hnear, if_neg (fun hpos => Nat.ne_of_gt hpos h0), if_neg (holdsFull_not hroom)]

/-- Settles O38: an admitted packet of a standard context runs its row's body, whose cases are the clauses. -/
theorem standardPacketsAct : Obligations.StandardPacketsAct := by
  unfold Obligations.StandardPacketsAct
  intro s p c hmode
  refine ⟨fun hadm => ?_, unsupported_dropped, fun hadm => ?_⟩
  · intro u d ahead
    refine ⟨fun x hx => ?_, fun h0 hlow => ?_, fun h0 hlen hmost hroom => ?_, unsupported_nak hadm⟩
    · rw [writeRow_runs hadm hmode hx]
      refine ⟨fun h0 hlow => congrArg Host.Outcome.next (writePkt_ahead (d := d) h0 hlow), fun hfar => congrArg Host.Outcome.next (writePkt_behind (d := d) hfar),
        fun h0 hfit => congrArg Host.Outcome.next (writePkt_misfit (d := d) h0 hfit), fun h0 hfit => ?_⟩
      obtain ⟨hdenied, hplaced⟩ := writePkt_fits (u := u) (d := d) h0 hfit
      exact ⟨fun hreg => congrArg Host.Outcome.next (hdenied hreg), fun hreg v hv => congrArg Host.Outcome.next (hplaced hreg v hv)⟩
    · rw [readRow_runs hadm hmode]
      exact congrArg Host.Outcome.next (readReq_ahead (d := d) h0 hlow)
    · rw [readRow_runs hadm hmode]
      obtain ⟨hdenied, hserved⟩ := readReq_inSequence (u := u) (d := d) h0 hlen hmost hroom
      exact ⟨fun hreg => congrArg Host.Outcome.next (hdenied hreg),
        fun hreg => ⟨fun v hv => congrArg Host.Outcome.next ((hserved hreg).1 v hv), fun hnone => congrArg Host.Outcome.next ((hserved hreg).2 hnone)⟩⟩
  · intro u
    rw [ackRow_runs hadm hmode]
    obtain ⟨hack, hdup, hseq, hnak⟩ := ackPkt_cases u p c
    refine ⟨fun hlow hwait => congrArg Host.Outcome.next (hack hlow hwait), fun hlow hwait => congrArg Host.Outcome.next (hdup hlow hwait),
      fun hsyn => congrArg Host.Outcome.next (hseq hsyn), fun hlow hne => congrArg Host.Outcome.next (hnak hlow hne), fun x hx => ?_⟩
    rw [respRow_runs hadm hmode hx]
    refine ⟨fun hnone => congrArg Host.Outcome.next (readResp_none hnone), fun w hw => ?_⟩
    obtain ⟨hfar, hgap, hnext⟩ := readResp_cases (u := u) (p := p) hw
    exact ⟨fun hlarge => congrArg Host.Outcome.next (hfar hlarge), fun h0 hlow => congrArg Host.Outcome.next (hgap h0 hlow),
      fun h0 hroom => congrArg Host.Outcome.next (hnext h0 hroom)⟩

end Sys2Proof.Machine
end

section
/-!
SUPPORT. Packets of a spray context once admitted (R342 to R345, R350): the theorem that settles O39.
-/

namespace Sys2Proof.Machine

open Sys2Proof

set_option Elab.async false

/-! ### SPRAY_WRITE at the responder (R344) -/

/-- Whether the slot of a packet's message holds the packet already. -/
def Ctx.holdsPacket (c : Ctx) (sh : SprayHdr) : Bool := match c.slot? sh.msg with | some r => r.bitmap.getD (sh.offset / pmtuBytes c.pmtu) false | none => false

/-- Whether the slot of a packet's message was taken for another length. -/
def Ctx.otherLength (c : Ctx) (sh : SprayHdr) : Bool := match c.slot? sh.msg with | some r => decide (r.mlen ≠ sh.mlen) | none => false

section SprayWrite

variable {s : State} {p : RdmaPkt} {sh : SprayHdr} {c : Ctx}

/-- A packet is held when its message's slot has its bit. -/
theorem holdsPacket_false (h : ∀ r, c.slot? sh.msg = some r → r.bitmap.getD (sh.offset / pmtuBytes c.pmtu) false = false) : c.holdsPacket sh = false := by
  unfold Ctx.holdsPacket
  cases hr : c.slot? sh.msg with
  | none => rfl
  | some r => exact h r hr

/-- The slot's bit is set for a packet that is held. -/
theorem holdsPacket_slot {r : Reasm} (h : c.slot? sh.msg = some r) : c.holdsPacket sh = r.bitmap.getD (sh.offset / pmtuBytes c.pmtu) false := by
  unfold Ctx.holdsPacket
  rw [h]

/-- A message's length is the one of its slot. -/
theorem otherLength_false (h : ∀ r, c.slot? sh.msg = some r → r.mlen = sh.mlen) : c.otherLength sh = false := by
  unfold Ctx.otherLength
  cases hr : c.slot? sh.msg with
  | none => rfl
  | some r => exact decide_eq_false (not_not.mpr (h r hr))

/-- A slot of another length. -/
theorem otherLength_slot {r : Reasm} (h : c.slot? sh.msg = some r) (hne : r.mlen ≠ sh.mlen) : c.otherLength sh = true := by
  unfold Ctx.otherLength
  rw [h]
  exact decide_eq_true hne

/-- What a SPRAY_WRITE does, step by step (R332, R344). -/
theorem sprayWritePkt_eq (s : State) (p : RdmaPkt) (sh : SprayHdr) (c : Ctx) : s.sprayWritePkt p sh c =
    if c.window sh.msg = .above then s
    else if c.window sh.msg = .done then s.sendSprayAck p.qpn sh.msg sh.mlen
    else if c.holdsPacket sh then s.rdmaCount c.inst 13 1
    else if !(sprayFits c sh p.payload.length) || decide (p.dmaLen ≠ sh.mlen) || c.otherLength sh then s.nakError p.qpn 0x61 sh.msg sh.msg sh.mlen
    else if !(s.regOk c p.rkey (p.va.toNat + sh.offset) p.payload.length true) then s.nakError p.qpn 0x62 sh.msg sh.msg sh.mlen
    else if (c.slot? sh.msg).isNone && decide (4096 ≤ s.slotsUsed) then s.rdmaCount c.inst 4 1
    else match (generalizing := false) s.place c.fn (p.rkey.toNat / 256) (p.va.toNat + sh.offset) p.payload
        (if ((c.noteWrite sh p s.time.tick).slot? sh.msg).isNone then .sprayAck p.qpn sh.msg sh.mlen else .nothing) with
      | none => s
      | some v => v.modCtx p.qpn (fun x => { x with reasms := (c.noteWrite sh p s.time.tick).reasms, msgDone := (c.noteWrite sh p s.time.tick).msgDone, doneMap := (c.noteWrite sh p s.time.tick).doneMap }) := rfl

/-- A message above the window is ignored. -/
theorem sprayWrite_above (h : c.window sh.msg = .above) : s.sprayWritePkt p sh c = s := by
  rw [sprayWritePkt_eq, if_pos h]

/-- A message that is done is acknowledged again. -/
theorem sprayWrite_done (h : c.window sh.msg = .done) : s.sprayWritePkt p sh c = s.sendSprayAck p.qpn sh.msg sh.mlen := by
  rw [sprayWritePkt_eq, h]
  rfl

/-- A packet inside the window is judged further. -/
theorem sprayWrite_inside (h : c.window sh.msg = .inside) : s.sprayWritePkt p sh c =
    if c.holdsPacket sh then s.rdmaCount c.inst 13 1
    else if !(sprayFits c sh p.payload.length) || decide (p.dmaLen ≠ sh.mlen) || c.otherLength sh then s.nakError p.qpn 0x61 sh.msg sh.msg sh.mlen
    else if !(s.regOk c p.rkey (p.va.toNat + sh.offset) p.payload.length true) then s.nakError p.qpn 0x62 sh.msg sh.msg sh.mlen
    else if (c.slot? sh.msg).isNone && decide (4096 ≤ s.slotsUsed) then s.rdmaCount c.inst 4 1
    else match (generalizing := false) s.place c.fn (p.rkey.toNat / 256) (p.va.toNat + sh.offset) p.payload
        (if ((c.noteWrite sh p s.time.tick).slot? sh.msg).isNone then .sprayAck p.qpn sh.msg sh.mlen else .nothing) with
      | none => s
      | some v => v.modCtx p.qpn (fun x => { x with reasms := (c.noteWrite sh p s.time.tick).reasms, msgDone := (c.noteWrite sh p s.time.tick).msgDone, doneMap := (c.noteWrite sh p s.time.tick).doneMap }) := by
  have habove : ¬ c.window sh.msg = .above := by rw [h]; exact Window.noConfusion
  have hdone : ¬ c.window sh.msg = .done := by rw [h]; exact Window.noConfusion
  rw [sprayWritePkt_eq, if_neg habove, if_neg hdone]

/-- A packet that is held is only counted. -/
theorem sprayWrite_held {r : Reasm} (h : c.window sh.msg = .inside) (hr : c.slot? sh.msg = some r) (hbit : r.bitmap.getD (sh.offset / pmtuBytes c.pmtu) false = true) :
    s.sprayWritePkt p sh c = s.rdmaCount c.inst 13 1 := by
  rw [sprayWrite_inside h, if_pos ((holdsPacket_slot hr).trans hbit)]

/-- A malformed packet draws a NAK. -/
theorem sprayWrite_misfit (h : c.window sh.msg = .inside) (hnew : c.holdsPacket sh = false)
    (hbad : sprayFits c sh p.payload.length = false ∨ p.dmaLen ≠ sh.mlen ∨ ∃ r, c.slot? sh.msg = some r ∧ r.mlen ≠ sh.mlen) :
    s.sprayWritePkt p sh c = s.nakError p.qpn 0x61 sh.msg sh.msg sh.mlen := by
  have hmisfit : (!(sprayFits c sh p.payload.length) || decide (p.dmaLen ≠ sh.mlen) || c.otherLength sh) = true := by
    rw [Bool.or_eq_true, Bool.or_eq_true, Bool.not_eq_true', decide_eq_true_eq]
    rcases hbad with hfit | hlen | ⟨r, hr, hne⟩
    · exact .inl (.inl hfit)
    · exact .inl (.inr hlen)
    · exact .inr (otherLength_slot hr hne)
  rw [sprayWrite_inside h, if_neg (ne_true_of_eq_false hnew), if_pos hmisfit]

/-- A packet that fits is judged by its key, its slot and its place. -/
theorem sprayWrite_fits (h : c.window sh.msg = .inside) (hnew : c.holdsPacket sh = false) (hfit : sprayFits c sh p.payload.length = true) (hlen : p.dmaLen = sh.mlen)
    (hslot : ∀ r, c.slot? sh.msg = some r → r.mlen = sh.mlen) : s.sprayWritePkt p sh c =
    if !(s.regOk c p.rkey (p.va.toNat + sh.offset) p.payload.length true) then s.nakError p.qpn 0x62 sh.msg sh.msg sh.mlen
    else if (c.slot? sh.msg).isNone && decide (4096 ≤ s.slotsUsed) then s.rdmaCount c.inst 4 1
    else match (generalizing := false) s.place c.fn (p.rkey.toNat / 256) (p.va.toNat + sh.offset) p.payload
        (if ((c.noteWrite sh p s.time.tick).slot? sh.msg).isNone then .sprayAck p.qpn sh.msg sh.mlen else .nothing) with
      | none => s
      | some v => v.modCtx p.qpn (fun x => { x with reasms := (c.noteWrite sh p s.time.tick).reasms, msgDone := (c.noteWrite sh p s.time.tick).msgDone, doneMap := (c.noteWrite sh p s.time.tick).doneMap }) := by
  have hgood : ¬ (!(sprayFits c sh p.payload.length) || decide (p.dmaLen ≠ sh.mlen) || c.otherLength sh) = true := by
    rw [hfit, decide_eq_false (not_not.mpr hlen), otherLength_false hslot]
    exact Bool.false_ne_true
  rw [sprayWrite_inside h, if_neg (ne_true_of_eq_false hnew), if_neg hgood]

/-- One without access draws a NAK. -/
theorem sprayWrite_denied (h : c.window sh.msg = .inside) (hnew : c.holdsPacket sh = false) (hfit : sprayFits c sh p.payload.length = true) (hlen : p.dmaLen = sh.mlen)
    (hslot : ∀ r, c.slot? sh.msg = some r → r.mlen = sh.mlen) (hreg : s.regOk c p.rkey (p.va.toNat + sh.offset) p.payload.length true = false) :
    s.sprayWritePkt p sh c = s.nakError p.qpn 0x62 sh.msg sh.msg sh.mlen := by
  have hno : (!(s.regOk c p.rkey (p.va.toNat + sh.offset) p.payload.length true)) = true := by rw [hreg]; rfl
  rw [sprayWrite_fits h hnew hfit hlen hslot, if_pos hno]

/-- One with access needs a slot, and a place. -/
theorem sprayWrite_placed (h : c.window sh.msg = .inside) (hnew : c.holdsPacket sh = false) (hfit : sprayFits c sh p.payload.length = true) (hlen : p.dmaLen = sh.mlen)
    (hslot : ∀ r, c.slot? sh.msg = some r → r.mlen = sh.mlen) (hreg : s.regOk c p.rkey (p.va.toNat + sh.offset) p.payload.length true = true) :
    (c.slot? sh.msg = none → 4096 ≤ s.slotsUsed → s.sprayWritePkt p sh c = s.rdmaCount c.inst 4 1) ∧
    ((c.slot? sh.msg ≠ none ∨ s.slotsUsed < 4096) → let e := c.noteWrite sh p s.time.tick
      let put := s.place c.fn (p.rkey.toNat / 256) (p.va.toNat + sh.offset) p.payload (if (e.slot? sh.msg).isNone then .sprayAck p.qpn sh.msg sh.mlen else .nothing)
      (put = none → s.sprayWritePkt p sh c = s) ∧
      ∀ v, put = some v → s.sprayWritePkt p sh c = v.modCtx p.qpn (fun x => { x with reasms := e.reasms, msgDone := e.msgDone, doneMap := e.doneMap })) := by
  have hyes : ¬ (!(s.regOk c p.rkey (p.va.toNat + sh.offset) p.payload.length true)) = true := by rw [hreg]; exact Bool.false_ne_true
  refine ⟨fun hnone hfull => ?_, fun hroom => ?_⟩
  · have hno : ((c.slot? sh.msg).isNone && decide (4096 ≤ s.slotsUsed)) = true := by rw [hnone, decide_eq_true hfull]; rfl
    rw [sprayWrite_fits h hnew hfit hlen hslot, if_neg hyes, if_pos hno]
  · have hgo : ¬ ((c.slot? sh.msg).isNone && decide (4096 ≤ s.slotsUsed)) = true := by
      rw [Bool.and_eq_true, Option.isNone_iff_eq_none, decide_eq_true_eq]
      exact fun hboth => hroom.elim (fun hne => hne hboth.1) (Nat.not_lt.mpr hboth.2)
    intro e put
    refine ⟨fun hput => ?_, fun v hput => ?_⟩
    · rw [sprayWrite_fits h hnew hfit hlen hslot, if_neg hyes, if_neg hgo, show s.place _ _ _ _ _ = none from hput]
    · rw [sprayWrite_fits h hnew hfit hlen hslot, if_neg hyes, if_neg hgo, show s.place _ _ _ _ _ = some v from hput]

end SprayWrite

/-! ### SPRAY_READ_REQ at the responder (R342, R344) -/

section SprayRead

variable {s : State} {p : RdmaPkt} {sh : SprayHdr} {c : Ctx}

/-- A READ of a message outside the window is ignored. -/
theorem sprayRead_outside (h : c.window sh.msg ≠ .inside) : s.sprayReadPkt p sh c = s := if_pos h

/-- A READ of a new message inside the window is checked and answered. -/
theorem sprayRead_inside (h : c.window sh.msg = .inside) (hnew : c.read? sh.msg = none) (hoff : sh.offset = 0) (hlow : 1 ≤ sh.mlen) (hhigh : sh.mlen ≤ 1048576)
    (hlen : p.dmaLen = sh.mlen) (hload : p.payload = []) (hroom : c.reads.length < 8) :
    (s.regOk c p.rkey p.va.toNat sh.mlen false = false → s.sprayReadPkt p sh c = s.nakError p.qpn 0x62 sh.msg sh.msg sh.mlen) ∧
    (s.regOk c p.rkey p.va.toNat sh.mlen false = true → (∀ v, s.startServe p.qpn p sh.msg sh.mlen = some v → s.sprayReadPkt p sh c = v) ∧
      (s.startServe p.qpn p sh.msg sh.mlen = none → s.sprayReadPkt p sh c = s.rdmaCount c.inst 3 1)) := by
  have hgood : ¬ (sh.offset ≠ 0 ∨ sh.mlen = 0 ∨ 1048576 < sh.mlen ∨ p.dmaLen ≠ sh.mlen ∨ p.payload ≠ [] ∨ ((c.read? sh.msg).isSome = false ∧ 8 ≤ c.reads.length)) := by
    rintro (hne | hzero | hlarge | hne | hne | ⟨-, hfull⟩)
    · exact hne hoff
    · omega
    · omega
    · exact hne hlen
    · exact hne hload
    · omega
  have hunknown : ¬ (c.read? sh.msg).isSome = true := by rw [hnew]; exact Bool.false_ne_true
  refine ⟨fun hreg => ?_, fun hreg => ?_⟩
  · have hno : (!(s.regOk c p.rkey p.va.toNat sh.mlen false)) = true := by rw [hreg]; rfl
    rw [State.sprayReadPkt, if_neg (not_not.mpr h), if_neg hgood, if_pos hno]
  · have hyes : ¬ (!(s.regOk c p.rkey p.va.toNat sh.mlen false)) = true := by rw [hreg]; exact Bool.false_ne_true
    rw [State.sprayReadPkt, if_neg (not_not.mpr h), if_neg hgood, if_neg hyes, if_neg hunknown]
    refine ⟨fun v hv => ?_, fun hnone => ?_⟩
    · rw [hv]
    · rw [hnone]

end SprayRead

/-! ### The requester (R343, R344) -/

section SprayRequester

variable {s : State} {p : RdmaPkt} {sh : SprayHdr} {c : Ctx} {w : Wqe}

/-- A response without its READ is ignored. -/
theorem sprayResp_none (h : c.wqeMsg sh.msg true = none) : s.sprayRespPkt p sh c = s := by
  rw [State.sprayRespPkt, h]

/-- A response that fits its READ is counted when it is held, else placed. -/
theorem sprayResp_fits (h : c.wqeMsg sh.msg true = some w) (hslot : w.slot = true) (hfit : sprayFits c sh p.payload.length = true) (hlen : sh.mlen = w.len) :
    let k := sh.offset / pmtuBytes c.pmtu
    (w.bitmap.getD k false = true → s.sprayRespPkt p sh c = s.rdmaCount c.inst 13 1) ∧
    (w.bitmap.getD k false = false → (s.holds c.fn = false ∨ s.holdFull = false) → let b := modifyAt w.bitmap k (fun _ => true)
      s.sprayRespPkt p sh c = (placeSegs c.fn (if bitmapFull b then .readDone p.qpn w.op else .nothing) (segPart w.segs sh.offset p.payload.length) p.payload
        (s.setWqe p.qpn { w with bitmap := b, slot := !bitmapFull b, next := w.next + p.payload.length })).pump p.qpn) := by
  have hgood : ¬ (!w.slot || !(sprayFits c sh p.payload.length) || decide (sh.mlen ≠ w.len)) = true := by
    rw [hslot, hfit, decide_eq_false (not_not.mpr hlen)]
    exact Bool.false_ne_true
  intro k
  refine ⟨fun hheld => ?_, fun hnew hroom => ?_⟩
  · rw [State.sprayRespPkt, h]
    dsimp only
    rw [if_neg hgood, if_pos hheld]
  · rw [State.sprayRespPkt, h]
    dsimp only
    rw [if_neg hgood, if_neg (ne_true_of_eq_false hnew), if_neg (holdsFull_not hroom)]

/-- An acknowledgement of a WRITE ends it. -/
theorem sprayAck_write (h : c.wqeMsg sh.msg false = some w) : s.sprayAckPkt p sh c = (s.endWqe p.qpn w.op 0).pump p.qpn := by
  rw [State.sprayAckPkt, h]

/-- An acknowledgement without a WRITE frees the record of its READ. -/
theorem sprayAck_read (h : c.wqeMsg sh.msg false = none) :
    s.sprayAckPkt p sh c = if (c.read? sh.msg).isSome then (s.freeRead p.qpn sh.msg).modCtx p.qpn (fun e => e.finishMsg sh.msg) else s := by
  rw [State.sprayAckPkt, h]

/-- A SACK of a WRITE asks for its missing packets. -/
theorem spraySack_write (h : c.wqeMsg sh.msg false = some w) (hn : min (sh.span * pmtuBytes c.pmtu) (w.len - sh.offset) ≠ 0) :
    s.sprayMissing p sh c = s.readPayload p.qpn c w sh.offset (min (sh.span * pmtuBytes c.pmtu) (w.len - sh.offset)) 1 := by
  rw [State.sprayMissing, h]
  dsimp only
  rw [if_neg hn]

/-- A SACK of neither is ignored. -/
theorem spraySack_none (h : c.wqeMsg sh.msg false = none) (hr : c.read? sh.msg = none) : s.sprayMissing p sh c = s := by
  rw [State.sprayMissing, h, hr]

/-- A SACK of an answered READ has its missing bytes read again, once its access has been checked again. -/
theorem spraySack_read {r : ReadRec} (h : c.wqeMsg sh.msg false = none) (hr : c.read? sh.msg = some r) : let n := min (sh.span * pmtuBytes c.pmtu) (r.len - sh.offset)
    s.sprayMissing p sh c = if n = 0 then s
      else if !(s.regOk c r.rkey (r.va + sh.offset) n false) then s.nakError p.qpn 0x62 sh.msg sh.msg r.len
      else (s.inflight (r.rkey.toNat / 256) (· + 1)).startRead c.fn p.inst ((s.gen c.inst).getD 0) (.responder p.qpn (r.rkey.toNat / 256) sh.msg sh.offset 1)
        [(r.va + sh.offset, n)] := by
  intro n
  rw [State.sprayMissing, h]
  dsimp only
  rw [hr]

end SprayRequester

/-! ### Admitted packets -/

section SprayRows

variable {s : State} {p : RdmaPkt} {sh : SprayHdr} {c : Ctx}

theorem sprayWrite_runs (h : Claims.Admitted s p c true) (hmode : c.spray = true) :
    exec (.sprayWrite p sh) s = .next ((Claims.requestIn s p c).sprayWritePkt p sh (Claims.routed s p c)) := by
  rw [sprayWrite_row, request_runs h hmode]

theorem sprayReadReq_runs (h : Claims.Admitted s p c true) (hmode : c.spray = true) :
    exec (.sprayReadReq p sh) s = .next ((Claims.requestIn s p c).sprayReadPkt p sh (Claims.routed s p c)) := by
  rw [sprayReadReq_row, request_runs h hmode]

theorem sprayReadResp_runs (h : Claims.Admitted s p c false) (hmode : c.spray = true) :
    exec (.sprayReadResp p sh) s = .next ((Claims.responseIn s p).sprayRespPkt p sh c) := by
  rw [sprayReadResp_row, response_runs h hmode]

theorem sprayAck_runs (h : Claims.Admitted s p c false) (hmode : c.spray = true) : exec (.sprayAck p sh) s = .next ((Claims.responseIn s p).sprayAckPkt p sh c) := by
  rw [sprayAck_row, response_runs h hmode]

theorem spraySack_runs (h : Claims.Admitted s p c false) (hmode : c.spray = true) : exec (.spraySack p sh) s = .next ((Claims.responseIn s p).sprayMissing p sh c) := by
  rw [spraySack_row, response_runs h hmode]

theorem sprayNak_runs (h : Claims.Admitted s p c false) (hmode : c.spray = true) : exec (.sprayNak p sh) s = .next ((Claims.responseIn s p).sprayNakPkt p sh c) := by
  rw [sprayNak_row, response_runs h hmode]

end SprayRows

/-- Settles O39: an admitted packet of a spray context runs its row's body, whose cases are the clauses. -/
theorem sprayPacketsAct : Obligations.SprayPacketsAct := by
  unfold Obligations.SprayPacketsAct
  intro s p sh c hmode
  refine ⟨fun hadm => ?_, fun hadm => ?_⟩
  · intro u d nak
    rw [sprayWrite_runs hadm hmode, sprayReadReq_runs hadm hmode]
    refine ⟨fun habove => ⟨congrArg Host.Outcome.next (sprayWrite_above (c := d) habove), congrArg Host.Outcome.next (sprayRead_outside (c := d) ?_)⟩,
      fun hdone => ⟨congrArg Host.Outcome.next (sprayWrite_done (c := d) hdone), congrArg Host.Outcome.next (sprayRead_outside (c := d) ?_)⟩,
      fun hin hnew => ⟨fun hbad => congrArg Host.Outcome.next (sprayWrite_misfit (c := d) hin (holdsPacket_false (c := d) hnew) hbad), fun hfit hlen hslot =>
        ⟨fun hreg => congrArg Host.Outcome.next (sprayWrite_denied (c := d) hin (holdsPacket_false (c := d) hnew) hfit hlen hslot hreg), fun hreg => ?_⟩⟩,
      fun r hin hr hbit => congrArg Host.Outcome.next (sprayWrite_held (c := d) hin hr hbit),
      fun hin hnew hoff hlow hhigh hlen hload hroom => ?_⟩
    · exact fun hin => Window.noConfusion (habove.symm.trans hin)
    · exact fun hin => Window.noConfusion (hdone.symm.trans hin)
    · obtain ⟨hfull, hplaced⟩ := sprayWrite_placed (s := u) (c := d) hin (holdsPacket_false (c := d) hnew) hfit hlen hslot hreg
      exact ⟨fun hnone hmany => congrArg Host.Outcome.next (hfull hnone hmany), fun hroom =>
        ⟨fun hput => congrArg Host.Outcome.next ((hplaced hroom).1 hput), fun v hput => congrArg Host.Outcome.next ((hplaced hroom).2 v hput)⟩⟩
    · obtain ⟨hdenied, hserved⟩ := sprayRead_inside (s := u) (c := d) hin hnew hoff hlow hhigh hlen hload hroom
      exact ⟨fun hreg => congrArg Host.Outcome.next (hdenied hreg), fun hreg =>
        ⟨fun v hv => congrArg Host.Outcome.next ((hserved hreg).1 v hv), fun hnone => congrArg Host.Outcome.next ((hserved hreg).2 hnone)⟩⟩
  · intro u
    rw [sprayReadResp_runs hadm hmode, sprayAck_runs hadm hmode, spraySack_runs hadm hmode, sprayNak_runs hadm hmode]
    refine ⟨fun hnone => congrArg Host.Outcome.next (sprayResp_none hnone), fun w hw hslot hfit hlen => ?_,
      fun w hw => ⟨congrArg Host.Outcome.next (sprayAck_write hw), fun hn => congrArg Host.Outcome.next (spraySack_write hw hn)⟩,
      fun hw hr => ⟨congrArg Host.Outcome.next ((sprayAck_read hw).trans (if_neg ?_)), congrArg Host.Outcome.next (spraySack_none hw hr)⟩,
      fun r hw hr => congrArg Host.Outcome.next ((sprayAck_read hw).trans (if_pos ?_)), fun r hw hr => ?_, rfl⟩
    · obtain ⟨hheld, hnew⟩ := sprayResp_fits (s := u) hw hslot hfit hlen
      exact ⟨fun hbit => congrArg Host.Outcome.next (hheld hbit), fun hbit hroom => congrArg Host.Outcome.next (hnew hbit hroom)⟩
    · rw [hr]
      exact Bool.false_ne_true
    · rw [hr]
      rfl
    · rw [spraySack_read hw hr]
      refine ⟨fun hzero => congrArg Host.Outcome.next (if_pos hzero), fun hsome hreg => congrArg Host.Outcome.next ((if_neg hsome).trans (if_pos ?_)),
        fun hsome hreg => congrArg Host.Outcome.next ((if_neg hsome).trans (if_neg ?_))⟩
      · rw [hreg]
        rfl
      · rw [hreg]
        exact Bool.false_ne_true

end Sys2Proof.Machine
end

section
/-!
SUPPORT. The transport's timers, context fills and counter records (R338, R340, R343 to R345, R350, R351, R372): the theorem that settles O40.
-/

namespace Sys2Proof.Machine

open Sys2Proof

set_option Elab.async false

/-! ### A context that does not exist -/

section NoContext

variable {s : State} {q : Nat}

theorem ackTimeout_noCtx (h : s.ctx q = none) : exec (.ackTimeout q) s = .next s := by
  show (Host.Outcome.next (s.ackTimeoutOf q) : Answer) = _
  rw [State.ackTimeoutOf, h]

theorem sprayTimeout_noCtx (h : s.ctx q = none) (m : Nat) : exec (.sprayMessageTimeout q m) s = .next s := by
  show (Host.Outcome.next (s.sprayTimeoutOf q m) : Answer) = _
  rw [State.sprayTimeoutOf, h]

theorem reassembly_noCtx (h : s.ctx q = none) (m : Nat) : exec (.reassemblyLimit q m) s = .next s := by
  show (Host.Outcome.next (s.reassemblyOf q m) : Answer) = _
  rw [State.reassemblyOf, h]

theorem readRecord_noCtx (h : s.ctx q = none) (n : Nat) : exec (.readRecordTimeout q n) s = .next s := by
  show (Host.Outcome.next (s.readRecordOf q n) : Answer) = _
  rw [State.readRecordOf, h]

theorem contextFill_noCtx (h : s.ctx q = none) (b : List Byte) (f : Option LookupFail) : exec (.contextFill q b f) s = .next s := by
  show (Host.Outcome.next (s.fillDone q b f) : Answer) = _
  rw [State.fillDone, h]

end NoContext

/-! ### ACK_TIMEOUT and SPRAY_MESSAGE_TIMEOUT (R340, R343) -/

section Timeouts

variable {s : State} {q : Nat} {c : Ctx}

/-- Before its time ACK_TIMEOUT changes nothing. -/
theorem ackTimeout_early (hc : s.ctx q = some c) (h : c.state ≠ 3 ∨ c.spray = true ∨ s.time.tick < c.lastAckTick + c.ackTimeout) : exec (.ackTimeout q) s = .next s := by
  show (Host.Outcome.next (s.ackTimeoutOf q) : Answer) = _
  rw [State.ackTimeoutOf, hc]
  dsimp only
  rw [if_pos h]

/-- At its time everything unacknowledged is sent again, or the oldest work request ends. -/
theorem ackTimeout_due {w : Wqe} (hc : s.ctx q = some c) (hstate : c.state = 3) (hmode : c.spray = false) (hdue : c.lastAckTick + c.ackTimeout ≤ s.time.tick)
    (hcached : c.cached = true) (hw : c.wqes.find? (fun x => x.sent) = some w) : exec (.ackTimeout q) s =
    .next (if c.retriesLeft = 0 then ((s.touchCtx q).rdmaCount c.inst 11 1).endWqe q w.op 3
      else (((s.touchCtx q).rdmaCount c.inst 11 1).modCtx q (fun e => { e with retriesLeft := e.retriesLeft - 1 })).resendFrom q c.sqUna) := by
  have hgo : ¬ (c.state ≠ 3 ∨ c.spray = true ∨ s.time.tick < c.lastAckTick + c.ackTimeout) := by
    rintro (hne | hspray | hearly)
    · exact hne hstate
    · exact Bool.false_ne_true (hmode.symm.trans hspray)
    · exact Nat.not_lt.mpr hdue hearly
  have hline : ¬ (!c.cached) = true := by rw [hcached]; exact Bool.false_ne_true
  show (Host.Outcome.next (s.ackTimeoutOf q) : Answer) = _
  rw [State.ackTimeoutOf, hc]
  dsimp only
  rw [if_neg hgo, hw]
  dsimp only
  rw [if_neg hline]

/-- SPRAY_MESSAGE_TIMEOUT of a message that is outstanding, by its time and its retries. -/
theorem sprayTimeout_eq {m : Nat} {w : Wqe} (hc : s.ctx q = some c) (hw : c.wqes.find? (fun x => x.sent && decide (x.msg = m)) = some w) (hstate : c.state = 3)
    (hmode : c.spray = true) (hcached : c.cached = true) : exec (.sprayMessageTimeout q m) s =
    .next (if s.time.tick < w.lastSent + c.ackTimeout then s
      else if c.retry ≤ w.retries then ((s.touchCtx q).rdmaCount c.inst 11 1).endWqe q w.op 3
      else
        let x := { w with retries := w.retries + 1, lastSent := s.time.tick }
        if w.isRead then (((s.touchCtx q).rdmaCount c.inst 11 1).setWqe q x).sendReadReq q c x true
        else (((s.touchCtx q).rdmaCount c.inst 11 1).setWqe q x).readPayload q c x 0 w.len 2) := by
  have hline : ¬ (!c.cached) = true := by rw [hcached]; exact Bool.false_ne_true
  have hiff : (c.state ≠ 3 ∨ c.spray = false ∨ s.time.tick < w.lastSent + c.ackTimeout) ↔ s.time.tick < w.lastSent + c.ackTimeout := by
    simp [hstate, hmode]
  show (Host.Outcome.next (s.sprayTimeoutOf q m) : Answer) = _
  rw [State.sprayTimeoutOf, hc]
  dsimp only
  rw [hw]
  dsimp only
  rw [if_neg hline]
  exact congrArg Host.Outcome.next (if_congr hiff rfl rfl)

end Timeouts

/-! ### REASSEMBLY_LIMIT and READ_RECORD_TIMEOUT (R344, R345) -/

section Reassembly

variable {s : State} {q m : Nat} {c : Ctx}

/-- A responder's slot whose time has passed. -/
theorem reassembly_slot {r : Reasm} (hc : s.ctx q = some c) (hr : c.reasms.find? (fun x => decide (x.msg = m) && decide (x.since + c.reasm ≤ s.time.tick)) = some r) :
    let rest := c.reasms.filter (fun x => decide (x.msg ≠ m))
    exec (.reassemblyLimit q m) s = .next (if c.retry + 1 ≤ r.rounds then (s.setCtx q (some { c with reasms := rest })).rdmaCount c.inst 14 1
      else (s.setCtx q (some { c with reasms := rest ++ [{ r with rounds := r.rounds + 1, since := s.time.tick }] })).sendSacks q c m r.mlen r.bitmap) := by
  intro rest
  show (Host.Outcome.next (s.reassemblyOf q m) : Answer) = _
  rw [State.reassemblyOf, hc]
  dsimp only
  rw [hr]

/-- A requester's slot whose time has passed. -/
theorem reassembly_wqe {w : Wqe} (hc : s.ctx q = some c) (hr : c.reasms.find? (fun x => decide (x.msg = m) && decide (x.since + c.reasm ≤ s.time.tick)) = none)
    (hw : c.wqes.find? (fun x => x.slot && decide (x.msg = m) && decide (x.slotTick + c.reasm ≤ s.time.tick)) = some w) :
    exec (.reassemblyLimit q m) s = .next (if w.rounds < c.retry + 1 then (s.setWqe q { w with rounds := w.rounds + 1, slotTick := s.time.tick }).sendSacks q c m w.len w.bitmap
      else if c.retry ≤ w.retries then (s.rdmaCount c.inst 14 1).endWqe q w.op 3
      else
        let x := { w with retries := w.retries + 1, rounds := 0, slotTick := s.time.tick, lastSent := s.time.tick, next := 0, bitmap := List.replicate w.bitmap.length false }
        ((s.rdmaCount c.inst 14 1).setWqe q x).sendReadReq q c x true) := by
  show (Host.Outcome.next (s.reassemblyOf q m) : Answer) = _
  rw [State.reassemblyOf, hc]
  dsimp only
  rw [hr]
  dsimp only
  rw [hw]

/-- READ_RECORD_TIMEOUT of a record (R344). -/
theorem readRecord_eq {n : Nat} {r : ReadRec} (hc : s.ctx q = some c) (hr : c.reads[n]? = some r) : exec (.readRecordTimeout q n) s =
    .next (if (c.spray && decide (0 < r.sent) && decide (r.lastTick + c.ackTimeout ≤ s.time.tick)) = true then (s.freeRead q r.psn).modCtx q (fun e => e.finishMsg r.psn) else s) := by
  show (Host.Outcome.next (s.readRecordOf q n) : Answer) = _
  rw [State.readRecordOf, hc]
  dsimp only
  rw [hr]

/-- When a READ record is freed. -/
theorem readRecord_due (s : State) (c : Ctx) (r : ReadRec) : (c.spray && decide (0 < r.sent) && decide (r.lastTick + c.ackTimeout ≤ s.time.tick)) = true ↔
    c.spray = true ∧ 0 < r.sent ∧ r.lastTick + c.ackTimeout ≤ s.time.tick := by
  simp only [Bool.and_eq_true, decide_eq_true_eq, and_assoc]

end Reassembly

/-! ### CONTEXT_FILL (R338, R372) -/

section Fill

variable {s : State} {q : Nat} {c : Ctx} {b : List Byte} {f : Option LookupFail}

/-- A context that is not being filled, or a function whose requests are held. -/
theorem contextFill_none (hc : s.ctx q = some c) (h : c.filling = false ∨ s.holds 1 = true) : exec (.contextFill q b f) s = .next s := by
  have hstop : (!c.filling || s.holds 1) = true := by
    rw [Bool.or_eq_true, Bool.not_eq_true']
    exact h
  show (Host.Outcome.next (s.fillDone q b f) : Answer) = _
  rw [State.fillDone, hc]
  dsimp only
  rw [if_pos hstop]

/-- What a fill's data do, by the read of the spill index and the record's check. -/
theorem contextFill_eq (hc : s.ctx q = some c) (hfill : c.filling = true) (hgo : s.holds 1 = false) :
    let e := { c with filling := false, cached := true, filled := b }
    let u := (s.indexRead q f).2
    let d := ctxOfBytes e b
    exec (.contextFill q b f) s = .next (if ((s.indexRead q f).1.isSome && ctxBytesOk q c.slotNo b) = true then
        (((u.setCtx q (some (if c.state = 4 then { d with state := 4, errStatus := c.errStatus } else d))).touchCtx q).replayMisses q true).retryFills
      else ((if (s.indexRead q f).1.isSome then ((u.setCtx q (some e)).errorCtx q 0x0E).log 0x0804 q c.slotNo else (u.setCtx q (some e)).errorCtx q 0x0E).replayMisses q false).retryFills) := by
  have hgoes : ¬ (!c.filling || s.holds 1) = true := by rw [hfill, hgo]; exact Bool.false_ne_true
  intro e u d
  show (Host.Outcome.next (s.fillDone q b f) : Answer) = _
  rw [State.fillDone, hc]
  dsimp only
  rw [if_neg hgoes]

/-- The three ends of a fill. -/
theorem contextFill_cases (hc : s.ctx q = some c) (hfill : c.filling = true) (hgo : s.holds 1 = false) :
    let e := { c with filling := false, cached := true, filled := b }
    let u := (s.indexRead q f).2
    ((s.indexRead q f).1 = none → exec (.contextFill q b f) s = .next (((u.setCtx q (some e)).errorCtx q 0x0E).replayMisses q false).retryFills) ∧
    ((s.indexRead q f).1 ≠ none → ctxBytesOk q c.slotNo b = false → exec (.contextFill q b f) s = .next ((((u.setCtx q (some e)).errorCtx q 0x0E).log 0x0804 q c.slotNo).replayMisses q false).retryFills) ∧
    ((s.indexRead q f).1 ≠ none → ctxBytesOk q c.slotNo b = true → let d := ctxOfBytes e b
      exec (.contextFill q b f) s = .next (((u.setCtx q (some (if c.state = 4 then { d with state := 4, errStatus := c.errStatus } else d))).touchCtx q).replayMisses q true).retryFills) := by
  have hfilled := contextFill_eq (b := b) (f := f) hc hfill hgo
  refine ⟨fun hfail => ?_, fun hread hbad => ?_, fun hread hgood => ?_⟩
  · rw [hfilled, show (s.indexRead q f).1.isSome = false by rw [hfail]; rfl, Bool.false_and, if_neg Bool.false_ne_true, if_neg Bool.false_ne_true]
  · rw [hfilled, Option.isSome_iff_ne_none.mpr hread, hbad, Bool.and_false, if_neg Bool.false_ne_true, if_pos rfl]
  · rw [hfilled, Option.isSome_iff_ne_none.mpr hread, hgood, Bool.and_true, if_pos rfl]

end Fill

/-! ### RDMA_COUNTERS (R351) -/

/-- The state once a counter's value has been recorded. -/
def State.recordedCounter (s : State) (k v : Nat) : State :=
  { s.log 0x0E01 (k / 32 * 65536 + k % 32) v with rdma := { s.rdma with logged := FMap.set 0 s.rdma.logged k v } }

/-- The record of one counter, when it has changed. -/
def State.recordCounter (s : State) (e : Nat × Nat) : State := if FMap.get 0 s.rdma.logged e.1 = e.2 then s else s.recordedCounter e.1 e.2

/-- RDMA_COUNTERS records the counters in turn. -/
theorem rdmaCounters_eq (s : State) : exec .rdmaCounters s = .next (s.rdma.counters.foldl State.recordCounter s) := rfl

/-- Counters that have not changed since their records leave the state. -/
theorem recordCounters_same {s : State} {l : List (Nat × Nat)} (h : ∀ e ∈ l, FMap.get 0 s.rdma.logged e.1 = e.2) : l.foldl State.recordCounter s = s := by
  induction l with
  | nil => rfl
  | cons e l ih =>
    rw [List.foldl_cons, State.recordCounter, if_pos (h e List.mem_cons_self)]
    exact ih (fun x hx => h x (List.mem_cons_of_mem e hx))

/-- Settles O40: each timer by its context, its time and its retries; a fill by its check; the counters in turn. -/
theorem rdmaTimersAct : Obligations.RdmaTimersAct := by
  unfold Obligations.RdmaTimersAct
  refine fun s q => ⟨fun hc => ⟨ackTimeout_noCtx hc, sprayTimeout_noCtx hc, reassembly_noCtx hc, readRecord_noCtx hc, contextFill_noCtx hc⟩,
    fun c hc => ⟨ackTimeout_early hc, fun w hstate hmode hdue hcached hw => ?_, fun m w hw hstate hmode hcached => ?_, fun m r hr => ?_, fun n r hr => ?_,
      fun m w hr hw => ?_, fun b f => ⟨contextFill_none hc, contextFill_cases hc⟩⟩, fun k v hcounters hv hne => ?_, fun hsame => ?_⟩
  · rw [ackTimeout_due hc hstate hmode hdue hcached hw]
    exact ⟨fun hzero => congrArg Host.Outcome.next (if_pos hzero), fun hsome => congrArg Host.Outcome.next (if_neg hsome)⟩
  · rw [sprayTimeout_eq hc hw hstate hmode hcached]
    exact ⟨fun hearly => congrArg Host.Outcome.next (if_pos hearly), fun hdue =>
      ⟨fun hspent => congrArg Host.Outcome.next ((if_neg (Nat.not_lt.mpr hdue)).trans (if_pos hspent)),
        fun hmore => congrArg Host.Outcome.next ((if_neg (Nat.not_lt.mpr hdue)).trans (if_neg (Nat.not_le.mpr hmore)))⟩⟩
  · rw [reassembly_slot hc hr]
    exact ⟨fun hspent => congrArg Host.Outcome.next (if_pos hspent), fun hmore => congrArg Host.Outcome.next (if_neg (Nat.not_le.mpr hmore))⟩
  · rw [readRecord_eq hc hr]
    refine ⟨fun hmode hsent hdue => congrArg Host.Outcome.next (if_pos ((readRecord_due s c r).mpr ⟨hmode, hsent, hdue⟩)),
      fun hno => congrArg Host.Outcome.next (if_neg (fun hyes => ?_))⟩
    obtain ⟨hmode, hsent, hdue⟩ := (readRecord_due s c r).mp hyes
    rcases hno with hstd | hzero | hearly
    · exact Bool.false_ne_true (hstd.symm.trans hmode)
    · exact Nat.ne_of_gt hsent hzero
    · exact Nat.not_le.mpr hearly hdue
  · rw [reassembly_wqe hc hr hw]
    exact ⟨fun hmore => congrArg Host.Outcome.next (if_pos hmore),
      fun hspent hlast => congrArg Host.Outcome.next ((if_neg (Nat.not_lt.mpr hspent)).trans (if_pos hlast)),
      fun hspent hagain => congrArg Host.Outcome.next ((if_neg (Nat.not_lt.mpr hspent)).trans (if_neg (Nat.not_le.mpr hagain)))⟩
  · refine ⟨s.recordedCounter k v, ?_, FMap.get_set_of_ne 0 s.rdma.logged k v hv, rfl⟩
    rw [rdmaCounters_eq, hcounters]
    exact congrArg Host.Outcome.next (if_neg hne)
  · rw [rdmaCounters_eq, recordCounters_same hsame]

end Sys2Proof.Machine
end

section
/-!
SUPPORT. The accelerators: the request at the head of a queue, its checks, its output and its result (R354 to R363): the theorem that settles O41.
-/

namespace Sys2Proof.Machine

open Sys2Proof

set_option Elab.async false

/-! ### Serving a queue and its output -/

section Serving

variable {s u : State} {unit op : Nat} {r : PostReq}

/-- The head request of an OP is taken (R354). -/
theorem serveAccel_pops {act : PostReq → State → State} (h : Claims.Pops s unit op r u) : s.serveAccel unit op act = act r u := by
  obtain ⟨a, rest, hq, hready, hreq, hop, hu⟩ := h
  have hgo : (a.ready && decide (aOp a.req = op)) = true := by
    rw [hready, hreq, decide_eq_true (show aOp r = op from hop)]
    rfl
  rw [State.serveAccel, hq]
  dsimp only
  rw [if_pos hgo, hreq, hu]

/-- Without one the unit does nothing. -/
theorem serveAccel_idle {act : PostReq → State → State} (h : Claims.Idle s unit op) : s.serveAccel unit op act = s := by
  rw [State.serveAccel]
  cases hq : s.accel.queues.getD unit [] with
  | nil => rfl
  | cons a rest =>
    have hno : ¬ (a.ready && decide (aOp a.req = op)) = true := by
      rw [Bool.and_eq_true, decide_eq_true_eq]
      exact fun hyes => h a rest hq hyes.1 hyes.2
    dsimp only
    rw [if_neg hno]

/-- A request that has passed its checks ends as its output and its context's check let it (R355, R363). -/
theorem accelOut_ends {e : Answer} {bad : Bool} {most ctx seq : Nat} {out : List Byte} {hdr : Byte} {go : State → State}
    (h : e = .next (u.accelOut unit r bad most out hdr ctx seq go)) : Claims.Ends e u unit r bad most out hdr ctx seq go := by
  subst h
  rw [Claims.Ends, State.accelOut, Claims.output]
  rcases u.alloc (16 + most) false (ownUnit (3 + unit)) with ⟨_ | buf, v⟩
  · exact ⟨fun _ => rfl, fun _ hv => Option.noConfusion rfl (heq_of_eq hv)⟩
  · refine ⟨fun hnone => Option.noConfusion rfl (heq_of_eq hnone), fun w hw => ?_⟩
    obtain rfl := Option.some.inj hw
    exact ⟨fun hbad => congrArg Host.Outcome.next (if_pos hbad), fun hgood => congrArg Host.Outcome.next (if_neg (ne_true_of_eq_false hgood))⟩

end Serving

/-! ### Crypto operations (R357 to R361, R363) -/

section Crypto

variable {s u : State} {unit op : Nat} {r : PostReq}

/-- Whether a data operation's block is well formed for its unit and its context (R359, R360). -/
def cryptoShaped (u : State) (unit op : Nat) (r : PostReq) : Prop :=
  cryptoReserved r.block = true ∧ aCtx r / 32768 = unit ∧ u.aInput r = true ∧ opMost op (aLen r) (u.keyCtx (aCtx r)) ≤ 65504

/-- The first status of R363, BAD_DESCRIPTOR. -/
theorem cryptoBad_iff (u : State) (unit op : Nat) (r : PostReq) :
    (!cryptoReserved r.block || decide (aCtx r / 32768 ≠ unit) || !u.aInput r || decide (65504 < opMost op (aLen r) (u.keyCtx (aCtx r))) ||
      (decide ((u.keyCtx (aCtx r)).state ≠ 0) && decide ((u.keyCtx (aCtx r)).mode ≠ opMode op))) = true ↔
      ¬ cryptoShaped u unit op r ∨ ((u.keyCtx (aCtx r)).state ≠ 0 ∧ (u.keyCtx (aCtx r)).mode ≠ opMode op) := by
  simp only [Bool.or_eq_true, Bool.and_eq_true, Bool.not_eq_true', decide_eq_true_eq, cryptoShaped, not_and_or, not_le, Bool.not_eq_true, or_assoc]

/-- A malformed operation, or one of another MODE. -/
theorem cryptoOp_malformed (h : ¬ cryptoShaped u unit op r ∨ ((u.keyCtx (aCtx r)).state ≠ 0 ∧ (u.keyCtx (aCtx r)).mode ≠ opMode op)) :
    u.cryptoOp unit op r = cFail (u.keyCtx (aCtx r)) 0x0A := by
  rw [State.cryptoOp, if_pos ((cryptoBad_iff u unit op r).mpr h)]

/-- A well-formed one is judged by the context's state and instance. -/
theorem cryptoOp_shaped (h : cryptoShaped u unit op r) (hmode : (u.keyCtx (aCtx r)).state = 0 ∨ (u.keyCtx (aCtx r)).mode = opMode op) :
    u.cryptoOp unit op r = if (u.keyCtx (aCtx r)).state = 0 ∨ (u.keyCtx (aCtx r)).state = 2 then cFail (u.keyCtx (aCtx r)) 0x0D
      else if !mayUse r.inst (u.keyCtx (aCtx r)) false then cFail (u.keyCtx (aCtx r)) 0x08
      else if (u.keyCtx (aCtx r)).state = 3 then cFail (u.keyCtx (aCtx r)) 0x0F
      else cryptoRun op r (u.keyCtx (aCtx r)) (u.aBytes r) := by
  have hgood : ¬ (!cryptoReserved r.block || decide (aCtx r / 32768 ≠ unit) || !u.aInput r || decide (65504 < opMost op (aLen r) (u.keyCtx (aCtx r))) ||
      (decide ((u.keyCtx (aCtx r)).state ≠ 0) && decide ((u.keyCtx (aCtx r)).mode ≠ opMode op))) = true := fun hbad =>
    ((cryptoBad_iff u unit op r).mp hbad).elim (fun hno => hno h) (fun hno => hmode.elim hno.1 hno.2)
  rw [State.cryptoOp, if_neg hgood]

/-- Who may use a context that is loaded (R358). -/
theorem mayUse_iff (i : Half) (c : KeyCtx) : mayUse i c false = true ↔ i = 0xFFFF ∨ c.inst = i := by
  simp only [mayUse, Bool.false_and, Bool.or_false, Bool.or_eq_true, decide_eq_true_eq]
  exact Iff.rfl

/-- A context that is FREE or EXHAUSTED. -/
theorem cryptoOp_revoked (h : cryptoShaped u unit op r)
    (hst : (u.keyCtx (aCtx r)).state = 0 ∨ ((u.keyCtx (aCtx r)).state = 2 ∧ (u.keyCtx (aCtx r)).mode = opMode op)) :
    u.cryptoOp unit op r = cFail (u.keyCtx (aCtx r)) 0x0D := by
  rw [cryptoOp_shaped h (hst.imp id And.right), if_pos (hst.imp id And.left)]

/-- A context of another instance. -/
theorem cryptoOp_denied (h : cryptoShaped u unit op r) (hmode : (u.keyCtx (aCtx r)).mode = opMode op)
    (hst : (u.keyCtx (aCtx r)).state = 1 ∨ (u.keyCtx (aCtx r)).state = 3) (hinst : r.inst ≠ 0xFFFF) (hne : (u.keyCtx (aCtx r)).inst ≠ r.inst) :
    u.cryptoOp unit op r = cFail (u.keyCtx (aCtx r)) 0x08 := by
  have hno : (!mayUse r.inst (u.keyCtx (aCtx r)) false) = true := by
    rw [Bool.not_eq_true', Bool.eq_false_iff, Ne, mayUse_iff]
    exact fun hyes => hyes.elim hinst hne
  rw [cryptoOp_shaped h (.inr hmode), if_neg (by omega), if_pos hno]

/-- A context that the item may use is judged by its state alone. -/
theorem cryptoOp_allowed (h : cryptoShaped u unit op r) (hmode : (u.keyCtx (aCtx r)).mode = opMode op)
    (hinst : r.inst = 0xFFFF ∨ (u.keyCtx (aCtx r)).inst = r.inst) :
    ((u.keyCtx (aCtx r)).state = 3 → u.cryptoOp unit op r = cFail (u.keyCtx (aCtx r)) 0x0F) ∧
    ((u.keyCtx (aCtx r)).state = 1 → u.cryptoOp unit op r = cryptoRun op r (u.keyCtx (aCtx r)) (u.aBytes r)) := by
  have hyes : ¬ (!mayUse r.inst (u.keyCtx (aCtx r)) false) = true := by
    rw [(mayUse_iff r.inst (u.keyCtx (aCtx r))).mpr hinst]
    exact Bool.false_ne_true
  refine ⟨fun hst => ?_, fun hst => ?_⟩
  · rw [cryptoOp_shaped h (.inr hmode), if_neg (by omega), if_neg hyes, if_pos hst]
  · rw [cryptoOp_shaped h (.inr hmode), if_neg (by omega), if_neg hyes, if_neg (by omega)]

/-- An operation that fails leaves its context as its end says (R363). -/
theorem cryptoReq_fails {b : Bool} {c : KeyCtx} {st : Byte} (h : (u.cryptoOp unit op r).ctx = c) (hst : (u.cryptoOp unit op r).status = st) (hne : st ≠ 0) :
    u.cryptoReq unit op b r = (u.setKey (aCtx r) c).accelFail unit r st := by
  subst h hst
  exact if_pos hne

/-- One that succeeds has its output. -/
theorem cryptoReq_ends {e : Answer} {b : Bool} {x : CryptoEnd} (hop : u.cryptoOp unit op r = x) (hst : x.status = 0) (he : e = .next (u.cryptoReq unit op b r)) :
    Claims.Ends e u unit r b (opMost op (aLen r) x.ctx) x.out x.hdr (aCtx r) x.seq (fun v =>
      let t := (v.setKey (aCtx r) x.ctx).dropInput unit r
      if (op = 0x10 ∨ op = 0x12 ∨ op = 0x14) ∧ x.ctx.last + 1 - x.ctx.next = 2 ^ 20 then t.log 0x0A04 (aCtx r) 0 else t) := by
  subst hop
  exact accelOut_ends (he.trans (congrArg Host.Outcome.next (if_neg (not_not.mpr hst))))

end Crypto

/-- Every data operation serves its unit's queue with its MODE and its function (R360). -/
theorem cryptoRow_runs (s : State) {k b : Bool} {r : PostReq} {q : Instr × Nat × Nat × (KeyCtx → List Byte → CryptoEnd)} (h : Claims.CryptoRow k b r q) :
    exec q.1 s = .next (s.serveAccel (if k then 1 else 0) q.2.1 (fun r s => s.cryptoReq (if k then 1 else 0) q.2.1 b r)) ∧ opMode q.2.1 = q.2.2.1 ∧
      ∀ c i, cryptoRun q.2.1 r c i = q.2.2.2 c i := by
  simp only [Claims.CryptoRow, List.mem_cons, List.not_mem_nil, or_false] at h
  rcases h with rfl | rfl | rfl | rfl | rfl | rfl | rfl | rfl
  all_goals exact ⟨rfl, rfl, fun _ _ => rfl⟩

/-! ### The other requests and results -/

section Requests

variable {u : State} {unit : Nat} {r : PostReq} {b : Bool}

/-- KEY_LOAD of a well-formed record (R358). -/
theorem keyLoadReq_eq (u : State) (unit : Nat) (b : Bool) (r : PostReq) : u.keyLoadReq unit b r =
    if ¬ (cryptoReserved r.block = true ∧ aCtx r / 32768 = unit ∧ u.aInput r = true ∧ aLen r = 64 ∧ recordOk (u.aBytes r) = true) then u.accelFail unit r 0x0A
    else if mayUse r.inst (u.keyCtx (aCtx r)) true = false then u.accelFail unit r 0x08
    else u.accelOut unit r b 0 [] 0 (aCtx r) 0 (fun v =>
      ((v.setKey (aCtx r) (keyOfRecord (u.aBytes r) r.inst)).bufWrite (aHandle r) (aOff r) (zeros 64)).dropInput unit r) := by
  refine if_congr ?_ rfl (if_congr (by rw [Bool.not_eq_true']) rfl rfl)
  simp only [Bool.or_eq_true, Bool.not_eq_true', decide_eq_true_eq, not_and_or, Bool.not_eq_true, or_assoc]

/-- KEY_CLEAR (R358). -/
theorem keyClearReq_eq (u : State) (unit : Nat) (b : Bool) (r : PostReq) : u.keyClearReq unit b r =
    if ¬ (cryptoReserved r.block = true ∧ aCtx r / 32768 = unit ∧ aHandle r = 0) then u.accelFail unit r 0x0A
    else if mayUse r.inst (u.keyCtx (aCtx r)) true = false then u.accelFail unit r 0x08
    else u.accelOut unit r b 0 [] 0 (aCtx r) 0 (fun v => v.setKey (aCtx r) KeyCtx.reset) := by
  refine if_congr ?_ rfl (if_congr (by rw [Bool.not_eq_true']) rfl rfl)
  simp only [Bool.or_eq_true, Bool.not_eq_true', decide_eq_true_eq, not_and_or, Bool.not_eq_true, or_assoc]

/-- COMPRESS (R362). -/
theorem compressReq_eq (u : State) (r : PostReq) : u.compressReq r =
    if ¬ (compressReserved r.block = true ∧ fieldLe r.block 5 1 ≤ 1 ∧ u.aInput r = true ∧ aLen r ≤ 65456) then u.accelFail 2 r 0x0A
    else u.accelOut 2 r false (aLen r + 48) ((Config.compressBytes (fieldLe r.block 5 1) (u.aBytes r)).take (aLen r + 48)) 0 0 0 (fun v => v.dropInput 2 r) := by
  refine if_congr ?_ rfl rfl
  simp only [Bool.or_eq_true, Bool.not_eq_true', decide_eq_true_eq, not_and_or, not_le, Bool.not_eq_true, or_assoc]

/-- A DECOMPRESS block's check (R362). -/
theorem decompressBad_iff (u : State) (r : PostReq) :
    (!compressReserved r.block || decide (1 < fieldLe r.block 5 1) || decide (aMax r = 0) || decide (65504 < aMax r) || !u.aInput r) = true ↔
      ¬ (compressReserved r.block = true ∧ fieldLe r.block 5 1 ≤ 1 ∧ 1 ≤ aMax r ∧ aMax r ≤ 65504 ∧ u.aInput r = true) := by
  simp only [Bool.or_eq_true, Bool.not_eq_true', decide_eq_true_eq, not_and_or, not_le, Bool.not_eq_true, or_assoc, Nat.lt_one_iff]

/-- DECOMPRESS of a malformed block (R362). -/
theorem decompress_malformed
    (h : ¬ (compressReserved r.block = true ∧ fieldLe r.block 5 1 ≤ 1 ∧ 1 ≤ aMax r ∧ aMax r ≤ 65504 ∧ u.aInput r = true)) : u.decompressReq r = u.accelFail 2 r 0x0A := by
  rw [State.decompressReq, if_pos ((decompressBad_iff u r).mpr h)]

/-- DECOMPRESS of a well-formed block, by what its data are (R362). -/
theorem decompress_shaped
    (h : compressReserved r.block = true ∧ fieldLe r.block 5 1 ≤ 1 ∧ 1 ≤ aMax r ∧ aMax r ≤ 65504 ∧ u.aInput r = true) :
    (Config.inflateBytes (fieldLe r.block 5 1) (u.aBytes r) = .invalid → u.decompressReq r = u.accelFail 2 r 0x0A) ∧
    (Config.inflateBytes (fieldLe r.block 5 1) (u.aBytes r) = .unsupported → u.decompressReq r = u.accelFail 2 r 0x0B) ∧
    (∀ out, Config.inflateBytes (fieldLe r.block 5 1) (u.aBytes r) = .ok out →
      u.decompressReq r = if aMax r < out.length then u.accelFail 2 r 0x09 else u.accelOut 2 r false (aMax r) out 0 0 0 (fun v => v.dropInput 2 r)) := by
  have hgood := fun hbad => (decompressBad_iff u r).mp hbad h
  refine ⟨fun hdata => ?_, fun hdata => ?_, fun out hdata => ?_⟩
  · rw [State.decompressReq, if_neg hgood, hdata]
  · rw [State.decompressReq, if_neg hgood, hdata]
  · rw [State.decompressReq, if_neg hgood, hdata]

end Requests

section Results

variable {s u : State} {m : Fin 3}

/-- With a finished request ACCELERATOR_RESULT records the oldest (R354 to R356). -/
theorem acceleratorResult_done {d : AccelDone} {rest : List AccelDone} (h : s.accel.done.getD m.val [] = d :: rest) :
    let u := { s with accel := { s.accel with done := modifyAt s.accel.done m.val (fun _ => rest) } }
    exec (.acceleratorResult m) s = .next (if d.handle = 0 then u.reply d.req 4 0 0 d.status
      else (u.swapOwner d.handle (ownUnit (3 + m.val)) ownRx).reply d.req 4 d.handle (16 + d.outLen) d.status) := by
  have hrow : exec (.acceleratorResult m) s = .next ((if (s.accel.done.getD m.val []).isEmpty = true then s.failUnknown m.val else s).recordResult m.val) := rfl
  have hsome : ¬ (s.accel.done.getD m.val []).isEmpty = true := by
    rw [h]
    exact Bool.false_ne_true
  rw [hrow, if_neg hsome, State.recordResult, h]

/-- Without one it ends a head request that its unit does not have. -/
theorem acceleratorResult_none (h : s.accel.done.getD m.val [] = []) : exec (.acceleratorResult m) s = .next ((s.failUnknown m.val).recordResult m.val) := by
  have hrow : exec (.acceleratorResult m) s = .next ((if (s.accel.done.getD m.val []).isEmpty = true then s.failUnknown m.val else s).recordResult m.val) := rfl
  have hnone : (s.accel.done.getD m.val []).isEmpty = true := by
    rw [h]
    rfl
  rw [hrow, if_pos hnone]

/-- Nothing finished is nothing to record. -/
theorem recordResult_none (h : s.accel.done.getD m.val [] = []) : s.recordResult m.val = s := by
  rw [State.recordResult, h]

/-- A head request of an OP that its unit does not have fails (R363). -/
theorem failUnknown_pops {r : PostReq} {op : Nat} (h : Claims.Pops s m.val op r u) :
    s.failUnknown m.val = if opKnown m.val op then s else u.accelFail m.val r 0x0A := by
  obtain ⟨a, rest, hq, hready, hreq, hop, hu⟩ := h
  have hop' : aOp a.req = op := hreq ▸ hop
  rw [State.failUnknown, hq]
  dsimp only
  rw [hop', hready, hreq, hu, Bool.not_true, Bool.or_false]

/-- A queue whose head is not ready has none. -/
theorem failUnknown_idle (h : ∀ op, Claims.Idle s m.val op) : s.failUnknown m.val = s := by
  rw [State.failUnknown]
  cases hq : s.accel.queues.getD m.val [] with
  | nil => rfl
  | cons a rest =>
    have hwait : a.ready = false := Bool.eq_false_iff.mpr (fun hready => h _ a rest hq hready rfl)
    dsimp only
    rw [hwait, Bool.not_false, Bool.or_true, if_pos rfl]

/-- A tick's budget makes the first requests ready and is spent on the next (R354). -/
theorem spendOn_split (budget : Nat) (done rest : List AccelReq) (x : AccelReq) (hsum : (done.map (fun y => y.left)).sum ≤ budget)
    (hmore : budget - (done.map (fun y => y.left)).sum < x.left) :
    spendOn budget (done ++ x :: rest) = done.map (fun y => { y with left := 0, ready := true }) ++ { x with left := x.left - (budget - (done.map (fun y => y.left)).sum) } :: rest := by
  induction done generalizing budget with
  | nil =>
    rw [List.map_nil, List.sum_nil, Nat.sub_zero] at hmore
    exact if_neg (Nat.not_le.mpr hmore)
  | cons y done ih =>
    rw [List.map_cons, List.sum_cons] at hsum hmore
    have hhead : y.left ≤ budget := Nat.le_trans (Nat.le_add_right _ _) hsum
    have hrest : (done.map (fun z => z.left)).sum ≤ budget - y.left := Nat.le_sub_of_add_le' hsum
    rw [← Nat.sub_sub] at hmore
    rw [List.cons_append, spendOn, if_pos hhead, ih (budget - y.left) hrest hmore, List.map_cons, List.map_cons, List.sum_cons, Nat.sub_sub]
    rfl

end Results

/-- Settles O41: the queue's head is served or not; its request by its checks in order; results and budgets by their equations. -/
theorem acceleratorsAnswer : Obligations.AcceleratorsAnswer := by
  unfold Obligations.AcceleratorsAnswer
  intro s k b n
  refine ⟨fun q hq hidle => ?_, fun r q hq hidle => ?_, fun r u q hq hpops => ?_, fun r u hpops => ?_, fun r u hpops => ?_, fun r u hpops => ?_, fun r u hpops => ?_,
    fun m hdone => ⟨fun r u op hpops => ?_, fun hidle => ?_⟩, spendOn_split, fun m d rest hdone => ?_⟩
  · simp only [List.mem_cons, List.not_mem_nil, or_false] at hq
    rcases hq with rfl | rfl | rfl | rfl
    all_goals exact congrArg Host.Outcome.next (serveAccel_idle hidle)
  · exact (cryptoRow_runs s hq).1.trans (congrArg Host.Outcome.next (serveAccel_idle hidle))
  · obtain ⟨hrow, hmode, hrun⟩ := cryptoRow_runs s hq
    rw [hrow, serveAccel_pops hpops, ← hmode]
    intro c fails shaped
    have hfail : ∀ st, st ≠ 0 → u.cryptoOp n q.2.1 r = cFail c st →
        (Host.Outcome.next (u.cryptoReq n q.2.1 b r) : Answer) = .next ((u.setKey (Claims.at r 8 2) c).accelFail n r st) := fun st hne hend =>
      congrArg Host.Outcome.next (cryptoReq_fails (by rw [hend]; rfl) (by rw [hend]; rfl) hne)
    refine ⟨fun hbad => hfail 0x0A (by decide) (cryptoOp_malformed (.inl hbad)), fun hshape hst hother => hfail 0x0A (by decide) (cryptoOp_malformed (.inr ⟨hst, hother⟩)),
      fun hshape hst => hfail 0x0D (by decide) (cryptoOp_revoked hshape hst),
      fun hshape hm hst hinst hne => hfail 0x08 (by decide) (cryptoOp_denied hshape hm hst hinst hne), fun hshape hm hinst => ?_⟩
    obtain ⟨hfailed, hloaded⟩ := cryptoOp_allowed hshape hm hinst
    refine ⟨fun hst => hfail 0x0F (by decide) (hfailed hst), fun hst => ?_⟩
    have hend : u.cryptoOp n q.2.1 r = q.2.2.2 c (u.aBytes r) := (hloaded hst).trans (hrun c (u.aBytes r))
    intro e
    exact ⟨fun hne => congrArg Host.Outcome.next (cryptoReq_fails (by rw [hend]) (by rw [hend]) hne), fun hok => cryptoReq_ends hend hok rfl⟩
  · have hrow : exec (.keyLoad k b) s = .next (u.keyLoadReq n b r) := congrArg Host.Outcome.next (serveAccel_pops hpops)
    rw [hrow, keyLoadReq_eq]
    intro bytes shaped
    refine ⟨fun hbad => congrArg Host.Outcome.next (if_pos hbad), fun hshape hno => congrArg Host.Outcome.next ((if_neg (not_not.mpr hshape)).trans (if_pos hno)),
      fun hshape hyes => accelOut_ends (congrArg Host.Outcome.next ((if_neg (not_not.mpr hshape)).trans (if_neg (Bool.not_eq_false _ ▸ hyes))))⟩
  · have hrow : exec (.keyClear k b) s = .next (u.keyClearReq n b r) := congrArg Host.Outcome.next (serveAccel_pops hpops)
    rw [hrow, keyClearReq_eq]
    intro shaped
    refine ⟨fun hbad => congrArg Host.Outcome.next (if_pos hbad), fun hshape hno => congrArg Host.Outcome.next ((if_neg (not_not.mpr hshape)).trans (if_pos hno)),
      fun hshape hyes => accelOut_ends (congrArg Host.Outcome.next ((if_neg (not_not.mpr hshape)).trans (if_neg (Bool.not_eq_false _ ▸ hyes))))⟩
  · have hrow : exec .compress s = .next (u.compressReq r) := congrArg Host.Outcome.next (serveAccel_pops hpops)
    rw [hrow, compressReq_eq]
    intro f shaped
    exact ⟨fun hbad => congrArg Host.Outcome.next (if_pos hbad), fun hshape => accelOut_ends (congrArg Host.Outcome.next (if_neg (not_not.mpr hshape)))⟩
  · have hrow : exec .decompress s = .next (u.decompressReq r) := congrArg Host.Outcome.next (serveAccel_pops hpops)
    rw [hrow]
    intro f max shaped
    refine ⟨fun hbad => congrArg Host.Outcome.next (decompress_malformed hbad), fun hshape => ?_⟩
    obtain ⟨hinvalid, hunsupported, hok⟩ := decompress_shaped hshape
    exact ⟨fun hdata => congrArg Host.Outcome.next (hinvalid hdata), fun hdata => congrArg Host.Outcome.next (hunsupported hdata), fun out hdata =>
      ⟨fun hlong => congrArg Host.Outcome.next ((hok out hdata).trans (if_pos hlong)), fun hfits => accelOut_ends (congrArg Host.Outcome.next ((hok out hdata).trans (if_neg (Nat.not_lt.mpr hfits))))⟩⟩
  · rw [acceleratorResult_none hdone, failUnknown_pops hpops, apply_ite (fun t : State => t.recordResult m.val), recordResult_none hdone]
  · rw [acceleratorResult_none hdone, failUnknown_idle hidle, recordResult_none hdone]
  · rw [acceleratorResult_done hdone]
    exact ⟨fun hzero => congrArg Host.Outcome.next (if_pos hzero), fun hsome => congrArg Host.Outcome.next (if_neg hsome)⟩

end Sys2Proof.Machine
end

section
/-!
SUPPORT. How NVMe commands are fetched, and the commands on queues, aborts, events and the keep-alive timer (R299, R303 to R311, R315): the theorem that settles O42.
-/

namespace Sys2Proof.Machine

open Sys2Proof

set_option Elab.async false

/-! ### Fetching (R299, R305, R309) -/

section Fetching

variable {s u : State} {k : NvCmd} {q : NvSq} {n : Nat} {takesOp : Bool} {run : State → Option Nat → State}

/-- What fetching a command does, by its queue's aborted identifiers, its operation and steps 1 and 2 of R305. -/
theorem nvFetch_some (h : s.nvFetchable k.ctl k.sqid = some q) : s.nvFetch k takesOp run =
    if q.aborted.contains k.cid then Claims.fetchedAs s k { Claims.moveHead q with aborted := q.aborted.erase k.cid }
    else if !takesOp then
      (match (generalizing := false) nvBasic (s.ctl k.ctl) k with
       | some st => (Claims.fetchedAs s k (Claims.moveHead q)).nvSettle k.ctl k.sqid k.cid none st 0 0 k.nsid
       | none => run (Claims.fetchedAs s k (Claims.moveHead q)) none)
    else if !s.opRoom (fnInstHalf k.ctl) then s.deferNv k.ctl
    else match (generalizing := false) s.freeOp with
      | none => s.deferNv k.ctl
      | some op => match (generalizing := false) nvBasic (s.ctl k.ctl) k with
        | some st => ((Claims.fetchedAs s k (Claims.moveHead q)).setOp op (some (Claims.nvOperation s k))).nvSettle k.ctl k.sqid k.cid (some op) st 0 0 k.nsid
        | none => run ((Claims.fetchedAs s k (Claims.moveHead q)).setOp op (some (Claims.nvOperation s k))) (some op) := by
  rw [State.nvFetch, h] <;> rfl

/-- A command that was aborted before is passed over (R311). -/
theorem nvFetch_aborted (h : s.nvFetchable k.ctl k.sqid = some q) (ha : k.cid ∈ q.aborted) :
    s.nvFetch k takesOp run = Claims.fetchedAs s k { Claims.moveHead q with aborted := q.aborted.erase k.cid } := by
  rw [nvFetch_some h, if_pos (List.contains_iff_mem.mpr ha)]

/-- An identifier that was not aborted. -/
theorem not_aborted (h : k.cid ∉ q.aborted) : ¬ q.aborted.contains k.cid = true := fun hyes => h (List.contains_iff_mem.mp hyes)

/-- Without room in the operation table the command stays in its ring (R10, R277). -/
theorem nvFetch_deferred (h : s.nvFetchable k.ctl k.sqid = some q) (ha : k.cid ∉ q.aborted) (hfull : s.opRoom (fnInstHalf k.ctl) = false ∨ s.freeOp = none) :
    s.nvFetch k true run = s.deferNv k.ctl := by
  rw [nvFetch_some h, if_neg (not_aborted ha), Bool.not_true, if_neg Bool.false_ne_true]
  cases hroom : s.opRoom (fnInstHalf k.ctl) with
  | false => rfl
  | true =>
    have hnone := hfull.resolve_left (by rw [hroom]; exact Bool.false_ne_true.symm)
    rw [Bool.not_true, if_neg Bool.false_ne_true, hnone]

/-- With room it takes an operation, and steps 1 and 2 of R305 judge it. -/
theorem nvFetch_room (h : s.nvFetchable k.ctl k.sqid = some q) (ha : k.cid ∉ q.aborted) (hroom : s.opRoom (fnInstHalf k.ctl) = true) (hop : s.freeOp = some n) :
    s.nvFetch k true run = match (generalizing := false) nvBasic (s.ctl k.ctl) k with
      | some st => ((Claims.fetchedAs s k (Claims.moveHead q)).setOp n (some (Claims.nvOperation s k))).nvSettle k.ctl k.sqid k.cid (some n) st 0 0 k.nsid
      | none => run ((Claims.fetchedAs s k (Claims.moveHead q)).setOp n (some (Claims.nvOperation s k))) (some n) := by
  rw [nvFetch_some h, if_neg (not_aborted ha), Bool.not_true, if_neg Bool.false_ne_true, hroom, Bool.not_true, if_neg Bool.false_ne_true, hop]

/-- A command that fails steps 1 and 2 settles with their status. -/
theorem nvFetch_basic {st : Nat} (h : s.nvFetchable k.ctl k.sqid = some q) (ha : k.cid ∉ q.aborted) (hroom : s.opRoom (fnInstHalf k.ctl) = true) (hop : s.freeOp = some n)
    (hst : nvBasic (s.ctl k.ctl) k = some st) : s.nvFetch k true run =
      ((Claims.fetchedAs s k (Claims.moveHead q)).setOp n (some (Claims.nvOperation s k))).nvSettle k.ctl k.sqid k.cid (some n) st 0 0 k.nsid := by
  rw [nvFetch_room h ha hroom hop, hst]

/-- A command that passes them runs with its operation. -/
theorem nvFetch_runs (h : Claims.Fetches s k n u) : s.nvFetch k true run = run u (some n) := by
  obtain ⟨q, hq, ha, hroom, hop, hbasic, rfl⟩ := h
  rw [nvFetch_room hq ha hroom hop, hbasic]

/-- A command that takes no operation is judged by steps 1 and 2 alone. -/
theorem nvFetch_noOp (h : s.nvFetchable k.ctl k.sqid = some q) (ha : k.cid ∉ q.aborted) :
    (∀ st, nvBasic (s.ctl k.ctl) k = some st → s.nvFetch k false run = (Claims.fetchedAs s k (Claims.moveHead q)).nvSettle k.ctl k.sqid k.cid none st 0 0 k.nsid) ∧
    (nvBasic (s.ctl k.ctl) k = none → s.nvFetch k false run = run (Claims.fetchedAs s k (Claims.moveHead q)) none) := by
  rw [nvFetch_some h, if_neg (not_aborted ha), Bool.not_false, if_pos rfl]
  refine ⟨fun st hst => ?_, fun hnone => ?_⟩
  · rw [hst]
  · rw [hnone]

/-- An admin command runs on the admin queue. -/
theorem nvAdmin_runs (h : Claims.Fetches s k n u) (h0 : k.sqid = 0) : s.nvAdmin k run = run u (some n) := by
  rw [State.nvAdmin, nvFetch_runs h, if_neg (not_not.mpr h0)]

/-- On an I/O queue it is no opcode. -/
theorem nvAdmin_ioQueue (h : Claims.Fetches s k n u) (h0 : k.sqid ≠ 0) : s.nvAdmin k run = u.nvSettle k.ctl k.sqid k.cid (some n) nvBadOpcode 0 0 k.nsid := by
  rw [State.nvAdmin, nvFetch_runs h, if_pos h0]
  rfl

/-- What an admin row does with a command that is fetched from the admin queue. -/
theorem admin_exec {x : Instr} (h : Claims.Fetches s k n u) (h0 : k.sqid = 0) (hrow : exec x s = .next (s.nvAdmin k run)) : exec x s = .next (run u (some n)) := by
  rw [hrow, nvAdmin_runs h h0]

end Fetching

/-- The rows that take an operation are admin commands. -/
theorem nvRow_admin (s : State) {k : NvCmd} {data : List Byte} {x : Instr} (h : Claims.NvRow k data x) : ∃ run, exec x s = .next (s.nvAdmin k run) := by
  simp only [Claims.NvRow, List.mem_cons, List.not_mem_nil, or_false] at h
  rcases h with rfl | rfl | rfl | rfl | rfl | rfl | rfl | rfl | rfl | rfl | rfl | rfl
  all_goals exact ⟨_, rfl⟩

/-- Every NVMe row fetches its command first. -/
theorem nvRow_nothing {s : State} {k : NvCmd} {data : List Byte} {x : Instr}
    (h : Claims.NvRow k data x ∨ x ∈ [Instr.flush k, .nvmeWrite k, .nvmeRead k, .asynchronousEventRequest k]) (hnone : s.nvFetchable k.ctl k.sqid = none) :
    exec x s = .next s := by
  have hio : ∀ opc, s.nvIo opc k = s := fun opc => by
    rw [State.nvIo, hnone, Option.isSome_none, Bool.false_and, if_neg Bool.false_ne_true]
    exact nvFetch_none hnone
  rcases h with h | h
  · obtain ⟨run, hrow⟩ := nvRow_admin s h
    rw [hrow, State.nvAdmin, nvFetch_none hnone]
  · simp only [List.mem_cons, List.not_mem_nil, or_false] at h
    rcases h with rfl | rfl | rfl | rfl
    · exact congrArg Host.Outcome.next (hio 0)
    · exact congrArg Host.Outcome.next (hio 1)
    · exact congrArg Host.Outcome.next (hio 2)
    · exact congrArg Host.Outcome.next (nvFetch_none hnone)

/-- An aborted identifier is passed over, whatever the row. -/
theorem nvRow_aborted {s : State} {k : NvCmd} {data : List Byte} {x : Instr} {q : NvSq} (h : Claims.NvRow k data x ∨ x = .asynchronousEventRequest k)
    (hq : s.nvFetchable k.ctl k.sqid = some q) (ha : k.cid ∈ q.aborted) :
    exec x s = .next (Claims.fetchedAs s k { Claims.moveHead q with aborted := q.aborted.erase k.cid }) := by
  rcases h with h | rfl
  · obtain ⟨run, hrow⟩ := nvRow_admin s h
    rw [hrow, State.nvAdmin, nvFetch_aborted hq ha]
  · exact congrArg Host.Outcome.next (nvFetch_aborted hq ha)

/-- Steps 1 and 2 of R305. -/
theorem nvBasic_none (c : NvCtl) (k : NvCmd) :
    nvBasic c k = none ↔ c.cidUsed k.sqid k.cid = false ∧ k.fuse = 0 ∧ k.psdt = 0 ∧ k.reserved = false ∧ k.opcode = none := by
  rw [nvBasic]
  split_ifs with hused hfield hcode
  · exact ⟨False.elim, fun hall => absurd (hused.symm.trans hall.1) Bool.false_ne_true.symm⟩
  · refine ⟨False.elim, fun ⟨_, hfuse, hpsdt, hres, _⟩ => ?_⟩
    rcases hfield with hf | hp | hr
    · exact absurd hfuse hf
    · exact absurd hpsdt hp
    · exact absurd (hr.symm.trans hres) Bool.false_ne_true.symm
  · refine ⟨False.elim, fun ⟨_, _, _, _, hnone⟩ => ?_⟩
    rw [hnone] at hcode
    exact absurd hcode Bool.false_ne_true
  · simp only [not_or, not_not, Bool.not_eq_true] at hused hfield
    exact ⟨fun _ => ⟨hused, hfield.1, hfield.2.1, hfield.2.2, Option.not_isSome_iff_eq_none.mp hcode⟩, fun _ => rfl⟩

/-- While an urgent queue has a command no queue of another class is served (R309). -/
theorem nvFetchable_urgent {s : State} {k : NvCmd} {q : NvSq} (hq : (s.ctl k.ctl).sq k.sqid = some q) (hio : k.sqid ≠ 0) (hclass : q.prio ≠ 0)
    (hurgent : (s.ctl k.ctl).waiting 0 ≠ []) : s.nvFetchable k.ctl k.sqid = none := by
  have hturn : (s.ctl k.ctl).classTurn q.prio = false := by
    rw [NvCtl.classTurn, decide_eq_false hclass, show ((s.ctl k.ctl).waiting 0).isEmpty = false by simpa using hurgent, Bool.false_and, Bool.or_false]
  rw [State.nvFetchable, hq]
  dsimp only
  rw [hturn, decide_eq_false hio, Bool.and_false, Bool.false_and, Bool.or_false, Bool.and_false, if_neg Bool.false_ne_true]

/-! ### Queues (R303, R311) -/

section Queues

variable {s u : State} {k : NvCmd} {n : Nat}

/-- The status of CREATE_IO_COMPLETION_QUEUE. -/
def createCqStatus (u : State) (k : NvCmd) : Nat :=
  if k.cdw11.getLsbD 0 = false ∨ k.prp1.toNat % 4096 ≠ 0 then nvBadField
  else if bits k.cdw10.toNat 0 16 = 0 ∨ (u.ctl k.ctl).ncq < bits k.cdw10.toNat 0 16 ∨ ((u.ctl k.ctl).cq (bits k.cdw10.toNat 0 16)).isSome = true then nvBadQid
  else if bits k.cdw10.toNat 16 16 + 1 < 2 ∨ 4096 < bits k.cdw10.toNat 16 16 + 1 then nvSt 1 0x02 true
  else if u.vectorsOf k.ctl ≤ bits k.cdw11.toNat 16 16 then nvSt 1 0x08 true else 0

/-- CREATE_IO_COMPLETION_QUEUE with a status that is not 0. -/
theorem createCq_fails {st : Nat} (h : Claims.Fetches s k n u) (h0 : k.sqid = 0) (hst : createCqStatus u k = st) (hne : st ≠ 0) :
    exec (.createIoCompletionQueue k) s = .next (u.nvSettle k.ctl k.sqid k.cid (some n) st 0 0 k.nsid) := by
  subst hst
  exact (admin_exec h h0 rfl).trans (congrArg Host.Outcome.next (if_pos hne))

/-- The completion queue that a command asks for. -/
def madeCq (u : State) (k : NvCmd) : NvCq :=
  NvCq.mk (bits k.cdw11.toNat 16 16) (k.cdw11.getLsbD 1) (bits k.cdw10.toNat 16 16 + 1) k.prp1.toNat 0 0 (u.ctl k.ctl).coalTicks (bits (u.ctl k.ctl).coal.toNat 0 8 + 1) 0 0

/-- CREATE_IO_COMPLETION_QUEUE that makes its queue. -/
theorem createCq_makes (h : Claims.Fetches s k n u) (h0 : k.sqid = 0) (hst : createCqStatus u k = 0) :
    exec (.createIoCompletionQueue k) s = .next ((u.modCtl k.ctl (fun c => { c with cqs := FMap.set none c.cqs (bits k.cdw10.toNat 0 16) (some (madeCq u k)), everIo := true })).nvSettle k.ctl k.sqid k.cid (some n) 0 0 0 k.nsid) :=
  (admin_exec h h0 rfl).trans (congrArg Host.Outcome.next (if_neg (not_not.mpr hst)))

/-- The status of CREATE_IO_SUBMISSION_QUEUE. -/
def createSqStatus (u : State) (k : NvCmd) : Nat :=
  if k.cdw11.getLsbD 0 = false ∨ k.prp1.toNat % 4096 ≠ 0 then nvBadField
  else if bits k.cdw10.toNat 0 16 = 0 ∨ (u.ctl k.ctl).nsq < bits k.cdw10.toNat 0 16 ∨ ((u.ctl k.ctl).sq (bits k.cdw10.toNat 0 16)).isSome = true then nvBadQid
  else if bits k.cdw10.toNat 16 16 + 1 < 2 ∨ 4096 < bits k.cdw10.toNat 16 16 + 1 then nvSt 1 0x02 true
  else if bits k.cdw11.toNat 16 16 = 0 ∨ ((u.ctl k.ctl).cq (bits k.cdw11.toNat 16 16)).isNone = true then nvSt 1 0x00 true else 0

/-- CREATE_IO_SUBMISSION_QUEUE with a status that is not 0. -/
theorem createSq_fails {st : Nat} (h : Claims.Fetches s k n u) (h0 : k.sqid = 0) (hst : createSqStatus u k = st) (hne : st ≠ 0) :
    exec (.createIoSubmissionQueue k) s = .next (u.nvSettle k.ctl k.sqid k.cid (some n) st 0 0 k.nsid) := by
  subst hst
  exact (admin_exec h h0 rfl).trans (congrArg Host.Outcome.next (if_pos hne))

/-- The submission queue that a command asks for. -/
def madeSq (k : NvCmd) : NvSq := NvSq.mk (bits k.cdw11.toNat 16 16) (bits k.cdw11.toNat 1 2) (bits k.cdw10.toNat 16 16 + 1) k.prp1.toNat 0 0 false []

/-- CREATE_IO_SUBMISSION_QUEUE that makes its queue. -/
theorem createSq_makes (h : Claims.Fetches s k n u) (h0 : k.sqid = 0) (hst : createSqStatus u k = 0) :
    exec (.createIoSubmissionQueue k) s = .next ((u.modCtl k.ctl (fun c => { c with sqs := FMap.set none c.sqs (bits k.cdw10.toNat 0 16) (some (madeSq k)), everIo := true })).nvSettle k.ctl k.sqid k.cid (some n) 0 0 0 k.nsid) :=
  (admin_exec h h0 rfl).trans (congrArg Host.Outcome.next (if_neg (not_not.mpr hst)))

/-- A queue number that is 0, beyond the number granted, or in use. -/
theorem badQid_of {α : Type} {q most : Nat} {o : Option α} (h : q = 0 ∨ most < q ∨ o ≠ none) : q = 0 ∨ most < q ∨ o.isSome = true :=
  h.imp id (Or.imp id Option.isSome_iff_ne_none.mpr)

/-- One that is free. -/
theorem freeQid_of {α : Type} {q most : Nat} {o : Option α} (hlow : 1 ≤ q) (hhigh : q ≤ most) (h : o = none) : ¬ (q = 0 ∨ most < q ∨ o.isSome = true) := by
  rintro (hzero | hlarge | hsome)
  · omega
  · omega
  · exact absurd h (Option.isSome_iff_ne_none.mp hsome)

/-- The parameters that both creations ask for: physically contiguous memory on a page. -/
theorem goodField_of {w : Word} {base : Nat} (hpc : w.getLsbD 0 = true) (hbase : base % 4096 = 0) : ¬ (w.getLsbD 0 = false ∨ base % 4096 ≠ 0) := by
  rintro (hno | hne)
  · exact absurd (hpc.symm.trans hno) Bool.false_ne_true.symm
  · exact hne hbase

/-- DELETE_IO_SUBMISSION_QUEUE (R311). -/
theorem deleteSq_eq (h : Claims.Fetches s k n u) (h0 : k.sqid = 0) : exec (.deleteIoSubmissionQueue k) s = .next (
    if bits k.cdw10.toNat 0 16 = 0 ∨ ((u.ctl k.ctl).sq (bits k.cdw10.toNat 0 16)).isNone = true then u.nvSettle k.ctl k.sqid k.cid (some n) nvBadQid 0 0 k.nsid
    else u.modCtl k.ctl (fun c => { c with due := c.due ++ [.deleteSq k.cid n (bits k.cdw10.toNat 0 16)] })) := by
  have hrow : exec (.deleteIoSubmissionQueue k) s = .next (s.nvAdmin k _) := rfl
  exact admin_exec h h0 hrow

/-- Whether a submission queue of a controller completes on a queue. -/
def NvCtl.feeds (c : NvCtl) (q : Nat) : Bool := c.sqs.any (fun e => match e.2 with | some v => decide (v.cqid = q) | none => false)

/-- DELETE_IO_COMPLETION_QUEUE (R311). -/
theorem deleteCq_eq (h : Claims.Fetches s k n u) (h0 : k.sqid = 0) : exec (.deleteIoCompletionQueue k) s = .next (
    if bits k.cdw10.toNat 0 16 = 0 ∨ ((u.ctl k.ctl).cq (bits k.cdw10.toNat 0 16)).isNone = true then u.nvSettle k.ctl k.sqid k.cid (some n) nvBadQid 0 0 k.nsid
    else if (u.ctl k.ctl).feeds (bits k.cdw10.toNat 0 16) then u.nvSettle k.ctl k.sqid k.cid (some n) (nvSt 1 0x0C true) 0 0 k.nsid
    else (u.modCtl k.ctl (fun c => { c with cqs := FMap.set none c.cqs (bits k.cdw10.toNat 0 16) none })).nvSettle k.ctl k.sqid k.cid (some n) 0 0 0 k.nsid) := by
  have hrow : exec (.deleteIoCompletionQueue k) s = .next (s.nvAdmin k _) := rfl
  exact admin_exec h h0 hrow

/-- NVME_ABORT (R311). -/
theorem nvmeAbort_eq (h : Claims.Fetches s k n u) (h0 : k.sqid = 0) : exec (.nvmeAbort k) s = .next (u.modCtl k.ctl (fun c =>
    { c with due := c.due ++ [.abort k.cid n (bits k.cdw10.toNat 0 16) (BitVec.ofNat 16 (bits k.cdw10.toNat 16 16))] })) := by
  have hrow : exec (.nvmeAbort k) s = .next (s.nvAdmin k _) := rfl
  exact admin_exec h h0 hrow

/-- KEEP_ALIVE (R306). -/
theorem nvmeKeepAlive_eq (h : Claims.Fetches s k n u) (h0 : k.sqid = 0) : exec (.keepAlive k) s =
    .next ((u.modCtl k.ctl (fun c => { c with katoFrom := u.time.tick })).nvSettle k.ctl k.sqid k.cid (some n) 0 0 0 k.nsid) := by
  have hrow : exec (.keepAlive k) s = .next (s.nvAdmin k _) := rfl
  exact admin_exec h h0 hrow

/-- A queue that some submission queue completes on. -/
theorem feeds_of {c : NvCtl} {q i : Nat} {v : NvSq} (hmem : (i, some v) ∈ c.sqs) (hv : v.cqid = q) : c.feeds q = true :=
  List.any_eq_true.mpr ⟨(i, some v), hmem, decide_eq_true hv⟩

/-- A queue that none does. -/
theorem feeds_none {c : NvCtl} {q : Nat} (h : ∀ i v, (i, some v) ∈ c.sqs → v.cqid ≠ q) : c.feeds q = false := by
  refine List.any_eq_false.mpr (fun e he => ?_)
  obtain ⟨i, _ | v⟩ := e
  · exact Bool.false_ne_true
  · exact ne_true_of_eq_false (decide_eq_false (h i v he))

/-- A queue number that is 0 or has no queue. -/
theorem noQueue_iff {α : Type} {q : Nat} {o : Option α} : (q = 0 ∨ o.isNone = true) ↔ (q = 0 ∨ o = none) := or_congr Iff.rfl Option.isNone_iff_eq_none

end Queues

/-! ### Events and the keep-alive timer (R306, R308) -/

/-- An Asynchronous Event Request that passes steps 1 and 2. -/
def State.nvAsync (u : State) (k : NvCmd) : State :=
  if k.sqid ≠ 0 then u.nvAdminDone k none nvBadOpcode 0
  else match (u.ctl k.ctl).events with
    | e :: rest => ((u.setCtl k.ctl { u.ctl k.ctl with events := rest }).nvSettle k.ctl 0 k.cid none 0 (BitVec.ofNat 32 e) 0 0).pme 2
    | [] => if 4 ≤ (u.ctl k.ctl).aers.length then u.nvAdminDone k none (nvSt 1 0x05 true) 0
      else u.setCtl k.ctl { u.ctl k.ctl with aers := (u.ctl k.ctl).aers ++ [k.cid] }

/-- ASYNCHRONOUS_EVENT_REQUEST takes no operation. -/
theorem async_row (s : State) (k : NvCmd) : exec (.asynchronousEventRequest k) s = .next (s.nvFetch k false (fun u _ => u.nvAsync k)) := rfl

/-- An Asynchronous Event Request without a waiting event is kept, or refused (R308). -/
theorem nvAsync_quiet {u : State} {k : NvCmd} (h0 : k.sqid = 0) (he : (u.ctl k.ctl).events = []) : u.nvAsync k =
    if 4 ≤ (u.ctl k.ctl).aers.length then u.nvAdminDone k none (nvSt 1 0x05 true) 0 else u.setCtl k.ctl { u.ctl k.ctl with aers := (u.ctl k.ctl).aers ++ [k.cid] } := by
  rw [State.nvAsync, if_neg (not_not.mpr h0)]
  split
  · exact absurd (‹_ = _ :: _›.symm.trans he) (List.cons_ne_nil _ _)
  · rfl

/-- The cases of an Asynchronous Event Request (R308). -/
theorem nvAsync_cases (u : State) (k : NvCmd) : let c := u.ctl k.ctl
    (k.sqid ≠ 0 → u.nvAsync k = u.nvSettle k.ctl k.sqid k.cid none nvBadOpcode 0 0 k.nsid) ∧
    (k.sqid = 0 → ∀ e rest, c.events = e :: rest → u.nvAsync k = ((u.setCtl k.ctl { c with events := rest }).nvSettle k.ctl 0 k.cid none 0 (BitVec.ofNat 32 e) 0 0).pme 2) ∧
    (k.sqid = 0 → c.events = [] → 4 ≤ c.aers.length → u.nvAsync k = u.nvSettle k.ctl k.sqid k.cid none (nvSt 1 5 true) 0 0 k.nsid) ∧
    (k.sqid = 0 → c.events = [] → c.aers.length < 4 → u.nvAsync k = u.setCtl k.ctl { c with aers := c.aers ++ [k.cid] }) := by
  refine ⟨fun h0 => ?_, fun h0 e rest he => ?_, fun h0 he hfull => ?_, fun h0 he hroom => ?_⟩
  · rw [State.nvAsync, if_pos h0]
    rfl
  · rw [State.nvAsync, if_neg (not_not.mpr h0), he]
  · exact (nvAsync_quiet h0 he).trans (if_pos hfull)
  · exact (nvAsync_quiet h0 he).trans (if_neg (Nat.not_le.mpr hroom))

/-- Whether the instance of a controller is frozen. -/
def State.ctlFrozen (s : State) (ctl : Nat) : Bool := match fnInst ctl with | some n => s.isFrozen n | none => false

/-- A controller is frozen with its instance. -/
theorem ctlFrozen_iff (s : State) (ctl : Nat) : s.ctlFrozen ctl = true ↔ ∃ n, fnInst ctl = some n ∧ s.isFrozen n = true := by
  unfold State.ctlFrozen
  cases fnInst ctl with
  | none => simp
  | some n => simp

/-- KEEP_ALIVE_EXPIRY (R306). -/
theorem keepAliveExpiry_eq (s : State) (ctl : Nat) : let c := s.ctl ctl
    exec (.keepAliveExpiry ctl) s = .next (if (c.enabled && decide (c.kato ≠ 0) && !s.ctlFrozen ctl && decide (c.katoFrom + s.msTicks c.kato.toNat ≤ s.time.tick)) = true
      then (s.setCtl ctl { c with katoFrom := s.time.tick }).log 0x0A03 (fnInstHalf ctl).toNat 0 else s) := rfl

/-- When the timer has expired. -/
theorem keepAlive_due (s : State) (ctl : Nat) : let c := s.ctl ctl
    (c.enabled && decide (c.kato ≠ 0) && !s.ctlFrozen ctl && decide (c.katoFrom + s.msTicks c.kato.toNat ≤ s.time.tick)) = true ↔
      c.enabled = true ∧ c.kato ≠ 0 ∧ (¬ ∃ n, fnInst ctl = some n ∧ s.isFrozen n = true) ∧ c.katoFrom + s.msTicks c.kato.toNat ≤ s.time.tick := by
  intro c
  rw [← ctlFrozen_iff]
  simp only [Bool.and_eq_true, Bool.not_eq_true', Bool.not_eq_true, decide_eq_true_eq, and_assoc]

/-- Settles O42: a command by the steps of its fetch; an admin command by the cases of its row. -/
theorem nvmeCommandsAreFetched : Obligations.NvmeCommandsAreFetched := by
  unfold Obligations.NvmeCommandsAreFetched
  refine fun s k data => ⟨fun x hx => nvRow_nothing hx, fun q hq => ⟨fun x hx => nvRow_aborted hx hq, fun ha x hx => ?_⟩, nvBasic_none _ _, fun q => nvFetchable_urgent,
    fun n u hf => ?_, fun q hq ha => ?_, fun ctl => ?_⟩
  · obtain ⟨run, hrow⟩ := nvRow_admin s hx
    rw [hrow, State.nvAdmin]
    exact ⟨fun hfull => congrArg Host.Outcome.next (nvFetch_deferred hq ha hfull), fun hroom n st hop hst => congrArg Host.Outcome.next (nvFetch_basic hq ha hroom hop hst)⟩
  · intro c ends q size base
    refine ⟨fun h0 x hx => ?_, fun h0 => ⟨fun x hx hbad => ?_, fun hpc hbase => ?_, fun hbad => ?_, fun hq hsome => ?_, fun hbad => ?_, fun hq hsome => ⟨fun i v hmem hv => ?_, fun hnone => ?_⟩,
      nvmeAbort_eq hf h0, nvmeKeepAlive_eq hf h0⟩⟩
    · obtain ⟨run, hrow⟩ := nvRow_admin s hx
      rw [hrow, nvAdmin_ioQueue hf h0]
    · simp only [List.mem_cons, List.not_mem_nil, or_false] at hx
      rcases hx with rfl | rfl
      · exact createCq_fails hf h0 (if_pos hbad) (by decide)
      · exact createSq_fails hf h0 (if_pos hbad) (by decide)
    · have hfield := goodField_of (w := k.cdw11) hpc hbase
      intro iv made
      refine ⟨fun hbad => ?_, fun hlow hhigh hfree => ⟨fun hsize => ?_, fun h2 h4096 hvec => ?_, fun h2 h4096 hvec => ?_⟩,
        fun hbad => ?_, fun hlow hhigh hfree => ⟨fun hsize => ?_, fun h2 h4096 hcq => ?_, fun h2 h4096 hne hcq => ?_⟩⟩
      · exact createCq_fails hf h0 ((if_neg hfield).trans (if_pos (badQid_of hbad))) (by decide)
      · exact createCq_fails hf h0 ((if_neg hfield).trans ((if_neg (freeQid_of hlow hhigh hfree)).trans (if_pos hsize))) (by decide)
      · exact createCq_fails hf h0 ((if_neg hfield).trans ((if_neg (freeQid_of hlow hhigh hfree)).trans ((if_neg (not_or.mpr ⟨Nat.not_lt.mpr h2, Nat.not_lt.mpr h4096⟩)).trans (if_pos hvec)))) (by decide)
      · exact createCq_makes hf h0 ((if_neg hfield).trans ((if_neg (freeQid_of hlow hhigh hfree)).trans ((if_neg (not_or.mpr ⟨Nat.not_lt.mpr h2, Nat.not_lt.mpr h4096⟩)).trans (if_neg (Nat.not_le.mpr hvec)))))
      · exact createSq_fails hf h0 ((if_neg hfield).trans (if_pos (badQid_of hbad))) (by decide)
      · exact createSq_fails hf h0 ((if_neg hfield).trans ((if_neg (freeQid_of hlow hhigh hfree)).trans (if_pos hsize))) (by decide)
      · exact createSq_fails hf h0 ((if_neg hfield).trans ((if_neg (freeQid_of hlow hhigh hfree)).trans ((if_neg (not_or.mpr ⟨Nat.not_lt.mpr h2, Nat.not_lt.mpr h4096⟩)).trans (if_pos (noQueue_iff.mpr hcq))))) (by decide)
      · exact createSq_makes hf h0 ((if_neg hfield).trans ((if_neg (freeQid_of hlow hhigh hfree)).trans ((if_neg (not_or.mpr ⟨Nat.not_lt.mpr h2, Nat.not_lt.mpr h4096⟩)).trans
          (if_neg (fun hbad => (noQueue_iff.mp hbad).elim hne hcq)))))
    · exact (deleteSq_eq hf h0).trans (congrArg Host.Outcome.next (if_pos (noQueue_iff.mpr hbad)))
    · exact (deleteSq_eq hf h0).trans (congrArg Host.Outcome.next (if_neg (fun hbad => (noQueue_iff.mp hbad).elim hq hsome)))
    · exact (deleteCq_eq hf h0).trans (congrArg Host.Outcome.next (if_pos (noQueue_iff.mpr hbad)))
    · exact (deleteCq_eq hf h0).trans (congrArg Host.Outcome.next ((if_neg (fun hbad => (noQueue_iff.mp hbad).elim hq hsome)).trans (if_pos (feeds_of hmem hv))))
    · exact (deleteCq_eq hf h0).trans (congrArg Host.Outcome.next ((if_neg (fun hbad => (noQueue_iff.mp hbad).elim hq hsome)).trans (if_neg (ne_true_of_eq_false (feeds_none hnone)))))
  · intro u c
    rw [async_row]
    obtain ⟨hbad, hgood⟩ := nvFetch_noOp (run := fun u _ => u.nvAsync k) hq ha
    refine ⟨fun st hst => congrArg Host.Outcome.next (hbad st hst), fun hnone => ?_⟩
    rw [hgood hnone]
    obtain ⟨hio, hevent, hfull, hroom⟩ := nvAsync_cases u k
    exact ⟨fun h0 => congrArg Host.Outcome.next (hio h0), fun h0 e rest he => congrArg Host.Outcome.next (hevent h0 e rest he),
      fun h0 he hmany => congrArg Host.Outcome.next (hfull h0 he hmany), fun h0 he hfew => congrArg Host.Outcome.next (hroom h0 he hfew)⟩
  · intro c
    refine ⟨fun hen hkato hfrozen hdue => ?_, fun hno => ?_⟩
    · refine (keepAliveExpiry_eq s ctl).trans (congrArg Host.Outcome.next (if_pos ((keepAlive_due s ctl).mpr ⟨hen, hkato, ?_, hdue⟩)))
      rintro ⟨n, hn, hyes⟩
      exact Bool.false_ne_true ((hfrozen n hn).symm.trans hyes)
    · refine (keepAliveExpiry_eq s ctl).trans (congrArg Host.Outcome.next (if_neg (fun hyes => ?_)))
      obtain ⟨hen, hkato, hfrozen, hdue⟩ := (keepAlive_due s ctl).mp hyes
      rcases hno with hoff | hzero | hfr | hearly
      · exact Bool.false_ne_true (hoff.symm.trans hen)
      · exact hkato hzero
      · exact hfrozen hfr
      · exact Nat.not_le.mpr hearly hdue

end Sys2Proof.Machine
end

section
/-!
SUPPORT. What the NVMe admin commands that read or set something answer (R301, R302, R305 to R307, R314, R322): the theorem that settles O43.
-/

namespace Sys2Proof.Machine

open Sys2Proof

set_option Elab.async false

section AdminCommands

variable {s u : State} {k : NvCmd} {n : Nat} {data : List Byte}

/-! ### Data at the PRPs (R305) -/

/-- A PRP after the first with an offset. -/
theorem prpBad_iff (k : NvCmd) : prpBad k = true ↔ ∃ p ∈ k.prps, p.toNat % 4096 ≠ 0 := by
  rw [prpBad, List.any_eq_true]
  exact exists_congr (fun p => and_congr Iff.rfl decide_eq_true_iff)

/-- A command that returns bytes. -/
theorem nvReturn_ok (u : State) (k : NvCmd) (n : Nat) (bs : List Byte) : u.nvReturn k (some n) (.ok bs) = Claims.nvReturns u k n bs :=
  if_congr (prpBad_iff k) rfl rfl

/-! ### Identify (R301, R302) -/

/-- NVME_IDENTIFY. -/
theorem nvmeIdentify_row (h : Claims.Fetches s k n u) (h0 : k.sqid = 0) : exec (.nvmeIdentify k) s = .next (u.nvReturn k (some n) (u.nvIdentifyData k)) := by
  have hrow : exec (.nvmeIdentify k) s = .next (s.nvAdmin k _) := rfl
  exact admin_exec h h0 hrow

/-- Identify that returns bytes. -/
theorem nvmeIdentify_gives {bs : List Byte} (h : Claims.Fetches s k n u) (h0 : k.sqid = 0) (hd : u.nvIdentifyData k = .ok bs) :
    exec (.nvmeIdentify k) s = .next (Claims.nvReturns u k n bs) := by
  rw [nvmeIdentify_row h h0, hd, nvReturn_ok]

/-- Identify that ends with a status. -/
theorem nvmeIdentify_ends {st : Nat} (h : Claims.Fetches s k n u) (h0 : k.sqid = 0) (hd : u.nvIdentifyData k = .error st) :
    exec (.nvmeIdentify k) s = .next (u.nvSettle k.ctl k.sqid k.cid (some n) st 0 0 k.nsid) := by
  rw [nvmeIdentify_row h h0, hd]
  rfl

/-- Identify Namespace. -/
theorem identifyData_namespace (h : dw k.cdw10 0 8 = 0) : (∀ ns, u.nsAt k.ctl k.nsid.toNat = some ns → u.nvIdentifyData k = .ok (u.nvIdNamespace ns)) ∧
    (u.nsAt k.ctl k.nsid.toNat = none → u.nvIdentifyData k = if 1 ≤ k.nsid.toNat ∧ k.nsid.toNat ≤ 256 then .ok (zeros 4096) else .error nvBadNs) := by
  unfold State.nvIdentifyData
  rw [h]
  refine ⟨fun ns hns => ?_, fun hnone => ?_⟩
  · simp only [hns]
  · simp only [hnone]

/-- Identify Controller. -/
theorem identifyData_controller (h : dw k.cdw10 0 8 = 1) : u.nvIdentifyData k = .ok (nvIdController k.ctl) := by
  unfold State.nvIdentifyData
  rw [h]
  rfl

/-- The list of active namespaces. -/
theorem identifyData_active (h : dw k.cdw10 0 8 = 2) : u.nvIdentifyData k =
    if 0xFFFFFFFE ≤ k.nsid.toNat then .error nvBadNs else .ok (padTo 4096 (((u.nsidsAbove k.ctl k.nsid.toNat).map (leBytes 4)).flatten)) := by
  unfold State.nvIdentifyData
  rw [h]
  rfl

/-- The namespace's identifiers. -/
theorem identifyData_descriptors (h : dw k.cdw10 0 8 = 3) :
    (∀ ns, u.nsAt k.ctl k.nsid.toNat = some ns → u.nvIdentifyData k = .ok (padTo 4096 ([2, 16, 0, 0] ++ nguid ns))) ∧
    (u.nsAt k.ctl k.nsid.toNat = none → u.nvIdentifyData k = .error nvBadNs) := by
  unfold State.nvIdentifyData
  rw [h]
  refine ⟨fun ns hns => ?_, fun hnone => ?_⟩
  · simp only [hns]
  · simp only [hnone]

/-- Other structures are not there. -/
theorem identifyData_other (h : 4 ≤ dw k.cdw10 0 8) : u.nvIdentifyData k = .error nvBadField := by
  unfold State.nvIdentifyData
  split
  case h_5 => rfl
  all_goals omega

/-! ### Log pages (R307) -/

/-- GET_LOG_PAGE. -/
theorem getLogPage_row (h : Claims.Fetches s k n u) (h0 : k.sqid = 0) : exec (.getLogPage k) s = .next (u.nvReturn k (some n)
    (match (generalizing := false) u.nvLog k with
      | .error st => .error st
      | .ok bs => if dw k.cdw10 8 7 ≠ 0 ∨ 1048576 < 4 * (dw k.cdw10 16 16 + 65536 * dw k.cdw11 0 16 + 1) ∨ (k.cdw12.toNat + 2 ^ 32 * k.cdw13.toNat) % 4 ≠ 0 ∨
          bs.length ≤ k.cdw12.toNat + 2 ^ 32 * k.cdw13.toNat then .error nvBadField
        else .ok (slice bs (k.cdw12.toNat + 2 ^ 32 * k.cdw13.toNat) (4 * (dw k.cdw10 16 16 + 65536 * dw k.cdw11 0 16 + 1))))) := by
  have hrow : exec (.getLogPage k) s = .next (s.nvAdmin k _) := rfl
  exact admin_exec h h0 hrow

/-- A log page that there is. -/
theorem getLogPage_gives {page : List Byte} (h : Claims.Fetches s k n u) (h0 : k.sqid = 0) (hp : u.nvLog k = .ok page) : exec (.getLogPage k) s =
    if bits k.cdw10.toNat 8 7 ≠ 0 ∨ 1048576 < 4 * (bits k.cdw10.toNat 16 16 + 65536 * bits k.cdw11.toNat 0 16 + 1) ∨ (k.cdw12.toNat + 2 ^ 32 * k.cdw13.toNat) % 4 ≠ 0 ∨
        page.length ≤ k.cdw12.toNat + 2 ^ 32 * k.cdw13.toNat then .next (u.nvSettle k.ctl k.sqid k.cid (some n) nvBadField 0 0 k.nsid)
      else .next (Claims.nvReturns u k n (slice page (k.cdw12.toNat + 2 ^ 32 * k.cdw13.toNat) (4 * (bits k.cdw10.toNat 16 16 + 65536 * bits k.cdw11.toNat 0 16 + 1)))) := by
  rw [getLogPage_row h h0, hp]
  exact (apply_ite (fun r => Host.Outcome.next (u.nvReturn k (some n) r)) _ _ _).trans (if_congr Iff.rfl rfl (congrArg Host.Outcome.next (nvReturn_ok u k n _)))

/-- A log page that there is not. -/
theorem getLogPage_ends {st : Nat} (h : Claims.Fetches s k n u) (h0 : k.sqid = 0) (hp : u.nvLog k = .error st) :
    exec (.getLogPage k) s = .next (u.nvSettle k.ctl k.sqid k.cid (some n) st 0 0 k.nsid) := by
  rw [getLogPage_row h h0, hp] <;> rfl

/-- The log pages. -/
theorem nvLog_pages (u : State) (k : NvCmd) :
    (dw k.cdw10 0 8 = 1 → u.nvLog k = .ok (padTo 4096 (((u.ctl k.ctl).errors.zipIdx.map (fun e => nvErrBytes ((u.ctl k.ctl).errCount - e.2) e.1)).flatten))) ∧
    (dw k.cdw10 0 8 = 2 → u.nvLog k = if k.nsid = 0 ∨ k.nsid = 0xFFFFFFFF then .ok (u.nvSmart k.ctl) else .error nvBadField) ∧
    (dw k.cdw10 0 8 = 3 → u.nvLog k = .ok u.nvSlots) ∧ (dw k.cdw10 0 8 = 5 → u.nvLog k = .ok (nvEffects k.ctl)) := by
  unfold State.nvLog
  refine ⟨fun h => ?_, fun h => ?_, fun h => ?_, fun h => ?_⟩
  all_goals
    rw [h]
    rfl

/-- No other page. -/
theorem nvLog_other (h : dw k.cdw10 0 8 ∉ [1, 2, 3, 5]) : u.nvLog k = .error (nvSt 1 0x09 true) := by
  simp only [List.mem_cons, List.not_mem_nil, or_false, not_or] at h
  unfold State.nvLog
  split
  case h_5 => rfl
  all_goals omega

/-! ### Features (R306) -/

/-- GET_FEATURES. -/
theorem getFeatures_row (h : Claims.Fetches s k n u) (h0 : k.sqid = 0) : exec (.getFeatures k) s =
    .next (match (generalizing := false) if dw k.cdw10 8 3 ≠ 0 then none else u.nvFeature k.ctl k with
      | none => u.nvAdminDone k (some n) nvBadField 0
      | some v => (if dw k.cdw10 0 8 = 0x0C then u.nvData k (padTo 256 (u.ctl k.ctl).apstTable) else u).nvAdminDone k (some n) 0 (BitVec.ofNat 32 v)) := by
  have hrow : exec (.getFeatures k) s = .next (s.nvAdmin k _) := rfl
  exact admin_exec h h0 hrow

/-- A feature that has no current value. -/
theorem getFeatures_ends (h : Claims.Fetches s k n u) (h0 : k.sqid = 0) (hno : (if dw k.cdw10 8 3 ≠ 0 then none else u.nvFeature k.ctl k) = none) :
    exec (.getFeatures k) s = .next (u.nvSettle k.ctl k.sqid k.cid (some n) nvBadField 0 0 k.nsid) := by
  rw [getFeatures_row h h0, hno] <;> rfl

/-- A feature that has one. -/
theorem getFeatures_value {v : Nat} (h : Claims.Fetches s k n u) (h0 : k.sqid = 0) (hsel : dw k.cdw10 8 3 = 0) (hv : u.nvFeature k.ctl k = some v) : exec (.getFeatures k) s =
    .next ((if dw k.cdw10 0 8 = 0x0C then u.nvData k (padTo 256 (u.ctl k.ctl).apstTable) else u).nvSettle k.ctl k.sqid k.cid (some n) 0 (BitVec.ofNat 32 v) 0 k.nsid) := by
  rw [getFeatures_row h h0, if_neg (not_not.mpr hsel), hv] <;> rfl

/-- The temperature thresholds. -/
theorem nvFeature_temperature (h : dw k.cdw10 0 8 = 4) :
    (dw k.cdw11 16 4 = 0 → dw k.cdw11 20 2 = 0 → u.nvFeature k.ctl k = some (u.ctl k.ctl).tempOver.toNat) ∧
    (dw k.cdw11 16 4 = 0 → dw k.cdw11 20 2 = 1 → u.nvFeature k.ctl k = some (u.ctl k.ctl).tempUnder.toNat) ∧
    (dw k.cdw11 16 4 = 1 → dw k.cdw11 20 2 = 0 → u.nvFeature k.ctl k = some (u.ctl k.ctl).tempOver1.toNat) ∧
    (dw k.cdw11 16 4 = 1 → dw k.cdw11 20 2 = 1 → u.nvFeature k.ctl k = some (u.ctl k.ctl).tempUnder1.toNat) := by
  unfold State.nvFeature
  rw [h]
  refine ⟨fun h1 h2 => ?_, fun h1 h2 => ?_, fun h1 h2 => ?_, fun h1 h2 => ?_⟩
  all_goals
    dsimp only
    rw [h1, h2]
    rfl

/-- The other features of Dword 11. -/
theorem nvFeature_values (u : State) (k : NvCmd) : let c := u.ctl k.ctl
    (dw k.cdw10 0 8 = 1 → u.nvFeature k.ctl k = some c.arb.toNat) ∧ (dw k.cdw10 0 8 = 2 → u.nvFeature k.ctl k = some c.ps) ∧
    (dw k.cdw10 0 8 = 7 → u.nvFeature k.ctl k = some ((c.nsq + 65535) % 65536 + 65536 * ((c.ncq + 65535) % 65536))) ∧
    (dw k.cdw10 0 8 = 8 → u.nvFeature k.ctl k = some c.coal.toNat) ∧ (dw k.cdw10 0 8 = 0x0B → u.nvFeature k.ctl k = some c.aec.toNat) ∧
    (dw k.cdw10 0 8 = 0x0F → u.nvFeature k.ctl k = some c.kato.toNat) := by
  unfold State.nvFeature
  refine ⟨fun h => ?_, fun h => ?_, fun h => ?_, fun h => ?_, fun h => ?_, fun h => ?_⟩
  all_goals
    rw [h]
    rfl

/-- The autonomous power-state transitions. -/
theorem nvFeature_apst (h : dw k.cdw10 0 8 = 0x0C) : u.nvFeature k.ctl k = some (b2n (u.ctl k.ctl).apste) := by
  unfold State.nvFeature
  rw [h]
  rfl

/-- The features of which Dword 0 is the whole value. -/
theorem feature_value {x : Nat} (hx : let c := u.ctl k.ctl
    (dw k.cdw10 0 8 = 1 ∧ x = c.arb.toNat) ∨ (dw k.cdw10 0 8 = 2 ∧ x = c.ps) ∨ (dw k.cdw10 0 8 = 7 ∧ x = (c.nsq + 65535) % 65536 + 65536 * ((c.ncq + 65535) % 65536)) ∨
    (dw k.cdw10 0 8 = 8 ∧ x = c.coal.toNat) ∨ (dw k.cdw10 0 8 = 0x0B ∧ x = c.aec.toNat) ∨ (dw k.cdw10 0 8 = 0x0F ∧ x = c.kato.toNat) ∨
    (dw k.cdw10 0 8 = 4 ∧ ((dw k.cdw11 16 4 = 0 ∧ dw k.cdw11 20 2 = 0 ∧ x = c.tempOver.toNat) ∨ (dw k.cdw11 16 4 = 0 ∧ dw k.cdw11 20 2 = 1 ∧ x = c.tempUnder.toNat) ∨
      (dw k.cdw11 16 4 = 1 ∧ dw k.cdw11 20 2 = 0 ∧ x = c.tempOver1.toNat) ∨ (dw k.cdw11 16 4 = 1 ∧ dw k.cdw11 20 2 = 1 ∧ x = c.tempUnder1.toNat)))) :
    dw k.cdw10 0 8 ≠ 0x0C ∧ u.nvFeature k.ctl k = some x := by
  obtain ⟨h1, h2, h7, h8, hB, hF⟩ := nvFeature_values u k
  rcases hx with ⟨hw, hx⟩ | ⟨hw, hx⟩ | ⟨hw, hx⟩ | ⟨hw, hx⟩ | ⟨hw, hx⟩ | ⟨hw, hx⟩ | ⟨hw, ht⟩
  · exact ⟨by omega, (h1 hw).trans (congrArg some hx.symm)⟩
  · exact ⟨by omega, (h2 hw).trans (congrArg some hx.symm)⟩
  · exact ⟨by omega, (h7 hw).trans (congrArg some hx.symm)⟩
  · exact ⟨by omega, (h8 hw).trans (congrArg some hx.symm)⟩
  · exact ⟨by omega, (hB hw).trans (congrArg some hx.symm)⟩
  · exact ⟨by omega, (hF hw).trans (congrArg some hx.symm)⟩
  · obtain ⟨hover, hunder, hover1, hunder1⟩ := nvFeature_temperature (u := u) hw
    refine ⟨by omega, ?_⟩
    rcases ht with ⟨hs, ht, hx⟩ | ⟨hs, ht, hx⟩ | ⟨hs, ht, hx⟩ | ⟨hs, ht, hx⟩
    · exact (hover hs ht).trans (congrArg some hx.symm)
    · exact (hunder hs ht).trans (congrArg some hx.symm)
    · exact (hover1 hs ht).trans (congrArg some hx.symm)
    · exact (hunder1 hs ht).trans (congrArg some hx.symm)

/-- No other feature. -/
theorem nvFeature_other (h : dw k.cdw10 0 8 ∉ [1, 2, 4, 7, 8, 0x0B, 0x0C, 0x0F]) : u.nvFeature k.ctl k = none := by
  simp only [List.mem_cons, List.not_mem_nil, or_false, not_or] at h
  unfold State.nvFeature
  split
  case h_9 => rfl
  all_goals omega

/-- A feature that is given in Dword 0 alone. -/
theorem getFeatures_plain {v : Nat} (h : Claims.Fetches s k n u) (h0 : k.sqid = 0) (hsel : dw k.cdw10 8 3 = 0) (hw : dw k.cdw10 0 8 ≠ 0x0C) (hv : u.nvFeature k.ctl k = some v) :
    exec (.getFeatures k) s = .next (u.nvSettle k.ctl k.sqid k.cid (some n) 0 (BitVec.ofNat 32 v) 0 k.nsid) := by
  rw [getFeatures_value h h0 hsel hv, if_neg hw]

/-- The autonomous transitions come with their table. -/
theorem getFeatures_apst (h : Claims.Fetches s k n u) (h0 : k.sqid = 0) (hsel : dw k.cdw10 8 3 = 0) (hw : dw k.cdw10 0 8 = 0x0C) : exec (.getFeatures k) s =
    .next ((u.nvData k (padTo 256 (u.ctl k.ctl).apstTable)).nvSettle k.ctl k.sqid k.cid (some n) 0 (BitVec.ofNat 32 (b2n (u.ctl k.ctl).apste)) 0 k.nsid) := by
  rw [getFeatures_value h h0 hsel (nvFeature_apst hw), if_pos hw]

/-- SET_FEATURES that asks for a saved value. -/
theorem setFeatures_saved (h : Claims.Fetches s k n u) (h0 : k.sqid = 0) (hsv : k.cdw10.getLsbD 31 = true) :
    exec (.setFeatures k data) s = .next (u.nvSettle k.ctl k.sqid k.cid (some n) (nvSt 1 0x0D true) 0 0 k.nsid) := by
  have hrow : exec (.setFeatures k data) s = .next (s.nvAdmin k _) := rfl
  rw [admin_exec h h0 hrow]
  exact congrArg Host.Outcome.next (if_pos hsv)

/-- A controller's setting changes, and the command ends. -/
def State.nvPut (u : State) (k : NvCmd) (n : Nat) (f : NvCtl → NvCtl) : State := (u.modCtl k.ctl f).nvSettle k.ctl k.sqid k.cid (some n) 0 0 0 k.nsid

/-- SET_FEATURES of a feature of one field. -/
theorem setFeatures_values (h : Claims.Fetches s k n u) (h0 : k.sqid = 0) (hsv : k.cdw10.getLsbD 31 = false) : let v := k.cdw11
    (dw k.cdw10 0 8 = 1 → exec (.setFeatures k data) s = .next (u.nvPut k n (fun c => { c with arb := v &&& 0xFFFFFF07 }))) ∧
    (dw k.cdw10 0 8 = 2 → exec (.setFeatures k data) s = .next (u.nvSetPower k (some n))) ∧
    (dw k.cdw10 0 8 = 8 → exec (.setFeatures k data) s =
      .next (u.nvPut k n (fun c => c.coalesce (BitVec.ofNat 32 (dw v 0 16)) (min 1024 (ticksOf u.time.period (dw v 8 8 * 100000)))))) ∧
    (dw k.cdw10 0 8 = 0x0B → exec (.setFeatures k data) s = .next (u.nvPut k n (fun c => { c with aec := v }))) ∧
    (dw k.cdw10 0 8 = 0x0C → exec (.setFeatures k data) s = .next (u.nvPut k n (fun c => { c with apste := v.getLsbD 0, apst := padTo 256 data }))) ∧
    (dw k.cdw10 0 8 = 0x0F → exec (.setFeatures k data) s =
      .next (u.nvPut k n (fun c => { c with kato := BitVec.ofNat 32 ((v.toNat + 99) / 100 * 100), katoFrom := u.time.tick }))) := by
  have hrow : exec (.setFeatures k data) s = .next (s.nvAdmin k _) := rfl
  rw [admin_exec h h0 hrow]
  dsimp only
  rw [hsv, if_neg Bool.false_ne_true]
  refine ⟨fun hw => ?_, fun hw => ?_, fun hw => ?_, fun hw => ?_, fun hw => ?_, fun hw => ?_⟩
  all_goals
    rw [hw]
    rfl

/-- SET_FEATURES of a temperature threshold. -/
theorem setFeatures_temperature (h : Claims.Fetches s k n u) (h0 : k.sqid = 0) (hsv : k.cdw10.getLsbD 31 = false) (hw : dw k.cdw10 0 8 = 4) :
    let t := BitVec.ofNat 32 (dw k.cdw11 0 16)
    (dw k.cdw11 16 4 = 0 → dw k.cdw11 20 2 = 0 → exec (.setFeatures k data) s = .next (u.nvPut k n (fun c => { c with tempOver := t }))) ∧
    (dw k.cdw11 16 4 = 0 → dw k.cdw11 20 2 = 1 → exec (.setFeatures k data) s = .next (u.nvPut k n (fun c => { c with tempUnder := t }))) ∧
    (dw k.cdw11 16 4 = 1 → dw k.cdw11 20 2 = 0 → exec (.setFeatures k data) s = .next (u.nvPut k n (fun c => { c with tempOver1 := t }))) ∧
    (dw k.cdw11 16 4 = 1 → dw k.cdw11 20 2 = 1 → exec (.setFeatures k data) s = .next (u.nvPut k n (fun c => { c with tempUnder1 := t }))) := by
  have hrow : exec (.setFeatures k data) s = .next (s.nvAdmin k _) := rfl
  rw [admin_exec h h0 hrow]
  dsimp only
  rw [hsv, if_neg Bool.false_ne_true, hw]
  refine ⟨fun h1 h2 => ?_, fun h1 h2 => ?_, fun h1 h2 => ?_, fun h1 h2 => ?_⟩
  all_goals
    rw [h1, h2]
    rfl

/-- SET_FEATURES of the number of queues. -/
theorem setFeatures_queues (h : Claims.Fetches s k n u) (h0 : k.sqid = 0) (hsv : k.cdw10.getLsbD 31 = false) (hw : dw k.cdw10 0 8 = 7) :
    let m := u.nvmeqOf k.ctl
    let a := min (dw k.cdw11 0 16) ((m + 65535) % 65536)
    let b := min (dw k.cdw11 16 16) ((m + 65535) % 65536)
    exec (.setFeatures k data) s = .next (
      if (u.ctl k.ctl).everIo then u.nvSettle k.ctl k.sqid k.cid (some n) nvBadSeq 0 0 k.nsid
      else if dw k.cdw11 0 16 = 65535 ∨ dw k.cdw11 16 16 = 65535 then u.nvSettle k.ctl k.sqid k.cid (some n) nvBadField 0 0 k.nsid
      else (u.modCtl k.ctl (fun c => { c with nsq := min m (a + 1), ncq := min m (b + 1) })).nvSettle k.ctl k.sqid k.cid (some n) 0 (BitVec.ofNat 32 (a + 65536 * b)) 0 k.nsid) := by
  have hrow : exec (.setFeatures k data) s = .next (s.nvAdmin k _) := rfl
  rw [admin_exec h h0 hrow]
  dsimp only
  rw [hsv, if_neg Bool.false_ne_true, hw]
  rfl

/-- No other feature is set. -/
theorem setFeatures_other (h : Claims.Fetches s k n u) (h0 : k.sqid = 0) (hsv : k.cdw10.getLsbD 31 = false) (hw : dw k.cdw10 0 8 ∉ [1, 2, 4, 7, 8, 0x0B, 0x0C, 0x0F]) :
    exec (.setFeatures k data) s = .next (u.nvSettle k.ctl k.sqid k.cid (some n) nvBadField 0 0 k.nsid) := by
  have hrow : exec (.setFeatures k data) s = .next (s.nvAdmin k _) := rfl
  simp only [List.mem_cons, List.not_mem_nil, or_false, not_or] at hw
  rw [admin_exec h h0 hrow]
  dsimp only
  rw [hsv, if_neg Bool.false_ne_true]
  split
  case h_9 => rfl
  all_goals omega

/-! ### Firmware (R322) -/

/-- The status of FIRMWARE_IMAGE_DOWNLOAD. -/
def downloadStatus (u : State) (k : NvCmd) : Nat :=
  if k.ctl ≠ 2 then nvBadOpcode
  else if 4 * (k.cdw10.toNat + 1) % 4096 ≠ 0 ∨ 4 * k.cdw11.toNat % 4096 ≠ 0 ∨ 1048576 < 4 * (k.cdw10.toNat + 1) ∨ imageEnd < 4 * k.cdw11.toNat + 4 * (k.cdw10.toNat + 1) then nvBadField
  else if prpBad k then nvBadPrp
  else if (u.holding [obj .slot u.otherSlot]).isSome ∨ u.chipUsable u.otherSlot = false then nvBadSeq
  else if u.power.warn then nvSt 0 0x06 false else 0

/-- FIRMWARE_IMAGE_DOWNLOAD. -/
theorem download_row (h : Claims.Fetches s k n u) (h0 : k.sqid = 0) : exec (.firmwareImageDownload k data) s =
    .next (if downloadStatus u k ≠ 0 then u.nvSettle k.ctl k.sqid k.cid (some n) (downloadStatus u k) 0 0 k.nsid
      else (u.slotWrite u.otherSlot (4 * k.cdw11.toNat) (padTo (4 * (k.cdw10.toNat + 1)) data)).nvSettle k.ctl k.sqid k.cid (some n) 0 0 0 k.nsid) := by
  have hrow : exec (.firmwareImageDownload k data) s = .next (s.nvAdmin k _) := rfl
  exact admin_exec h h0 hrow

/-- A download that fails. -/
theorem download_fails {st : Nat} (h : Claims.Fetches s k n u) (h0 : k.sqid = 0) (hst : downloadStatus u k = st) (hne : st ≠ 0) :
    exec (.firmwareImageDownload k data) s = .next (u.nvSettle k.ctl k.sqid k.cid (some n) st 0 0 k.nsid) := by
  subst hst
  exact (download_row h h0).trans (congrArg Host.Outcome.next (if_pos hne))

/-- One that writes its slot. -/
theorem download_writes (h : Claims.Fetches s k n u) (h0 : k.sqid = 0) (hst : downloadStatus u k = 0) : exec (.firmwareImageDownload k data) s =
    .next ((u.slotWrite u.otherSlot (4 * k.cdw11.toNat) (padTo (4 * (k.cdw10.toNat + 1)) data)).nvSettle k.ctl k.sqid k.cid (some n) 0 0 0 k.nsid) :=
  (download_row h h0).trans (congrArg Host.Outcome.next (if_neg (not_not.mpr hst)))

/-- A download whose fields and PRPs are good. -/
theorem download_good (hctl : k.ctl = 2) (hlen : 4 * (k.cdw10.toNat + 1) % 4096 = 0) (hoff : 4 * k.cdw11.toNat % 4096 = 0) (hmost : 4 * (k.cdw10.toNat + 1) ≤ 1048576)
    (hend : 4 * k.cdw11.toNat + 4 * (k.cdw10.toNat + 1) ≤ imageEnd) (hprps : ∀ p ∈ k.prps, p.toNat % 4096 = 0) : downloadStatus u k =
      if (u.holding [obj .slot u.otherSlot]).isSome ∨ u.chipUsable u.otherSlot = false then nvBadSeq else if u.power.warn then nvSt 0 0x06 false else 0 := by
  have hfield : ¬ (4 * (k.cdw10.toNat + 1) % 4096 ≠ 0 ∨ 4 * k.cdw11.toNat % 4096 ≠ 0 ∨ 1048576 < 4 * (k.cdw10.toNat + 1) ∨ imageEnd < 4 * k.cdw11.toNat + 4 * (k.cdw10.toNat + 1)) := by
    omega
  have hprp : ¬ prpBad k = true := fun hbad => by
    obtain ⟨p, hp, hne⟩ := (prpBad_iff k).mp hbad
    exact hne (hprps p hp)
  rw [downloadStatus, if_neg (not_not.mpr hctl), if_neg hfield, if_neg hprp]

/-- The slot that passed is marked, and with CA 3 the standby management processor is asked to run it. -/
def State.nvMark (u : State) (k : NvCmd) (n slot : Nat) : State :=
  let w := u.writeMarker slot
  if dw k.cdw10 3 3 ≠ 3 then w.nvSettle k.ctl k.sqid k.cid (some n) 0 0 0 k.nsid
  else if w.standbyUsable = false ∨ w.slotValid slot = false ∨ ¬(w.dev.state = 2 ∨ w.dev.state = 3) ∨ w.repair.mpSwitch.isSome = true then
    w.nvSettle k.ctl k.sqid k.cid (some n) (nvSt 1 0x13 true) 0 0 k.nsid
  else
    let x := if (w.ctl 2).aec.getLsbD 9 then w.nvEvent 2 evtActivation true else w
    ({ x with repair := { x.repair with mpSwitch := some (slot, x.time.tick, hdrSeq (x.slotHdr slot)) } }).modCtl 2 (fun c => { c with fwWait := some (k.cid, n) })

/-- FIRMWARE_COMMIT of PF2 to a slot that FS names. -/
theorem firmwareCommit_row {z : Nat} (h : Claims.Fetches s k n u) (h0 : k.sqid = 0) (hctl : k.ctl = 2) (hz : u.fsSlot (dw k.cdw10 0 3) = some z) :
    let ends := fun st => u.nvSettle k.ctl k.sqid k.cid (some n) st 0 0 k.nsid
    exec (.firmwareCommit k) s = .next (
      if (u.holding [obj .slot z]).isSome then ends nvBadSeq
      else if dw k.cdw10 3 3 = 2 then ends (if u.nextSlot = some z then 0 else nvSt 1 0x06 true)
      else if dw k.cdw10 3 3 ≠ 0 ∧ dw k.cdw10 3 3 ≠ 1 ∧ dw k.cdw10 3 3 ≠ 3 then ends nvBadField
      else if u.boot.runSlot = some z then ends (nvSt 1 0x06 true)
      else if u.power.warn then ends (nvSt 1 0x13 true)
      else if u.chipUsable z = false ∨ u.validateStatus z ≠ 0 then ends (nvSt 1 0x07 true) else u.nvMark k n z) := by
  have hrow : exec (.firmwareCommit k) s = .next (s.nvAdmin k _) := rfl
  rw [admin_exec h h0 hrow]
  dsimp only
  rw [if_neg (not_not.mpr hctl), hz] <;> rfl

/-- A busy slot. -/
theorem slotBusy_iff {slot : Nat} : (u.holding [obj .slot slot]).isSome = true ↔ u.holding [obj .slot slot] ≠ none := Option.isSome_iff_ne_none

/-- FS above 2 names no slot. -/
theorem firmwareCommit_noSlot (h : Claims.Fetches s k n u) (h0 : k.sqid = 0) (hctl : k.ctl = 2) (hz : 3 ≤ dw k.cdw10 0 3) :
    exec (.firmwareCommit k) s = .next (u.nvSettle k.ctl k.sqid k.cid (some n) (nvSt 1 6 true) 0 0 k.nsid) := by
  have hnone : u.fsSlot (dw k.cdw10 0 3) = none := by
    unfold State.fsSlot
    split
    case h_4 => rfl
    all_goals omega
  have hrow : exec (.firmwareCommit k) s = .next (s.nvAdmin k _) := rfl
  rw [admin_exec h h0 hrow]
  dsimp only
  rw [if_neg (not_not.mpr hctl), hnone] <;> rfl

/-- FIRMWARE_COMMIT of another controller. -/
theorem firmwareCommit_bad (h : Claims.Fetches s k n u) (h0 : k.sqid = 0) (hctl : k.ctl ≠ 2) :
    exec (.firmwareCommit k) s = .next (u.nvSettle k.ctl k.sqid k.cid (some n) nvBadOpcode 0 0 k.nsid) := by
  have hrow : exec (.firmwareCommit k) s = .next (s.nvAdmin k _) := rfl
  rw [admin_exec h h0 hrow]
  exact congrArg Host.Outcome.next (if_pos hctl)

/-- The slot that FS names. -/
theorem fsSlot_named {z : Nat} (hz : (dw k.cdw10 0 3 = 0 ∧ z = u.otherSlot) ∨ (dw k.cdw10 0 3 = 1 ∧ z = 0) ∨ (dw k.cdw10 0 3 = 2 ∧ z = 1)) : u.fsSlot (dw k.cdw10 0 3) = some z := by
  rcases hz with ⟨hfs, rfl⟩ | ⟨hfs, rfl⟩ | ⟨hfs, rfl⟩
  all_goals
    rw [hfs]
    rfl

/-- The values of CA that are no action. -/
theorem marks_not {ca : Nat} (h : ca ∉ [0, 1, 2, 3]) : ca ≠ 2 ∧ ca ≠ 0 ∧ ca ≠ 1 ∧ ca ≠ 3 := by
  simp only [List.mem_cons, List.not_mem_nil, or_false, not_or] at h
  omega

/-- The values of CA that mark a slot. -/
theorem marks_of {ca : Nat} (h : ca ∈ [0, 1, 3]) : ca ≠ 2 ∧ ¬ (ca ≠ 0 ∧ ca ≠ 1 ∧ ca ≠ 3) := by
  simp only [List.mem_cons, List.not_mem_nil, or_false] at h
  omega

/-- FIRMWARE_COMMIT to a slot that is not busy, with a CA that marks it. -/
theorem firmwareCommit_marks {z : Nat} (h : Claims.Fetches s k n u) (h0 : k.sqid = 0) (hctl : k.ctl = 2) (hz : u.fsSlot (dw k.cdw10 0 3) = some z)
    (hfree : ¬ u.holding [obj .slot z] ≠ none) (hca : dw k.cdw10 3 3 ∈ [0, 1, 3]) : let ends := fun st => u.nvSettle k.ctl k.sqid k.cid (some n) st 0 0 k.nsid
    exec (.firmwareCommit k) s = .next (
      if u.boot.runSlot = some z then ends (nvSt 1 0x06 true) else if u.power.warn then ends (nvSt 1 0x13 true)
      else if u.chipUsable z = false ∨ u.validateStatus z ≠ 0 then ends (nvSt 1 0x07 true) else u.nvMark k n z) := by
  obtain ⟨htwo, hfield⟩ := marks_of hca
  intro ends
  rw [firmwareCommit_row h h0 hctl hz, if_neg (mt slotBusy_iff.mp hfree), if_neg htwo, if_neg hfield]

end AdminCommands

/-- Settles O43: each command by its row. -/
theorem nvmeAdminCommandsAnswer : Obligations.NvmeAdminCommandsAnswer := by
  unfold Obligations.NvmeAdminCommandsAnswer
  intro s k data n u hf h0 c ends gives what v part nsid
  obtain ⟨hlog1, hlog2, hlog3, hlog5⟩ := nvLog_pages u k
  refine ⟨fun hw => ⟨fun ns hns => nvmeIdentify_gives hf h0 ((identifyData_namespace hw).1 ns hns), fun hnone => ?_⟩, fun hw => ?_, fun hw => ?_,
    fun hw => ⟨fun ns hns => nvmeIdentify_gives hf h0 ((identifyData_descriptors hw).1 ns hns), fun hnone => nvmeIdentify_ends hf h0 ((identifyData_descriptors hw).2 hnone)⟩,
    fun hw => nvmeIdentify_ends hf h0 (identifyData_other hw), fun page hpage => ?_, fun hw hzero hall => ?_, fun hw => getLogPage_ends hf h0 (nvLog_other hw), fun hsel => ?_, fun hsel => ?_,
    setFeatures_saved hf h0, fun hsv => ?_, fun hctl => ⟨download_fails hf h0 (if_pos hctl) (by decide), firmwareCommit_bad hf h0 hctl⟩, fun hctl => ?_⟩
  · have hdata := (identifyData_namespace hw).2 hnone
    split
    case isTrue hin => exact nvmeIdentify_gives hf h0 (hdata.trans (if_pos hin))
    case isFalse hout => exact nvmeIdentify_ends hf h0 (hdata.trans (if_neg hout))
  · exact nvmeIdentify_gives hf h0 (identifyData_controller hw)
  · have hdata := identifyData_active (u := u) hw
    split
    case isTrue hbad => exact nvmeIdentify_ends hf h0 (hdata.trans (if_pos hbad))
    case isFalse hgood => exact nvmeIdentify_gives hf h0 (hdata.trans (if_neg hgood))
  · refine getLogPage_gives hf h0 ?_
    rcases hpage with ⟨hw, hp⟩ | ⟨hw, hns, hp⟩ | ⟨hw, hp⟩ | ⟨hw, hp⟩
    · exact (hlog1 hw).trans (congrArg Except.ok hp.symm)
    · exact ((hlog2 hw).trans (if_pos hns)).trans (congrArg Except.ok hp.symm)
    · exact (hlog3 hw).trans (congrArg Except.ok hp.symm)
    · exact (hlog5 hw).trans (congrArg Except.ok hp.symm)
  · exact getLogPage_ends hf h0 ((hlog2 hw).trans (if_neg (fun hor => hor.elim hzero hall)))
  · exact getFeatures_ends hf h0 (if_pos hsel)
  · refine ⟨fun x hx => ?_, fun hw => ?_, fun hw => getFeatures_ends hf h0 ((if_neg (not_not.mpr hsel)).trans (nvFeature_other hw))⟩
    · obtain ⟨hw, hv⟩ := feature_value hx
      exact getFeatures_plain hf h0 hsel hw hv
    · exact getFeatures_apst hf h0 hsel hw
  · obtain ⟨h1, h2, h8, hB, hC, hF⟩ := setFeatures_values (data := data) hf h0 hsv
    have htemp := fun hw => setFeatures_temperature (data := data) hf h0 hsv hw
    have hqueues := fun hw => setFeatures_queues (data := data) hf h0 hsv hw
    intro sets t
    refine ⟨h1, h2, fun hw => (htemp hw).1, fun hw => (htemp hw).2.1, fun hw => (htemp hw).2.2.1, fun hw => (htemp hw).2.2.2,
      fun hw => ⟨fun hever => ?_, fun hfresh hbad => ?_, fun hfresh hlo hhi => ?_⟩, h8, hB, hC, hF, setFeatures_other hf h0 hsv⟩
    · exact (hqueues hw).trans (congrArg Host.Outcome.next (if_pos hever))
    · exact (hqueues hw).trans (congrArg Host.Outcome.next ((if_neg (ne_true_of_eq_false hfresh)).trans (if_pos hbad)))
    · exact (hqueues hw).trans (congrArg Host.Outcome.next ((if_neg (ne_true_of_eq_false hfresh)).trans (if_neg (fun hor => hor.elim hlo hhi))))
  · intro slot len off busy
    refine ⟨fun hbad => ?_, fun hlen hoff hmost hend hprps => ⟨fun hbad => ?_, fun hfree husable hwarn => ?_⟩, firmwareCommit_noSlot hf h0 hctl, fun z hz => ?_⟩
    · exact download_fails hf h0 ((if_neg (not_not.mpr hctl)).trans (if_pos hbad)) (by decide)
    · exact download_fails hf h0 ((download_good hctl hlen hoff hmost hend hprps).trans (if_pos (hbad.imp slotBusy_iff.mpr id))) (by decide)
    · refine download_writes hf h0 ((download_good hctl hlen hoff hmost hend hprps).trans ((if_neg ?_).trans (if_neg (ne_true_of_eq_false hwarn))))
      rintro (hheld | hno)
      · exact hfree (slotBusy_iff.mp hheld)
      · exact Bool.false_ne_true (hno.symm.trans husable)
    · have hslot := fsSlot_named hz
      intro ca
      refine ⟨fun hbusy => ?_, fun hfree hca => ?_, fun hfree hca => ?_, fun hfree hca hrun => ?_, fun hfree hca hrun hwarn hbad => ?_, fun hfree hca hrun hwarn husable hvalid => ?_⟩
      · exact (firmwareCommit_row hf h0 hctl hslot).trans (congrArg Host.Outcome.next (if_pos (slotBusy_iff.mpr hbusy)))
      · exact (firmwareCommit_row hf h0 hctl hslot).trans (congrArg Host.Outcome.next ((if_neg (mt slotBusy_iff.mp hfree)).trans (if_pos hca)))
      · obtain ⟨htwo, hfield⟩ := marks_not hca
        exact (firmwareCommit_row hf h0 hctl hslot).trans (congrArg Host.Outcome.next ((if_neg (mt slotBusy_iff.mp hfree)).trans ((if_neg htwo).trans (if_pos hfield))))
      · exact (firmwareCommit_marks hf h0 hctl hslot hfree hca).trans (congrArg Host.Outcome.next (if_pos hrun))
      · exact (firmwareCommit_marks hf h0 hctl hslot hfree hca).trans
          (congrArg Host.Outcome.next ((if_neg hrun).trans ((if_neg (ne_true_of_eq_false hwarn)).trans (if_pos hbad))))
      · have hmark := (firmwareCommit_marks hf h0 hctl hslot hfree hca).trans
          (congrArg Host.Outcome.next ((if_neg hrun).trans ((if_neg (ne_true_of_eq_false hwarn)).trans
            (if_neg (fun hor => hor.elim (fun hno => Bool.false_ne_true (hno.symm.trans husable)) (fun hne => hne hvalid))))))
        intro w
        refine ⟨fun hca3 => hmark.trans (congrArg Host.Outcome.next (if_pos hca3)), fun hca3 hstandby hgood hdev hswitch => ?_⟩
        refine hmark.trans (congrArg Host.Outcome.next ((if_neg (not_not.mpr hca3)).trans (if_neg ?_)))
        rintro (hno | hno | hno | hno)
        · exact Bool.false_ne_true (hno.symm.trans hstandby)
        · exact Bool.false_ne_true (hno.symm.trans hgood)
        · exact hno hdev
        · exact Option.isSome_iff_ne_none.mp hno hswitch

end Sys2Proof.Machine
end

section
/-!
SUPPORT. What the NVMe I/O commands do, and how power states change (R304, R305, R314, R315): the theorem that settles O44.
-/

namespace Sys2Proof.Machine

open Sys2Proof

set_option Elab.async false

/-! ### I/O commands (R304, R305) -/

section InOut

variable {s u : State} {k : NvCmd} {opc n : Nat}

/-- The rows of I/O commands are one meaning with their opcodes. -/
theorem nvIoRow_exec (s : State) {x : Instr × Nat} (h : Claims.NvIoRow k x) : exec x.1 s = .next (s.nvIo x.2 k) := by
  simp only [Claims.NvIoRow, List.mem_cons, List.not_mem_nil, or_false] at h
  rcases h with rfl | rfl | rfl
  all_goals rfl

/-- Without a buffer a command stays in its ring (R154). -/
theorem nvIo_waits {q : NvSq} (hq : s.nvFetchable k.ctl k.sqid = some q) (hno : (s.alloc 64 false ownHost).1 = none) : s.nvIo opc k = s.allocWaits ownHost := by
  rw [State.nvIo, hq, hno]
  rfl

/-- With one it is fetched: an aborted one is passed over, one without an operation deferred. -/
theorem nvIo_fetch {q : NvSq} (hq : s.nvFetchable k.ctl k.sqid = some q) (hbuf : (s.alloc 64 false ownHost).1 ≠ none) :
    (k.cid ∈ q.aborted → s.nvIo opc k = Claims.fetchedAs s k { Claims.moveHead q with aborted := q.aborted.erase k.cid }) ∧
    (k.cid ∉ q.aborted → (s.opRoom (fnInstHalf k.ctl) = false ∨ s.freeOp = none) → s.nvIo opc k = s.deferNv k.ctl) := by
  rw [State.nvIo, Option.isNone_eq_false_iff.mpr (Option.isSome_iff_ne_none.mpr hbuf), Bool.and_false, if_neg Bool.false_ne_true]
  exact ⟨fun ha => nvFetch_aborted hq ha, fun ha hfull => nvFetch_deferred hq ha hfull⟩

/-- A command that is fetched is checked, and offered to an engine or kept outstanding while a transition goes on (R315). -/
theorem nvIo_runs (h : Claims.Fetches s k n u) (hbuf : (s.alloc 64 false ownHost).1 ≠ none) : s.nvIo opc k =
    let st := if k.sqid = 0 then nvBadOpcode else u.nvIoCheck opc k
    if st ≠ 0 then u.nvSettle k.ctl k.sqid k.cid (some n) st 0 (if opc = 0 then 0 else k.cdw10.toNat + 2 ^ 32 * k.cdw11.toNat) k.nsid
    else match (generalizing := false) u.alloc 64 false ownHost with
      | (none, v) => v.allocWaits ownHost
      | (some b, v) =>
        let o := Claims.nvCarried v k opc n b
        if (o.ctl k.ctl).trans.isSome then Claims.nvOutstanding o k opc n (if (o.ctl k.ctl).trans.isSome then some b else none)
        else (Claims.nvOutstanding o k opc n (if (o.ctl k.ctl).trans.isSome then some b else none)).nvOffer k.ctl n b := by
  rw [State.nvIo, Option.isNone_eq_false_iff.mpr (Option.isSome_iff_ne_none.mpr hbuf), Bool.and_false, if_neg Bool.false_ne_true, nvFetch_runs h]
  rfl

/-- A command that fails its checks. -/
theorem nvIo_fails {st : Nat} (h : Claims.Fetches s k n u) (hbuf : (s.alloc 64 false ownHost).1 ≠ none) (hst : (if k.sqid = 0 then nvBadOpcode else u.nvIoCheck opc k) = st)
    (hne : st ≠ 0) : s.nvIo opc k = u.nvSettle k.ctl k.sqid k.cid (some n) st 0 (if opc = 0 then 0 else k.cdw10.toNat + 2 ^ 32 * k.cdw11.toNat) k.nsid := by
  rw [nvIo_runs h hbuf]
  subst hst
  exact if_pos hne

/-- A command that passes them, with its buffer. -/
theorem nvIo_passes {b : Word} {v : State} (h : Claims.Fetches s k n u) (hbuf : (s.alloc 64 false ownHost).1 ≠ none)
    (hst : (if k.sqid = 0 then nvBadOpcode else u.nvIoCheck opc k) = 0) (ha : u.alloc 64 false ownHost = (some b, v)) : let o := Claims.nvCarried v k opc n b
    ((o.ctl k.ctl).trans = none → s.nvIo opc k = (Claims.nvOutstanding o k opc n none).nvOffer k.ctl n b) ∧
    ((o.ctl k.ctl).trans ≠ none → s.nvIo opc k = Claims.nvOutstanding o k opc n (some b)) := by
  intro o
  have hrun : s.nvIo opc k = if (o.ctl k.ctl).trans.isSome then Claims.nvOutstanding o k opc n (if (o.ctl k.ctl).trans.isSome then some b else none)
      else (Claims.nvOutstanding o k opc n (if (o.ctl k.ctl).trans.isSome then some b else none)).nvOffer k.ctl n b := by
    rw [nvIo_runs h hbuf]
    dsimp only
    rw [if_neg (not_not.mpr hst), ha]
  refine ⟨fun hnone => ?_, fun hsome => ?_⟩
  · rw [hrun, hnone, Option.isSome_none, if_neg Bool.false_ne_true, if_neg Bool.false_ne_true]
  · rw [hrun, Option.isSome_iff_ne_none.mpr hsome, if_pos rfl, if_pos rfl]

/-- The checks in the order of R305. -/
theorem nvIoCheck_eq {st : Nat} (h : Claims.NvIoStatus u k opc st) : u.nvIoCheck opc k = st := by
  obtain ⟨hinfo, hnone, hns⟩ := h
  unfold State.nvIoCheck
  by_cases hbad : opc ≠ 0 ∧ dw k.cdw12 26 4 ≠ 0
  · rw [if_pos hbad]
    exact (hinfo hbad.1 hbad.2).symm
  · have hgood : opc = 0 ∨ bits k.cdw12.toNat 26 4 = 0 := by
      rw [not_and_or, not_not, not_not] at hbad
      exact hbad
    rw [if_neg hbad]
    cases hat : u.nsAt k.ctl k.nsid.toNat with
    | none => exact (hnone hgood hat).symm
    | some d =>
      obtain ⟨hgone, hthere⟩ := hns d hgood hat
      dsimp only
      cases hd : u.ns d with
      | none => exact (hgone hd).symm
      | some x =>
        obtain ⟨hflush, hmove⟩ := hthere x hd
        dsimp only
        split_ifs with h0 hlen hrange hprp
        · exact (hflush h0).symm
        · exact ((hmove h0).1 hlen).symm
        · exact (((hmove h0).2 (Nat.not_lt.mp hlen)).1 hrange).symm
        · exact ((((hmove h0).2 (Nat.not_lt.mp hlen)).2 (Nat.not_lt.mp hrange)).1 ((prpBad_iff k).mp hprp)).symm
        · refine ((((hmove h0).2 (Nat.not_lt.mp hlen)).2 (Nat.not_lt.mp hrange)).2 (fun p hp => ?_)).symm
          by_contra hne
          exact hprp ((prpBad_iff k).mpr ⟨p, hp, hne⟩)

end InOut

/-! ### Power states (R314, R315) -/

/-- APST_TRANSITION. -/
theorem apst_eq (s : State) (i : Nat) : let c := s.ctl i
    let rule := fieldLe c.apstTable (8 * c.ps) 8
    exec (.apstTransition i) s = .next (
      if (c.enabled && c.apste && !c.busy && c.trans.isNone && decide (bits rule 8 24 ≠ 0) && decide (c.ps < bits rule 3 5) && decide (bits rule 3 5 ≤ 3) &&
        decide (c.idleSince + s.msTicks (bits rule 8 24) ≤ s.time.tick)) = true
      then s.setCtl i { c with trans := some (NvTrans.mk c.ps (bits rule 3 5) (s.time.tick + s.usTicks (psEnlat (bits rule 3 5)) - 1) false) } else s) := rfl

/-- POWER_STATE_TRANSITION_END without a transition, or before its end. -/
theorem transitionEnd_early (s : State) (i : Nat) : ((s.ctl i).trans = none → exec (.powerStateTransitionEnd i) s = .next s) ∧
    (∀ t, (s.ctl i).trans = some t → s.time.tick < t.endTick → exec (.powerStateTransitionEnd i) s = .next s) := by
  refine ⟨fun hnone => ?_, fun t ht hearly => ?_⟩
  · show execPowerStateTransitionEnd i s = _
    rw [execPowerStateTransitionEnd]
    dsimp only
    rw [hnone]
  · show execPowerStateTransitionEnd i s = _
    rw [execPowerStateTransitionEnd]
    dsimp only
    rw [ht]
    exact congrArg Host.Outcome.next (if_pos hearly)

/-- The controller at the end of a transition. -/
def NvCtl.ended (c : NvCtl) (t : NvTrans) (tick : Nat) : NvCtl :=
  { c with ps := t.target, trans := none, lastOper := if t.target < 3 then t.target else if t.source < 3 then t.source else c.lastOper, idleSince := tick + 1 }

/-- Whether a queue of a controller holds a command. -/
def NvCtl.rings (c : NvCtl) : Bool := c.sqs.any (fun e => match e.2 with | some q => decide (q.head ≠ q.tail) | none => false)

/-- POWER_STATE_TRANSITION_END at its end. -/
theorem transitionEnd_eq {s : State} {i : Nat} {t : NvTrans} (ht : (s.ctl i).trans = some t) (hend : t.endTick ≤ s.time.tick) :
    let u := (s.setCtl i ((s.ctl i).ended t s.time.tick)).nvPowerSet i
    exec (.powerStateTransitionEnd i) s = .next (
      if t.leaving then (u.nvRelease i).pumpBackends
      else if (s.ctl i).outs.any (fun o => o.waits.isSome) then
        u.modCtl i (fun c => { c with trans := some (NvTrans.mk t.target t.source (s.time.tick + s.usTicks (psExlat t.target)) true) })
      else if (s.ctl i).rings then u.nvWake i else u) := by
  intro u
  show execPowerStateTransitionEnd i s = _
  rw [execPowerStateTransitionEnd]
  dsimp only
  rw [ht]
  exact congrArg Host.Outcome.next (if_neg (Nat.not_lt.mpr hend))

/-- A command that waits for an exit. -/
theorem anyWaits_iff (c : NvCtl) : c.outs.any (fun o => o.waits.isSome) = true ↔ ∃ o ∈ c.outs, o.waits ≠ none :=
  List.any_eq_true.trans (exists_congr (fun _ => and_congr Iff.rfl Option.isSome_iff_ne_none))

/-- A queue that holds a command. -/
theorem rings_iff (c : NvCtl) : c.rings = true ↔ ∃ e ∈ c.sqs, ∃ q, e.2 = some q ∧ q.head ≠ q.tail := by
  rw [NvCtl.rings, List.any_eq_true]
  refine exists_congr (fun e => and_congr Iff.rfl ?_)
  obtain ⟨i, _ | q⟩ := e
  · simp
  · simp

/-- Settles O44: an I/O command by its fetch and its checks, a power state by its rule. -/
theorem nvmeCommandsRunAndPowerChanges : Obligations.NvmeCommandsRunAndPowerChanges := by
  unfold Obligations.NvmeCommandsRunAndPowerChanges
  refine fun s k => ⟨fun x hx q hq => ?_, fun i => ?_⟩
  · rw [nvIoRow_exec s hx]
    refine ⟨fun hno => congrArg Host.Outcome.next (nvIo_waits hq hno), fun hbuf => ?_⟩
    obtain ⟨haborted, hdefer⟩ := nvIo_fetch (opc := x.2) hq hbuf
    refine ⟨fun ha => congrArg Host.Outcome.next (haborted ha), fun ha hfull => congrArg Host.Outcome.next (hdefer ha hfull), fun n u hf => ?_⟩
    refine ⟨fun h0 => congrArg Host.Outcome.next (nvIo_fails hf hbuf (if_pos h0) (by decide)), fun h0 st hst => ?_⟩
    have hcheck : (if k.sqid = 0 then nvBadOpcode else u.nvIoCheck x.2 k) = st := (if_neg h0).trans (nvIoCheck_eq hst)
    refine ⟨fun hne => congrArg Host.Outcome.next (nvIo_fails hf hbuf hcheck hne), fun hzero b v ha => ?_⟩
    obtain ⟨hoffer, hkeep⟩ := nvIo_passes hf hbuf (hcheck.trans hzero) ha
    exact ⟨fun hnone => congrArg Host.Outcome.next (hoffer hnone), fun hsome => congrArg Host.Outcome.next (hkeep hsome)⟩
  · intro c rule idle next goes
    have hgoes : (c.enabled && c.apste && !c.busy && c.trans.isNone && decide (idle ≠ 0) && decide (c.ps < next) && decide (next ≤ 3) &&
        decide (c.idleSince + s.msTicks idle ≤ s.time.tick)) = true ↔ goes := by
      simp only [Bool.and_eq_true, Bool.not_eq_true', decide_eq_true_eq, Option.isNone_iff_eq_none, and_assoc, goes]
    obtain ⟨hquiet, hearly⟩ := transitionEnd_early s i
    refine ⟨fun hyes => (apst_eq s i).trans (congrArg Host.Outcome.next (if_pos (hgoes.mpr hyes))),
      fun hno => (apst_eq s i).trans (congrArg Host.Outcome.next (if_neg (mt hgoes.mp hno))), hquiet, fun t ht => ⟨hearly t ht, fun hend => ?_⟩⟩
    have hrun := transitionEnd_eq ht hend
    refine ⟨fun hleaves => hrun.trans (congrArg Host.Outcome.next (if_pos hleaves)), fun henters hwait => ?_, fun henters hnone => ⟨fun hring => ?_, fun hempty => ?_⟩⟩
    · exact hrun.trans (congrArg Host.Outcome.next ((if_neg (ne_true_of_eq_false henters)).trans (if_pos ((anyWaits_iff c).mpr hwait))))
    · have hno : ¬ c.outs.any (fun o => o.waits.isSome) = true := fun hyes => by
        obtain ⟨o, ho, hne⟩ := (anyWaits_iff c).mp hyes
        exact hne (hnone o ho)
      exact hrun.trans (congrArg Host.Outcome.next ((if_neg (ne_true_of_eq_false henters)).trans ((if_neg hno).trans (if_pos ((rings_iff c).mpr hring)))))
    · have hno : ¬ c.outs.any (fun o => o.waits.isSome) = true := fun hyes => by
        obtain ⟨o, ho, hne⟩ := (anyWaits_iff c).mp hyes
        exact hne (hnone o ho)
      have hquiet : ¬ c.rings = true := fun hyes => by
        obtain ⟨e, he, q, hq, hne⟩ := (rings_iff c).mp hyes
        exact hne (hempty e he q hq)
      exact hrun.trans (congrArg Host.Outcome.next ((if_neg (ne_true_of_eq_false henters)).trans ((if_neg hno).trans (if_neg hquiet))))

end Sys2Proof.Machine
end

section
/-!
SUPPORT. What the events of start-up do (R386, R409, R414, R421 to R433, R455): the theorem that settles O45.
-/

namespace Sys2Proof.Machine

open Sys2Proof

set_option Elab.async false

/-! ### The repair map (R386, R409) -/

/-- A module that waits for its repair map in native boot. -/
theorem nativeWait_iff (s : State) : s.nativeWait = true ↔ s.power.pwrGood = true ∧ s.boot.stage = .waitRepair ∧ s.boot.straps.compatBoot = false := by
  rw [State.nativeWait, Bool.and_eq_true, Bool.and_eq_true, decide_eq_true_eq, Bool.not_eq_true', and_assoc]

/-- REPAIR_APPLIED. -/
theorem repairApplied_eq (b : Bool) (s : State) : exec (.repairApplied b) s =
    .next (if s.nativeWait then { s.applyMap with repair := { s.applyMap.repair with farrierActive := b2n b } } else s) := rfl

/-- LAST_RESORT_REPAIR. -/
theorem lastResort_eq (s : State) : let a := s.applyMap.reloadFarrier 0 false
    let b := a.2.reloadFarrier 1 false
    exec .lastResortRepair s = .next (if s.nativeWait then
      if a.1 then { a.2 with repair := { a.2.repair with farrierActive := 0, farrierUp := [true, false] } }
      else if b.1 then { b.2 with repair := { b.2.repair with farrierActive := 1 } }
      else State.log { b.2 with dev := { b.2.dev with unmanaged := true } } 0x0B02 0 0 else s) := rfl

/-- LAST_RESORT_REPAIR where the module waits: Farrier A, else Farrier B, else none. -/
theorem lastResort_cases {s : State} (h : s.nativeWait = true) : let a := s.applyMap.reloadFarrier 0 false
    let b := a.2.reloadFarrier 1 false
    (a.1 = true → exec .lastResortRepair s = .next { a.2 with repair := { a.2.repair with farrierActive := 0, farrierUp := [true, false] } }) ∧
    (a.1 = false → b.1 = true → exec .lastResortRepair s = .next { b.2 with repair := { b.2.repair with farrierActive := 1 } }) ∧
    (a.1 = false → b.1 = false → exec .lastResortRepair s = .next (State.log { b.2 with dev := { b.2.dev with unmanaged := true } } 0x0B02 0 0)) := by
  intro a b
  have hrun := (lastResort_eq s).trans (congrArg Host.Outcome.next (if_pos h))
  exact ⟨fun ha => hrun.trans (congrArg Host.Outcome.next (if_pos ha)),
    fun ha hb => hrun.trans (congrArg Host.Outcome.next ((if_neg (ne_true_of_eq_false ha)).trans (if_pos hb))),
    fun ha hb => hrun.trans (congrArg Host.Outcome.next ((if_neg (ne_true_of_eq_false ha)).trans (if_neg (ne_true_of_eq_false hb))))⟩

/-! ### Selection and rounds (R423, R430 to R432) -/

/-- The selection of an image. -/
theorem selectImage_selected (s : State) : Claims.Selected s s.selectImage := by
  rw [Claims.Selected, State.selectImage]
  refine ⟨fun hnone => ?_, fun n hn => ?_⟩
  · rw [hnone]
  · rw [hn]

/-- The start of a round. -/
theorem startRound_started (s : State) : Claims.RoundStarted s s.startRound := by
  rw [Claims.RoundStarted, State.startRound]
  refine ⟨fun hmode => if_pos hmode, fun hmode => ?_⟩
  have hno : ¬ ({ s.noImage with boot := { s.noImage.boot with rounds := s.boot.rounds + 1 } } : State).boot.straps.bootMode = 3#2 := hmode
  dsimp only
  rw [if_neg hno]
  exact selectImage_selected _

/-- When the SP is released. -/
def State.spDue (s : State) : Bool :=
  s.power.pwrGood && !s.power.warn && decide (s.boot.rounds = 0) && decide (s.boot.stage = (if s.boot.straps.compatBoot then .waitRepair else .repaired))

/-- The conditions of the SP's release. -/
theorem spDue_iff (s : State) : s.spDue = true ↔
    s.power.pwrGood = true ∧ s.power.warn = false ∧ s.boot.rounds = 0 ∧ s.boot.stage = (if s.boot.straps.compatBoot then .waitRepair else .repaired) := by
  simp only [State.spDue, Bool.and_eq_true, Bool.not_eq_true', decide_eq_true_eq, and_assoc]

/-- SP_RELEASE. -/
theorem spRelease_eq (s : State) : let u := (if s.boot.straps.compatBoot then s.applyMap else s).start [0]
    exec .spRelease s = .next (if !s.spDue then s else if u.nv.lifecycle = 3 then u.decommissioned else u.spAppends.startRound) := rfl

/-- SP_RELEASE where it is due. -/
theorem spRelease_due {s : State} (h : s.spDue = true) : let u := (if s.boot.straps.compatBoot then s.applyMap else s).start [0]
    exec .spRelease s = .next (if u.nv.lifecycle = 3 then u.decommissioned else u.spAppends.startRound) := by
  intro u
  rw [spRelease_eq, h]
  rfl

/-- RECOVERY_WINDOW_EXPIRY. -/
theorem windowExpiry_eq (s : State) : exec .recoveryWindowExpiry s = .next (
    if !s.boot.window || s.boot.windowHeld || s.monitor.load.isSome || s.power.warn then s
    else if s.boot.preSelect then s.selectImage else (s.resetDomains.start [0]).startRound) := rfl

/-- A window that goes on, or that is not open. -/
theorem windowStays_iff (s : State) : (!s.boot.window || s.boot.windowHeld || s.monitor.load.isSome || s.power.warn) = true ↔
    s.boot.window = false ∨ s.boot.windowHeld = true ∨ s.monitor.load ≠ none ∨ s.power.warn = true := by
  rw [Bool.or_eq_true, Bool.or_eq_true, Bool.or_eq_true, Bool.not_eq_true', Option.isSome_iff_ne_none, or_assoc, or_assoc]

/-! ### Stage 1, and the processors and yards it releases (R414, R427, R428) -/

/-- Whether the digests of the image pass. -/
def State.stage1Ok (s : State) : Bool := partOk s.runHdr s.runBody 1 && partOk s.runHdr s.runBody 2

/-- Both digests pass. -/
theorem stage1Ok_iff (s : State) : s.stage1Ok = true ↔ partOk s.runHdr s.runBody 1 = true ∧ partOk s.runHdr s.runBody 2 = true := by
  rw [State.stage1Ok, Bool.and_eq_true]

/-- The state that the release event leaves, for what is on standby. -/
def State.stage1Released (s : State) (spare : Option (Nat × Nat × Nat)) : State :=
  let u := { s with boot := { s.boot with stage := .released, mpRunning := true, fenced := true, standby := spare },
                    repair := { s.repair with mpActive := if s.repair.mps.getD 0 false then 0 else 1 } }
  (((u.start [1, 2]).start (if s.boot.straps.compatBoot then [3, 4] else [])).loadNotice 136).loadNotice 144

/-- Stage 1 of a selected image. -/
theorem stage1Done_selected {s : State} (h : s.boot.stage = .selected) : s.stage1Done =
    if s.stage1Ok then s.stage1Released (if s.repair.mps.all id then s.boot.runSlot.map (fun n => (n, s.boot.runSeq, s.boot.runVersion)) else none)
    else if s.power.warn then s
    else ((State.resetDomains { s with boot := { s.boot with tried := match s.boot.runSlot with | some n => s.boot.tried ++ [n] | none => s.boot.tried } }).start [0]).selectImage := by
  rw [State.stage1Done, if_neg (not_not.mpr h)] <;> rfl

/-- RELEASE_EVENT without a selected image, or held. -/
theorem releaseEvent_idle (s : State) : (s.boot.stage ≠ .selected → exec .releaseEvent s = .next s) ∧ (s.boot.straps.safeHold = true → exec .releaseEvent s = .next s) := by
  refine ⟨fun hstage => ?_, fun hsafe => congrArg Host.Outcome.next (if_pos hsafe)⟩
  have hidle : s.stage1Done = s := by rw [State.stage1Done, if_pos hstage]
  exact congrArg Host.Outcome.next ((congrArg (fun t => if s.boot.straps.safeHold = true then s else t) hidle).trans (ite_self s))

/-- RELEASE_EVENT that is not held. -/
theorem releaseEvent_runs {s : State} (h : s.boot.straps.safeHold = false) : exec .releaseEvent s = .next s.stage1Done :=
  congrArg Host.Outcome.next (if_neg (ne_true_of_eq_false h))

/-- YARD_RELEASE. -/
theorem yardRelease_eq (s : State) : exec .yardRelease s = .next (if s.boot.mpRunning && decide (s.boot.stage = .released) then
    { s with boot := { s.boot with stage := .yards }, dev := { s.dev with starting := false, testing := true },
             cls := { s.cls with cur := { s.cls.cur with graph := Config.defaultGraph.foldl (fun (m : FMap (List Byte)) n => FMap.set [] m n.1 n.2) s.cls.cur.graph } } }
    else s) := rfl

/-- The processors that have started. -/
theorem mem_start (s : State) (ps : List Nat) (p : Nat) : p ∈ (s.start ps).boot.started ↔ p ∈ s.boot.started ∨ p ∈ ps := by
  show p ∈ s.boot.started ++ ps.filter (fun p => !s.boot.started.contains p) ↔ _
  rw [List.mem_append, List.mem_filter, Bool.not_eq_true', ← Bool.not_eq_true, List.contains_iff_mem]
  exact ⟨Or.imp id And.left, fun h => (em (p ∈ s.boot.started)).elim Or.inl (fun hno => h.imp id (fun hp => ⟨hp, hno⟩))⟩

/-- Settles O45: each event by its condition and its effect. -/
theorem startUpGoesInOrder : Obligations.StartUpGoesInOrder := by
  unfold Obligations.StartUpGoesInOrder
  intro s waits
  have hwait : s.nativeWait = true ↔ waits := nativeWait_iff s
  refine ⟨fun b => ⟨fun h => (repairApplied_eq b s).trans (congrArg Host.Outcome.next (if_pos (hwait.mpr h))),
      fun h => (repairApplied_eq b s).trans (congrArg Host.Outcome.next (if_neg (mt hwait.mp h)))⟩,
    fun h => lastResort_cases (hwait.mpr h), fun h => (lastResort_eq s).trans (congrArg Host.Outcome.next (if_neg (mt hwait.mp h))), ?_, fun hstage => ?_,
    (releaseEvent_idle s).1, fun hmp hstage => ⟨_, (yardRelease_eq s).trans (congrArg Host.Outcome.next (if_pos ?_)), rfl⟩,
    fun hno => (yardRelease_eq s).trans (congrArg Host.Outcome.next (if_neg ?_)), fun p => rfl,
    fun hstays => (windowExpiry_eq s).trans (congrArg Host.Outcome.next (if_pos ((windowStays_iff s).mpr hstays))), fun hopen hheld hload hwarn => ?_, mem_start s, fun p => rfl⟩
  · intro due u
    refine ⟨fun hno => (spRelease_eq s).trans ?_, fun hdue hlife => (spRelease_due ((spDue_iff s).mpr hdue)).trans (congrArg Host.Outcome.next (if_pos hlife)),
      fun hdue hlife => ⟨_, (spRelease_due ((spDue_iff s).mpr hdue)).trans (congrArg Host.Outcome.next (if_neg hlife)), startRound_started _⟩⟩
    rw [eq_false_of_ne_true (mt (spDue_iff s).mp hno)]
    rfl
  · intro ok
    refine ⟨(releaseEvent_idle s).2, fun hsafe hok => ?_, fun hsafe hbad hwarn => ?_, fun hsafe hbad hwarn => ?_⟩
    · intro spare u v
      rw [releaseEvent_runs hsafe, stage1Done_selected hstage, if_pos ((stage1Ok_iff s).mpr hok)]
      exact congrArg (fun o => Host.Outcome.next (s.stage1Released o)) (if_congr List.all_eq_true rfl rfl)
    · rw [releaseEvent_runs hsafe, stage1Done_selected hstage, if_neg (mt (stage1Ok_iff s).mp hbad), if_pos hwarn]
    · rw [releaseEvent_runs hsafe, stage1Done_selected hstage, if_neg (mt (stage1Ok_iff s).mp hbad), if_neg (ne_true_of_eq_false hwarn)]
      exact ⟨_, rfl, selectImage_selected _⟩
  · rw [hmp, decide_eq_true hstage]
    rfl
  · rw [Bool.and_eq_true, decide_eq_true_eq, not_and_or, Bool.not_eq_true]
    exact hno
  · have hgo : ¬ (!s.boot.window || s.boot.windowHeld || s.monitor.load.isSome || s.power.warn) = true := by
      rw [hopen, hheld, hload, hwarn]
      exact Bool.false_ne_true
    have hrun := (windowExpiry_eq s).trans (congrArg Host.Outcome.next (if_neg hgo))
    exact ⟨fun hpre => ⟨_, hrun.trans (congrArg Host.Outcome.next (if_pos hpre)), selectImage_selected s⟩,
      fun hpre => ⟨_, hrun.trans (congrArg Host.Outcome.next (if_neg (ne_true_of_eq_false hpre))), startRound_started _⟩⟩

end Sys2Proof.Machine
end

section
/-!
SUPPORT. What the rows of a stack do (R29, R32, R436 to R446): the theorem that settles O46.
-/

namespace Sys2Proof.Machine

open Sys2Proof

set_option Elab.async false

/-- A CONTROL message that the MP firmware hears in a stack. -/
theorem hear_eq (s : State) (src code about : Nat) : s.hear src code about = Claims.heard s src code about := by
  rw [State.hear, Claims.heard, State.stacked]
  split
  · rfl
  · rfl

/-- A list of Booleans that none of which is true of an element. -/
theorem anyGoing_iff (going : List (Nat × Nat)) (b : Nat) : going.any (fun g => decide (g.1 = b)) = true ↔ ¬ ∀ g ∈ going, g.1 ≠ b := by
  simp [List.any_eq_true]

/-! ### Membership (R438 to R441) -/

/-- Why a STACK_JOIN is not announced. -/
def State.joinIdle (s : State) (pos : Nat) : Bool :=
  !s.stacked || !s.stackLaneUp || s.stack.joinAt.isSome || (s.stack.members.contains pos && !(decide (pos = s.position) && decide (s.stack.members.length = 1)))

/-- STACK_JOIN. -/
theorem stackJoin_eq (s : State) (pos : Fin 8) (tick : Nat) : let w := Claims.heard s pos.val ctlAdmit pos.val
    let u : State := { w with stack := { w.stack with joinAt := some (pos.val, tick, s.time.tick + 1000) } }
    exec (.stackJoin pos tick) s = .next (if s.joinIdle pos.val then w
      else if s.isMaster && decide (pos.val ≠ s.position) then u.controlAll ctlAdmit pos.val (leBytes 8 (s.time.number + 1000)) else u) := by
  intro w u
  show execStackJoin pos tick s = _
  rw [execStackJoin, hear_eq]
  rfl

/-- A STACK_JOIN is announced by a lane that is up, with none before it and a position that is not known. -/
theorem joinIdle_iff (s : State) (pos : Nat) : s.joinIdle pos = false ↔ (s.boot.straps.stackEn = true ∧ s.stackLaneUp = true ∧ s.stack.joinAt = none) ∧
    ¬ (s.stack.members.contains pos = true ∧ ¬ (pos = s.position ∧ s.stack.members.length = 1)) := by
  rw [State.joinIdle, State.stacked, Bool.or_eq_false_iff, Bool.or_eq_false_iff, Bool.or_eq_false_iff, Bool.not_eq_false', Bool.not_eq_false', Option.isSome_eq_false_iff, Option.isNone_iff_eq_none,
    ← Bool.not_eq_true (_ && _), Bool.and_eq_true, Bool.not_eq_true', ← Bool.not_eq_true (_ && _), Bool.and_eq_true, decide_eq_true_eq, decide_eq_true_eq, and_assoc, and_assoc, and_assoc, and_assoc]

/-- The state in which a marker is taken. -/
def State.unwellNow (s : State) (unwell : List (Fin 8)) : State := { s with stack := { s.stack with unwell := if s.boot.straps.stackEn then unwell.map (·.val) else s.stack.unwell } }

/-- A marker is counted; the 16th ends a takeover (R441). -/
theorem countMarker_eq (s : State) : let u : State := { s with stack := { s.stack with missed := 0, markers := s.stack.markers + 1 } }
    s.countMarker = if s.stack.takeover = true ∧ 15 ≤ s.stack.markers then State.dropRecover { u with stack := { u.stack with takeover := false } } .master else u := by
  refine if_congr ?_ rfl rfl
  rw [Bool.and_eq_true, decide_eq_true_eq]
  exact and_congr Iff.rfl Nat.succ_le_succ_iff

/-- A clock that the stack disciplines takes its offset. -/
def State.followMarker (s : State) (offset : Int) : State := if s.countMarker.time.source = 1 then s.countMarker.measure offset else s.countMarker

/-- TICK_MARKER. -/
theorem tickMarker_eq (s : State) (hops : Nat) (offset : Int) (pend : Option (Nat × Nat)) (unwell : List (Fin 8)) : let x := (s.unwellNow unwell).followMarker offset
    exec (.tickMarker hops offset pend unwell) s = .next (if s.boot.straps.stackEn && !s.isMaster && !s.stack.isolated && decide (hops < 8) then
      match (generalizing := false) pend with
      | some p => if p.1 < 5 then { x with time := { x.time with pendPeriod := some p } } else x
      | none => { x with time := { x.time with pendPeriod := none } }
    else s.unwellNow unwell) := rfl

/-- A marker that counts. -/
theorem markerCounts_iff (s : State) (hops : Nat) : (s.boot.straps.stackEn && !s.isMaster && !s.stack.isolated && decide (hops < 8)) = true ↔
    s.boot.straps.stackEn = true ∧ s.isMaster = false ∧ s.stack.isolated = false ∧ hops < 8 := by
  simp only [Bool.and_eq_true, Bool.not_eq_true', decide_eq_true_eq, and_assoc]

/-- MASTER_LOSS. -/
theorem masterLoss_eq (s : State) : exec .masterLoss s = .next (if s.boot.straps.stackEn && !s.isMaster && decide (3 ≤ s.stack.missed) then
    Claims.masterLost s (s.stack.members.filter (fun p => decide (p ≠ s.stack.master))) else s) := rfl

/-- The part of a membership that this module sees. -/
def State.seenPart (s : State) (reach : List (Fin 8)) : List Nat := s.stack.members.filter (fun p => decide (p = s.position) || (reach.map (·.val)).contains p)

/-- STACK_SPLIT. -/
theorem stackSplit_eq (s : State) (reach : List (Fin 8)) : exec (.stackSplit reach) s = .next (
    if !s.boot.straps.stackEn || decide ((s.seenPart reach).length = s.stack.members.length) then s
    else if !continues s.stack.members (s.seenPart reach) then s.isolate
    else if (s.seenPart reach).contains s.stack.master then { s with stack := { s.stack with members := s.seenPart reach } } else Claims.masterLost s (s.seenPart reach)) := rfl

/-- The part that goes on as the stack (R439). -/
theorem continues_iff (ms part : List Nat) : continues ms part = true ↔ ms.length < 2 * part.length ∨ (ms.length = 2 * part.length ∧ lowestOf ms ∈ part) := by
  rw [continues, Bool.or_eq_true, Bool.and_eq_true, decide_eq_true_eq, decide_eq_true_eq, List.contains_iff_mem]

/-- A split, by what this module sees. -/
theorem stackSplit_cases {s : State} {reach : List (Fin 8)} (hst : s.boot.straps.stackEn = true) (hlen : (s.seenPart reach).length ≠ s.stack.members.length) :
    exec (.stackSplit reach) s = .next (if !continues s.stack.members (s.seenPart reach) then s.isolate
      else if (s.seenPart reach).contains s.stack.master then { s with stack := { s.stack with members := s.seenPart reach } } else Claims.masterLost s (s.seenPart reach)) := by
  rw [stackSplit_eq, hst, decide_eq_false hlen]
  rfl

/-! ### The messages of a stack-wide commit (R443, R444) -/

/-- Why a PREPARE is not taken. -/
def State.prepareIdle (s : State) (src batch : Nat) : Bool :=
  !s.stacked || s.isMaster || decide (src ≠ s.stack.master) || !(decide (1 ≤ batch) && decide (batch ≤ 255)) || s.isPrepared batch

/-- A PREPARE is taken by a member, from its master, for a batch of the range that is new. -/
theorem prepareIdle_iff (s : State) (src batch : Nat) : s.prepareIdle src batch = false ↔
    s.boot.straps.stackEn = true ∧ s.isMaster = false ∧ src = s.stack.master ∧ 1 ≤ batch ∧ batch ≤ 255 ∧ s.isPrepared batch = false := by
  rw [State.prepareIdle, State.stacked, Bool.or_eq_false_iff, Bool.or_eq_false_iff, Bool.or_eq_false_iff, Bool.or_eq_false_iff, Bool.not_eq_false', Bool.not_eq_false', Bool.and_eq_true,
    decide_eq_false_iff_not, not_not, decide_eq_true_eq, decide_eq_true_eq, and_assoc, and_assoc, and_assoc, and_assoc]

/-- PREPARE. -/
theorem prepare_eq (s : State) (src : Fin 8) (batch : Nat) : let w := Claims.heard s src.val ctlPrepare batch
    let v := Claims.promised (w.requestBatch batch true) batch s.time.tick
    exec (.prepare src batch) s = .next (if s.prepareIdle src.val batch then w
      else if !s.commitWaits batch then (v (!s.commitWaits batch)).control src.val ctlReady batch [] else v (!s.commitWaits batch)) := by
  intro w v
  show execPrepare src batch s = _
  rw [execPrepare, hear_eq]
  rfl

/-- A PREPARE that is taken. -/
theorem prepare_taken {s : State} {src : Fin 8} {batch : Nat} (h : s.prepareIdle src.val batch = false) : let w := Claims.heard s src.val ctlPrepare batch
    let v := Claims.promised (w.requestBatch batch true) batch s.time.tick
    (s.commitWaits batch = true → exec (.prepare src batch) s = .next (v false)) ∧
    (s.commitWaits batch = false → exec (.prepare src batch) s = .next ((v true).control src.val ctlReady batch [])) := by
  intro w v
  have hrun := (prepare_eq s src batch).trans (congrArg Host.Outcome.next (if_neg (ne_true_of_eq_false h)))
  refine ⟨fun hwait => hrun.trans ?_, fun hfree => hrun.trans ?_⟩
  · rw [hwait]
    rfl
  · rw [hfree]
    rfl

/-- GO. -/
theorem go_eq (s : State) (src : Fin 8) (batch tick : Nat) : let w := Claims.heard s src.val ctlGo batch
    exec (.go src batch tick) s = .next (if !s.boot.straps.stackEn || s.stack.isolated || s.stack.going.any (fun g => decide (g.1 = batch)) then w
      else State.sendGo { w with stack := { w.stack with going := s.stack.going ++ [(batch, tick)],
                                                         commit := s.stack.commit.map (fun (c : StackCommit) => if c.batch = batch then { c with goTick := some tick } else c) } } batch tick) := by
  intro w
  show execGo src batch tick s = _
  rw [execGo, hear_eq]
  rfl

/-- A GO that is not taken. -/
theorem goIdle_iff (s : State) (batch : Nat) : (!s.boot.straps.stackEn || s.stack.isolated || s.stack.going.any (fun g => decide (g.1 = batch))) = true ↔
    ¬ (s.boot.straps.stackEn = true ∧ s.stack.isolated = false ∧ ∀ g ∈ s.stack.going, g.1 ≠ batch) := by
  rw [Bool.or_eq_true, Bool.or_eq_true, anyGoing_iff, Bool.not_eq_true', not_and_or, not_and_or, Bool.not_eq_true, Bool.not_eq_false, or_assoc]

/-- Whether the COMMIT that this module took has lost its master. -/
def State.commitLost (s : State) : Bool := match s.stack.commit with | some c => c.lost | none => false

/-- The state after the free values of a STACK_ABANDON. -/
def State.abandonFree (w : State) : State := w.notReadyStatus.2.freshNat.2

/-- Free values change nothing else. -/
theorem abandonFree_eq (w : State) : w.abandonFree = { w with freeCtr := w.abandonFree.freeCtr } := rfl

/-- STACK_ABANDON. -/
theorem stackAbandon_eq (s : State) (src : Fin 8) (batch : Nat) : let w := Claims.heard s src.val ctlAbandon batch
    exec (.stackAbandon src batch) s = .next (if !s.boot.straps.stackEn || s.stack.isolated then w
      else w.abandonFree.stackAbandoned batch (if s.commitLost then vOwn 1 3 else CmdEnd.mk w.notReadyStatus.1 3 (w.notReadyStatus.2.freshNat.1 % 8))) := by
  intro w
  show execStackAbandon src batch s = _
  rw [execStackAbandon, hear_eq]
  rfl

/-- The status of a member that is not ready. -/
theorem notReady_status (w : State) : w.notReadyStatus.1 = 0x0F ∨ w.notReadyStatus.1 = 9 := by
  rw [State.notReadyStatus]
  dsimp only
  split
  · exact Or.inl rfl
  · exact Or.inr rfl

/-- STACK_ABANDON in a stack, by whether the master was lost. -/
theorem stackAbandon_taken {s : State} {src : Fin 8} {batch : Nat} (hst : s.boot.straps.stackEn = true) (hiso : s.stack.isolated = false) :
    let w := Claims.heard s src.val ctlAbandon batch
    (s.commitLost = true → exec (.stackAbandon src batch) s = .next (w.abandonFree.stackAbandoned batch (vOwn 1 3))) ∧
    (s.commitLost = false → exec (.stackAbandon src batch) s =
      .next (w.abandonFree.stackAbandoned batch (CmdEnd.mk w.notReadyStatus.1 3 (w.notReadyStatus.2.freshNat.1 % 8)))) := by
  intro w
  have hgo : ¬ (!s.boot.straps.stackEn || s.stack.isolated) = true := by
    rw [hst, hiso]
    exact Bool.false_ne_true
  have hrun := (stackAbandon_eq s src batch).trans (congrArg Host.Outcome.next (if_neg hgo))
  refine ⟨fun hlost => ?_, fun hkept => ?_⟩
  · rw [hrun, hlost, if_pos rfl]
  · rw [hrun, hkept, if_neg Bool.false_ne_true]

/-- PREPARE_TIMEOUT. -/
theorem prepareTimeout_eq (s : State) (missing : Fin 8) : (s.stack.commit = none → exec (.prepareTimeout missing) s = .next s) ∧
    (∀ c, s.stack.commit = some c → exec (.prepareTimeout missing) s = .next (
      if !s.isMaster || c.goTick.isSome || decide (s.time.tick < c.start + 16) || !s.stack.members.contains missing.val || c.ready.contains missing.val then s
      else (s.controlAll ctlAbandon c.batch []).stackAbandoned c.batch (CmdEnd.mk 3 3 missing.val))) := by
  refine ⟨fun hnone => ?_, fun c hc => ?_⟩
  · show execPrepareTimeout missing s = _
    rw [execPrepareTimeout, hnone]
  · show execPrepareTimeout missing s = _
    rw [execPrepareTimeout, hc]

/-- When an answer is missing. -/
theorem timesOut_iff (s : State) (c : StackCommit) (missing : Nat) :
    (!s.isMaster || c.goTick.isSome || decide (s.time.tick < c.start + 16) || !s.stack.members.contains missing || c.ready.contains missing) = false ↔
    s.isMaster = true ∧ c.goTick = none ∧ c.start + 16 ≤ s.time.tick ∧ missing ∈ s.stack.members ∧ missing ∉ c.ready := by
  rw [Bool.or_eq_false_iff, Bool.or_eq_false_iff, Bool.or_eq_false_iff, Bool.or_eq_false_iff, Bool.not_eq_false', Bool.not_eq_false', Option.isSome_eq_false_iff, Option.isNone_iff_eq_none,
    decide_eq_false_iff_not, Nat.not_lt, List.contains_iff_mem, ← Bool.not_eq_true (c.ready.contains missing), List.contains_iff_mem, and_assoc, and_assoc, and_assoc]

/-- STACK_DECISION_DEADLINE. -/
theorem decisionDeadline_eq (s : State) : exec .stackDecisionDeadline s = .next (
    if s.boot.straps.stackEn && !s.isMaster && s.stack.prepared.any (fun e => !s.stack.going.any (fun g => decide (g.1 = e.1))) then s.isolate else s) := rfl

/-- A member with a batch that is not decided. -/
theorem undecided_iff (s : State) : (s.boot.straps.stackEn && !s.isMaster && s.stack.prepared.any (fun e => !s.stack.going.any (fun g => decide (g.1 = e.1)))) = true ↔
    s.boot.straps.stackEn = true ∧ s.isMaster = false ∧ ∃ e ∈ s.stack.prepared, ∀ g ∈ s.stack.going, g.1 ≠ e.1 := by
  rw [Bool.and_eq_true, Bool.and_eq_true, Bool.not_eq_true', List.any_eq_true, and_assoc]
  refine and_congr Iff.rfl (and_congr Iff.rfl (exists_congr (fun e => and_congr Iff.rfl ?_)))
  rw [Bool.not_eq_true', ← Bool.not_eq_true, anyGoing_iff, not_not]

/-! ### Frames (R445, R446) -/

section Frames

variable {s : State} {src dst : Fin 8} {hops lane entry : Nat} {block frame hv : List Byte} {carries : List Word}

/-- Why a frame of the stack is dropped. -/
def State.frameIdle (s : State) (hops : Nat) : Bool := !s.stacked || decide (8 ≤ hops) || !s.dataplane

/-- A frame is dropped outside a stack, after 8 hops, and while no frames are served. -/
theorem frameIdle_iff (s : State) (hops : Nat) : s.frameIdle hops = true ↔ s.boot.straps.stackEn = false ∨ 8 ≤ hops ∨ s.dataplane = false := by
  rw [State.frameIdle, State.stacked, Bool.or_eq_true, Bool.or_eq_true, Bool.not_eq_true', Bool.not_eq_true', decide_eq_true_eq, or_assoc]

/-- A frame that is served. -/
theorem frameGoes (hst : s.boot.straps.stackEn = true) (hhops : hops < 8) (hdata : s.dataplane = true) : ¬ s.frameIdle hops = true := by
  rw [frameIdle_iff]
  rintro (hno | hmany | hno)
  · exact Bool.false_ne_true (hno.symm.trans hst)
  · omega
  · exact Bool.false_ne_true (hno.symm.trans hdata)

/-- MEMBER. -/
theorem member_eq (s : State) (src : Fin 8) (hops lane : Nat) (block frame : List Byte) (dst : Fin 8) : exec (.member src hops lane block frame dst) s =
    .next (if s.frameIdle hops then s
      else if dst.val ≠ s.position then
        Claims.relayed s { kind := 2, src := src.val, dst := dst.val, hops := hops, index := lane, aux := 0, body := padTo 16 block ++ frame }
      else match (generalizing := false) s.tmq (fieldLe block 0 2) with
        | none => s
        | some q => match (generalizing := false) s.alloc frame.length false ownTm with
          | (some x, u) => (u.bufWrite x 0 frame).appendLeaf (fieldLe block 0 2) lane q (memberFrame block x)
          | (none, u) => u) := by
  show execMember src hops lane block frame s dst = _
  rw [execMember]
  refine congrArg Host.Outcome.next (if_congr Iff.rfl rfl (if_congr Iff.rfl rfl ?_))
  cases s.tmq (fieldLe block 0 2) with
  | none => rfl
  | some q =>
    dsimp only
    obtain ⟨h, u⟩ := s.alloc frame.length false ownTm
    cases h with
    | none => rfl
    | some x => rfl

/-- MEMBER of this module's position. -/
theorem member_here (hgo : ¬ s.frameIdle hops = true) (hdst : dst.val = s.position) :
    (s.tmq (fieldLe block 0 2) = none → exec (.member src hops lane block frame dst) s = .next s) ∧
    (∀ q, s.tmq (fieldLe block 0 2) = some q → ∀ h u, s.alloc frame.length false ownTm = (h, u) →
      (h = none → exec (.member src hops lane block frame dst) s = .next u) ∧
      (∀ x, h = some x → exec (.member src hops lane block frame dst) s =
        .next ((u.bufWrite x 0 frame).appendLeaf (fieldLe block 0 2) lane q (memberFrame block x)))) := by
  rw [member_eq, if_neg hgo, if_neg (not_not.mpr hdst)]
  refine ⟨fun hnone => ?_, fun q hq h u ha => ⟨fun hnone => ?_, fun x hx => ?_⟩⟩
  · rw [hnone]
  · subst hnone
    rw [hq, ha]
  · subst hx
    rw [hq, ha]

/-- The state in which a STAGE frame is classified. -/
def State.staged (s : State) (frame : List Byte) : State :=
  match (s.alloc frame.length false ownRx).1 with
  | some x => (s.alloc frame.length false ownRx).2.bufWrite x 0 frame
  | none => (s.alloc frame.length false ownRx).2

/-- STAGE. -/
theorem stage_eq (s : State) (src : Fin 8) (hops : Nat) (frame hv : List Byte) (carries : List Word) (dst : Fin 8) (entry : Nat) :
    exec (.stage src hops frame hv carries dst entry) s = .next (if s.frameIdle hops then s
      else if dst.val ≠ s.position then
        Claims.relayed s { kind := 3, src := src.val, dst := dst.val, hops := hops, index := entry, aux := 0, body := stageBody frame hv carries }
      else
        let h := (s.alloc frame.length false ownRx).1
        let vec := Mem.ofBytes (padTo 512 hv)
        (s.staged frame).classifyWith (PFrame.mk (Mem.rd vec 0).toNat vec frame (h.getD 0) h.isNone (s.staged frame).cls.cur.ver true)
          (some ((carries ++ List.replicate 32 0).take 32)) []) := rfl

/-- STAGE of this module's position. -/
theorem stage_here (hgo : ¬ s.frameIdle hops = true) (hdst : dst.val = s.position) : ∀ h u, s.alloc frame.length false ownRx = (h, u) →
    let v := match (generalizing := false) h with | some x => u.bufWrite x 0 frame | none => u
    let vec := Mem.ofBytes (padTo 512 hv)
    exec (.stage src hops frame hv carries dst entry) s =
      .next (v.classifyWith (PFrame.mk (Mem.rd vec 0).toNat vec frame (h.getD 0) h.isNone v.cls.cur.ver true) (some ((carries ++ List.replicate 32 0).take 32)) []) := by
  intro h u ha
  have hstaged : s.staged frame = match (generalizing := false) h with | some x => u.bufWrite x 0 frame | none => u := by
    rw [State.staged, ha]
  rw [stage_eq, if_neg hgo, if_neg (not_not.mpr hdst), hstaged, ha]

end Frames

/-- Settles O46: each row by its condition and its effect. -/
theorem stackRowsAct : Obligations.StackRowsAct := by
  unfold Obligations.StackRowsAct
  intro s
  refine ⟨fun pos tick => ?_, fun hops offset pend unwell => ?_, fun hst hmember hmissed => (masterLoss_eq s).trans ?_, fun hno => (masterLoss_eq s).trans ?_, fun reach => ⟨fun hno => ?_, fun hst hlen => ?_⟩,
    fun src batch => ⟨⟨fun htakes hwaits => ?_, fun htakes hready => ?_, fun hno => ?_⟩, fun tick => ⟨fun hfresh => ?_, fun hold => ?_⟩, fun hno => ?_, fun hst hiso => ⟨fun c hc hlost => ?_, fun hkept => ?_⟩⟩,
    fun missing => ⟨(prepareTimeout_eq s missing).1, fun c hc => ⟨fun htimes => ?_, fun hno => ?_⟩⟩, ⟨fun hyes => ?_, fun hno => ?_⟩,
    fun src dst hops lane entry block frame hv carries => ⟨fun hidle => ⟨?_, ?_⟩, fun hst hhops hdata hdst => ⟨?_, ?_⟩, fun hst hhops hdata hdst => ⟨?_, ?_⟩⟩⟩
  · intro known w u
    have hiff := joinIdle_iff s pos.val
    refine ⟨fun hends hnew hmaster hpos => ?_, fun hends hnew hother => ?_, fun hno => ?_⟩
    · rw [stackJoin_eq, hiff.mpr ⟨hends, hnew⟩, hmaster, decide_eq_true hpos]
      rfl
    · have hquiet : ¬ (s.isMaster && decide (pos.val ≠ s.position)) = true := by
        rw [Bool.and_eq_true, decide_eq_true_eq]
        rintro ⟨hmaster, hne⟩
        exact hother.elim (fun hno => Bool.false_ne_true (hno.symm.trans hmaster)) hne
      rw [stackJoin_eq, hiff.mpr ⟨hends, hnew⟩, if_neg Bool.false_ne_true, if_neg hquiet]
    · refine (stackJoin_eq s pos tick).trans (congrArg Host.Outcome.next (if_pos (eq_true_of_ne_false (fun hgo => ?_))))
      obtain ⟨hends, hnew⟩ := hiff.mp hgo
      exact hno.elim (fun h => h hends) hnew
  · intro counts w u v x
    have hx : (s.unwellNow unwell).followMarker offset = x := by
      show (if (s.unwellNow unwell).countMarker.time.source = 1 then (s.unwellNow unwell).countMarker.measure offset else (s.unwellNow unwell).countMarker) = _
      rw [countMarker_eq]
      rfl
    have hrun := tickMarker_eq s hops offset pend unwell
    rw [hx] at hrun
    have hiff := markerCounts_iff s hops
    refine ⟨fun hcounts hpend => ?_, fun hcounts p hpend => ⟨fun hsmall => ?_, fun hlarge => ?_⟩, fun hno => hrun.trans (congrArg Host.Outcome.next (if_neg (mt hiff.mp hno)))⟩
    · rw [hrun, if_pos (hiff.mpr hcounts), hpend]
    · rw [hrun, if_pos (hiff.mpr hcounts), hpend]
      exact congrArg Host.Outcome.next (if_pos hsmall)
    · rw [hrun, if_pos (hiff.mpr hcounts), hpend]
      exact congrArg Host.Outcome.next (if_neg (Nat.not_lt.mpr hlarge))
  · rw [hst, hmember, decide_eq_true hmissed]
    rfl
  · refine congrArg Host.Outcome.next (if_neg ?_)
    rw [Bool.and_eq_true, Bool.and_eq_true, Bool.not_eq_true', decide_eq_true_eq]
    rintro ⟨⟨hst, hmember⟩, hmissed⟩
    rcases hno with hoff | hmaster | hfew
    · exact Bool.false_ne_true (hoff.symm.trans hst)
    · exact Bool.false_ne_true (hmember.symm.trans hmaster)
    · omega
  · refine (stackSplit_eq s reach).trans (congrArg Host.Outcome.next (if_pos ?_))
    rw [Bool.or_eq_true, Bool.not_eq_true', decide_eq_true_eq]
    exact hno
  · have hrun := stackSplit_cases hst hlen
    have hiff := continues_iff s.stack.members (s.seenPart reach)
    refine ⟨fun hstops => hrun.trans ?_, fun hgoes hmem => hrun.trans ?_, fun hgoes hmem => hrun.trans ?_⟩
    · rw [eq_false_of_ne_true (mt hiff.mp hstops)]
      rfl
    · rw [hiff.mpr hgoes]
      exact congrArg Host.Outcome.next (if_pos (List.contains_iff_mem.mpr hmem))
    · rw [hiff.mpr hgoes]
      exact congrArg Host.Outcome.next (if_neg (mt List.contains_iff_mem.mp hmem))
  · exact (prepare_taken ((prepareIdle_iff s src.val batch).mpr htakes)).1 hwaits
  · exact (prepare_taken ((prepareIdle_iff s src.val batch).mpr htakes)).2 hready
  · exact (prepare_eq s src batch).trans (congrArg Host.Outcome.next (if_pos (eq_true_of_ne_false (mt (prepareIdle_iff s src.val batch).mp hno))))
  · exact (go_eq s src batch tick).trans (congrArg Host.Outcome.next (if_neg (fun hidle => (goIdle_iff s batch).mp hidle hfresh)))
  · exact (go_eq s src batch tick).trans (congrArg Host.Outcome.next (if_pos ((goIdle_iff s batch).mpr hold)))
  · refine (stackAbandon_eq s src batch).trans (congrArg Host.Outcome.next (if_pos ?_))
    rw [Bool.or_eq_true, Bool.not_eq_true']
    exact hno
  · refine ⟨_, abandonFree_eq _, (stackAbandon_taken hst hiso).1 ?_⟩
    rw [State.commitLost, hc]
    exact hlost
  · refine ⟨_, _, abandonFree_eq _, rfl, Nat.mod_lt _ (by decide), notReady_status _, (stackAbandon_taken hst hiso).2 ?_⟩
    rw [State.commitLost]
    cases hc : s.stack.commit with
    | none => rfl
    | some c => exact hkept c hc
  · exact ((prepareTimeout_eq s missing).2 c hc).trans (congrArg Host.Outcome.next (if_neg (ne_true_of_eq_false ((timesOut_iff s c missing.val).mpr htimes))))
  · exact ((prepareTimeout_eq s missing).2 c hc).trans (congrArg Host.Outcome.next (if_pos (eq_true_of_ne_false (mt (timesOut_iff s c missing.val).mp hno))))
  · exact (decisionDeadline_eq s).trans (congrArg Host.Outcome.next (if_pos ((undecided_iff s).mpr hyes)))
  · exact (decisionDeadline_eq s).trans (congrArg Host.Outcome.next (if_neg (mt (undecided_iff s).mp hno)))
  · exact (member_eq s src hops lane block frame dst).trans (congrArg Host.Outcome.next (if_pos ((frameIdle_iff s hops).mpr hidle)))
  · exact (stage_eq s src hops frame hv carries dst entry).trans (congrArg Host.Outcome.next (if_pos ((frameIdle_iff s hops).mpr hidle)))
  · exact (member_eq s src hops lane block frame dst).trans (congrArg Host.Outcome.next ((if_neg (frameGoes hst hhops hdata)).trans (if_pos hdst)))
  · exact (stage_eq s src hops frame hv carries dst entry).trans (congrArg Host.Outcome.next ((if_neg (frameGoes hst hhops hdata)).trans (if_pos hdst)))
  · exact (member_here (frameGoes hst hhops hdata) hdst).1
  · exact ⟨(member_here (frameGoes hst hhops hdata) hdst).2, stage_here (frameGoes hst hhops hdata) hdst⟩

end Sys2Proof.Machine
end

section
/-!
SUPPORT. What the SMBus, MCTP and TAP rows answer (R477 to R479, R487): the theorem that settles O47.
-/

namespace Sys2Proof.Machine

open Sys2Proof

set_option Elab.async false

/-! ### SMBus (R477, R478) -/

/-- A bit of weight `n`. -/
theorem weight_mul (n : Nat) (b : Bool) : n * b2n b = if b = true then n else 0 := by
  cases b with
  | false => rfl
  | true => exact Nat.mul_one n

/-- A bit of weight `n` that is active low. -/
theorem weight_mul_not (n : Nat) (b : Bool) : n * b2n (!b) = if b = true then 0 else n := by
  cases b with
  | false => exact Nat.mul_one n
  | true => rfl

/-- The status word. -/
theorem smbusStatus_eq (s : State) : s.smbusStatus = s.dev.state + (if s.power.thermAlert then 256 else 0) + (if s.events.faultN then 0 else 512) + (if s.power.warn then 1024 else 0) +
    (if s.power.st = .tripped then 2048 else 0) := by
  rw [State.smbusStatus, weight_mul, weight_mul_not, weight_mul, weight_mul]
  refine congrArg _ (if_congr ?_ rfl rfl)
  rw [decide_eq_true_eq]

/-- SMBUS_READ_WORD. -/
theorem smbusRead_eq (code : Byte) (s : State) : exec (.smbusReadWord code) s = .next { s with power := { s.power with smbus := if s.power.st = .down then none else s.smbusReg code } } := rfl

/-- SMBUS_READ_WORD while Geleath is not down. -/
theorem smbusRead_up {s : State} {code : Byte} {v : Option Half} (h : s.power.st ≠ .down) (hv : s.smbusReg code = v) :
    exec (.smbusReadWord code) s = .next { s with power := { s.power with smbus := v } } := by
  rw [smbusRead_eq, if_neg h, hv]

/-- A code above those of the table is not acknowledged. -/
theorem smbusReg_above {s : State} {code : Byte} (h : 6 < code.toNat) : s.smbusReg code = none := by
  unfold State.smbusReg
  split
  case h_7 => rfl
  all_goals omega

/-- Whether SMB_ALERT_N is low. -/
def State.alertLow (s : State) : Bool := decide (s.power.st ≠ .down) && (s.power.thermAlert || !s.events.faultN || s.power.warn)

/-- When SMB_ALERT_N is low. -/
theorem alertLow_iff (s : State) : s.alertLow = true ↔ s.power.st ≠ .down ∧ (s.power.thermAlert = true ∨ s.events.faultN = false ∨ s.power.warn = true) := by
  rw [State.alertLow, Bool.and_eq_true, Bool.or_eq_true, Bool.or_eq_true, Bool.not_eq_true', decide_eq_true_eq, or_assoc]

/-- ALERT_RESPONSE. -/
theorem alertResponse_eq (s : State) : exec .alertResponse s =
    .next { s with power := { s.power with smbus := if s.alertLow then some (BitVec.ofNat 16 (2 * (0x68 + s.boot.straps.pos.val))) else none } } := rfl

/-! ### MCTP (R477) -/

/-- While no MP runs a message is not acknowledged. -/
theorem mctp_silent {s : State} (h : s.boot.mpRunning = false ∨ s.power.pwrGood = false) (reply : State → List Byte × State) :
    s.mctp reply = { s with power := { s.power with mctpReply := none } } := by
  refine if_neg (fun hyes => ?_)
  obtain ⟨hmp, hgood⟩ := (Bool.and_eq_true _ _).mp hyes
  exact h.elim (fun hno => Bool.false_ne_true (hno.symm.trans hmp)) (fun hno => Bool.false_ne_true (hno.symm.trans hgood))

/-- While one runs it is answered. -/
theorem mctp_answers {s : State} (hmp : s.boot.mpRunning = true) (hgood : s.power.pwrGood = true) (reply : State → List Byte × State) :
    s.mctp reply = Claims.mctpAnswered (reply s).2 (reply s).1 := by
  refine if_pos ?_
  rw [hmp, hgood]
  rfl

/-- Every MCTP row is a message. -/
theorem mctpRow (s : State) (eid : Byte) : ∀ x ∈ [Instr.setEndpointId eid, .getEndpointId, .getMctpVersionSupport, .getMessageTypeSupport], ∃ reply, exec x s = .next (s.mctp reply) := by
  simp only [List.forall_mem_cons, List.not_mem_nil, false_implies, implies_true, and_true]
  exact ⟨⟨_, rfl⟩, ⟨_, rfl⟩, ⟨_, rfl⟩, ⟨_, rfl⟩⟩

/-- SET_ENDPOINT_ID while an MP runs. -/
theorem setEndpointId_cases {s : State} {eid : Byte} (hmp : s.boot.mpRunning = true) (hgood : s.power.pwrGood = true) :
    ((eid = 0 ∨ eid = 0xFF) → exec (.setEndpointId eid) s = .next (Claims.mctpAnswered s [2])) ∧
    (eid ≠ 0 → eid ≠ 0xFF → exec (.setEndpointId eid) s = .next (Claims.mctpAnswered { s with power := { s.power with mctpEid := eid } } [0, 0, eid, 0])) := by
  have hrow := congrArg (Host.Outcome.next (φ := Fault) (ρ := Refusal)) (mctp_answers hmp hgood
    (fun s => if eid = 0 ∨ eid = 0xFF then ([2], s) else ([0, 0, eid, 0], { s with power := { s.power with mctpEid := eid } })))
  refine ⟨fun hbad => Eq.trans hrow ?_, fun hzero hall => Eq.trans hrow ?_⟩
  · dsimp only
    rw [if_pos hbad]
  · have hno : ¬ (eid = 0 ∨ eid = 0xFF) := fun hor => hor.elim hzero hall
    dsimp only
    rw [if_neg hno]

/-- Settles O47: each row by its condition and its value. -/
theorem sideInterfacesAnswer : Obligations.SideInterfacesAnswer := by
  unfold Obligations.SideInterfacesAnswer
  intro s
  refine ⟨fun code => ⟨fun hdown => ?_, fun hup => ?_⟩, ⟨fun hlow => ?_, fun hhigh => ?_⟩, fun hsilent eid x hx => ?_,
    fun hmp hgood => ⟨fun eid => setEndpointId_cases hmp hgood, congrArg Host.Outcome.next (mctp_answers hmp hgood _), ⟨_, congrArg Host.Outcome.next (mctp_answers hmp hgood _)⟩,
      congrArg Host.Outcome.next (mctp_answers hmp hgood _)⟩, ?_⟩
  · rw [smbusRead_eq, if_pos hdown]
  · refine ⟨fun h => smbusRead_up hup ?_, fun h => smbusRead_up hup ?_, fun h => smbusRead_up hup ?_, fun h => smbusRead_up hup ?_, fun h => smbusRead_up hup ?_, fun h => smbusRead_up hup ?_,
      fun h => smbusRead_up hup ?_, fun h => smbusRead_up hup (smbusReg_above h)⟩
    case refine_5 =>
      subst h
      exact congrArg (fun n => some (BitVec.ofNat 16 n)) (smbusStatus_eq s)
    all_goals
      subst h
      rfl
  · rw [alertResponse_eq, if_pos ((alertLow_iff s).mpr hlow)]
  · rw [alertResponse_eq, if_neg (mt (alertLow_iff s).mp hhigh)]
  · obtain ⟨reply, hrow⟩ := mctpRow s eid x hx
    rw [hrow, mctp_silent hsilent]
  · refine ⟨rfl, rfl, rfl, fun bs => rfl, rfl, fun hopen => ?_, fun hclosed => ?_⟩
    · exact congrArg (fun ir => Host.Outcome.next (s.tapSelect ir)) (if_pos hopen)
    · exact congrArg (fun ir => Host.Outcome.next (s.tapSelect ir)) (if_neg (Nat.not_le.mpr hclosed))

end Sys2Proof.Machine
end

section
/-!
SUPPORT. Who may use the monitor and when, and what its commands do that concern no engine (R484 to R489, R493): the theorem that settles O48.
-/

namespace Sys2Proof.Machine

open Sys2Proof

set_option Elab.async false

/-! ### Sessions and permission (R485 to R489) -/

section Sessions

variable {s u : State} {m : MonPath} {k : MonKind}

/-- A command on a held thread is judged as every other. -/
theorem monHeld_monCmd (s : State) (m : MonPath) (pe t : Nat) (run : State → State) : s.monHeld m pe t run = s.monCmd m .engine (fun s =>
    if !s.engActive pe then s.errLine 0x10 else if !s.debugAllowed (pe / 32) then s.errLine 0x0F else if (s.thr pe t).held then run s else s.errLine 0x11) := rfl

/-- RESUME, STEP, KILL and SETREG are judged first. -/
theorem heldRow_monCmd (s : State) {x : Instr} {e : Fin 1088} {t : Fin 8} {reg : Fin 33} {v : Word} (h : x ∈ [Instr.resume m e t, .step m e t, .kill m e t, .setreg m e t reg v]) :
    ∃ run, exec x s = .next (s.monCmd m .engine run) := by
  obtain ⟨run, hrow⟩ := heldCommand_monHeld s m e t reg v x h
  exact ⟨_, hrow.trans (congrArg Host.Outcome.next (monHeld_monCmd s m e.val t.val run))⟩

/-- Every command of the monitor is judged first. -/
theorem monRow_monCmd (s : State) {x : Instr} (h : Claims.MonRow m x k) : ∃ run, exec x s = .next (s.monCmd m k run) := by
  rcases h with ⟨rfl, hx⟩ | ⟨rfl, hx⟩ | ⟨rfl, hx⟩ | ⟨rfl, hx⟩ | ⟨rfl, hx⟩ | ⟨rfl, hx⟩
  · rcases hx with rfl | rfl | rfl | ⟨r, rfl⟩ | rfl
    all_goals exact ⟨_, rfl⟩
  · rcases hx with rfl | ⟨a, b, rfl⟩
    all_goals exact ⟨_, rfl⟩
  · rcases hx with ⟨i, a, b, rfl⟩ | ⟨i, b, rfl⟩
    all_goals exact ⟨_, rfl⟩
  · obtain ⟨b, rfl⟩ := hx
    exact ⟨_, rfl⟩
  · rcases hx with rfl | ⟨n, rfl⟩
    all_goals exact ⟨_, rfl⟩
  · rcases hx with ⟨e, b, rfl⟩ | ⟨e, t, rfl⟩ | ⟨e, t, rfl⟩ | ⟨e, t, rfl⟩ | ⟨e, t, rfl⟩ | ⟨e, t, rfl⟩ | ⟨e, t, r, v, rfl⟩ | ⟨e, a, n, rfl⟩ | ⟨e, a, v, rfl⟩
    · exact ⟨_, rfl⟩
    · exact ⟨_, rfl⟩
    · exact heldRow_monCmd s (e := e) (t := t) (reg := 0) (v := 0) (by simp)
    · exact heldRow_monCmd s (e := e) (t := t) (reg := 0) (v := 0) (by simp)
    · exact heldRow_monCmd s (e := e) (t := t) (reg := 0) (v := 0) (by simp)
    · exact ⟨_, rfl⟩
    · exact heldRow_monCmd s (e := e) (t := t) (reg := r) (v := v) (by simp)
    · exact ⟨_, rfl⟩
    · exact ⟨_, rfl⟩

/-- The path on which no line is read. -/
theorem monReads_of (h : ¬ (!s.power.pwrGood || s.monitor.load.isSome || (decide (m = .tap) && !(s.monitor.tapCriek && decide (s.nv.lifecycle ≤ 1)))) = true) : Claims.MonReads s m := by
  rw [Bool.not_eq_true, Bool.or_eq_false_iff, Bool.or_eq_false_iff, Bool.not_eq_false', Option.isSome_eq_false_iff, Option.isNone_iff_eq_none] at h
  obtain ⟨⟨hgood, hload⟩, htap⟩ := h
  refine ⟨hgood, hload, fun hm => ?_⟩
  rw [decide_eq_true hm, Bool.true_and, Bool.not_eq_false', Bool.and_eq_true, decide_eq_true_eq] at htap
  exact htap

/-- A path that is not read. -/
theorem monCmd_closed (h : ¬ Claims.MonReads s m) (run : State → State) : s.monCmd m k run = s := if_pos (by_contra (fun hno => h (monReads_of hno)))

/-- Whether the other path's session is open. -/
def State.monBusy (s : State) (m : MonPath) : Bool := match s.monitor.session with | some p => decide (p ≠ m) | none => false

/-- A path that is read, by its session, its server and the lifecycle. -/
theorem monCmd_read (h : Claims.MonReads s m) (run : State → State) : let opened : State := { s with monitor := { s.monitor with session := some m } }
    s.monCmd m k run = if s.monBusy m then s.errLine 0x0F else if !opened.monServes k then opened.errLine 0x0B else if !opened.monPermits k then opened.errLine 0x0F else run opened :=
  if_neg (monReads_open h)

/-- The other path's session is open. -/
theorem monCmd_busy {p : MonPath} (h : Claims.MonReads s m) (hp : s.monitor.session = some p) (hne : p ≠ m) (run : State → State) : s.monCmd m k run = s.errLine 0x0F := by
  have hbusy : s.monBusy m = true := by
    rw [State.monBusy, hp]
    exact decide_eq_true hne
  rw [monCmd_read h, if_pos hbusy]

/-- No other session is open. -/
theorem monBusy_free (h : s.monitor.session = none ∨ s.monitor.session = some m) : s.monBusy m = false := by
  rw [State.monBusy]
  rcases h with h | h
  · rw [h]
  · rw [h]
    exact decide_eq_false (not_not.mpr rfl)

/-- A command that the present server does not know. -/
theorem monCmd_unknown (h : Claims.MonReads s m) (hs : s.monitor.session = none ∨ s.monitor.session = some m) (hk : k = .look ∨ k = .engine) (hc : s.monitor.criek = false)
    (run : State → State) : s.monCmd m k run = State.errLine { s with monitor := { s.monitor with session := some m } } 0x0B := by
  have hserves : State.monServes { s with monitor := { s.monitor with session := some m } } k = false := by
    rcases hk with rfl | rfl
    · exact hc
    · exact hc
  rw [monCmd_read h, monBusy_free hs, hserves]
  rfl

/-- The lifecycle states of a kind of command. -/
theorem monPermits_iff : s.monPermits k = true ↔ Claims.MonPermits s.nv.lifecycle k := by
  refine ⟨fun h => ?_, monPermits_of⟩
  cases k with
  | basic => exact ⟨nofun, nofun, nofun, nofun, nofun⟩
  | look => exact ⟨fun _ => of_decide_eq_true h, nofun, nofun, nofun, nofun⟩
  | engine => exact ⟨nofun, fun _ => of_decide_eq_true h, nofun, nofun, nofun⟩
  | fuse => exact ⟨nofun, nofun, fun _ => of_decide_eq_true h, nofun, nofun⟩
  | advance => exact ⟨nofun, nofun, nofun, fun _ => of_decide_eq_true h, nofun⟩
  | rom => exact ⟨nofun, nofun, nofun, nofun, fun _ => of_decide_eq_true h⟩

/-- A command that the lifecycle state does not permit. -/
theorem monCmd_forbidden (h : Claims.MonReads s m) (hs : s.monitor.session = none ∨ s.monitor.session = some m) (hk : k = .look ∨ k = .engine → s.monitor.criek = true)
    (hno : ¬ Claims.MonPermits s.nv.lifecycle k) (run : State → State) : s.monCmd m k run = State.errLine { s with monitor := { s.monitor with session := some m } } 0x0F := by
  have hserves : State.monServes { s with monitor := { s.monitor with session := some m } } k = true := monServes_of hk
  have hpermits : State.monPermits { s with monitor := { s.monitor with session := some m } } k = false := eq_false_of_ne_true (mt monPermits_iff.mp hno)
  rw [monCmd_read h, monBusy_free hs, hserves, hpermits]
  rfl

/-- What a command does that runs. -/
theorem mon_exec {x : Instr} {run : State → State} (h : Claims.MonRuns s m k u) (hrow : exec x s = .next (s.monCmd m k run)) : exec x s = .next (run u) := by
  rw [hrow, monCmd_runs h]

end Sessions

/-! ### Commands that look (R484, R486, R489) -/

section Commands

variable {s u : State} {m : MonPath}

/-- ID. -/
theorem id_answers (h : Claims.MonRuns s m .basic u) : exec (.id m) s = .next { u with monitor := { u.monitor with out := u.monitor.out ++
    [MonLine.text "PART" (partBytes.map (·.toNat)), .text "FWREL" [u.fwRel], .text "MBADEL" [0x00030001], .text "HIVIA" [0x00020004], .text "LIFECYCLE" [u.nv.lifecycle],
     .text "POSITION" [u.boot.straps.pos.val], .text "PERIOD" [u.time.period], .text "SERIAL" [Config.serial.toNat], .ok] } } := by
  have hrow : exec (.id m) s = .next (s.monCmd m .basic _) := rfl
  rw [mon_exec h hrow]
  simp only [State.okLine, State.text, State.say, List.append_assoc, List.cons_append, List.nil_append]

/-- STATE. -/
theorem state_answers (h : Claims.MonRuns s m .basic u) : exec (.state m) s = .next { u with monitor := { u.monitor with out := u.monitor.out ++
    [MonLine.text "STATE" [u.dev.state], .text "LIFECYCLE" [u.nv.lifecycle], .text "CLOCK" [u.time.clock.code], .text "COUNTS" [u.yardsInService, u.lanesInService, u.channelsInService], .ok] } } := by
  have hrow : exec (.state m) s = .next (s.monCmd m .basic _) := rfl
  rw [mon_exec h hrow]
  simp only [State.okLine, State.text, State.say, List.append_assoc, List.cons_append, List.nil_append]

/-- BAUD. -/
theorem baud_answers (h : Claims.MonRuns s m .basic u) (rate : Nat) : exec (.baud m rate) s =
    .next (if baudRates.contains rate then { u with monitor := { u.monitor with out := u.monitor.out ++ [.ok], baudNext := some rate } } else u.errLine 0x0F) := by
  have hrow : exec (.baud m rate) s = .next (s.monCmd m .basic _) := rfl
  exact (mon_exec h hrow).trans rfl

/-- HELP and QUIT. -/
theorem help_quit (h : Claims.MonRuns s m .basic u) :
    exec (.help m) s = .next ((monWords u.monitor.criek).foldl (fun (u : State) w => u.text w []) u).okLine ∧
    exec (.quit m) s = .next { u with monitor := { u.monitor with out := u.monitor.out ++ [.ok], session := none } } := by
  have hhelp : exec (.help m) s = .next (s.monCmd m .basic _) := rfl
  have hquit : exec (.quit m) s = .next (s.monCmd m .basic _) := rfl
  exact ⟨(mon_exec h hhelp).trans rfl, (mon_exec h hquit).trans rfl⟩

/-- LOG. -/
theorem log_answers (h : Claims.MonRuns s m .look u) (a n : Nat) : exec (.log m a n) s =
    .next (if 64 < n then u.errLine 0x0A else ((u.eventsFrom a n).foldl (fun (u : State) e => u.text "EVENT" ((e.bytes false).map (·.toNat))) u).okLine) := by
  have hrow : exec (.log m a n) s = .next (s.monCmd m .look _) := rfl
  exact (mon_exec h hrow).trans rfl

/-- The period change that waits, as TIME shows it. -/
def shownPend (p : Option (Nat × Nat)) : List Nat := match p with | some p => [p.1, p.2] | none => [0xFF, 0]

/-- TIME. -/
theorem time_answers (h : Claims.MonRuns s m .look u) : exec (.time m) s = .next (u.text "TIME"
    ([u.time.sec, u.time.ns, u.time.clock.code, u.time.source, (BitVec.ofInt 32 u.time.delta).toNat, u.time.gate] ++ shownPend u.time.pendPeriod)).okLine := by
  have hrow : exec (.time m) s = .next (s.monCmd m .look _) := rfl
  rw [mon_exec h hrow]
  dsimp only
  cases u.time.pendPeriod with
  | none => rfl
  | some p => rfl

/-! ### Fuses (R416, R489) -/

/-- KEYPROG. -/
theorem keyprog_answers (h : Claims.MonRuns s m .fuse u) (i : Nat) (a b : BitVec 384) : exec (.keyprog m i a b) s = .next (
    if u.power.warn then u.errLine 0x0F else if 4 ≤ i then u.errLine 0x0A else if u.keyProgrammed i then u.errLine 0x0F
    else State.okLine { u with nv := { u.nv with keys := FMap.set none u.nv.keys i (some (a.toNat, b.toNat)) } }) := by
  have hrow : exec (.keyprog m i a b) s = .next (s.monCmd m .fuse _) := rfl
  exact (mon_exec h hrow).trans rfl

/-- REVOKE. -/
theorem revoke_answers (h : Claims.MonRuns s m .fuse u) (i : Nat) (c : Bool) : exec (.revoke m i c) s = .next (
    if u.power.warn then u.errLine 0x0F else if 4 ≤ i ∨ c = false then u.errLine 0x0A
    else State.okLine { u with nv := { u.nv with revoked := if u.nv.revoked.contains i then u.nv.revoked else u.nv.revoked ++ [i] } }) := by
  have hrow : exec (.revoke m i c) s = .next (s.monCmd m .fuse _) := rfl
  exact (mon_exec h hrow).trans rfl

/-- The slots that are revoked once `i` is. -/
theorem mem_revoked (r : List Nat) (i j : Nat) : j ∈ (if r.contains i then r else r ++ [i]) ↔ j = i ∨ j ∈ r := by
  split
  case isTrue hin => exact ⟨Or.inr, fun h => h.elim (fun he => he ▸ List.contains_iff_mem.mp hin) id⟩
  case isFalse hout => rw [List.mem_append, List.mem_singleton, or_comm]

/-- LCADV. -/
theorem lcadv_answers (h : Claims.MonRuns s m .advance u) (c : Bool) : exec (.lcadv m c) s = .next (
    if u.power.warn then u.errLine 0x0F else if !c then u.errLine 0x0A else State.okLine { u with nv := { u.nv with lifecycle := 1 } }) := by
  have hrow : exec (.lcadv m c) s = .next (s.monCmd m .advance _) := rfl
  exact (mon_exec h hrow).trans rfl

/-! ### Loading (R431, R489, R493) -/

/-- Stage 1 is stopped by SAFE_HOLD. -/
theorem safeHeld_iff (u : State) : u.safeHeld = true ↔ u.boot.straps.safeHold = true ∧ u.boot.stage = .selected ∧ u.boot.mpRunning = false := by
  rw [State.safeHeld, Bool.and_eq_true, Bool.and_eq_true, decide_eq_true_eq, Bool.not_eq_true', and_assoc]

/-- RELEASE. -/
theorem release_answers (h : Claims.MonRuns s m .rom u) : exec (.release m) s = .next (if !u.monitor.criek && u.safeHeld then u.okLine.stage1Done else u.errLine 0x0F) := by
  have hrow : exec (.release m) s = .next (s.monCmd m .rom _) := rfl
  exact (mon_exec h hrow).trans rfl

/-- RELEASE is served by Criek-ROM alone, in SAFE_HOLD. -/
theorem releases_iff (u : State) : (!u.monitor.criek && u.safeHeld) = true ↔
    u.monitor.criek = false ∧ (u.boot.straps.safeHold = true ∧ u.boot.stage = .selected ∧ u.boot.mpRunning = false) := by
  rw [Bool.and_eq_true, Bool.not_eq_true', safeHeld_iff]

/-- MONITOR_LOAD. -/
theorem monitorLoad_answers (h : Claims.MonRuns s m .rom u) (n : Nat) : let v := u.text "READY" []
    exec (.monitorLoad m n) s = .next (if u.monitor.criek || !(u.boot.window || u.safeHeld) then u.errLine 0x0F else if n < 8192 ∨ 50331648 < n then u.errLine 0x0A
      else { v with monitor := { v.monitor with load := some (MonLoad.mk n [] 0 (!u.boot.window)) }, boot := { v.boot with windowHeld := u.boot.window } }) := by
  have hrow : exec (.monitorLoad m n) s = .next (s.monCmd m .rom _) := rfl
  exact (mon_exec h hrow).trans rfl

/-- MONITOR_LOAD is served by Criek-ROM alone, in a window or in SAFE_HOLD. -/
theorem loads_iff (u : State) : (u.monitor.criek || !(u.boot.window || u.safeHeld)) = true ↔ u.monitor.criek = true ∨
    (u.boot.window = false ∧ ¬ (u.boot.straps.safeHold = true ∧ u.boot.stage = .selected ∧ u.boot.mpRunning = false)) := by
  rw [Bool.or_eq_true, Bool.not_eq_true', Bool.or_eq_false_iff, ← safeHeld_iff, Bool.not_eq_true]

/-- LOAD_BLOCK of a load in progress. -/
theorem loadBlock_eq {l : MonLoad} (hl : s.monitor.load = some l) (d : List Byte) (c : Word) : let u := s.text "ACK" [l.block]
    let got := { l with data := l.data ++ d, block := l.block + 1 }
    exec (.loadBlock d c) s = .next (if d.length = min 4096 (l.len - l.data.length) ∧ crc 0 d = c then
      if l.len ≤ (l.data ++ d).length then u.loadDone got (l.data ++ d) else { u with monitor := { u.monitor with load := some got } }
    else s.text "NAK" [l.block]) := by
  intro u got
  show execLoadBlock d c s = _
  rw [execLoadBlock, hl]

/-- The rows of a load while none is in progress. -/
theorem load_idle (hl : s.monitor.load = none) : (∀ d c, exec (.loadBlock d c) s = .next s) ∧ exec .loadGapTimeout s = .next s ∧ exec .serialLoadLimit s = .next s ∧
    exec .sessionTimeout s = .next { s with monitor := { s.monitor with session := none } } := by
  refine ⟨fun d c => ?_, ?_, ?_, ?_⟩
  · show execLoadBlock d c s = _
    rw [execLoadBlock, hl]
  · show execLoadGapTimeout s = _
    rw [execLoadGapTimeout, hl]
    rfl
  · show execSerialLoadLimit s = _
    rw [execSerialLoadLimit, hl]
    rfl
  · exact congrArg Host.Outcome.next (if_neg (ne_true_of_eq_false (by rw [hl]; rfl)))

/-- The timers of a load in progress. -/
theorem load_timers {l : MonLoad} (hl : s.monitor.load = some l) : exec .sessionTimeout s = .next s ∧ exec .loadGapTimeout s = .next (s.endLoad.errLine 3) ∧
    exec .serialLoadLimit s = .next (s.endLoad.errLine 3) := by
  have hsome : s.monitor.load.isSome = true := by rw [hl]; rfl
  exact ⟨congrArg Host.Outcome.next (if_pos hsome), congrArg Host.Outcome.next (if_pos hsome), congrArg Host.Outcome.next (if_pos hsome)⟩

/-- BAUD_SWITCH. -/
theorem baudSwitch_cases (s : State) : (∀ r, s.monitor.baudNext = some r → exec .baudSwitch s = .next { s with monitor := { s.monitor with baud := r, baudNext := none } }) ∧
    (s.monitor.baudNext = none → exec .baudSwitch s = .next s) := by
  refine ⟨fun r hr => ?_, fun hnone => ?_⟩
  · show execBaudSwitch s = _
    rw [execBaudSwitch, hr]
  · show execBaudSwitch s = _
    rw [execBaudSwitch, hnone]

/-- SERVER_CHANGE. -/
theorem serverChange_eq (s : State) : let u := s.epochBump srcMonitor
    let v : State := { u with monitor := { u.monitor with criek := s.boot.mpRunning, load := none, baud := 115200, baudNext := none }, boot := { u.boot with windowHeld := false } }
    exec .serverChange s = .next (if !s.power.pwrGood || (!s.boot.mpRunning && !s.monitor.criek) then s
      else if s.boot.mpRunning then v.text "CRIEK" [v.fwRel, v.dev.state] else v.text "CRIEK-ROM" [v.dev.state]) := rfl

/-- The port has a server to change. -/
theorem serverIdle_iff (s : State) : (!s.power.pwrGood || (!s.boot.mpRunning && !s.monitor.criek)) = true ↔ s.power.pwrGood = false ∨ (s.boot.mpRunning = false ∧ s.monitor.criek = false) := by
  rw [Bool.or_eq_true, Bool.and_eq_true, Bool.not_eq_true', Bool.not_eq_true', Bool.not_eq_true']

end Commands

/-- Settles O48: the judgement common to every command, then each command and each row of a load. -/
theorem monitorServesItsPaths : Obligations.MonitorServesItsPaths := by
  unfold Obligations.MonitorServesItsPaths
  refine fun s m => ⟨fun x k hx => ?_, fun u h => ⟨(help_quit h).1, id_answers h, state_answers h, fun rate => ⟨fun hin => ?_, fun hout => ?_⟩, (help_quit h).2⟩,
    fun u h => ⟨fun a n => ⟨fun hmany => ?_, fun hfew => ?_⟩, time_answers h⟩,
    fun u h => ⟨fun i a b => ⟨fun hw => ?_, fun hw hi => ?_, fun hw hi hp => ?_, fun hw hi hp => ?_⟩, fun i c => ⟨fun hw => ?_, fun hw hbad => ?_, fun hw hi hc => ⟨_, mem_revoked _ _, ?_⟩⟩⟩,
    fun u h c => ⟨fun hw => ?_, fun hw hc => ?_, fun hw hc => ?_⟩, fun u h => ?_, load_idle, fun l hl => ⟨(load_timers hl).1, (load_timers hl).2.1, (load_timers hl).2.2, fun d c => ⟨fun hbad => ?_, fun hlen hcrc => ?_⟩⟩,
    baudSwitch_cases s, fun hidle => (serverChange_eq s).trans (congrArg Host.Outcome.next (if_pos ((serverIdle_iff s).mpr hidle))), fun hgood hserver => ?_⟩
  · obtain ⟨run, hrow⟩ := monRow_monCmd s hx
    rw [hrow]
    exact ⟨fun hno => congrArg Host.Outcome.next (monCmd_closed hno run), fun hreads => ⟨fun p hp hne => congrArg Host.Outcome.next (monCmd_busy hreads hp hne run),
      fun hs => ⟨fun hk hc => congrArg Host.Outcome.next (monCmd_unknown hreads hs hk hc run), fun hk hno => congrArg Host.Outcome.next (monCmd_forbidden hreads hs hk hno run)⟩⟩⟩
  · exact (baud_answers h rate).trans (congrArg Host.Outcome.next (if_pos (List.contains_iff_mem.mpr hin)))
  · exact (baud_answers h rate).trans (congrArg Host.Outcome.next (if_neg (mt List.contains_iff_mem.mp hout)))
  · exact (log_answers h a n).trans (congrArg Host.Outcome.next (if_pos hmany))
  · exact (log_answers h a n).trans (congrArg Host.Outcome.next (if_neg (Nat.not_lt.mpr hfew)))
  · exact (keyprog_answers h i a b).trans (congrArg Host.Outcome.next (if_pos hw))
  · exact (keyprog_answers h i a b).trans (congrArg Host.Outcome.next ((if_neg (ne_true_of_eq_false hw)).trans (if_pos hi)))
  · exact (keyprog_answers h i a b).trans (congrArg Host.Outcome.next ((if_neg (ne_true_of_eq_false hw)).trans ((if_neg (Nat.not_le.mpr hi)).trans (if_pos hp))))
  · exact (keyprog_answers h i a b).trans (congrArg Host.Outcome.next ((if_neg (ne_true_of_eq_false hw)).trans ((if_neg (Nat.not_le.mpr hi)).trans (if_neg (ne_true_of_eq_false hp)))))
  · exact (revoke_answers h i c).trans (congrArg Host.Outcome.next (if_pos hw))
  · exact (revoke_answers h i c).trans (congrArg Host.Outcome.next ((if_neg (ne_true_of_eq_false hw)).trans (if_pos hbad)))
  · have hgood : ¬ (4 ≤ i ∨ c = false) := fun hor => hor.elim (Nat.not_le.mpr hi) (fun hno => Bool.false_ne_true (hno.symm.trans hc))
    exact (revoke_answers h i c).trans (congrArg Host.Outcome.next ((if_neg (ne_true_of_eq_false hw)).trans (if_neg hgood)))
  · exact (lcadv_answers h c).trans (congrArg Host.Outcome.next (if_pos hw))
  · subst hc
    exact (lcadv_answers h false).trans (congrArg Host.Outcome.next (if_neg (ne_true_of_eq_false hw)))
  · subst hc
    exact (lcadv_answers h true).trans (congrArg Host.Outcome.next (if_neg (ne_true_of_eq_false hw)))
  · intro held
    have hreleases := releases_iff u
    have hloads := loads_iff u
    refine ⟨fun hc hheld => ?_, fun hno => ?_, fun n => ⟨fun hno => ?_, fun hc hopen hlen => ?_, fun hc hopen hlo hhi => ?_⟩⟩
    · exact (release_answers h).trans (congrArg Host.Outcome.next (if_pos (hreleases.mpr ⟨hc, hheld⟩)))
    · refine (release_answers h).trans (congrArg Host.Outcome.next (if_neg (fun hyes => ?_)))
      obtain ⟨hc, hheld⟩ := hreleases.mp hyes
      exact hno.elim (fun hyes => Bool.false_ne_true (hc.symm.trans hyes)) (fun hnot => hnot hheld)
    · exact (monitorLoad_answers h n).trans (congrArg Host.Outcome.next (if_pos (hloads.mpr hno)))
    all_goals
      have hgo : ¬ (u.monitor.criek || !(u.boot.window || u.safeHeld)) = true := fun hyes => by
        rcases hloads.mp hyes with hcriek | ⟨hshut, hnot⟩
        · exact Bool.false_ne_true (hc.symm.trans hcriek)
        · exact hopen.elim (fun hw => Bool.false_ne_true (hshut.symm.trans hw)) hnot
    · exact (monitorLoad_answers h n).trans (congrArg Host.Outcome.next ((if_neg hgo).trans (if_pos hlen)))
    · exact (monitorLoad_answers h n).trans (congrArg Host.Outcome.next ((if_neg hgo).trans (if_neg (fun hor => hor.elim (Nat.not_lt.mpr hlo) (Nat.not_lt.mpr hhi)))))
  · refine (loadBlock_eq hl d c).trans (congrArg Host.Outcome.next (if_neg (fun hboth => ?_)))
    exact hbad.elim (fun hne => hne hboth.1) (fun hne => hne hboth.2)
  · have hrun := (loadBlock_eq hl d c).trans (congrArg Host.Outcome.next (if_pos ⟨hlen, hcrc⟩))
    exact ⟨fun hmore => hrun.trans (congrArg Host.Outcome.next (if_neg (Nat.not_le.mpr hmore))), fun hall => hrun.trans (congrArg Host.Outcome.next (if_pos hall))⟩
  · have hgo : ¬ (!s.power.pwrGood || (!s.boot.mpRunning && !s.monitor.criek)) = true := fun hyes => by
      rcases (serverIdle_iff s).mp hyes with hno | ⟨hmp, hcriek⟩
      · exact Bool.false_ne_true (hno.symm.trans hgood)
      · exact hserver.elim (fun hyes => Bool.false_ne_true (hmp.symm.trans hyes)) (fun hyes => Bool.false_ne_true (hcriek.symm.trans hyes))
    exact (serverChange_eq s).trans (congrArg Host.Outcome.next (if_neg hgo))

end Sys2Proof.Machine
end

section
/-!
SUPPORT. What a write of bytes leaves (R42 to R44, R51): the theorem that settles O54.
-/

namespace Sys2Proof.Machine

open Sys2Proof

set_option Elab.async false

/-- Changing the selected arrival leaves the cycle count. -/
theorem modSelected_cyc (e : Engine) (k : Nat) (f : Arrival → Arrival) : (e.modSelected k f).cyc = e.cyc := by
  unfold Engine.modSelected
  dsimp only
  split
  · rfl
  · rfl

/-- An engine that has run is read back after it is replaced by one of the same cycle count, and nothing else has changed. -/
theorem setEng_written {s : State} {pe : Nat} {e : Engine} (hrun : (s.eng pe).cyc ≠ 0) (hcyc : e.cyc = (s.eng pe).cyc) :
    (s.setEng pe e).eng pe = e ∧ (∀ pe', pe' ≠ pe → (s.setEng pe e).eng pe' = s.eng pe') ∧ s.SameButEngines (s.setEng pe e) :=
  ⟨eng_setEng s pe e (engine_ne_reset e (hcyc ▸ hrun)), fun pe' hne => eng_setEng_other s pe pe' e hne, setEng_same s pe e⟩

/-- Settles O54: a memory by the laws of its writes, a place by the memory that it lies in. -/
theorem writesChangeOnlyTheirBytes : Obligations.WritesChangeOnlyTheirBytes := by
  unfold Obligations.WritesChangeOnlyTheirBytes
  refine ⟨fun m a bs => ⟨fun x hx => Mem.rd_wrN_other m a x bs hx, fun hm => ⟨Mem.wf_wrN m a bs hm, Mem.rdN_wrN m a bs hm⟩⟩, rfl, fun s pe k bs hrun => ?_⟩
  exact ⟨fun a => setEng_written hrun rfl, fun a => rfl, fun off => setEng_written hrun (modSelected_cyc _ _ _), fun h off => rfl, fun a => rfl⟩

end Sys2Proof.Machine
end

section
/-!
SUPPORT. Logging an event, and the bytes of its entry (R373, R374, R376): the theorem that settles O59.
-/

namespace Sys2Proof.Machine

open Sys2Proof

set_option Elab.async false

/-! ### The log (R373, R376) -/

/-- The event that a call logs. -/
def State.eventOf (s : State) (stamp : Word) (code obj detail : Nat) : Event :=
  Event.mk s.events.nextSeq s.time.number (BitVec.ofNat 16 code) (severity code) stamp (BitVec.ofNat 32 obj) (BitVec.ofNat 32 detail)

/-- Logging puts the event in front of the log, which holds so many. -/
theorem logFrom_log (s : State) (stamp : Word) (code obj detail : Nat) :
    (s.logFrom stamp code obj detail).events.log = (s.eventOf stamp code obj detail :: s.events.log).take 3145728 := rfl

/-- The ring waits for it where it is enabled and its class not masked. -/
theorem logFrom_ring (s : State) (stamp : Word) (code obj detail : Nat) : (s.logFrom stamp code obj detail).events.pendingRing =
    if s.events.ringEnabled && !(s.events.mask.getLsbD (code / 256)) then s.events.pendingRing ++ [s.eventOf stamp code obj detail] else s.events.pendingRing := rfl

/-- The front of a list that is cut to a length. -/
theorem take_front {α : Type} (e : α) (l : List α) {n : Nat} (hn : 0 < n) : ((e :: l).take n)[0]? = some e := by
  rw [List.getElem?_take_of_lt hn]
  rfl

/-- What follows it. -/
theorem take_behind {α : Type} (e : α) (l : List α) {n i : Nat} (hi : i + 1 < n) : ((e :: l).take n)[i + 1]? = l[i]? := by
  rw [List.getElem?_take_of_lt hi]
  rfl

/-! ### The entry (R374) -/

/-- The field of a list of bytes between two others. -/
theorem slice_between {a b c : List Byte} {off n : Nat} (ha : a.length = off) (hb : b.length = n) : slice (a ++ (b ++ c)) off n = b := by
  subst ha hb
  rw [slice, List.drop_left, padTo]
  simp

/-- The last field. -/
theorem slice_last {a b : List Byte} {off n : Nat} (ha : a.length = off) (hb : b.length = n) : slice (a ++ b) off n = b := by
  have hmid := slice_between (c := []) ha hb
  rwa [List.append_nil] at hmid

/-- FLAGS of an entry: PHASE, then the severity. -/
theorem flags_fields (phase : Bool) {sev : Nat} (h : sev < 4) :
    (BitVec.ofNat 8 (b2n phase + 2 * sev)).getLsbD 0 = phase ∧ (BitVec.ofNat 8 (b2n phase + 2 * sev)).toNat / 2 % 4 = sev := by
  have hphase : b2n phase < 2 := by
    cases phase
    · decide
    · decide
  have hnat : (BitVec.ofNat 8 (b2n phase + 2 * sev)).toNat = b2n phase + 2 * sev := Nat.mod_eq_of_lt (by omega)
  refine ⟨?_, by omega⟩
  rw [BitVec.getLsbD, hnat, Nat.testBit_zero]
  cases phase
  · exact decide_eq_false (by rw [b2n]; simp)
  · exact decide_eq_true (by rw [b2n]; simp)

/-- Settles O59: the log and the ring by their new values, the entry field by field. -/
theorem eventsTakeTheNextNumber : Obligations.EventsTakeTheNextNumber := by
  unfold Obligations.EventsTakeTheNextNumber
  refine ⟨fun s stamp code obj detail => ?_, fun e phase hsev => ?_⟩
  · refine ⟨s.eventOf stamp code obj detail, rfl, rfl, rfl, rfl, rfl, rfl, rfl, ?_, fun i hi => ?_, ?_, fun ⟨hring, hmask⟩ => ?_, fun hno => ?_, rfl⟩
    · rw [logFrom_log]
      exact take_front _ _ (by omega)
    · rw [logFrom_log]
      exact take_behind _ _ hi
    · rw [logFrom_log]
      exact List.length_take_le _ _
    · rw [logFrom_ring, hring, hmask]
      rfl
    · refine (logFrom_ring s stamp code obj detail).trans (if_neg (fun hyes => ?_))
      rw [Bool.and_eq_true, Bool.not_eq_true'] at hyes
      exact hno.elim (fun hoff => Bool.false_ne_true (hoff.symm.trans hyes.1)) (fun hmasked => Bool.false_ne_true (hyes.2.symm.trans hmasked))
  · have hbytes : e.bytes phase = leBytes 8 e.seq ++ (leBytes 8 e.tick ++ (leBytes 2 e.code.toNat ++ ([BitVec.ofNat 8 (b2n phase + 2 * e.severity), 0] ++
        (leBytes 4 e.stamp.toNat ++ (leBytes 4 e.object.toNat ++ leBytes 4 e.detail.toNat))))) := by
      simp only [Event.bytes, List.append_assoc]
    rw [hbytes]
    refine ⟨?_, ?_, ?_, ?_, ⟨BitVec.ofNat 8 (b2n phase + 2 * e.severity), ?_, flags_fields phase hsev⟩, ?_, ?_, ?_⟩
    · simp
    · exact List.take_left' (length_leBytes 8 e.seq)
    · exact slice_between (length_leBytes 8 e.seq) (length_leBytes 8 e.tick)
    · rw [← List.append_assoc]
      exact slice_between (by simp) (length_leBytes 2 _)
    · rw [← List.append_assoc, ← List.append_assoc, List.getElem?_append_right (by simp)]
      simp
    · rw [← List.append_assoc, ← List.append_assoc, ← List.append_assoc]
      exact slice_between (by simp) (length_leBytes 4 _)
    · rw [← List.append_assoc, ← List.append_assoc, ← List.append_assoc, ← List.append_assoc]
      exact slice_between (by simp) (length_leBytes 4 _)
    · rw [← List.append_assoc, ← List.append_assoc, ← List.append_assoc, ← List.append_assoc, ← List.append_assoc]
      exact slice_last (by simp) (length_leBytes 4 _)

end Sys2Proof.Machine
end

section
/-!
SUPPORT. What the firmware writes when a command ends (R225, R226, R228, R229): the theorem that settles O58.
-/

namespace Sys2Proof.Machine

open Sys2Proof

set_option Elab.async false

/-! ### The header fields (R226) -/

/-- DETAIL: the value's three bytes, then the kind. -/
theorem leBytes_detail (kind value : Nat) : leBytes 4 (kind % 256 * 2 ^ 24 + value % 2 ^ 24) = leBytes 3 value ++ [BitVec.ofNat 8 kind] := by
  simp only [leBytes, List.cons_append, List.nil_append, List.cons.injEq, and_true]
  refine ⟨?_, ?_, ?_, ?_⟩
  all_goals
    refine BitVec.eq_of_toNat_eq ?_
    simp only [BitVec.toNat_ofNat]
    omega

/-- The 24 bytes of the header fields. -/
theorem length_headerFields (s : State) (v2 : Bool) (v : CmdEnd) (got need : Nat) : (Claims.headerFields s v2 v got need).length = 24 := by
  simp [Claims.headerFields]

section Delivery

variable {s : State} {k ptr len need : Nat} {v2 : Bool} {v : CmdEnd} {res : List Byte}

/-- Host memory with the header fields and the result in the block. -/
def Mem.block (m : Mem) (ptr : Nat) (hdr body : List Byte) : Mem := Mem.wrN (Mem.wrN m (ptr + 0x10) hdr) (ptr + 0x40) body

/-- The record of the last result. -/
def State.recorded (s : State) (body : List Byte) : State := { s with mbadel := { s.mbadel with lastResult := body } }

/-- The state in which the notice is posted: what is written stands in host memory, and nothing else has changed but PF0's requests and the record of the
result. -/
def State.blockWritten (s : State) (ptr : Nat) (hdr body : List Byte) (w : List WriteReq) : State :=
  State.recorded { s with hostMem := Mem.block s.hostMem ptr hdr body, pcie := { s.pcie with writes := w } } body

/-- The firmware writes the header fields, then the result, then posts the notice. -/
theorem deliverResult_eq (s : State) (k ptr len need : Nat) (v2 : Bool) (v : CmdEnd) (res : List Byte) :
    let hdr := [v.status, 0, 0, 0] ++ leBytes 4 (v.kind % 256 * 2 ^ 24 + v.value % 2 ^ 24) ++ leBytes 8 (if v2 then 0 else s.time.number) ++
      leBytes 4 (res.take (len - 64)).length ++ leBytes 4 need
    s.deliverResult k ptr len v2 v res need = (State.recorded (if (res.take (len - 64)).isEmpty then s.hostWrite 0 (ptr + 0x10) hdr
      else (s.hostWrite 0 (ptr + 0x10) hdr).hostWrite 0 (ptr + 0x40) (res.take (len - 64))) (res.take (len - 64))).postNotice k ptr len := rfl

/-- The two writes of a command that ends, the second of which an empty result spares. -/
theorem blockWritten_of (s : State) (ptr : Nat) (hdr body : List Byte) : ∃ w,
    State.recorded (if body.isEmpty then wrote s (ptr + 0x10) hdr else wrote (wrote s (ptr + 0x10) hdr) (ptr + 0x40) body) body = s.blockWritten ptr hdr body w := by
  cases body with
  | nil => exact ⟨_, rfl⟩
  | cons b bs => exact ⟨_, rfl⟩

/-- A command that ends writes its block and posts its notice. -/
theorem writeResult_posted (hh : s.holds 0 = false) (hp : s.preReset? k ptr = none) : ∃ w,
    s.writeResult k ptr len v2 v res need =
      (s.blockWritten ptr (Claims.headerFields s v2 v (min (len - 64) res.length) need) (res.take (len - 64)) w).postNotice k ptr len := by
  have hhdr : [v.status, 0, 0, 0] ++ leBytes 4 (v.kind % 256 * 2 ^ 24 + v.value % 2 ^ 24) ++ leBytes 8 (if v2 then 0 else s.time.number) ++
      leBytes 4 (res.take (len - 64)).length ++ leBytes 4 need = Claims.headerFields s v2 v (min (len - 64) res.length) need := by
    simp only [Claims.headerFields, leBytes_detail, List.length_take, List.append_assoc]
  have hrun : s.writeResult k ptr len v2 v res need = s.deliverResult k ptr len v2 v res need := by
    rw [State.writeResult, hp]
  rw [hrun, deliverResult_eq, hhdr, hostWrite_zero _ _ hh, hostWrite_zero _ _ ((holds_wrote s _ _).trans hh)]
  exact (blockWritten_of s ptr _ (res.take (len - 64))).imp (fun w hw => congrArg (fun u : State => u.postNotice k ptr len) hw)

end Delivery

/-! ### What the block holds -/

section Block

variable {m : Mem} {ptr : Nat} {hdr body : List Byte}

/-- The block stays canonical. -/
theorem wf_block (hm : FMap.wf 0 m = true) : FMap.wf 0 (Mem.block m ptr hdr body) = true := Mem.wf_wrN _ _ _ (Mem.wf_wrN _ _ _ hm)

/-- The header fields read back. -/
theorem block_header (hm : FMap.wf 0 m = true) (hlen : hdr.length = 24) : Mem.rdN (Mem.block m ptr hdr body) (ptr + 0x10) 24 = hdr := by
  rw [Mem.block, Mem.rdN_wrN_other _ _ _ _ _ (by omega), ← hlen, Mem.rdN_wrN _ _ _ hm]

/-- The result reads back. -/
theorem block_body (hm : FMap.wf 0 m = true) : Mem.rdN (Mem.block m ptr hdr body) (ptr + 0x40) body.length = body := Mem.rdN_wrN _ _ _ (Mem.wf_wrN _ _ _ hm)

/-- Every other byte reads as before. -/
theorem block_other {a : Nat} (hlen : hdr.length = 24) (hhdr : a < ptr + 0x10 ∨ ptr + 0x28 ≤ a) (hbody : a < ptr + 0x40 ∨ ptr + 0x40 + body.length ≤ a) :
    Mem.rd (Mem.block m ptr hdr body) a = Mem.rd m a := by
  rw [Mem.block, Mem.rd_wrN_other _ _ _ _ hbody, Mem.rd_wrN_other _ _ _ _ (by omega)]

end Block

/-- Host memory once a command has ended. -/
theorem writeResult_host {s : State} {k ptr len need : Nat} {v2 : Bool} {v : CmdEnd} {res : List Byte} (hh : s.holds 0 = false) (hp : s.preReset? k ptr = none) :
    let b := Mem.block s.hostMem ptr (Claims.headerFields s v2 v (min (len - 64) res.length) need) (res.take (len - 64))
    (s.writeResult k ptr len v2 v res need).hostMem = if (s.mb (mhNo k)).full = false ∧ s.msixMasked 0 k = false
      then Mem.wrN b (Claims.messageAt s k) (leBytes 4 (Mem.rdLe (s.fn 0).msix (k * 16 + 8) 4)) else b := by
  intro b
  obtain ⟨w, hrun⟩ := writeResult_posted (len := len) (need := need) (v2 := v2) (res := res) hh hp
  rw [hrun]
  exact postNotice_host hh

/-- Settles O58: host memory by its writes, the notice by its mailbox. -/
theorem resultsAreWrittenInTheBlock : Obligations.ResultsAreWrittenInTheBlock := by
  unfold Obligations.ResultsAreWrittenInTheBlock
  intro s k ptr len v2 v res need hm hh hp hlen _ _ t n full m sent
  have hhdr : (Claims.headerFields s v2 v n need).length = 24 := length_headerFields s v2 v n need
  have hbody : (res.take (len - 64)).length = n := List.length_take
  have htake : res.take (len - 64) = res.take n := by
    rcases Nat.le_total (len - 64) res.length with h | h
    · rw [show n = len - 64 from min_eq_left h]
    · rw [show n = res.length from min_eq_right h, List.take_of_length_le h, List.take_length]
  have hhost : t.hostMem = if sent then Mem.wrN (Mem.block s.hostMem ptr (Claims.headerFields s v2 v n need) (res.take (len - 64))) m (leBytes 4 (Mem.rdLe (s.fn 0).msix (k * 16 + 8) 4))
      else Mem.block s.hostMem ptr (Claims.headerFields s v2 v n need) (res.take (len - 64)) := writeResult_host hh hp
  have hheader := block_header (ptr := ptr) (body := res.take (len - 64)) hm hhdr
  have hresult : Mem.rdN (Mem.block s.hostMem ptr (Claims.headerFields s v2 v n need) (res.take (len - 64))) (ptr + 0x40) n = res.take n := by
    rw [← htake]
    exact hbody ▸ block_body hm
  obtain ⟨w, hrun⟩ := writeResult_posted (len := len) (need := need) (v2 := v2) (res := res) hh hp
  refine ⟨fun hapart => ?_, fun hsent => ?_, fun a hnothdr hnotbody hnotmsg => ?_, fun hfull => ?_, fun hempty => ?_⟩
  · by_cases hsent : sent
    · have hclear : m + 4 ≤ ptr ∨ ptr + len ≤ m := hapart.resolve_left (not_not.mpr hsent)
      have hn : n ≤ len - 64 := min_le_left _ _
      rw [hhost, if_pos hsent, Mem.rdN_wrN_other _ _ _ _ _ (by rw [length_leBytes]; omega), Mem.rdN_wrN_other _ _ _ _ _ (by rw [length_leBytes]; omega)]
      exact ⟨hheader, hresult⟩
    · rw [hhost, if_neg hsent]
      exact ⟨hheader, hresult⟩
  · have hread := Mem.rdN_wrN (Mem.block s.hostMem ptr (Claims.headerFields s v2 v n need) (res.take (len - 64))) m (leBytes 4 (Mem.rdLe (s.fn 0).msix (k * 16 + 8) 4)) (wf_block hm)
    rw [length_leBytes] at hread
    rw [hhost, if_pos hsent, hread]
  · have hkept := block_other (m := s.hostMem) (body := res.take (len - 64)) hhdr hnothdr (by rw [hbody]; exact hnotbody)
    by_cases hsent : sent
    · rw [hhost, if_pos hsent, Mem.rd_wrN_other _ _ _ _ (by rw [length_leBytes]; exact hnotmsg.resolve_left (not_not.mpr hsent))]
      exact hkept
    · rw [hhost, if_neg hsent]
      exact hkept
  · have ht := hrun.trans (postNotice_full hfull)
    have hnotices := congrArg (fun w : State => w.mbadel.notices) ht
    have hmb := congrArg (fun w : State => w.mb (mhNo k)) ht
    exact ⟨hnotices, hmb⟩
  · have ht : t.mb (mhNo k) = _ := (congrArg (fun w : State => w.mb (mhNo k)) hrun).trans (postNotice_mb hempty)
    rw [ht]
    exact ⟨rfl, rfl, rfl⟩

end Sys2Proof.Machine
end

section
/-!
SUPPORT. How the firmware begins with a command's block, whatever the command, and what it does with a block that only checks (R225, R227, R229, R231): the
theorems that settle O57 and O56.
-/

namespace Sys2Proof.Machine

open Sys2Proof

set_option Elab.async false

/-! ### What the end of a command leaves -/

/-- The commands that are armed, and the namespaces: neither changes as a command ends. -/
def State.settled (s : State) : List Armed × FMap (Option Namespace) := (s.mbadel.armed, s.sto.nss)

/-- A power management event leaves them. -/
theorem pme_settled (s : State) (pf : Nat) : (s.pme pf).settled = s.settled := by
  unfold State.pme
  dsimp only
  split
  · split
    · rfl
    · split
      · rfl
      · rfl
  · rfl

/-- A pending bit leaves them. -/
theorem setPending_settled (s : State) (fn vec : Nat) : (s.setPending fn vec).settled = s.settled := by
  unfold State.setPending
  dsimp only
  split
  · rfl
  · rfl

/-- A requested vector leaves them. -/
theorem msix_settled (s : State) (fn vec : Nat) : (s.msix fn vec).settled = s.settled := by
  unfold State.msix
  split
  · exact setPending_settled s fn vec
  · split
    · dsimp only
      split
      · exact (pme_settled _ _).trans (setPending_settled s fn vec)
      · exact setPending_settled s fn vec
    · rfl

/-- The start of a full reset's 10 ms leaves them. -/
theorem noticeReset_settled (s : State) (k ptr : Nat) : (s.noticeReset k ptr).settled = s.settled := by
  unfold State.noticeReset
  split
  · rfl
  · rfl

/-- A posted notice leaves them. -/
theorem postNotice_settled (s : State) (k ptr len : Nat) : (s.postNotice k ptr len).settled = s.settled := by
  unfold State.postNotice
  dsimp only
  split
  · rfl
  · exact (pme_settled _ _).trans ((msix_settled _ _ _).trans ((noticeReset_settled _ _ _).trans rfl))

/-- Held requests leave them. -/
theorem holds_settled (f : Nat × List Byte → Held) (fn : Nat) (ps : List (Nat × List Byte)) (s : State) : (ps.foldl (fun s p => s.hold fn (f p)) s).settled = s.settled := by
  induction ps generalizing s with
  | nil => rfl
  | cons p ps ih => exact ih _

/-- Marking pages leaves them. -/
theorem markDirty_settled (s : State) (fn addr len : Nat) : (s.markDirty fn addr len).settled = s.settled := by
  unfold State.markDirty
  split
  · rfl
  · split
    · split
      · rfl
      · rfl
    · rfl

/-- A write to the host leaves them. -/
theorem hostWrite_settled (s : State) (fn addr : Nat) (bytes : List Byte) : (s.hostWrite fn addr bytes).settled = s.settled := by
  unfold State.hostWrite State.anyWrite
  split
  · exact holds_settled _ fn _ s
  · exact markDirty_settled s fn addr bytes.length

/-- A command that ends leaves them. -/
theorem writeResult_settled (s : State) (k ptr len : Nat) (v2 : Bool) (v : CmdEnd) (res : List Byte) (need : Nat) :
    (s.writeResult k ptr len v2 v res need).settled = s.settled := by
  have hdeliver : ∀ u : State, (u.deliverResult k ptr len v2 v res need).settled = u.settled := fun u => by
    rw [deliverResult_eq]
    refine (postNotice_settled _ _ _ _).trans ?_
    show State.settled (if _ then _ else _) = _
    split
    · exact hostWrite_settled u _ _ _
    · exact (hostWrite_settled _ _ _ _).trans (hostWrite_settled u _ _ _)
  unfold State.writeResult
  split
  · split
    · exact hdeliver _
    · rfl
  · exact hdeliver s

/-! ### The steps before a command's own (R229) -/

section Taken

variable {s : State} {c : Instr} {h : MbHdr} {r : CmdRow} {run : State → Nat → Nat → State} {ptr len : Nat}

/-- A message that has not been taken, or that another precedes (R231). -/
theorem takenCmd_idle : (FMap.get none s.mbadel.taken h.hm.val = none → s.takenCmd h r run = s) ∧ (s.mbadel.order.head? ≠ some h.hm.val → s.takenCmd h r run = s) := by
  refine ⟨fun hnone => ?_, fun hlate => ?_⟩
  · unfold State.takenCmd
    dsimp only
    rw [hnone]
  · unfold State.takenCmd
    dsimp only
    split
    · rfl
    · exact if_pos hlate

/-- The steps of R229 that come first, in their order. -/
theorem takenCmd_eq (ht : FMap.get none s.mbadel.taken h.hm.val = some (ptr, len)) (ho : s.mbadel.order.head? = some h.hm.val) : let u := s.consume h.hm.val ptr r.opcode
    s.takenCmd h r run =
      if h.readStatus ≠ 0 then (u.log 0x0407 h.hm.val h.readStatus.toNat).endCmd h.hm.val ptr len h.v2 (vPlain 8)
      else if ptr % 64 ≠ 0 then u.endCmd h.hm.val ptr len h.v2 (vBad 0)
      else if h.length ≠ len ∨ len < 64 then u.endCmd h.hm.val ptr len h.v2 (vBad 4)
      else if u.boot.recoveryPers || u.boot.window || h.v2 && !r.hivia || h.opcode.any (fun o => !implemented o) then u.endCmd h.hm.val ptr len h.v2 (vPlain 0x0B)
      else if !servesGroup (FMap.get 0 s.mbadel.takenState h.hm.val) (r.opcode / 256) r.farrier then
        u.endCmd h.hm.val ptr len h.v2 { status := 0x0F, kind := 0, value := FMap.get 0 s.mbadel.takenState h.hm.val }
      else run u ptr len := by
  intro u
  unfold State.takenCmd
  dsimp only
  rw [ht]
  exact if_neg (not_not.mpr ho)

/-- A block ends before the command's own steps, or the command's own steps follow. -/
theorem takenCmd_cases (ht : FMap.get none s.mbadel.taken h.hm.val = some (ptr, len)) (ho : s.mbadel.order.head? = some h.hm.val) (hr : h.readStatus = 0) :
    let u := s.consume h.hm.val ptr r.opcode
    (∃ v, ∀ run, s.takenCmd h r run = u.writeResult h.hm.val ptr len h.v2 v [] 0) ∨ ∀ run, s.takenCmd h r run = run u ptr len := by
  intro u
  by_cases hplace : ptr % 64 ≠ 0
  · exact Or.inl ⟨vBad 0, fun run => by rw [takenCmd_eq ht ho, if_neg (not_not.mpr hr), if_pos hplace]; rfl⟩
  by_cases hlen : h.length ≠ len ∨ len < 64
  · exact Or.inl ⟨vBad 4, fun run => by rw [takenCmd_eq ht ho, if_neg (not_not.mpr hr), if_neg hplace, if_pos hlen]; rfl⟩
  by_cases hun : (u.boot.recoveryPers || u.boot.window || h.v2 && !r.hivia || h.opcode.any (fun o => !implemented o)) = true
  · exact Or.inl ⟨vPlain 0x0B, fun run => by rw [takenCmd_eq ht ho, if_neg (not_not.mpr hr), if_neg hplace, if_neg hlen, if_pos hun]; rfl⟩
  by_cases hgroup : (!servesGroup (FMap.get 0 s.mbadel.takenState h.hm.val) (r.opcode / 256) r.farrier) = true
  · exact Or.inl ⟨CmdEnd.mk 0x0F 0 (FMap.get 0 s.mbadel.takenState h.hm.val), fun run => by
      rw [takenCmd_eq ht ho, if_neg (not_not.mpr hr), if_neg hplace, if_neg hlen, if_neg hun, if_pos hgroup]; rfl⟩
  · exact Or.inr (fun run => by rw [takenCmd_eq ht ho, if_neg (not_not.mpr hr), if_neg hplace, if_neg hlen, if_neg hun, if_neg hgroup])

/-- What is done after a command passes into the command's own steps, where it does nothing to a state with the commands that were armed before. -/
theorem takenCmd_after (g : State → State) (hg : ∀ u : State, u.mbadel.armed = s.mbadel.armed → g u = u) :
    g (s.takenCmd h r run) = s.takenCmd h r (fun u ptr len => g (run u ptr len)) := by
  have hend : ∀ (u : State) k ptr len v2 v, u.mbadel.armed = s.mbadel.armed → g (u.endCmd k ptr len v2 v) = u.endCmd k ptr len v2 v := fun u k ptr len v2 v hu =>
    hg _ ((congrArg Prod.fst (writeResult_settled u k ptr len v2 v [] 0)).trans hu)
  unfold State.takenCmd
  dsimp only
  split
  · exact hg s rfl
  · split_ifs
    · exact hg s rfl
    · exact hend _ _ _ _ _ _ rfl
    · exact hend _ _ _ _ _ _ rfl
    · exact hend _ _ _ _ _ _ rfl
    · exact hend _ _ _ _ _ _ rfl
    · exact hend _ _ _ _ _ _ rfl
    · rfl

end Taken

/-! ### The command's own steps (R227, R230) -/

section Serves

variable {s p : State} {c cmd : Instr} {h : MbHdr} {r : CmdRow} {j : Judge} {tick : Nat}

/-- A command is a block that is taken; one that only checks ends there with a status. -/
def State.Serves (s : State) (c : Instr) (h : MbHdr) : Prop :=
  ∃ r run, exec c s = .next (s.takenCmd h r run) ∧ (h.checkOnly = true → ∀ ptr len, ∃ v need,
    run (s.consume h.hm.val ptr r.opcode) ptr len = (s.consume h.hm.val ptr r.opcode).writeResult h.hm.val ptr len h.v2 v [] need)

/-- A command that is carried out at once. -/
theorem runNow_serves {act : State → State × CmdEnd × List Byte} (hrow : exec c s = .next (s.runNow h r j act)) : s.Serves c h := by
  refine ⟨r, _, hrow, fun hc ptr len => ?_⟩
  dsimp only
  split
  · exact ⟨_, _, rfl⟩
  · rw [hc, if_pos rfl]
    exact ⟨_, _, rfl⟩

/-- A command that is carried out at a turn. -/
theorem runTurn_serves (hrow : exec c s = .next (s.runTurn p h r j cmd tick)) : s.Serves c h := by
  refine ⟨r, _, hrow, fun hc ptr len => ?_⟩
  dsimp only
  split
  · exact ⟨_, _, rfl⟩
  · rw [hc, if_pos rfl]
    exact ⟨_, _, rfl⟩

/-- A command that takes its time. -/
theorem runLong_serves {waits : Bool} {start : State → State} (hrow : exec c s = .next (s.runLong h r j cmd waits start)) : s.Serves c h := by
  refine ⟨r, _, hrow, fun hc ptr len => ?_⟩
  dsimp only
  split
  · exact ⟨_, _, rfl⟩
  · rw [hc, if_pos rfl]
    exact ⟨_, _, rfl⟩

/-- A command of a turn whose acceptance has an effect of its own, as COMMIT and BANK_SWITCH. -/
theorem accepted_serves {t : State} {f : State → State} (ht : t = s.runTurn p h r j cmd tick) (hrow : exec c s = .next (if armedMore s t then f t else t)) : s.Serves c h := by
  subst ht
  have hkeep : ∀ u : State, u.mbadel.armed = s.mbadel.armed → (if armedMore s u then f u else u) = u := fun u hu =>
    if_neg (by rw [armedMore, hu]; simp)
  refine ⟨r, _, hrow.trans (congrArg Host.Outcome.next (takenCmd_after (fun u => if armedMore s u then f u else u) hkeep)), fun hc ptr len => ?_⟩
  have hstay : ∀ (u : State) v, u.mbadel.armed = s.mbadel.armed → (if armedMore s (u.endCmd h.hm.val ptr len h.v2 v) then f (u.endCmd h.hm.val ptr len h.v2 v) else u.endCmd h.hm.val ptr len h.v2 v) =
      u.endCmd h.hm.val ptr len h.v2 v := fun u v hu => hkeep _ ((congrArg Prod.fst (writeResult_settled u _ ptr len h.v2 v [] 0)).trans hu)
  dsimp only
  split
  · exact ⟨_, _, hstay _ _ rfl⟩
  · rw [hc, if_pos rfl]
    exact ⟨_, _, hstay _ _ rfl⟩

/-- INSTANCE_SAVE and DIRTY_HARVEST take their time too. -/
theorem saveHarvest_serves (s : State) (h : MbHdr) (n : Nat) (addr : DWord) (len : Nat) (clear : Byte) :
    s.Serves (.instanceSave h n addr len) h ∧ s.Serves (.dirtyHarvest h n clear addr len) h := by
  refine ⟨⟨row 0x0206, _, rfl, fun hc ptr blen => ?_⟩, ⟨row 0x0209, _, rfl, fun hc ptr blen => ?_⟩⟩
  · dsimp only
    split
    · exact ⟨_, _, rfl⟩
    · rw [hc, if_pos rfl]
      exact ⟨_, _, rfl⟩
  · dsimp only
    split
    · exact ⟨_, _, rfl⟩
    · rw [hc, if_pos rfl]
      exact ⟨_, _, rfl⟩

/-- COMMIT. -/
theorem commit_serves (s : State) (h : MbHdr) (b tick : Nat) : s.Serves (.commit h b tick) h :=
  accepted_serves (t := s.runTurn s.projected h (rowH 0x0408) (takeJudge s b) (.commit h b tick) tick) (f := fun t => (t.requestBatch b true).tickFree) rfl rfl

/-- BANK_SWITCH. -/
theorem bankSwitch_serves (s : State) (h : MbHdr) (set : List Nat) (tick : Nat) : s.Serves (.bankSwitch h set tick) h :=
  accepted_serves (t := s.takeT h (row 0x040E) (.bankSwitch h set tick) tick) (f := fun t => t.pendBanks set true) rfl rfl

end Serves

/-- Every command of the firmware is a block that is taken; one that only checks ends with a status, NS_CREATE apart, which asks its backend. -/
theorem header_serves (s : State) {c : Instr} {h : MbHdr} (hc : Claims.header c = some h) (hns : ∀ n b rn rem, c ≠ .nsCreate h n b rn rem) : s.Serves c h := by
  cases c with
  | identify | deviceState | poolCarve | controlRegion | deviceReset | instanceCreate | instanceQuery | queueQuery | stageEntries | stageStages | stageGraph
  | stageDefaults | stageSpread | abandon | read | tablePlan | programLoad | programQuery | regCreate | ctxBacking | ctxCreate | ctxModify | ctxDestroy | ctxQuery
  | backendRemove | nsDestroy | backendQuery | opticsQuery | timeQuery | periodChange | periodCancel | holdoverSet | sparesQuery | rotationSet | patrolSet | repairLog
  | wearQuery | imageWrite | imageValidate | imageQuery | imageConfirm | keyRevoke | keyQuery | lifecycleAdvance | stackQuery | powerQuery | domainQuery | monitorUnlock
  | debugQuery | eventRingSet | eventMask | logRead =>
    cases Option.some.inj hc
    exact runNow_serves rfl
  | poolCounters | instanceResize | instanceFreeze | instanceThaw | macSet | queueDestroy | ringBind | tableCreate | tableDestroy | tableCounters | nsAttach | laneSet
  | agSet | agHash | tmqCreate | tmqDestroy | tmAttr | editLoad | portCounters | sourcePriority | sourceSelect | setGate | stackGroup | stackStage | powerCap
  | urgentMask | monitorRelock =>
    cases Option.some.inj hc
    exact runTurn_serves rfl
  | instanceReset | instanceDestroy | instanceRestore | regRevoke | backendAdd | nsDetach | rotateNow | farrierReload | mpSwitch =>
    cases Option.some.inj hc
    exact runLong_serves rfl
  | commit h' b tick =>
    cases Option.some.inj hc
    exact commit_serves s _ b tick
  | bankSwitch h' set tick =>
    cases Option.some.inj hc
    exact bankSwitch_serves s _ set tick
  | instanceSave h' n addr len =>
    cases Option.some.inj hc
    exact (saveHarvest_serves s _ n addr len 0).1
  | dirtyHarvest h' n clear addr len =>
    cases Option.some.inj hc
    exact (saveHarvest_serves s _ n addr len clear).2
  | nsCreate h' n b rn rem =>
    cases Option.some.inj hc
    exact absurd rfl (hns n b rn rem)
  | _ => exact Option.noConfusion rfl (heq_of_eq hc)

/-- Every command of the firmware is a block that is taken. -/
theorem header_takenCmd (s : State) {c : Instr} {h : MbHdr} (hc : Claims.header c = some h) : ∃ r run, exec c s = .next (s.takenCmd h r run) := by
  by_cases hns : ∀ n b rn rem, c ≠ .nsCreate h n b rn rem
  · obtain ⟨r, run, hrow, -⟩ := header_serves s hc hns
    exact ⟨r, run, hrow⟩
  · push Not at hns
    obtain ⟨n, b, rn, rem, rfl⟩ := hns
    exact ⟨_, _, rfl⟩

/-! ### NS_CREATE (R227, R239) -/

/-- A command that ends after it ran leaves the namespaces. -/
theorem endLong_nss (s : State) (w : Running) (v : CmdEnd) (res : List Byte) (need : Nat) : (s.endLong w v res need).sto.nss = s.sto.nss :=
  congrArg Prod.snd (writeResult_settled _ _ _ _ _ _ _ _)

/-- The answer to an NS_CREATE that only checks makes no namespace. -/
theorem nsAnswer_check {s : State} {w : Running} {h : MbHdr} {n b rn : Nat} {rem : Option RemoteNs} (hw : w.cmd = .nsCreate h n b rn rem) (hc : h.checkOnly = true) (r : RemoteNs) :
    (s.nsAnswer w r).sto.nss = s.sto.nss := by
  rw [nsAnswer_eq hw, hc, if_pos rfl]
  split
  · exact endLong_nss s w _ _ _
  · exact endLong_nss s w _ _ _

/-- NS_CREATE that only checks makes no namespace. -/
theorem nsCreate_check {s : State} {h : MbHdr} {n b rn ptr len : Nat} {rem : Option RemoteNs} (hc : h.checkOnly = true) (hr : h.readStatus = 0)
    (ht : FMap.get none s.mbadel.taken h.hm.val = some (ptr, len)) (ho : s.mbadel.order.head? = some h.hm.val) : ∃ t, exec (.nsCreate h n b rn rem) s = .next t ∧ t.sto.nss = s.sto.nss := by
  refine ⟨_, rfl, ?_⟩
  rcases takenCmd_cases (r := row 0x0603) ht ho hr with ⟨v, hend⟩ | hown
  · rw [hend]
    exact congrArg Prod.snd (writeResult_settled _ _ _ _ _ _ _ _)
  · rw [hown]
    dsimp only
    split
    · exact congrArg Prod.snd (writeResult_settled _ _ _ _ _ _ _ _)
    · split
      · exact nsAnswer_check rfl hc _
      · rfl

/-! ### O57 and O56 -/

/-- Settles O57: every command is a block that is taken, and the steps of R229 come first. -/
theorem blocksAreCheckedFirst : Obligations.BlocksAreCheckedFirst := by
  unfold Obligations.BlocksAreCheckedFirst
  intro s c h hc
  obtain ⟨r, run, hrow⟩ := header_takenCmd s hc
  rw [hrow]
  refine ⟨fun hnone => congrArg Host.Outcome.next (takenCmd_idle.1 hnone), fun hlate => congrArg Host.Outcome.next (takenCmd_idle.2 hlate), fun ptr len ht ho => ⟨r.opcode, ?_⟩⟩
  have hsteps := takenCmd_eq (r := r) (run := run) ht ho
  intro u stop
  refine ⟨fun hr => ?_, fun hr hplace => ?_, fun hr hplace hlen => ?_, fun hr hplace hlen hlong hun => ?_⟩
  · exact congrArg Host.Outcome.next (hsteps.trans (if_pos hr))
  · exact congrArg Host.Outcome.next (hsteps.trans ((if_neg (not_not.mpr hr)).trans (if_pos hplace)))
  · exact congrArg Host.Outcome.next (hsteps.trans ((if_neg (not_not.mpr hr)).trans ((if_neg (not_not.mpr hplace)).trans (if_pos hlen))))
  · have hshort : ¬ (h.length ≠ len ∨ len < 64) := fun hor => hor.elim (fun hne => hne hlen) (Nat.not_lt.mpr hlong)
    have hunknown : (u.boot.recoveryPers || u.boot.window || h.v2 && !r.hivia || h.opcode.any (fun o => !implemented o)) = true := by
      rcases hun with hpers | hwindow | ⟨o, ho, hno⟩
      · rw [show u.boot.recoveryPers = true from hpers]
        rfl
      · rw [show u.boot.window = true from hwindow, Bool.or_true]
        rfl
      · rw [ho, Option.any_some, hno, Bool.not_false, Bool.or_true]
    exact congrArg Host.Outcome.next (hsteps.trans ((if_neg (not_not.mpr hr)).trans ((if_neg (not_not.mpr hplace)).trans ((if_neg hshort).trans (if_pos hunknown)))))

/-- The entry of a command that was taken before a reset of PF0 does not change as the block is read. -/
theorem consume_preReset (s : State) (k ptr op : Nat) (h : s.preReset? k ptr = none) : (s.consume k ptr op).preReset? k ptr = none := by
  rw [State.preReset?, List.find?_eq_none] at h ⊢
  intro e he
  obtain ⟨x, hx, rfl⟩ := List.mem_map.mp he
  have hno := h x hx
  split
  · exact hno
  · exact hno

/-- DONE_TICK of the header fields. -/
theorem headerFields_tick (s : State) (v : CmdEnd) (got need : Nat) : ((Claims.headerFields s false v got need).drop 8).take 8 = leBytes 8 s.time.number := by
  have hfields : Claims.headerFields s false v got need =
      ([v.status, 0, 0, 0] ++ leBytes 3 v.value ++ [BitVec.ofNat 8 v.kind]) ++ (leBytes 8 s.time.number ++ (leBytes 4 got ++ leBytes 4 need)) := by
    simp [Claims.headerFields]
  rw [hfields, List.drop_left' (by simp), List.take_left' (length_leBytes 8 _)]

/-- Reading in two parts. -/
theorem rdN_append (m : Mem) (a i j : Nat) : Mem.rdN m a (i + j) = Mem.rdN m a i ++ Mem.rdN m (a + i) j := by
  induction i generalizing a with
  | zero => rw [Nat.zero_add, Nat.add_zero]; rfl
  | succ i ih =>
    rw [Nat.add_right_comm, Mem.rdN, Mem.rdN, ih, List.cons_append, Nat.add_assoc, Nat.add_comm 1 i]

/-- As many bytes are read as asked for. -/
theorem length_rdN (m : Mem) (a n : Nat) : (Mem.rdN m a n).length = n := by
  induction n generalizing a with
  | zero => rfl
  | succ n ih => rw [Mem.rdN, List.length_cons, ih]

/-- The bytes from the 8th of 24. -/
theorem rdN_middle (m : Mem) (a : Nat) : Mem.rdN m (a + 8) 8 = ((Mem.rdN m a 24).drop 8).take 8 := by
  rw [rdN_append m a 8 16, List.drop_left' (length_rdN m a 8), rdN_append m (a + 8) 8 8, List.take_left' (length_rdN m (a + 8) 8)]

/-- A block that ends without a result reads the tick of its completion in DONE_TICK, unless the notice's message is written over it. -/
theorem writeResult_doneTick {s : State} {k ptr len need : Nat} {v : CmdEnd} (hh : s.holds 0 = false) (hp : s.preReset? k ptr = none) (hm : FMap.wf 0 s.hostMem = true)
    (hclear : Claims.messageAt s k + 4 ≤ ptr ∨ ptr + 64 ≤ Claims.messageAt s k) : Mem.rdN (s.writeResult k ptr len false v [] need).hostMem (ptr + 0x18) 8 = leBytes 8 s.time.number := by
  have hblock : Mem.rdN (Mem.block s.hostMem ptr (Claims.headerFields s false v (min (len - 64) 0) need) (List.take (len - 64) [])) (ptr + 0x18) 8 = leBytes 8 s.time.number := by
    rw [rdN_middle _ (ptr + 0x10), block_header hm (length_headerFields s false v _ need), headerFields_tick]
  rw [writeResult_host hh hp]
  split
  · rw [Mem.rdN_wrN_other _ _ _ _ _ (by rw [length_leBytes]; omega)]
    exact hblock
  · exact hblock

/-- Settles O56: NS_CREATE by its own steps, every other command by the status with which it ends. -/
theorem checkOnlyCommandsOnlyEnd : Obligations.CheckOnlyCommandsOnlyEnd := by
  unfold Obligations.CheckOnlyCommandsOnlyEnd
  intro s c h ptr len hc hcheck hr ht ho
  by_cases hns : ∀ n b rn rem, c ≠ .nsCreate h n b rn rem
  · obtain ⟨r, run, hrow, hends⟩ := header_serves s hc hns
    have hend : ∃ v need, s.takenCmd h r run = (s.consume h.hm.val ptr r.opcode).writeResult h.hm.val ptr len h.v2 v [] need := by
      rcases takenCmd_cases (r := r) ht ho hr with ⟨v, hearly⟩ | hown
      · exact ⟨v, 0, hearly run⟩
      · obtain ⟨v, need, hv⟩ := hends hcheck ptr len
        exact ⟨v, need, (hown run).trans hv⟩
    obtain ⟨v, need, hv⟩ := hend
    refine ⟨_, hrow.trans (congrArg Host.Outcome.next hv), fun ⟨n, b, rn, rem, hn⟩ => absurd hn (hns n b rn rem), fun _ => ⟨⟨r.opcode, v, need, rfl⟩, fun hv2 hh hp hm hclear => ?_⟩⟩
    rw [hv2]
    exact writeResult_doneTick hh (consume_preReset s _ ptr _ hp) hm hclear
  · push Not at hns
    obtain ⟨n, b, rn, rem, rfl⟩ := hns
    obtain ⟨t, hrow, hkept⟩ := nsCreate_check (n := n) (b := b) (rn := rn) (rem := rem) hcheck hr ht ho
    exact ⟨t, hrow, fun _ => hkept, fun hno => absurd rfl (hno n b rn rem)⟩

end Sys2Proof.Machine
end

section
/-!
SUPPORT. A fault of a worker without children (R38, R62, R69, R81, R82): the theorem that settles O60.
-/

namespace Sys2Proof.Machine

open Sys2Proof

set_option Elab.async false

section Faults

variable {s : State} {pe k cause : Nat} {addr : Word} {it : Item}

/-- The engine with a record in its fault channel, or with OVF set where the channel is full (R81). -/
def Engine.recorded (e : Engine) (tick : Nat) (words : List Word) : Engine :=
  if 8 ≤ e.faultCh.length then { e with ovf := true } else { e with faultCh := e.faultCh ++ [{ msg := { dst := 0, stamp := tick, words := words }, read := 0 }] }

/-- An engine that has a record or has lost one is not at reset. -/
theorem recorded_ne_reset (e : Engine) (tick : Nat) (words : List Word) : e.recorded tick words ≠ Engine.reset := by
  unfold Engine.recorded
  split
  · exact fun h => Bool.false_ne_true (congrArg Engine.ovf h).symm
  · exact fun h => absurd (congrArg Engine.faultCh h) (List.append_ne_nil_of_right_ne_nil _ (List.cons_ne_nil _ _))

/-- A record replaces the engine. -/
theorem faultRecord_setEng (s : State) (pe : Nat) (words : List Word) : s.faultRecord pe words = s.setEng pe ((s.eng pe).recorded s.time.number words) := by
  unfold State.faultRecord Engine.recorded
  dsimp only
  split
  · rfl
  · rfl

/-- Its contexts, stores and banks are as before. -/
theorem recorded_keeps (e : Engine) (tick : Nat) (words : List Word) : (e.recorded tick words).threads = e.threads ∧ (e.recorded tick words).store = e.store ∧
    (e.recorded tick words).bankA = e.bankA ∧ (e.recorded tick words).bankB = e.bankB := by
  unfold Engine.recorded
  split
  · exact ⟨rfl, rfl, rfl, rfl⟩
  · exact ⟨rfl, rfl, rfl, rfl⟩

/-- Engines with the same contexts have the same descendants. -/
theorem kids_congr {e e' : Engine} (h : e'.threads = e.threads) (k : Nat) : e'.kids k = e.kids k := by
  have hthr : e'.thr = e.thr := funext (fun d => by rw [Engine.thr, h, Engine.thr])
  have hdesc : ∀ n d, descends e' k n d = descends e k n d := fun n => by
    induction n with
    | zero => exact fun d => rfl
    | succ n ih =>
      intro d
      rw [descends, descends, hthr]
      cases (e.thr d).parent with
      | none => rfl
      | some p => exact congrArg (fun b => decide (p = k) || b) (ih p)
  unfold Engine.kids
  rw [hthr]
  exact congrArg (fun f => List.filter f _) (funext (fun d => congrArg _ (hdesc 8 d)))

/-- The record of a fault (R82). -/
def faultWords (s : State) (pe k cause : Nat) (addr : Word) (it : Item) : List Word :=
  recordHead 1 cause (causeStatus cause) k :: recordTail (s.thr pe k) it (s.thr pe k).pc addr

/-- A worker's fault leaves its record and ends its item. -/
theorem fault_eq (hk : k ≠ 0) (hit : (s.eng pe).itemOf k = some it) :
    s.fault pe k cause addr = (s.faultRecord pe (faultWords s pe k cause addr it)).endOther pe k (causeStatus cause) false := by
  rw [State.fault, State.faultAt]
  dsimp only
  rw [hit]
  dsimp only
  rw [if_neg hk]
  rfl

/-- The engine after the record. -/
def State.faulted (s : State) (pe k cause : Nat) (addr : Word) (it : Item) : Engine := (s.eng pe).recorded s.time.number (faultWords s pe k cause addr it)

/-- A status that the overrun policy does not cover. -/
theorem causeStatus_of (hc : cause ≤ 9) : causeStatus cause = (if cause = 7 then 0x0E else 1) ∧ overruns (causeStatus cause) = false ∧ causeStatus cause ≠ 0 := by
  have hstatus : causeStatus cause = (if cause = 7 then 0x0E else 1) := by
    rw [causeStatus, if_neg (by omega : ¬ cause = 10)]
  refine ⟨hstatus, ?_⟩
  rw [hstatus]
  split
  · decide
  · decide

/-- The engines after a fault: the record, and the context freed with its status. -/
theorem fault_engines (hk : k ≠ 0) (hc : cause ≤ 9) (hit : (s.eng pe).itemOf k = some it) (hkids : (s.eng pe).kids k = []) :
    (s.fault pe k cause addr).eng pe = (s.faulted pe k cause addr it).setThr k ((s.thr pe k).freed (causeStatus cause)) ∧
      ∀ pe', pe' ≠ pe → (s.fault pe k cause addr).eng pe' = s.eng pe' := by
  obtain ⟨-, hover, hzero⟩ := causeStatus_of hc
  have hrecord := faultRecord_setEng s pe (faultWords s pe k cause addr it)
  obtain ⟨hthreads, -, -, -⟩ := recorded_keeps (s.eng pe) s.time.number (faultWords s pe k cause addr it)
  have heng : (s.faultRecord pe (faultWords s pe k cause addr it)).eng pe = s.faulted pe k cause addr it := by
    rw [hrecord]
    exact eng_setEng s pe _ (recorded_ne_reset _ _ _)
  have hthr : (s.faulted pe k cause addr it).thr k = s.thr pe k := congrArg (fun m => FMap.get Thread.reset m k) hthreads
  have hengines := endOther_engines (s.faultRecord pe (faultWords s pe k cause addr it)) pe k (causeStatus cause) hk (by rw [heng]; exact (kids_congr hthreads k).trans hkids) hover
  rw [heng, hthr] at hengines
  rw [fault_eq hk hit]
  have hat : ∀ i, State.eng ((s.faultRecord pe (faultWords s pe k cause addr it)).endOther pe k (causeStatus cause) false) i = _ := fun i =>
    congrArg (fun m => FMap.get Engine.reset m i) hengines
  have hfreed : ((s.faulted pe k cause addr it).setThr k ((s.thr pe k).freed (causeStatus cause))).thr k = (s.thr pe k).freed (causeStatus cause) := thr_setThr _ _ _ (freed_ne hzero)
  refine ⟨(hat pe).trans (eng_setEng _ pe _ (engine_ne (k := k) (by rw [hfreed]; exact freed_ne hzero))), fun pe' hne => (hat pe').trans ?_⟩
  refine (eng_setEng_other _ pe pe' _ hne).trans ?_
  rw [hrecord]
  exact eng_setEng_other s pe pe' _ hne

/-- A word that holds a number of 32 bits. -/
theorem word_toNat {n : Nat} (h : n < 2 ^ 32) : (BitVec.ofNat 32 n).toNat = n := Nat.mod_eq_of_lt h

end Faults

/-- Settles O60: the engine has its record, and its context is freed. -/
theorem faultsFreeTheContextAndLeaveARecord : Obligations.FaultsFreeTheContextAndLeaveARecord := by
  unfold Obligations.FaultsFreeTheContextAndLeaveARecord
  intro s pe k cause addr it hk1 hk8 hc1 hc9 hit hkids t st th
  obtain ⟨hstatus, -, hzero⟩ := causeStatus_of hc9
  obtain ⟨heng, hothers⟩ := fault_engines (addr := addr) (Nat.ne_of_gt hk1) hc9 hit hkids
  obtain ⟨hthreads, hstore, hbankA, hbankB⟩ := recorded_keeps (s.eng pe) s.time.number (faultWords s pe k cause addr it)
  have hthr : t.thr pe k = th.freed (causeStatus cause) := (congrArg (fun e : Engine => e.thr k) heng).trans (thr_setThr _ _ _ (freed_ne hzero))
  have hch : (t.eng pe).faultCh = (s.faulted pe k cause addr it).faultCh ∧ (t.eng pe).ovf = (s.faulted pe k cause addr it).ovf := by
    rw [heng]
    exact ⟨rfl, rfl⟩
  have hst : st.toNat < 256 := st.isLt
  have hinst := it.inst.isLt
  have hgen := it.gen.isLt
  have hprog := it.program.isLt
  refine ⟨by rw [hthr]; rfl, by rw [hthr]; exact hstatus, by rw [hthr]; rfl, fun k' hne => ?_, fun hfull => ?_, fun hroom => ?_, ?_, ?_, ?_, hothers⟩
  · refine (congrArg (fun e : Engine => e.thr k') heng).trans ((thr_setThr_other _ _ _ _ hne).trans ?_)
    exact congrArg (fun m => FMap.get Thread.reset m k') hthreads
  · have hlost : s.faulted pe k cause addr it = { s.eng pe with ovf := true } := if_pos hfull
    rw [hch.1, hch.2, hlost]
    exact ⟨rfl, rfl⟩
  · have hkept : s.faulted pe k cause addr it = { s.eng pe with faultCh := (s.eng pe).faultCh ++
        [{ msg := { dst := 0, stamp := s.time.number, words := faultWords s pe k cause addr it }, read := 0 }] } := if_neg (Nat.not_le.mpr hroom)
    rw [hch.1, hch.2, hkept]
    refine ⟨rfl, faultWords s pe k cause addr it, rfl, rfl, ?_, rfl, rfl, rfl, rfl, ?_, ?_, ?_⟩
    · refine (word_toNat ?_).trans ?_
      · rw [hstatus]
        show 1 + 256 * cause + 65536 * st.toNat + 16777216 * k < 2 ^ 32
        omega
      · rw [hstatus]
    · exact word_toNat (by omega)
    · exact word_toNat (by omega)
    · exact word_toNat (by omega)
  · rw [heng]
    exact hstore
  · rw [heng]
    exact hbankA
  · rw [heng]
    exact hbankB

end Sys2Proof.Machine
end
